-- ==== Sys2Proof/Word.lean ====
section
/-! DEFINITION. The word types of the TRJ9100: registers are 32 bits wide and little-endian, a byte is 8 bits (R8, R9). -/

namespace Sys2Proof

/-- A register word of BAR0 (file 00, "Registers"). -/
abbrev Word := BitVec 32

/-- A byte (R8). -/
abbrev Byte := BitVec 8

/-- A 64-bit value of R10, and a host address. -/
abbrev DWord := BitVec 64

/-- A stroke number, modulo 2^48 (R28, Table AR-5). -/
abbrev Stroke := BitVec 48

end Sys2Proof
end

