-- ==== Sys2Proof/Syntax.lean ====
section
/-! DEFINITION. The commands of the TRJ9100, one constructor per row of spec/opcode_table.json. Nothing is computed here:
operands have the exact range the spec gives them, and what a sensor, a link partner, a DMA read or a parity check
delivered is an operand of the command it belongs to. -/

namespace Sys2Proof

/-- A region, 0–7; a flow engine and a table block carry their region's number. -/
abbrev Region := Fin 8

/-- An ingress pipeline of a region (R24). -/
abbrev Pipe := Fin 2

/-- A port block of a region, and a block-relative lane (Table RI-2, R49). -/
abbrev Oct := Fin 8

/-- A serial-lane group: a region, or 8 for the pair lanes (Table RI-13). -/
abbrev LaneGroup := Fin 9

/-- A region-relative lane; the pair lanes use 0–7. -/
abbrev LaneIx := Fin 64

/-- An HBM stack. -/
abbrev Stack := Fin 4

/-- An HBM channel of a stack. -/
abbrev Channel := Fin 16

/-- An HBM pseudo-channel of a stack. -/
abbrev PseudoCh := Fin 32

/-- A ring of the wellhead (R408). -/
abbrev RingIx := Fin 16384

/-- A host channel: 512 + this (R24). -/
abbrev HostCh := Fin 16

/-- A time domain: 0 = A, 1 = B (R501). -/
abbrev DomIx := Fin 2

/-- A byte offset within a 64 MiB BAR (Table HI-2). -/
abbrev BarOffset := BitVec 26

/-- What the parity check of a storage read found (R18, R555): the read was good, or the first read failed and the one retry
succeeded or failed too; `loc` is the LOC that the error log records (R559). -/
inductive ReadCheck where
  | good
  | retried (loc : BitVec 18)
  | failed (loc : BitVec 18)
deriving DecidableEq, Repr

/-- What a meter found while it applied a request (R393): the check of the policer's state, or the request itself in error. -/
inductive MeterFault where
  | policer (chk : ReadCheck)
  | request
deriving DecidableEq, Repr

/-- What a DMA read of descriptors brought (R435, R436): the entries, an error, or entries of which the two cache copies of the `k`-th differ when it
is used. -/
inductive FetchResult where
  | good
  | failed
  | upset (k : Fin 32)
deriving DecidableEq, Repr

/-- What the delivery of a frame to the host met (R355, R435): nothing, a parity error of its data, or a failed read of the descriptors it needs. -/
inductive HostRxFault where
  | good
  | data
  | fetch
deriving DecidableEq, Repr

/-- A sweep of a region's table block: the slots that the sweeper reads with a parity error (R228). -/
structure SweepReads where
  region : Region
  bad : List (BitVec 20 × ReadCheck) := []
deriving DecidableEq, Repr

/-- What a lookup's bucket reads met: the check of one slot, 0 to 3 of the h0 bucket or 4 to 7 of the h1 bucket (R243, R263). -/
structure BucketRead where
  chk : ReadCheck := .good
  slot : Oct := 0
deriving DecidableEq, Repr

/-- What the read of a flow record met: the check of the record, and that of the first or second dictionary entry it needs (R263, R285). -/
structure RecRead where
  chk : ReadCheck := .good
  dict : ReadCheck := .good
  second : Bool := false
deriving DecidableEq, Repr

/-- What the read of a binding entry met (R557, R312): equal copies, an error that the next read does not find, or one that lasts until the entry is
rewritten; with the LOC that the error log records. -/
inductive BindRead where
  | good
  | once (loc : BitVec 18)
  | stuck (loc : BitVec 18)
deriving DecidableEq, Repr

/-- A unit read by the compare walker: whether the shadow read succeeds, and the check of the table read (R227, R228). -/
structure CmpRead where
  dma : Bool
  chk : ReadCheck := .good
deriving DecidableEq, Repr

/-- What a cycle of the windlass met (R355 to R357). -/
inductive WindlassFault where
  | none
  | pointer
  | links (n : Region) (loc : BitVec 18)
  | data (i j : Region) (loc : BitVec 18)
deriving DecidableEq, Repr

/-- What the reception of a cell met (R355 to R357, R556): an error of its header or data, or of the group entry or of the `k`-th node that
the walk of a region copy reads. -/
inductive CellFault where
  | none
  | header
  | data (loc : BitVec 18)
  | group (chk : ReadCheck)
  | node (k : BitVec 10) (chk : ReadCheck)
deriving DecidableEq, Repr

/-- What a selection of a port's scheduler met (R355, R393, R88): an error of its tags, tokens or wheel entries, of its queue links, of the
frame's data, or of the MAC's buffer. -/
inductive SelectFault where
  | none
  | sched (q : BitVec 11)
  | links (loc : BitVec 18)
  | data (loc : BitVec 18)
  | mac
deriving DecidableEq, Repr

/-- A frame at a port's MAC (R52): preamble and SFD valid, a PCS error block inside it, ended by a new frame start or by the loss of the
link, its FCS correct; whether its cut-through forwarding had begun before its end (R55); the cell cycles since the last sync at its SFD
(R506); a parity error of the MAC's buffer (R88); and its bytes without the FCS. -/
structure RxFrame where
  preamble : Bool := true
  sfd : Bool := true
  pcs : Bool := false
  early : Bool := false
  down : Bool := false
  fcs : Bool := true
  began : Bool := false
  cyc : BitVec 11 := 0
  mac : Bool := false
  data : List Byte
deriving DecidableEq, Repr

/-- What autonegotiation resolved with (R110, R120): the technologies the partner offers at the port's width, by speed code of Table PM-11,
the FEC the two ends select, the partner's C0 and C1, and its next pages: each message page as its message code and OUI field, with the
unformatted page that followed it. -/
structure AnResult where
  tech : BitVec 8
  fec : Fin 4
  pause : BitVec 2
  pages : List (BitVec 11 × BitVec 24 × BitVec 11) := []
deriving DecidableEq, Repr

/-- The pre-FEC bit error ratios that the lanes of a port estimate (R113), one hex digit each, lane 0 lowest: the largest e with a ratio of
at most 10^−e. -/
abbrev BerEst := BitVec 32

/-- The port that starts at a lane, with the estimates of its lanes (R113). -/
structure PortBer where
  lane : LaneIx
  ber : BerEst
deriving DecidableEq, Repr

/-- A loss of signal (R112, R117): for how many µs, and whether the lane found electrical idle. -/
structure SignalLoss where
  us : BitVec 16
  idle : Bool
deriving DecidableEq, Repr

/-- A coefficient request of the link partner (R113): hold, preset, or a step of tap c(−3) to c(1), upwards or downwards. -/
inductive CoeffReq where
  | hold
  | preset
  | step (tap : Fin 5) (up : Bool)
deriving DecidableEq, Repr

/-- The row and column commands of an HBM pseudo-channel: activate, read, write, precharge of one bank and of all, per-bank and all-bank
refresh. -/
inductive HbmOp where
  | act
  | rd
  | wr
  | pre
  | preAll
  | ref
  | refAll
deriving DecidableEq, Repr

/-- A command of a pseudo-channel, with its bank (stack ID, bank and bank group as A[14:10]), row and column (Table HB-2). -/
structure HbmCmd where
  op : HbmOp
  bank : BitVec 5 := 0
  row : BitVec 14 := 0
  col : BitVec 5 := 0
deriving DecidableEq, Repr

/-- A request that reaches a pseudo-channel (Table HB-4): requester 2 to 6, and a 32-byte column to read or write, or the four columns of a
bucket from a column that is a multiple of 4 (R480). -/
structure HbmAsk where
  who : Fin 7
  write : Bool := false
  bucket : Bool := false
  bank : BitVec 5 := 0
  row : BitVec 14 := 0
  col : BitVec 5 := 0
deriving DecidableEq, Repr

/-- A command slot of a pseudo-channel: the requests that reached it since the last one, in order, and the command that requesters 2 to 6
would issue. -/
structure HbmSlot where
  asks : List HbmAsk := []
  cmd : HbmCmd
deriving DecidableEq, Repr

/-- What a region test finds: its failing rows, each by its memory, and whether the region's logic failed (R568). -/
structure TestFails where
  rows : List (Oct × BitVec 20) := []
  logic : Bool := false
deriving DecidableEq, Repr

/-- What ends in Priming: the steps before one of steps 2 to 6 of `CHIP_PRIME_STATUS.STEP`, which is under way from now on; a chip-level step, by
FAIL_STEP less 1, which fails (R614); or the last step. -/
inductive PrimeEnd where
  | step (k : Fin 5)
  | failed (f : Fin 4)
  | done
deriving DecidableEq, Repr

/-- What priming reads: the fused HBM size (R4); the regulator's VOUT_MODE exponent, and how many attempts to read it are not acknowledged (R623,
R625); the regions whose logic fails its test (R568, R614); each stack's temperature, and the cycles by which training lengthens its RL and WL (R487, R499). -/
structure PrimeData where
  gib32 : Bool := false
  voutExp : BitVec 5 := 0
  voutFails : Fin 4 := 0
  logic : BitVec 8 := 0
  temps : Vector Byte 4 := Vector.replicate 4 0
  longer : Vector (BitVec 7 × BitVec 7) 4 := Vector.replicate 4 (0, 0)
deriving DecidableEq, Repr

/-- What a receiver checks of a pair frame: its FCS is good, and its EtherType (R530). -/
structure PairCheck where
  fcs : Bool := true
  etherType : BitVec 16 := 0x88B5
deriving DecidableEq, Repr

/-- A HELLO as received (Table RD-2): its check, its SEQ, and its body. -/
structure HelloRx where
  check : PairCheck := {}
  seq : BitVec 32
  state : BitVec 3
  holding : Bool
  preferred : Bool
  healthy : Bool
  stroke : BitVec 48
  fprint : BitVec 32
deriving DecidableEq, Repr

/-- A ledger record as received (Table RD-5): stroke, LOSSY, FCSD, the counts as port and COUNT in ascending order of port, and the skips as
SEQ, port and KIND. -/
structure LedgerRec where
  stroke : BitVec 48
  lossy : Bool := false
  fcsd : BitVec 32
  counts : List (BitVec 10 × BitVec 16) := []
  skips : List (BitVec 16 × BitVec 10 × Bool) := []
deriving DecidableEq, Repr

/-- The commands. -/
inductive Instr where
  /-- REGISTER_WRITE (R12): A BAR0 write to a register that has no row of its own stores its fields by their types. -/
  | registerWrite (off : BarOffset) (size : Fin 65) (v : BitVec 64)
  /-- REGISTER_READ_CLEAR (R12): A read of an RC register returns the value and clears it, on every word the access touches. -/
  | registerReadClear (bar : Fin 3) (off : BarOffset) (size : Fin 65)
  /-- LOW_WORD_READ (R10): A read of the low word of a 64-bit value latches its high word for a later high-word read. -/
  | lowWordRead (w : BitVec 24)
  /-- STRAY_WRITE (R407): A BAR2 write off the doorbell offset, or any BAR4 write, is discarded, counted and recorded, and raises event 0x1F1. -/
  | strayWrite (bar4 : Bool) (off : BarOffset)
  /-- FRAME_RECEIVE (R52): The ingress MAC receives a frame, checks framing, length and FCS, and accepts or drops it. -/
  | frameReceive (n : Region) (l : Fin 64) (r : RxFrame)
  /-- PAUSE_EXPIRY (R64): A received pause time runs out and the paused classes resume. -/
  | pauseExpiry (n : Region) (l : Fin 64) (p : Oct)
  /-- PFC_REFRESH (R62): The refresh interval expires while a valve stays asserted and the pause frame is sent again. -/
  | pfcRefresh (n : Region) (l : Fin 64) (p : Oct)
  /-- STORM_WATCHDOG_TRIP (R63): A priority paused continuously for LIMIT_MS trips the storm watchdog: its queued frames are flushed and pause is ignored. -/
  | stormWatchdogTrip (n : Region) (l : Fin 64) (p : Oct)
  /-- STORM_WATCHDOG_REARM (R63): After RESTORE_MS with no non-zero pause time the storm watchdog re-arms. -/
  | stormWatchdogRearm (n : Region) (l : Fin 64) (p : Oct)
  /-- PB_SHAPE_WRITE (R49): A PB_SHAPE write re-forms the block's ports or is rejected or ignored, and port register sets change by R665. -/
  | pbShapeWrite (n : Region) (b : Oct) (v : Word)
  /-- PORT_CFG_WRITE (R51): A PB_PORT_CFG write stores or ignores SPEED and FEC by the prior ENABLE and enables, disables or refuses the port. -/
  | portCfgWrite (n : Region) (l : Fin 64) (v : Word)
  /-- VIOL_LOG_CLEAR (R98): A write of PB_VIOL_CTRL.CLEAR empties the violation log. -/
  | violLogClear (n : Region) (l : Fin 64) (v : Word)
  /-- HEADER_ACCEPT (R155): The ingress pipeline grants up to two headers per cycle by round robin and assigns reorder slots. -/
  | headerAccept (n : Region) (p : Pipe)
  /-- PARSE (R143): A parser engine walks the graph for one header, building the header vector and ending with one exit code. -/
  | parse (n : Region) (p : Pipe) (e : Oct) (chk : ReadCheck) (loc : BitVec 13)
  /-- REORDER_RELEASE (R157): The reorder buffer releases completed parses strictly in slot order, up to two per cycle. -/
  | reorderRelease (n : Region) (p : Pipe)
  /-- PARSE_CNT_CLEAR (R165): A write of IP_PARSE_CFG.CNT_CLEAR zeroes every exit counter. -/
  | parseCntClear (n : Region) (p : Pipe) (v : Word)
  /-- ENGINE_DISABLE (R156): A write of ENGINE_DIS removes engines from the distributor rotation, or is refused when all eight would be removed. -/
  | engineDisable (n : Region) (p : Pipe) (v : Word)
  /-- CLASSIFY (R179): The classifier builds the TCAM key, takes the first matching entry or the miss action and decides the verdict. -/
  | classify (n : Region) (p : Pipe) (chk : ReadCheck)
  /-- RECIRCULATION_PASS (R183): A recirculated frame re-enters its ingress pipeline through the recirculation port with a new key and the next pass number. -/
  | recirculationPass (n : Region)
  /-- TCAM_PARITY_CHECK (R192): In an idle search slot a TCAM bank reads an entry and invalidates it on a parity error. -/
  | tcamParityCheck (n : Region) (p : Pipe) (e : BitVec 15) (bad : Bool)
  /-- RULE_SET_ARM (R187): A write of IP_CL_SWITCH_CTRL.ARM schedules a bank switch at the stored stroke or is refused. -/
  | ruleSetArm (n : Region) (p : Pipe) (v : Word)
  /-- RULE_SET_CANCEL (R188): A write of IP_CL_SWITCH_CTRL.CANCEL clears a pending switch that is still far enough ahead, or is refused. -/
  | ruleSetCancel (n : Region) (p : Pipe) (v : Word)
  /-- SWITCH_STROKE_WRITE (R187): A write of IP_CL_SWITCH_STROKE stores the switch stroke, or is ignored while a switch is pending. -/
  | switchStrokeWrite (n : Region) (p : Pipe) (v : BitVec 48)
  /-- BANK_SWITCH (R189): When the first frame of stroke S or the watermark reaches the classifier the active bank changes and draining begins. -/
  | bankSwitch (n : Region) (p : Pipe)
  /-- DRAIN_END (R189): When the region's watermark passes the retire stroke DRAINING clears and the old bank becomes inactive. -/
  | drainEnd (n : Region) (p : Pipe)
  /-- FORWARDING_LOOKUP (R210): The table block makes the source lookup and the destination decision of Table FT-6 for the frame. -/
  | forwardingLookup (n : Region) (p : Pipe) (chk : ReadCheck) (table : Fin 4) (ix : BitVec 20)
  /-- LEARN_APPLY (R215): At its logical point a learn request creates, refreshes, moves or is refused, within the per-stroke limit. -/
  | learnApply (n : Region)
  /-- AGEING_SWEEP (R218): At a sweep boundary the table sweep clears hit bits, marks idle entries and sets pending removals. -/
  | ageingSweep (n : SweepReads)
  /-- REMOVAL_FINAL (R219): Once the watermark passes S + D − 1 each pending removal is made final or aborted. -/
  | removalFinal (n : Region)
  /-- WRITE (R222): Table command 0x10 writes COUNT entries from INDEX. -/
  | write (err : Bool)
  /-- READ (R221): Table command 0x11 reads COUNT entries from INDEX into the buffer. -/
  | read (err : Bool) (chk : ReadCheck) (bad : Fin 64)
  /-- INSERT (R667): Table command 0x12 inserts or replaces an endpoint entry by key. -/
  | insert (err : Bool)
  /-- DELETE (R221): Table command 0x13 removes an endpoint entry by key. -/
  | delete (err : Bool)
  /-- FIND (R221): Table command 0x14 returns an endpoint entry and its slot by key. -/
  | find (err : Bool)
  /-- LOCK (R226): Table command 0x15 sets LOCK on a slot and returns the entry. -/
  | lock (err : Bool)
  /-- UNLOCK (R226): Table command 0x16 clears LOCK on a slot. -/
  | unlock
  /-- SCHEDULED_COMMAND_APPLY (R223): At its stroke a queued scheduled command is applied in fetch order and completes. -/
  | scheduledCommandApply (n : Region) (flow : Bool) (err : Bool)
  /-- COMPARE_READ (R227): Each INTERVAL_NS the compare walker reads one unit and its shadow and compares them. -/
  | compareRead (n : Region) (r : CmpRead)
  /-- COMPARE_RECHECK (R227): 1,000 µs after a difference the walker reads both copies again and reports a mismatch if they still differ. -/
  | compareRecheck (n : Region) (r : CmpRead)
  /-- FLOW_LOOKUP (R246): A FLOW_EN frame's lookup request is issued to its home engine and takes a lookup-table entry. -/
  | flowLookup (n : Region) (p : Pipe) (chk : ReadCheck)
  /-- BUCKET_READ_RETURN (R243): An HBM bucket read returns to the flow engine and the record is found or absent. -/
  | bucketReadReturn (e : Region) (i : BitVec 16) (rd : BucketRead) (dict : ReadCheck) (second : Bool)
  /-- VERDICT_PASS (R247): For a verdict-stable record the engine runs a verdict pass on the stable view and releases the frame. -/
  | verdictPass (e : Region)
  /-- WATERMARK_ADVANCE (R33): A region's watermark passes a stroke once no frame of it remains in the region's ingress pipelines. -/
  | watermarkAdvance (n : Region)
  /-- STANDPIPE_RELEASE (R250): The standpipe releases stroke S to every engine once all unquarantined watermarks have passed it. -/
  | standpipeRelease
  /-- WATERMARK_DEADLINE_MISS (R35): A region whose watermark has not passed S by the end of S plus W is quarantined. -/
  | watermarkDeadlineMiss (n : Region)
  /-- COMMIT_PASS (R248): When a stroke may commit the engine runs commit passes for its frames in key order. -/
  | commitPass (e : Region)
  /-- BYPASS_ENTER (R252): An engine whose lookup table is too full or whose oldest entry is too old enters bypass. -/
  | bypassEnter (e : Region)
  /-- BYPASS_EXIT (R252): The engine leaves bypass once the table has drained below its thresholds. -/
  | bypassExit (e : Region)
  /-- FLOW_SWEEP (R255): At a flow sweep boundary the walker removes records idle past their partition's timeout. -/
  | flowSweep (e : Region)
  /-- FLOW_FIND (R258): Flow command 0x40 returns a record and its location by key. -/
  | flowFind (err : Bool) (rd : RecRead)
  /-- FLOW_INSERT (R258): Flow command 0x41 inserts or replaces logical records by key. -/
  | flowInsert (err : Bool)
  /-- FLOW_DELETE (R259): Flow command 0x42 removes a record by key. -/
  | flowDelete (err : Bool)
  /-- FLOW_READ (R258): Flow command 0x43 reads logical buckets of the named engine. -/
  | flowRead (err : Bool) (rd : RecRead) (i : Fin 64) (j : Fin 4)
  /-- FLOW_SNAPSHOT (R261): Flow command 0x44 arms a consistent snapshot of the masked partitions at stroke X. -/
  | flowSnapshot (err : Bool)
  /-- FLOW_FLUSH (R258): Flow command 0x45 writes back every dirty cache line. -/
  | flowFlush
  /-- SNAPSHOT_CAPTURE (R262): At boundary X the snapshot image is fixed, and when all buckets are copied the trailer is written and the command completes. -/
  | snapshotCapture (e : Region) (err : Bool)
  /-- PASS_DISPATCH (R289): The dispatcher gives a pass to the next pump in the pool with a free context and initialises its registers. -/
  | passDispatch (e : Region) (rd : BindRead)
  /-- ADD (R296): gD := gA + gB. -/
  | add (e : Region) (p : Fin 32) (c : Oct) (x : BitVec 26) (flt : Fin 3)
  /-- SUB (R296): gD := gA − gB. -/
  | sub (e : Region) (p : Fin 32) (c : Oct) (x : BitVec 26) (flt : Fin 3)
  /-- AND (R296): gD := gA AND gB. -/
  | and (e : Region) (p : Fin 32) (c : Oct) (x : BitVec 26) (flt : Fin 3)
  /-- OR (R296): gD := gA OR gB. -/
  | or (e : Region) (p : Fin 32) (c : Oct) (x : BitVec 26) (flt : Fin 3)
  /-- XOR (R296): gD := gA XOR gB. -/
  | xor (e : Region) (p : Fin 32) (c : Oct) (x : BitVec 26) (flt : Fin 3)
  /-- SHL (R296): gD := gA shifted left by gB mod 32. -/
  | shl (e : Region) (p : Fin 32) (c : Oct) (x : BitVec 26) (flt : Fin 3)
  /-- SHR (R296): gD := gA shifted right by gB mod 32 with zero fill. -/
  | shr (e : Region) (p : Fin 32) (c : Oct) (x : BitVec 26) (flt : Fin 3)
  /-- SAR (R296): gD := gA shifted right by gB mod 32 with sign fill. -/
  | sar (e : Region) (p : Fin 32) (c : Oct) (x : BitVec 26) (flt : Fin 3)
  /-- MUL (R296): gD := low 32 bits of gA × gB. -/
  | mul (e : Region) (p : Fin 32) (c : Oct) (x : BitVec 26) (flt : Fin 3)
  /-- MINU (R296): gD := the smaller of gA and gB. -/
  | minu (e : Region) (p : Fin 32) (c : Oct) (x : BitVec 26) (flt : Fin 3)
  /-- MAXU (R296): gD := the larger of gA and gB. -/
  | maxu (e : Region) (p : Fin 32) (c : Oct) (x : BitVec 26) (flt : Fin 3)
  /-- SLTU (R296): gD := 1 if gA < gB, else 0. -/
  | sltu (e : Region) (p : Fin 32) (c : Oct) (x : BitVec 26) (flt : Fin 3)
  /-- BSWAP (R296): gD := the bytes of gA reversed. -/
  | bswap (e : Region) (p : Fin 32) (c : Oct) (x : BitVec 26) (flt : Fin 3)
  /-- ADDI (R296): gD := gA + sign-extended IMM. -/
  | addi (e : Region) (p : Fin 32) (c : Oct) (x : BitVec 26) (flt : Fin 3)
  /-- ANDI (R296): gD := gA AND zero-extended IMM. -/
  | andi (e : Region) (p : Fin 32) (c : Oct) (x : BitVec 26) (flt : Fin 3)
  /-- ORI (R296): gD := gA OR zero-extended IMM. -/
  | ori (e : Region) (p : Fin 32) (c : Oct) (x : BitVec 26) (flt : Fin 3)
  /-- XORI (R296): gD := gA XOR zero-extended IMM. -/
  | xori (e : Region) (p : Fin 32) (c : Oct) (x : BitVec 26) (flt : Fin 3)
  /-- LUI (R296): gD := IMM × 2^16. -/
  | lui (e : Region) (p : Fin 32) (c : Oct) (x : BitVec 26) (flt : Fin 3)
  /-- SHLI (R296): gD := gA shifted left by IMM[4:0]. -/
  | shli (e : Region) (p : Fin 32) (c : Oct) (x : BitVec 26) (flt : Fin 3)
  /-- SHRI (R296): gD := gA shifted right by IMM[4:0] with zero fill. -/
  | shri (e : Region) (p : Fin 32) (c : Oct) (x : BitVec 26) (flt : Fin 3)
  /-- EXT (R296): gD := a zero-extended bit field of gA. -/
  | ext (e : Region) (p : Fin 32) (c : Oct) (x : BitVec 26) (flt : Fin 3)
  /-- INS (R296): Inserts the low bits of gA into a bit field of gD. -/
  | ins (e : Region) (p : Fin 32) (c : Oct) (x : BitVec 26) (flt : Fin 3)
  /-- SLTIU (R296): gD := 1 if gA < zero-extended IMM, else 0. -/
  | sltiu (e : Region) (p : Fin 32) (c : Oct) (x : BitVec 26) (flt : Fin 3)
  /-- LI (R296): gD := sign-extended IMM. -/
  | li (e : Region) (p : Fin 32) (c : Oct) (x : BitVec 26) (flt : Fin 3)
  /-- BEQ (R296): Branches to TARGET if gA = gB. -/
  | beq (e : Region) (p : Fin 32) (c : Oct) (x : BitVec 26) (flt : Fin 3)
  /-- BNE (R296): Branches to TARGET if gA ≠ gB. -/
  | bne (e : Region) (p : Fin 32) (c : Oct) (x : BitVec 26) (flt : Fin 3)
  /-- BLTU (R296): Branches to TARGET if gA < gB. -/
  | bltu (e : Region) (p : Fin 32) (c : Oct) (x : BitVec 26) (flt : Fin 3)
  /-- BGEU (R296): Branches to TARGET if gA ≥ gB. -/
  | bgeu (e : Region) (p : Fin 32) (c : Oct) (x : BitVec 26) (flt : Fin 3)
  /-- BBS (R296): Branches to TARGET if bit B of gA is 1. -/
  | bbs (e : Region) (p : Fin 32) (c : Oct) (x : BitVec 26) (flt : Fin 3)
  /-- BBC (R296): Branches to TARGET if bit B of gA is 0. -/
  | bbc (e : Region) (p : Fin 32) (c : Oct) (x : BitVec 26) (flt : Fin 3)
  /-- JMP (R296): Jumps to TARGET. -/
  | jmp (e : Region) (p : Fin 32) (c : Oct) (x : BitVec 26) (flt : Fin 3)
  /-- JAL (R296): gD := address + 1 and jumps to TARGET. -/
  | jal (e : Region) (p : Fin 32) (c : Oct) (x : BitVec 26) (flt : Fin 3)
  /-- JR (R296): Jumps to gA[13:0]. -/
  | jr (e : Region) (p : Fin 32) (c : Oct) (x : BitVec 26) (flt : Fin 3)
  /-- LDR (R292): gD := record-window word WORD, after RECORD holds. -/
  | ldr (e : Region) (p : Fin 32) (c : Oct) (x : BitVec 26) (flt : Fin 3)
  /-- STR (R292): Stores gD into a writable record-window word. -/
  | str (e : Region) (p : Fin 32) (c : Oct) (x : BitVec 26) (flt : Fin 3)
  /-- LDM (R293): gD := metadata-window word WORD. -/
  | ldm (e : Region) (p : Fin 32) (c : Oct) (x : BitVec 26) (flt : Fin 3)
  /-- LDF (R296): gD := a bit field of a record or metadata word. -/
  | ldf (e : Region) (p : Fin 32) (c : Oct) (x : BitVec 26) (flt : Fin 3)
  /-- STF (R292): Stores the low bits of gD into a field of a record word. -/
  | stf (e : Region) (p : Fin 32) (c : Oct) (x : BitVec 26) (flt : Fin 3)
  /-- HASH (R297): gD := CRC-32C over N registers from gA. -/
  | hash (e : Region) (p : Fin 32) (c : Oct) (x : BitVec 26) (flt : Fin 3)
  /-- CADD (R298): Adds gA to PKTS or BYTES of the record window by the counter encoding. -/
  | cadd (e : Region) (p : Fin 32) (c : Oct) (x : BitVec 26) (flt : Fin 3)
  /-- HADD (R300): Buffers one add to the record's histogram set. -/
  | hadd (e : Region) (p : Fin 32) (c : Oct) (x : BitVec 26) (flt : Fin 3)
  /-- RWR (R299): Buffers a header rewrite of 1 to 4 bytes. -/
  | rwr (e : Region) (p : Fin 32) (c : Oct) (x : BitVec 26) (flt : Fin 3)
  /-- EMIT (R301): Buffers one export entry for a stream. -/
  | emit (e : Region) (p : Fin 32) (c : Oct) (x : BitVec 26) (flt : Fin 3)
  /-- VERD (R302): Sets the pass's buffered verdict. -/
  | verd (e : Region) (p : Fin 32) (c : Oct) (x : BitVec 26) (flt : Fin 3)
  /-- WAIT (R303): Holds the context until RECORD, STROKE, CREDIT or TIMER holds. -/
  | wait (e : Region) (p : Fin 32) (c : Oct) (x : BitVec 26) (flt : Fin 3)
  /-- COMMIT (R304): Ends the pass at its commit point, writing, keeping or removing the record and releasing buffered effects. -/
  | commit (e : Region) (p : Fin 32) (c : Oct) (x : BitVec 26) (flt : Fin 5)
  /-- FAIL (R308): Ends the pass as failed with a CODE. -/
  | fail (e : Region) (p : Fin 32) (c : Oct) (x : BitVec 26) (flt : Fin 3)
  /-- NOP (R296): No operation. -/
  | nop (e : Region) (p : Fin 32) (c : Oct) (x : BitVec 26) (flt : Fin 3)
  /-- ILLEGAL (R296): An unassigned opcode is a fault with cause 0x01. -/
  | illegal (e : Region) (p : Fin 32) (c : Oct) (w : Word) (flt : Fin 3)
  /-- WAIT_SATISFIED (R303): A waiting context's condition becomes true and it resumes issue. -/
  | waitSatisfied (e : Region) (p : Fin 32) (c : Oct)
  /-- PMP_POOL_WRITE (R317): A PMP_POOL write removes or adds pumps, abandoning and redispatching the passes of a removed pump. -/
  | pmpPoolWrite (e : Region) (v : Word)
  /-- PUMP_TEST_START (R318): A write of PMP_TEST.START starts the built-in test of a pump out of the pool, or is refused. -/
  | pumpTestStart (e : Region) (v : Word)
  /-- PUMP_TEST_END (R318): The pump test ends with PASS or FAIL and raises the test event. -/
  | pumpTestEnd (e : Region) (pass : Bool)
  /-- SUMP_WRITE (R340): The sump writer writes a frame with its header into sump pages and frees its ingress buffer. -/
  | sumpWrite (n : Region) (q : BitVec 14)
  /-- SUMP_READBACK (R341): The sump reader reads a queue's frame back into staging in order. -/
  | sumpReadback (n : Region) (q : BitVec 14) (bad : Bool)
  /-- WINDLASS_MATCH (R344): Each windlass cycle the five planes match inputs to outputs and move their pointers. -/
  | windlassMatch (flt : WindlassFault)
  /-- CELL_RECEIVE (R345): The destination region receives a frame's cells and restores their order into its egress buffer. -/
  | cellReceive (i j : Region) (flt : CellFault)
  /-- FREE_LOG_CLEAR (R367): A write of CIS_FREE_LOG_CTRL.CLEAR empties the free log. -/
  | freeLogClear (n : Region) (v : Word)
  /-- METER_REQUEST_SEND (R386): A region sends completed meter slots in key order with its meter watermark. -/
  | meterRequestSend (n : Region) (bad : Option (Fin 4096))
  /-- METER_APPLY (R387): Once all meter watermarks pass S the policer meters the requests of S in key order. -/
  | meterApply (n : Region) (flt : MeterFault)
  /-- POLICER_PUSH (R390): A write of TM_POL_SCHED_CTRL.PUSH queues a scheduled policer change or is refused. -/
  | policerPush (n : Region) (v : Word)
  /-- POLICER_CHANGE_APPLY (R390): Before the requests of stroke X a queued change sets EN and PROFILE and fills the buckets. -/
  | policerChangeApply (n : Region)
  /-- POLICER_PEEK (R397): A write of TM_POL_PEEK_IDX captures the policer's state into the peek registers. -/
  | policerPeek (n : Region) (v : Word)
  /-- PORT_SELECT (R375): When a port's egress MAC can accept a frame the traffic manager selects the head of one eligible class. -/
  | portSelect (n : Region) (l : Fin 66) (cyc : BitVec 11) (flt : SelectFault)
  /-- WHEEL_SLOT_DUE (R381): A timing-wheel slot comes due and its shapers or gate waits become eligible or move to finer levels. -/
  | wheelSlotDue (n : Region)
  /-- STARVE_PROMOTE (R377): A class eligible but unselected for STARVE_US is promoted. -/
  | starvePromote (n : Region) (q : BitVec 11)
  /-- GATE_ENTRY_CHANGE (R382): A gate-list interval ends and the next entry's gates apply. -/
  | gateEntryChange (n : Region) (l : Fin 64) (bad : Option (Fin 256))
  /-- GATE_SWITCH (R384): A write of TM_GATE_CTRL.SWITCH makes a gate bank pending or is ignored. -/
  | gateSwitch (n : Region) (l : Fin 66) (v : Word)
  /-- GATE_BANK_ACTIVATE (R384): At the activation instant the pending gate bank becomes active and frames that can never fit are dropped. -/
  | gateBankActivate (n : Region) (l : Fin 64)
  /-- DIPSTICK_SAMPLE (R391): Once per lap the dipstick samples a queue's depth into its histogram. -/
  | dipstickSample (n : Region)
  /-- DIPSTICK_COPY (R391): A write of TM_DIP_SEL copies a queue's histograms into the read window, optionally clearing them. -/
  | dipstickCopy (n : Region) (v : Word)
  /-- HOST_RECEIVE (R421): A frame for a host channel passes the filters, is steered to a ring and written into posted buffers. -/
  | hostReceive (c : HostCh) (flt : HostRxFault)
  /-- PME_REPEAT (R78): Every 100 ms while PME_Status stays 1 the PM_PME message is sent again. -/
  | pmeRepeat
  /-- AN_RESOLVED (R110): Autonegotiation resolves a common technology and the lanes step up to training. -/
  | anResolved (g : LaneGroup) (l : LaneIx) (r : AnResult)
  /-- AN_PAGE_ERROR (R112): An AN page sequence error fails the attempt with code 0x20. -/
  | anPageError (g : LaneGroup) (l : LaneIx)
  /-- AN_TIMEOUT (R112): AN not resolved within AN_TIMEOUT_MS fails the attempt. -/
  | anTimeout (g : LaneGroup) (l : LaneIx)
  /-- COEFF_REQUEST (R113): A partner coefficient request moves a tap or is answered at limit. -/
  | coeffRequest (g : LaneGroup) (l : LaneIx) (r : CoeffReq) (bad : Bool)
  /-- COEFF_TIMEOUT (R112): A coefficient request unanswered for 2 ms fails the attempt. -/
  | coeffTimeout (g : LaneGroup) (l : LaneIx) (ber : BerEst)
  /-- TRAIN_COMPLETE (R113): Every lane meets the training target and the port enters ALIGN. -/
  | trainComplete (g : LaneGroup) (l : PortBer)
  /-- TRAIN_TIMEOUT (R112): A lane not at target within TRAIN_TIMEOUT_MS fails the attempt. -/
  | trainTimeout (g : LaneGroup) (l : LaneIx) (ber : BerEst)
  /-- ALIGN_COMPLETE (R108): Alignment-marker lock, deskew and FEC lock complete and the port is UP. -/
  | alignComplete (g : LaneGroup) (l : LaneIx)
  /-- ALIGN_TIMEOUT (R112): Alignment not complete within 50 ms fails the attempt with 0x33. -/
  | alignTimeout (g : LaneGroup) (l : LaneIx)
  /-- HOLD_EXPIRY (R108): HOLD_DOWN_MS expires and a new attempt begins. -/
  | holdExpiry (g : LaneGroup) (l : LaneIx)
  /-- LANE_RESTART (R119): A write of LANE_CTRL.RESTART clears ATTEMPTS and HOLDS and begins one attempt. -/
  | laneRestart (g : LaneGroup) (l : LaneIx) (v : Word)
  /-- LANE_CLEAR_FAIL (R116): A write of LANE_CTRL.CLEAR_FAIL clears a lane's failed mark. -/
  | laneClearFail (g : LaneGroup) (l : LaneIx) (v : Word)
  /-- PRBS_CLEAR (R133): A write of LANE_CTRL.PRBS_CLEAR zeroes the PRBS counters. -/
  | prbsClear (g : LaneGroup) (l : LaneIx) (v : Word)
  /-- PRBS_INJECT (R128): A write of LANE_CTRL.INJECT inverts one bit of the generator's next word. -/
  | prbsInject (g : LaneGroup) (l : LaneIx) (v : Word)
  /-- PRBS_ENABLE (R126): A write setting GEN_EN or CHK_EN is accepted or refused by the lane's state. -/
  | prbsEnable (g : LaneGroup) (l : LaneIx) (v : Word)
  /-- PRBS_LOCK (R125): After 1,024 error-free bits the PRBS checker locks and begins counting. -/
  | prbsLock (g : LaneGroup) (l : LaneIx)
  /-- PRBS_LOCK_LOSS (R125): 32 errors in a 1,024-bit window make the checker lose lock. -/
  | prbsLockLoss (g : LaneGroup) (l : LaneIx) (n : BitVec 48) (errs : BitVec 48)
  /-- LOSS_OF_SIGNAL (R117): An active lane without signal for DOWN_DEBOUNCE_US takes the port down. -/
  | lossOfSignal (g : LaneGroup) (l : LaneIx) (x : SignalLoss) (wire : Bool)
  /-- ALIGNMENT_LOCK_LOSS (R117): Loss of alignment-marker lock or skew out of tolerance takes the port down. -/
  | alignmentLockLoss (g : LaneGroup) (l : LaneIx) (wire : Bool)
  /-- REMOTE_FAULT (R117): A received remote fault takes the port down. -/
  | remoteFault (g : LaneGroup) (l : LaneIx) (wire : Bool)
  /-- FLAP_HOLD_EXPIRY (R83): FLAP_HOLD_MS expires with the port still down and every queued frame for it is flushed. -/
  | flapHoldExpiry (n : Region) (l : Fin 64)
  /-- QUIET_ENTER (R121): After ENTER_US with nothing to send the transmitter sends the quiet-enter marker and goes idle. -/
  | quietEnter (g : LaneGroup) (l : LaneIx)
  /-- QUIET_REFRESH (R121): Every 200 µs in quiet a 256 ns refresh burst is sent. -/
  | quietRefresh (g : LaneGroup) (l : LaneIx)
  /-- QUIET_MARKER_RECEIVE (R122): A receiver that decodes the quiet-enter marker holds its state and ignores the loss of signal. -/
  | quietMarkerReceive (g : LaneGroup) (l : LaneIx)
  /-- QUIET_TIMEOUT (R122): No refresh or exit within 400 µs in quiet takes the link down. -/
  | quietTimeout (g : LaneGroup) (l : LaneIx) (wire : Bool)
  /-- QUIET_EXIT (R123): A frame ready to send makes the transmitter leave quiet with a burst and an alignment-marker group. -/
  | quietExit (g : LaneGroup) (l : LaneIx)
  /-- QUIET_RELOCK_TIMEOUT (R123): Alignment not confirmed within 2 µs of the exit burst takes the port down. -/
  | quietRelockTimeout (g : LaneGroup) (l : LaneIx) (wire : Bool)
  /-- DOORBELL (R412): A doorbell write sets a fetched ring's tail or a written ring's head and arm, or halts the device when malformed. -/
  | doorbell (r : RingIx) (v : Word) (full : Bool)
  /-- DESCRIPTOR_FETCH (R417): A DMA read of descriptors returns into the ring's descriptor cache. -/
  | descriptorFetch (r : RingIx) (n : Fin 33) (res : FetchResult)
  /-- TRANSMIT_CHAIN_BEGIN (R420): The host channel arbiter grants a ready transmit chain and its frame data read begins. -/
  | transmitChainBegin (c : HostCh) (mis : Option (Fin 64))
  /-- TRANSMIT_DATA_RETURN (R420): A host frame's data arrives and the frame is presented to its ingress pipeline for admission. -/
  | transmitDataReturn (c : HostCh) (err : Bool)
  /-- MODERATION_TIMER (R429): TIMER_US expires on an armed non-empty written ring. -/
  | moderationTimer (r : RingIx)
  /-- VECTOR_UNMASK (R428): Unmasking a vector with its pending bit set sends the message. -/
  | vectorUnmask (v : BitVec 11) (x : Word)
  /-- RING_ENABLE (R430): A write of HIF_RING_CTRL.ENABLE := 1 enables the ring or is refused. -/
  | ringEnable (r : RingIx) (v : Word)
  /-- RING_DISABLE (R432): A write of ENABLE := 0 starts a fetched ring's disable, or disables or refuses a written ring. -/
  | ringDisable (r : RingIx) (v : Word)
  /-- RING_DISABLE_COMPLETE (R432): Begun work done, the ring publishes its head, enters DISABLED and raises event 0x103. -/
  | ringDisableComplete (r : RingIx)
  /-- RING_INVALIDATE (R418): A write of HIF_RING_INVAL.GO suspends fetching on a ring or is refused. -/
  | ringInvalidate (v : Word)
  /-- INVALIDATION_COMPLETE (R418): Unbegun cached entries are discarded, HIF_INVAL_FROM is written and BUSY clears. -/
  | invalidationComplete
  /-- HEAD_WRITEBACK (R434): The published head is written back to host memory. -/
  | headWriteback (r : RingIx)
  /-- EVENT_RECORD_WRITE (R462): When the event ring has room a record is written, continuations before the header. -/
  | eventRecordWrite (r : RingIx)
  /-- HBM_COMMAND_ISSUE (R479): Each cycle a pseudo-channel issues one command from the lowest requester with a legal command ready. -/
  | hbmCommandIssue (st : Stack) (q : PseudoCh) (ready : BitVec 7) (c : HbmSlot)
  /-- HBM_READ_RETURN (R481): Read data returns and is parity-checked, reissued once on error. -/
  | hbmReadReturn (st : Stack) (q : PseudoCh) (i : BitVec 8) (bad : Bool)
  /-- PER_BANK_REFRESH (R482): A bank's refresh interval comes due and it is refreshed, unless postponed. -/
  | perBankRefresh (st : Stack) (q : PseudoCh) (post : Bool)
  /-- HBM_TEMP_READ (R482): Every 1 ms the controller reads the stack temperature and doubles refresh at 85 °C. -/
  | hbmTempRead (st : Stack) (t : Byte)
  /-- REFRESH_WINDOW_START (R483): At the start of each refresh window the activate tables are emptied. -/
  | refreshWindowStart (st : Stack)
  /-- NEIGHBOUR_REFRESH (R483): A row's activate count reaching ACT_THRESH refreshes its neighbour rows. -/
  | neighbourRefresh (st : Stack) (q : PseudoCh) (bank : BitVec 5)
  /-- RETRY_RETIRE (R485): A command is retired from the retry buffer 40 ns after issue. -/
  | retryRetire (st : Stack) (q : PseudoCh)
  /-- CMD_PARITY_ALERT (R485): A command-parity alert stops issue on the channel and replays its marked commands. -/
  | cmdParityAlert (st : Stack) (c : Channel) (passes : List (Bool × Fin 32 × Oct)) (staged : List (Bool × BitVec 14 × BitVec 48 × BitVec 10 × BitVec 16))
  /-- RETRAIN (R488): A write of HBM_CH_CTRL.RETRAIN starts an in-service retrain or is ignored. -/
  | retrain (st : Stack) (c : Channel) (v : Word)
  /-- RETRAIN_SLICE (R488): A retrain slice takes the channel out for at most 2 µs, and the last applies the new settings or fences. -/
  | retrainSlice (st : Stack) (c : Channel) (what : Fin 4)
  /-- FENCE (R491): A channel is fenced: its pseudo-channels leave the live set and their records and sump frames are lost. -/
  | fence (st : Stack) (c : Channel) (v : Word)
  /-- FREQ_CHANGE_GO (R492): A write of HBM_FREQ_CTRL.GO starts a stack frequency change or is refused. -/
  | freqChangeGo (st : Stack) (v : Word)
  /-- FREQ_CHANGE_COMPLETE (R493): The clock relocks, self-refresh exits, channels are checked and service resumes. -/
  | freqChangeComplete (st : Stack) (fail : BitVec 16) (us : Byte)
  /-- TIME_ADJ_WRITE (R503): A write of TIME_ADJ replaces the domain's remaining adjustment, which is then slewed in. -/
  | timeAdjWrite (d : DomIx) (v : Word)
  /-- TIME_LOAD (R504): A write of TIME_LOAD_CTRL.GO loads a domain or is refused. -/
  | timeLoad (d : DomIx)
  /-- TIME_SNAP (R505): A write of TIME_SNAP.GO captures both domains in one tick. -/
  | timeSnap
  /-- CELL_SYNC (R506): Every 1.024 µs the distributor sends both domain times and each cell sets its corrections. -/
  | cellSync (cycles : BitVec 16) (bad : Option (Fin 1024))
  /-- STAMP_DOMAIN_WRITE (R510): A write of STAMP_DOMAIN changes the stamping domain in all cells at the second sync. -/
  | stampDomainWrite (v : DomIx)
  /-- OSW_ARM (R512): A write of TIME_OSW_CTRL.ARM schedules an ordering-source switch or is refused. -/
  | oswArm (v : Word)
  /-- OSW_CANCEL (R512): A write of TIME_OSW_CTRL.CANCEL clears a pending switch that is far enough ahead. -/
  | oswCancel (v : Word)
  /-- ORDERING_SOURCE_SWITCH (R513): When the old source reaches X × L the lead is measured and the switch is made or refused. -/
  | orderingSourceSwitch
  /-- PULSE_ENABLE (R516): A write of EN := 1 arms a pulse output at the next edge at least 100 ns ahead. -/
  | pulseEnable (i : Fin 4) (v : Word)
  /-- PULSE_DISABLE (R517): A write of EN := 0 stops further pulse edges. -/
  | pulseDisable (i : Fin 4) (v : Word)
  /-- PULSE_EDGE (R515): At an edge time the pulse output goes to its active level. -/
  | pulseEdge (i : Fin 4)
  /-- PULSE_WIDTH_END (R515): After WIDTH ns the pulse output returns to its inactive level. -/
  | pulseWidthEnd (i : Fin 4)
  /-- CAPTURE_EDGE (R518): An accepted capture-input transition is stamped into the FIFO, or dropped by gap or fullness. -/
  | captureEdge (i : Fin 4) (rising : Bool) (back : BitVec 16)
  /-- CAPTURE_READ (R520): A read of TIME_CAPT_NS returns and removes the head stamp and latches its seconds. -/
  | captureRead (i : Fin 4)
  /-- HELLO_SEND (R530): Every 10 µs the device sends a HELLO on the pair link. -/
  | helloSend
  /-- HELLO_RECEIVE (R530): A received HELLO updates the peer state and the fingerprint check. -/
  | helloReceive (h : HelloRx)
  /-- PAIR_LINK_TIMEOUT (R531): No valid HELLO for 100 µs makes the pair link down. -/
  | pairLinkTimeout
  /-- PAIR_HOLD_IN_CHANGE (R533): PAIR_HOLD_IN changes level: a held line closes the gate at once, a release starts the release timer. -/
  | pairHoldInChange (held : Bool)
  /-- RELEASE_TIMER_EXPIRY (R534): PAIR_HOLD_IN released for RELEASE_US lets a standby with AUTO_TAKEOVER begin a claim. -/
  | releaseTimerExpiry
  /-- PAIR_CLAIM (R534): A write of PAIR_CTRL.CLAIM starts a claim by driving PAIR_HOLD_OUT. -/
  | pairClaim (v : Word)
  /-- CLAIM_CONFIRM (R534): 1 µs after driving its line the device checks PAIR_HOLD_IN and enters Active or backs off. -/
  | claimConfirm
  /-- CLAIM_BACKOFF_EXPIRY (R534): The claim back-off ends and a claim may be made again. -/
  | claimBackoffExpiry
  /-- LEDGER_SEND (R538): After a stroke's stamping is final the active sends its ledger record. -/
  | ledgerSend
  /-- LEDGER_RECEIVE (R539): A standby receives a ledger record and matches held frames to ordering keys. -/
  | ledgerReceive (chk : PairCheck) (seq : BitVec 32) (recs : List LedgerRec)
  /-- LEDGER_LAG_TIMEOUT (R542): A frame that waited LEDGER_LAG_US with no ledger slot loses lockstep. -/
  | ledgerLagTimeout
  /-- DIGEST_SEND (R543): When a digest period closes the active sends its 16 sums. -/
  | digestSend
  /-- DIGEST_RECEIVE (R544): A standby compares a received DIGEST with its own sums. -/
  | digestReceive (chk : PairCheck) (seq : BitVec 32) (period : BitVec 48) (sums : List (BitVec 64))
  /-- DIGEST_TIMEOUT (R544): Own sums not ready within 100 µs of the DIGEST count as differing. -/
  | digestTimeout
  /-- PAIR_JOIN (R545): A write of PAIR_CTRL.JOIN schedules entry to lockstep at stroke Y or is refused. -/
  | pairJoin (v : Word)
  /-- JOIN_STROKE_REACHED (R545): At stroke Y the standby enters Standby-Lockstep. -/
  | joinStrokeReached
  /-- PAIR_YIELD (R546): A write of PAIR_CTRL.YIELD makes the active hand over by the peer's state. -/
  | pairYield (v : Word)
  /-- YIELD_REQ (R546): A received YIELD_REQ makes the active choose H and send YIELD_ACK. -/
  | yieldReq (chk : PairCheck) (seq : BitVec 32)
  /-- YIELD_ACK (R546): A received YIELD_ACK lets the reverting unit claim after the release. -/
  | yieldAck (chk : PairCheck) (seq : BitVec 32) (h : BitVec 48)
  /-- HANDOVER_STROKE (R546): At stroke H the old active closes its gate and releases its line and the new active takes its own strokes. -/
  | handoverStroke
  /-- REVERT_TIMEOUT (R536): No YIELD_ACK within 1 ms returns a Reverting unit to its previous state. -/
  | revertTimeout
  /-- HOLDOFF_EXPIRY (R547): A preferred standby healthy for HOLDOFF_S enters Reverting and sends YIELD_REQ. -/
  | holdoffExpiry
  /-- HOLD_STUCK (R549): PAIR_HOLD_IN held for 100 ms while HELLOs show HOLDING = 0 is flagged stuck. -/
  | holdStuck
  /-- HOLD_CHATTER (R549): More than 8 PAIR_HOLD_IN transitions in 1 ms make the line read held for 100 ms. -/
  | holdChatter
  /-- PAIR_CAP_ARM (R553): A write of PAIR_CAP_CTRL.ARM schedules a table capture at a stroke or is refused. -/
  | pairCapArm (v : Word)
  /-- TABLE_CAPTURE (R553): At the capture stroke each table block writes its endpoint slots to host memory. -/
  | tableCapture (err : Bool)
  /-- HOST_HALT (R562): A write of CHIP_HALT_CTRL with KEY 0x5A halts the device with cause 0x01. -/
  | hostHalt (v : Word)
  /-- QUARANTINE (R564): A write of REG_Q_CTRL.QUARANTINE quarantines, cancels a rejoin of, or is refused for a region. -/
  | quarantine (n : Region) (v : Word)
  /-- DRAIN_COMPLETE (R566): A draining region's drain completes and it enters ISOLATED. -/
  | drainComplete (n : Region)
  /-- BIST_START (R568): A write of REG_Q_CTRL.BIST_START starts the test of an ISOLATED region. -/
  | bistStart (n : Region) (v : Word)
  /-- REGION_TEST_END (R568): The region test ends, leaving memories zero and logging failing rows. -/
  | regionTestEnd (n : Region) (fails : TestFails)
  /-- REJOIN (R569): A write of REG_Q_CTRL.REJOIN schedules an isolated region's return at stroke X or is refused. -/
  | rejoin (n : Region) (v : Word)
  /-- REJOIN_STROKE_REACHED (R569): At stroke X the region takes the bank state, joins the standpipe and returns to RUN. -/
  | rejoinStrokeReached (n : Region)
  /-- SCRUB_READ (R571): The background scrubber reads the next line in an idle cycle and applies the store's rule on error. -/
  | scrubRead (u : Fin 13) (m : Oct) (kind : Oct) (k : BitVec 26) (chk : ReadCheck)
  /-- REGION_RANGE_PASS (R573): A write of REG_SCRUB_PASS.GO starts a range pass over a region memory or is refused. -/
  | regionRangePass (n : Region) (v : Word)
  /-- HBM_RANGE_PASS (R573): A write of HBM_SCRUB_PASS.GO starts a range pass over a pseudo-channel or is refused. -/
  | hbmRangePass (st : Stack) (v : Word)
  /-- RANGE_PASS_DONE (R573): A range pass ends, writes its summary, clears BUSY and raises its event. -/
  | rangePassDone (u : Fin 12) (bad : List (BitVec 24 × Fin 17 × Bool))
  /-- RETIREMENT_WRITE (R576): A write of REG_RETIRE redirects a row to a spare row or is refused. -/
  | retirementWrite (n : Region) (i : Byte) (v : Word) (objs : List (BitVec 26))
  /-- HBM_RETIRE_WRITE (R577): A write of HBM_RETIRE retires an HBM row or bank or is refused. -/
  | hbmRetireWrite (st : Stack) (i : BitVec 10) (v : Word)
  /-- ERR_LOG_CLEAR (R583): A write of CHIP_ERR_LOG_CTRL.CLEAR empties the error log. -/
  | errLogClear (v : Word)
  /-- FREEZE_ARM (R594): A write of CT_CTRL.FREEZE_ARM schedules a counter freeze or is refused. -/
  | freezeArm (v : Word)
  /-- THAW_ARM (R594): A write of CT_CTRL.THAW_ARM schedules a thaw or is refused. -/
  | thawArm (v : Word)
  /-- SNAP_ARM (R594): A write of CT_CTRL.SNAP_ARM schedules a counter snapshot or is refused. -/
  | snapArm (v : Word)
  /-- COUNTER_CANCEL (R594): A write of CT_CTRL.CANCEL clears pending arms still far enough ahead. -/
  | counterCancel (v : Word)
  /-- BOUNDARY_COMPLETE (R596): Once every unit has passed a counter boundary the freeze, thaw or snapshot completes and raises event 0x050. -/
  | boundaryComplete (kind : Fin 3)
  /-- SAMPLE_FREE (R593): Writing 1 to CT_SAMPLE.VALID frees the sample register. -/
  | sampleFree (u : Fin 138) (v : Word)
  /-- ROUTINE_HIST_COPY (R601): A write of PMP_RT_HIST_SEL copies a routine's histogram into the read window, optionally clearing it. -/
  | routineHistCopy (e : Region) (v : Word)
  /-- SUPPLY_LOSS (R606): Loss of supplies returns the device to Off. -/
  | supplyLoss
  /-- SYS_RESET_ASSERT (R609): SYS_RESET_N asserted for 10 µs makes a full reset into Strap. -/
  | sysResetAssert (us : BitVec 16) (valid : Bool)
  /-- SYS_RESET_DEASSERT (R612): SYS_RESET_N deasserted latches the straps and begins priming. -/
  | sysResetDeassert (straps : Byte)
  /-- WARM_RESET (R610): WARM_RESET_N asserted makes a warm reset into Priming, keeping what R610 names. -/
  | warmReset (us : BitVec 16)
  /-- RESET_CTRL_FULL (R609): A write of CHIP_RESET_CTRL.FULL with KEY 0xC3 makes a full reset 1 µs later. -/
  | resetCtrlFull (v : Word)
  /-- RESET_CTRL_WARM (R609): A write of CHIP_RESET_CTRL.WARM with KEY 0x3C makes a warm reset. -/
  | resetCtrlWarm (v : Word)
  /-- WELLHEAD_RESET (R611): PCIE_PERST_N, a hot reset or DL_Down resets the wellhead alone. -/
  | wellheadReset (perst : Bool)
  /-- PRIMING_COMPLETE (R606): Priming steps finish and the chip enters Configurable, or stays in Priming on a chip-level failure. -/
  | primingComplete (e : PrimeEnd) (ms : BitVec 16) (rows : List (Region × Oct × BitVec 20)) (bad : List (Stack × Channel)) (repairs : List (Stack × Channel × BitVec 4)) (d : PrimeData)
  /-- CHIP_RUN (R616): A write of CHIP_STATE_CTRL.RUN schedules Running at stroke Y or is refused. -/
  | chipRun (v : Word)
  /-- RUN_STROKE_REACHED (R616): At stroke Y the chip enters Running. -/
  | runStrokeReached
  /-- CHIP_QUIESCE (R617): A write of CHIP_STATE_CTRL.QUIESCE schedules a stop at stroke Q or is refused. -/
  | chipQuiesce (v : Word)
  /-- QUIESCE_STROKE_REACHED (R617): From stroke Q received frames are discarded and transmit rings are not fetched. -/
  | quiesceStrokeReached
  /-- QUIESCE_FLUSH_TIMEOUT (R617): 10 ms after Q remaining egress frames are flushed. -/
  | quiesceFlushTimeout
  /-- QUIESCE_DRAIN_DONE (R617): All watermarks pass Q − 1 with queues empty and the chip enters Quiesced. -/
  | quiesceDrainDone
  /-- CHIP_CONFIG (R619): A write of CHIP_STATE_CTRL.CONFIG in Quiesced returns the chip to Configurable. -/
  | chipConfig (v : Word)
  /-- AVS_TICK (R624): Every 100 µs the device computes TARGET_MV and commands a voltage step. -/
  | avsTick (target : BitVec 10) (fails : Fin 4)
  /-- PMBUS_POLL (R625): Every 1 ms the device reads READ_IOUT and STATUS_WORD and halts on a regulator fault. -/
  | pmbusPoll (iout : BitVec 11) (uv oc pgood : Bool) (fails1 fails2 : Fin 4)
  /-- THERMAL_READ (R634): Every 10 µs the junction reading is taken, warning at WARN_C and halting at TRIP_C. -/
  | thermalRead (t : Byte)
  /-- IDLE_STEP_DOWN (R628): A level-8 region idle for IDLE_US with GATE_EN set begins stepping down. -/
  | idleStepDown (n : Region)
  /-- WAKE_STEP_UP (R628): Work for a region below level 8 makes it step up. -/
  | wakeStepUp (n : Region)
  /-- LEVEL_STEP_GRANT (R629): With 12.5 A of budget the governor grants a waiting region one level step. -/
  | levelStepGrant
  /-- RAIL_LOW (R635): A rail below its minimum for 1 µs halts the device with cause 0x32. -/
  | railLow
  /-- BYPASS (R646): The TAP instruction BYPASS selects the bypass register. -/
  | bypass
  /-- IDCODE (R646): The TAP instruction IDCODE selects the identity register. -/
  | idcode
  /-- SAMPLE_PRELOAD (R646): The TAP instruction SAMPLE/PRELOAD samples or preloads the boundary register. -/
  | samplePreload (pins preload : BitVec 25)
  /-- EXTEST (R646): The TAP instruction EXTEST drives the pins from the boundary register while SYS_RESET_N is asserted. -/
  | extest (pins : BitVec 25)
  /-- HIGHZ (R646): The TAP instruction HIGHZ floats the outputs while SYS_RESET_N is asserted. -/
  | highz
  /-- PCIE_PERST_N_DEASSERT (R609): Deassertion of PCIE_PERST_N lets the wellhead enable PCIe link training up to PCIE_MAX. -/
  | pciePerstNDeassert
  /-- PCIE_LINK_UP (R78): The PCIe link reaches L0, setting HIF_STATUS.LINK_UP and releasing a held PCIE_WAKE_N. -/
  | pcieLinkUp (speed : Fin 7) (width : Fin 17) (flit : Bool)
  /-- CONFIG_SPACE_WRITE (R77): A PCIe configuration write changes the power state, PME_En, PME_Status or the MSI-X function mask. -/
  | configSpaceWrite (power : Fin 5) (pmeEn : Bool) (pmeClear : Bool) (fnMask : Bool)
  /-- PARTNER_AN_RESTART (R109): The link partner restarts autonegotiation, which counts as a failed attempt. -/
  | partnerAnRestart (g : LaneGroup) (l : LaneIx)
  /-- REFRESH_BURST_RECEIVE (R122): A receiver in quiet receives a refresh burst, which restarts its 400 µs timeout. -/
  | refreshBurstReceive (g : LaneGroup) (l : LaneIx)
  /-- QUIET_RELOCK (R123): The receiver relocks on the exit burst, confirms alignment and leaves receive quiet. -/
  | quietRelock (g : LaneGroup) (l : LaneIx)
  /-- CHATTER_HOLD_END (R549): 100 ms after the last transition of a chattering PAIR_HOLD_IN, the line stops being treated as held. -/
  | chatterHoldEnd
  /-- DOMAIN_COUNTER_MISMATCH (R522): The two copies of a domain counter differ at a tick, clearing an unused domain or halting the device. -/
  | domainCounterMismatch (d : DomIx)
deriving DecidableEq, Repr

end Sys2Proof
end

