-- ==== Sys2Proof/Config.lean ====
section
/-! DEFINITION. What the spec leaves open: free values, each an opaque constant with no body, applied to the model's counter
of free values or to the operands it depends on. Nothing in Lean can evaluate one. -/

namespace Sys2Proof

/-- A value the spec leaves open, fresh at each use of the counter (log entry 3). -/
opaque Config.freeValue : Nat → BitVec 64

/-- The ring and index that a sample of an MSI-X message names when no one ring sends it, by the number of things the device has sent: Table CT-3
names no item for it (log entry 200). -/
opaque Config.freeItem : Nat → BitVec 31

/-- Bit `i` of the short stress pattern of IEEE 802.3, which Table SL-5 names and does not give (log entry 172). -/
opaque Config.stressBit : Nat → Bool

/-- Row `row` of memory `m` (0 the cistern, 1 the flow cache) of region `n` holds data of object `i`, a buffer or a cached line: the spec gives no
layout of these memories (log entry 152). -/
opaque Config.rowHolds (n m row i : Nat) : Bool

/-- The Vendor ID assigned to Keluth, which the spec does not give (R405, log entry 175). -/
opaque Config.vendorId : BitVec 16

/-- The manufacturer field of the identity register, which the spec does not give (R646, log entry 4). -/
opaque Config.manufacturer : BitVec 11

end Sys2Proof
end

