-- ==== Sys2Proof/Machine/Fields.lean ====
section
/-! DEFINITION. Sparse maps in canonical form, field places of registers, register descriptors (R12, Table SC-3) and the
storing rules of the field tables. Everything that reads or writes a field of a register or a word goes through here. -/

namespace Sys2Proof.Machine

/-! ### Sparse maps

A store keyed by number is a list of (key, value) pairs, keys strictly rising and no value equal to what an unlisted key
reads as; `dflt` says what that is. -/

/-- The value a sparse map holds at `k`; an unlisted key reads as `dflt k`. -/
def sget {α : Type} (dflt : Nat → α) : List (Nat × α) → Nat → α
  | [], k => dflt k
  | (k', v) :: m, k => if k = k' then v else sget dflt m k

/-- Store `v` at `k`, keeping the canonical form: storing what an unlisted key reads as removes the entry. -/
def sset {α : Type} [DecidableEq α] (dflt : Nat → α) : List (Nat × α) → Nat → α → List (Nat × α)
  | [], k, v => if v = dflt k then [] else [(k, v)]
  | (k', v') :: m, k, v =>
    if k < k' then (if v = dflt k then (k', v') :: m else (k, v) :: (k', v') :: m)
    else if k = k' then (if v = dflt k then m else (k, v) :: m)
    else (k', v') :: sset dflt m k v

/-- The canonical form: keys strictly rising from above `lo`, no entry equal to the default. -/
def scanon {α : Type} [DecidableEq α] (dflt : Nat → α) : Nat → List (Nat × α) → Bool
  | _, [] => true
  | lo, (k, v) :: m => decide (lo ≤ k) && decide (v ≠ dflt k) && scanon dflt (k + 1) m

/-- A map with one default value for every key. -/
def mget {α : Type} (d : α) (m : List (Nat × α)) (k : Nat) : α := sget (fun _ => d) m k

/-- Store into a map with one default value for every key. -/
def mset {α : Type} [DecidableEq α] (d : α) (m : List (Nat × α)) (k : Nat) (v : α) : List (Nat × α) :=
  sset (fun _ => d) m k v

/-! ### Bits -/

/-- The `w` bits of `v` from bit `lo` up. -/
def bits (v lo w : Nat) : Nat := v / 2 ^ lo % 2 ^ w

/-- `v` with the `w` bits from bit `lo` up replaced by the low `w` bits of `x`. -/
def putBits (v lo w x : Nat) : Nat :=
  v - bits v lo w * 2 ^ lo + x % 2 ^ w * 2 ^ lo

/-- Bit `i` of `v`. -/
def bit (v i : Nat) : Bool := v / 2 ^ i % 2 = 1

/-- 1 for true, 0 for false. -/
def b2n (b : Bool) : Nat := if b then 1 else 0

/-- `v` as a signed number of `w` bits. -/
def signed (w v : Nat) : Int := if v % 2 ^ w < 2 ^ (w - 1) then (v % 2 ^ w : Nat) else (v % 2 ^ w : Nat) - (2 ^ w : Nat)

/-- The `w`-bit encoding of a signed number. -/
def unsigned (w : Nat) (i : Int) : Nat := (i % (2 ^ w : Nat)).toNat

/-- A counter of `w` bits that saturates. -/
def satAdd (w v n : Nat) : Nat := min (v + n) (2 ^ w - 1)

/-- Ceiling of a division. -/
def cdiv (a b : Nat) : Nat := (a + b - 1) / b

/-- The largest of `a` and the members of a list. -/
def maxOf (a : Nat) (l : List Nat) : Nat := l.foldl max a

/-- The bytes of `v`, `n` of them, lowest first (little-endian). -/
def bytesLE : Nat → Nat → List Byte
  | 0, _ => []
  | n + 1, v => BitVec.ofNat 8 v :: bytesLE n (v / 256)

/-- The number that little-endian bytes spell. -/
def natLE : List Byte → Nat
  | [] => 0
  | b :: l => b.toNat + 256 * natLE l

/-- The number that big-endian (network order) bytes spell. -/
def natBE (l : List Byte) : Nat := l.foldl (fun a b => a * 256 + b.toNat) 0

/-- The bytes of `v`, `n` of them, highest first (network order). -/
def bytesBE (n v : Nat) : List Byte := (bytesLE n v).reverse

/-- Replace the element at place `i` of a list, leaving it as it is where `i` lies beyond its end. -/
def setAt {α : Type} : List α → Nat → α → List α
  | [], _, _ => []
  | _ :: l, 0, a => a :: l
  | b :: l, n + 1, a => b :: setAt l n a

/-- Write `new` over the bytes of `l` that start at `off`; bytes past its end are not written. -/
def overwrite {α : Type} : List α → Nat → List α → List α
  | l, _, [] => l
  | l, off, a :: as => overwrite (setAt l off a) (off + 1) as

/-- The first place at which `p` holds. -/
def findIdx {α : Type} (p : α → Bool) : List α → Option Nat
  | [] => none
  | a :: l => if p a then some 0 else (findIdx p l).map (· + 1)

/-! ### Strokes (R30) -/

/-- (b − a) mod 2^48. -/
def strokeDiff (a b : Nat) : Nat := (b + 2 ^ 48 - a % 2 ^ 48) % 2 ^ 48

/-- R30: stroke `a` precedes stroke `b`. -/
def strokeLt (a b : Nat) : Bool := decide (1 ≤ strokeDiff a b) && decide (strokeDiff a b ≤ 2 ^ 47 - 1)

/-- Stroke `a` precedes `b` or equals it. -/
def strokeLe (a b : Nat) : Bool := strokeDiff a b = 0 || strokeLt a b

/-- The lead test of R187: `x` lies at least 64 and at most 2^47 − 1 strokes ahead of `now`. -/
def leadOk (now x : Nat) : Bool := decide (64 ≤ strokeDiff now x) && decide (strokeDiff now x ≤ 2 ^ 47 - 1)

/-! ### Register descriptors -/

/-- A field: the word of its register, its lowest bit counted from that word, and its width. -/
structure Fld where
  w : Nat
  lo : Nat
  width : Nat
deriving DecidableEq, Repr

/-- A storing rule of a field table: a value from `a` to `b` written to the field at `lo` is stored as `c`. -/
structure Fix where
  lo : Nat
  width : Nat
  a : Nat
  b : Nat
  c : Nat
deriving DecidableEq, Repr

/-- The registers whose writes or reads do more than their field types say; `plain` is every other register. -/
inductive RegId where
  | plain
  | bankTable
  | chipErrLogCtrl
  | chipEvtPend
  | chipEvtSrc
  | chipHaltCtrl
  | chipResetCtrl
  | chipStateCtrl
  | chipStrokeCfg
  | chipStrokeNow
  | cisEqValve
  | cisFreeLogCtrl
  | cisInValve
  | cisMcGroup
  | cisMcNode
  | cisMir
  | cisPfcValve
  | cisPoolCfg
  | cisSpillCfg
  | cisSumpCfg
  | ctCnt
  | ctSel
  | ctUnitStatus
  | ctCtrl
  | ctCycle
  | ctSample
  | feErr
  | feHashSeed
  | feHomeSeed
  | fePartCfg
  | hbmChCtrl
  | hbmFreqCtrl
  | hbmRetire
  | hbmScrubPass
  | hifRingCtrl
  | hifRingCtx
  | hifRingInval
  | ipClSwitchCtrl
  | ipClSwitchStroke
  | ipParseCfg
  | laneCfg
  | laneCtrl
  | lanePrbsCfg
  | lanePrbsCnt
  | laneTxTaps
  | msixCtrl
  | pairCapCtrl
  | pairCfg
  | chipDet
  | pairCtrl
  | pairStatus
  | pbPortCfg
  | pbPortSet
  | pbShape
  | pbViolCtrl
  | pmpBind
  | pmpPool
  | pmpRtHistSel
  | pmpStore
  | pmpTest
  | regQCtrl
  | regRetire
  | regScrubPass
  | spCfg
  | tblCfg
  | tblHashSeed
  | timeAdj
  | timeCaptNs
  | timeCfg
  | timeLoadCtrl
  | timeOswCtrl
  | timePulseCtrl
  | timePulsePeriod
  | timePulseStartNs
  | timePulseStartSec
  | timePulseWidth
  | timeSnap
  | tblAge
  | tblStatus
  | feSweep
  | feStatus
  | tmClass
  | tmDipSel
  | tmGateCtrl
  | tmGateList
  | tmPort
  | tmPolPeekIdx
  | tmPolSchedCtrl
  | wlCfg
deriving DecidableEq, Repr

/-- One register of the map: its first word, its repetitions (count, stride in words), its words, whether R10 joins two words,
its reset value, and the masks of its field types (Table SC-3): RW and RWS, RW1C, RC; the rest is RO, WO or reserved and
takes no write. `cfg` marks the Configurable-only fields (R663), `r43` those whose change outside Configurable is an
unscheduled write (R43). -/
structure RegDesc where
  base : Nat
  dims : List (Nat × Nat) := []
  nw : Nat := 1
  wide : Bool := false
  rst : Nat := 0
  rw : Nat := 0
  w1c : Nat := 0
  rc : Nat := 0
  cfg : Nat := 0
  r43 : Nat := 0
  fixes : List Fix := []
  id : RegId := .plain
  sub : Nat := 0
deriving DecidableEq, Repr

/-- The element of a repeated register that word offset `o` (counted from its base) falls in, and the word within it. -/
def locateDims : List (Nat × Nat) → Nat → Option (List Nat × Nat)
  | [], o => some ([], o)
  | (n, st) :: ds, o =>
    if o / st < n then (locateDims ds (o % st)).map (fun r => (o / st :: r.1, r.2)) else none

/-- A register found at a word offset: its descriptor, the indices of the element and the word within it. -/
structure RegHit where
  desc : RegDesc
  idx : List Nat
  word : Nat
deriving DecidableEq, Repr

/-- Does word offset `w` fall in the register? -/
def RegDesc.hit (d : RegDesc) (w : Nat) : Option RegHit :=
  if w < d.base then none
  else match locateDims d.dims (w - d.base) with
    | none => none
    | some (ix, k) => if k < d.nw then some ⟨d, ix, k⟩ else none

/-- Apply the storing rules of a register's fields to the value about to be stored. -/
def applyFixes : List Fix → Nat → Nat
  | [], v => v
  | f :: fs, v =>
    applyFixes fs (if f.a ≤ bits v f.lo f.width ∧ bits v f.lo f.width ≤ f.b then putBits v f.lo f.width f.c else v)

/-- The bits of `v` that a mask selects. -/
def maskAnd (v m : Nat) : Nat := v &&& m

/-- `old` with the masked bits taken from `new`. -/
def maskPut (old new m : Nat) : Nat := (old - (old &&& m)) + (new &&& m)

/-- The first word of the serial-lane block of lane group `g`: regions 0–7, and 8 for the pair lanes (Table RI-13). -/
def laneBase (g : Nat) : Nat := if g < 8 then (0x01300000 + g * 0x400000) / 4 else 0x380000 / 4

end Sys2Proof.Machine
end

