-- ==== Sys2Proof/Machine/RegMap.lean ====
section
/-! DEFINITION. The register map of BAR0: every register of the register index (file 22, R659, R660), with the places of its
fields, its reset value and its field types, from the field tables of the chapters. -/

namespace Sys2Proof.Machine

/-- `CHIP_ID`, Table BU-5: word offset in BAR0 (index tables of file 22). -/
def CHIP_ID.w : Nat := 0
def CHIP_ID.STEPPING : Fld := ⟨CHIP_ID.w, 0, 8⟩
def CHIP_ID.HBM_GIB : Fld := ⟨CHIP_ID.w, 8, 8⟩
def CHIP_ID.PART : Fld := ⟨CHIP_ID.w, 16, 16⟩
/-- `CHIP_STRAP`, Table BU-5: word offset in BAR0 (index tables of file 22). -/
def CHIP_STRAP.w : Nat := 1
def CHIP_STRAP.PCIE_MAX : Fld := ⟨CHIP_STRAP.w, 0, 2⟩
def CHIP_STRAP.HBM_LOW : Fld := ⟨CHIP_STRAP.w, 2, 1⟩
def CHIP_STRAP.PMBUS_ADDR : Fld := ⟨CHIP_STRAP.w, 3, 3⟩
def CHIP_STRAP.LBIST_SKIP : Fld := ⟨CHIP_STRAP.w, 6, 1⟩
def CHIP_STRAP.FACTORY : Fld := ⟨CHIP_STRAP.w, 7, 1⟩
/-- `CHIP_STATE`, Table BU-6: word offset in BAR0 (index tables of file 22). -/
def CHIP_STATE.w : Nat := 2
def CHIP_STATE.STATE : Fld := ⟨CHIP_STATE.w, 0, 3⟩
def CHIP_STATE.WARM : Fld := ⟨CHIP_STATE.w, 3, 1⟩
def CHIP_STATE.DRAINING : Fld := ⟨CHIP_STATE.w, 4, 1⟩
def CHIP_STATE.CTRL_RESULT : Fld := ⟨CHIP_STATE.w, 5, 2⟩
/-- `CHIP_STATE_CTRL`, Table BU-6: word offset in BAR0 (index tables of file 22). -/
def CHIP_STATE_CTRL.w : Nat := 3
def CHIP_STATE_CTRL.RUN : Fld := ⟨CHIP_STATE_CTRL.w, 0, 1⟩
def CHIP_STATE_CTRL.QUIESCE : Fld := ⟨CHIP_STATE_CTRL.w, 1, 1⟩
def CHIP_STATE_CTRL.CONFIG : Fld := ⟨CHIP_STATE_CTRL.w, 2, 1⟩
/-- `CHIP_RESET_CTRL`, Table BU-6: word offset in BAR0 (index tables of file 22). -/
def CHIP_RESET_CTRL.w : Nat := 4
def CHIP_RESET_CTRL.FULL : Fld := ⟨CHIP_RESET_CTRL.w, 0, 1⟩
def CHIP_RESET_CTRL.WARM : Fld := ⟨CHIP_RESET_CTRL.w, 1, 1⟩
def CHIP_RESET_CTRL.KEY : Fld := ⟨CHIP_RESET_CTRL.w, 8, 8⟩
/-- `CHIP_PRIME_STATUS`, Table BU-6: word offset in BAR0 (index tables of file 22). -/
def CHIP_PRIME_STATUS.w : Nat := 5
def CHIP_PRIME_STATUS.STEP : Fld := ⟨CHIP_PRIME_STATUS.w, 0, 4⟩
def CHIP_PRIME_STATUS.FAIL : Fld := ⟨CHIP_PRIME_STATUS.w, 4, 1⟩
def CHIP_PRIME_STATUS.FAIL_STEP : Fld := ⟨CHIP_PRIME_STATUS.w, 5, 3⟩
def CHIP_PRIME_STATUS.PRIME_MS : Fld := ⟨CHIP_PRIME_STATUS.w, 16, 16⟩
/-- `CHIP_RUN_STROKE`, Table BU-6: word offset in BAR0 (index tables of file 22). -/
def CHIP_RUN_STROKE.w : Nat := 6
def CHIP_RUN_STROKE.STROKE : Fld := ⟨CHIP_RUN_STROKE.w, 0, 48⟩
/-- `CHIP_QUIESCE_STROKE`, Table BU-6: word offset in BAR0 (index tables of file 22). -/
def CHIP_QUIESCE_STROKE.w : Nat := 8
def CHIP_QUIESCE_STROKE.STROKE : Fld := ⟨CHIP_QUIESCE_STROKE.w, 0, 48⟩
/-- `CHIP_STROKE_CFG`, Table AR-10: word offset in BAR0 (index tables of file 22). -/
def CHIP_STROKE_CFG.w : Nat := 16
def CHIP_STROKE_CFG.LEN : Fld := ⟨CHIP_STROKE_CFG.w, 0, 2⟩
def CHIP_STROKE_CFG.RECIRC_LAG : Fld := ⟨CHIP_STROKE_CFG.w, 8, 6⟩
def CHIP_STROKE_CFG.EFF_RECIRC_LAG : Fld := ⟨CHIP_STROKE_CFG.w, 16, 6⟩
def CHIP_STROKE_CFG.VERDICT_LAG : Fld := ⟨CHIP_STROKE_CFG.w, 24, 6⟩
def CHIP_STROKE_CFG.SRC_LEDGER : Fld := ⟨CHIP_STROKE_CFG.w, 30, 1⟩
/-- `CHIP_STROKE_NOW`, Table AR-11: word offset in BAR0 (index tables of file 22). -/
def CHIP_STROKE_NOW.w : Nat := 18
def CHIP_STROKE_NOW.STROKE : Fld := ⟨CHIP_STROKE_NOW.w, 0, 48⟩
/-- `CHIP_DET_STATUS`, Table AR-12: word offset in BAR0 (index tables of file 22). -/
def CHIP_DET_STATUS.w : Nat := 20
def CHIP_DET_STATUS.PARITY : Fld := ⟨CHIP_DET_STATUS.w, 0, 1⟩
def CHIP_DET_STATUS.BYPASS : Fld := ⟨CHIP_DET_STATUS.w, 1, 1⟩
def CHIP_DET_STATUS.SUMP_EXHAUST : Fld := ⟨CHIP_DET_STATUS.w, 2, 1⟩
def CHIP_DET_STATUS.UNSCHED_WRITE : Fld := ⟨CHIP_DET_STATUS.w, 3, 1⟩
def CHIP_DET_STATUS.QUARANTINE : Fld := ⟨CHIP_DET_STATUS.w, 4, 1⟩
def CHIP_DET_STATUS.ORDER_CLAMP : Fld := ⟨CHIP_DET_STATUS.w, 5, 1⟩
/-- `CHIP_DET_STROKE`, Table AR-13: word offset in BAR0 (index tables of file 22). -/
def CHIP_DET_STROKE.w : Nat := 22
def CHIP_DET_STROKE.STROKE : Fld := ⟨CHIP_DET_STROKE.w, 0, 48⟩
/-- `CHIP_HALT_CAUSE`, Table EV-9: word offset in BAR0 (index tables of file 22). -/
def CHIP_HALT_CAUSE.w : Nat := 24
def CHIP_HALT_CAUSE.CAUSE : Fld := ⟨CHIP_HALT_CAUSE.w, 0, 8⟩
/-- `CHIP_HALT_CTRL`, Table EV-9: word offset in BAR0 (index tables of file 22). -/
def CHIP_HALT_CTRL.w : Nat := 25
def CHIP_HALT_CTRL.HALT : Fld := ⟨CHIP_HALT_CTRL.w, 0, 1⟩
def CHIP_HALT_CTRL.KEY : Fld := ⟨CHIP_HALT_CTRL.w, 8, 8⟩
/-- `CHIP_ERR_LOG_CTRL`, Table EV-9: word offset in BAR0 (index tables of file 22). -/
def CHIP_ERR_LOG_CTRL.w : Nat := 26
def CHIP_ERR_LOG_CTRL.VALID : Fld := ⟨CHIP_ERR_LOG_CTRL.w, 0, 7⟩
def CHIP_ERR_LOG_CTRL.OVERWRITTEN : Fld := ⟨CHIP_ERR_LOG_CTRL.w, 8, 8⟩
def CHIP_ERR_LOG_CTRL.CLEAR : Fld := ⟨CHIP_ERR_LOG_CTRL.w, 16, 1⟩
/-- `CHIP_EVT_STATUS`, Table EV-9: word offset in BAR0 (index tables of file 22). -/
def CHIP_EVT_STATUS.w : Nat := 27
def CHIP_EVT_STATUS.UNROUTED : Fld := ⟨CHIP_EVT_STATUS.w, 0, 16⟩
def CHIP_EVT_STATUS.LOST : Fld := ⟨CHIP_EVT_STATUS.w, 16, 16⟩
/-- `CHIP_EVT_SUMMARY`, Table EV-10: word offset in BAR0 (index tables of file 22). -/
def CHIP_EVT_SUMMARY.w (k : Nat) : Nat := 128 + k * 1
def CHIP_EVT_SUMMARY.GROUPS (k : Nat) : Fld := ⟨CHIP_EVT_SUMMARY.w k, 0, 32⟩
/-- `CHIP_ERR_LOG`, Table EV-10: word offset in BAR0 (index tables of file 22). -/
def CHIP_ERR_LOG.w (i : Nat) : Nat := 256 + i * 4
def CHIP_ERR_LOG.UNIT (i : Nat) : Fld := ⟨CHIP_ERR_LOG.w i, 0, 4⟩
def CHIP_ERR_LOG.MEM (i : Nat) : Fld := ⟨CHIP_ERR_LOG.w i, 4, 4⟩
def CHIP_ERR_LOG.RETRY_OK (i : Nat) : Fld := ⟨CHIP_ERR_LOG.w i, 8, 1⟩
def CHIP_ERR_LOG.REPEAT (i : Nat) : Fld := ⟨CHIP_ERR_LOG.w i, 16, 16⟩
def CHIP_ERR_LOG.LOC (i : Nat) : Fld := ⟨CHIP_ERR_LOG.w i, 32, 32⟩
def CHIP_ERR_LOG.STROKE (i : Nat) : Fld := ⟨CHIP_ERR_LOG.w i, 64, 32⟩
/-- `CHIP_EVT_PEND`, Table EV-10: word offset in BAR0 (index tables of file 22). -/
def CHIP_EVT_PEND.w (i : Nat) : Nat := 512 + i * 1
def CHIP_EVT_PEND.PEND (i : Nat) : Fld := ⟨CHIP_EVT_PEND.w i, 0, 32⟩
/-- `CHIP_EVT_SRC`, Table EV-10: word offset in BAR0 (index tables of file 22). -/
def CHIP_EVT_SRC.w (i : Nat) : Nat := 16384 + i * 1
def CHIP_EVT_SRC.RING (i : Nat) : Fld := ⟨CHIP_EVT_SRC.w i, 0, 14⟩
def CHIP_EVT_SRC.EN (i : Nat) : Fld := ⟨CHIP_EVT_SRC.w i, 14, 1⟩
def CHIP_EVT_SRC.MERGED (i : Nat) : Fld := ⟨CHIP_EVT_SRC.w i, 16, 8⟩
/-- `PWR_CFG`, Table PW-6: word offset in BAR0 (index tables of file 22). -/
def PWR_CFG.w : Nat := 262144
def PWR_CFG.SLEW : Fld := ⟨PWR_CFG.w, 0, 8⟩
def PWR_CFG.GATE_EN : Fld := ⟨PWR_CFG.w, 8, 8⟩
def PWR_CFG.IDLE_US : Fld := ⟨PWR_CFG.w, 16, 16⟩
/-- `PWR_STATUS`, Table PW-6: word offset in BAR0 (index tables of file 22). -/
def PWR_STATUS.w : Nat := 262145
def PWR_STATUS.LEVEL (x : Nat) : Fld := ⟨PWR_STATUS.w, 0 + x * 4, 4⟩
/-- `PWR_ERR`, Table PW-6: word offset in BAR0 (index tables of file 22). -/
def PWR_ERR.w : Nat := 262146
def PWR_ERR.PMBUS_NACK : Fld := ⟨PWR_ERR.w, 0, 1⟩
def PWR_ERR.THERM_WARN : Fld := ⟨PWR_ERR.w, 1, 1⟩
def PWR_ERR.PARITY : Fld := ⟨PWR_ERR.w, 2, 1⟩
/-- `PWR_AVS`, Table PW-6: word offset in BAR0 (index tables of file 22). -/
def PWR_AVS.w : Nat := 262147
def PWR_AVS.TARGET_MV : Fld := ⟨PWR_AVS.w, 0, 10⟩
def PWR_AVS.SET_MV : Fld := ⟨PWR_AVS.w, 10, 10⟩
def PWR_AVS.EN : Fld := ⟨PWR_AVS.w, 20, 1⟩
/-- `PWR_THERM`, Table PW-6: word offset in BAR0 (index tables of file 22). -/
def PWR_THERM.w : Nat := 262148
def PWR_THERM.TEMP_C : Fld := ⟨PWR_THERM.w, 0, 8⟩
def PWR_THERM.WARN_C : Fld := ⟨PWR_THERM.w, 8, 8⟩
def PWR_THERM.TRIP_C : Fld := ⟨PWR_THERM.w, 16, 8⟩
/-- `PWR_IOUT`, Table PW-6: word offset in BAR0 (index tables of file 22). -/
def PWR_IOUT.w : Nat := 262149
def PWR_IOUT.IOUT_A : Fld := ⟨PWR_IOUT.w, 0, 11⟩
/-- `TIME_CFG`, Table TI-6: word offset in BAR0 (index tables of file 22). -/
def TIME_CFG.w : Nat := 524288
def TIME_CFG.STAMP_DOMAIN : Fld := ⟨TIME_CFG.w, 0, 1⟩
/-- `TIME_STATUS`, Table TI-6: word offset in BAR0 (index tables of file 22). -/
def TIME_STATUS.w : Nat := 524289
def TIME_STATUS.STAMP_ACTIVE : Fld := ⟨TIME_STATUS.w, 0, 1⟩
def TIME_STATUS.ORDER_SRC : Fld := ⟨TIME_STATUS.w, 1, 1⟩
def TIME_STATUS.DOM_INVALID : Fld := ⟨TIME_STATUS.w, 2, 2⟩
def TIME_STATUS.UNLOCKED : Fld := ⟨TIME_STATUS.w, 4, 10⟩
/-- `TIME_ERR`, Table TI-6: word offset in BAR0 (index tables of file 22). -/
def TIME_ERR.w : Nat := 524290
def TIME_ERR.PARITY : Fld := ⟨TIME_ERR.w, 0, 1⟩
def TIME_ERR.LOAD_REFUSED : Fld := ⟨TIME_ERR.w, 1, 1⟩
def TIME_ERR.ARM_REJECT : Fld := ⟨TIME_ERR.w, 2, 1⟩
def TIME_ERR.CELL_UNLOCK : Fld := ⟨TIME_ERR.w, 3, 1⟩
def TIME_ERR.CAPT_OVERFLOW : Fld := ⟨TIME_ERR.w, 4, 1⟩
def TIME_ERR.PULSE_LATE : Fld := ⟨TIME_ERR.w, 5, 1⟩
def TIME_ERR.CFG_IGNORED : Fld := ⟨TIME_ERR.w, 6, 1⟩
/-- `TIME_ERR_LOC`, Table TI-6: word offset in BAR0 (index tables of file 22). -/
def TIME_ERR_LOC.w : Nat := 524291
def TIME_ERR_LOC.INDEX : Fld := ⟨TIME_ERR_LOC.w, 0, 10⟩
def TIME_ERR_LOC.KIND : Fld := ⟨TIME_ERR_LOC.w, 10, 2⟩
/-- `TIME_SNAP`, Table TI-6: word offset in BAR0 (index tables of file 22). -/
def TIME_SNAP.w : Nat := 524292
def TIME_SNAP.GO : Fld := ⟨TIME_SNAP.w, 0, 1⟩
def TIME_SNAP.READY : Fld := ⟨TIME_SNAP.w, 1, 1⟩
/-- `TIME_OSW_CTRL`, Table TI-6: word offset in BAR0 (index tables of file 22). -/
def TIME_OSW_CTRL.w : Nat := 524293
def TIME_OSW_CTRL.TARGET : Fld := ⟨TIME_OSW_CTRL.w, 0, 1⟩
def TIME_OSW_CTRL.ARM : Fld := ⟨TIME_OSW_CTRL.w, 1, 1⟩
def TIME_OSW_CTRL.CANCEL : Fld := ⟨TIME_OSW_CTRL.w, 2, 1⟩
def TIME_OSW_CTRL.PENDING : Fld := ⟨TIME_OSW_CTRL.w, 3, 1⟩
def TIME_OSW_CTRL.RESULT : Fld := ⟨TIME_OSW_CTRL.w, 4, 2⟩
def TIME_OSW_CTRL.MAX_LEAD : Fld := ⟨TIME_OSW_CTRL.w, 8, 11⟩
/-- `TIME_OSW_STROKE`, Table TI-6: word offset in BAR0 (index tables of file 22). -/
def TIME_OSW_STROKE.w : Nat := 524294
def TIME_OSW_STROKE.STROKE : Fld := ⟨TIME_OSW_STROKE.w, 0, 48⟩
/-- `TIME_INCR`, Table TI-7: word offset in BAR0 (index tables of file 22). -/
def TIME_INCR.w (d : Nat) : Nat := 524352 + d * 16
def TIME_INCR.FRAC (d : Nat) : Fld := ⟨TIME_INCR.w d, 0, 32⟩
def TIME_INCR.NS (d : Nat) : Fld := ⟨TIME_INCR.w d, 32, 4⟩
/-- `TIME_ADJ`, Table TI-7: word offset in BAR0 (index tables of file 22). -/
def TIME_ADJ.w (d : Nat) : Nat := 524354 + d * 16
def TIME_ADJ.OFFSET_NS (d : Nat) : Fld := ⟨TIME_ADJ.w d, 0, 32⟩
/-- `TIME_ADJ_CFG`, Table TI-7: word offset in BAR0 (index tables of file 22). -/
def TIME_ADJ_CFG.w (d : Nat) : Nat := 524355 + d * 16
def TIME_ADJ_CFG.PPM (d : Nat) : Fld := ⟨TIME_ADJ_CFG.w d, 0, 8⟩
/-- `TIME_ADJ_REMAIN`, Table TI-7: word offset in BAR0 (index tables of file 22). -/
def TIME_ADJ_REMAIN.w (d : Nat) : Nat := 524356 + d * 16
def TIME_ADJ_REMAIN.NS (d : Nat) : Fld := ⟨TIME_ADJ_REMAIN.w d, 0, 32⟩
/-- `TIME_LOAD_NS`, Table TI-7: word offset in BAR0 (index tables of file 22). -/
def TIME_LOAD_NS.w (d : Nat) : Nat := 524357 + d * 16
def TIME_LOAD_NS.NS (d : Nat) : Fld := ⟨TIME_LOAD_NS.w d, 0, 30⟩
/-- `TIME_LOAD_SEC`, Table TI-7: word offset in BAR0 (index tables of file 22). -/
def TIME_LOAD_SEC.w (d : Nat) : Nat := 524358 + d * 16
def TIME_LOAD_SEC.SEC (d : Nat) : Fld := ⟨TIME_LOAD_SEC.w d, 0, 48⟩
/-- `TIME_LOAD_CTRL`, Table TI-7: word offset in BAR0 (index tables of file 22). -/
def TIME_LOAD_CTRL.w (d : Nat) : Nat := 524360 + d * 16
def TIME_LOAD_CTRL.GO (d : Nat) : Fld := ⟨TIME_LOAD_CTRL.w d, 0, 1⟩
/-- `TIME_SNAP_NS`, Table TI-7: word offset in BAR0 (index tables of file 22). -/
def TIME_SNAP_NS.w (d : Nat) : Nat := 524361 + d * 16
def TIME_SNAP_NS.NS (d : Nat) : Fld := ⟨TIME_SNAP_NS.w d, 0, 30⟩
/-- `TIME_SNAP_FRAC`, Table TI-7: word offset in BAR0 (index tables of file 22). -/
def TIME_SNAP_FRAC.w (d : Nat) : Nat := 524362 + d * 16
def TIME_SNAP_FRAC.FRAC (d : Nat) : Fld := ⟨TIME_SNAP_FRAC.w d, 0, 32⟩
/-- `TIME_SNAP_SEC`, Table TI-7: word offset in BAR0 (index tables of file 22). -/
def TIME_SNAP_SEC.w (d : Nat) : Nat := 524364 + d * 16
def TIME_SNAP_SEC.SEC (d : Nat) : Fld := ⟨TIME_SNAP_SEC.w d, 0, 48⟩
/-- `TIME_CELL_INCR`, Table TI-8: word offset in BAR0 (index tables of file 22). -/
def TIME_CELL_INCR.w (c : Nat) : Nat := 525312 + c * 4
def TIME_CELL_INCR.INCR (c : Nat) : Fld := ⟨TIME_CELL_INCR.w c, 0, 32⟩
/-- `TIME_CELL_STATUS`, Table TI-8: word offset in BAR0 (index tables of file 22). -/
def TIME_CELL_STATUS.w (c : Nat) : Nat := 525313 + c * 4
def TIME_CELL_STATUS.MEAS_PPM (c : Nat) : Fld := ⟨TIME_CELL_STATUS.w c, 0, 16⟩
def TIME_CELL_STATUS.LOCK_A (c : Nat) : Fld := ⟨TIME_CELL_STATUS.w c, 16, 1⟩
def TIME_CELL_STATUS.LOCK_B (c : Nat) : Fld := ⟨TIME_CELL_STATUS.w c, 17, 1⟩
def TIME_CELL_STATUS.ERR_NS (c : Nat) : Fld := ⟨TIME_CELL_STATUS.w c, 24, 8⟩
/-- `TIME_PULSE_CTRL`, Table TI-9: word offset in BAR0 (index tables of file 22). -/
def TIME_PULSE_CTRL.w (i : Nat) : Nat := 527360 + i * 8
def TIME_PULSE_CTRL.EN (i : Nat) : Fld := ⟨TIME_PULSE_CTRL.w i, 0, 1⟩
def TIME_PULSE_CTRL.DOMAIN (i : Nat) : Fld := ⟨TIME_PULSE_CTRL.w i, 1, 1⟩
def TIME_PULSE_CTRL.INVERT (i : Nat) : Fld := ⟨TIME_PULSE_CTRL.w i, 2, 1⟩
def TIME_PULSE_CTRL.ARMED (i : Nat) : Fld := ⟨TIME_PULSE_CTRL.w i, 3, 1⟩
def TIME_PULSE_CTRL.LATE (i : Nat) : Fld := ⟨TIME_PULSE_CTRL.w i, 4, 1⟩
/-- `TIME_PULSE_START_NS`, Table TI-9: word offset in BAR0 (index tables of file 22). -/
def TIME_PULSE_START_NS.w (i : Nat) : Nat := 527361 + i * 8
def TIME_PULSE_START_NS.NS (i : Nat) : Fld := ⟨TIME_PULSE_START_NS.w i, 0, 30⟩
/-- `TIME_PULSE_START_SEC`, Table TI-9: word offset in BAR0 (index tables of file 22). -/
def TIME_PULSE_START_SEC.w (i : Nat) : Nat := 527362 + i * 8
def TIME_PULSE_START_SEC.SEC (i : Nat) : Fld := ⟨TIME_PULSE_START_SEC.w i, 0, 48⟩
/-- `TIME_PULSE_PERIOD`, Table TI-9: word offset in BAR0 (index tables of file 22). -/
def TIME_PULSE_PERIOD.w (i : Nat) : Nat := 527364 + i * 8
def TIME_PULSE_PERIOD.NS (i : Nat) : Fld := ⟨TIME_PULSE_PERIOD.w i, 0, 32⟩
/-- `TIME_PULSE_WIDTH`, Table TI-9: word offset in BAR0 (index tables of file 22). -/
def TIME_PULSE_WIDTH.w (i : Nat) : Nat := 527365 + i * 8
def TIME_PULSE_WIDTH.NS (i : Nat) : Fld := ⟨TIME_PULSE_WIDTH.w i, 0, 32⟩
/-- `TIME_CAPT_CFG`, Table TI-10: word offset in BAR0 (index tables of file 22). -/
def TIME_CAPT_CFG.w (i : Nat) : Nat := 527424 + i * 8
def TIME_CAPT_CFG.EN (i : Nat) : Fld := ⟨TIME_CAPT_CFG.w i, 0, 1⟩
def TIME_CAPT_CFG.DOMAIN (i : Nat) : Fld := ⟨TIME_CAPT_CFG.w i, 1, 1⟩
def TIME_CAPT_CFG.EDGE (i : Nat) : Fld := ⟨TIME_CAPT_CFG.w i, 2, 2⟩
def TIME_CAPT_CFG.FILTER_NS (i : Nat) : Fld := ⟨TIME_CAPT_CFG.w i, 4, 8⟩
def TIME_CAPT_CFG.MIN_GAP (i : Nat) : Fld := ⟨TIME_CAPT_CFG.w i, 12, 16⟩
/-- `TIME_CAPT_STATUS`, Table TI-10: word offset in BAR0 (index tables of file 22). -/
def TIME_CAPT_STATUS.w (i : Nat) : Nat := 527425 + i * 8
def TIME_CAPT_STATUS.COUNT (i : Nat) : Fld := ⟨TIME_CAPT_STATUS.w i, 0, 5⟩
def TIME_CAPT_STATUS.OVERFLOW (i : Nat) : Fld := ⟨TIME_CAPT_STATUS.w i, 5, 1⟩
def TIME_CAPT_STATUS.DROPPED_GAP (i : Nat) : Fld := ⟨TIME_CAPT_STATUS.w i, 8, 8⟩
def TIME_CAPT_STATUS.DROPPED_FULL (i : Nat) : Fld := ⟨TIME_CAPT_STATUS.w i, 16, 8⟩
/-- `TIME_CAPT_NS`, Table TI-10: word offset in BAR0 (index tables of file 22). -/
def TIME_CAPT_NS.w (i : Nat) : Nat := 527426 + i * 8
def TIME_CAPT_NS.NS (i : Nat) : Fld := ⟨TIME_CAPT_NS.w i, 0, 30⟩
def TIME_CAPT_NS.DOMAIN (i : Nat) : Fld := ⟨TIME_CAPT_NS.w i, 30, 1⟩
def TIME_CAPT_NS.VALID (i : Nat) : Fld := ⟨TIME_CAPT_NS.w i, 31, 1⟩
/-- `TIME_CAPT_SEC_LO`, Table TI-10: word offset in BAR0 (index tables of file 22). -/
def TIME_CAPT_SEC_LO.w (i : Nat) : Nat := 527427 + i * 8
def TIME_CAPT_SEC_LO.SEC (i : Nat) : Fld := ⟨TIME_CAPT_SEC_LO.w i, 0, 32⟩
/-- `TIME_CAPT_SEC_HI`, Table TI-10: word offset in BAR0 (index tables of file 22). -/
def TIME_CAPT_SEC_HI.w (i : Nat) : Nat := 527428 + i * 8
def TIME_CAPT_SEC_HI.SEC (i : Nat) : Fld := ⟨TIME_CAPT_SEC_HI.w i, 0, 16⟩
/-- `PAIR_CFG`, Table RD-9: word offset in BAR0 (index tables of file 22). -/
def PAIR_CFG.w : Nat := 786432
def PAIR_CFG.MODE : Fld := ⟨PAIR_CFG.w, 0, 2⟩
def PAIR_CFG.PREFERRED : Fld := ⟨PAIR_CFG.w, 2, 1⟩
def PAIR_CFG.AUTO_TAKEOVER : Fld := ⟨PAIR_CFG.w, 3, 1⟩
def PAIR_CFG.REVERT_COLD : Fld := ⟨PAIR_CFG.w, 4, 1⟩
def PAIR_CFG.DIGEST_FULL : Fld := ⟨PAIR_CFG.w, 5, 1⟩
def PAIR_CFG.HEALTH_MASK : Fld := ⟨PAIR_CFG.w, 8, 4⟩
def PAIR_CFG.HOLDOFF_S : Fld := ⟨PAIR_CFG.w, 16, 8⟩
/-- `PAIR_CTRL`, Table RD-9: word offset in BAR0 (index tables of file 22). -/
def PAIR_CTRL.w : Nat := 786433
def PAIR_CTRL.CLAIM : Fld := ⟨PAIR_CTRL.w, 0, 1⟩
def PAIR_CTRL.YIELD : Fld := ⟨PAIR_CTRL.w, 1, 1⟩
def PAIR_CTRL.JOIN : Fld := ⟨PAIR_CTRL.w, 2, 1⟩
/-- `PAIR_STATUS`, Table RD-9: word offset in BAR0 (index tables of file 22). -/
def PAIR_STATUS.w : Nat := 786434
def PAIR_STATUS.STATE : Fld := ⟨PAIR_STATUS.w, 0, 3⟩
def PAIR_STATUS.PEER_STATE : Fld := ⟨PAIR_STATUS.w, 3, 3⟩
def PAIR_STATUS.HOLD_IN : Fld := ⟨PAIR_STATUS.w, 6, 1⟩
def PAIR_STATUS.HOLD_OUT : Fld := ⟨PAIR_STATUS.w, 7, 1⟩
def PAIR_STATUS.GATE : Fld := ⟨PAIR_STATUS.w, 8, 1⟩
def PAIR_STATUS.LINK : Fld := ⟨PAIR_STATUS.w, 9, 1⟩
def PAIR_STATUS.HEALTHY : Fld := ⟨PAIR_STATUS.w, 10, 1⟩
def PAIR_STATUS.HOLDOFF_LEFT : Fld := ⟨PAIR_STATUS.w, 16, 8⟩
/-- `PAIR_ERR`, Table RD-9: word offset in BAR0 (index tables of file 22). -/
def PAIR_ERR.w : Nat := 786435
def PAIR_ERR.LS_LOST : Fld := ⟨PAIR_ERR.w, 0, 1⟩
def PAIR_ERR.CLAIM_FAIL : Fld := ⟨PAIR_ERR.w, 1, 1⟩
def PAIR_ERR.CONFLICT : Fld := ⟨PAIR_ERR.w, 2, 1⟩
def PAIR_ERR.CFG_MISMATCH : Fld := ⟨PAIR_ERR.w, 3, 1⟩
def PAIR_ERR.JOIN_REJECT : Fld := ⟨PAIR_ERR.w, 4, 1⟩
def PAIR_ERR.REVERT_FAIL : Fld := ⟨PAIR_ERR.w, 5, 1⟩
def PAIR_ERR.HOLD_STUCK : Fld := ⟨PAIR_ERR.w, 6, 1⟩
def PAIR_ERR.HOLD_DISAGREE : Fld := ⟨PAIR_ERR.w, 7, 1⟩
def PAIR_ERR.HOLD_CHATTER : Fld := ⟨PAIR_ERR.w, 8, 1⟩
def PAIR_ERR.CFG_IGNORED : Fld := ⟨PAIR_ERR.w, 9, 1⟩
/-- `PAIR_ERR_LOC`, Table RD-9: word offset in BAR0 (index tables of file 22). -/
def PAIR_ERR_LOC.w : Nat := 786436
def PAIR_ERR_LOC.CAUSE : Fld := ⟨PAIR_ERR_LOC.w, 0, 3⟩
def PAIR_ERR_LOC.DIGEST : Fld := ⟨PAIR_ERR_LOC.w, 3, 4⟩
def PAIR_ERR_LOC.STROKE : Fld := ⟨PAIR_ERR_LOC.w, 7, 25⟩
/-- `PAIR_TIMER_CFG`, Table RD-9: word offset in BAR0 (index tables of file 22). -/
def PAIR_TIMER_CFG.w : Nat := 786437
def PAIR_TIMER_CFG.RELEASE_US : Fld := ⟨PAIR_TIMER_CFG.w, 0, 10⟩
def PAIR_TIMER_CFG.LEDGER_LAG_US : Fld := ⟨PAIR_TIMER_CFG.w, 16, 10⟩
/-- `PAIR_JOIN_STROKE`: word offset in BAR0 (index tables of file 22). -/
def PAIR_JOIN_STROKE.w : Nat := 786438
def PAIR_JOIN_STROKE.STROKE : Fld := ⟨PAIR_JOIN_STROKE.w, 0, 48⟩
/-- `PAIR_CONVERGE`, Table RD-10: word offset in BAR0 (index tables of file 22). -/
def PAIR_CONVERGE.w : Nat := 786440
def PAIR_CONVERGE.STROKES : Fld := ⟨PAIR_CONVERGE.w, 0, 32⟩
/-- `PAIR_HANDOVER_STROKE`: word offset in BAR0 (index tables of file 22). -/
def PAIR_HANDOVER_STROKE.w : Nat := 786442
def PAIR_HANDOVER_STROKE.STROKE : Fld := ⟨PAIR_HANDOVER_STROKE.w, 0, 48⟩
/-- `PAIR_LAST_LEDGER`: word offset in BAR0 (index tables of file 22). -/
def PAIR_LAST_LEDGER.w : Nat := 786444
def PAIR_LAST_LEDGER.STROKE : Fld := ⟨PAIR_LAST_LEDGER.w, 0, 48⟩
/-- `PAIR_DIGEST_CNT`, Table RD-10: word offset in BAR0 (index tables of file 22). -/
def PAIR_DIGEST_CNT.w : Nat := 786446
def PAIR_DIGEST_CNT.PERIODS : Fld := ⟨PAIR_DIGEST_CNT.w, 0, 16⟩
def PAIR_DIGEST_CNT.MISMATCHES : Fld := ⟨PAIR_DIGEST_CNT.w, 16, 16⟩
/-- `PAIR_CAP_CTRL`, Table RD-10: word offset in BAR0 (index tables of file 22). -/
def PAIR_CAP_CTRL.w : Nat := 786448
def PAIR_CAP_CTRL.ARM : Fld := ⟨PAIR_CAP_CTRL.w, 0, 1⟩
def PAIR_CAP_CTRL.BUSY : Fld := ⟨PAIR_CAP_CTRL.w, 1, 1⟩
def PAIR_CAP_CTRL.RESULT : Fld := ⟨PAIR_CAP_CTRL.w, 2, 2⟩
/-- `PAIR_CAP_STROKE`: word offset in BAR0 (index tables of file 22). -/
def PAIR_CAP_STROKE.w : Nat := 786450
def PAIR_CAP_STROKE.STROKE : Fld := ⟨PAIR_CAP_STROKE.w, 0, 48⟩
/-- `PAIR_CAP_BASE`, Table RD-10: word offset in BAR0 (index tables of file 22). -/
def PAIR_CAP_BASE.w : Nat := 786452
def PAIR_CAP_BASE.ADDR : Fld := ⟨PAIR_CAP_BASE.w, 12, 52⟩
/-- `PAIR_CNT`: word offset in BAR0 (index tables of file 22). -/
def PAIR_CNT.w (c : Nat) : Nat := 786464 + c * 2
def PAIR_CNT.COUNT (c : Nat) : Fld := ⟨PAIR_CNT.w c, 0, 48⟩
/-- `HIF_RING_CTRL`, Table HI-9: word offset in BAR0 (index tables of file 22). -/
def HIF_RING_CTRL.w (r : Nat) : Nat := 1048576 + r * 16
def HIF_RING_CTRL.ENABLE (r : Nat) : Fld := ⟨HIF_RING_CTRL.w r, 0, 1⟩
def HIF_RING_CTRL.TYPE (r : Nat) : Fld := ⟨HIF_RING_CTRL.w r, 1, 3⟩
def HIF_RING_CTRL.LOG_SIZE (r : Nat) : Fld := ⟨HIF_RING_CTRL.w r, 4, 4⟩
def HIF_RING_CTRL.HWB_EN (r : Nat) : Fld := ⟨HIF_RING_CTRL.w r, 8, 1⟩
/-- `HIF_RING_BIND`, Table HI-9: word offset in BAR0 (index tables of file 22). -/
def HIF_RING_BIND.w (r : Nat) : Nat := 1048577 + r * 16
def HIF_RING_BIND.CQ (r : Nat) : Fld := ⟨HIF_RING_BIND.w r, 0, 14⟩
def HIF_RING_BIND.CHANNEL (r : Nat) : Fld := ⟨HIF_RING_BIND.w r, 14, 4⟩
def HIF_RING_BIND.VECTOR (r : Nat) : Fld := ⟨HIF_RING_BIND.w r, 18, 11⟩
/-- `HIF_RING_MOD`, Table HI-9: word offset in BAR0 (index tables of file 22). -/
def HIF_RING_MOD.w (r : Nat) : Nat := 1048578 + r * 16
def HIF_RING_MOD.COUNT (r : Nat) : Fld := ⟨HIF_RING_MOD.w r, 0, 16⟩
def HIF_RING_MOD.TIMER_US (r : Nat) : Fld := ⟨HIF_RING_MOD.w r, 16, 10⟩
/-- `HIF_RING_BASE`, Table HI-10: word offset in BAR0 (index tables of file 22). -/
def HIF_RING_BASE.w (r : Nat) : Nat := 1048579 + r * 16
def HIF_RING_BASE.ADDR (r : Nat) : Fld := ⟨HIF_RING_BASE.w r, 12, 52⟩
/-- `HIF_RING_HWB`, Table HI-10: word offset in BAR0 (index tables of file 22). -/
def HIF_RING_HWB.w (r : Nat) : Nat := 1048581 + r * 16
def HIF_RING_HWB.ADDR (r : Nat) : Fld := ⟨HIF_RING_HWB.w r, 3, 61⟩
/-- `HIF_RING_START`, Table HI-10: word offset in BAR0 (index tables of file 22). -/
def HIF_RING_START.w (r : Nat) : Nat := 1048583 + r * 16
def HIF_RING_START.INDEX (r : Nat) : Fld := ⟨HIF_RING_START.w r, 0, 17⟩
/-- `HIF_RING_STATUS`, Table HI-11: word offset in BAR0 (index tables of file 22). -/
def HIF_RING_STATUS.w (r : Nat) : Nat := 1048584 + r * 16
def HIF_RING_STATUS.STATE (r : Nat) : Fld := ⟨HIF_RING_STATUS.w r, 0, 3⟩
def HIF_RING_STATUS.ARMED (r : Nat) : Fld := ⟨HIF_RING_STATUS.w r, 3, 1⟩
def HIF_RING_STATUS.OVERFLOW (r : Nat) : Fld := ⟨HIF_RING_STATUS.w r, 4, 1⟩
def HIF_RING_STATUS.HELD (r : Nat) : Fld := ⟨HIF_RING_STATUS.w r, 5, 7⟩
def HIF_RING_STATUS.CACHED (r : Nat) : Fld := ⟨HIF_RING_STATUS.w r, 12, 6⟩
def HIF_RING_STATUS.SUSPENDED (r : Nat) : Fld := ⟨HIF_RING_STATUS.w r, 18, 1⟩
/-- `HIF_RING_HEAD`, Table HI-11: word offset in BAR0 (index tables of file 22). -/
def HIF_RING_HEAD.w (r : Nat) : Nat := 1048585 + r * 16
def HIF_RING_HEAD.HEAD (r : Nat) : Fld := ⟨HIF_RING_HEAD.w r, 0, 17⟩
/-- `HIF_RING_TAIL`, Table HI-11: word offset in BAR0 (index tables of file 22). -/
def HIF_RING_TAIL.w (r : Nat) : Nat := 1048586 + r * 16
def HIF_RING_TAIL.TAIL (r : Nat) : Fld := ⟨HIF_RING_TAIL.w r, 0, 17⟩
/-- `HIF_RING_DROPS`, Table HI-11: word offset in BAR0 (index tables of file 22). -/
def HIF_RING_DROPS.w (r : Nat) : Nat := 1048587 + r * 16
def HIF_RING_DROPS.NO_BUF (r : Nat) : Fld := ⟨HIF_RING_DROPS.w r, 0, 16⟩
def HIF_RING_DROPS.NO_CQ (r : Nat) : Fld := ⟨HIF_RING_DROPS.w r, 16, 16⟩
/-- `HIF_CFG`, Table HI-12: word offset in BAR0 (index tables of file 22). -/
def HIF_CFG.w : Nat := 1572864
def HIF_CFG.HALT_VECTOR : Fld := ⟨HIF_CFG.w, 0, 11⟩
def HIF_CFG.HALT_MSI_EN : Fld := ⟨HIF_CFG.w, 11, 1⟩
/-- `HIF_STATUS`, Table HI-12: word offset in BAR0 (index tables of file 22). -/
def HIF_STATUS.w : Nat := 1572865
def HIF_STATUS.LINK_UP : Fld := ⟨HIF_STATUS.w, 0, 1⟩
def HIF_STATUS.SPEED : Fld := ⟨HIF_STATUS.w, 1, 3⟩
def HIF_STATUS.WIDTH : Fld := ⟨HIF_STATUS.w, 4, 5⟩
def HIF_STATUS.FLIT : Fld := ⟨HIF_STATUS.w, 9, 1⟩
def HIF_STATUS.HALTED : Fld := ⟨HIF_STATUS.w, 10, 1⟩
/-- `HIF_ERR`, Table HI-12: word offset in BAR0 (index tables of file 22). -/
def HIF_ERR.w : Nat := 1572866
def HIF_ERR.CTX_REJECT : Fld := ⟨HIF_ERR.w, 0, 1⟩
def HIF_ERR.CTX_IGNORED : Fld := ⟨HIF_ERR.w, 1, 1⟩
def HIF_ERR.DB_DISCARD : Fld := ⟨HIF_ERR.w, 2, 1⟩
def HIF_ERR.STRAY_WRITE : Fld := ⟨HIF_ERR.w, 3, 1⟩
def HIF_ERR.FETCH_ERR : Fld := ⟨HIF_ERR.w, 4, 1⟩
def HIF_ERR.DATA_ERR : Fld := ⟨HIF_ERR.w, 5, 1⟩
def HIF_ERR.CACHE_PARITY : Fld := ⟨HIF_ERR.w, 6, 1⟩
def HIF_ERR.CACHE_FAIL : Fld := ⟨HIF_ERR.w, 7, 1⟩
def HIF_ERR.CQ_OVERFLOW : Fld := ⟨HIF_ERR.w, 8, 1⟩
def HIF_ERR.INVAL_REFUSED : Fld := ⟨HIF_ERR.w, 9, 1⟩
/-- `HIF_ERR_LOC`, Table HI-12: word offset in BAR0 (index tables of file 22). -/
def HIF_ERR_LOC.w : Nat := 1572867
def HIF_ERR_LOC.RING : Fld := ⟨HIF_ERR_LOC.w, 0, 14⟩
def HIF_ERR_LOC.BIT : Fld := ⟨HIF_ERR_LOC.w, 14, 4⟩
/-- `HIF_ACCESS_ERR`, Table HI-12: word offset in BAR0 (index tables of file 22). -/
def HIF_ACCESS_ERR.w : Nat := 1572868
def HIF_ACCESS_ERR.OFFSET : Fld := ⟨HIF_ACCESS_ERR.w, 0, 26⟩
def HIF_ACCESS_ERR.BAR : Fld := ⟨HIF_ACCESS_ERR.w, 26, 2⟩
def HIF_ACCESS_ERR.VALID : Fld := ⟨HIF_ACCESS_ERR.w, 31, 1⟩
/-- `HIF_RING_INVAL`, Table HI-12: word offset in BAR0 (index tables of file 22). -/
def HIF_RING_INVAL.w : Nat := 1572869
def HIF_RING_INVAL.RING : Fld := ⟨HIF_RING_INVAL.w, 0, 14⟩
def HIF_RING_INVAL.GO : Fld := ⟨HIF_RING_INVAL.w, 14, 1⟩
def HIF_RING_INVAL.BUSY : Fld := ⟨HIF_RING_INVAL.w, 15, 1⟩
def HIF_RING_INVAL.REFUSED : Fld := ⟨HIF_RING_INVAL.w, 16, 1⟩
/-- `HIF_INVAL_FROM`, Table HI-12: word offset in BAR0 (index tables of file 22). -/
def HIF_INVAL_FROM.w : Nat := 1572870
def HIF_INVAL_FROM.INDEX : Fld := ⟨HIF_INVAL_FROM.w, 0, 17⟩
/-- `HIF_HALT_INFO`, Table HI-12: word offset in BAR0 (index tables of file 22). -/
def HIF_HALT_INFO.w : Nat := 1572871
def HIF_HALT_INFO.RING : Fld := ⟨HIF_HALT_INFO.w, 0, 14⟩
def HIF_HALT_INFO.INDEX : Fld := ⟨HIF_HALT_INFO.w, 14, 17⟩
def HIF_HALT_INFO.VALID : Fld := ⟨HIF_HALT_INFO.w, 31, 1⟩
/-- `HIF_CNT`: word offset in BAR0 (index tables of file 22). -/
def HIF_CNT.w (c : Nat) : Nat := 1572928 + c * 2
def HIF_CNT.COUNT (c : Nat) : Fld := ⟨HIF_CNT.w c, 0, 48⟩
/-- `HIF_RX_STEER`: word offset in BAR0 (index tables of file 22). -/
def HIF_RX_STEER.w (c j : Nat) : Nat := 1573888 + c * 32 + j * 1
def HIF_RX_STEER.RING_LO (c j : Nat) : Fld := ⟨HIF_RX_STEER.w c j, 0, 14⟩
def HIF_RX_STEER.RING_HI (c j : Nat) : Fld := ⟨HIF_RX_STEER.w c j, 16, 14⟩
/-- `MSIX_ADDR_LO`: word offset in BAR0 (index tables of file 22). -/
def MSIX_ADDR_LO.w (v : Nat) : Nat := 1835008 + v * 4
def MSIX_ADDR_LO.ADDR (v : Nat) : Fld := ⟨MSIX_ADDR_LO.w v, 2, 30⟩
/-- `MSIX_ADDR_HI`: word offset in BAR0 (index tables of file 22). -/
def MSIX_ADDR_HI.w (v : Nat) : Nat := 1835009 + v * 4
def MSIX_ADDR_HI.ADDR (v : Nat) : Fld := ⟨MSIX_ADDR_HI.w v, 0, 32⟩
/-- `MSIX_DATA`: word offset in BAR0 (index tables of file 22). -/
def MSIX_DATA.w (v : Nat) : Nat := 1835010 + v * 4
def MSIX_DATA.DATA (v : Nat) : Fld := ⟨MSIX_DATA.w v, 0, 32⟩
/-- `MSIX_CTRL`: word offset in BAR0 (index tables of file 22). -/
def MSIX_CTRL.w (v : Nat) : Nat := 1835011 + v * 4
def MSIX_CTRL.MASK (v : Nat) : Fld := ⟨MSIX_CTRL.w v, 0, 1⟩
/-- `MSIX_PBA`: word offset in BAR0 (index tables of file 22). -/
def MSIX_PBA.w (i : Nat) : Nat := 1843200 + i * 1
def MSIX_PBA.PENDING (i : Nat) : Fld := ⟨MSIX_PBA.w i, 0, 32⟩
/-- `WL_CFG`, Table CS-18: word offset in BAR0 (index tables of file 22). -/
def WL_CFG.w : Nat := 2097152
def WL_CFG.PLANE_EN : Fld := ⟨WL_CFG.w, 0, 5⟩
/-- `WL_STATUS`, Table CS-18: word offset in BAR0 (index tables of file 22). -/
def WL_STATUS.w : Nat := 2097153
def WL_STATUS.PLANES_ACTIVE : Fld := ⟨WL_STATUS.w, 0, 5⟩
/-- `WL_ERR`, Table CS-18: word offset in BAR0 (index tables of file 22). -/
def WL_ERR.w : Nat := 2097154
def WL_ERR.PTR_PARITY : Fld := ⟨WL_ERR.w, 0, 1⟩
def WL_ERR.CELL_PARITY : Fld := ⟨WL_ERR.w, 1, 1⟩
/-- `WL_MC_INFLIGHT`, Table CS-18: word offset in BAR0 (index tables of file 22). -/
def WL_MC_INFLIGHT.w (b : Nat) : Nat := 2097156 + b * 1
def WL_MC_INFLIGHT.COPIES (b : Nat) : Fld := ⟨WL_MC_INFLIGHT.w b, 0, 24⟩
/-- `WL_CELLS`, Table CS-18: word offset in BAR0 (index tables of file 22). -/
def WL_CELLS.w (i : Nat) : Nat := 2097168 + i * 2
def WL_CELLS.COUNT (i : Nat) : Fld := ⟨WL_CELLS.w i, 0, 48⟩
/-- `SP_CFG`, Table FE-5: word offset in BAR0 (index tables of file 22). -/
def SP_CFG.w : Nat := 2105344
def SP_CFG.WINDOW_NS : Fld := ⟨SP_CFG.w, 0, 11⟩
/-- `SP_STATUS`, Table FE-5: word offset in BAR0 (index tables of file 22). -/
def SP_STATUS.w : Nat := 2105345
def SP_STATUS.QUARANTINED : Fld := ⟨SP_STATUS.w, 0, 8⟩
def SP_STATUS.LOWEST : Fld := ⟨SP_STATUS.w, 8, 8⟩
/-- `SP_LATE`, Table FE-5: word offset in BAR0 (index tables of file 22). -/
def SP_LATE.w : Nat := 2105346
def SP_LATE.MISSES : Fld := ⟨SP_LATE.w, 0, 16⟩
def SP_LATE.LAST_REGION : Fld := ⟨SP_LATE.w, 16, 3⟩
/-- `SP_RELEASED`, Table FE-5: word offset in BAR0 (index tables of file 22). -/
def SP_RELEASED.w : Nat := 2105348
def SP_RELEASED.STROKE : Fld := ⟨SP_RELEASED.w, 0, 48⟩
/-- `SP_WM`, Table FE-5: word offset in BAR0 (index tables of file 22). -/
def SP_WM.w (n : Nat) : Nat := 2105360 + n * 2
def SP_WM.STROKE (n : Nat) : Fld := ⟨SP_WM.w n, 0, 48⟩
/-- `HBM_CFG`, Table HB-10: word offset in BAR0 (index tables of file 22). -/
def HBM_CFG.w (s : Nat) : Nat := 2359296 + s * 65536
def HBM_CFG.ACT_THRESH (s : Nat) : Fld := ⟨HBM_CFG.w s, 0, 16⟩
def HBM_CFG.NBR_DEPTH (s : Nat) : Fld := ⟨HBM_CFG.w s, 16, 1⟩
def HBM_CFG.REF_POSTPONE (s : Nat) : Fld := ⟨HBM_CFG.w s, 17, 4⟩
def HBM_CFG.IDLE_CLOSE (s : Nat) : Fld := ⟨HBM_CFG.w s, 21, 7⟩
/-- `HBM_STATUS`, Table HB-10: word offset in BAR0 (index tables of file 22). -/
def HBM_STATUS.w (s : Nat) : Nat := 2359297 + s * 65536
def HBM_STATUS.LIVE_CH (s : Nat) : Fld := ⟨HBM_STATUS.w s, 0, 16⟩
def HBM_STATUS.RATE (s : Nat) : Fld := ⟨HBM_STATUS.w s, 16, 2⟩
/-- `HBM_ERR`, Table HB-11: word offset in BAR0 (index tables of file 22). -/
def HBM_ERR.w (s : Nat) : Nat := 2359298 + s * 65536
def HBM_ERR.DATA_PARITY (s : Nat) : Fld := ⟨HBM_ERR.w s, 0, 1⟩
def HBM_ERR.DATA_PARITY_FAIL (s : Nat) : Fld := ⟨HBM_ERR.w s, 1, 1⟩
def HBM_ERR.CMD_PARITY (s : Nat) : Fld := ⟨HBM_ERR.w s, 2, 1⟩
def HBM_ERR.FENCED (s : Nat) : Fld := ⟨HBM_ERR.w s, 3, 1⟩
def HBM_ERR.TRAIN_FAIL (s : Nat) : Fld := ⟨HBM_ERR.w s, 4, 1⟩
def HBM_ERR.CFG_IGNORED (s : Nat) : Fld := ⟨HBM_ERR.w s, 5, 1⟩
def HBM_ERR.HOT (s : Nat) : Fld := ⟨HBM_ERR.w s, 6, 1⟩
/-- `HBM_ERR_LOC`, Table HB-11: word offset in BAR0 (index tables of file 22). -/
def HBM_ERR_LOC.w (s : Nat) : Nat := 2359299 + s * 65536
def HBM_ERR_LOC.CH (s : Nat) : Fld := ⟨HBM_ERR_LOC.w s, 0, 4⟩
def HBM_ERR_LOC.PC (s : Nat) : Fld := ⟨HBM_ERR_LOC.w s, 4, 1⟩
def HBM_ERR_LOC.BANK (s : Nat) : Fld := ⟨HBM_ERR_LOC.w s, 5, 5⟩
def HBM_ERR_LOC.ROW (s : Nat) : Fld := ⟨HBM_ERR_LOC.w s, 10, 14⟩
def HBM_ERR_LOC.KIND (s : Nat) : Fld := ⟨HBM_ERR_LOC.w s, 24, 2⟩
/-- `HBM_FREQ_CTRL`, Table HB-10: word offset in BAR0 (index tables of file 22). -/
def HBM_FREQ_CTRL.w (s : Nat) : Nat := 2359300 + s * 65536
def HBM_FREQ_CTRL.TARGET (s : Nat) : Fld := ⟨HBM_FREQ_CTRL.w s, 0, 2⟩
def HBM_FREQ_CTRL.GO (s : Nat) : Fld := ⟨HBM_FREQ_CTRL.w s, 2, 1⟩
def HBM_FREQ_CTRL.BUSY (s : Nat) : Fld := ⟨HBM_FREQ_CTRL.w s, 3, 1⟩
def HBM_FREQ_CTRL.RESULT (s : Nat) : Fld := ⟨HBM_FREQ_CTRL.w s, 4, 2⟩
def HBM_FREQ_CTRL.STAY_US (s : Nat) : Fld := ⟨HBM_FREQ_CTRL.w s, 8, 8⟩
/-- `HBM_TEMP`, Table HB-10: word offset in BAR0 (index tables of file 22). -/
def HBM_TEMP.w (s : Nat) : Nat := 2359301 + s * 65536
def HBM_TEMP.HOT_C (s : Nat) : Fld := ⟨HBM_TEMP.w s, 0, 8⟩
def HBM_TEMP.TEMP_C (s : Nat) : Fld := ⟨HBM_TEMP.w s, 8, 8⟩
def HBM_TEMP.DOUBLE (s : Nat) : Fld := ⟨HBM_TEMP.w s, 16, 1⟩
/-- `HBM_TIMING_SHADOW0`, Table HB-12: word offset in BAR0 (index tables of file 22). -/
def HBM_TIMING_SHADOW0.w (s : Nat) : Nat := 2359304 + s * 65536
def HBM_TIMING_SHADOW0.RL (s : Nat) : Fld := ⟨HBM_TIMING_SHADOW0.w s, 0, 7⟩
def HBM_TIMING_SHADOW0.WL (s : Nat) : Fld := ⟨HBM_TIMING_SHADOW0.w s, 7, 7⟩
def HBM_TIMING_SHADOW0.T_RCD (s : Nat) : Fld := ⟨HBM_TIMING_SHADOW0.w s, 14, 8⟩
def HBM_TIMING_SHADOW0.T_RP (s : Nat) : Fld := ⟨HBM_TIMING_SHADOW0.w s, 22, 8⟩
/-- `HBM_TIMING_SHADOW1`, Table HB-12: word offset in BAR0 (index tables of file 22). -/
def HBM_TIMING_SHADOW1.w (s : Nat) : Nat := 2359305 + s * 65536
def HBM_TIMING_SHADOW1.T_RAS (s : Nat) : Fld := ⟨HBM_TIMING_SHADOW1.w s, 0, 8⟩
def HBM_TIMING_SHADOW1.T_RC (s : Nat) : Fld := ⟨HBM_TIMING_SHADOW1.w s, 8, 8⟩
def HBM_TIMING_SHADOW1.T_RRDS (s : Nat) : Fld := ⟨HBM_TIMING_SHADOW1.w s, 16, 5⟩
def HBM_TIMING_SHADOW1.T_RRDL (s : Nat) : Fld := ⟨HBM_TIMING_SHADOW1.w s, 21, 5⟩
/-- `HBM_TIMING_SHADOW2`, Table HB-12: word offset in BAR0 (index tables of file 22). -/
def HBM_TIMING_SHADOW2.w (s : Nat) : Nat := 2359306 + s * 65536
def HBM_TIMING_SHADOW2.T_FAW (s : Nat) : Fld := ⟨HBM_TIMING_SHADOW2.w s, 0, 7⟩
def HBM_TIMING_SHADOW2.T_WR (s : Nat) : Fld := ⟨HBM_TIMING_SHADOW2.w s, 7, 8⟩
def HBM_TIMING_SHADOW2.T_RTP (s : Nat) : Fld := ⟨HBM_TIMING_SHADOW2.w s, 15, 5⟩
def HBM_TIMING_SHADOW2.T_CCDS (s : Nat) : Fld := ⟨HBM_TIMING_SHADOW2.w s, 20, 4⟩
def HBM_TIMING_SHADOW2.T_CCDL (s : Nat) : Fld := ⟨HBM_TIMING_SHADOW2.w s, 24, 5⟩
/-- `HBM_TIMING_SHADOW3`, Table HB-12: word offset in BAR0 (index tables of file 22). -/
def HBM_TIMING_SHADOW3.w (s : Nat) : Nat := 2359307 + s * 65536
def HBM_TIMING_SHADOW3.T_REFI (s : Nat) : Fld := ⟨HBM_TIMING_SHADOW3.w s, 0, 16⟩
def HBM_TIMING_SHADOW3.T_RFCPB (s : Nat) : Fld := ⟨HBM_TIMING_SHADOW3.w s, 16, 10⟩
/-- `HBM_TIMING0`, Table HB-12: word offset in BAR0 (index tables of file 22). -/
def HBM_TIMING0.w (s : Nat) : Nat := 2359308 + s * 65536
def HBM_TIMING0.RL (s : Nat) : Fld := ⟨HBM_TIMING0.w s, 0, 7⟩
def HBM_TIMING0.WL (s : Nat) : Fld := ⟨HBM_TIMING0.w s, 7, 7⟩
def HBM_TIMING0.T_RCD (s : Nat) : Fld := ⟨HBM_TIMING0.w s, 14, 8⟩
def HBM_TIMING0.T_RP (s : Nat) : Fld := ⟨HBM_TIMING0.w s, 22, 8⟩
/-- `HBM_TIMING1`, Table HB-12: word offset in BAR0 (index tables of file 22). -/
def HBM_TIMING1.w (s : Nat) : Nat := 2359309 + s * 65536
def HBM_TIMING1.T_RAS (s : Nat) : Fld := ⟨HBM_TIMING1.w s, 0, 8⟩
def HBM_TIMING1.T_RC (s : Nat) : Fld := ⟨HBM_TIMING1.w s, 8, 8⟩
def HBM_TIMING1.T_RRDS (s : Nat) : Fld := ⟨HBM_TIMING1.w s, 16, 5⟩
def HBM_TIMING1.T_RRDL (s : Nat) : Fld := ⟨HBM_TIMING1.w s, 21, 5⟩
/-- `HBM_TIMING2`, Table HB-12: word offset in BAR0 (index tables of file 22). -/
def HBM_TIMING2.w (s : Nat) : Nat := 2359310 + s * 65536
def HBM_TIMING2.T_FAW (s : Nat) : Fld := ⟨HBM_TIMING2.w s, 0, 7⟩
def HBM_TIMING2.T_WR (s : Nat) : Fld := ⟨HBM_TIMING2.w s, 7, 8⟩
def HBM_TIMING2.T_RTP (s : Nat) : Fld := ⟨HBM_TIMING2.w s, 15, 5⟩
def HBM_TIMING2.T_CCDS (s : Nat) : Fld := ⟨HBM_TIMING2.w s, 20, 4⟩
def HBM_TIMING2.T_CCDL (s : Nat) : Fld := ⟨HBM_TIMING2.w s, 24, 5⟩
/-- `HBM_TIMING3`, Table HB-12: word offset in BAR0 (index tables of file 22). -/
def HBM_TIMING3.w (s : Nat) : Nat := 2359311 + s * 65536
def HBM_TIMING3.T_REFI (s : Nat) : Fld := ⟨HBM_TIMING3.w s, 0, 16⟩
def HBM_TIMING3.T_RFCPB (s : Nat) : Fld := ⟨HBM_TIMING3.w s, 16, 10⟩
/-- `HBM_CH_CTRL`, Table HB-13: word offset in BAR0 (index tables of file 22). -/
def HBM_CH_CTRL.w (s c : Nat) : Nat := 2359360 + s * 65536 + c * 4
def HBM_CH_CTRL.RETRAIN (s c : Nat) : Fld := ⟨HBM_CH_CTRL.w s c, 0, 1⟩
def HBM_CH_CTRL.FENCE (s c : Nat) : Fld := ⟨HBM_CH_CTRL.w s c, 1, 1⟩
/-- `HBM_CH_STATUS`, Table HB-13: word offset in BAR0 (index tables of file 22). -/
def HBM_CH_STATUS.w (s c : Nat) : Nat := 2359361 + s * 65536 + c * 4
def HBM_CH_STATUS.STATE (s c : Nat) : Fld := ⟨HBM_CH_STATUS.w s c, 0, 3⟩
def HBM_CH_STATUS.RETRAINING (s c : Nat) : Fld := ⟨HBM_CH_STATUS.w s c, 3, 1⟩
def HBM_CH_STATUS.REPAIRED_A (s c : Nat) : Fld := ⟨HBM_CH_STATUS.w s c, 4, 2⟩
def HBM_CH_STATUS.REPAIRED_B (s c : Nat) : Fld := ⟨HBM_CH_STATUS.w s c, 6, 2⟩
def HBM_CH_STATUS.SLICES (s c : Nat) : Fld := ⟨HBM_CH_STATUS.w s c, 8, 8⟩
def HBM_CH_STATUS.FENCE_CAUSE (s c : Nat) : Fld := ⟨HBM_CH_STATUS.w s c, 16, 2⟩
/-- `HBM_CH_CNT`, Table HB-13: word offset in BAR0 (index tables of file 22). -/
def HBM_CH_CNT.w (s c : Nat) : Nat := 2359362 + s * 65536 + c * 4
def HBM_CH_CNT.REPLAYS (s c : Nat) : Fld := ⟨HBM_CH_CNT.w s c, 0, 16⟩
def HBM_CH_CNT.PARITY (s c : Nat) : Fld := ⟨HBM_CH_CNT.w s c, 16, 16⟩
/-- `HBM_CH_NBR`, Table HB-13: word offset in BAR0 (index tables of file 22). -/
def HBM_CH_NBR.w (s c : Nat) : Nat := 2359363 + s * 65536 + c * 4
def HBM_CH_NBR.COUNT (s c : Nat) : Fld := ⟨HBM_CH_NBR.w s c, 0, 32⟩
/-- `HBM_SCRUB_CFG`, Table EV-12: word offset in BAR0 (index tables of file 22). -/
def HBM_SCRUB_CFG.w (s : Nat) : Nat := 2359552 + s * 65536
def HBM_SCRUB_CFG.EN (s : Nat) : Fld := ⟨HBM_SCRUB_CFG.w s, 0, 8⟩
def HBM_SCRUB_CFG.LAP_LIMIT_MS (s : Nat) : Fld := ⟨HBM_SCRUB_CFG.w s, 8, 16⟩
/-- `HBM_SCRUB_LAP`, Table EV-12: word offset in BAR0 (index tables of file 22). -/
def HBM_SCRUB_LAP.w (s : Nat) : Nat := 2359553 + s * 65536
def HBM_SCRUB_LAP.LAP_US (s : Nat) : Fld := ⟨HBM_SCRUB_LAP.w s, 0, 24⟩
def HBM_SCRUB_LAP.LAPS (s : Nat) : Fld := ⟨HBM_SCRUB_LAP.w s, 24, 8⟩
/-- `HBM_SCRUB_PASS`, Table EV-12: word offset in BAR0 (index tables of file 22). -/
def HBM_SCRUB_PASS.w (s : Nat) : Nat := 2359554 + s * 65536
def HBM_SCRUB_PASS.MEM (s : Nat) : Fld := ⟨HBM_SCRUB_PASS.w s, 0, 5⟩
def HBM_SCRUB_PASS.GO (s : Nat) : Fld := ⟨HBM_SCRUB_PASS.w s, 5, 1⟩
def HBM_SCRUB_PASS.BUSY (s : Nat) : Fld := ⟨HBM_SCRUB_PASS.w s, 6, 1⟩
/-- `HBM_SCRUB_START`, Table EV-12: word offset in BAR0 (index tables of file 22). -/
def HBM_SCRUB_START.w (s : Nat) : Nat := 2359555 + s * 65536
def HBM_SCRUB_START.LINE (s : Nat) : Fld := ⟨HBM_SCRUB_START.w s, 0, 24⟩
/-- `HBM_SCRUB_END`, Table EV-12: word offset in BAR0 (index tables of file 22). -/
def HBM_SCRUB_END.w (s : Nat) : Nat := 2359556 + s * 65536
def HBM_SCRUB_END.LINE (s : Nat) : Fld := ⟨HBM_SCRUB_END.w s, 0, 24⟩
/-- `HBM_SCRUB_SUM_WORDS`, Table EV-12: word offset in BAR0 (index tables of file 22). -/
def HBM_SCRUB_SUM_WORDS.w (s : Nat) : Nat := 2359557 + s * 65536
def HBM_SCRUB_SUM_WORDS.COUNT (s : Nat) : Fld := ⟨HBM_SCRUB_SUM_WORDS.w s, 0, 32⟩
/-- `HBM_SCRUB_SUM_ERRS`, Table EV-12: word offset in BAR0 (index tables of file 22). -/
def HBM_SCRUB_SUM_ERRS.w (s : Nat) : Nat := 2359558 + s * 65536
def HBM_SCRUB_SUM_ERRS.COUNT (s : Nat) : Fld := ⟨HBM_SCRUB_SUM_ERRS.w s, 0, 32⟩
/-- `HBM_SCRUB_SUM_FIRST`, Table EV-12: word offset in BAR0 (index tables of file 22). -/
def HBM_SCRUB_SUM_FIRST.w (s : Nat) : Nat := 2359559 + s * 65536
def HBM_SCRUB_SUM_FIRST.LINE (s : Nat) : Fld := ⟨HBM_SCRUB_SUM_FIRST.w s, 0, 24⟩
def HBM_SCRUB_SUM_FIRST.VALID (s : Nat) : Fld := ⟨HBM_SCRUB_SUM_FIRST.w s, 31, 1⟩
/-- `HBM_SCRUB_SUM_LAST`, Table EV-12: word offset in BAR0 (index tables of file 22). -/
def HBM_SCRUB_SUM_LAST.w (s : Nat) : Nat := 2359560 + s * 65536
def HBM_SCRUB_SUM_LAST.LINE (s : Nat) : Fld := ⟨HBM_SCRUB_SUM_LAST.w s, 0, 24⟩
def HBM_SCRUB_SUM_LAST.VALID (s : Nat) : Fld := ⟨HBM_SCRUB_SUM_LAST.w s, 31, 1⟩
/-- `HBM_RETIRE_STATUS`, Table EV-13: word offset in BAR0 (index tables of file 22). -/
def HBM_RETIRE_STATUS.w (s : Nat) : Nat := 2359561 + s * 65536
def HBM_RETIRE_STATUS.USED (s : Nat) : Fld := ⟨HBM_RETIRE_STATUS.w s, 0, 11⟩
def HBM_RETIRE_STATUS.LAST_RESULT (s : Nat) : Fld := ⟨HBM_RETIRE_STATUS.w s, 11, 2⟩
/-- `HBM_SPARE_LEFT`, Table EV-13: word offset in BAR0 (index tables of file 22). -/
def HBM_SPARE_LEFT.w (s q : Nat) : Nat := 2359616 + s * 65536 + q * 1
def HBM_SPARE_LEFT.ROWS (s q : Nat) : Fld := ⟨HBM_SPARE_LEFT.w s q, 0, 17⟩
/-- `HBM_RETIRE`, Table EV-13: word offset in BAR0 (index tables of file 22). -/
def HBM_RETIRE.w (s i : Nat) : Nat := 2361344 + s * 65536 + i * 1
def HBM_RETIRE.CH (s i : Nat) : Fld := ⟨HBM_RETIRE.w s i, 0, 4⟩
def HBM_RETIRE.PC (s i : Nat) : Fld := ⟨HBM_RETIRE.w s i, 4, 1⟩
def HBM_RETIRE.BANK (s i : Nat) : Fld := ⟨HBM_RETIRE.w s i, 5, 5⟩
def HBM_RETIRE.ROW (s i : Nat) : Fld := ⟨HBM_RETIRE.w s i, 10, 14⟩
def HBM_RETIRE.KIND (s i : Nat) : Fld := ⟨HBM_RETIRE.w s i, 24, 1⟩
def HBM_RETIRE.VALID (s i : Nat) : Fld := ⟨HBM_RETIRE.w s i, 31, 1⟩
/-- `CT_CTRL`, Table CT-6: word offset in BAR0 (index tables of file 22). -/
def CT_CTRL.w : Nat := 2621440
def CT_CTRL.FREEZE_ARM : Fld := ⟨CT_CTRL.w, 0, 1⟩
def CT_CTRL.THAW_ARM : Fld := ⟨CT_CTRL.w, 1, 1⟩
def CT_CTRL.SNAP_ARM : Fld := ⟨CT_CTRL.w, 2, 1⟩
def CT_CTRL.CANCEL : Fld := ⟨CT_CTRL.w, 3, 1⟩
/-- `CT_STATUS`, Table CT-6: word offset in BAR0 (index tables of file 22). -/
def CT_STATUS.w : Nat := 2621441
def CT_STATUS.FROZEN : Fld := ⟨CT_STATUS.w, 0, 1⟩
def CT_STATUS.FREEZE_PEND : Fld := ⟨CT_STATUS.w, 1, 1⟩
def CT_STATUS.THAW_PEND : Fld := ⟨CT_STATUS.w, 2, 1⟩
def CT_STATUS.SNAP_PEND : Fld := ⟨CT_STATUS.w, 3, 1⟩
def CT_STATUS.SNAP_READY : Fld := ⟨CT_STATUS.w, 4, 1⟩
def CT_STATUS.ARM_RESULT : Fld := ⟨CT_STATUS.w, 5, 2⟩
/-- `CT_FREEZE_STROKE`, Table CT-6: word offset in BAR0 (index tables of file 22). -/
def CT_FREEZE_STROKE.w : Nat := 2621442
def CT_FREEZE_STROKE.STROKE : Fld := ⟨CT_FREEZE_STROKE.w, 0, 48⟩
/-- `CT_THAW_STROKE`, Table CT-6: word offset in BAR0 (index tables of file 22). -/
def CT_THAW_STROKE.w : Nat := 2621444
def CT_THAW_STROKE.STROKE : Fld := ⟨CT_THAW_STROKE.w, 0, 48⟩
/-- `CT_SNAP_STROKE`, Table CT-6: word offset in BAR0 (index tables of file 22). -/
def CT_SNAP_STROKE.w : Nat := 2621446
def CT_SNAP_STROKE.STROKE : Fld := ⟨CT_SNAP_STROKE.w, 0, 48⟩
/-- `CT_USER_ENABLE`, Table CT-6: word offset in BAR0 (index tables of file 22). -/
def CT_USER_ENABLE.w (j : Nat) : Nat := 2621456 + j * 1
def CT_USER_ENABLE.EN (j : Nat) : Fld := ⟨CT_USER_ENABLE.w j, 0, 32⟩
/-- `CT_CYCLE`, Table CT-7: word offset in BAR0 (index tables of file 22). -/
def CT_CYCLE.w (u : Nat) : Nat := 2637824 + u * 64
def CT_CYCLE.CYCLES (u : Nat) : Fld := ⟨CT_CYCLE.w u, 0, 64⟩
/-- `CT_CNT`, Table CT-7: word offset in BAR0 (index tables of file 22). -/
def CT_CNT.w (u k : Nat) : Nat := 2637826 + u * 64 + k * 2
def CT_CNT.COUNT (u k : Nat) : Fld := ⟨CT_CNT.w u k, 0, 48⟩
/-- `CT_SEL`, Table CT-7: word offset in BAR0 (index tables of file 22). -/
def CT_SEL.w (u k : Nat) : Nat := 2637842 + u * 64 + k * 1
def CT_SEL.EVENT (u k : Nat) : Fld := ⟨CT_SEL.w u k, 0, 8⟩
def CT_SEL.EN (u k : Nat) : Fld := ⟨CT_SEL.w u k, 8, 1⟩
def CT_SEL.SAMPLE_EN (u k : Nat) : Fld := ⟨CT_SEL.w u k, 9, 1⟩
def CT_SEL.QUAL (u k : Nat) : Fld := ⟨CT_SEL.w u k, 16, 8⟩
/-- `CT_UNIT_STATUS`, Table CT-7: word offset in BAR0 (index tables of file 22). -/
def CT_UNIT_STATUS.w (u : Nat) : Nat := 2637850 + u * 64
def CT_UNIT_STATUS.OVF (u : Nat) : Fld := ⟨CT_UNIT_STATUS.w u, 0, 8⟩
def CT_UNIT_STATUS.SAMPLE_LOST (u : Nat) : Fld := ⟨CT_UNIT_STATUS.w u, 8, 8⟩
/-- `CT_SAMPLE`, Table CT-7: word offset in BAR0 (index tables of file 22). -/
def CT_SAMPLE.w (u : Nat) : Nat := 2637852 + u * 64
def CT_SAMPLE.CNT (u : Nat) : Fld := ⟨CT_SAMPLE.w u, 0, 3⟩
def CT_SAMPLE.EVENT (u : Nat) : Fld := ⟨CT_SAMPLE.w u, 3, 8⟩
def CT_SAMPLE.VALID (u : Nat) : Fld := ⟨CT_SAMPLE.w u, 31, 1⟩
def CT_SAMPLE.DATA (u : Nat) : Fld := ⟨CT_SAMPLE.w u, 32, 32⟩
/-- `CT_SNAP_BANK`: word offset in BAR0 (index tables of file 22). -/
def CT_SNAP_BANK.w (u k : Nat) : Nat := 2654208 + u * 64 + k * 2
def CT_SNAP_BANK.COUNT (u k : Nat) : Fld := ⟨CT_SNAP_BANK.w u k, 0, 64⟩
/-- `REG_Q_CTRL`, Table EV-11: word offset in BAR0 (index tables of file 22). -/
def REG_Q_CTRL.w (n : Nat) : Nat := 4194304 + n * 1048576
def REG_Q_CTRL.QUARANTINE (n : Nat) : Fld := ⟨REG_Q_CTRL.w n, 0, 1⟩
def REG_Q_CTRL.BIST_START (n : Nat) : Fld := ⟨REG_Q_CTRL.w n, 1, 1⟩
def REG_Q_CTRL.REJOIN (n : Nat) : Fld := ⟨REG_Q_CTRL.w n, 2, 1⟩
/-- `REG_Q_STATUS`, Table EV-11: word offset in BAR0 (index tables of file 22). -/
def REG_Q_STATUS.w (n : Nat) : Nat := 4194305 + n * 1048576
def REG_Q_STATUS.STATE (n : Nat) : Fld := ⟨REG_Q_STATUS.w n, 0, 3⟩
def REG_Q_STATUS.CAUSE (n : Nat) : Fld := ⟨REG_Q_STATUS.w n, 3, 3⟩
def REG_Q_STATUS.BIST_PASS (n : Nat) : Fld := ⟨REG_Q_STATUS.w n, 6, 1⟩
def REG_Q_STATUS.BIST_FAIL (n : Nat) : Fld := ⟨REG_Q_STATUS.w n, 7, 1⟩
def REG_Q_STATUS.BIST_FAIL_MEM (n : Nat) : Fld := ⟨REG_Q_STATUS.w n, 8, 3⟩
/-- `REG_Q_STROKE`, Table EV-11: word offset in BAR0 (index tables of file 22). -/
def REG_Q_STROKE.w (n : Nat) : Nat := 4194306 + n * 1048576
def REG_Q_STROKE.STROKE (n : Nat) : Fld := ⟨REG_Q_STROKE.w n, 0, 48⟩
/-- `REG_REJOIN_STROKE`, Table EV-11: word offset in BAR0 (index tables of file 22). -/
def REG_REJOIN_STROKE.w (n : Nat) : Nat := 4194308 + n * 1048576
def REG_REJOIN_STROKE.STROKE (n : Nat) : Fld := ⟨REG_REJOIN_STROKE.w n, 0, 48⟩
/-- `REG_ERR`, Table EV-11: word offset in BAR0 (index tables of file 22). -/
def REG_ERR.w (n : Nat) : Nat := 4194310 + n * 1048576
def REG_ERR.QUARANTINED (n : Nat) : Fld := ⟨REG_ERR.w n, 0, 1⟩
def REG_ERR.SCRUB_PARITY (n : Nat) : Fld := ⟨REG_ERR.w n, 1, 1⟩
def REG_ERR.LAP_OVERDUE (n : Nat) : Fld := ⟨REG_ERR.w n, 2, 1⟩
def REG_ERR.CFG_IGNORED (n : Nat) : Fld := ⟨REG_ERR.w n, 3, 1⟩
def REG_ERR.CFG_REJECT (n : Nat) : Fld := ⟨REG_ERR.w n, 4, 1⟩
def REG_ERR.RETIRE_REJECT (n : Nat) : Fld := ⟨REG_ERR.w n, 5, 1⟩
def REG_ERR.BIST_FAIL (n : Nat) : Fld := ⟨REG_ERR.w n, 6, 1⟩
/-- `REG_RETIRE_STATUS`, Table EV-11: word offset in BAR0 (index tables of file 22). -/
def REG_RETIRE_STATUS.w (n : Nat) : Nat := 4194311 + n * 1048576
def REG_RETIRE_STATUS.USED (n : Nat) : Fld := ⟨REG_RETIRE_STATUS.w n, 0, 9⟩
def REG_RETIRE_STATUS.LAST_RESULT (n : Nat) : Fld := ⟨REG_RETIRE_STATUS.w n, 9, 2⟩
/-- `REG_RETIRE`, Table EV-11: word offset in BAR0 (index tables of file 22). -/
def REG_RETIRE.w (n i : Nat) : Nat := 4195328 + n * 1048576 + i * 1
def REG_RETIRE.ROW (n i : Nat) : Fld := ⟨REG_RETIRE.w n i, 0, 20⟩
def REG_RETIRE.MEM (n i : Nat) : Fld := ⟨REG_RETIRE.w n i, 20, 4⟩
def REG_RETIRE.VALID (n i : Nat) : Fld := ⟨REG_RETIRE.w n i, 31, 1⟩
/-- `REG_SCRUB_CFG`, Table EV-12: word offset in BAR0 (index tables of file 22). -/
def REG_SCRUB_CFG.w (n : Nat) : Nat := 4194368 + n * 1048576
def REG_SCRUB_CFG.EN (n : Nat) : Fld := ⟨REG_SCRUB_CFG.w n, 0, 8⟩
def REG_SCRUB_CFG.LAP_LIMIT_MS (n : Nat) : Fld := ⟨REG_SCRUB_CFG.w n, 8, 16⟩
/-- `REG_SCRUB_LAP`, Table EV-12: word offset in BAR0 (index tables of file 22). -/
def REG_SCRUB_LAP.w (n m : Nat) : Nat := 4194372 + n * 1048576 + m * 1
def REG_SCRUB_LAP.LAP_US (n m : Nat) : Fld := ⟨REG_SCRUB_LAP.w n m, 0, 24⟩
def REG_SCRUB_LAP.LAPS (n m : Nat) : Fld := ⟨REG_SCRUB_LAP.w n m, 24, 8⟩
/-- `REG_SCRUB_PASS`, Table EV-12: word offset in BAR0 (index tables of file 22). -/
def REG_SCRUB_PASS.w (n : Nat) : Nat := 4194384 + n * 1048576
def REG_SCRUB_PASS.MEM (n : Nat) : Fld := ⟨REG_SCRUB_PASS.w n, 0, 5⟩
def REG_SCRUB_PASS.GO (n : Nat) : Fld := ⟨REG_SCRUB_PASS.w n, 5, 1⟩
def REG_SCRUB_PASS.BUSY (n : Nat) : Fld := ⟨REG_SCRUB_PASS.w n, 6, 1⟩
/-- `REG_SCRUB_START`, Table EV-12: word offset in BAR0 (index tables of file 22). -/
def REG_SCRUB_START.w (n : Nat) : Nat := 4194385 + n * 1048576
def REG_SCRUB_START.LINE (n : Nat) : Fld := ⟨REG_SCRUB_START.w n, 0, 24⟩
/-- `REG_SCRUB_END`, Table EV-12: word offset in BAR0 (index tables of file 22). -/
def REG_SCRUB_END.w (n : Nat) : Nat := 4194386 + n * 1048576
def REG_SCRUB_END.LINE (n : Nat) : Fld := ⟨REG_SCRUB_END.w n, 0, 24⟩
/-- `REG_SCRUB_SUM_WORDS`, Table EV-12: word offset in BAR0 (index tables of file 22). -/
def REG_SCRUB_SUM_WORDS.w (n : Nat) : Nat := 4194387 + n * 1048576
def REG_SCRUB_SUM_WORDS.COUNT (n : Nat) : Fld := ⟨REG_SCRUB_SUM_WORDS.w n, 0, 32⟩
/-- `REG_SCRUB_SUM_ERRS`, Table EV-12: word offset in BAR0 (index tables of file 22). -/
def REG_SCRUB_SUM_ERRS.w (n : Nat) : Nat := 4194388 + n * 1048576
def REG_SCRUB_SUM_ERRS.COUNT (n : Nat) : Fld := ⟨REG_SCRUB_SUM_ERRS.w n, 0, 32⟩
/-- `REG_SCRUB_SUM_FIRST`, Table EV-12: word offset in BAR0 (index tables of file 22). -/
def REG_SCRUB_SUM_FIRST.w (n : Nat) : Nat := 4194389 + n * 1048576
def REG_SCRUB_SUM_FIRST.LINE (n : Nat) : Fld := ⟨REG_SCRUB_SUM_FIRST.w n, 0, 24⟩
def REG_SCRUB_SUM_FIRST.VALID (n : Nat) : Fld := ⟨REG_SCRUB_SUM_FIRST.w n, 31, 1⟩
/-- `REG_SCRUB_SUM_LAST`, Table EV-12: word offset in BAR0 (index tables of file 22). -/
def REG_SCRUB_SUM_LAST.w (n : Nat) : Nat := 4194390 + n * 1048576
def REG_SCRUB_SUM_LAST.LINE (n : Nat) : Fld := ⟨REG_SCRUB_SUM_LAST.w n, 0, 24⟩
def REG_SCRUB_SUM_LAST.VALID (n : Nat) : Fld := ⟨REG_SCRUB_SUM_LAST.w n, 31, 1⟩
/-- `PB_SHAPE`, Table PM-9: word offset in BAR0 (index tables of file 22). -/
def PB_SHAPE.w (n b : Nat) : Nat := 4210688 + n * 1048576 + b * 4096
def PB_SHAPE.W (n b x : Nat) : Fld := ⟨PB_SHAPE.w n b, 0 + x * 3, 3⟩
/-- `PB_BLOCK_ERR`, Table PM-10: word offset in BAR0 (index tables of file 22). -/
def PB_BLOCK_ERR.w (n b : Nat) : Nat := 4210689 + n * 1048576 + b * 4096
def PB_BLOCK_ERR.PARITY (n b : Nat) : Fld := ⟨PB_BLOCK_ERR.w n b, 0, 1⟩
def PB_BLOCK_ERR.SHAPE_REJECT (n b : Nat) : Fld := ⟨PB_BLOCK_ERR.w n b, 1, 1⟩
def PB_BLOCK_ERR.CFG_IGNORED (n b : Nat) : Fld := ⟨PB_BLOCK_ERR.w n b, 2, 1⟩
def PB_BLOCK_ERR.CFG_REJECT (n b : Nat) : Fld := ⟨PB_BLOCK_ERR.w n b, 3, 1⟩
/-- `PB_PORT_CFG`, Table PM-11: word offset in BAR0 (index tables of file 22). -/
def PB_PORT_CFG.w (n b p : Nat) : Nat := 4210944 + n * 1048576 + b * 4096 + p * 128
def PB_PORT_CFG.ENABLE (n b p : Nat) : Fld := ⟨PB_PORT_CFG.w n b p, 0, 1⟩
def PB_PORT_CFG.SPEED (n b p : Nat) : Fld := ⟨PB_PORT_CFG.w n b p, 1, 3⟩
def PB_PORT_CFG.FEC (n b p : Nat) : Fld := ⟨PB_PORT_CFG.w n b p, 4, 2⟩
def PB_PORT_CFG.CUT_THROUGH (n b p : Nat) : Fld := ⟨PB_PORT_CFG.w n b p, 6, 1⟩
def PB_PORT_CFG.MTU (n b p : Nat) : Fld := ⟨PB_PORT_CFG.w n b p, 8, 14⟩
/-- `PB_FC_CFG`, Table PM-12: word offset in BAR0 (index tables of file 22). -/
def PB_FC_CFG.w (n b p : Nat) : Nat := 4210945 + n * 1048576 + b * 4096 + p * 128
def PB_FC_CFG.MODE (n b p : Nat) : Fld := ⟨PB_FC_CFG.w n b p, 0, 2⟩
def PB_FC_CFG.RX_QUANTA_MAX (n b p : Nat) : Fld := ⟨PB_FC_CFG.w n b p, 4, 16⟩
/-- `PB_FC_TX`, Table PM-13: word offset in BAR0 (index tables of file 22). -/
def PB_FC_TX.w (n b p : Nat) : Nat := 4210946 + n * 1048576 + b * 4096 + p * 128
def PB_FC_TX.XOFF_QUANTA (n b p : Nat) : Fld := ⟨PB_FC_TX.w n b p, 0, 16⟩
def PB_FC_TX.REFRESH_QUANTA (n b p : Nat) : Fld := ⟨PB_FC_TX.w n b p, 16, 16⟩
/-- `PB_STORM_CFG`, Table PM-14: word offset in BAR0 (index tables of file 22). -/
def PB_STORM_CFG.w (n b p : Nat) : Nat := 4210947 + n * 1048576 + b * 4096 + p * 128
def PB_STORM_CFG.LIMIT_MS (n b p : Nat) : Fld := ⟨PB_STORM_CFG.w n b p, 0, 10⟩
def PB_STORM_CFG.RESTORE_MS (n b p : Nat) : Fld := ⟨PB_STORM_CFG.w n b p, 16, 10⟩
/-- `PB_DOWN_CFG`, Table PM-15: word offset in BAR0 (index tables of file 22). -/
def PB_DOWN_CFG.w (n b p : Nat) : Nat := 4210948 + n * 1048576 + b * 4096 + p * 128
def PB_DOWN_CFG.FLAP_HOLD_MS (n b p : Nat) : Fld := ⟨PB_DOWN_CFG.w n b p, 0, 10⟩
def PB_DOWN_CFG.MAX_RES_MS (n b p : Nat) : Fld := ⟨PB_DOWN_CFG.w n b p, 16, 16⟩
/-- `PB_TS_CFG`, Table PM-16: word offset in BAR0 (index tables of file 22). -/
def PB_TS_CFG.w (n b p : Nat) : Nat := 4210949 + n * 1048576 + b * 4096 + p * 128
def PB_TS_CFG.ONE_STEP (n b p : Nat) : Fld := ⟨PB_TS_CFG.w n b p, 0, 1⟩
def PB_TS_CFG.TC (n b p : Nat) : Fld := ⟨PB_TS_CFG.w n b p, 1, 1⟩
def PB_TS_CFG.TWO_STEP (n b p : Nat) : Fld := ⟨PB_TS_CFG.w n b p, 2, 1⟩
/-- `PB_TS_ADJ`, Table PM-17: word offset in BAR0 (index tables of file 22). -/
def PB_TS_ADJ.w (n b p : Nat) : Nat := 4210950 + n * 1048576 + b * 4096 + p * 128
def PB_TS_ADJ.INGRESS (n b p : Nat) : Fld := ⟨PB_TS_ADJ.w n b p, 0, 16⟩
def PB_TS_ADJ.EGRESS (n b p : Nat) : Fld := ⟨PB_TS_ADJ.w n b p, 16, 16⟩
/-- `PB_PORT_STATUS`, Table PM-18: word offset in BAR0 (index tables of file 22). -/
def PB_PORT_STATUS.w (n b p : Nat) : Nat := 4210951 + n * 1048576 + b * 4096 + p * 128
def PB_PORT_STATUS.LINK_UP (n b p : Nat) : Fld := ⟨PB_PORT_STATUS.w n b p, 0, 1⟩
def PB_PORT_STATUS.FROZEN (n b p : Nat) : Fld := ⟨PB_PORT_STATUS.w n b p, 1, 1⟩
def PB_PORT_STATUS.DOWN_DISCARD (n b p : Nat) : Fld := ⟨PB_PORT_STATUS.w n b p, 2, 1⟩
def PB_PORT_STATUS.STORM (n b p : Nat) : Fld := ⟨PB_PORT_STATUS.w n b p, 8, 8⟩
def PB_PORT_STATUS.TX_XOFF (n b p : Nat) : Fld := ⟨PB_PORT_STATUS.w n b p, 16, 8⟩
/-- `PB_FC_SA`, Table PM-19: word offset in BAR0 (index tables of file 22). -/
def PB_FC_SA.w (n b p : Nat) : Nat := 4210952 + n * 1048576 + b * 4096 + p * 128
def PB_FC_SA.ADDR_LO (n b p : Nat) : Fld := ⟨PB_FC_SA.w n b p, 0, 32⟩
def PB_FC_SA.ADDR_HI (n b p : Nat) : Fld := ⟨PB_FC_SA.w n b p, 32, 16⟩
/-- `PB_VIOL_CTRL`, Table PM-20: word offset in BAR0 (index tables of file 22). -/
def PB_VIOL_CTRL.w (n b p : Nat) : Nat := 4210954 + n * 1048576 + b * 4096 + p * 128
def PB_VIOL_CTRL.VALID (n b p : Nat) : Fld := ⟨PB_VIOL_CTRL.w n b p, 0, 5⟩
def PB_VIOL_CTRL.OVERWRITTEN (n b p : Nat) : Fld := ⟨PB_VIOL_CTRL.w n b p, 8, 8⟩
def PB_VIOL_CTRL.CLEAR (n b p : Nat) : Fld := ⟨PB_VIOL_CTRL.w n b p, 16, 1⟩
/-- `PB_VIOL_LOG`, Table PM-21: word offset in BAR0 (index tables of file 22). -/
def PB_VIOL_LOG.w (n b p i : Nat) : Nat := 4210960 + n * 1048576 + b * 4096 + p * 128 + i * 2
def PB_VIOL_LOG.CODE (n b p i : Nat) : Fld := ⟨PB_VIOL_LOG.w n b p i, 0, 8⟩
def PB_VIOL_LOG.LANE (n b p i : Nat) : Fld := ⟨PB_VIOL_LOG.w n b p i, 8, 3⟩
def PB_VIOL_LOG.REPEAT (n b p i : Nat) : Fld := ⟨PB_VIOL_LOG.w n b p i, 16, 16⟩
def PB_VIOL_LOG.STROKE (n b p i : Nat) : Fld := ⟨PB_VIOL_LOG.w n b p i, 32, 32⟩
/-- `PB_PORT_CNT`: word offset in BAR0 (index tables of file 22). -/
def PB_PORT_CNT.w (n b p c : Nat) : Nat := 4211008 + n * 1048576 + b * 4096 + p * 128 + c * 2
def PB_PORT_CNT.COUNT (n b p c : Nat) : Fld := ⟨PB_PORT_CNT.w n b p c, 0, 48⟩
/-- `PB_HOST_FILT_CFG`, Table PM-22: word offset in BAR0 (index tables of file 22). -/
def PB_HOST_FILT_CFG.w (n c : Nat) : Nat := 4243456 + n * 1048576 + c * 1024
def PB_HOST_FILT_CFG.PROMISC (n c : Nat) : Fld := ⟨PB_HOST_FILT_CFG.w n c, 0, 1⟩
def PB_HOST_FILT_CFG.BCAST (n c : Nat) : Fld := ⟨PB_HOST_FILT_CFG.w n c, 1, 1⟩
def PB_HOST_FILT_CFG.MCAST_ALL (n c : Nat) : Fld := ⟨PB_HOST_FILT_CFG.w n c, 2, 1⟩
def PB_HOST_FILT_CFG.VLAN_EN (n c : Nat) : Fld := ⟨PB_HOST_FILT_CFG.w n c, 3, 1⟩
def PB_HOST_FILT_CFG.ACCEPT_UNTAGGED (n c : Nat) : Fld := ⟨PB_HOST_FILT_CFG.w n c, 4, 1⟩
def PB_HOST_FILT_CFG.CSUM_RX (n c : Nat) : Fld := ⟨PB_HOST_FILT_CFG.w n c, 5, 1⟩
/-- `PB_HOST_UCAST`, Table PM-23: word offset in BAR0 (index tables of file 22). -/
def PB_HOST_UCAST.w (n c i : Nat) : Nat := 4243520 + n * 1048576 + c * 1024 + i * 2
def PB_HOST_UCAST.ADDR_LO (n c i : Nat) : Fld := ⟨PB_HOST_UCAST.w n c i, 0, 32⟩
def PB_HOST_UCAST.ADDR_HI (n c i : Nat) : Fld := ⟨PB_HOST_UCAST.w n c i, 32, 16⟩
def PB_HOST_UCAST.VALID (n c i : Nat) : Fld := ⟨PB_HOST_UCAST.w n c i, 63, 1⟩
/-- `PB_HOST_MCAST_HASH`, Table PM-24: word offset in BAR0 (index tables of file 22). -/
def PB_HOST_MCAST_HASH.w (n c j : Nat) : Nat := 4243584 + n * 1048576 + c * 1024 + j * 1
def PB_HOST_MCAST_HASH.BITS (n c j : Nat) : Fld := ⟨PB_HOST_MCAST_HASH.w n c j, 0, 32⟩
/-- `PB_HOST_VLAN`, Table PM-24: word offset in BAR0 (index tables of file 22). -/
def PB_HOST_VLAN.w (n c j : Nat) : Nat := 4243712 + n * 1048576 + c * 1024 + j * 1
def PB_HOST_VLAN.BITS (n c j : Nat) : Fld := ⟨PB_HOST_VLAN.w n c j, 0, 32⟩
/-- `PB_WAKE_CFG`, Table PM-25: word offset in BAR0 (index tables of file 22). -/
def PB_WAKE_CFG.w (n : Nat) : Nat := 4245504 + n * 1048576
def PB_WAKE_CFG.PAT_EN (n : Nat) : Fld := ⟨PB_WAKE_CFG.w n, 0, 4⟩
/-- `PB_WAKE_STATUS`, Table PM-25: word offset in BAR0 (index tables of file 22). -/
def PB_WAKE_STATUS.w (n : Nat) : Nat := 4245505 + n * 1048576
def PB_WAKE_STATUS.MATCH (n : Nat) : Fld := ⟨PB_WAKE_STATUS.w n, 0, 4⟩
/-- `PB_WAKE_PAT_CTRL`, Table PM-26: word offset in BAR0 (index tables of file 22). -/
def PB_WAKE_PAT_CTRL.w (n k : Nat) : Nat := 4245568 + n * 1048576 + k * 64
def PB_WAKE_PAT_CTRL.OFFSET (n k : Nat) : Fld := ⟨PB_WAKE_PAT_CTRL.w n k, 0, 8⟩
def PB_WAKE_PAT_CTRL.CHANNEL (n k : Nat) : Fld := ⟨PB_WAKE_PAT_CTRL.w n k, 8, 1⟩
/-- `PB_WAKE_PAT_MASK`, Table PM-26: word offset in BAR0 (index tables of file 22). -/
def PB_WAKE_PAT_MASK.w (n k : Nat) : Nat := 4245570 + n * 1048576 + k * 64
def PB_WAKE_PAT_MASK.MASK (n k : Nat) : Fld := ⟨PB_WAKE_PAT_MASK.w n k, 0, 64⟩
/-- `PB_WAKE_PAT_DATA`, Table PM-26: word offset in BAR0 (index tables of file 22). -/
def PB_WAKE_PAT_DATA.w (n k w : Nat) : Nat := 4245584 + n * 1048576 + k * 64 + w * 1
def PB_WAKE_PAT_DATA.DATA (n k w : Nat) : Fld := ⟨PB_WAKE_PAT_DATA.w n k w, 0, 32⟩
/-- `PB_HOST_CNT`: word offset in BAR0 (index tables of file 22). -/
def PB_HOST_CNT.w (n c j : Nat) : Nat := 4246528 + n * 1048576 + c * 64 + j * 2
def PB_HOST_CNT.COUNT (n c j : Nat) : Fld := ⟨PB_HOST_CNT.w n c j, 0, 48⟩
/-- `IP_PARSE_CFG`, Table PG-13: word offset in BAR0 (index tables of file 22). -/
def IP_PARSE_CFG.w (n p : Nat) : Nat := 4259840 + n * 1048576 + p * 65536
def IP_PARSE_CFG.ENGINE_DIS (n p : Nat) : Fld := ⟨IP_PARSE_CFG.w n p, 0, 8⟩
def IP_PARSE_CFG.CNT_CLEAR (n p : Nat) : Fld := ⟨IP_PARSE_CFG.w n p, 8, 1⟩
/-- `IP_PARSE_STATUS`, Table PG-14: word offset in BAR0 (index tables of file 22). -/
def IP_PARSE_STATUS.w (n p : Nat) : Nat := 4259841 + n * 1048576 + p * 65536
def IP_PARSE_STATUS.ENGINE_IDLE (n p : Nat) : Fld := ⟨IP_PARSE_STATUS.w n p, 0, 8⟩
def IP_PARSE_STATUS.ROB_OCC (n p : Nat) : Fld := ⟨IP_PARSE_STATUS.w n p, 8, 9⟩
def IP_PARSE_STATUS.PARITY_DISCARDS (n p : Nat) : Fld := ⟨IP_PARSE_STATUS.w n p, 24, 8⟩
/-- `IP_PARSE_ERR`, Table PG-15: word offset in BAR0 (index tables of file 22). -/
def IP_PARSE_ERR.w (n p : Nat) : Nat := 4259842 + n * 1048576 + p * 65536
def IP_PARSE_ERR.PARITY (n p : Nat) : Fld := ⟨IP_PARSE_ERR.w n p, 0, 1⟩
def IP_PARSE_ERR.PARITY_FAIL (n p : Nat) : Fld := ⟨IP_PARSE_ERR.w n p, 1, 1⟩
def IP_PARSE_ERR.CFG_REJECT (n p : Nat) : Fld := ⟨IP_PARSE_ERR.w n p, 2, 1⟩
/-- `IP_PARSE_ERR_LOC`, Table PG-15: word offset in BAR0 (index tables of file 22). -/
def IP_PARSE_ERR_LOC.w (n p : Nat) : Nat := 4259843 + n * 1048576 + p * 65536
def IP_PARSE_ERR_LOC.TABLE (n p : Nat) : Fld := ⟨IP_PARSE_ERR_LOC.w n p, 0, 2⟩
def IP_PARSE_ERR_LOC.BANK (n p : Nat) : Fld := ⟨IP_PARSE_ERR_LOC.w n p, 2, 1⟩
def IP_PARSE_ERR_LOC.ENTRY (n p : Nat) : Fld := ⟨IP_PARSE_ERR_LOC.w n p, 3, 10⟩
/-- `IP_PARSE_EXIT_CNT`, Table PG-16: word offset in BAR0 (index tables of file 22). -/
def IP_PARSE_EXIT_CNT.w (n p k : Nat) : Nat := 4259904 + n * 1048576 + p * 65536 + k * 2
def IP_PARSE_EXIT_CNT.COUNT (n p k : Nat) : Fld := ⟨IP_PARSE_EXIT_CNT.w n p k, 0, 48⟩
/-- `IP_PARSE_NODE`: word offset in BAR0 (index tables of file 22). -/
def IP_PARSE_NODE.w (n p b e : Nat) : Nat := 4276224 + n * 1048576 + p * 65536 + b * 2048 + e * 8
def IP_PARSE_NODE.SEL_OFF_HI (n p b e : Nat) : Fld := ⟨IP_PARSE_NODE.w n p b e, 0, 6⟩
def IP_PARSE_NODE.SEL_OFF_LO (n p b e : Nat) : Fld := ⟨IP_PARSE_NODE.w n p b e, 6, 6⟩
def IP_PARSE_NODE.SEL_EN (n p b e : Nat) : Fld := ⟨IP_PARSE_NODE.w n p b e, 12, 1⟩
def IP_PARSE_NODE.TR_COUNT (n p b e : Nat) : Fld := ⟨IP_PARSE_NODE.w n p b e, 13, 5⟩
def IP_PARSE_NODE.TR_BASE (n p b e : Nat) : Fld := ⟨IP_PARSE_NODE.w n p b e, 18, 10⟩
def IP_PARSE_NODE.DEFAULT_NEXT (n p b e : Nat) : Fld := ⟨IP_PARSE_NODE.w n p b e, 32, 9⟩
def IP_PARSE_NODE.LEN_VAR (n p b e : Nat) : Fld := ⟨IP_PARSE_NODE.w n p b e, 41, 1⟩
def IP_PARSE_NODE.LEN_WIDE (n p b e : Nat) : Fld := ⟨IP_PARSE_NODE.w n p b e, 42, 1⟩
def IP_PARSE_NODE.LEN_SCALE (n p b e : Nat) : Fld := ⟨IP_PARSE_NODE.w n p b e, 43, 2⟩
def IP_PARSE_NODE.LEN_SHIFT (n p b e : Nat) : Fld := ⟨IP_PARSE_NODE.w n p b e, 45, 3⟩
def IP_PARSE_NODE.LEN_OFF (n p b e : Nat) : Fld := ⟨IP_PARSE_NODE.w n p b e, 48, 6⟩
def IP_PARSE_NODE.LEN_BASE (n p b e : Nat) : Fld := ⟨IP_PARSE_NODE.w n p b e, 56, 8⟩
def IP_PARSE_NODE.MIN_LEN (n p b e : Nat) : Fld := ⟨IP_PARSE_NODE.w n p b e, 64, 8⟩
def IP_PARSE_NODE.HDR_ID (n p b e : Nat) : Fld := ⟨IP_PARSE_NODE.w n p b e, 72, 6⟩
def IP_PARSE_NODE.HDR_SET (n p b e : Nat) : Fld := ⟨IP_PARSE_NODE.w n p b e, 78, 1⟩
def IP_PARSE_NODE.OFS_EN (n p b e : Nat) : Fld := ⟨IP_PARSE_NODE.w n p b e, 79, 1⟩
def IP_PARSE_NODE.OFS_SLOT (n p b e : Nat) : Fld := ⟨IP_PARSE_NODE.w n p b e, 80, 3⟩
def IP_PARSE_NODE.KEY_SET (n p b e : Nat) : Fld := ⟨IP_PARSE_NODE.w n p b e, 83, 1⟩
def IP_PARSE_NODE.KEY_PROFILE (n p b e : Nat) : Fld := ⟨IP_PARSE_NODE.w n p b e, 84, 3⟩
def IP_PARSE_NODE.EXT0 (n p b e : Nat) : Fld := ⟨IP_PARSE_NODE.w n p b e, 96, 20⟩
def IP_PARSE_NODE.EXT1 (n p b e : Nat) : Fld := ⟨IP_PARSE_NODE.w n p b e, 116, 20⟩
def IP_PARSE_NODE.EXT2 (n p b e : Nat) : Fld := ⟨IP_PARSE_NODE.w n p b e, 136, 20⟩
def IP_PARSE_NODE.EXT3 (n p b e : Nat) : Fld := ⟨IP_PARSE_NODE.w n p b e, 156, 20⟩
/-- `IP_PARSE_TRANS`: word offset in BAR0 (index tables of file 22). -/
def IP_PARSE_TRANS.w (n p b e : Nat) : Nat := 4280320 + n * 1048576 + p * 65536 + b * 4096 + e * 4
def IP_PARSE_TRANS.VALUE (n p b e : Nat) : Fld := ⟨IP_PARSE_TRANS.w n p b e, 0, 32⟩
def IP_PARSE_TRANS.MASK (n p b e : Nat) : Fld := ⟨IP_PARSE_TRANS.w n p b e, 32, 32⟩
def IP_PARSE_TRANS.NEXT (n p b e : Nat) : Fld := ⟨IP_PARSE_TRANS.w n p b e, 64, 9⟩
def IP_PARSE_TRANS.VALID (n p b e : Nat) : Fld := ⟨IP_PARSE_TRANS.w n p b e, 73, 1⟩
/-- `IP_PARSE_FKEY`, Table PG-17: word offset in BAR0 (index tables of file 22). -/
def IP_PARSE_FKEY.w (n p b e w : Nat) : Nat := 4288512 + n * 1048576 + p * 65536 + b * 256 + e * 32 + w * 1
def IP_PARSE_FKEY.SEL_A (n p b e w : Nat) : Fld := ⟨IP_PARSE_FKEY.w n p b e w, 0, 9⟩
def IP_PARSE_FKEY.VALID_A (n p b e w : Nat) : Fld := ⟨IP_PARSE_FKEY.w n p b e w, 9, 1⟩
def IP_PARSE_FKEY.SEL_B (n p b e w : Nat) : Fld := ⟨IP_PARSE_FKEY.w n p b e w, 16, 9⟩
def IP_PARSE_FKEY.VALID_B (n p b e w : Nat) : Fld := ⟨IP_PARSE_FKEY.w n p b e w, 25, 1⟩
/-- `IP_PARSE_START`, Table PG-18: word offset in BAR0 (index tables of file 22). -/
def IP_PARSE_START.w (n p b : Nat) : Nat := 4289536 + n * 1048576 + p * 65536 + b * 64
def IP_PARSE_START.FRONT_NODE (n p b : Nat) : Fld := ⟨IP_PARSE_START.w n p b, 0, 8⟩
def IP_PARSE_START.HOST_NODE (n p b : Nat) : Fld := ⟨IP_PARSE_START.w n p b, 8, 8⟩
def IP_PARSE_START.RECIRC_NODE (n p b : Nat) : Fld := ⟨IP_PARSE_START.w n p b, 16, 8⟩
/-- `IP_PARSE_LIMIT`, Table PG-18: word offset in BAR0 (index tables of file 22). -/
def IP_PARSE_LIMIT.w (n p b : Nat) : Nat := 4289537 + n * 1048576 + p * 65536 + b * 64
def IP_PARSE_LIMIT.MAX_STEPS (n p b : Nat) : Fld := ⟨IP_PARSE_LIMIT.w n p b, 0, 5⟩
/-- `IP_PARSE_EXIT_ACT0`, Table PG-18: word offset in BAR0 (index tables of file 22). -/
def IP_PARSE_EXIT_ACT0.w (n p b : Nat) : Nat := 4289538 + n * 1048576 + p * 65536 + b * 64
def IP_PARSE_EXIT_ACT0.DROP (n p b : Nat) : Fld := ⟨IP_PARSE_EXIT_ACT0.w n p b, 0, 32⟩
/-- `IP_PARSE_EXIT_ACT1`, Table PG-18: word offset in BAR0 (index tables of file 22). -/
def IP_PARSE_EXIT_ACT1.w (n p b : Nat) : Nat := 4289539 + n * 1048576 + p * 65536 + b * 64
def IP_PARSE_EXIT_ACT1.DROP (n p b : Nat) : Fld := ⟨IP_PARSE_EXIT_ACT1.w n p b, 0, 32⟩
/-- `IP_PARSE_EXIT_ACT2`, Table PG-18: word offset in BAR0 (index tables of file 22). -/
def IP_PARSE_EXIT_ACT2.w (n p b : Nat) : Nat := 4289540 + n * 1048576 + p * 65536 + b * 64
def IP_PARSE_EXIT_ACT2.DROP (n p b : Nat) : Fld := ⟨IP_PARSE_EXIT_ACT2.w n p b, 0, 8⟩
/-- `IP_PARSE_ZONE`, Table PG-18: word offset in BAR0 (index tables of file 22). -/
def IP_PARSE_ZONE.w (n p b j : Nat) : Nat := 4289552 + n * 1048576 + p * 65536 + b * 64 + j * 1
def IP_PARSE_ZONE.ZONE_LO (n p b j : Nat) : Fld := ⟨IP_PARSE_ZONE.w n p b j, 0, 16⟩
def IP_PARSE_ZONE.ZONE_HI (n p b j : Nat) : Fld := ⟨IP_PARSE_ZONE.w n p b j, 16, 16⟩
/-- `IP_CL_CFG`, Table CL-8: word offset in BAR0 (index tables of file 22). -/
def IP_CL_CFG.w (n p : Nat) : Nat := 4292608 + n * 1048576 + p * 65536
def IP_CL_CFG.PAR_CHECK_EN (n p : Nat) : Fld := ⟨IP_CL_CFG.w n p, 0, 1⟩
/-- `IP_CL_STATUS`, Table CL-8: word offset in BAR0 (index tables of file 22). -/
def IP_CL_STATUS.w (n p : Nat) : Nat := 4292609 + n * 1048576 + p * 65536
def IP_CL_STATUS.ACTIVE_BANK (n p : Nat) : Fld := ⟨IP_CL_STATUS.w n p, 0, 1⟩
def IP_CL_STATUS.PENDING (n p : Nat) : Fld := ⟨IP_CL_STATUS.w n p, 1, 1⟩
def IP_CL_STATUS.DRAINING (n p : Nat) : Fld := ⟨IP_CL_STATUS.w n p, 2, 1⟩
def IP_CL_STATUS.ARM_RESULT (n p : Nat) : Fld := ⟨IP_CL_STATUS.w n p, 3, 2⟩
def IP_CL_STATUS.PARITY_DISCARDS (n p : Nat) : Fld := ⟨IP_CL_STATUS.w n p, 5, 3⟩
def IP_CL_STATUS.NOKEY_COUNT (n p : Nat) : Fld := ⟨IP_CL_STATUS.w n p, 8, 8⟩
def IP_CL_STATUS.EPOCH (n p : Nat) : Fld := ⟨IP_CL_STATUS.w n p, 16, 16⟩
/-- `IP_CL_ERR`, Table CL-9: word offset in BAR0 (index tables of file 22). -/
def IP_CL_ERR.w (n p : Nat) : Nat := 4292610 + n * 1048576 + p * 65536
def IP_CL_ERR.TCAM_PARITY (n p : Nat) : Fld := ⟨IP_CL_ERR.w n p, 0, 1⟩
def IP_CL_ERR.ACT_PARITY (n p : Nat) : Fld := ⟨IP_CL_ERR.w n p, 1, 1⟩
def IP_CL_ERR.ACT_PARITY_FAIL (n p : Nat) : Fld := ⟨IP_CL_ERR.w n p, 2, 1⟩
def IP_CL_ERR.ARM_REJECT (n p : Nat) : Fld := ⟨IP_CL_ERR.w n p, 3, 1⟩
def IP_CL_ERR.RECIRC_LIMIT (n p : Nat) : Fld := ⟨IP_CL_ERR.w n p, 4, 1⟩
/-- `IP_CL_ERR_LOC`, Table CL-9: word offset in BAR0 (index tables of file 22). -/
def IP_CL_ERR_LOC.w (n p : Nat) : Nat := 4292611 + n * 1048576 + p * 65536
def IP_CL_ERR_LOC.ENTRY (n p : Nat) : Fld := ⟨IP_CL_ERR_LOC.w n p, 0, 15⟩
def IP_CL_ERR_LOC.TABLE (n p : Nat) : Fld := ⟨IP_CL_ERR_LOC.w n p, 15, 1⟩
/-- `IP_CL_SWITCH_STROKE`, Table CL-10: word offset in BAR0 (index tables of file 22). -/
def IP_CL_SWITCH_STROKE.w (n p : Nat) : Nat := 4292612 + n * 1048576 + p * 65536
def IP_CL_SWITCH_STROKE.STROKE (n p : Nat) : Fld := ⟨IP_CL_SWITCH_STROKE.w n p, 0, 48⟩
/-- `IP_CL_SWITCH_CTRL`, Table CL-10: word offset in BAR0 (index tables of file 22). -/
def IP_CL_SWITCH_CTRL.w (n p : Nat) : Nat := 4292614 + n * 1048576 + p * 65536
def IP_CL_SWITCH_CTRL.ARM (n p : Nat) : Fld := ⟨IP_CL_SWITCH_CTRL.w n p, 0, 1⟩
def IP_CL_SWITCH_CTRL.CANCEL (n p : Nat) : Fld := ⟨IP_CL_SWITCH_CTRL.w n p, 1, 1⟩
/-- `IP_CL_RETIRE_STROKE`, Table CL-10: word offset in BAR0 (index tables of file 22). -/
def IP_CL_RETIRE_STROKE.w (n p : Nat) : Nat := 4292616 + n * 1048576 + p * 65536
def IP_CL_RETIRE_STROKE.STROKE (n p : Nat) : Fld := ⟨IP_CL_RETIRE_STROKE.w n p, 0, 48⟩
/-- `IP_CL_RECIRC_DROPS`, Table CL-10: word offset in BAR0 (index tables of file 22). -/
def IP_CL_RECIRC_DROPS.w (n p : Nat) : Nat := 4292618 + n * 1048576 + p * 65536
def IP_CL_RECIRC_DROPS.COUNT (n p : Nat) : Fld := ⟨IP_CL_RECIRC_DROPS.w n p, 0, 32⟩
/-- `IP_CL_KPSEL`, Table CL-11: word offset in BAR0 (index tables of file 22). -/
def IP_CL_KPSEL.w (n p b j : Nat) : Nat := 4293632 + n * 1048576 + p * 65536 + b * 1024 + j * 1
def IP_CL_KPSEL.PROFILE (n p b j x : Nat) : Fld := ⟨IP_CL_KPSEL.w n p b j, 0 + x * 4, 3⟩
def IP_CL_KPSEL.EN (n p b j x : Nat) : Fld := ⟨IP_CL_KPSEL.w n p b j, 3 + x * 4, 1⟩
/-- `IP_CL_KPROF`, Table CL-12: word offset in BAR0 (index tables of file 22). -/
def IP_CL_KPROF.w (n p b f w : Nat) : Nat := 4293696 + n * 1048576 + p * 65536 + b * 1024 + f * 32 + w * 1
def IP_CL_KPROF.SEL_A (n p b f w : Nat) : Fld := ⟨IP_CL_KPROF.w n p b f w, 0, 9⟩
def IP_CL_KPROF.VALID_A (n p b f w : Nat) : Fld := ⟨IP_CL_KPROF.w n p b f w, 9, 1⟩
def IP_CL_KPROF.SEL_B (n p b f w : Nat) : Fld := ⟨IP_CL_KPROF.w n p b f w, 16, 9⟩
def IP_CL_KPROF.VALID_B (n p b f w : Nat) : Fld := ⟨IP_CL_KPROF.w n p b f w, 25, 1⟩
/-- `IP_CL_MISS_ACT`: word offset in BAR0 (index tables of file 22). -/
def IP_CL_MISS_ACT.w (n p b : Nat) : Nat := 4294144 + n * 1048576 + p * 65536 + b * 1024
def IP_CL_MISS_ACT.FWD (n p b : Nat) : Fld := ⟨IP_CL_MISS_ACT.w n p b, 0, 2⟩
def IP_CL_MISS_ACT.PORT (n p b : Nat) : Fld := ⟨IP_CL_MISS_ACT.w n p b, 2, 10⟩
def IP_CL_MISS_ACT.MGROUP (n p b : Nat) : Fld := ⟨IP_CL_MISS_ACT.w n p b, 12, 16⟩
def IP_CL_MISS_ACT.CLASS (n p b : Nat) : Fld := ⟨IP_CL_MISS_ACT.w n p b, 28, 4⟩
def IP_CL_MISS_ACT.POLICER (n p b : Nat) : Fld := ⟨IP_CL_MISS_ACT.w n p b, 32, 16⟩
def IP_CL_MISS_ACT.POL_EN (n p b : Nat) : Fld := ⟨IP_CL_MISS_ACT.w n p b, 48, 1⟩
def IP_CL_MISS_ACT.MIR_EN (n p b : Nat) : Fld := ⟨IP_CL_MISS_ACT.w n p b, 49, 1⟩
def IP_CL_MISS_ACT.MIR_SESSION (n p b : Nat) : Fld := ⟨IP_CL_MISS_ACT.w n p b, 50, 3⟩
def IP_CL_MISS_ACT.TRAP (n p b : Nat) : Fld := ⟨IP_CL_MISS_ACT.w n p b, 53, 1⟩
def IP_CL_MISS_ACT.RECIRC (n p b : Nat) : Fld := ⟨IP_CL_MISS_ACT.w n p b, 54, 1⟩
def IP_CL_MISS_ACT.TRAP_REASON (n p b : Nat) : Fld := ⟨IP_CL_MISS_ACT.w n p b, 56, 8⟩
def IP_CL_MISS_ACT.FLOW_EN (n p b : Nat) : Fld := ⟨IP_CL_MISS_ACT.w n p b, 64, 1⟩
def IP_CL_MISS_ACT.FLOW_PART (n p b : Nat) : Fld := ⟨IP_CL_MISS_ACT.w n p b, 65, 4⟩
def IP_CL_MISS_ACT.ROUTINE (n p b : Nat) : Fld := ⟨IP_CL_MISS_ACT.w n p b, 69, 8⟩
def IP_CL_MISS_ACT.TTL_DEC (n p b : Nat) : Fld := ⟨IP_CL_MISS_ACT.w n p b, 77, 1⟩
def IP_CL_MISS_ACT.DSCP_EN (n p b : Nat) : Fld := ⟨IP_CL_MISS_ACT.w n p b, 78, 1⟩
def IP_CL_MISS_ACT.DSCP (n p b : Nat) : Fld := ⟨IP_CL_MISS_ACT.w n p b, 79, 6⟩
def IP_CL_MISS_ACT.VLAN_OP (n p b : Nat) : Fld := ⟨IP_CL_MISS_ACT.w n p b, 85, 2⟩
def IP_CL_MISS_ACT.VID (n p b : Nat) : Fld := ⟨IP_CL_MISS_ACT.w n p b, 96, 12⟩
def IP_CL_MISS_ACT.PCP (n p b : Nat) : Fld := ⟨IP_CL_MISS_ACT.w n p b, 108, 3⟩
/-- `TBL_CFG`, Table FT-16: word offset in BAR0 (index tables of file 22). -/
def TBL_CFG.w (n : Nat) : Nat := 4456448 + n * 1048576
def TBL_CFG.LEARN_EN (n : Nat) : Fld := ⟨TBL_CFG.w n, 0, 1⟩
def TBL_CFG.EVICT_RANDOM (n : Nat) : Fld := ⟨TBL_CFG.w n, 1, 1⟩
def TBL_CFG.DA_HIT (n : Nat) : Fld := ⟨TBL_CFG.w n, 2, 1⟩
def TBL_CFG.ROUTE_MISS_TRAP (n : Nat) : Fld := ⟨TBL_CFG.w n, 3, 1⟩
def TBL_CFG.LEARN_EVICT (n : Nat) : Fld := ⟨TBL_CFG.w n, 4, 1⟩
def TBL_CFG.NH_BUCKETS (n : Nat) : Fld := ⟨TBL_CFG.w n, 8, 14⟩
def TBL_CFG.ROUTE_MISS_REASON (n : Nat) : Fld := ⟨TBL_CFG.w n, 22, 8⟩
/-- `TBL_LKP_SEL0`, Table FT-16: word offset in BAR0 (index tables of file 22). -/
def TBL_LKP_SEL0.w (n : Nat) : Nat := 4456449 + n * 1048576
def TBL_LKP_SEL0.DA_OFF (n : Nat) : Fld := ⟨TBL_LKP_SEL0.w n, 0, 9⟩
def TBL_LKP_SEL0.VID_OFF (n : Nat) : Fld := ⟨TBL_LKP_SEL0.w n, 9, 9⟩
def TBL_LKP_SEL0.TAG_HDR (n : Nat) : Fld := ⟨TBL_LKP_SEL0.w n, 18, 6⟩
def TBL_LKP_SEL0.L2_HDR (n : Nat) : Fld := ⟨TBL_LKP_SEL0.w n, 24, 6⟩
/-- `TBL_LKP_SEL1`, Table FT-16: word offset in BAR0 (index tables of file 22). -/
def TBL_LKP_SEL1.w (n : Nat) : Nat := 4456450 + n * 1048576
def TBL_LKP_SEL1.IP4_DA_OFF (n : Nat) : Fld := ⟨TBL_LKP_SEL1.w n, 0, 9⟩
def TBL_LKP_SEL1.IP4_HDR (n : Nat) : Fld := ⟨TBL_LKP_SEL1.w n, 9, 6⟩
def TBL_LKP_SEL1.IP6_DA_OFF (n : Nat) : Fld := ⟨TBL_LKP_SEL1.w n, 15, 9⟩
def TBL_LKP_SEL1.IP6_HDR (n : Nat) : Fld := ⟨TBL_LKP_SEL1.w n, 24, 6⟩
/-- `TBL_LEARN_CFG`, Table FT-16: word offset in BAR0 (index tables of file 22). -/
def TBL_LEARN_CFG.w (n : Nat) : Nat := 4456451 + n * 1048576
def TBL_LEARN_CFG.LEARN_LIMIT (n : Nat) : Fld := ⟨TBL_LEARN_CFG.w n, 0, 11⟩
def TBL_LEARN_CFG.NOTIFY_LEARN (n : Nat) : Fld := ⟨TBL_LEARN_CFG.w n, 16, 1⟩
def TBL_LEARN_CFG.NOTIFY_MOVE (n : Nat) : Fld := ⟨TBL_LEARN_CFG.w n, 17, 1⟩
def TBL_LEARN_CFG.NOTIFY_AGED (n : Nat) : Fld := ⟨TBL_LEARN_CFG.w n, 18, 1⟩
/-- `TBL_AGE_CFG`, Table FT-17: word offset in BAR0 (index tables of file 22). -/
def TBL_AGE_CFG.w (n : Nat) : Nat := 4456452 + n * 1048576
def TBL_AGE_CFG.N (n : Nat) : Fld := ⟨TBL_AGE_CFG.w n, 0, 32⟩
/-- `TBL_AGE_BASE`, Table FT-17: word offset in BAR0 (index tables of file 22). -/
def TBL_AGE_BASE.w (n : Nat) : Nat := 4456454 + n * 1048576
def TBL_AGE_BASE.STROKE (n : Nat) : Fld := ⟨TBL_AGE_BASE.w n, 0, 48⟩
/-- `TBL_HASH_SEED`, Table FT-17: word offset in BAR0 (index tables of file 22). -/
def TBL_HASH_SEED.w (n : Nat) : Nat := 4456456 + n * 1048576
def TBL_HASH_SEED.SEED (n : Nat) : Fld := ⟨TBL_HASH_SEED.w n, 0, 32⟩
/-- `TBL_STATUS`, Table FT-18: word offset in BAR0 (index tables of file 22). -/
def TBL_STATUS.w (n : Nat) : Nat := 4456457 + n * 1048576
def TBL_STATUS.SWEEP_ACTIVE (n : Nat) : Fld := ⟨TBL_STATUS.w n, 0, 1⟩
def TBL_STATUS.REMOVALS_PENDING (n : Nat) : Fld := ⟨TBL_STATUS.w n, 1, 1⟩
def TBL_STATUS.SCHED_QUEUED (n : Nat) : Fld := ⟨TBL_STATUS.w n, 16, 15⟩
/-- `TBL_CNT`, Table FT-18: word offset in BAR0 (index tables of file 22). -/
def TBL_CNT.w (n : Nat) : Nat := 4456458 + n * 1048576
def TBL_CNT.LIMIT_DROPS (n : Nat) : Fld := ⟨TBL_CNT.w n, 0, 8⟩
def TBL_CNT.STATIC_REFUSED (n : Nat) : Fld := ⟨TBL_CNT.w n, 8, 8⟩
def TBL_CNT.LEARN_FAIL (n : Nat) : Fld := ⟨TBL_CNT.w n, 16, 8⟩
def TBL_CNT.PARITY_DISCARDS (n : Nat) : Fld := ⟨TBL_CNT.w n, 24, 8⟩
/-- `TBL_ERR`, Table FT-18: word offset in BAR0 (index tables of file 22). -/
def TBL_ERR.w (n : Nat) : Nat := 4456459 + n * 1048576
def TBL_ERR.PARITY (n : Nat) : Fld := ⟨TBL_ERR.w n, 0, 1⟩
def TBL_ERR.PARITY_FAIL (n : Nat) : Fld := ⟨TBL_ERR.w n, 1, 1⟩
def TBL_ERR.CFG_IGNORED (n : Nat) : Fld := ⟨TBL_ERR.w n, 2, 1⟩
def TBL_ERR.CMP_MISMATCH (n : Nat) : Fld := ⟨TBL_ERR.w n, 3, 1⟩
def TBL_ERR.CMP_DMA (n : Nat) : Fld := ⟨TBL_ERR.w n, 4, 1⟩
/-- `TBL_ERR_LOC`, Table FT-18: word offset in BAR0 (index tables of file 22). -/
def TBL_ERR_LOC.w (n : Nat) : Nat := 4456460 + n * 1048576
def TBL_ERR_LOC.TABLE (n : Nat) : Fld := ⟨TBL_ERR_LOC.w n, 0, 2⟩
def TBL_ERR_LOC.INDEX (n : Nat) : Fld := ⟨TBL_ERR_LOC.w n, 2, 20⟩
/-- `TBL_OCC`, Table FT-18: word offset in BAR0 (index tables of file 22). -/
def TBL_OCC.w (n : Nat) : Nat := 4456461 + n * 1048576
def TBL_OCC.USED (n : Nat) : Fld := ⟨TBL_OCC.w n, 0, 21⟩
/-- `TBL_ROUTE_OCC`, Table FT-18: word offset in BAR0 (index tables of file 22). -/
def TBL_ROUTE_OCC.w (n : Nat) : Nat := 4456462 + n * 1048576
def TBL_ROUTE_OCC.USED (n : Nat) : Fld := ⟨TBL_ROUTE_OCC.w n, 0, 19⟩
/-- `TBL_CMP_CFG`, Table FT-19: word offset in BAR0 (index tables of file 22). -/
def TBL_CMP_CFG.w (n : Nat) : Nat := 4456464 + n * 1048576
def TBL_CMP_CFG.EN (n : Nat) : Fld := ⟨TBL_CMP_CFG.w n, 0, 1⟩
def TBL_CMP_CFG.EP (n : Nat) : Fld := ⟨TBL_CMP_CFG.w n, 1, 1⟩
def TBL_CMP_CFG.ROUTE (n : Nat) : Fld := ⟨TBL_CMP_CFG.w n, 2, 1⟩
def TBL_CMP_CFG.VLAN (n : Nat) : Fld := ⟨TBL_CMP_CFG.w n, 3, 1⟩
def TBL_CMP_CFG.INTERVAL_NS (n : Nat) : Fld := ⟨TBL_CMP_CFG.w n, 16, 16⟩
/-- `TBL_CMP_BASE`, Table FT-19: word offset in BAR0 (index tables of file 22). -/
def TBL_CMP_BASE.w (n : Nat) : Nat := 4456466 + n * 1048576
def TBL_CMP_BASE.ADDR (n : Nat) : Fld := ⟨TBL_CMP_BASE.w n, 12, 52⟩
/-- `TBL_CMP_STATUS`, Table FT-19: word offset in BAR0 (index tables of file 22). -/
def TBL_CMP_STATUS.w (n : Nat) : Nat := 4456468 + n * 1048576
def TBL_CMP_STATUS.RUNNING (n : Nat) : Fld := ⟨TBL_CMP_STATUS.w n, 0, 1⟩
def TBL_CMP_STATUS.MISMATCHES (n : Nat) : Fld := ⟨TBL_CMP_STATUS.w n, 8, 8⟩
def TBL_CMP_STATUS.LAPS (n : Nat) : Fld := ⟨TBL_CMP_STATUS.w n, 16, 16⟩
/-- `TBL_RMAC`, Table FT-20: word offset in BAR0 (index tables of file 22). -/
def TBL_RMAC.w (n i : Nat) : Nat := 4456512 + n * 1048576 + i * 2
def TBL_RMAC.ADDR_LO (n i : Nat) : Fld := ⟨TBL_RMAC.w n i, 0, 32⟩
def TBL_RMAC.ADDR_HI (n i : Nat) : Fld := ⟨TBL_RMAC.w n i, 32, 16⟩
def TBL_RMAC.VALID (n i : Nat) : Fld := ⟨TBL_RMAC.w n i, 63, 1⟩
/-- `TBL_PVID`, Table FT-20: word offset in BAR0 (index tables of file 22). -/
def TBL_PVID.w (n j : Nat) : Nat := 4456576 + n * 1048576 + j * 1
def TBL_PVID.PVID_LO (n j : Nat) : Fld := ⟨TBL_PVID.w n j, 0, 12⟩
def TBL_PVID.PVID_HI (n j : Nat) : Fld := ⟨TBL_PVID.w n j, 16, 12⟩
/-- `FE_CFG`, Table FE-6: word offset in BAR0 (index tables of file 22). -/
def FE_CFG.w (n : Nat) : Nat := 4587520 + n * 1048576
def FE_CFG.BYPASS_US (n : Nat) : Fld := ⟨FE_CFG.w n, 0, 8⟩
/-- `FE_HASH_SEED`, Table FE-6: word offset in BAR0 (index tables of file 22). -/
def FE_HASH_SEED.w (n : Nat) : Nat := 4587521 + n * 1048576
def FE_HASH_SEED.SEED (n : Nat) : Fld := ⟨FE_HASH_SEED.w n, 0, 32⟩
/-- `FE_HOME_SEED`, Table FE-6: word offset in BAR0 (index tables of file 22). -/
def FE_HOME_SEED.w (n : Nat) : Nat := 4587522 + n * 1048576
def FE_HOME_SEED.SEED (n : Nat) : Fld := ⟨FE_HOME_SEED.w n, 0, 32⟩
/-- `FE_SWEEP_CFG`, Table FE-6: word offset in BAR0 (index tables of file 22). -/
def FE_SWEEP_CFG.w (n : Nat) : Nat := 4587523 + n * 1048576
def FE_SWEEP_CFG.N_F (n : Nat) : Fld := ⟨FE_SWEEP_CFG.w n, 0, 32⟩
/-- `FE_SWEEP_BASE`, Table FE-6: word offset in BAR0 (index tables of file 22). -/
def FE_SWEEP_BASE.w (n : Nat) : Nat := 4587524 + n * 1048576
def FE_SWEEP_BASE.STROKE (n : Nat) : Fld := ⟨FE_SWEEP_BASE.w n, 0, 48⟩
/-- `FE_HOME_MAP`, Table FE-6: word offset in BAR0 (index tables of file 22). -/
def FE_HOME_MAP.w (n j : Nat) : Nat := 4587528 + n * 1048576 + j * 1
def FE_HOME_MAP.ENGINE (n j x : Nat) : Fld := ⟨FE_HOME_MAP.w n j, 0 + x * 4, 3⟩
/-- `FE_STATUS`, Table FE-7: word offset in BAR0 (index tables of file 22). -/
def FE_STATUS.w (n : Nat) : Nat := 4587536 + n * 1048576
def FE_STATUS.LOOKUP_OCC (n : Nat) : Fld := ⟨FE_STATUS.w n, 0, 17⟩
def FE_STATUS.BYPASS (n : Nat) : Fld := ⟨FE_STATUS.w n, 17, 1⟩
def FE_STATUS.SWEEP_ACTIVE (n : Nat) : Fld := ⟨FE_STATUS.w n, 18, 1⟩
def FE_STATUS.SNAP_ACTIVE (n : Nat) : Fld := ⟨FE_STATUS.w n, 19, 1⟩
def FE_STATUS.DIRTY (n : Nat) : Fld := ⟨FE_STATUS.w n, 20, 1⟩
/-- `FE_CAPACITY`, Table FE-7: word offset in BAR0 (index tables of file 22). -/
def FE_CAPACITY.w (n : Nat) : Nat := 4587537 + n * 1048576
def FE_CAPACITY.SLOTS (n : Nat) : Fld := ⟨FE_CAPACITY.w n, 0, 27⟩
/-- `FE_PC_LIVE`, Table FE-7: word offset in BAR0 (index tables of file 22). -/
def FE_PC_LIVE.w (n : Nat) : Nat := 4587538 + n * 1048576
def FE_PC_LIVE.LIVE (n : Nat) : Fld := ⟨FE_PC_LIVE.w n, 0, 32⟩
/-- `FE_OCC`, Table FE-7: word offset in BAR0 (index tables of file 22). -/
def FE_OCC.w (n : Nat) : Nat := 4587539 + n * 1048576
def FE_OCC.SLOTS_USED (n : Nat) : Fld := ⟨FE_OCC.w n, 0, 27⟩
/-- `FE_RECORDS`, Table FE-7: word offset in BAR0 (index tables of file 22). -/
def FE_RECORDS.w (n : Nat) : Nat := 4587540 + n * 1048576
def FE_RECORDS.COUNT (n : Nat) : Fld := ⟨FE_RECORDS.w n, 0, 27⟩
/-- `FE_ERR`, Table FE-7: word offset in BAR0 (index tables of file 22). -/
def FE_ERR.w (n : Nat) : Nat := 4587541 + n * 1048576
def FE_ERR.PARITY (n : Nat) : Fld := ⟨FE_ERR.w n, 0, 1⟩
def FE_ERR.RECORD_LOST (n : Nat) : Fld := ⟨FE_ERR.w n, 1, 1⟩
def FE_ERR.CFG_IGNORED (n : Nat) : Fld := ⟨FE_ERR.w n, 2, 1⟩
def FE_ERR.BYPASS (n : Nat) : Fld := ⟨FE_ERR.w n, 3, 1⟩
def FE_ERR.REPORT_STALL (n : Nat) : Fld := ⟨FE_ERR.w n, 4, 1⟩
/-- `FE_ERR_LOC`, Table FE-7: word offset in BAR0 (index tables of file 22). -/
def FE_ERR_LOC.w (n : Nat) : Nat := 4587542 + n * 1048576
def FE_ERR_LOC.BUCKET (n : Nat) : Fld := ⟨FE_ERR_LOC.w n, 0, 24⟩
def FE_ERR_LOC.SLOT (n : Nat) : Fld := ⟨FE_ERR_LOC.w n, 24, 2⟩
def FE_ERR_LOC.IN_CACHE (n : Nat) : Fld := ⟨FE_ERR_LOC.w n, 26, 1⟩
/-- `FE_DICT_STATUS`, Table FR-9: word offset in BAR0 (index tables of file 22). -/
def FE_DICT_STATUS.w (n : Nat) : Nat := 4587544 + n * 1048576
def FE_DICT_STATUS.VALID_COUNT (n : Nat) : Fld := ⟨FE_DICT_STATUS.w n, 0, 13⟩
def FE_DICT_STATUS.FULL_MISSES (n : Nat) : Fld := ⟨FE_DICT_STATUS.w n, 16, 16⟩
/-- `FE_DICT`, Table FR-9: word offset in BAR0 (index tables of file 22). -/
def FE_DICT.w (n i : Nat) : Nat := 4603904 + n * 1048576 + i * 4
def FE_DICT.PREFIX_LO (n i : Nat) : Fld := ⟨FE_DICT.w n i, 0, 32⟩
def FE_DICT.PREFIX_HI (n i : Nat) : Fld := ⟨FE_DICT.w n i, 32, 32⟩
def FE_DICT.ZONE (n i : Nat) : Fld := ⟨FE_DICT.w n i, 64, 16⟩
def FE_DICT.VALID (n i : Nat) : Fld := ⟨FE_DICT.w n i, 80, 1⟩
def FE_DICT.BAD (n i : Nat) : Fld := ⟨FE_DICT.w n i, 81, 1⟩
def FE_DICT.USES (n i : Nat) : Fld := ⟨FE_DICT.w n i, 96, 24⟩
/-- `FE_CNT`, Table FE-8: word offset in BAR0 (index tables of file 22). -/
def FE_CNT.w (n c : Nat) : Nat := 4587552 + n * 1048576 + c * 2
def FE_CNT.COUNT (n c : Nat) : Fld := ⟨FE_CNT.w n c, 0, 48⟩
/-- `FE_PART_CFG`, Table FE-9: word offset in BAR0 (index tables of file 22). -/
def FE_PART_CFG.w (n p : Nat) : Nat := 4587584 + n * 1048576 + p * 2
def FE_PART_CFG.VALID (n p : Nat) : Fld := ⟨FE_PART_CFG.w n p, 0, 1⟩
def FE_PART_CFG.MODE (n p : Nat) : Fld := ⟨FE_PART_CFG.w n p, 1, 1⟩
def FE_PART_CFG.NORM (n p : Nat) : Fld := ⟨FE_PART_CFG.w n p, 2, 1⟩
def FE_PART_CFG.EVICT_RANDOM (n p : Nat) : Fld := ⟨FE_PART_CFG.w n p, 3, 1⟩
def FE_PART_CFG.EVICT_EN (n p : Nat) : Fld := ⟨FE_PART_CFG.w n p, 4, 1⟩
def FE_PART_CFG.BYPASS_ACT (n p : Nat) : Fld := ⟨FE_PART_CFG.w n p, 5, 2⟩
def FE_PART_CFG.NOTIFY_AGED (n p : Nat) : Fld := ⟨FE_PART_CFG.w n p, 7, 1⟩
/-- `FE_PART_TIMEOUT`, Table FE-9: word offset in BAR0 (index tables of file 22). -/
def FE_PART_TIMEOUT.w (n p : Nat) : Nat := 4587585 + n * 1048576 + p * 2
def FE_PART_TIMEOUT.IDLE_TIMEOUT (n p : Nat) : Fld := ⟨FE_PART_TIMEOUT.w n p, 0, 32⟩
/-- `PMP_STORE`, Table PU-12: word offset in BAR0 (index tables of file 22). -/
def PMP_STORE.w (n a : Nat) : Nat := 4620288 + n * 1048576 + a * 1
def PMP_STORE.WORD (n a : Nat) : Fld := ⟨PMP_STORE.w n a, 0, 32⟩
/-- `PMP_BIND`, Table PU-7: word offset in BAR0 (index tables of file 22). -/
def PMP_BIND.w (n b i : Nat) : Nat := 4636672 + n * 1048576 + b * 2048 + i * 8
def PMP_BIND.ENTRY (n b i : Nat) : Fld := ⟨PMP_BIND.w n b i, 0, 14⟩
def PMP_BIND.VALID (n b i : Nat) : Fld := ⟨PMP_BIND.w n b i, 14, 1⟩
def PMP_BIND.LEN (n b i : Nat) : Fld := ⟨PMP_BIND.w n b i, 16, 15⟩
def PMP_BIND.HV_OFF (n b i : Nat) : Fld := ⟨PMP_BIND.w n b i, 32, 9⟩
def PMP_BIND.ARG0 (n b i : Nat) : Fld := ⟨PMP_BIND.w n b i, 128, 32⟩
def PMP_BIND.ARG1 (n b i : Nat) : Fld := ⟨PMP_BIND.w n b i, 160, 32⟩
def PMP_BIND.ARG2 (n b i : Nat) : Fld := ⟨PMP_BIND.w n b i, 192, 32⟩
def PMP_BIND.ARG3 (n b i : Nat) : Fld := ⟨PMP_BIND.w n b i, 224, 32⟩
/-- `PMP_CFG`, Table PU-13: word offset in BAR0 (index tables of file 22). -/
def PMP_CFG.w (n : Nat) : Nat := 4644864 + n * 1048576
def PMP_CFG.MAX_WORDS (n : Nat) : Fld := ⟨PMP_CFG.w n, 0, 12⟩
def PMP_CFG.MAX_RESTARTS (n : Nat) : Fld := ⟨PMP_CFG.w n, 12, 3⟩
def PMP_CFG.READ_COPY (n : Nat) : Fld := ⟨PMP_CFG.w n, 15, 1⟩
/-- `PMP_POOL`, Table PU-13: word offset in BAR0 (index tables of file 22). -/
def PMP_POOL.w (n : Nat) : Nat := 4644865 + n * 1048576
def PMP_POOL.IN_POOL (n : Nat) : Fld := ⟨PMP_POOL.w n, 0, 32⟩
/-- `PMP_STATUS`, Table PU-13: word offset in BAR0 (index tables of file 22). -/
def PMP_STATUS.w (n : Nat) : Nat := 4644866 + n * 1048576
def PMP_STATUS.CTX_BUSY (n : Nat) : Fld := ⟨PMP_STATUS.w n, 0, 9⟩
def PMP_STATUS.CREDIT_WAIT (n : Nat) : Fld := ⟨PMP_STATUS.w n, 16, 8⟩
/-- `PMP_ERR`, Table PU-13: word offset in BAR0 (index tables of file 22). -/
def PMP_ERR.w (n : Nat) : Nat := 4644867 + n * 1048576
def PMP_ERR.STORE_PARITY (n : Nat) : Fld := ⟨PMP_ERR.w n, 0, 1⟩
def PMP_ERR.CTX_PARITY (n : Nat) : Fld := ⟨PMP_ERR.w n, 1, 1⟩
def PMP_ERR.FAULT (n : Nat) : Fld := ⟨PMP_ERR.w n, 2, 1⟩
def PMP_ERR.PASS_FAIL (n : Nat) : Fld := ⟨PMP_ERR.w n, 3, 1⟩
def PMP_ERR.CFG_REJECT (n : Nat) : Fld := ⟨PMP_ERR.w n, 4, 1⟩
def PMP_ERR.EXPORT_STALL (n : Nat) : Fld := ⟨PMP_ERR.w n, 5, 1⟩
def PMP_ERR.EXPORT_UNROUTED (n : Nat) : Fld := ⟨PMP_ERR.w n, 6, 1⟩
/-- `PMP_ERR_LOC`, Table PU-13: word offset in BAR0 (index tables of file 22). -/
def PMP_ERR_LOC.w (n : Nat) : Nat := 4644868 + n * 1048576
def PMP_ERR_LOC.PC (n : Nat) : Fld := ⟨PMP_ERR_LOC.w n, 0, 14⟩
def PMP_ERR_LOC.ROUTINE (n : Nat) : Fld := ⟨PMP_ERR_LOC.w n, 14, 8⟩
def PMP_ERR_LOC.BANK (n : Nat) : Fld := ⟨PMP_ERR_LOC.w n, 22, 1⟩
def PMP_ERR_LOC.PUMP (n : Nat) : Fld := ⟨PMP_ERR_LOC.w n, 23, 5⟩
def PMP_ERR_LOC.CONTEXT (n : Nat) : Fld := ⟨PMP_ERR_LOC.w n, 28, 3⟩
/-- `PMP_ERR_CAUSE`, Table PU-13: word offset in BAR0 (index tables of file 22). -/
def PMP_ERR_CAUSE.w (n : Nat) : Nat := 4644869 + n * 1048576
def PMP_ERR_CAUSE.CAUSE (n : Nat) : Fld := ⟨PMP_ERR_CAUSE.w n, 0, 8⟩
/-- `PMP_TEST`, Table PU-14: word offset in BAR0 (index tables of file 22). -/
def PMP_TEST.w (n : Nat) : Nat := 4644870 + n * 1048576
def PMP_TEST.PUMP (n : Nat) : Fld := ⟨PMP_TEST.w n, 0, 5⟩
def PMP_TEST.START (n : Nat) : Fld := ⟨PMP_TEST.w n, 5, 1⟩
/-- `PMP_TEST_STATUS`, Table PU-14: word offset in BAR0 (index tables of file 22). -/
def PMP_TEST_STATUS.w (n : Nat) : Nat := 4644871 + n * 1048576
def PMP_TEST_STATUS.BUSY (n : Nat) : Fld := ⟨PMP_TEST_STATUS.w n, 0, 1⟩
def PMP_TEST_STATUS.PASS (n : Nat) : Fld := ⟨PMP_TEST_STATUS.w n, 1, 1⟩
def PMP_TEST_STATUS.FAIL (n : Nat) : Fld := ⟨PMP_TEST_STATUS.w n, 2, 1⟩
def PMP_TEST_STATUS.PUMP (n : Nat) : Fld := ⟨PMP_TEST_STATUS.w n, 8, 5⟩
/-- `PMP_EXPORT_CFG`, Table PU-14: word offset in BAR0 (index tables of file 22). -/
def PMP_EXPORT_CFG.w (n e : Nat) : Nat := 4644872 + n * 1048576 + e * 1
def PMP_EXPORT_CFG.RING (n e : Nat) : Fld := ⟨PMP_EXPORT_CFG.w n e, 0, 14⟩
def PMP_EXPORT_CFG.EN (n e : Nat) : Fld := ⟨PMP_EXPORT_CFG.w n e, 14, 1⟩
/-- `PMP_CNT`, Table PU-15: word offset in BAR0 (index tables of file 22). -/
def PMP_CNT.w (n c : Nat) : Nat := 4644896 + n * 1048576 + c * 2
def PMP_CNT.COUNT (n c : Nat) : Fld := ⟨PMP_CNT.w n c, 0, 48⟩
/-- `PMP_RT_HIST_CFG`, Table CT-8: word offset in BAR0 (index tables of file 22). -/
def PMP_RT_HIST_CFG.w (n : Nat) : Nat := 4645888 + n * 1048576
def PMP_RT_HIST_CFG.EN (n : Nat) : Fld := ⟨PMP_RT_HIST_CFG.w n, 0, 1⟩
/-- `PMP_RT_HIST_SEL`, Table CT-8: word offset in BAR0 (index tables of file 22). -/
def PMP_RT_HIST_SEL.w (n : Nat) : Nat := 4645889 + n * 1048576
def PMP_RT_HIST_SEL.ROUTINE (n : Nat) : Fld := ⟨PMP_RT_HIST_SEL.w n, 0, 8⟩
def PMP_RT_HIST_SEL.CLEAR (n : Nat) : Fld := ⟨PMP_RT_HIST_SEL.w n, 8, 1⟩
def PMP_RT_HIST_SEL.READY (n : Nat) : Fld := ⟨PMP_RT_HIST_SEL.w n, 9, 1⟩
/-- `PMP_RT_HIST_MAX`, Table CT-8: word offset in BAR0 (index tables of file 22). -/
def PMP_RT_HIST_MAX.w (n : Nat) : Nat := 4645890 + n * 1048576
def PMP_RT_HIST_MAX.NS (n : Nat) : Fld := ⟨PMP_RT_HIST_MAX.w n, 0, 32⟩
/-- `PMP_RT_HIST_BIN`, Table CT-8: word offset in BAR0 (index tables of file 22). -/
def PMP_RT_HIST_BIN.w (n i : Nat) : Nat := 4645952 + n * 1048576 + i * 1
def PMP_RT_HIST_BIN.COUNT (n i : Nat) : Fld := ⟨PMP_RT_HIST_BIN.w n i, 0, 32⟩
/-- `CIS_CFG`, Table CS-7: word offset in BAR0 (index tables of file 22). -/
def CIS_CFG.w (n : Nat) : Nat := 4718592 + n * 1048576
def CIS_CFG.BORROW (n : Nat) : Fld := ⟨CIS_CFG.w n, 0, 1⟩
def CIS_CFG.SPILL_EN (n : Nat) : Fld := ⟨CIS_CFG.w n, 1, 1⟩
def CIS_CFG.TRAP_CLASS (n : Nat) : Fld := ⟨CIS_CFG.w n, 4, 4⟩
def CIS_CFG.ECN_SLOT (n : Nat) : Fld := ⟨CIS_CFG.w n, 8, 3⟩
/-- `CIS_CLASS_PRIO`, Table CS-7: word offset in BAR0 (index tables of file 22). -/
def CIS_CLASS_PRIO.w (n : Nat) : Nat := 4718593 + n * 1048576
def CIS_CLASS_PRIO.URGENT (n : Nat) : Fld := ⟨CIS_CLASS_PRIO.w n, 0, 16⟩
/-- `CIS_POOL_CFG`, Table CS-8: word offset in BAR0 (index tables of file 22). -/
def CIS_POOL_CFG.w (n k : Nat) : Nat := 4718596 + n * 1048576 + k * 1
def CIS_POOL_CFG.COUNT (n k : Nat) : Fld := ⟨CIS_POOL_CFG.w n k, 0, 16⟩
/-- `CIS_POOL_LIMIT`, Table CS-8: word offset in BAR0 (index tables of file 22). -/
def CIS_POOL_LIMIT.w (n k : Nat) : Nat := 4718600 + n * 1048576 + k * 1
def CIS_POOL_LIMIT.ING_LIMIT (n k : Nat) : Fld := ⟨CIS_POOL_LIMIT.w n k, 0, 16⟩
/-- `CIS_POOL_STATUS`, Table CS-8: word offset in BAR0 (index tables of file 22). -/
def CIS_POOL_STATUS.w (n k : Nat) : Nat := 4718604 + n * 1048576 + k * 1
def CIS_POOL_STATUS.IN_USE (n k : Nat) : Fld := ⟨CIS_POOL_STATUS.w n k, 0, 16⟩
def CIS_POOL_STATUS.PEAK (n k : Nat) : Fld := ⟨CIS_POOL_STATUS.w n k, 16, 16⟩
/-- `CIS_SPILL_CFG`, Table CS-9: word offset in BAR0 (index tables of file 22). -/
def CIS_SPILL_CFG.w (n : Nat) : Nat := 4718608 + n * 1048576
def CIS_SPILL_CFG.REGION_ON (n : Nat) : Fld := ⟨CIS_SPILL_CFG.w n, 0, 16⟩
def CIS_SPILL_CFG.REGION_OFF (n : Nat) : Fld := ⟨CIS_SPILL_CFG.w n, 16, 16⟩
/-- `CIS_SPILL_Q`, Table CS-9: word offset in BAR0 (index tables of file 22). -/
def CIS_SPILL_Q.w (n : Nat) : Nat := 4718609 + n * 1048576
def CIS_SPILL_Q.Q_MIN (n : Nat) : Fld := ⟨CIS_SPILL_Q.w n, 0, 16⟩
def CIS_SPILL_Q.Q_MAX (n : Nat) : Fld := ⟨CIS_SPILL_Q.w n, 16, 16⟩
/-- `CIS_OCC`, Table CS-9: word offset in BAR0 (index tables of file 22). -/
def CIS_OCC.w (n : Nat) : Nat := 4718610 + n * 1048576
def CIS_OCC.INGRESS_UNITS (n : Nat) : Fld := ⟨CIS_OCC.w n, 0, 16⟩
def CIS_OCC.EGRESS_UNITS (n : Nat) : Fld := ⟨CIS_OCC.w n, 16, 16⟩
/-- `CIS_SUMP_CFG`, Table CS-10: word offset in BAR0 (index tables of file 22). -/
def CIS_SUMP_CFG.w (n : Nat) : Nat := 4718612 + n * 1048576
def CIS_SUMP_CFG.SIZE_MIB (n : Nat) : Fld := ⟨CIS_SUMP_CFG.w n, 0, 13⟩
def CIS_SUMP_CFG.RATE (n : Nat) : Fld := ⟨CIS_SUMP_CFG.w n, 13, 5⟩
def CIS_SUMP_CFG.PREFETCH (n : Nat) : Fld := ⟨CIS_SUMP_CFG.w n, 18, 6⟩
/-- `CIS_SUMP_STATUS`, Table CS-10: word offset in BAR0 (index tables of file 22). -/
def CIS_SUMP_STATUS.w (n : Nat) : Nat := 4718613 + n * 1048576
def CIS_SUMP_STATUS.PAGES_LIVE (n : Nat) : Fld := ⟨CIS_SUMP_STATUS.w n, 0, 21⟩
/-- `CIS_SUMP_USED`, Table CS-10: word offset in BAR0 (index tables of file 22). -/
def CIS_SUMP_USED.w (n : Nat) : Nat := 4718614 + n * 1048576
def CIS_SUMP_USED.PAGES_USED (n : Nat) : Fld := ⟨CIS_SUMP_USED.w n, 0, 21⟩
/-- `CIS_SUMP_QUEUES`, Table CS-10: word offset in BAR0 (index tables of file 22). -/
def CIS_SUMP_QUEUES.w (n : Nat) : Nat := 4718615 + n * 1048576
def CIS_SUMP_QUEUES.SPILLING (n : Nat) : Fld := ⟨CIS_SUMP_QUEUES.w n, 0, 14⟩
/-- `CIS_ERR`, Table CS-11: word offset in BAR0 (index tables of file 22). -/
def CIS_ERR.w (n : Nat) : Nat := 4718616 + n * 1048576
def CIS_ERR.DATA_PARITY (n : Nat) : Fld := ⟨CIS_ERR.w n, 0, 1⟩
def CIS_ERR.STATE_PARITY (n : Nat) : Fld := ⟨CIS_ERR.w n, 1, 1⟩
def CIS_ERR.FREE_VIOL (n : Nat) : Fld := ⟨CIS_ERR.w n, 2, 1⟩
def CIS_ERR.SUMP_EXHAUST (n : Nat) : Fld := ⟨CIS_ERR.w n, 3, 1⟩
def CIS_ERR.CFG_IGNORED (n : Nat) : Fld := ⟨CIS_ERR.w n, 4, 1⟩
def CIS_ERR.CFG_REJECT (n : Nat) : Fld := ⟨CIS_ERR.w n, 5, 1⟩
def CIS_ERR.MC_LIMIT (n : Nat) : Fld := ⟨CIS_ERR.w n, 6, 1⟩
def CIS_ERR.SUMP_LOST (n : Nat) : Fld := ⟨CIS_ERR.w n, 7, 1⟩
/-- `CIS_ERR_LOC`, Table CS-11: word offset in BAR0 (index tables of file 22). -/
def CIS_ERR_LOC.w (n : Nat) : Nat := 4718617 + n * 1048576
def CIS_ERR_LOC.HANDLE (n : Nat) : Fld := ⟨CIS_ERR_LOC.w n, 0, 18⟩
/-- `CIS_CNT`, Table CS-12: word offset in BAR0 (index tables of file 22). -/
def CIS_CNT.w (n c : Nat) : Nat := 4718624 + n * 1048576 + c * 2
def CIS_CNT.COUNT (n c : Nat) : Fld := ⟨CIS_CNT.w n c, 0, 48⟩
/-- `CIS_FREE_LOG_CTRL`, Table CS-13: word offset in BAR0 (index tables of file 22). -/
def CIS_FREE_LOG_CTRL.w (n : Nat) : Nat := 4718652 + n * 1048576
def CIS_FREE_LOG_CTRL.VALID (n : Nat) : Fld := ⟨CIS_FREE_LOG_CTRL.w n, 0, 5⟩
def CIS_FREE_LOG_CTRL.OVERWRITTEN (n : Nat) : Fld := ⟨CIS_FREE_LOG_CTRL.w n, 8, 8⟩
def CIS_FREE_LOG_CTRL.CLEAR (n : Nat) : Fld := ⟨CIS_FREE_LOG_CTRL.w n, 16, 1⟩
/-- `CIS_FREE_LOG`, Table CS-13: word offset in BAR0 (index tables of file 22). -/
def CIS_FREE_LOG.w (n i : Nat) : Nat := 4718656 + n * 1048576 + i * 2
def CIS_FREE_LOG.HANDLE (n i : Nat) : Fld := ⟨CIS_FREE_LOG.w n i, 0, 18⟩
def CIS_FREE_LOG.REQUESTER (n i : Nat) : Fld := ⟨CIS_FREE_LOG.w n i, 18, 4⟩
def CIS_FREE_LOG.REASON (n i : Nat) : Fld := ⟨CIS_FREE_LOG.w n i, 22, 1⟩
def CIS_FREE_LOG.STROKE (n i : Nat) : Fld := ⟨CIS_FREE_LOG.w n i, 32, 32⟩
/-- `CIS_MIR`, Table CS-14: word offset in BAR0 (index tables of file 22). -/
def CIS_MIR.w (n s : Nat) : Nat := 4718720 + n * 1048576 + s * 2
def CIS_MIR.PORT (n s : Nat) : Fld := ⟨CIS_MIR.w n s, 0, 10⟩
def CIS_MIR.CLASS (n s : Nat) : Fld := ⟨CIS_MIR.w n s, 10, 4⟩
def CIS_MIR.TRUNC (n s : Nat) : Fld := ⟨CIS_MIR.w n s, 14, 10⟩
def CIS_MIR.EN (n s : Nat) : Fld := ⟨CIS_MIR.w n s, 24, 1⟩
def CIS_MIR.N (n s : Nat) : Fld := ⟨CIS_MIR.w n s, 32, 24⟩
/-- `CIS_RED_SEED`, Table CS-14: word offset in BAR0 (index tables of file 22). -/
def CIS_RED_SEED.w (n : Nat) : Nat := 4718736 + n * 1048576
def CIS_RED_SEED.SEED (n : Nat) : Fld := ⟨CIS_RED_SEED.w n, 0, 32⟩
/-- `CIS_MC_CFG`, Table CS-14: word offset in BAR0 (index tables of file 22). -/
def CIS_MC_CFG.w (n : Nat) : Nat := 4718737 + n * 1048576
def CIS_MC_CFG.MAX_COPIES (n : Nat) : Fld := ⟨CIS_MC_CFG.w n, 0, 11⟩
/-- `CIS_IN_VALVE`, Table CS-15: word offset in BAR0 (index tables of file 22). -/
def CIS_IN_VALVE.w (n p : Nat) : Nat := 4719616 + n * 1048576 + p * 4
def CIS_IN_VALVE.PORT_LIMIT (n p : Nat) : Fld := ⟨CIS_IN_VALVE.w n p, 0, 16⟩
def CIS_IN_VALVE.PAUSE_ON (n p : Nat) : Fld := ⟨CIS_IN_VALVE.w n p, 32, 16⟩
def CIS_IN_VALVE.PAUSE_OFF (n p : Nat) : Fld := ⟨CIS_IN_VALVE.w n p, 48, 16⟩
def CIS_IN_VALVE.PRI_MAP (n p x : Nat) : Fld := ⟨CIS_IN_VALVE.w n p, 64 + x * 4, 4⟩
def CIS_IN_VALVE.DEFAULT_PCP (n p : Nat) : Fld := ⟨CIS_IN_VALVE.w n p, 96, 3⟩
def CIS_IN_VALVE.UNITS (n p : Nat) : Fld := ⟨CIS_IN_VALVE.w n p, 112, 16⟩
/-- `CIS_PFC_VALVE`, Table CS-15: word offset in BAR0 (index tables of file 22). -/
def CIS_PFC_VALVE.w (n q : Nat) : Nat := 4720640 + n * 1048576 + q * 1
def CIS_PFC_VALVE.ON (n q : Nat) : Fld := ⟨CIS_PFC_VALVE.w n q, 0, 16⟩
def CIS_PFC_VALVE.OFF (n q : Nat) : Fld := ⟨CIS_PFC_VALVE.w n q, 16, 16⟩
/-- `CIS_EQ_VALVE`, Table CS-16: word offset in BAR0 (index tables of file 22). -/
def CIS_EQ_VALVE.w (n q : Nat) : Nat := 4722688 + n * 1048576 + q * 2
def CIS_EQ_VALVE.HOLD_ON (n q : Nat) : Fld := ⟨CIS_EQ_VALVE.w n q, 0, 17⟩
def CIS_EQ_VALVE.HOLD_OFF (n q : Nat) : Fld := ⟨CIS_EQ_VALVE.w n q, 17, 17⟩
def CIS_EQ_VALVE.DROP (n q : Nat) : Fld := ⟨CIS_EQ_VALVE.w n q, 34, 16⟩
/-- `CIS_RED_MAP`, Table CS-16: word offset in BAR0 (index tables of file 22). -/
def CIS_RED_MAP.w (n q : Nat) : Nat := 4725760 + n * 1048576 + q * 1
def CIS_RED_MAP.GREEN (n q : Nat) : Fld := ⟨CIS_RED_MAP.w n q, 0, 5⟩
def CIS_RED_MAP.YELLOW (n q : Nat) : Fld := ⟨CIS_RED_MAP.w n q, 5, 5⟩
def CIS_RED_MAP.RED (n q : Nat) : Fld := ⟨CIS_RED_MAP.w n q, 10, 5⟩
def CIS_RED_MAP.EN (n q : Nat) : Fld := ⟨CIS_RED_MAP.w n q, 15, 1⟩
def CIS_RED_MAP.WEIGHT (n q : Nat) : Fld := ⟨CIS_RED_MAP.w n q, 16, 4⟩
/-- `CIS_RED_PROF`, Table CS-16: word offset in BAR0 (index tables of file 22). -/
def CIS_RED_PROF.w (n i : Nat) : Nat := 4727808 + n * 1048576 + i * 2
def CIS_RED_PROF.MIN (n i : Nat) : Fld := ⟨CIS_RED_PROF.w n i, 0, 16⟩
def CIS_RED_PROF.MAX (n i : Nat) : Fld := ⟨CIS_RED_PROF.w n i, 16, 16⟩
def CIS_RED_PROF.MAXP (n i : Nat) : Fld := ⟨CIS_RED_PROF.w n i, 32, 9⟩
def CIS_RED_PROF.ECN (n i : Nat) : Fld := ⟨CIS_RED_PROF.w n i, 41, 1⟩
/-- `CIS_MC_GROUP`, Table CS-17: word offset in BAR0 (index tables of file 22). -/
def CIS_MC_GROUP.w (n b g : Nat) : Nat := 4734976 + n * 1048576 + b * 16384 + g * 1
def CIS_MC_GROUP.REGIONS (n b g : Nat) : Fld := ⟨CIS_MC_GROUP.w n b g, 0, 8⟩
def CIS_MC_GROUP.HEAD (n b g : Nat) : Fld := ⟨CIS_MC_GROUP.w n b g, 8, 15⟩
def CIS_MC_GROUP.HEAD_VALID (n b g : Nat) : Fld := ⟨CIS_MC_GROUP.w n b g, 23, 1⟩
def CIS_MC_GROUP.SRC_PRUNE (n b g : Nat) : Fld := ⟨CIS_MC_GROUP.w n b g, 24, 1⟩
/-- `CIS_MC_NODE`, Table CS-17: word offset in BAR0 (index tables of file 22). -/
def CIS_MC_NODE.w (n i : Nat) : Nat := 4784128 + n * 1048576 + i * 2
def CIS_MC_NODE.PORT (n i : Nat) : Fld := ⟨CIS_MC_NODE.w n i, 0, 10⟩
def CIS_MC_NODE.VID (n i : Nat) : Fld := ⟨CIS_MC_NODE.w n i, 10, 12⟩
def CIS_MC_NODE.VID_EN (n i : Nat) : Fld := ⟨CIS_MC_NODE.w n i, 22, 1⟩
def CIS_MC_NODE.NEXT (n i : Nat) : Fld := ⟨CIS_MC_NODE.w n i, 24, 15⟩
def CIS_MC_NODE.LAST (n i : Nat) : Fld := ⟨CIS_MC_NODE.w n i, 39, 1⟩
/-- `TM_CFG`, Table TM-4: word offset in BAR0 (index tables of file 22). -/
def TM_CFG.w (n : Nat) : Nat := 4849664 + n * 1048576
def TM_CFG.PRECOL_SRC (n : Nat) : Fld := ⟨TM_CFG.w n, 0, 1⟩
def TM_CFG.PRECOL_SLOT (n : Nat) : Fld := ⟨TM_CFG.w n, 1, 3⟩
def TM_CFG.DIP_EN (n : Nat) : Fld := ⟨TM_CFG.w n, 4, 1⟩
/-- `TM_STATUS`, Table TM-4: word offset in BAR0 (index tables of file 22). -/
def TM_STATUS.w (n : Nat) : Nat := 4849665 + n * 1048576
def TM_STATUS.METER_OPEN (n : Nat) : Fld := ⟨TM_STATUS.w n, 0, 13⟩
def TM_STATUS.METER_QUEUED (n : Nat) : Fld := ⟨TM_STATUS.w n, 16, 16⟩
/-- `TM_ERR`, Table TM-4: word offset in BAR0 (index tables of file 22). -/
def TM_ERR.w (n : Nat) : Nat := 4849666 + n * 1048576
def TM_ERR.POL_PARITY (n : Nat) : Fld := ⟨TM_ERR.w n, 0, 1⟩
def TM_ERR.POL_PARITY_FAIL (n : Nat) : Fld := ⟨TM_ERR.w n, 1, 1⟩
def TM_ERR.SCHED_PARITY (n : Nat) : Fld := ⟨TM_ERR.w n, 2, 1⟩
def TM_ERR.GATE_PARITY (n : Nat) : Fld := ⟨TM_ERR.w n, 3, 1⟩
def TM_ERR.STATE_PARITY (n : Nat) : Fld := ⟨TM_ERR.w n, 4, 1⟩
def TM_ERR.CFG_IGNORED (n : Nat) : Fld := ⟨TM_ERR.w n, 5, 1⟩
def TM_ERR.SLOT_PARITY (n : Nat) : Fld := ⟨TM_ERR.w n, 6, 1⟩
/-- `TM_ERR_LOC`, Table TM-4: word offset in BAR0 (index tables of file 22). -/
def TM_ERR_LOC.w (n : Nat) : Nat := 4849667 + n * 1048576
def TM_ERR_LOC.INDEX (n : Nat) : Fld := ⟨TM_ERR_LOC.w n, 0, 16⟩
def TM_ERR_LOC.KIND (n : Nat) : Fld := ⟨TM_ERR_LOC.w n, 16, 2⟩
/-- `TM_POL_SCHED_IDX`, Table TM-5: word offset in BAR0 (index tables of file 22). -/
def TM_POL_SCHED_IDX.w (n : Nat) : Nat := 4849668 + n * 1048576
def TM_POL_SCHED_IDX.INDEX (n : Nat) : Fld := ⟨TM_POL_SCHED_IDX.w n, 0, 16⟩
def TM_POL_SCHED_IDX.PROFILE (n : Nat) : Fld := ⟨TM_POL_SCHED_IDX.w n, 16, 10⟩
def TM_POL_SCHED_IDX.EN (n : Nat) : Fld := ⟨TM_POL_SCHED_IDX.w n, 26, 1⟩
/-- `TM_POL_SCHED_CTRL`, Table TM-5: word offset in BAR0 (index tables of file 22). -/
def TM_POL_SCHED_CTRL.w (n : Nat) : Nat := 4849669 + n * 1048576
def TM_POL_SCHED_CTRL.PUSH (n : Nat) : Fld := ⟨TM_POL_SCHED_CTRL.w n, 0, 1⟩
/-- `TM_POL_SCHED_STROKE`, Table TM-5: word offset in BAR0 (index tables of file 22). -/
def TM_POL_SCHED_STROKE.w (n : Nat) : Nat := 4849670 + n * 1048576
def TM_POL_SCHED_STROKE.STROKE (n : Nat) : Fld := ⟨TM_POL_SCHED_STROKE.w n, 0, 48⟩
/-- `TM_POL_SCHED_STATUS`, Table TM-5: word offset in BAR0 (index tables of file 22). -/
def TM_POL_SCHED_STATUS.w (n : Nat) : Nat := 4849672 + n * 1048576
def TM_POL_SCHED_STATUS.QUEUED (n : Nat) : Fld := ⟨TM_POL_SCHED_STATUS.w n, 0, 7⟩
def TM_POL_SCHED_STATUS.LAST_RESULT (n : Nat) : Fld := ⟨TM_POL_SCHED_STATUS.w n, 7, 2⟩
/-- `TM_POL_PEEK_IDX`, Table TM-5: word offset in BAR0 (index tables of file 22). -/
def TM_POL_PEEK_IDX.w (n : Nat) : Nat := 4849676 + n * 1048576
def TM_POL_PEEK_IDX.INDEX (n : Nat) : Fld := ⟨TM_POL_PEEK_IDX.w n, 0, 16⟩
/-- `TM_POL_PEEK_TC`, Table TM-5: word offset in BAR0 (index tables of file 22). -/
def TM_POL_PEEK_TC.w (n : Nat) : Nat := 4849677 + n * 1048576
def TM_POL_PEEK_TC.BYTES (n : Nat) : Fld := ⟨TM_POL_PEEK_TC.w n, 0, 32⟩
/-- `TM_POL_PEEK_TE`, Table TM-5: word offset in BAR0 (index tables of file 22). -/
def TM_POL_PEEK_TE.w (n : Nat) : Nat := 4849678 + n * 1048576
def TM_POL_PEEK_TE.BYTES (n : Nat) : Fld := ⟨TM_POL_PEEK_TE.w n, 0, 32⟩
/-- `TM_POL_PEEK_LAST`, Table TM-5: word offset in BAR0 (index tables of file 22). -/
def TM_POL_PEEK_LAST.w (n : Nat) : Nat := 4849679 + n * 1048576
def TM_POL_PEEK_LAST.TIME (n : Nat) : Fld := ⟨TM_POL_PEEK_LAST.w n, 0, 32⟩
/-- `TM_PRECOL_MAP`, Table TM-6: word offset in BAR0 (index tables of file 22). -/
def TM_PRECOL_MAP.w (n j : Nat) : Nat := 4849680 + n * 1048576 + j * 1
def TM_PRECOL_MAP.COLOUR (n j x : Nat) : Fld := ⟨TM_PRECOL_MAP.w n j, 0 + x * 2, 2⟩
/-- `TM_CNT`, Table TM-6: word offset in BAR0 (index tables of file 22). -/
def TM_CNT.w (n c : Nat) : Nat := 4849696 + n * 1048576 + c * 2
def TM_CNT.COUNT (n c : Nat) : Fld := ⟨TM_CNT.w n c, 0, 48⟩
/-- `TM_PORT`, Table TM-7: word offset in BAR0 (index tables of file 22). -/
def TM_PORT.w (n p : Nat) : Nat := 4850688 + n * 1048576 + p * 8
def TM_PORT.OVERHEAD (n p : Nat) : Fld := ⟨TM_PORT.w n p, 0, 6⟩
def TM_PORT.GATE_EN (n p : Nat) : Fld := ⟨TM_PORT.w n p, 6, 1⟩
def TM_PORT.RATE (n p : Nat) : Fld := ⟨TM_PORT.w n p, 32, 32⟩
def TM_PORT.BURST (n p : Nat) : Fld := ⟨TM_PORT.w n p, 64, 24⟩
def TM_PORT.BACKLOG (n p : Nat) : Fld := ⟨TM_PORT.w n p, 96, 16⟩
def TM_PORT.URGENT (n p : Nat) : Fld := ⟨TM_PORT.w n p, 112, 16⟩
/-- `TM_GROUP`, Table TM-7: word offset in BAR0 (index tables of file 22). -/
def TM_GROUP.w (n p g : Nat) : Nat := 4851712 + n * 1048576 + p * 32 + g * 4
def TM_GROUP.WEIGHT (n p g : Nat) : Fld := ⟨TM_GROUP.w n p g, 0, 10⟩
def TM_GROUP.RATE (n p g : Nat) : Fld := ⟨TM_GROUP.w n p g, 32, 32⟩
def TM_GROUP.BURST (n p g : Nat) : Fld := ⟨TM_GROUP.w n p g, 64, 24⟩
/-- `TM_CLASS`, Table TM-7: word offset in BAR0 (index tables of file 22). -/
def TM_CLASS.w (n q : Nat) : Nat := 4857856 + n * 1048576 + q * 4
def TM_CLASS.GROUP (n q : Nat) : Fld := ⟨TM_CLASS.w n q, 0, 3⟩
def TM_CLASS.STRICT (n q : Nat) : Fld := ⟨TM_CLASS.w n q, 3, 1⟩
def TM_CLASS.WEIGHT (n q : Nat) : Fld := ⟨TM_CLASS.w n q, 4, 10⟩
def TM_CLASS.STARVE_US (n q : Nat) : Fld := ⟨TM_CLASS.w n q, 14, 16⟩
def TM_CLASS.RATE (n q : Nat) : Fld := ⟨TM_CLASS.w n q, 32, 32⟩
def TM_CLASS.BURST (n q : Nat) : Fld := ⟨TM_CLASS.w n q, 64, 24⟩
def TM_CLASS.DEPTH (n q : Nat) : Fld := ⟨TM_CLASS.w n q, 96, 17⟩
def TM_CLASS.PROMOTED (n q : Nat) : Fld := ⟨TM_CLASS.w n q, 113, 1⟩
/-- `TM_GATE_CTRL`, Table TM-8: word offset in BAR0 (index tables of file 22). -/
def TM_GATE_CTRL.w (n p : Nat) : Nat := 4862976 + n * 1048576 + p * 8
def TM_GATE_CTRL.ADMIN_LEN (n p : Nat) : Fld := ⟨TM_GATE_CTRL.w n p, 0, 9⟩
def TM_GATE_CTRL.UNIT (n p : Nat) : Fld := ⟨TM_GATE_CTRL.w n p, 9, 2⟩
def TM_GATE_CTRL.SWITCH (n p : Nat) : Fld := ⟨TM_GATE_CTRL.w n p, 11, 1⟩
def TM_GATE_CTRL.ACTIVE (n p : Nat) : Fld := ⟨TM_GATE_CTRL.w n p, 12, 1⟩
def TM_GATE_CTRL.PENDING (n p : Nat) : Fld := ⟨TM_GATE_CTRL.w n p, 13, 1⟩
def TM_GATE_CTRL.ACT_UNIT (n p : Nat) : Fld := ⟨TM_GATE_CTRL.w n p, 14, 2⟩
def TM_GATE_CTRL.ACT_LEN (n p : Nat) : Fld := ⟨TM_GATE_CTRL.w n p, 16, 9⟩
def TM_GATE_CTRL.CYCLE_NS (n p : Nat) : Fld := ⟨TM_GATE_CTRL.w n p, 32, 32⟩
def TM_GATE_CTRL.BASE (n p : Nat) : Fld := ⟨TM_GATE_CTRL.w n p, 64, 64⟩
def TM_GATE_CTRL.ACT_CYCLE_NS (n p : Nat) : Fld := ⟨TM_GATE_CTRL.w n p, 128, 32⟩
/-- `TM_GATE_LIST`, Table TM-8: word offset in BAR0 (index tables of file 22). -/
def TM_GATE_LIST.w (n p b i : Nat) : Nat := 4874240 + n * 1048576 + p * 512 + b * 256 + i * 1
def TM_GATE_LIST.GATES (n p b i : Nat) : Fld := ⟨TM_GATE_LIST.w n p b i, 0, 16⟩
def TM_GATE_LIST.INTERVAL (n p b i : Nat) : Fld := ⟨TM_GATE_LIST.w n p b i, 16, 16⟩
/-- `TM_DIP_SEL`, Table TM-9: word offset in BAR0 (index tables of file 22). -/
def TM_DIP_SEL.w (n : Nat) : Nat := 4864000 + n * 1048576
def TM_DIP_SEL.QUEUE (n : Nat) : Fld := ⟨TM_DIP_SEL.w n, 0, 11⟩
def TM_DIP_SEL.CLEAR (n : Nat) : Fld := ⟨TM_DIP_SEL.w n, 11, 1⟩
def TM_DIP_SEL.READY (n : Nat) : Fld := ⟨TM_DIP_SEL.w n, 12, 1⟩
/-- `TM_DIP_MAX`, Table TM-9: word offset in BAR0 (index tables of file 22). -/
def TM_DIP_MAX.w (n : Nat) : Nat := 4864001 + n * 1048576
def TM_DIP_MAX.DEPTH (n : Nat) : Fld := ⟨TM_DIP_MAX.w n, 0, 17⟩
/-- `TM_DIP_MAX_DELAY`, Table TM-9: word offset in BAR0 (index tables of file 22). -/
def TM_DIP_MAX_DELAY.w (n : Nat) : Nat := 4864002 + n * 1048576
def TM_DIP_MAX_DELAY.NS (n : Nat) : Fld := ⟨TM_DIP_MAX_DELAY.w n, 0, 32⟩
/-- `TM_DIP_BIN`, Table TM-9: word offset in BAR0 (index tables of file 22). -/
def TM_DIP_BIN.w (n i : Nat) : Nat := 4864064 + n * 1048576 + i * 1
def TM_DIP_BIN.COUNT (n i : Nat) : Fld := ⟨TM_DIP_BIN.w n i, 0, 32⟩
/-- `TM_POL_PROF`, Table TM-10: word offset in BAR0 (index tables of file 22). -/
def TM_POL_PROF.w (n k : Nat) : Nat := 4866048 + n * 1048576 + k * 8
def TM_POL_PROF.CIR (n k : Nat) : Fld := ⟨TM_POL_PROF.w n k, 0, 32⟩
def TM_POL_PROF.CBS (n k : Nat) : Fld := ⟨TM_POL_PROF.w n k, 32, 24⟩
def TM_POL_PROF.PIR (n k : Nat) : Fld := ⟨TM_POL_PROF.w n k, 64, 32⟩
def TM_POL_PROF.EPBS (n k : Nat) : Fld := ⟨TM_POL_PROF.w n k, 96, 24⟩
def TM_POL_PROF.MODE (n k : Nat) : Fld := ⟨TM_POL_PROF.w n k, 128, 1⟩
def TM_POL_PROF.AWARE (n k : Nat) : Fld := ⟨TM_POL_PROF.w n k, 129, 1⟩
def TM_POL_PROF.DROP_RED (n k : Nat) : Fld := ⟨TM_POL_PROF.w n k, 130, 1⟩
def TM_POL_PROF.OVERHEAD (n k : Nat) : Fld := ⟨TM_POL_PROF.w n k, 131, 6⟩
/-- `TM_POL`, Table TM-10: word offset in BAR0 (index tables of file 22). -/
def TM_POL.w (n i : Nat) : Nat := 4915200 + n * 1048576 + i * 1
def TM_POL.PROFILE (n i : Nat) : Fld := ⟨TM_POL.w n i, 0, 10⟩
def TM_POL.EN (n i : Nat) : Fld := ⟨TM_POL.w n i, 10, 1⟩
/-- `LANE_TIMER_CFG`, Table SL-9: word offset in BAR0 (index tables of file 22). -/
def LANE_TIMER_CFG.w (g : Nat) : Nat := laneBase g + 0
def LANE_TIMER_CFG.HOLD_DOWN_MS (g : Nat) : Fld := ⟨LANE_TIMER_CFG.w g, 0, 16⟩
def LANE_TIMER_CFG.MAX_HOLDS (g : Nat) : Fld := ⟨LANE_TIMER_CFG.w g, 16, 4⟩
def LANE_TIMER_CFG.FLAP_LIMIT (g : Nat) : Fld := ⟨LANE_TIMER_CFG.w g, 20, 4⟩
/-- `LANE_TIMER_CFG2`, Table SL-9: word offset in BAR0 (index tables of file 22). -/
def LANE_TIMER_CFG2.w (g : Nat) : Nat := laneBase g + 1
def LANE_TIMER_CFG2.AN_TIMEOUT_MS (g : Nat) : Fld := ⟨LANE_TIMER_CFG2.w g, 0, 10⟩
def LANE_TIMER_CFG2.TRAIN_TIMEOUT_MS (g : Nat) : Fld := ⟨LANE_TIMER_CFG2.w g, 10, 14⟩
/-- `LANE_FLAP_CFG`, Table SL-9: word offset in BAR0 (index tables of file 22). -/
def LANE_FLAP_CFG.w (g : Nat) : Nat := laneBase g + 2
def LANE_FLAP_CFG.DOWN_DEBOUNCE_US (g : Nat) : Fld := ⟨LANE_FLAP_CFG.w g, 0, 10⟩
def LANE_FLAP_CFG.FLAP_WINDOW_MS (g : Nat) : Fld := ⟨LANE_FLAP_CFG.w g, 10, 16⟩
/-- `LANE_QUIET_CFG`, Table SL-9: word offset in BAR0 (index tables of file 22). -/
def LANE_QUIET_CFG.w (g : Nat) : Nat := laneBase g + 3
def LANE_QUIET_CFG.ENTER_US (g : Nat) : Fld := ⟨LANE_QUIET_CFG.w g, 0, 10⟩
/-- `LANE_ERR`, Table SL-9: word offset in BAR0 (index tables of file 22). -/
def LANE_ERR.w (g : Nat) : Nat := laneBase g + 4
def LANE_ERR.PARITY (g : Nat) : Fld := ⟨LANE_ERR.w g, 0, 1⟩
def LANE_ERR.CFG_IGNORED (g : Nat) : Fld := ⟨LANE_ERR.w g, 1, 1⟩
def LANE_ERR.PRBS_REJECT (g : Nat) : Fld := ⟨LANE_ERR.w g, 2, 1⟩
/-- `LANE_CFG`, Table SL-10: word offset in BAR0 (index tables of file 22). -/
def LANE_CFG.w (g l : Nat) : Nat := laneBase g + 1024 + l * 256
def LANE_CFG.AN_EN (g l : Nat) : Fld := ⟨LANE_CFG.w g l, 0, 1⟩
def LANE_CFG.TRAIN_EN (g l : Nat) : Fld := ⟨LANE_CFG.w g l, 1, 1⟩
def LANE_CFG.REFORM_EN (g l : Nat) : Fld := ⟨LANE_CFG.w g l, 2, 1⟩
def LANE_CFG.QUIET_EN (g l : Nat) : Fld := ⟨LANE_CFG.w g l, 3, 1⟩
def LANE_CFG.PAUSE_ADV (g l : Nat) : Fld := ⟨LANE_CFG.w g l, 4, 2⟩
def LANE_CFG.RX_INVERT (g l : Nat) : Fld := ⟨LANE_CFG.w g l, 6, 1⟩
def LANE_CFG.TX_INVERT (g l : Nat) : Fld := ⟨LANE_CFG.w g l, 7, 1⟩
def LANE_CFG.LOOPBACK (g l : Nat) : Fld := ⟨LANE_CFG.w g l, 8, 2⟩
def LANE_CFG.BER_EXP (g l : Nat) : Fld := ⟨LANE_CFG.w g l, 10, 4⟩
/-- `LANE_CTRL`, Table SL-11: word offset in BAR0 (index tables of file 22). -/
def LANE_CTRL.w (g l : Nat) : Nat := laneBase g + 1025 + l * 256
def LANE_CTRL.RESTART (g l : Nat) : Fld := ⟨LANE_CTRL.w g l, 0, 1⟩
def LANE_CTRL.CLEAR_FAIL (g l : Nat) : Fld := ⟨LANE_CTRL.w g l, 1, 1⟩
def LANE_CTRL.PRBS_CLEAR (g l : Nat) : Fld := ⟨LANE_CTRL.w g l, 2, 1⟩
def LANE_CTRL.INJECT (g l : Nat) : Fld := ⟨LANE_CTRL.w g l, 3, 1⟩
/-- `LANE_STATUS`, Table SL-12: word offset in BAR0 (index tables of file 22). -/
def LANE_STATUS.w (g l : Nat) : Nat := laneBase g + 1026 + l * 256
def LANE_STATUS.STATE (g l : Nat) : Fld := ⟨LANE_STATUS.w g l, 0, 3⟩
def LANE_STATUS.FAILED (g l : Nat) : Fld := ⟨LANE_STATUS.w g l, 3, 1⟩
def LANE_STATUS.SIGNAL (g l : Nat) : Fld := ⟨LANE_STATUS.w g l, 4, 1⟩
def LANE_STATUS.CDR_LOCK (g l : Nat) : Fld := ⟨LANE_STATUS.w g l, 5, 1⟩
def LANE_STATUS.TRAINED (g l : Nat) : Fld := ⟨LANE_STATUS.w g l, 6, 1⟩
def LANE_STATUS.ATTEMPTS (g l : Nat) : Fld := ⟨LANE_STATUS.w g l, 8, 2⟩
def LANE_STATUS.HOLDS (g l : Nat) : Fld := ⟨LANE_STATUS.w g l, 10, 4⟩
def LANE_STATUS.LAST_CODE (g l : Nat) : Fld := ⟨LANE_STATUS.w g l, 16, 8⟩
/-- `LANE_PORT_STATUS`, Table SL-12: word offset in BAR0 (index tables of file 22). -/
def LANE_PORT_STATUS.w (g l : Nat) : Nat := laneBase g + 1027 + l * 256
def LANE_PORT_STATUS.ACT_WIDTH (g l : Nat) : Fld := ⟨LANE_PORT_STATUS.w g l, 0, 3⟩
def LANE_PORT_STATUS.ACT_SPEED (g l : Nat) : Fld := ⟨LANE_PORT_STATUS.w g l, 3, 3⟩
def LANE_PORT_STATUS.ACT_FEC (g l : Nat) : Fld := ⟨LANE_PORT_STATUS.w g l, 6, 2⟩
def LANE_PORT_STATUS.REFORMED (g l : Nat) : Fld := ⟨LANE_PORT_STATUS.w g l, 8, 1⟩
def LANE_PORT_STATUS.QUIET_AGREED (g l : Nat) : Fld := ⟨LANE_PORT_STATUS.w g l, 9, 1⟩
def LANE_PORT_STATUS.PARTNER_PAUSE (g l : Nat) : Fld := ⟨LANE_PORT_STATUS.w g l, 10, 2⟩
def LANE_PORT_STATUS.TX_QUIET (g l : Nat) : Fld := ⟨LANE_PORT_STATUS.w g l, 12, 1⟩
def LANE_PORT_STATUS.RX_QUIET (g l : Nat) : Fld := ⟨LANE_PORT_STATUS.w g l, 13, 1⟩
/-- `LANE_TX_TAPS`, Table SL-13: word offset in BAR0 (index tables of file 22). -/
def LANE_TX_TAPS.w (g l : Nat) : Nat := laneBase g + 1028 + l * 256
def LANE_TX_TAPS.C_M3 (g l : Nat) : Fld := ⟨LANE_TX_TAPS.w g l, 0, 6⟩
def LANE_TX_TAPS.C_M2 (g l : Nat) : Fld := ⟨LANE_TX_TAPS.w g l, 6, 6⟩
def LANE_TX_TAPS.C_M1 (g l : Nat) : Fld := ⟨LANE_TX_TAPS.w g l, 12, 6⟩
def LANE_TX_TAPS.C_0 (g l : Nat) : Fld := ⟨LANE_TX_TAPS.w g l, 18, 6⟩
def LANE_TX_TAPS.C_P1 (g l : Nat) : Fld := ⟨LANE_TX_TAPS.w g l, 24, 6⟩
/-- `LANE_TX_TAPS_NOW`, Table SL-13: word offset in BAR0 (index tables of file 22). -/
def LANE_TX_TAPS_NOW.w (g l : Nat) : Nat := laneBase g + 1029 + l * 256
def LANE_TX_TAPS_NOW.C_M3 (g l : Nat) : Fld := ⟨LANE_TX_TAPS_NOW.w g l, 0, 6⟩
def LANE_TX_TAPS_NOW.C_M2 (g l : Nat) : Fld := ⟨LANE_TX_TAPS_NOW.w g l, 6, 6⟩
def LANE_TX_TAPS_NOW.C_M1 (g l : Nat) : Fld := ⟨LANE_TX_TAPS_NOW.w g l, 12, 6⟩
def LANE_TX_TAPS_NOW.C_0 (g l : Nat) : Fld := ⟨LANE_TX_TAPS_NOW.w g l, 18, 6⟩
def LANE_TX_TAPS_NOW.C_P1 (g l : Nat) : Fld := ⟨LANE_TX_TAPS_NOW.w g l, 24, 6⟩
/-- `LANE_PRBS_CFG`, Table SL-14: word offset in BAR0 (index tables of file 22). -/
def LANE_PRBS_CFG.w (g l : Nat) : Nat := laneBase g + 1030 + l * 256
def LANE_PRBS_CFG.GEN_PAT (g l : Nat) : Fld := ⟨LANE_PRBS_CFG.w g l, 0, 3⟩
def LANE_PRBS_CFG.GEN_EN (g l : Nat) : Fld := ⟨LANE_PRBS_CFG.w g l, 3, 1⟩
def LANE_PRBS_CFG.CHK_PAT (g l : Nat) : Fld := ⟨LANE_PRBS_CFG.w g l, 4, 3⟩
def LANE_PRBS_CFG.CHK_EN (g l : Nat) : Fld := ⟨LANE_PRBS_CFG.w g l, 7, 1⟩
def LANE_PRBS_CFG.INJECT_RATE (g l : Nat) : Fld := ⟨LANE_PRBS_CFG.w g l, 8, 5⟩
/-- `LANE_PRBS_STATUS`, Table SL-14: word offset in BAR0 (index tables of file 22). -/
def LANE_PRBS_STATUS.w (g l : Nat) : Nat := laneBase g + 1031 + l * 256
def LANE_PRBS_STATUS.LOCK (g l : Nat) : Fld := ⟨LANE_PRBS_STATUS.w g l, 0, 1⟩
def LANE_PRBS_STATUS.LOCK_LOSS (g l : Nat) : Fld := ⟨LANE_PRBS_STATUS.w g l, 8, 8⟩
/-- `LANE_PRBS_ERRS`, Table SL-14: word offset in BAR0 (index tables of file 22). -/
def LANE_PRBS_ERRS.w (g l : Nat) : Nat := laneBase g + 1032 + l * 256
def LANE_PRBS_ERRS.ERRS (g l : Nat) : Fld := ⟨LANE_PRBS_ERRS.w g l, 0, 48⟩
/-- `LANE_PRBS_BITS`, Table SL-14: word offset in BAR0 (index tables of file 22). -/
def LANE_PRBS_BITS.w (g l : Nat) : Nat := laneBase g + 1034 + l * 256
def LANE_PRBS_BITS.BITS (g l : Nat) : Fld := ⟨LANE_PRBS_BITS.w g l, 0, 48⟩

end Sys2Proof.Machine
end

