-- ==== Sys2Proof/Machine/RegTable.lean ====
section
/-! DEFINITION. The register descriptors of BAR0 (R659, R660, Tables RI-3 to RI-13): address, repetition, reset value and
field types (R12) of every register, one row each; R10 marks the 64-bit values. -/

namespace Sys2Proof.Machine

/-- Register descriptors, part 0. -/
def regRows0 : List RegDesc := [
  -- CHIP_ID
  { base := 0, rst := 0x91004021 },
  -- CHIP_STRAP
  { base := 1 },
  -- CHIP_STATE
  { base := 2, rst := 0x2 },
  -- CHIP_STATE_CTRL
  { base := 3, id := .chipStateCtrl },
  -- CHIP_RESET_CTRL
  { base := 4, id := .chipResetCtrl },
  -- CHIP_PRIME_STATUS
  { base := 5 },
  -- CHIP_RUN_STROKE
  { base := 6, nw := 2, wide := true, rw := 0xFFFFFFFFFFFF },
  -- CHIP_QUIESCE_STROKE
  { base := 8, nw := 2, wide := true, rw := 0xFFFFFFFFFFFF },
  -- CHIP_STROKE_CFG
  { base := 16, rst := 0x4080801, rw := 0x3F03, cfg := 0x3F03, fixes := [⟨8, 6, 0, 1, 2⟩], id := .chipStrokeCfg },
  -- CHIP_STROKE_NOW
  { base := 18, nw := 2, wide := true, id := .chipStrokeNow },
  -- CHIP_DET_STATUS
  { base := 20, w1c := 0x3F, id := .chipDet },
  -- CHIP_DET_STROKE
  { base := 22, nw := 2, wide := true },
  -- CHIP_HALT_CAUSE
  { base := 24 },
  -- CHIP_HALT_CTRL
  { base := 25, id := .chipHaltCtrl },
  -- CHIP_ERR_LOG_CTRL
  { base := 26, rc := 0xFF00, id := .chipErrLogCtrl },
  -- CHIP_EVT_STATUS
  { base := 27, rc := 0xFFFFFFFF },
  -- CHIP_EVT_SUMMARY
  { base := 128, dims := [(4, 1)] },
  -- CHIP_ERR_LOG
  { base := 256, dims := [(64, 4)], nw := 4 },
  -- CHIP_EVT_PEND
  { base := 512, dims := [(128, 1)], w1c := 0xFFFFFFFF, id := .chipEvtPend },
  -- CHIP_EVT_SRC
  { base := 16384, dims := [(4096, 1)], rw := 0x7FFF, rc := 0xFF0000, id := .chipEvtSrc },
  -- PWR_CFG
  { base := 262144, rst := 0x32FF64, rw := 0xFFFFFFFF, fixes := [⟨0, 8, 0, 24, 25⟩, ⟨0, 8, 201, 255, 200⟩, ⟨16, 16, 0, 0, 1⟩] },
  -- PWR_STATUS
  { base := 262145, rst := 0x88888888 },
  -- PWR_ERR
  { base := 262146, w1c := 0x7 },
  -- PWR_AVS
  { base := 262147, rst := 0x1BBAEE, rw := 0x100000 },
  -- PWR_THERM
  { base := 262148, rst := 0x736400, rw := 0xFFFF00, fixes := [⟨8, 8, 0, 59, 60⟩, ⟨8, 8, 126, 255, 125⟩, ⟨16, 8, 0, 99, 100⟩, ⟨16, 8, 126, 255, 125⟩] },
  -- PWR_IOUT
  { base := 262149 },
  -- TIME_CFG
  { base := 524288, rw := 0x1, id := .timeCfg },
  -- TIME_STATUS
  { base := 524289 },
  -- TIME_ERR
  { base := 524290, w1c := 0x7F },
  -- TIME_ERR_LOC
  { base := 524291 },
  -- TIME_SNAP
  { base := 524292, id := .timeSnap },
  -- TIME_OSW_CTRL
  { base := 524293, rst := 0x40001, rw := 0x7FF01, fixes := [⟨8, 11, 0, 0, 1⟩, ⟨8, 11, 1025, 2047, 1024⟩], id := .timeOswCtrl },
  -- TIME_OSW_STROKE
  { base := 524294, nw := 2, wide := true, rw := 0xFFFFFFFFFFFF },
  -- TIME_INCR
  { base := 524352, dims := [(2, 16)], nw := 2, wide := true, rst := 0x100000000, rw := 0xFFFFFFFFF, fixes := [⟨0, 36, 0, 0xFFF2E48E, 0xFFF2E48F⟩, ⟨0, 36, 0x1000D1B72, 0xFFFFFFFFF, 0x1000D1B71⟩] },
  -- TIME_ADJ
  { base := 524354, dims := [(2, 16)], rw := 0xFFFFFFFF, id := .timeAdj },
  -- TIME_ADJ_CFG
  { base := 524355, dims := [(2, 16)], rst := 0x64, rw := 0xFF, fixes := [⟨0, 8, 0, 0, 1⟩, ⟨0, 8, 201, 255, 200⟩] },
  -- TIME_ADJ_REMAIN
  { base := 524356, dims := [(2, 16)] },
  -- TIME_LOAD_NS
  { base := 524357, dims := [(2, 16)], rw := 0x3FFFFFFF, fixes := [⟨0, 30, 1000000000, 1073741823, 999999999⟩] },
  -- TIME_LOAD_SEC
  { base := 524358, dims := [(2, 16)], nw := 2, wide := true, rw := 0xFFFFFFFFFFFF },
  -- TIME_LOAD_CTRL
  { base := 524360, dims := [(2, 16)], id := .timeLoadCtrl }]

/-- Register descriptors, part 1. -/
def regRows1 : List RegDesc := [
  -- TIME_SNAP_NS
  { base := 524361, dims := [(2, 16)] },
  -- TIME_SNAP_FRAC
  { base := 524362, dims := [(2, 16)] },
  -- TIME_SNAP_SEC
  { base := 524364, dims := [(2, 16)], nw := 2, wide := true },
  -- TIME_CELL_INCR
  { base := 525312, dims := [(512, 4)], rst := 0xCCCCCCCD, rw := 0xFFFFFFFF, fixes := [⟨0, 32, 0, 0xCCB295E9, 0xCCB295EA⟩, ⟨0, 32, 0xCCE703B1, 0xFFFFFFFF, 0xCCE703B0⟩] },
  -- TIME_CELL_STATUS
  { base := 525313, dims := [(512, 4)] },
  -- TIME_PULSE_CTRL
  { base := 527360, dims := [(4, 8)], rw := 0x7, id := .timePulseCtrl },
  -- TIME_PULSE_START_NS
  { base := 527361, dims := [(4, 8)], rw := 0x3FFFFFFF, id := .timePulseStartNs },
  -- TIME_PULSE_START_SEC
  { base := 527362, dims := [(4, 8)], nw := 2, wide := true, rw := 0xFFFFFFFFFFFF, id := .timePulseStartSec },
  -- TIME_PULSE_PERIOD
  { base := 527364, dims := [(4, 8)], rst := 0x3B9ACA00, rw := 0xFFFFFFFF, fixes := [⟨0, 32, 1, 15, 16⟩], id := .timePulsePeriod },
  -- TIME_PULSE_WIDTH
  { base := 527365, dims := [(4, 8)], rst := 0x5F5E100, rw := 0xFFFFFFFF, id := .timePulseWidth },
  -- TIME_CAPT_CFG
  { base := 527424, dims := [(4, 8)], rst := 0x40144, rw := 0xFFFFFFF, fixes := [⟨12, 16, 0, 3, 4⟩] },
  -- TIME_CAPT_STATUS
  { base := 527425, dims := [(4, 8)], w1c := 0x20, rc := 0xFFFF00 },
  -- TIME_CAPT_NS
  { base := 527426, dims := [(4, 8)], id := .timeCaptNs },
  -- TIME_CAPT_SEC_LO
  { base := 527427, dims := [(4, 8)] },
  -- TIME_CAPT_SEC_HI
  { base := 527428, dims := [(4, 8)] },
  -- PAIR_CFG
  { base := 786432, rst := 0xA0F08, rw := 0xFF0F3F, cfg := 0x3, fixes := [⟨16, 8, 0, 0, 1⟩], id := .pairCfg },
  -- PAIR_CTRL
  { base := 786433, id := .pairCtrl },
  -- PAIR_STATUS
  { base := 786434, id := .pairStatus },
  -- PAIR_ERR
  { base := 786435, w1c := 0x3FF },
  -- PAIR_ERR_LOC
  { base := 786436 },
  -- PAIR_TIMER_CFG
  { base := 786437, rst := 0x140002, rw := 0x3FF03FF, fixes := [⟨0, 10, 0, 0, 1⟩, ⟨16, 10, 0, 0, 1⟩] },
  -- PAIR_JOIN_STROKE
  { base := 786438, nw := 2, wide := true, rw := 0xFFFFFFFFFFFF },
  -- PAIR_CONVERGE
  { base := 786440, rw := 0xFFFFFFFF },
  -- PAIR_HANDOVER_STROKE
  { base := 786442, nw := 2, wide := true },
  -- PAIR_LAST_LEDGER
  { base := 786444, nw := 2, wide := true },
  -- PAIR_DIGEST_CNT
  { base := 786446, rc := 0xFFFF0000 },
  -- PAIR_CAP_CTRL
  { base := 786448, id := .pairCapCtrl },
  -- PAIR_CAP_STROKE
  { base := 786450, nw := 2, wide := true, rw := 0xFFFFFFFFFFFF },
  -- PAIR_CAP_BASE
  { base := 786452, nw := 2, wide := true, rw := 0xFFFFFFFFFFFFF000 },
  -- PAIR_CNT
  { base := 786464, dims := [(6, 2)], nw := 2, wide := true },
  -- HIF_RING_CTRL
  { base := 1048576, dims := [(16384, 16)], rw := 0x1FF, id := .hifRingCtrl },
  -- HIF_RING_BIND
  { base := 1048577, dims := [(16384, 16)], rw := 0x1FFFFFFF, id := .hifRingCtx },
  -- HIF_RING_MOD
  { base := 1048578, dims := [(16384, 16)], rst := 0x1, rw := 0x3FFFFFF, fixes := [⟨0, 16, 0, 0, 1⟩] },
  -- HIF_RING_BASE
  { base := 1048579, dims := [(16384, 16)], nw := 2, wide := true, rw := 0xFFFFFFFFFFFFF000, id := .hifRingCtx },
  -- HIF_RING_HWB
  { base := 1048581, dims := [(16384, 16)], nw := 2, wide := true, rw := 0xFFFFFFFFFFFFFFF8, id := .hifRingCtx },
  -- HIF_RING_START
  { base := 1048583, dims := [(16384, 16)], rw := 0x1FFFF, id := .hifRingCtx },
  -- HIF_RING_STATUS
  { base := 1048584, dims := [(16384, 16)] },
  -- HIF_RING_HEAD
  { base := 1048585, dims := [(16384, 16)] },
  -- HIF_RING_TAIL
  { base := 1048586, dims := [(16384, 16)] },
  -- HIF_RING_DROPS
  { base := 1048587, dims := [(16384, 16)], rc := 0xFFFFFFFF }]

/-- Register descriptors, part 2. -/
def regRows2 : List RegDesc := [
  -- HIF_CFG
  { base := 1572864, rw := 0xFFF },
  -- HIF_STATUS
  { base := 1572865 },
  -- HIF_ERR
  { base := 1572866, w1c := 0x3FF },
  -- HIF_ERR_LOC
  { base := 1572867 },
  -- HIF_ACCESS_ERR
  { base := 1572868, w1c := 0x80000000 },
  -- HIF_RING_INVAL
  { base := 1572869, rw := 0x3FFF, id := .hifRingInval },
  -- HIF_INVAL_FROM
  { base := 1572870 },
  -- HIF_HALT_INFO
  { base := 1572871 },
  -- HIF_CNT
  { base := 1572928, dims := [(11, 2)], nw := 2, wide := true },
  -- HIF_RX_STEER
  { base := 1573888, dims := [(16, 32), (32, 1)], rw := 0x3FFF3FFF },
  -- MSIX_ADDR_LO
  { base := 1835008, dims := [(2048, 4)], rw := 0xFFFFFFFC },
  -- MSIX_ADDR_HI
  { base := 1835009, dims := [(2048, 4)], rw := 0xFFFFFFFF },
  -- MSIX_DATA
  { base := 1835010, dims := [(2048, 4)], rw := 0xFFFFFFFF },
  -- MSIX_CTRL
  { base := 1835011, dims := [(2048, 4)], rst := 0x1, rw := 0x1, id := .msixCtrl },
  -- MSIX_PBA
  { base := 1843200, dims := [(64, 1)] },
  -- WL_CFG
  { base := 2097152, rst := 0x1F, rw := 0x1F, id := .wlCfg },
  -- WL_STATUS
  { base := 2097153, rst := 0x1F },
  -- WL_ERR
  { base := 2097154, w1c := 0x3 },
  -- WL_MC_INFLIGHT
  { base := 2097156, dims := [(2, 1)] },
  -- WL_CELLS
  { base := 2097168, dims := [(8, 2)], nw := 2, wide := true },
  -- SP_CFG
  { base := 2105344, rst := 0xA0, rw := 0x7FF, cfg := 0x7FF, fixes := [⟨0, 11, 0, 63, 64⟩, ⟨0, 11, 1025, 2047, 1024⟩], id := .spCfg },
  -- SP_STATUS
  { base := 2105345 },
  -- SP_LATE
  { base := 2105346, rc := 0xFFFF },
  -- SP_RELEASED
  { base := 2105348, nw := 2, wide := true },
  -- SP_WM
  { base := 2105360, dims := [(8, 2)], nw := 2, wide := true },
  -- HBM_CFG
  { base := 2359296, dims := [(4, 65536)], rst := 0x4080400, rw := 0xFFFFFFF, fixes := [⟨0, 16, 0, 255, 256⟩, ⟨17, 4, 9, 15, 8⟩] },
  -- HBM_STATUS
  { base := 2359297, dims := [(4, 65536)] },
  -- HBM_ERR
  { base := 2359298, dims := [(4, 65536)], w1c := 0x7F },
  -- HBM_ERR_LOC
  { base := 2359299, dims := [(4, 65536)] },
  -- HBM_FREQ_CTRL
  { base := 2359300, dims := [(4, 65536)], rst := 0x3, rw := 0x3, id := .hbmFreqCtrl },
  -- HBM_TEMP
  { base := 2359301, dims := [(4, 65536)], rst := 0x5F, rw := 0xFF },
  -- HBM_TIMING_SHADOW0
  { base := 2359304, dims := [(4, 65536)], rst := 0x8888930, rw := 0x3FFFFFFF },
  -- HBM_TIMING_SHADOW1
  { base := 2359305, dims := [(4, 65536)], rst := 0x1457250, rw := 0x3FFFFFF },
  -- HBM_TIMING_SHADOW2
  { base := 2359306, dims := [(4, 65536)], rst := 0x42613A7, rw := 0x1FFFFFFF },
  -- HBM_TIMING_SHADOW3
  { base := 2359307, dims := [(4, 65536)], rst := 0x1802490, rw := 0x3FFFFFF },
  -- HBM_TIMING0
  { base := 2359308, dims := [(4, 65536)], rst := 0x8888930 },
  -- HBM_TIMING1
  { base := 2359309, dims := [(4, 65536)], rst := 0x1457250 },
  -- HBM_TIMING2
  { base := 2359310, dims := [(4, 65536)], rst := 0x42613A7 },
  -- HBM_TIMING3
  { base := 2359311, dims := [(4, 65536)], rst := 0x1802490 },
  -- HBM_CH_CTRL
  { base := 2359360, dims := [(4, 65536), (16, 4)], id := .hbmChCtrl }]

/-- Register descriptors, part 3. -/
def regRows3 : List RegDesc := [
  -- HBM_CH_STATUS
  { base := 2359361, dims := [(4, 65536), (16, 4)] },
  -- HBM_CH_CNT
  { base := 2359362, dims := [(4, 65536), (16, 4)], rc := 0xFFFFFFFF },
  -- HBM_CH_NBR
  { base := 2359363, dims := [(4, 65536), (16, 4)], rc := 0xFFFFFFFF },
  -- HBM_SCRUB_CFG
  { base := 2359552, dims := [(4, 65536)], rst := 0x1, rw := 0xFFFFFF },
  -- HBM_SCRUB_LAP
  { base := 2359553, dims := [(4, 65536)] },
  -- HBM_SCRUB_PASS
  { base := 2359554, dims := [(4, 65536)], rw := 0x1F, id := .hbmScrubPass },
  -- HBM_SCRUB_START
  { base := 2359555, dims := [(4, 65536)], rw := 0xFFFFFF },
  -- HBM_SCRUB_END
  { base := 2359556, dims := [(4, 65536)], rw := 0xFFFFFF },
  -- HBM_SCRUB_SUM_WORDS
  { base := 2359557, dims := [(4, 65536)] },
  -- HBM_SCRUB_SUM_ERRS
  { base := 2359558, dims := [(4, 65536)] },
  -- HBM_SCRUB_SUM_FIRST
  { base := 2359559, dims := [(4, 65536)] },
  -- HBM_SCRUB_SUM_LAST
  { base := 2359560, dims := [(4, 65536)] },
  -- HBM_RETIRE_STATUS
  { base := 2359561, dims := [(4, 65536)] },
  -- HBM_SPARE_LEFT
  { base := 2359616, dims := [(4, 65536), (32, 1)] },
  -- HBM_RETIRE
  { base := 2361344, dims := [(4, 65536), (1024, 1)], rw := 0x81FFFFFF, id := .hbmRetire },
  -- CT_CTRL
  { base := 2621440, id := .ctCtrl },
  -- CT_STATUS
  { base := 2621441 },
  -- CT_FREEZE_STROKE
  { base := 2621442, nw := 2, wide := true, rw := 0xFFFFFFFFFFFF },
  -- CT_THAW_STROKE
  { base := 2621444, nw := 2, wide := true, rw := 0xFFFFFFFFFFFF },
  -- CT_SNAP_STROKE
  { base := 2621446, nw := 2, wide := true, rw := 0xFFFFFFFFFFFF },
  -- CT_USER_ENABLE
  { base := 2621456, dims := [(8, 1)], rw := 0xFFFFFFFF },
  -- CT_CYCLE
  { base := 2637824, dims := [(138, 64)], nw := 2, wide := true, id := .ctCycle },
  -- CT_CNT
  { base := 2637826, dims := [(138, 64), (8, 2)], nw := 2, wide := true, rw := 0xFFFFFFFFFFFF, id := .ctCnt },
  -- CT_SEL
  { base := 2637842, dims := [(138, 64), (8, 1)], rst := 0xFF0000, rw := 0xFF03FF, id := .ctSel },
  -- CT_UNIT_STATUS
  { base := 2637850, dims := [(138, 64)], w1c := 0xFF, rc := 0xFF00, id := .ctUnitStatus },
  -- CT_SAMPLE
  { base := 2637852, dims := [(138, 64)], nw := 4, w1c := 0x80000000, id := .ctSample },
  -- CT_SNAP_BANK
  { base := 2654208, dims := [(138, 64), (9, 2)], nw := 2, wide := true },
  -- REG_Q_CTRL
  { base := 4194304, dims := [(8, 1048576)], id := .regQCtrl },
  -- REG_Q_STATUS
  { base := 4194305, dims := [(8, 1048576)] },
  -- REG_Q_STROKE
  { base := 4194306, dims := [(8, 1048576)], nw := 2, wide := true },
  -- REG_REJOIN_STROKE
  { base := 4194308, dims := [(8, 1048576)], nw := 2, wide := true, rw := 0xFFFFFFFFFFFF },
  -- REG_ERR
  { base := 4194310, dims := [(8, 1048576)], w1c := 0x7F },
  -- REG_RETIRE_STATUS
  { base := 4194311, dims := [(8, 1048576)] },
  -- REG_RETIRE
  { base := 4195328, dims := [(8, 1048576), (256, 1)], rw := 0x80FFFFFF, id := .regRetire },
  -- REG_SCRUB_CFG
  { base := 4194368, dims := [(8, 1048576)], rst := 0xFF, rw := 0xFFFFFF },
  -- REG_SCRUB_LAP
  { base := 4194372, dims := [(8, 1048576), (8, 1)] },
  -- REG_SCRUB_PASS
  { base := 4194384, dims := [(8, 1048576)], rw := 0x1F, id := .regScrubPass },
  -- REG_SCRUB_START
  { base := 4194385, dims := [(8, 1048576)], rw := 0xFFFFFF },
  -- REG_SCRUB_END
  { base := 4194386, dims := [(8, 1048576)], rw := 0xFFFFFF },
  -- REG_SCRUB_SUM_WORDS
  { base := 4194387, dims := [(8, 1048576)] }]

/-- Register descriptors, part 4. -/
def regRows4 : List RegDesc := [
  -- REG_SCRUB_SUM_ERRS
  { base := 4194388, dims := [(8, 1048576)] },
  -- REG_SCRUB_SUM_FIRST
  { base := 4194389, dims := [(8, 1048576)] },
  -- REG_SCRUB_SUM_LAST
  { base := 4194390, dims := [(8, 1048576)] },
  -- PB_SHAPE
  { base := 4210688, dims := [(8, 1048576), (8, 4096)], rst := 0x249249, rw := 0xFFFFFF, id := .pbShape },
  -- PB_BLOCK_ERR
  { base := 4210689, dims := [(8, 1048576), (8, 4096)], w1c := 0xF },
  -- PB_PORT_CFG
  { base := 4210944, dims := [(8, 1048576), (8, 4096), (8, 128)], rst := 0x5F276, rw := 0x3FFF7F, fixes := [⟨8, 14, 0, 63, 64⟩, ⟨8, 14, 10001, 16383, 10000⟩], id := .pbPortCfg },
  -- PB_FC_CFG
  { base := 4210945, dims := [(8, 1048576), (8, 4096), (8, 128)], rst := 0xFFFF0, rw := 0xFFFF3, id := .pbPortSet },
  -- PB_FC_TX
  { base := 4210946, dims := [(8, 1048576), (8, 4096), (8, 128)], rst := 0x7FFFFFFF, rw := 0xFFFFFFFF, id := .pbPortSet },
  -- PB_STORM_CFG
  { base := 4210947, dims := [(8, 1048576), (8, 4096), (8, 128)], rst := 0x6400C8, rw := 0x3FF03FF, fixes := [⟨0, 10, 1001, 1023, 1000⟩, ⟨16, 10, 0, 0, 1⟩], id := .pbPortSet },
  -- PB_DOWN_CFG
  { base := 4210948, dims := [(8, 1048576), (8, 4096), (8, 128)], rst := 0x3E80000, rw := 0xFFFF03FF, fixes := [⟨0, 10, 501, 1023, 500⟩, ⟨16, 16, 0, 0, 1⟩], id := .pbPortSet },
  -- PB_TS_CFG
  { base := 4210949, dims := [(8, 1048576), (8, 4096), (8, 128)], rw := 0x7, id := .pbPortSet },
  -- PB_TS_ADJ
  { base := 4210950, dims := [(8, 1048576), (8, 4096), (8, 128)], rw := 0xFFFFFFFF, id := .pbPortSet },
  -- PB_PORT_STATUS
  { base := 4210951, dims := [(8, 1048576), (8, 4096), (8, 128)], id := .pbPortSet },
  -- PB_FC_SA
  { base := 4210952, dims := [(8, 1048576), (8, 4096), (8, 128)], nw := 2, wide := true, rw := 0xFFFFFFFFFFFF, id := .pbPortSet },
  -- PB_VIOL_CTRL
  { base := 4210954, dims := [(8, 1048576), (8, 4096), (8, 128)], rc := 0xFF00, id := .pbViolCtrl },
  -- PB_VIOL_LOG
  { base := 4210960, dims := [(8, 1048576), (8, 4096), (8, 128), (16, 2)], nw := 2, id := .pbPortSet },
  -- PB_PORT_CNT
  { base := 4211008, dims := [(8, 1048576), (8, 4096), (8, 128), (24, 2)], nw := 2, wide := true, id := .pbPortSet },
  -- PB_HOST_FILT_CFG
  { base := 4243456, dims := [(8, 1048576), (2, 1024)], rst := 0x32, rw := 0x3F },
  -- PB_HOST_UCAST
  { base := 4243520, dims := [(8, 1048576), (2, 1024), (32, 2)], nw := 2, wide := true, rw := 0x8000FFFFFFFFFFFF },
  -- PB_HOST_MCAST_HASH
  { base := 4243584, dims := [(8, 1048576), (2, 1024), (128, 1)], rw := 0xFFFFFFFF },
  -- PB_HOST_VLAN
  { base := 4243712, dims := [(8, 1048576), (2, 1024), (128, 1)], rw := 0xFFFFFFFF },
  -- PB_WAKE_CFG
  { base := 4245504, dims := [(8, 1048576)], rw := 0xF },
  -- PB_WAKE_STATUS
  { base := 4245505, dims := [(8, 1048576)], w1c := 0xF },
  -- PB_WAKE_PAT_CTRL
  { base := 4245568, dims := [(8, 1048576), (4, 64)], rw := 0x1FF },
  -- PB_WAKE_PAT_MASK
  { base := 4245570, dims := [(8, 1048576), (4, 64)], nw := 2, wide := true, rw := 0xFFFFFFFFFFFFFFFF },
  -- PB_WAKE_PAT_DATA
  { base := 4245584, dims := [(8, 1048576), (4, 64), (16, 1)], rw := 0xFFFFFFFF },
  -- PB_HOST_CNT
  { base := 4246528, dims := [(8, 1048576), (2, 64), (3, 2)], nw := 2, wide := true },
  -- IP_PARSE_CFG
  { base := 4259840, dims := [(8, 1048576), (2, 65536)], rw := 0xFF, id := .ipParseCfg },
  -- IP_PARSE_STATUS
  { base := 4259841, dims := [(8, 1048576), (2, 65536)], rst := 0xFF, rc := 0xFF000000 },
  -- IP_PARSE_ERR
  { base := 4259842, dims := [(8, 1048576), (2, 65536)], w1c := 0x7 },
  -- IP_PARSE_ERR_LOC
  { base := 4259843, dims := [(8, 1048576), (2, 65536)] },
  -- IP_PARSE_EXIT_CNT
  { base := 4259904, dims := [(8, 1048576), (2, 65536), (72, 2)], nw := 2, wide := true },
  -- IP_PARSE_NODE
  { base := 4276224, dims := [(8, 1048576), (2, 65536), (2, 2048), (256, 8)], nw := 8, rst := 0x10000000000, rw := 0xFFFFFFFFFFFFFFFFFFFF007FFFFFFF3FFFFF0FFFFFFF, r43 := 0xFFFFFFFFFFFFFFFFFFFF007FFFFFFF3FFFFF0FFFFFFF, id := .bankTable, sub := 1 },
  -- IP_PARSE_TRANS
  { base := 4280320, dims := [(8, 1048576), (2, 65536), (2, 4096), (1024, 4)], nw := 4, rw := 0x3FFFFFFFFFFFFFFFFFF, r43 := 0x3FFFFFFFFFFFFFFFFFF, id := .bankTable, sub := 2 },
  -- IP_PARSE_FKEY
  { base := 4288512, dims := [(8, 1048576), (2, 65536), (2, 256), (8, 32), (20, 1)], rw := 0x3FF03FF, r43 := 0x3FF03FF, id := .bankTable, sub := 3 },
  -- IP_PARSE_START
  { base := 4289536, dims := [(8, 1048576), (2, 65536), (2, 64)], rw := 0xFFFFFF, r43 := 0xFFFFFF, id := .bankTable, sub := 4 },
  -- IP_PARSE_LIMIT
  { base := 4289537, dims := [(8, 1048576), (2, 65536), (2, 64)], rst := 0x10, rw := 0x1F, r43 := 0x1F, fixes := [⟨0, 5, 0, 0, 1⟩, ⟨0, 5, 25, 31, 24⟩], id := .bankTable, sub := 4 },
  -- IP_PARSE_EXIT_ACT0
  { base := 4289538, dims := [(8, 1048576), (2, 65536), (2, 64)], rw := 0xFFFFFFFF, r43 := 0xFFFFFFFF, id := .bankTable, sub := 4 },
  -- IP_PARSE_EXIT_ACT1
  { base := 4289539, dims := [(8, 1048576), (2, 65536), (2, 64)], rw := 0xFFFFFFFF, r43 := 0xFFFFFFFF, id := .bankTable, sub := 4 },
  -- IP_PARSE_EXIT_ACT2
  { base := 4289540, dims := [(8, 1048576), (2, 65536), (2, 64)], rst := 0x80, rw := 0xFF, r43 := 0xFF, id := .bankTable, sub := 4 }]

/-- Register descriptors, part 5. -/
def regRows5 : List RegDesc := [
  -- IP_PARSE_ZONE
  { base := 4289552, dims := [(8, 1048576), (2, 65536), (2, 64), (17, 1)], rw := 0xFFFFFFFF, r43 := 0xFFFFFFFF, id := .bankTable, sub := 4 },
  -- IP_CL_CFG
  { base := 4292608, dims := [(8, 1048576), (2, 65536)], rst := 0x1, rw := 0x1 },
  -- IP_CL_STATUS
  { base := 4292609, dims := [(8, 1048576), (2, 65536)], rc := 0xFFE0 },
  -- IP_CL_ERR
  { base := 4292610, dims := [(8, 1048576), (2, 65536)], w1c := 0x1F },
  -- IP_CL_ERR_LOC
  { base := 4292611, dims := [(8, 1048576), (2, 65536)] },
  -- IP_CL_SWITCH_STROKE
  { base := 4292612, dims := [(8, 1048576), (2, 65536)], nw := 2, wide := true, rw := 0xFFFFFFFFFFFF, id := .ipClSwitchStroke },
  -- IP_CL_SWITCH_CTRL
  { base := 4292614, dims := [(8, 1048576), (2, 65536)], id := .ipClSwitchCtrl },
  -- IP_CL_RETIRE_STROKE
  { base := 4292616, dims := [(8, 1048576), (2, 65536)], nw := 2, wide := true },
  -- IP_CL_RECIRC_DROPS
  { base := 4292618, dims := [(8, 1048576), (2, 65536)], rc := 0xFFFFFFFF },
  -- IP_CL_KPSEL
  { base := 4293632, dims := [(8, 1048576), (2, 65536), (2, 1024), (2, 1)], rw := 0xFFFFFFFF, r43 := 0xFFFFFFFF, id := .bankTable },
  -- IP_CL_KPROF
  { base := 4293696, dims := [(8, 1048576), (2, 65536), (2, 1024), (8, 32), (19, 1)], rw := 0x3FF03FF, r43 := 0x3FF03FF, id := .bankTable },
  -- IP_CL_MISS_ACT
  { base := 4294144, dims := [(8, 1048576), (2, 65536), (2, 1024)], nw := 4, rw := 0x7FFF007FFFFFFF7FFFFFFFFFFFFF, r43 := 0x7FFF007FFFFFFF7FFFFFFFFFFFFF, id := .bankTable },
  -- TBL_CFG
  { base := 4456448, dims := [(8, 1048576)], rst := 0x40010, rw := 0x3FFFFF1F, cfg := 0x3FFF00, r43 := 0x3FC0001F, fixes := [⟨8, 14, 8193, 16383, 8192⟩], id := .tblCfg },
  -- TBL_LKP_SEL0
  { base := 4456449, dims := [(8, 1048576)], rst := 0x4A040, rw := 0x3FFFFFFF, r43 := 0x3FFFFFFF },
  -- TBL_LKP_SEL1
  { base := 4456450, dims := [(8, 1048576)], rst := 0x4410666, rw := 0x3FFFFFFF, r43 := 0x3FFFFFFF },
  -- TBL_LEARN_CFG
  { base := 4456451, dims := [(8, 1048576)], rst := 0x100, rw := 0x707FF, r43 := 0x7FF, fixes := [⟨0, 11, 0, 0, 1⟩, ⟨0, 11, 1025, 2047, 1024⟩] },
  -- TBL_AGE_CFG
  { base := 4456452, dims := [(8, 1048576)], rw := 0xFFFFFFFF, r43 := 0xFFFFFFFF, fixes := [⟨0, 32, 1, 65535, 65536⟩], id := .tblAge },
  -- TBL_AGE_BASE
  { base := 4456454, dims := [(8, 1048576)], nw := 2, wide := true, rw := 0xFFFFFFFFFFFF, r43 := 0xFFFFFFFFFFFF, id := .tblAge },
  -- TBL_HASH_SEED
  { base := 4456456, dims := [(8, 1048576)], rst := 0x5EED0001, rw := 0xFFFFFFFF, cfg := 0xFFFFFFFF, id := .tblHashSeed },
  -- TBL_STATUS
  { base := 4456457, dims := [(8, 1048576)], id := .tblStatus },
  -- TBL_CNT
  { base := 4456458, dims := [(8, 1048576)], rc := 0xFFFFFFFF },
  -- TBL_ERR
  { base := 4456459, dims := [(8, 1048576)], w1c := 0x1F },
  -- TBL_ERR_LOC
  { base := 4456460, dims := [(8, 1048576)] },
  -- TBL_OCC
  { base := 4456461, dims := [(8, 1048576)] },
  -- TBL_ROUTE_OCC
  { base := 4456462, dims := [(8, 1048576)] },
  -- TBL_CMP_CFG
  { base := 4456464, dims := [(8, 1048576)], rst := 0x40000E, rw := 0xFFFF000F, fixes := [⟨16, 16, 0, 15, 16⟩] },
  -- TBL_CMP_BASE
  { base := 4456466, dims := [(8, 1048576)], nw := 2, wide := true, rw := 0xFFFFFFFFFFFFF000 },
  -- TBL_CMP_STATUS
  { base := 4456468, dims := [(8, 1048576)], rc := 0xFF00 },
  -- TBL_RMAC
  { base := 4456512, dims := [(8, 1048576), (8, 2)], nw := 2, wide := true, rw := 0x8000FFFFFFFFFFFF, r43 := 0x8000FFFFFFFFFFFF },
  -- TBL_PVID
  { base := 4456576, dims := [(8, 1048576), (34, 1)], rst := 0x10001, rw := 0xFFF0FFF, r43 := 0xFFF0FFF },
  -- FE_CFG
  { base := 4587520, dims := [(8, 1048576)], rst := 0x14, rw := 0xFF, fixes := [⟨0, 8, 0, 0, 1⟩] },
  -- FE_HASH_SEED
  { base := 4587521, dims := [(8, 1048576)], rst := 0x5EED0002, rw := 0xFFFFFFFF, cfg := 0xFFFFFFFF, id := .feHashSeed },
  -- FE_HOME_SEED
  { base := 4587522, dims := [(8, 1048576)], rst := 0x5EED0003, rw := 0xFFFFFFFF, cfg := 0xFFFFFFFF, id := .feHomeSeed },
  -- FE_SWEEP_CFG
  { base := 4587523, dims := [(8, 1048576)], rw := 0xFFFFFFFF, fixes := [⟨0, 32, 1, 4194303, 4194304⟩], id := .feSweep },
  -- FE_SWEEP_BASE
  { base := 4587524, dims := [(8, 1048576)], nw := 2, wide := true, rw := 0xFFFFFFFFFFFF, id := .feSweep },
  -- FE_HOME_MAP
  { base := 4587528, dims := [(8, 1048576), (8, 1)], rst := 0x76543210, rw := 0x77777777, r43 := 0x77777777 },
  -- FE_STATUS
  { base := 4587536, dims := [(8, 1048576)], id := .feStatus },
  -- FE_CAPACITY
  { base := 4587537, dims := [(8, 1048576)] },
  -- FE_PC_LIVE
  { base := 4587538, dims := [(8, 1048576)] },
  -- FE_OCC
  { base := 4587539, dims := [(8, 1048576)] }]

/-- Register descriptors, part 6. -/
def regRows6 : List RegDesc := [
  -- FE_RECORDS
  { base := 4587540, dims := [(8, 1048576)] },
  -- FE_ERR
  { base := 4587541, dims := [(8, 1048576)], w1c := 0x1F, id := .feErr },
  -- FE_ERR_LOC
  { base := 4587542, dims := [(8, 1048576)] },
  -- FE_DICT_STATUS
  { base := 4587544, dims := [(8, 1048576)], rc := 0xFFFF0000 },
  -- FE_DICT
  { base := 4603904, dims := [(8, 1048576), (4096, 4)], nw := 4 },
  -- FE_CNT
  { base := 4587552, dims := [(8, 1048576), (9, 2)], nw := 2, wide := true },
  -- FE_PART_CFG
  { base := 4587584, dims := [(8, 1048576), (16, 2)], rst := 0x14, rw := 0xFF, cfg := 0x6, r43 := 0xF9, id := .fePartCfg },
  -- FE_PART_TIMEOUT
  { base := 4587585, dims := [(8, 1048576), (16, 2)], rw := 0xFFFFFFFF, r43 := 0xFFFFFFFF },
  -- PMP_STORE
  { base := 4620288, dims := [(8, 1048576), (16384, 1)], rw := 0xFFFFFFFF, r43 := 0xFFFFFFFF, id := .pmpStore },
  -- PMP_BIND
  { base := 4636672, dims := [(8, 1048576), (2, 2048), (256, 8)], nw := 8, rw := 0xFFFFFFFFFFFFFFFFFFFFFFFFFFFFFFFF0000000000000000000001FF7FFF7FFF, r43 := 0xFFFFFFFFFFFFFFFFFFFFFFFFFFFFFFFF0000000000000000000001FF7FFF7FFF, id := .pmpBind },
  -- PMP_CFG
  { base := 4644864, dims := [(8, 1048576)], rst := 0x2100, rw := 0xFFFF, fixes := [⟨0, 12, 0, 15, 16⟩] },
  -- PMP_POOL
  { base := 4644865, dims := [(8, 1048576)], rst := 0xFFFFFFFF, rw := 0xFFFFFFFF, id := .pmpPool },
  -- PMP_STATUS
  { base := 4644866, dims := [(8, 1048576)] },
  -- PMP_ERR
  { base := 4644867, dims := [(8, 1048576)], w1c := 0x7F },
  -- PMP_ERR_LOC
  { base := 4644868, dims := [(8, 1048576)] },
  -- PMP_ERR_CAUSE
  { base := 4644869, dims := [(8, 1048576)] },
  -- PMP_TEST
  { base := 4644870, dims := [(8, 1048576)], rw := 0x1F, id := .pmpTest },
  -- PMP_TEST_STATUS
  { base := 4644871, dims := [(8, 1048576)] },
  -- PMP_EXPORT_CFG
  { base := 4644872, dims := [(8, 1048576), (4, 1)], rw := 0x7FFF },
  -- PMP_CNT
  { base := 4644896, dims := [(8, 1048576), (8, 2)], nw := 2, wide := true },
  -- PMP_RT_HIST_CFG
  { base := 4645888, dims := [(8, 1048576)], rst := 0x1, rw := 0x1 },
  -- PMP_RT_HIST_SEL
  { base := 4645889, dims := [(8, 1048576)], rw := 0x1FF, id := .pmpRtHistSel },
  -- PMP_RT_HIST_MAX
  { base := 4645890, dims := [(8, 1048576)] },
  -- PMP_RT_HIST_BIN
  { base := 4645952, dims := [(8, 1048576), (64, 1)] },
  -- CIS_CFG
  { base := 4718592, dims := [(8, 1048576)], rst := 0x103, rw := 0x7F3 },
  -- CIS_CLASS_PRIO
  { base := 4718593, dims := [(8, 1048576)], rw := 0xFFFF },
  -- CIS_POOL_CFG
  { base := 4718596, dims := [(8, 1048576)], rst := 0x4000, rw := 0xFFFF, cfg := 0xFFFF, id := .cisPoolCfg, sub := 0 },
  -- CIS_POOL_CFG
  { base := 4718597, dims := [(8, 1048576)], rst := 0x1000, rw := 0xFFFF, cfg := 0xFFFF, id := .cisPoolCfg, sub := 1 },
  -- CIS_POOL_CFG
  { base := 4718598, dims := [(8, 1048576)], rst := 0x800, rw := 0xFFFF, cfg := 0xFFFF, id := .cisPoolCfg, sub := 2 },
  -- CIS_POOL_CFG
  { base := 4718599, dims := [(8, 1048576)], rst := 0x180, rw := 0xFFFF, cfg := 0xFFFF, id := .cisPoolCfg, sub := 3 },
  -- CIS_POOL_LIMIT
  { base := 4718600, dims := [(8, 1048576)], rst := 0x3000, rw := 0xFFFF, sub := 0 },
  -- CIS_POOL_LIMIT
  { base := 4718601, dims := [(8, 1048576)], rst := 0xC00, rw := 0xFFFF, sub := 1 },
  -- CIS_POOL_LIMIT
  { base := 4718602, dims := [(8, 1048576)], rst := 0x600, rw := 0xFFFF, sub := 2 },
  -- CIS_POOL_LIMIT
  { base := 4718603, dims := [(8, 1048576)], rst := 0x120, rw := 0xFFFF, sub := 3 },
  -- CIS_POOL_STATUS
  { base := 4718604, dims := [(8, 1048576), (4, 1)], rc := 0xFFFF0000 },
  -- CIS_SPILL_CFG
  { base := 4718608, dims := [(8, 1048576)], rst := 0x9000A000, rw := 0xFFFFFFFF, id := .cisSpillCfg },
  -- CIS_SPILL_Q
  { base := 4718609, dims := [(8, 1048576)], rst := 0x8000040, rw := 0xFFFFFFFF },
  -- CIS_OCC
  { base := 4718610, dims := [(8, 1048576)] },
  -- CIS_SUMP_CFG
  { base := 4718612, dims := [(8, 1048576)], rst := 0x23C000, rw := 0xFFFFFF, cfg := 0x1FFF, fixes := [⟨13, 5, 0, 0, 1⟩, ⟨13, 5, 31, 31, 30⟩, ⟨18, 6, 0, 0, 1⟩, ⟨18, 6, 33, 63, 32⟩], id := .cisSumpCfg },
  -- CIS_SUMP_STATUS
  { base := 4718613, dims := [(8, 1048576)] }]

/-- Register descriptors, part 7. -/
def regRows7 : List RegDesc := [
  -- CIS_SUMP_USED
  { base := 4718614, dims := [(8, 1048576)] },
  -- CIS_SUMP_QUEUES
  { base := 4718615, dims := [(8, 1048576)] },
  -- CIS_ERR
  { base := 4718616, dims := [(8, 1048576)], w1c := 0xFF },
  -- CIS_ERR_LOC
  { base := 4718617, dims := [(8, 1048576)] },
  -- CIS_CNT
  { base := 4718624, dims := [(8, 1048576), (12, 2)], nw := 2, wide := true },
  -- CIS_FREE_LOG_CTRL
  { base := 4718652, dims := [(8, 1048576)], rc := 0xFF00, id := .cisFreeLogCtrl },
  -- CIS_FREE_LOG
  { base := 4718656, dims := [(8, 1048576), (16, 2)], nw := 2 },
  -- CIS_MIR
  { base := 4718720, dims := [(8, 1048576), (8, 2)], nw := 2, wide := true, rst := 0x100200000, rw := 0xFFFFFF01FFFFFF, fixes := [⟨14, 10, 0, 63, 64⟩, ⟨14, 10, 513, 1023, 512⟩, ⟨32, 24, 0, 0, 1⟩], id := .cisMir },
  -- CIS_RED_SEED
  { base := 4718736, dims := [(8, 1048576)], rst := 0x5EED0004, rw := 0xFFFFFFFF },
  -- CIS_MC_CFG
  { base := 4718737, dims := [(8, 1048576)], rst := 0x400, rw := 0x7FF, fixes := [⟨0, 11, 0, 0, 1⟩, ⟨0, 11, 1025, 2047, 1024⟩] },
  -- CIS_IN_VALVE
  { base := 4719616, dims := [(8, 1048576), (67, 4)], nw := 4, rst := 0xECA864200600080000002000, rw := 0x7FFFFFFFFFFFFFFFF0000FFFF, id := .cisInValve },
  -- CIS_PFC_VALVE
  { base := 4720640, dims := [(8, 1048576), (1072, 1)], rst := 0x1800200, rw := 0xFFFFFFFF, id := .cisPfcValve },
  -- CIS_EQ_VALVE
  { base := 4722688, dims := [(8, 1048576), (1072, 2)], nw := 2, wide := true, rst := 0x4003FFFFFFFF, rw := 0x3FFFFFFFFFFFF, id := .cisEqValve },
  -- CIS_RED_MAP
  { base := 4725760, dims := [(8, 1048576), (1072, 1)], rw := 0xFFFFF },
  -- CIS_RED_PROF
  { base := 4727808, dims := [(8, 1048576), (32, 2)], nw := 2, wide := true, rst := 0x21A10000400, rw := 0x3FFFFFFFFFF, fixes := [⟨32, 9, 257, 511, 256⟩] },
  -- CIS_MC_GROUP
  { base := 4734976, dims := [(8, 1048576), (2, 16384), (16384, 1)], rw := 0x1FFFFFF, r43 := 0x1FFFFFF, id := .cisMcGroup },
  -- CIS_MC_NODE
  { base := 4784128, dims := [(8, 1048576), (32768, 2)], nw := 2, wide := true, rw := 0xFFFF7FFFFF, r43 := 0xFFFF7FFFFF, id := .cisMcNode },
  -- TM_CFG
  { base := 4849664, dims := [(8, 1048576)], rst := 0x12, rw := 0x1F, r43 := 0xF },
  -- TM_STATUS
  { base := 4849665, dims := [(8, 1048576)] },
  -- TM_ERR
  { base := 4849666, dims := [(8, 1048576)], w1c := 0x7F },
  -- TM_ERR_LOC
  { base := 4849667, dims := [(8, 1048576)] },
  -- TM_POL_SCHED_IDX
  { base := 4849668, dims := [(8, 1048576)], rw := 0x7FFFFFF },
  -- TM_POL_SCHED_CTRL
  { base := 4849669, dims := [(8, 1048576)], id := .tmPolSchedCtrl },
  -- TM_POL_SCHED_STROKE
  { base := 4849670, dims := [(8, 1048576)], nw := 2, wide := true, rw := 0xFFFFFFFFFFFF },
  -- TM_POL_SCHED_STATUS
  { base := 4849672, dims := [(8, 1048576)] },
  -- TM_POL_PEEK_IDX
  { base := 4849676, dims := [(8, 1048576)], rw := 0xFFFF, id := .tmPolPeekIdx },
  -- TM_POL_PEEK_TC
  { base := 4849677, dims := [(8, 1048576)] },
  -- TM_POL_PEEK_TE
  { base := 4849678, dims := [(8, 1048576)] },
  -- TM_POL_PEEK_LAST
  { base := 4849679, dims := [(8, 1048576)] },
  -- TM_PRECOL_MAP
  { base := 4849680, dims := [(8, 1048576), (4, 1)], rw := 0xFFFFFFFF, r43 := 0xFFFFFFFF },
  -- TM_CNT
  { base := 4849696, dims := [(8, 1048576), (8, 2)], nw := 2, wide := true },
  -- TM_PORT
  { base := 4850688, dims := [(8, 1048576), (66, 8)], nw := 4, rst := 0x40000000000000000014, rw := 0xFFFFFFFFFFFFFF0000007F, fixes := [⟨32, 32, 1600001, 4294967295, 1600000⟩], id := .tmPort },
  -- TM_GROUP
  { base := 4851712, dims := [(8, 1048576), (66, 32), (8, 4)], nw := 3, rst := 0x40000000000000000001, rw := 0xFFFFFFFFFFFFFF000003FF, fixes := [⟨0, 10, 0, 0, 1⟩, ⟨32, 32, 1600001, 4294967295, 1600000⟩] },
  -- TM_CLASS
  { base := 4857856, dims := [(8, 1048576), (1056, 4)], nw := 4, rst := 0x40000000000000190010, rw := 0xFFFFFFFFFFFFFF3FFFFFFF, fixes := [⟨4, 10, 0, 0, 1⟩, ⟨32, 32, 1600001, 4294967295, 1600000⟩], id := .tmClass },
  -- TM_GATE_CTRL
  { base := 4862976, dims := [(8, 1048576), (66, 8)], nw := 5, rw := 0xFFFFFFFFFFFFFFFFFFFFFFFF000007FF, fixes := [⟨0, 9, 257, 511, 256⟩], id := .tmGateCtrl },
  -- TM_GATE_LIST
  { base := 4874240, dims := [(8, 1048576), (66, 512), (2, 256), (256, 1)], rst := 0xFFFF, rw := 0xFFFFFFFF, id := .tmGateList },
  -- TM_DIP_SEL
  { base := 4864000, dims := [(8, 1048576)], rw := 0xFFF, id := .tmDipSel },
  -- TM_DIP_MAX
  { base := 4864001, dims := [(8, 1048576)] },
  -- TM_DIP_MAX_DELAY
  { base := 4864002, dims := [(8, 1048576)] },
  -- TM_DIP_BIN
  { base := 4864064, dims := [(8, 1048576), (128, 1)] }]

/-- Register descriptors, part 8. -/
def regRows8 : List RegDesc := [
  -- TM_POL_PROF
  { base := 4866048, dims := [(8, 1048576), (1024, 8)], nw := 5, rst := 0xA000000000000000000000000000000000, rw := 0x1FF00FFFFFFFFFFFFFF00FFFFFFFFFFFFFF, r43 := 0x1FF00FFFFFFFFFFFFFF00FFFFFFFFFFFFFF,
    fixes := [⟨0, 32, 1600001, 4294967295, 1600000⟩, ⟨64, 32, 1600001, 4294967295, 1600000⟩] },
  -- TM_POL
  { base := 4915200, dims := [(8, 1048576), (65536, 1)], rw := 0x7FF, r43 := 0x7FF },
  -- LANE_TIMER_CFG
  { base := 4980736, dims := [(8, 1048576)], rst := 0x5407D0, rw := 0xFFFFFF, fixes := [⟨0, 16, 0, 99, 100⟩, ⟨20, 4, 0, 0, 1⟩] },
  -- LANE_TIMER_CFG2
  { base := 4980737, dims := [(8, 1048576)], rst := 0x2EE3E8, rw := 0xFFFFFF, fixes := [⟨0, 10, 0, 99, 100⟩, ⟨10, 14, 0, 499, 500⟩, ⟨10, 14, 12001, 16383, 12000⟩] },
  -- LANE_FLAP_CFG
  { base := 4980738, dims := [(8, 1048576)], rst := 0xFA00A, rw := 0x3FFFFFF, fixes := [⟨10, 16, 0, 0, 1⟩] },
  -- LANE_QUIET_CFG
  { base := 4980739, dims := [(8, 1048576)], rst := 0x14, rw := 0x3FF, fixes := [⟨0, 10, 0, 0, 1⟩] },
  -- LANE_ERR
  { base := 4980740, dims := [(8, 1048576)], w1c := 0x7 },
  -- LANE_CFG
  { base := 4981760, dims := [(8, 1048576), (64, 256)], rst := 0x1403, rw := 0x3FFF, fixes := [⟨10, 4, 0, 3, 5⟩, ⟨10, 4, 9, 15, 5⟩], id := .laneCfg },
  -- LANE_CTRL
  { base := 4981761, dims := [(8, 1048576), (64, 256)], id := .laneCtrl },
  -- LANE_STATUS
  { base := 4981762, dims := [(8, 1048576), (64, 256)] },
  -- LANE_PORT_STATUS
  { base := 4981763, dims := [(8, 1048576), (64, 256)] },
  -- LANE_TX_TAPS
  { base := 4981764, dims := [(8, 1048576), (64, 256)], rst := 0x3AD3A000, rw := 0x3FFFFFFF, id := .laneTxTaps },
  -- LANE_TX_TAPS_NOW
  { base := 4981765, dims := [(8, 1048576), (64, 256)], rst := 0x3AD3A000 },
  -- LANE_PRBS_CFG
  { base := 4981766, dims := [(8, 1048576), (64, 256)], rst := 0x33, rw := 0x1FFF, fixes := [⟨8, 5, 1, 9, 10⟩], id := .lanePrbsCfg },
  -- LANE_PRBS_STATUS
  { base := 4981767, dims := [(8, 1048576), (64, 256)], rc := 0xFF00 },
  -- LANE_PRBS_ERRS
  { base := 4981768, dims := [(8, 1048576), (64, 256)], nw := 2, wide := true, id := .lanePrbsCnt },
  -- LANE_PRBS_BITS
  { base := 4981770, dims := [(8, 1048576), (64, 256)], nw := 2, wide := true, id := .lanePrbsCnt },
  -- LANE_TIMER_CFG
  { base := 917504, rst := 0x5407D0, rw := 0xFFFFFF, fixes := [⟨0, 16, 0, 99, 100⟩, ⟨20, 4, 0, 0, 1⟩] },
  -- LANE_TIMER_CFG2
  { base := 917505, rst := 0x2EE3E8, rw := 0xFFFFFF, fixes := [⟨0, 10, 0, 99, 100⟩, ⟨10, 14, 0, 499, 500⟩, ⟨10, 14, 12001, 16383, 12000⟩] },
  -- LANE_FLAP_CFG
  { base := 917506, rst := 0xFA00A, rw := 0x3FFFFFF, fixes := [⟨10, 16, 0, 0, 1⟩] },
  -- LANE_QUIET_CFG
  { base := 917507, rst := 0x14, rw := 0x3FF, fixes := [⟨0, 10, 0, 0, 1⟩] },
  -- LANE_ERR
  { base := 917508, w1c := 0x7 },
  -- LANE_CFG
  { base := 918528, dims := [(8, 256)], rst := 0x1402, rw := 0x3FFF, fixes := [⟨10, 4, 0, 3, 5⟩, ⟨10, 4, 9, 15, 5⟩], id := .laneCfg },
  -- LANE_CTRL
  { base := 918529, dims := [(8, 256)], id := .laneCtrl },
  -- LANE_STATUS
  { base := 918530, dims := [(8, 256)] },
  -- LANE_PORT_STATUS
  { base := 918531, dims := [(8, 256)] },
  -- LANE_TX_TAPS
  { base := 918532, dims := [(8, 256)], rst := 0x3AD3A000, rw := 0x3FFFFFFF, id := .laneTxTaps },
  -- LANE_TX_TAPS_NOW
  { base := 918533, dims := [(8, 256)], rst := 0x3AD3A000 },
  -- LANE_PRBS_CFG
  { base := 918534, dims := [(8, 256)], rst := 0x33, rw := 0x1FFF, fixes := [⟨8, 5, 1, 9, 10⟩], id := .lanePrbsCfg },
  -- LANE_PRBS_STATUS
  { base := 918535, dims := [(8, 256)], rc := 0xFF00 },
  -- LANE_PRBS_ERRS
  { base := 918536, dims := [(8, 256)], nw := 2, wide := true, id := .lanePrbsCnt },
  -- LANE_PRBS_BITS
  { base := 918538, dims := [(8, 256)], nw := 2, wide := true, id := .lanePrbsCnt }]

/-- Every register of BAR0. -/
def regTable : List RegDesc :=
  regRows0 ++ regRows1 ++ regRows2 ++ regRows3 ++ regRows4 ++ regRows5 ++ regRows6 ++ regRows7 ++ regRows8

end Sys2Proof.Machine
end

