-- ==== Sys2Proof/Machine/State.lean ====
section
/-! DEFINITION. The state of the TRJ9100 as plain data: the BAR0 registers as one sparse word map, everything the spec gives the
block besides registers as structures of lists and numbers, the queue of waiting commands, and the state after reset. -/

namespace Sys2Proof.Machine

/-- The reasons a step can stop with a fault. -/
inductive Fault where
  /-- Raised by no meaning of this model: every command of the table has an effect the spec describes (safe). -/
  | unreachable
deriving DecidableEq, Repr

/-- The reasons a step can be refused. -/
inductive Refusal where
  /-- A command of the table that has no meaning yet, by its mnemonic; raised only by an arm of `exec` (safe). -/
  | notModelled (mnemonic : String)
deriving DecidableEq, Repr

/-! ### What leaves the device -/

/-- One thing the device did to the outside, newest first in `State.outputs` (the model's own record of its pins and links). -/
inductive Output where
  /-- A frame sent on front-panel port `port`; `good` is false when its FCS was inverted (R55, R472). -/
  | frame (port : Nat) (data : List Byte) (good : Bool)
  /-- A MAC control frame sent by a port: pause (class 0 alone) or PFC, with the time for each class (R62). -/
  | pause (port : Nat) (pfc : Bool) (times : List Nat)
  /-- An MSI-X message (R428). -/
  | msi (addr : Nat) (data : Nat)
  /-- A PM_PME message (R78). -/
  | pme
  /-- A frame of the pair link, without its FCS (R530). -/
  | pair (data : List Byte)
  /-- A PMBus command: the regulator's address, command code and value (R623 to R625). -/
  | pmbus (address code value : Nat)
  /-- A quiet-mode signal of a port: 0 = enter marker, 1 = refresh burst, 2 = exit burst with an alignment-marker group (R121, R123). -/
  | quiet (port : Nat) (what : Nat)
  /-- An HBM command: stack, pseudo-channel, command, bank, row (R479). -/
  | hbm (stack pc cmd bank row : Nat)
  /-- The answer of a lane to a coefficient request of its partner; `limit` is "at limit" (R105, R113). -/
  | coeff (group lane : Nat) (limit : Bool)
  /-- The base page of autonegotiation: the technologies advertised, by speed code of Table PM-11, the FEC selected, C0 and C1 (R110). -/
  | anBase (group lane : Nat) (tech : List Nat) (fec pause : Nat)
  /-- The next pages of quiet mode: message code, OUI field, and the unformatted page that follows (R120). -/
  | anNext (group lane code oui page : Nat)
  /-- What lane `lane` transmits from now on: a pattern of Table SL-5, 8 for its port's data, 9 for what it receives, 10 for electrical idle (R114,
  R124, R565, Table SL-10). -/
  | lane (group lane source : Nat)
  /-- The device halts: every front-panel and pair transmitter ends its frame in progress with the inverted FCS and from then on sends only idle
  control blocks (Table DS-18). -/
  | halt
  /-- The transmit gate closes: every front-panel transmitter ends its frame in progress with the inverted FCS, and idle control blocks follow
  (R533). -/
  | gateClosed
deriving DecidableEq, Repr

/-! ### Events and rings (files 12, 13, 17) -/

/-- An event record raised and not yet written: its source, KIND (Table DS-13), header words 1 to 3 (GEN apart) and the
payload bytes of its continuations (R461). -/
structure EvtRec where
  src : Nat
  kind : Nat
  w1 : Nat := 0
  w2 : Nat := 0
  w3 : Nat := 0
  payload : List Byte := []
deriving DecidableEq, Repr

/-- What the device holds of a ring beside its context registers. -/
structure RingX where
  /-- Completions owed, O of R423. -/
  owed : Nat := 0
  /-- Completions held on chip, oldest first (R424): words 0 to 3, GEN apart. -/
  held : List (List Nat) := []
  /-- The descriptor cache: entries fetched and not yet consumed, in ring order (R417): eight words each, 32 at most. -/
  cache : List (List Nat) := []
  /-- The first 32 entries of a chain at the head that is longer than the cache, read in an earlier fetch (R419). -/
  front : List (List Nat) := []
  /-- An invalidation runs on the ring (R418). -/
  inval : Bool := false
  /-- The indexes of cached entries whose two copies differ, which their use will find (R436). -/
  upset : List Nat := []
  /-- Work begun and not complete: a disable waits for it (R432). -/
  begun : Nat := 0
  /-- The moderation timer runs (R429). -/
  timer : Bool := false
  /-- A published head not yet written back (R434). -/
  hwbDue : Bool := false
  /-- The indexes of entries whose copies differed once and that are not consumed yet (R436). -/
  misAt : List Nat := []
deriving DecidableEq, Repr

/-- The PCIe function's configuration state that the spec's rules act on (R77, R78, R403, R428). -/
structure CfgSpace where
  /-- Power state: 0 = D0, 3 = D3hot, 4 = D3cold. -/
  power : Nat := 0
  pmeEn : Bool := false
  pmeStatus : Bool := false
  /-- The MSI-X function mask. -/
  fnMask : Bool := false
  /-- PCIE_PERST_N is asserted (R609). -/
  perst : Bool := true
  /-- Link training is enabled (Table BU-4). -/
  training : Bool := false
  /-- PCIE_WAKE_N is driven (R78). -/
  wakeN : Bool := false
  /-- The tick at which the last PM_PME message was sent (R78). -/
  pmeAt : Option Nat := none
deriving DecidableEq, Repr

/-! ### Time (file 15) -/

/-- A domain counter: whole nanoseconds since 0 (seconds × 10^9 + ns), fraction in 2^−32 ns, and the adjustment not yet slewed
in, in 2^−32 ns (R501 to R503). -/
structure Dom where
  ns : Nat := 0
  frac : Nat := 0
  adj : Int := 0
deriving DecidableEq, Repr

/-- A copy of a domain in a timestamping cell: its time and the correction of R507, in 2^−32 ns. -/
structure CellCopy where
  time : Nat := 0
  corr : Int := 0
deriving DecidableEq, Repr

/-- A timestamping cell (R506): its two copies; a copy that lost parity is not used until the next sync (R522). -/
structure CellX where
  a : CellCopy := {}
  b : CellCopy := {}
  badA : Bool := false
  badB : Bool := false
deriving DecidableEq, Repr

/-- A pulse output (R515, R516). -/
structure PulseX where
  /-- The output is at its active level. -/
  active : Bool := false
  /-- The next edge, ns of the pulse's domain. -/
  next : Nat := 0
  /-- The end of the width in progress, ns of the domain of its edge, and that domain. -/
  endAt : Nat := 0
  dom : Nat := 0
deriving DecidableEq, Repr

/-- A stamp of a capture input: its time and domain (R518). -/
structure CaptStamp where
  ns : Nat
  dom : Nat
deriving DecidableEq, Repr

/-- A capture input: its FIFO, oldest first, and the tick of the last stamped edge (R519, R520). -/
structure CaptX where
  fifo : List CaptStamp := []
  last : Option Nat := none
deriving DecidableEq, Repr

/-- The time block (file 15). -/
structure TimeX where
  /-- Ticks of the time block's clock since the last full reset (R502). -/
  tick : Nat := 0
  domA : Dom := {}
  domB : Dom := {}
  /-- Syncs left before the written STAMP_DOMAIN takes effect; 0 = no change pending (R510). -/
  stampIn : Nat := 0
  cells : List (Nat × CellX) := []
  pulses : List (Nat × PulseX) := []
  capts : List (Nat × CaptX) := []
  /-- Loads that the cells take as a step at the next sync (R507). -/
  stepA : Bool := false
  stepB : Bool := false
  /-- Both domain times, in 2^−32 ns, at the last sync. -/
  syncA : Nat := 0
  syncB : Nat := 0
  /-- The tick of the last sync (R506). -/
  syncAt : Nat := 0
  /-- The stroke of the armed ordering-source switch (R512), and the least stroke since the last switch (R513). -/
  oswAt : Nat := 0
  floor : Option Nat := none
  /-- The source of a switch since the last sync: each cell follows its copy of it up to the switch's stroke (R513). -/
  oswOld : Option Nat := none
deriving DecidableEq, Repr

/-! ### Chip (file 19) -/

/-- Chip-level state beside the registers of file 19. -/
structure ChipX where
  /-- The run stroke of an accepted RUN that has not taken effect (R616). -/
  runAt : Option Nat := none
  /-- The quiesce stroke of an accepted QUIESCE that is not done (R617). -/
  quiesceAt : Option Nat := none
  /-- Stroke Q has been reached: received frames are discarded (R617). -/
  quiescing : Bool := false
  /-- SYS_RESET_N is asserted (R609). -/
  sysReset : Bool := false
  /-- The supplies are valid (R606). -/
  supplies : Bool := true
  /-- The STRAP pins (R612). -/
  straps : Nat := 0
  /-- The first stroke of the current run: the MACs take frames stamped from it on (R616). -/
  runFrom : Nat := 0
  /-- The stroke Q of a quiesce whose span has not ended: the run has not resumed (R618). -/
  spanFrom : Option Nat := none
  /-- The first stroke of the first run: sweep boundaries count from it. -/
  sweepFrom : Nat := 0
  /-- The device was Running when it halted: the status registers that follow the run keep their values (R472). -/
  ranAtHalt : Bool := false
deriving DecidableEq, Repr
/-! ### Frames (files 01, 04, 05) -/

/-- An ordering key (R27). -/
structure FKey where
  stroke : Nat := 0
  port : Nat := 0
  seq : Nat := 0
deriving DecidableEq, Repr

/-- Where a frame goes (Table CL-4). -/
inductive Dest where
  | undecided
  | drop
  | port (p : Nat)
  | group (g : Nat)
deriving DecidableEq, Repr

/-- The outcome of a frame's destination lookup (Table FT-6), kept until its verdict is known. -/
structure FwdDec where
  dest : Dest := .undecided
  /-- The next hop's slot contents when the frame is routed (row 1). -/
  nh : Option Nat := none
  /-- Row 1c with a trap copy. -/
  missTrap : Bool := false
  /-- The endpoint entry whose hit bit the decision sets (R211): its slot and its key bytes. -/
  hit : Option (Nat × List Byte) := none
  /-- The frame has no L2 header (R209). -/
  noL2 : Bool := false
  /-- An endpoint entry was found (Table FT-6). -/
  found : Bool := false
deriving DecidableEq, Repr

/-- A buffered header rewrite (R299): offset slot, byte, and the bytes to write. -/
structure Rwr where
  slot : Nat
  off : Nat
  bytes : List Byte
deriving DecidableEq, Repr

/-- What a frame of a transmit ring owes the host (R420, R451): its ring, the index of the descriptor that ends its chain, and
whether its completion waits for the transmit stamp. -/
structure TxRef where
  ring : Nat
  index : Nat
  tsReq : Bool
deriving DecidableEq, Repr

/-- A frame inside the device. `kind` is 0 for the frame itself, 1 for a trap copy, 2 for a mirror copy. -/
structure Frame where
  key : FKey := {}
  /-- The bytes from the first destination-address byte to the last byte before the FCS. -/
  data : List Byte := []
  region : Nat := 0
  pipe : Nat := 0
  pass : Nat := 0
  bank : Nat := 0
  epoch : Nat := 0
  zone : Nat := 0
  /-- The physical time stamp in quarter nanoseconds, and its domain (R65); a frame without one carries its admission time. -/
  stamp : Nat := 0
  stampDom : Nat := 0
  stamped : Bool := false
  /-- The frame must end with the inverted FCS (R55). -/
  bad : Bool := false
  /-- It is being forwarded cut-through (R57). -/
  cut : Bool := false
  hv : List Byte := []
  /-- The flow key built at its parse (R154); meaningful when KEY[7] of the header vector is set. -/
  fkey : List Byte := []
  dropCode : Bool := false
  act : Nat := 0
  tcam : Option Nat := none
  dec : FwdDec := {}
  verd : Option (Nat × Nat) := none
  rewrites : List Rwr := []
  dest : Dest := .undecided
  trapMade : Bool := false
  reason : Nat := 0
  kind : Nat := 0
  origLen : Nat := 0
  trunc : Bool := false
  colour : Nat := 0
  vid : Option Nat := none
  tx : Option TxRef := none
  /-- The handle of its buffer: pool × 2^16 + buffer. -/
  buf : Nat := 0
  /-- Its lookup has waited for a removal (R219). -/
  waited : Bool := false
deriving DecidableEq, Repr

/-- A slot of the reorder buffer (R157): its number, the engine that parses it and whether its parse is complete. -/
structure RobSlot where
  slot : Nat
  eng : Nat
  done : Bool := false
  frame : Frame
deriving DecidableEq, Repr

/-- An ingress pipeline (files 04, 05). -/
structure PipeX where
  /-- Headers that wait in the cistern, per input of R155. -/
  inq : List (Nat × List Frame) := []
  rrIn : Nat := 0
  rrEng : Nat := 0
  nextSlot : Nat := 0
  rob : List RobSlot := []
  /-- Parser table entries in error until they are rewritten (R158), numbered as `IP_PARSE_ERR_LOC`. -/
  badEnt : List Nat := []
  /-- Frames released by the reorder buffer, waiting for the classifier. -/
  cls : List Frame := []
  /-- Classified frames, waiting for the table block. -/
  tbl : List Frame := []
  /-- Frames with FLOW_EN, waiting for their lookup request to be issued. -/
  flow : List Frame := []
  /-- The last switch stroke, while the old bank drains (R189). -/
  lastSwitch : Option Nat := none
  /-- Mirror counts, per session × 1024 + ingress port (R350). -/
  mir : List (Nat × Nat) := []
deriving DecidableEq, Repr

/-- Frames on the recirculation path of a region, with the stroke of their next pass, in order of their previous keys (R31). -/
structure RecircX where
  waiting : List Frame := []
  /-- The frames recirculated into a stroke so far. -/
  seq : List (Nat × Nat) := []
deriving DecidableEq, Repr

/-! ### Tables (file 06) -/

/-- A change of a table unit not yet old enough to be forgotten (R212 to R214): the unit, its contents before, the stroke of the
logical point, and whether a frame made it. -/
structure TblChange where
  slot : Nat
  old : Nat
  stroke : Nat
  byFrame : Bool
deriving DecidableEq, Repr

/-- A learn request (R215). -/
structure LearnReq where
  key : FKey
  vid : Nat
  mac : Nat
deriving DecidableEq, Repr

/-- A command-ring entry being worked on (R453): its ring and index, opcode, table, region, pipe, index, count, SCHED, stroke,
buffer address, completion ring and payload. -/
structure CmdX where
  ring : Nat
  ix : Nat
  op : Nat
  table : Nat
  region : Nat
  pipe : Nat
  index : Nat
  count : Nat
  sched : Bool
  stroke : Nat
  addr : Nat
  /-- The completion ring of its ring. -/
  cq : Nat := 0
  payload : List Byte := []
deriving DecidableEq, Repr

/-- A unit the compare walker found different (R227): table, unit, and whether a command has written it since. -/
structure CmpX where
  table : Nat
  unit : Nat
  written : Bool := false
deriving DecidableEq, Repr

/-- A hit that waits for its logical point (R212): the frame's key, and the entry hit, by its slot and its key bytes. -/
structure HitReq where
  key : FKey
  slot : Nat
  who : List Byte
deriving DecidableEq, Repr

/-- The table block of a region (file 06). -/
structure TblX where
  log : List TblChange := []
  learns : List LearnReq := []
  /-- Hits not yet applied (R39, R212). -/
  hits : List HitReq := []
  /-- The stroke whose learns are counted, and the count (R214). -/
  learnAt : Nat := 0
  learnN : Nat := 0
  limitN : Nat := 0
  /-- Every sweep boundary up to this stroke is done (R218); `none`: those before the first run's stroke. -/
  swept : Option Nat := none
  /-- The sweep boundary of the pending removals, if any are pending, and the slots of the entries they remove. -/
  removal : Option Nat := none
  aging : List Nat := []
  sched : List CmdX := []
  /-- Where the compare walker stands: table and unit. -/
  cmpAt : Nat × Nat := (0, 0)
  cmpDiff : List CmpX := []
deriving DecidableEq, Repr

/-! ### Flow engines and pumps (files 07 to 09) -/

/-- A change of a record's stable view (R247): partition and key, the stroke of the change, and the view before it: word 10's
TCP and VS and the STATE word, or absent. -/
structure ViewChange where
  part : Nat
  key : List Byte
  stroke : Nat
  old : Option (Nat × Nat)
deriving DecidableEq, Repr

/-- An entry of a flow engine's lookup table (R246). -/
structure Lookup where
  frame : Frame
  part : Nat
  key : List Byte
  dir : Nat
  /-- The bucket read has returned, or the cache answered. -/
  ready : Bool := false
  /-- The frame has been released by a verdict pass (R247). -/
  released : Bool := false
  /-- A pass of this frame is dispatched or waits for dispatch. -/
  inPass : Bool := false
  /-- Its verdict pass ended without a release; the frame waits for its commit pass. -/
  held : Bool := false
  /-- When the request was issued, in ordering-source ns (R252). -/
  at_ : Nat := 0
deriving DecidableEq, Repr

/-- An export entry buffered by EMIT: stream and words (R301). -/
structure ExpEnt where
  stream : Nat
  words : List Nat
deriving DecidableEq, Repr

/-- A pump context (R288) running a pass (R289). -/
structure PumpCtx where
  look : Lookup
  verdict : Bool
  pc : Nat
  g : List Nat
  /-- The record window, 64 bytes, and whether its contents are final (R291, R292). -/
  win : List Byte
  winOk : Bool := false
  /-- The metadata window, 16 words (Table PU-1). -/
  md : List Nat
  isNew : Bool := false
  latency : Nat
  rwr : List Rwr := []
  exps : List ExpEnt := []
  hist : List (Nat × Nat) := []
  hadds : Nat := 0
  verd : Option (Nat × Nat) := none
  issued : Nat := 0
  restarts : Nat := 0
  /-- When the pass was first dispatched, in ordering-source ns (R601). -/
  since : Nat
  /-- The wait the context is in, as COND and its stream (R303); 4 and 7 are COMMIT's own waits, for RECORD and for CREDIT. -/
  wait : Option (Nat × Nat) := none
deriving DecidableEq, Repr

/-- A pass that waits for the dispatcher: its frame's lookup, the kind of pass, the restarts it has had, and when it was first
dispatched. -/
structure PassReq where
  look : Lookup
  verdict : Bool
  restarts : Nat := 0
  /-- Of a pass dispatched before: when it first was, its LATENCY and its metadata, which every restart keeps (R293). -/
  since : Option Nat := none
  latency : Nat := 0
  md : List Nat := []
deriving DecidableEq, Repr

/-- A snapshot under way (R261, R262): its command, boundary, whether the boundary has been reached, and the records as they
stood there. -/
structure SnapX where
  cmd : CmdX
  stroke : Nat
  out : Nat := 0
  len : Nat := 0
  mask : Nat := 0
  /-- The image is fixed (step 3 of R249): that of the region-local partitions, and the whole of it. -/
  takenLocal : Bool := false
  taken : Bool := false
  /-- The buckets changed since, whose copies the staging area holds (R262). -/
  staged : List Nat := []
  /-- The records of the image, by physical bucket × 4 + slot (R262). -/
  image : List (Nat × List Byte) := []
deriving DecidableEq, Repr

/-- A flow engine (files 07, 09). -/
structure EngX where
  lookups : List Lookup := []
  passes : List PassReq := []
  views : List ViewChange := []
  sched : List CmdX := []
  snap : Option SnapX := none
  /-- Records the cache holds, most recently used first, and the dirty ones, by bucket × 4 + slot (R245). -/
  cached : List Nat := []
  dirty : List Nat := []
  /-- The last sweep boundary done (R255). -/
  swept : Option Nat := none
  /-- The pump last served by the dispatcher (R289). -/
  rrPump : Nat := 31
  /-- Reports of lost records that found the report queue full (R254). -/
  losses : List EvtRec := []
deriving DecidableEq, Repr

/-! ### Cistern and switch core (file 10) -/

/-- A buffer of a region's cistern (R329): reference count, owner side (1 = egress), ingress port and class it counts for. -/
structure BufX where
  count : Nat := 0
  egress : Bool := false
  port : Nat := 0
  cls : Nat := 0
  /-- Its data is in error (R571, R576): frames that read it are discarded. -/
  corrupt : Bool := false
deriving DecidableEq, Repr

/-- Where a queued frame's data lies (R338 to R341). -/
inductive Place where
  | cistern
  | toSump
  | sump
  | staging
deriving DecidableEq, Repr

/-- An entry of an ingress queue (R333): its frame, enqueue sequence, place, whether a flush marked it (R337), whether its
colour is still to come (R389) and whether it is to be discarded as red. -/
structure QEnt where
  frame : Frame
  seq : Nat
  place : Place := .cistern
  marked : Bool := false
  waitCol : Bool := false
  /-- The policer's region, when the frame is red and its profile says DROP_RED (R389). -/
  dropRed : Option Nat := none
  /-- The first sump page of the frame and the pages it takes (R340). -/
  pages : List Nat := []
  /-- The byte of its first page at which its data begins. -/
  off : Nat := 0
  /-- Its data was found in error, or lay in a sump page that was retired (R343, R571). -/
  lost : Bool := false
  /-- Its data in the sump was found in error by the scrubber (R571). -/
  corrupt : Bool := false
deriving DecidableEq, Repr

/-- A queue: one port list or one multicast list of a VOQ. -/
structure QueueX where
  ents : List QEnt := []
  spill : Bool := false
  /-- The last page of its sump segment while it has room, and the bytes used in it (R340). -/
  page : Option Nat := none
  fill : Nat := 0
deriving DecidableEq, Repr

/-- A frame crossing from an input to an output (R345): cells sent, cells in all, and its egress handle. -/
structure XferX where
  ent : QEnt
  sent : Nat
  total : Nat
  got : Nat := 0
  buf : Nat
  cls : Nat
  /-- A cell of it was in error (R355, R357). -/
  bad : Bool := false
deriving DecidableEq, Repr

/-- An entry of an egress class queue (R352): its frame and the time it entered. -/
structure EgEnt where
  frame : Frame
  at_ : Nat
deriving DecidableEq, Repr

/-- A token bucket of R380: tokens in 1/8,000 byte, and the time of its last refill. -/
structure Bucket where
  tok : Int := 0
  last : Nat := 0
  /-- The bucket has been used since reset; it starts full. -/
  used : Bool := false
  /-- When it is on the wheel: the slot's time (R381). -/
  next : Option Nat := none
deriving DecidableEq, Repr

/-- An egress class queue with its scheduler state (R353, R376, R377). -/
structure EgQ where
  ents : List EgEnt := []
  avg : Nat := 0
  tag : Nat := 0
  bucket : Bucket := {}
  gateWait : Option Nat := none
  wasEmpty : Bool := true
  wasElig : Bool := false
  /-- Since when it has been eligible without being selected, in ordering-source ns (R377). -/
  since : Option Nat := none
  /-- Its head was found ineligible since the class was empty. -/
  blocked : Bool := false
deriving DecidableEq, Repr

/-- A group or port of the scheduler: start tag, virtual time and shaper (R376, R380). -/
structure SchedX where
  tag : Nat := 0
  vt : Nat := 0
  bucket : Bucket := {}
  wasEmpty : Bool := true
  wasElig : Bool := false
  /-- The class or group that its round robin served last (R15). -/
  last : Nat := 15
deriving DecidableEq, Repr

/-- The gate list of a port: the pending bank's activation time (R384). -/
structure GateX where
  pendAt : Option Nat := none
  base : Nat := 0
  len : Nat := 0
  unit : Nat := 0
  cycle : Nat := 0
  actBase : Nat := 0
  /-- Per class, the longest unbroken open window of the active bank's cycle as it was computed when the bank became active; none: it never closes
  (R383). -/
  longest : List (Option Nat) := []
deriving DecidableEq, Repr

/-- A policer's state (R387), in 1/8,000 byte; `set` says that it has been used or filled since reset, when it was full. -/
structure PolX where
  tc : Nat := 0
  te : Nat := 0
  last : Nat := 0
  used : Bool := false
deriving DecidableEq, Repr

/-- A meter slot (R385): its frame's key, and once completed its policer region, policer, length and pre-colour. -/
structure MeterSlot where
  key : FKey
  done : Bool := false
  req : Option (Nat × Nat × Nat × Nat) := none
deriving DecidableEq, Repr

/-- A meter request at its policer region: source region, key, policer, length, pre-colour (R386). -/
structure MeterReq where
  src : Nat
  key : FKey
  pol : Nat
  len : Nat
  pre : Nat
deriving DecidableEq, Repr

/-- A queued policer change (R390): stroke, policer, EN and profile. -/
structure PolPush where
  stroke : Nat
  pol : Nat
  en : Nat
  prof : Nat
deriving DecidableEq, Repr

/-- A transmit chain begun and not completed (R420, R451): its ring and first index, completion ring, the bits [31:16] of its
completion's word 0, its length, the copies of its frame, and its completion words once they are known. -/
structure TxX where
  ring : Nat
  index : Nat
  cq : Nat
  flags : Nat := 0
  len : Nat := 0
  tsReq : Bool := false
  csumIp : Bool := false
  csumL4 : Bool := false
  chan : Nat := 0
  /-- Its fragments, as host address and length, until its data has been read. -/
  frags : Option (List (Nat × Nat)) := none
  copies : Nat := 0
  cpl : Option (List Nat) := none
deriving DecidableEq, Repr

/-- A front-panel port beside its registers: the pause time in quanta in force for each priority that its partner has paused (R59,
R64; priority 0 in pause mode). -/
structure PortX where
  quanta : List (Nat × Nat) := []
  /-- In near-end loopback, the frames sent and not received again, oldest first, each with whether its FCS is good (Table SL-10). -/
  loop : List (List Byte × Bool) := []
deriving DecidableEq, Repr

/-- The bring-up of a port or of the pair link beside its registers (file 03): its state, the lanes and speed in use, the lanes that
missed the training target in every failed attempt of the sequence (R114), the times at which it went down, in ns of the time
block's ticks (R118), and when a refresh burst was last seen (R122). -/
structure LinkX where
  state : Nat := 0
  width : Nat := 0
  speed : Nat := 0
  missed : Option (List Nat) := none
  downs : List Nat := []
  burst : Nat := 0
deriving DecidableEq, Repr

/-- A lane beside its registers. Bits of a generator are numbered from the tick at which it was enabled. -/
structure LaneX where
  /-- 0x24 has been logged in this attempt (R113). -/
  limit : Bool := false
  /-- Losses of signal shorter than the debounce (R117). -/
  shortLoss : Nat := 0
  /-- The rate that its port was last configured for: 0 = 212.5, 1 = 106.25, 2 = 53.125, 3 = 25.78125, 4 = 10.3125 Gb/s (R124). -/
  rate : Nat := 0
  /-- The tick at which the generator was enabled or its rate last changed, the bits it had sent by then, and its shift register at the first
  (R124). -/
  genAt : Nat := 0
  genBase : Nat := 0
  seed : Nat := 0
  /-- The bits that INJECT inverts, and the bit of every 2^k that INJECT_RATE does (R128). -/
  injAt : List Nat := []
  injOff : Nat := 0
  /-- The tick up to which a locked checker's counts are shown (R125). -/
  lockAt : Nat := 0
deriving DecidableEq, Repr

/-- What the active keeps of a stroke for its ledger record (R538): SEQ values consumed by port, skips as port, SEQ and KIND, and the FCS
of every received frame by its ordering key's number. -/
structure LedX where
  stroke : Nat
  counts : List (Nat × Nat) := []
  skips : List (Nat × Nat × Nat) := []
  fcs : List (Nat × Nat) := []
deriving DecidableEq, Repr

/-- A ledger record being matched (R539): its stroke and FCSD, the CRC register so far, and the slots left as port, SEQ and whether the
frame is a skip of kind 1. -/
structure MatchX where
  stroke : Nat
  fcsd : Nat
  acc : Nat := 0xFFFFFFFF
  todo : List (Nat × Nat × Bool) := []
deriving DecidableEq, Repr

/-- A frame accepted by a lockstep standby's MAC that waits for its ledger slot (R539), the tick it arrived at, and its stroke by the device's own
source (R548). -/
structure HeldRx where
  frame : Frame
  at_ : Nat
  own : Nat
deriving DecidableEq, Repr

/-- A table capture (R553): its stroke and base address. -/
structure CapX where
  stroke : Nat
  base : Nat
deriving DecidableEq, Repr

/-- The redundancy pair beside its registers (file 16). -/
structure PairX where
  /-- The state a Reverting unit came from. -/
  back : Nat := 0
  /-- The undebounced PAIR_HOLD_IN reads held. -/
  heldIn : Bool := false
  /-- A chattering line is treated as held (R549). -/
  chatter : Bool := false
  /-- PAIR_HOLD_IN has read released for RELEASE_US (R534). -/
  released : Bool := false
  /-- A claim waits for its check of step 3. -/
  claiming : Bool := false
  /-- The back-off of step 4 runs. -/
  backoff : Bool := false
  /-- A YIELD_ACK has been received: the unit claims at the release (R546). -/
  acked : Bool := false
  /-- What the last HELLO showed: a HELLO has arrived, HOLDING, PREFERRED, HEALTHY, STROKE and FPRINT. -/
  hello : Bool := false
  peerHolding : Bool := false
  peerPreferred : Bool := false
  peerHealthy : Bool := false
  peerStroke : Nat := 0
  peerPrint : Nat := 0
  /-- The last STATE it showed other than Reverting: the state that a Reverting peer came from. -/
  peerBase : Nat := 0
  /-- SEQ of the next pair frame sent, and of the last one received. -/
  txSeq : Nat := 0
  rxSeq : Option Nat := none
  /-- The next stroke whose record is to be sent, and the strokes kept for records. -/
  ledNext : Option Nat := none
  led : List LedX := []
  recs : List MatchX := []
  held : List HeldRx := []
  /-- The tick at which the record of each stroke arrived, oldest first (R539), and that at which SRC_LEDGER cleared (R548). -/
  arrived : List (Nat × Nat) := []
  ownSince : Option Nat := none
  /-- The stroke of an accepted JOIN (R545), the stroke from which digests are enforced (R544), and the handover stroke of a yield. -/
  joinAt : Option Nat := none
  enforce : Nat := 0
  yieldAt : Option Nat := none
  /-- The least own stroke after a takeover (R546, R548). -/
  floor : Option Nat := none
  /-- The next digest period to close, and the active's sums that wait for comparison (R543, R544). -/
  digNext : Option Nat := none
  peerDigs : List (Nat × List Nat) := []
  cap : Option CapX := none
  /-- In Standby-Cold, the first stroke whose changes the device does not make: those of earlier strokes, taken in lockstep, it completes (R536,
  R542). -/
  coldFrom : Option Nat := none
  /-- The tick since which the conditions of a reversion have held (R547). -/
  holdoff : Option Nat := none
deriving DecidableEq, Repr

/-- A request that waits at a pseudo-channel (R480): what it asks for, how many of its columns are still to be issued, how often a later
request has passed it, and whether its read is reissued (R481). -/
structure HbmReq where
  ask : HbmAsk
  left : Nat := 1
  passed : Nat := 0
  again : Bool := false
deriving DecidableEq, Repr

/-- A command in the retry buffer of a pseudo-channel, the alerts whose window contained it (R485, R486), whether a neighbour refresh
issued it (R484), and the request that a read serves. -/
structure RetryEnt where
  cmd : HbmCmd
  alerts : Nat := 0
  nbr : Bool := false
  req : Option HbmReq := none
deriving DecidableEq, Repr

/-- An HBM pseudo-channel (file 14): its open rows by bank; the activate table of each bank, as row and count in entry order (R483); what
waits at requester 0, with whether a neighbour refresh issues it, and at requester 1; the retry buffer, oldest first; reads whose data has
not been delivered, with the request they serve (R481); the bank whose refresh is next and the refreshes postponed (R482); the requests of
requesters 2 to 6, oldest first (R480); the tick of each bank's last activate or column command; the columns, as row × 32 + column, whose
data was delivered in error and not taken yet (R481); the rows that are redirected, each with its spare row, newest first (R478). -/
structure HbmPc where
  rows : List (Nat × Option Nat) := []
  acts : List (Nat × List (Nat × Nat)) := []
  maint : List (HbmCmd × Bool) := []
  replay : List RetryEnt := []
  retry : List RetryEnt := []
  reads : List (HbmCmd × Option HbmReq) := []
  refBank : Nat := 0
  postponed : List (Nat × Nat) := []
  queue : List HbmReq := []
  used : List (Nat × Nat) := []
  bad : List Nat := []
  moved : List (Nat × Nat) := []
  denied : Nat := 0
deriving DecidableEq, Repr

/-- An HBM controller beside its registers: the `HBM_CFG` word in use (R497) and the rate of the frequency change in progress. -/
structure HbmX where
  cfg : Nat := 1024 + 4 * 2 ^ 17 + 32 * 2 ^ 21
  rateTo : Nat := 0
deriving DecidableEq, Repr

/-- A background scrubber: its next line, the tick at which its lap began, and that the lap is overdue (R571, R572). -/
structure ScrubX where
  line : Nat := 0
  start : Nat := 0
  late : Bool := false
deriving DecidableEq, Repr

/-- A range pass in progress: its memory or pseudo-channel, and its first and last lines (R573). -/
structure PassX where
  mem : Nat
  first : Nat
  last : Nat
deriving DecidableEq, Repr

/-- The load-step governor and AVS beside their registers (file 20): the step that each region waits for (1 down, 2 up), one more than the tick of its last
step and of its reaching level 8, the current budget in mA and the tick of its last refill, the rotating pointer, and whether the
adaptive voltage is in use. -/
structure PwrX where
  want : List (Nat × Nat) := []
  stepAt : List (Nat × Nat) := []
  fullAt : List (Nat × Nat) := []
  budget : Nat := 12500
  budgetAt : Nat := 0
  ptr : Nat := 0
  fixed : Bool := false
  /-- Half a millivolt above `SET_MV` (R624). -/
  half : Bool := false
  /-- The exponent of the regulator's linear format, as VOUT_MODE gave it (R623). -/
  voutExp : Option Int := none
deriving DecidableEq, Repr

/-- The counter block beside its registers: the boundaries taken by the pending arms, and the last freeze boundary (R594, R595). -/
structure CountX where
  freezeAt : Nat := 0
  thawAt : Nat := 0
  snapAt : Nat := 0
deriving DecidableEq, Repr

/-- The test access port (R646): the instruction loaded (0 BYPASS, 1 IDCODE, 2 SAMPLE/PRELOAD, 3 EXTEST, 4 HIGHZ), the register it
selects (0 bypass, 1 identity, 2 boundary) with what that register captured, and the boundary register. -/
structure TapX where
  instr : Nat := 0
  sel : Nat := 0
  data : Nat := 0
  boundary : Nat := 0
deriving DecidableEq, Repr

/-- The ingress and egress sides of a region's cistern and traffic manager. -/
structure RegX where
  /-- Enqueue sequence numbers, per VOQ d × 16 + c (R333). -/
  vseq : List (Nat × Nat) := []
  /-- Queues, by (d × 16 + c) × 68 + list; lists 0–66 are port lists, 67 the multicast list. -/
  voq : List (Nat × QueueX) := []
  bufs : List (Nat × BufX) := []
  /-- Units of the ingress counters: per local port, and per local port × 16 + class (Table CS-3). -/
  portUnits : List (Nat × Nat) := []
  clsUnits : List (Nat × Nat) := []
  /-- Asserted float valves: class valves q, and 2000 + p for port pause; the region spill valve apart. -/
  valves : List Nat := []
  spillValve : Bool := false
  /-- Class round robin per output and urgency (R336). -/
  rrCls : List (Nat × Nat) := []
  /-- Sump pages in use (R340). -/
  pages : List Nat := []
  eq : List (Nat × EgQ) := []
  /-- Egress units per queue q, and their hold and drop valves. -/
  eqUnits : List (Nat × Nat) := []
  holdV : List Nat := []
  dropV : List Nat := []
  groups : List (Nat × SchedX) := []
  ports : List (Nat × SchedX) := []
  promoted : List Nat := []
  gates : List (Nat × GateX) := []
  /-- Gate entries in parity error, as port × 512 + bank × 256 + entry (R393). -/
  gateBad : List Nat := []
  slots : List MeterSlot := []
  /-- Frames whose open slot was found in error: discarded at their release (R393). -/
  slotBad : List FKey := []
  /-- The meter watermark it last sent (R386). -/
  meterWm : Nat := 0
  reqs : List MeterReq := []
  pushes : List PolPush := []
  pols : List (Nat × PolX) := []
  /-- Histogram bins: queue × 128 + bin; and maxima: queue × 2 + (0 depth, 1 delay) (R391). -/
  dip : List (Nat × Nat) := []
  dipMax : List (Nat × Nat) := []
  dipAt : Nat := 0
  /-- Frames counted by the egress pipeline as a rewrite not applied (R299), and frames dropped without an L2 header (R209). -/
  rwrSkipped : Nat := 0
  noL2 : Nat := 0
deriving DecidableEq, Repr

/-- The windlass (R344): grant and accept pointers of the five planes, and the frames in progress by input × 8 + output. -/
structure WindX where
  g : List (Nat × Nat) := []
  a : List (Nat × Nat) := []
  xfer : List (Nat × XferX) := []
deriving DecidableEq, Repr


/-! ### The whole state -/

/-- The state of the device. -/
structure State where
  /-- Every BAR0 register word that differs from its reset value, by word offset. -/
  regs : List (Nat × Word) := []
  /-- The high word latched by the last read of a 64-bit value's low word, by the low word's offset (R10). -/
  latch : List (Nat × Word) := []
  /-- The low word written to a 64-bit RW value and not yet taken, by its offset (R10). -/
  hold : List (Nat × Option Word) := []
  /-- What the last BAR0 or BAR2/BAR4 read returned (the model's own: the data on the bus). -/
  readData : List Word := []
  /-- Host memory that the device has written or that host software has placed: bytes other than 0, by address. -/
  hostMem : List (Nat × Byte) := []
  /-- What the device has sent, newest first (the model's own). -/
  outputs : List Output := []
  /-- Event records raised and not yet written, oldest first (R578, R579). -/
  evts : List EvtRec := []
  rings : List (Nat × RingX) := []
  cfg : CfgSpace := {}
  time : TimeX := {}
  chip : ChipX := {}
  /-- The last stroke and the frames stamped in it, by global port (R27, R29). -/
  lastKey : List (Nat × (Nat × Nat)) := []
  /-- Ingress pipelines, by region × 2 + pipe. -/
  pipes : List (Nat × PipeX) := []
  recirc : List (Nat × RecircX) := []
  /-- TCAM entries of 1,024 bits (Table CL-2) and action entries of 128 bits, by (region × 2 + pipe) × 32768 + entry. -/
  tcam : List (Nat × Nat) := []
  actions : List (Nat × Nat) := []
  /-- Endpoint slots of 96 bits by region × 2^20 + slot; route units of 128 bits and a family bit above them, by
  region × 2^18 + unit; VLAN entries by region × 2^12 + VID (file 06). -/
  eps : List (Nat × Nat) := []
  routes : List (Nat × Nat) := []
  vlans : List (Nat × Nat) := []
  tbls : List (Nat × TblX) := []
  /-- Flow slots of 256 bits (R281), by engine × 2^26 + physical bucket × 4 + slot. -/
  slots : List (Nat × Nat) := []
  engs : List (Nat × EngX) := []
  /-- Pump contexts that run a pass, by (engine × 32 + pump) × 8 + context. -/
  ctxs : List (Nat × Option PumpCtx) := []
  /-- Histogram bins of flow records, by engine × 2^18 + set × 64 + bin (R277). -/
  hists : List (Nat × Nat) := []
  regx : List (Nat × RegX) := []
  wind : WindX := {}
  /-- Frames sent to the discard port (R14). -/
  discards : Nat := 0
  /-- Digest sums by period × 16 + sum: flow engines 0–7, table blocks 8–15 (R543). -/
  digs : List (Nat × Nat) := []
  /-- Where copy 1 of a control-store word differs from copy 0: the XOR of the two, by engine × 16384 + address (R310). -/
  pmp2 : List (Nat × Nat) := []
  /-- Binding entries whose copies differ until they are rewritten (R557), by engine × 512 + bank × 256 + routine, with one more than the LOC of the
  error. -/
  bindErr : List (Nat × Nat) := []
  /-- Routine histograms and their maxima, by engine × 2^15 + routine × 128 + bin, bin 64 the maximum (R601). -/
  rtHist : List (Nat × Nat) := []
  /-- Transmit chains begun and not completed, in consumption order (R425). -/
  txs : List TxX := []
  /-- Frames that a host channel has taken from its queues and not delivered, with their class (R421), by channel 0–15. -/
  hostRx : List (Nat × Option (Frame × Nat)) := []
  /-- Round robin of the wellhead's block arbiters: the ring after the last one granted, by host channel, and 16 for command rings (R420, R422). -/
  rrHost : List (Nat × Nat) := []
  pports : List (Nat × PortX) := []
  /-- Bring-up, by lane group × 64 + lowest lane, and lanes, by lane group × 64 + lane. -/
  links : List (Nat × LinkX) := []
  lanes : List (Nat × LaneX) := []
  /-- Multicast group entries, as region × 2^17 + bank × 2^14 + group, and nodes, as region × 2^17 + 2^16 + node, whose reads fail (R556), each with the
  LOC of its detections. -/
  mcBad : List (Nat × Nat) := []
  pairx : PairX := {}
  /-- HBM pseudo-channels, by stack × 32 + pseudo-channel, and controllers. -/
  hbmPc : List (Nat × HbmPc) := []
  hbmx : List (Nat × HbmX) := []
  /-- Scrubbers, by unit × 8 + memory, and range passes, by unit: regions 0–7, stacks 8–11. -/
  scrub : List (Nat × ScrubX) := []
  passes : List (Nat × Option PassX) := []
  pwr : PwrX := {}
  tapx : TapX := {}
  countx : CountX := {}
  /-- The model's own counter of free values taken (`Config`): no statement rests on its value. -/
  free : Nat := 0
  /-- The commands that wait, first in, first out. -/
  pending : List Instr := []
deriving DecidableEq, Repr

/-- The device right after a full reset, as host software first meets it: Priming (R606, Table BU-6), every register at its
reset value, every memory empty, no command waiting. -/
def State.reset : State := {}

end Sys2Proof.Machine
end

