-- ==== Sys2Proof/Machine/Ops.lean ====
section
/-! DEFINITION. The named operations every command uses: reading and writing register fields, strokes, raising events
(R578, R579), MSI-X messages (R428, R429), host memory, rings (R409, R410, R423, R424) and halting (R472, R561). -/

namespace Sys2Proof.Machine

/-! ### The parts of the state

One update per part, so that no later definition writes a record of 47 fields out. -/

/-- Put `regs`. -/
def State.withRegs (s : State) (x : List (Nat × Word)) : State := { s with regs := x }
/-- Put `latch`. -/
def State.withLatch (s : State) (x : List (Nat × Word)) : State := { s with latch := x }
/-- Put `hold`. -/
def State.withHold (s : State) (x : List (Nat × Option Word)) : State := { s with hold := x }
/-- Put `readData`. -/
def State.withReadData (s : State) (x : List Word) : State := { s with readData := x }
/-- Put `hostMem`. -/
def State.withHostMem (s : State) (x : List (Nat × Byte)) : State := { s with hostMem := x }
/-- Put `outputs`. -/
def State.withOutputs (s : State) (x : List Output) : State := { s with outputs := x }
/-- Put `evts`. -/
def State.withEvts (s : State) (x : List EvtRec) : State := { s with evts := x }
/-- Put `rings`. -/
def State.withRings (s : State) (x : List (Nat × RingX)) : State := { s with rings := x }
/-- Put `cfg`. -/
def State.withCfg (s : State) (x : CfgSpace) : State := { s with cfg := x }
/-- Put `time`. -/
def State.withTime (s : State) (x : TimeX) : State := { s with time := x }
/-- Put `chip`. -/
def State.withChip (s : State) (x : ChipX) : State := { s with chip := x }
/-- Put `lastKey`. -/
def State.withLastKey (s : State) (x : List (Nat × (Nat × Nat))) : State := { s with lastKey := x }
/-- Put `pipes`. -/
def State.withPipes (s : State) (x : List (Nat × PipeX)) : State := { s with pipes := x }
/-- Put `recirc`. -/
def State.withRecirc (s : State) (x : List (Nat × RecircX)) : State := { s with recirc := x }
/-- Put `tcam`. -/
def State.withTcam (s : State) (x : List (Nat × Nat)) : State := { s with tcam := x }
/-- Put `actions`. -/
def State.withActions (s : State) (x : List (Nat × Nat)) : State := { s with actions := x }
/-- Put `eps`. -/
def State.withEps (s : State) (x : List (Nat × Nat)) : State := { s with eps := x }
/-- Put `routes`. -/
def State.withRoutes (s : State) (x : List (Nat × Nat)) : State := { s with routes := x }
/-- Put `vlans`. -/
def State.withVlans (s : State) (x : List (Nat × Nat)) : State := { s with vlans := x }
/-- Put `tbls`. -/
def State.withTbls (s : State) (x : List (Nat × TblX)) : State := { s with tbls := x }
/-- Put `slots`. -/
def State.withSlots (s : State) (x : List (Nat × Nat)) : State := { s with slots := x }
/-- Put `engs`. -/
def State.withEngs (s : State) (x : List (Nat × EngX)) : State := { s with engs := x }
/-- Put `ctxs`. -/
def State.withCtxs (s : State) (x : List (Nat × Option PumpCtx)) : State := { s with ctxs := x }
/-- Put `hists`. -/
def State.withHists (s : State) (x : List (Nat × Nat)) : State := { s with hists := x }
/-- Put `regx`. -/
def State.withRegx (s : State) (x : List (Nat × RegX)) : State := { s with regx := x }
/-- Put `wind`. -/
def State.withWind (s : State) (x : WindX) : State := { s with wind := x }
/-- Put `discards`. -/
def State.withDiscards (s : State) (x : Nat) : State := { s with discards := x }
/-- Put `digs`. -/
def State.withDigs (s : State) (x : List (Nat × Nat)) : State := { s with digs := x }
/-- Put `pmp2`. -/
def State.withPmp2 (s : State) (x : List (Nat × Nat)) : State := { s with pmp2 := x }
/-- Put `bindErr`. -/
def State.withBindErr (s : State) (x : List (Nat × Nat)) : State := { s with bindErr := x }
/-- Put `rtHist`. -/
def State.withRtHist (s : State) (x : List (Nat × Nat)) : State := { s with rtHist := x }
/-- Put `txs`. -/
def State.withTxs (s : State) (x : List TxX) : State := { s with txs := x }
/-- Put `hostRx`. -/
def State.withHostRx (s : State) (x : List (Nat × Option (Frame × Nat))) : State := { s with hostRx := x }
/-- Put `rrHost`. -/
def State.withRrHost (s : State) (x : List (Nat × Nat)) : State := { s with rrHost := x }
/-- Put `pports`. -/
def State.withPports (s : State) (x : List (Nat × PortX)) : State := { s with pports := x }
/-- Put `links`. -/
def State.withLinks (s : State) (x : List (Nat × LinkX)) : State := { s with links := x }
/-- Put `lanes`. -/
def State.withLanes (s : State) (x : List (Nat × LaneX)) : State := { s with lanes := x }
/-- Put `mcBad`. -/
def State.withMcBad (s : State) (x : List (Nat × Nat)) : State := { s with mcBad := x }
/-- Put `pairx`. -/
def State.withPairx (s : State) (x : PairX) : State := { s with pairx := x }
/-- Put `hbmPc`. -/
def State.withHbmPc (s : State) (x : List (Nat × HbmPc)) : State := { s with hbmPc := x }
/-- Put `hbmx`. -/
def State.withHbmx (s : State) (x : List (Nat × HbmX)) : State := { s with hbmx := x }
/-- Put `scrub`. -/
def State.withScrub (s : State) (x : List (Nat × ScrubX)) : State := { s with scrub := x }
/-- Put `passes`. -/
def State.withPasses (s : State) (x : List (Nat × Option PassX)) : State := { s with passes := x }
/-- Put `pwr`. -/
def State.withPwr (s : State) (x : PwrX) : State := { s with pwr := x }
/-- Put `tapx`. -/
def State.withTapx (s : State) (x : TapX) : State := { s with tapx := x }
/-- Put `countx`. -/
def State.withCountx (s : State) (x : CountX) : State := { s with countx := x }
/-- Put `free`. -/
def State.withFree (s : State) (x : Nat) : State := { s with free := x }
/-- Put `pending`. -/
def State.withPending (s : State) (x : List Instr) : State := { s with pending := x }

/-! ### Registers -/

/-- The register that word offset `w` falls in, if any (R11, R659). -/
def findReg (w : Nat) : Option RegHit := regTable.findSome? (fun d => d.hit w)

/-- The reset value of the word at offset `w`; offsets that hold no register read 0 (R11). -/
def resetWord (w : Nat) : Word :=
  match findReg w with
  | none => 0
  | some h => BitVec.ofNat 32 (h.desc.rst / 2 ^ (32 * h.word))

/-- The word at offset `w`. -/
def State.reg (s : State) (w : Nat) : Word := sget resetWord s.regs w

/-- Put a word at offset `w`. -/
def State.setReg (s : State) (w : Nat) (v : Word) : State := s.withRegs (sset resetWord s.regs w v)

/-- The value of a field; one that does not fit in its word goes on in the next. -/
def State.rf (s : State) (f : Fld) : Nat :=
  if f.lo % 32 + f.width ≤ 32 then bits (s.reg (f.w + f.lo / 32)).toNat (f.lo % 32) f.width
  else bits ((s.reg (f.w + f.lo / 32)).toNat + 2 ^ 32 * (s.reg (f.w + f.lo / 32 + 1)).toNat) (f.lo % 32) f.width

/-- Put a value into a field, whatever its type: the hardware's own update. -/
def State.wf (s : State) (f : Fld) (v : Nat) : State :=
  let w := f.w + f.lo / 32
  if f.lo % 32 + f.width ≤ 32 then
    s.setReg w (BitVec.ofNat 32 (putBits (s.reg w).toNat (f.lo % 32) f.width v))
  else
    let x := putBits ((s.reg w).toNat + 2 ^ 32 * (s.reg (w + 1)).toNat) (f.lo % 32) f.width v
    (s.setReg w (BitVec.ofNat 32 x)).setReg (w + 1) (BitVec.ofNat 32 (x / 2 ^ 32))

/-- A field of one bit. -/
def State.rb (s : State) (f : Fld) : Bool := s.rf f != 0

/-- Put a one-bit field. -/
def State.wb (s : State) (f : Fld) (b : Bool) : State := s.wf f (b2n b)

/-- Add to a field that saturates. -/
def State.addSat (s : State) (f : Fld) (n : Nat) : State := s.wf f (satAdd f.width (s.rf f) n)

/-- An event of stroke `t` is counted (R595): no freeze is in force or pending, `t` lies below the freeze's boundary, or a thaw has ended the
freeze for it. -/
def State.counts (s : State) (t : Nat) : Bool :=
  let st := (sget (fun _ => 0) s.regs CT_STATUS.w).toNat
  st % 4 = 0 || (bit st 2 && strokeLe s.countx.thawAt t) || strokeLt t s.countx.freezeAt

/-- Add to a 64-bit `_CNT` register, which saturates at 2^48 − 1, for an event of stroke `t` (R595). -/
def State.countBy (s : State) (f : Fld) (n t : Nat) : State := if s.counts t then s.addSat f n else s

/-- Count one event of stroke `t`. -/
def State.count (s : State) (f : Fld) (t : Nat) : State := s.countBy f 1 t

/-- Take a free value (`Config.freeValue`) below 2^w. -/
def State.freeBits (s : State) (w : Nat) : Nat := (Config.freeValue s.free).toNat % 2 ^ w

/-- `n` free bytes, a free value each. -/
def State.freeBytes (s : State) (n : Nat) : List Byte := (List.range n).map (fun i => (Config.freeValue (s.free + i)).truncate 8)

/-- The counter after a free value has been taken. -/
def State.nextFree (s : State) : State := s.withFree (s.free + 1)

/-! ### Chip state and strokes -/

/-- The chip states of Table BU-1. -/
def stOff : Nat := 0
def stStrap : Nat := 1
def stPriming : Nat := 2
def stConfigurable : Nat := 3
def stRunning : Nat := 4
def stQuiesced : Nat := 5
def stHalted : Nat := 6

/-- `CHIP_STATE.STATE`. -/
def State.chipState (s : State) : Nat := s.rf CHIP_STATE.STATE

def State.running (s : State) : Bool := s.chipState = stRunning
def State.halted (s : State) : Bool := s.chipState = stHalted
def State.configurable (s : State) : Bool := s.chipState = stConfigurable

/-- The device has left Strap and Priming and is not Halted: its rings and commands work (R607). -/
def State.alive (s : State) : Bool :=
  s.chipState = stConfigurable || s.chipState = stRunning || s.chipState = stQuiesced

/-- The stroke length L in ns (R28). -/
def State.strokeLen (s : State) : Nat := 32 * 2 ^ s.rf CHIP_STROKE_CFG.LEN

/-- The domain counter `d` (0 = A, 1 = B). -/
def State.dom (s : State) (d : Nat) : Dom := if d = 0 then s.time.domA else s.time.domB

/-- Put a domain counter. -/
def State.setDom (s : State) (d : Nat) (x : Dom) : State :=
  if d = 0 then s.withTime { s.time with domA := x } else s.withTime { s.time with domB := x }

/-- The time of the ordering-source domain in ns (R511). -/
def State.orderNs (s : State) : Nat := (s.dom (s.rf TIME_STATUS.ORDER_SRC)).ns

/-- `CHIP_STROKE_NOW.STROKE` (R28, R45): the ordering source's stroke, or the last one received from the ledger. -/
def State.strokeNow (s : State) : Nat :=
  if s.rb CHIP_STROKE_CFG.SRC_LEDGER then s.rf PAIR_LAST_LEDGER.STROKE
  else s.orderNs / s.strokeLen % 2 ^ 48

/-- R36: the verdict lag, ceil(W / L) + 1. -/
def State.verdictLag (s : State) : Nat := cdiv (s.rf SP_CFG.WINDOW_NS) s.strokeLen + 1

/-- R32: the effective recirculation lag. -/
def State.effLag (s : State) : Nat := s.rf CHIP_STROKE_CFG.EFF_RECIRC_LAG

/-! ### Event sources (R578, R579) -/

/-- The event source `base` of region `n`. -/
def regionSrc (base n : Nat) : Nat := base + n * 0x180

/-- The region of a region event source. -/
def srcRegion (src : Nat) : Nat := (src - 0x200) / 0x180

/-- An export source, and its engine and stream (R468). -/
def exportOf (src : Nat) : Option (Nat × Nat) :=
  if 0x346 ≤ src ∧ (src - 0x346) / 0x180 < 8 ∧ (src - 0x346) % 0x180 < 4 then
    some ((src - 0x346) / 0x180, (src - 0x346) % 0x180)
  else none

/-- The number of entries of ring `r` (R409). -/
def State.ringSize (s : State) (r : Nat) : Nat := 2 ^ (s.rf (HIF_RING_CTRL.LOG_SIZE r) + 6)

/-- The entries a ring holds (R410). -/
def State.ringUsed (s : State) (r : Nat) : Nat :=
  (s.rf (HIF_RING_TAIL.TAIL r) + 2 ^ 17 - s.rf (HIF_RING_HEAD.HEAD r)) % 2 ^ 17

/-- The free entries of a ring. -/
def State.ringFree (s : State) (r : Nat) : Nat := s.ringSize r - s.ringUsed r

/-- Ring states of Table HI-6. -/
def rsDisabled : Nat := 0
def rsActive : Nat := 1
def rsBackpressure : Nat := 2
def rsDisabling : Nat := 3
def rsFault : Nat := 4

def State.ringState (s : State) (r : Nat) : Nat := s.rf (HIF_RING_STATUS.STATE r)
def State.ringType (s : State) (r : Nat) : Nat := s.rf (HIF_RING_CTRL.TYPE r)

/-- Ring `r` is an ACTIVE ring of type `ty`. -/
def State.ringIs (s : State) (r ty : Nat) : Bool := s.ringState r = rsActive && s.ringType r = ty

/-- The ring to which the records of a source go now, when records are written for it (R578, R314). -/
def State.evtRing (s : State) (src : Nat) : Option Nat :=
  match exportOf src with
  | some (n, e) => if s.rb (PMP_EXPORT_CFG.EN n e) then some (s.rf (PMP_EXPORT_CFG.RING n e)) else none
  | none => if s.rb (CHIP_EVT_SRC.EN src) then some (s.rf (CHIP_EVT_SRC.RING src)) else none

/-- The ring entries a record takes (R461, R462). -/
def EvtRec.entries (e : EvtRec) : Nat := 1 + cdiv e.payload.length 12

/-- The entries that the records waiting for ring `r` take. -/
def State.evtWaiting (s : State) (r : Nat) : Nat :=
  ((s.evts.filter (fun e => s.evtRing e.src = some r)).map EvtRec.entries).sum

/-- Ring `r` has no room for one more record beside those that wait for it (R579). -/
def State.evtFull (s : State) (r n : Nat) : Bool := decide (s.ringFree r < s.evtWaiting r + n)

/-- The records that cannot be written now (R579), oldest first: those past the free entries of their ring, `used` the entries that older
records of each ring take, and those whose source has no ring any more. Once a record of a ring cannot be written, no later one of it can. -/
def State.stuckFrom (s : State) : List (Nat × Nat) → List EvtRec → List EvtRec
  | _, [] => []
  | used, e :: l =>
    match s.evtRing e.src with
    | none => e :: s.stuckFrom used l
    | some r =>
      if mget 0 used r + e.entries ≤ s.ringFree r then s.stuckFrom (mset 0 used r (mget 0 used r + e.entries)) l
      else e :: s.stuckFrom (mset 0 used r (2 ^ 18)) l

/-- The records that cannot be written now. -/
def State.stuck (s : State) : List EvtRec := s.stuckFrom [] s.evts

/-- The records of one kind of one region that cannot be written now. -/
def State.evtStuck (s : State) (kind n : Nat) : Nat :=
  (s.stuck.filter (fun e => e.kind = kind && srcRegion e.src = n)).length

/-- The records of one kind of one region that wait. -/
def State.evtHeld (s : State) (kind n : Nat) : Nat :=
  (s.evts.filter (fun e => e.kind = kind && srcRegion e.src = n)).length

/-- Set the pending bit of a source and its summary bit (R578, Table EV-10). -/
def State.pend (s : State) (src : Nat) : State :=
  let s := s.setReg (CHIP_EVT_PEND.w (src / 32)) (s.reg (CHIP_EVT_PEND.w (src / 32)) ||| BitVec.ofNat 32 (2 ^ (src % 32)))
  s.setReg (CHIP_EVT_SUMMARY.w (src / 1024))
    (s.reg (CHIP_EVT_SUMMARY.w (src / 1024)) ||| BitVec.ofNat 32 (2 ^ (src / 32 % 32)))

/-- Replace the DATA and stroke of the pending STATUS record of a source (Table EV-6), the newest of its records: an older one that the ring has
room for keeps its own. -/
def mergeStatus (e : EvtRec) : List EvtRec → List EvtRec
  | [] => []
  | x :: l =>
    if l.any (fun y => y.src = e.src) then x :: mergeStatus e l
    else if x.src = e.src then { x with w1 := e.w1, w2 := e.w2, w3 := e.w3 } :: l else x :: mergeStatus e l

/-- A record dropped: LOST counts (Table EV-6); the flag says whether LOST left 0. -/
def State.lose (s : State) : State := s.addSat CHIP_EVT_STATUS.LOST 1

/-- Queue a record to be written, or do what Table EV-6 says when its ring is full. The Bool says that LOST left 0. -/
def State.queueRec (s : State) (r : Nat) (e : EvtRec) : State × Bool :=
  if s.evtFull r e.entries then
    if e.kind = 1 then
      if s.stuck.any (fun x => x.src = e.src) then
        ((s.withEvts (mergeStatus e s.evts)).addSat (CHIP_EVT_SRC.MERGED e.src) 1, false)
      else (s.withEvts (s.evts ++ [e]), false)
    else if (e.kind = 2 ∧ 64 ≤ s.evtStuck 2 (srcRegion e.src)) ∨ (e.kind = 3 ∧ 4096 ≤ s.evtStuck 3 (srcRegion e.src)) then
      (s.lose, s.rf CHIP_EVT_STATUS.LOST == 0)
    else (s.withEvts (s.evts ++ [e]), false)
  else (s.withEvts (s.evts ++ [e]), false)

/-- Raise an event with a record (R578): the pending bit always; the record when the source is enabled and routed to an ACTIVE
event ring, and the device is not Halted. -/
def State.raiseOnce (s : State) (e : EvtRec) : State × Bool :=
  let s := s.pend e.src
  if s.halted then (s, false) else
  match s.evtRing e.src with
  | none => (s, false)
  | some r => if s.ringIs r 4 then s.queueRec r e else (s.addSat CHIP_EVT_STATUS.UNROUTED 1, false)

/-- A STATUS record of a source with its DATA and the current stroke (R464). -/
def State.statusRec (s : State) (src data : Nat) : EvtRec :=
  ⟨src, 1, data % 2 ^ 32, s.strokeNow % 2 ^ 32, s.strokeNow / 2 ^ 32, []⟩

/-- Raise an event (R578); a first loss raises chip event 0x041 with the source number (R579). -/
def State.raiseRec (s : State) (e : EvtRec) : State :=
  match s.raiseOnce e with
  | (s', false) => s'
  | (s', true) => (s'.raiseOnce (s'.statusRec 0x041 e.src)).1

/-- Raise a STATUS event with DATA. -/
def State.raise (s : State) (src data : Nat) : State := s.raiseRec (s.statusRec src data)

/-- Set an error bit; when it goes from 0 to 1, raise its block's event with the register's new value as DATA (R464). -/
def State.setErr (s : State) (f : Fld) (src : Nat) : State :=
  if s.rb f then s else let s := s.wf f 1; s.raise src (s.reg f.w).toNat

/-! ### Programmable counters (R590 to R593)

Units of Table CT-1, event codes of Table CT-2. An item is words 1 to 3 of a sample as one number: an ordering key, a stroke in words
2 and 3, or what Table CT-3 says. -/

/-- The region of a counter unit, if it has one. -/
def unitRegion (u : Nat) : Option Nat :=
  if u < 64 then some (u / 8) else if u < 80 then some ((u - 64) / 2) else if u < 96 then some ((u - 80) / 2)
  else if u < 128 then some (u % 8) else none

/-- Counter `k` of unit `u` has wrapped (R592, R593): the item that wrapped it is sampled (log entry 26). -/
def State.wrapped (s : State) (u k code item : Nat) : State :=
  let s := s.wf (CT_UNIT_STATUS.OVF u) (s.rf (CT_UNIT_STATUS.OVF u) ||| 2 ^ k)
  if !s.rb (CT_SEL.SAMPLE_EN u k) then s
  else if s.rb (CT_SAMPLE.VALID u) then s.addSat (CT_UNIT_STATUS.SAMPLE_LOST u) 1
  else
    let w := CT_SAMPLE.w u
    let s := (((s.setReg w (BitVec.ofNat 32 (k + code * 8 + 2 ^ 31))).setReg (w + 1) (BitVec.ofNat 32 item)).setReg (w + 2)
      (BitVec.ofNat 32 (item / 2 ^ 32))).setReg (w + 3) (BitVec.ofNat 32 (item / 2 ^ 64))
    s.raise (match unitRegion u with
      | some n => regionSrc 0x373 n
      | none => 0x051) (u + k * 2 ^ 8)

/-- Counter `k` of unit `u` meets an event of stroke `t` with size `n` and qualifier `q` (R590, R591, R595). -/
def State.evOne (s : State) (u code : Nat) (q : Option Nat) (n t item k : Nat) : State :=
  let qual := s.rf (CT_SEL.QUAL u k)
  if s.rb (CT_SEL.EN u k) && s.rf (CT_SEL.EVENT u k) = code && (qual = 255 || q.isNone || q = some qual) && s.counts t then
    let c := s.rf (CT_CNT.COUNT u k) + n
    let s := s.wf (CT_CNT.COUNT u k) c
    let s := if s.rb CT_STATUS.SNAP_PEND && strokeLt t s.countx.snapAt then
        s.wf (CT_SNAP_BANK.COUNT u (k + 1)) ((s.rf (CT_SNAP_BANK.COUNT u (k + 1)) + n) % 2 ^ 48) else s
    if c < 2 ^ 48 then s else s.wrapped u k code item
  else s

/-- Unit `u` meets an event. A unit none of whose `CT_SEL` differs from its reset value counts nothing. -/
def State.ev (s : State) (u code : Nat) (q : Option Nat) (n t item : Nat) : State :=
  if s.regs.any (fun p => decide (CT_SEL.w u 0 ≤ p.1) && decide (p.1 < CT_SEL.w u 0 + 8)) then
    (List.range 8).foldl (fun s k => s.evOne u code q n t item k) s
  else s

/-! ### Determinism status (R42, R46) -/

/-- Set a bit of `CHIP_DET_STATUS`; when the register leaves 0, record the stroke and raise chip event 0x011. R42 does not say which stroke
is recorded: the model takes the key's own for ORDER_CLAMP and `CHIP_STROKE_NOW` for the other bits (DESIGN CHOICE, log entry 159). -/
def State.detSet (s : State) (f : Fld) (stroke : Nat) : State :=
  if s.reg CHIP_DET_STATUS.w = 0 then
    let s := (s.wf f 1).wf CHIP_DET_STROKE.STROKE stroke
    s.raise 0x011 (s.reg CHIP_DET_STATUS.w).toNat
  else s.wf f 1

/-- A parity or uncorrectable error was detected (R18). -/
def State.detParity (s : State) : State := s.detSet CHIP_DET_STATUS.PARITY s.strokeNow

/-! ### Logs (R80, R367, R559)

A log keeps its entries from oldest, at index 0, to newest, at VALID − 1; each entry is `n` words. -/

/-- Move `k` words one entry of `n` words towards the oldest end, from word `b` up. -/
def State.slideDown (s : State) (b n : Nat) : Nat → State
  | 0 => s
  | k + 1 => let s := s.slideDown b n k; s.setReg (b + k) (s.reg (b + k + n))

/-- Write consecutive words from offset `b`. -/
def State.setWords (s : State) (b : Nat) : List Nat → State
  | [] => s
  | v :: vs => (s.setReg b (BitVec.ofNat 32 v)).setWords (b + 1) vs

/-- Add an entry to a log of `cap` entries of `n` words at word `b`, whose VALID and OVERWRITTEN fields are given: a full log
discards its oldest entry and counts it. -/
def State.logAdd (s : State) (b n cap : Nat) (valid ovw : Fld) (entry : List Nat) : State :=
  if s.rf valid < cap then
    (s.setWords (b + s.rf valid * n) entry).wf valid (s.rf valid + 1)
  else
    ((s.slideDown b n ((cap - 1) * n)).setWords (b + (cap - 1) * n) entry).addSat ovw 1

/-- The newest entry's word `k` of a log. -/
def State.logTop (s : State) (b n : Nat) (valid : Fld) (k : Nat) : Nat := (s.reg (b + (s.rf valid - 1) * n + k)).toNat

/-- Enter the error log, merging into the newest entry only when UNIT, MEM and LOC all match (R559); chip event 0x040 is raised when
VALID leaves 0. -/
def State.logError (s : State) (unit mem loc : Nat) (retryOk : Bool) : State :=
  let v := CHIP_ERR_LOG_CTRL.VALID
  let b := CHIP_ERR_LOG.w 0
  if s.rf v != 0 && bits (s.logTop b 4 v 0) 0 8 = unit + 16 * mem && s.logTop b 4 v 1 = loc then
    s.addSat ⟨b + (s.rf v - 1) * 4, 16, 16⟩ 1
  else
    let was := s.rf v
    let s := s.logAdd b 4 64 v CHIP_ERR_LOG_CTRL.OVERWRITTEN
      [unit + 16 * mem + 256 * b2n retryOk, loc, s.strokeNow % 2 ^ 32, 0]
    if was = 0 then s.raise 0x040 (s.reg CHIP_ERR_LOG_CTRL.w).toNat else s

/-- A storage detection (R555, R560) sets `CHIP_DET_STATUS.PARITY` and enters the error log. -/
def State.detect (s : State) (unit mem loc : Nat) (retryOk : Bool) : State := s.detParity.logError unit mem loc retryOk

/-- A storage detection in a store that has no row in Table EV-5 nor a store index in the spec: what MEM and LOC of its log entry read is free (R560;
DESIGN CHOICE, log entry 214). -/
def State.detectFree (s : State) (unit : Nat) : State :=
  (s.detect unit (s.freeBits 4) (Config.freeValue (s.free + 1)).toNat false).withFree (s.free + 2)

/-- The CLEAR of a log empties it and zeroes VALID. What the log reads at VALID and above is the model's choice: the words it held
(DESIGN CHOICE, log entry 162). -/
def State.logClear (s : State) (valid : Fld) : State := s.wf valid 0

/-! ### Host memory -/

/-- The byte of host memory at an address; a byte that nothing has written reads 0 (log entry 2). -/
def State.hostByte (s : State) (a : Nat) : Byte := mget 0 s.hostMem a

/-- `n` bytes of host memory from an address, modulo 2^64. -/
def State.hostRead (s : State) (a : Nat) : Nat → List Byte
  | 0 => []
  | n + 1 => s.hostByte (a % 2 ^ 64) :: s.hostRead (a + 1) n

/-- Write bytes to host memory. -/
def State.hostWrite (s : State) (a : Nat) : List Byte → State
  | [] => s
  | b :: l => (s.withHostMem (mset 0 s.hostMem (a % 2 ^ 64) b)).hostWrite (a + 1) l

/-- The 32-bit words of `n` words of host memory. -/
def State.hostWords (s : State) (a : Nat) : Nat → List Nat
  | 0 => []
  | n + 1 => natLE (s.hostRead a 4) :: s.hostWords (a + 4) n

/-- Write 32-bit words, little-endian. -/
def State.hostWriteWords (s : State) (a : Nat) (ws : List Nat) : State :=
  s.hostWrite a (ws.flatMap (bytesLE 4))

/-- Record something sent. -/
def State.emit (s : State) (o : Output) : State := s.withOutputs (o :: s.outputs)

/-! ### Messages (R428, R429) -/

/-- The item that a sample of a message names (Table CT-3): the ring and index of the entry that `it` gives; of a message that no one ring sends, a
halt's or an unmasked vector's, the spec names no item, and it is a free value (log entry 200). -/
def State.msiItem (s : State) (it : Option Nat) : Nat := it.getD (Config.freeItem s.outputs.length).toNat

/-- Send the message of vector `v`, or set its pending bit while the vector or the function is masked (R428). -/
def State.sendMsi (s : State) (v : Nat) (it : Option Nat) : State :=
  if s.rb (MSIX_CTRL.MASK v) || s.cfg.fnMask then
    s.setReg (MSIX_PBA.w (v / 32)) (s.reg (MSIX_PBA.w (v / 32)) ||| BitVec.ofNat 32 (2 ^ (v % 32)))
  else
    ((s.emit (.msi (s.rf (MSIX_ADDR_LO.ADDR v) * 4 + 2 ^ 32 * s.rf (MSIX_ADDR_HI.ADDR v)) (s.rf (MSIX_DATA.DATA v)))).count
      (HIF_CNT.COUNT 9) s.strokeNow).ev 134 0x14 none 1 s.strokeNow (s.msiItem it)

/-- What the device holds of ring `r`. -/
def State.ringX (s : State) (r : Nat) : RingX := mget {} s.rings r

/-- Put what the device holds of ring `r`. -/
def State.setRingX (s : State) (r : Nat) (x : RingX) : State := s.withRings (mset {} s.rings r x)

/-- The message condition of a written ring (R429): armed, non-empty, and COUNT reached or the timer expired. -/
def State.ringFire (s : State) (r : Nat) (expired : Bool) : Bool :=
  s.rb (HIF_RING_STATUS.ARMED r) && decide (1 ≤ s.ringUsed r) &&
    (decide (s.rf (HIF_RING_MOD.COUNT r) ≤ s.ringUsed r) || expired)

/-- Evaluate R429 on a written ring: send and disarm, or start the timer when the ring is armed and non-empty. -/
def State.ringEval (s : State) (r : Nat) (expired : Bool) : State :=
  if s.ringFire r expired then
    let s := (s.setRingX r { s.ringX r with timer := false }).wf (HIF_RING_STATUS.ARMED r) 0
    s.sendMsi (s.rf (HIF_RING_BIND.VECTOR r)) (some (r + (s.rf (HIF_RING_TAIL.TAIL r) + 2 ^ 17 - 1) % 2 ^ 17 * 2 ^ 14))
  else if s.rb (HIF_RING_STATUS.ARMED r) && decide (1 ≤ s.ringUsed r) && s.rf (HIF_RING_MOD.TIMER_US r) != 0 then
    s.setRingX r { s.ringX r with timer := true }
  else s

/-! ### Written rings (R409, R410, R423, R424) -/

/-- The address of the entry with index `i` of ring `r`, entries of `sz` bytes. -/
def State.ringAddr (s : State) (r i sz : Nat) : Nat :=
  s.rf (HIF_RING_BASE.ADDR r) * 2 ^ 12 + i % s.ringSize r * sz

/-- The GEN bit of index `i` (R410). -/
def State.ringGen (s : State) (r i : Nat) : Nat := 1 - i / s.ringSize r % 2

/-- Write one 16-byte entry at index `i`: words 0 to 3, with GEN put into word 3 [31]. -/
def State.putEntry (s : State) (r i : Nat) (ws : List Nat) : State :=
  s.hostWriteWords (s.ringAddr r i 16)
    [ws.getD 0 0, ws.getD 1 0, ws.getD 2 0, ws.getD 3 0 % 2 ^ 31 + s.ringGen r i * 2 ^ 31]

/-- Advance the device tail of a written ring. -/
def State.bumpTail (s : State) (r n : Nat) : State :=
  s.wf (HIF_RING_TAIL.TAIL r) ((s.rf (HIF_RING_TAIL.TAIL r) + n) % 2 ^ 17)

/-- Write one completion that has a free slot: it is no longer owed (R423). -/
def State.writeCpl (s : State) (cq : Nat) (ws : List Nat) : State :=
  let s := (s.putEntry cq (s.rf (HIF_RING_TAIL.TAIL cq)) ws).bumpTail cq 1
  let x := s.ringX cq
  let it := cq + s.rf (HIF_RING_TAIL.TAIL cq) * 2 ^ 14
  let s := (s.setRingX cq { x with owed := x.owed - 1 }).count (HIF_CNT.COUNT 2) s.strokeNow
  ((s.ev 134 0x12 none 1 s.strokeNow it).ev 134 0x16 none 1 s.strokeNow it).ringEval cq false

/-- F of R423: the free space of a completion ring. -/
def State.cqFree (s : State) (cq : Nat) : Int :=
  (s.ringSize cq : Int) - (s.ringUsed cq : Int) - ((s.ringX cq).owed : Int)

/-- Note the first error of `HIF_ERR` (R443). -/
def State.hifLoc (s : State) (r bitNo : Nat) : State :=
  if s.reg HIF_ERR.w = 0 then (s.wf HIF_ERR_LOC.RING r).wf HIF_ERR_LOC.BIT bitNo else s

/-- Set a bit of `HIF_ERR` for ring `r`; event 0x100 is raised when a bit other than CQ_OVERFLOW leaves 0 (Table HI-8, R464). -/
def State.hifErr (s : State) (f : Fld) (r : Nat) : State :=
  let was := s.rb f
  let s := (s.hifLoc r f.lo).wf f 1
  if was || f.lo = 8 then s else s.raise 0x100 (r + f.lo * 2 ^ 14)

/-- The completion ring of work whose rings a wellhead reset has taken away: its completion is lost (R611). -/
def lostCq : Nat := 2 ^ 14

/-- A completion is ready (R424): written in order when there is a free slot and none is held, held otherwise. -/
def State.postCpl (s : State) (cq : Nat) (ws : List Nat) : State :=
  if lostCq ≤ cq then s
  else if s.ringX cq |>.held.isEmpty then
    if 0 < s.ringFree cq then s.writeCpl cq ws
    else
      let s := s.setRingX cq { s.ringX cq with held := [ws] }
      let s := ((s.wf (HIF_RING_STATUS.OVERFLOW cq) 1).wf (HIF_RING_STATUS.HELD cq) 1).hifErr HIF_ERR.CQ_OVERFLOW cq
      s.raise 0x101 cq
  else
    let x := s.ringX cq
    (s.setRingX cq { x with held := x.held ++ [ws] }).wf (HIF_RING_STATUS.HELD cq) (x.held.length + 1)

/-- Write held completions while there is room (R424), at most `k` of them. -/
def State.drainHeld (s : State) (cq : Nat) : Nat → State
  | 0 => s
  | k + 1 =>
    match (s.ringX cq).held with
    | [] => s
    | ws :: rest =>
      if 0 < s.ringFree cq then
        let s := (s.setRingX cq { s.ringX cq with held := rest }).wf (HIF_RING_STATUS.HELD cq) rest.length
        let s := if rest.isEmpty then s.wf (HIF_RING_STATUS.OVERFLOW cq) 0 else s
        (s.writeCpl cq ws).drainHeld cq k
      else s

/-- One more completion is owed on ring `cq` (R423). -/
def State.owe (s : State) (cq n : Nat) : State :=
  let x := s.ringX cq
  s.setRingX cq { x with owed := x.owed + n }

/-- An owed completion is lost (R611, R437). -/
def State.unowe (s : State) (cq n : Nat) : State :=
  let x := s.ringX cq
  s.setRingX cq { x with owed := x.owed - n }

/-! ### Chip state changes and halts (R472, R561, R606) -/

/-- The pair state (Table RD-4). -/
def State.pairState (s : State) : Nat := s.rf PAIR_STATUS.STATE

/-- The state whose rules of reception and standby apply: a Reverting unit behaves as the state it came from. -/
def State.pairMode (s : State) : Nat := if s.pairState = 4 then s.pairx.back else s.pairState

/-- Learning, ageing and commits of stroke `t` take place: not in Standby-Cold (R536), but for the strokes that it took in lockstep whole (R542). -/
def State.pairChanges (s : State) (t : Nat) : Bool := s.pairMode != 2 || s.pairx.coldFrom.any (fun x => strokeLt t x)

/-- Enter a chip state and raise chip event 0x001 with DATA = `CHIP_STATE` (R606). -/
def State.enterState (s : State) (st : Nat) : State :=
  let s := s.wf CHIP_STATE.STATE st
  s.raise 0x001 (s.reg CHIP_STATE.w).toNat

/-- The transmit gate closes: frames in progress end with the inverted FCS (R533). -/
def State.closeGate (s : State) : State := if s.rb PAIR_STATUS.GATE then (s.wf PAIR_STATUS.GATE 0).emit .gateClosed else s

/-- Close the transmit gate and release PAIR_HOLD_OUT (R533, R607). -/
def State.releasePair (s : State) : State := (s.wf PAIR_STATUS.HOLD_OUT 0).closeGate

/-- Halt the device (R472, R437, R561): nothing but the first halt is recorded (R471), and no halt happens in Off or Strap
(Table BU-1). PWR levels step to 0 (R632, file 20). -/
def State.haltDev (s : State) (cause : Nat) : State :=
  if s.halted || s.chipState = stOff || s.chipState = stStrap then s else
  let s := (s.withChip { s.chip with ranAtHalt := s.running }).wf CHIP_HALT_CAUSE.CAUSE cause
  let s := (s.wf PAIR_STATUS.HOLD_OUT 0).wf PAIR_STATUS.GATE 0
  let s := ((s.enterState stHalted).wf HIF_STATUS.HALTED 1).emit .halt
  if s.rb HIF_CFG.HALT_MSI_EN then s.sendMsi (s.rf HIF_CFG.HALT_VECTOR) none else s

/-- Halt for a malformed item, recording the ring and index in `HIF_HALT_INFO` (R437, R469). -/
def State.haltItem (s : State) (cause r ix : Nat) : State :=
  if s.halted || s.chipState = stOff || s.chipState = stStrap then s else
  (((s.wf HIF_HALT_INFO.RING r).wf HIF_HALT_INFO.INDEX ix).wf HIF_HALT_INFO.VALID 1).haltDev cause

/-- The wellhead answers the host: not in Off or Strap, where there is no link, nor in a priming after a full reset, where it answers with the
retry status, unless a step failed once it had come up, which is after the islands step (R614, Table BU-4). A warm priming keeps the link and
the configuration space (R610; log entry 218). -/
def State.answers (s : State) : Bool :=
  s.alive || s.halted ||
    (s.chipState = stPriming && (s.rb CHIP_STATE.WARM || (s.rb CHIP_PRIME_STATUS.FAIL && decide (4 ≤ s.rf CHIP_PRIME_STATUS.STEP))))

/-- BAR0 and BAR2 take writes: not while Halted (R437) nor in a failed priming (R614), where only `CHIP_RESET_CTRL` does. -/
def State.hostOpen (s : State) : Bool := s.answers && !s.halted && !(s.chipState = stPriming && s.rb CHIP_PRIME_STATUS.FAIL)

/-- The effect of a register write of the host, discarded where writes are (R437, R614). -/
def onWrite (f : State → State) (s : State) : State := if s.hostOpen then f s else s

/-- Stroke `x` lies in the span of a quiesce under way or not yet resumed: what is scheduled for it waits for the resume (R618). -/
def State.inSpan (s : State) (x : Nat) : Bool :=
  (match s.chip.quiesceAt with
    | some q => s.chip.quiescing && strokeLe q x
    | none => false) ||
  (match s.chip.spanFrom with
    | some q => strokeLe q x
    | none => false)

/-! ### Regions (Table EV-3) -/

/-- Region states. -/
def rgRun : Nat := 0
def rgDrain : Nat := 1
def rgIsolated : Nat := 2
def rgTest : Nat := 3
def rgRejoin : Nat := 4

/-- `REG_Q_STATUS.STATE`. -/
def State.region (s : State) (n : Nat) : Nat := s.rf (REG_Q_STATUS.STATE n)

/-- Region `n` is in RUN. -/
def State.regionRuns (s : State) (n : Nat) : Bool := s.region n = rgRun

/-- The gated islands of region `n` act: it is in RUN, and their clocks are not stopped (R627). -/
def State.regionOn (s : State) (n : Nat) : Bool := s.regionRuns n && s.rf (PWR_STATUS.LEVEL n) != 0

/-- Writes of the host to region `n` apply at once and are no unscheduled writes (R43, R567). -/
def State.regionFree (s : State) (n : Nat) : Bool :=
  s.region n = rgIsolated || s.region n = rgTest || s.region n = rgRejoin

/-- The regions quarantined besides `n`. -/
def State.quarantinedBut (s : State) (n : Nat) : Nat :=
  ((List.range 8).filter (fun k => k != n && !s.regionRuns k)).length

/-- Host software bypassed the stroke-scheduled mechanism at region `n` (R43). -/
def State.unsched (s : State) (n : Option Nat) : State :=
  if s.configurable || (match n with | some n => s.regionFree n | none => false) then s
  else s.detSet CHIP_DET_STATUS.UNSCHED_WRITE s.strokeNow

end Sys2Proof.Machine
end

