-- ==== Sys2Proof/Machine/HbmPlace.lean ====
section
/-! DEFINITION. Places in the HBM stacks (R475 to R478, R577): pseudo-channels, banks and rows, the rows that a retirement redirects, and the
data that a stack delivered in error (R481). -/

namespace Sys2Proof.Machine

/-- Pseudo-channel `q` of stack `st`. -/
def State.hpc (s : State) (st q : Nat) : HbmPc := mget {} s.hbmPc (st * 32 + q)
def State.setHpc (s : State) (st q : Nat) (x : HbmPc) : State := s.withHbmPc (mset {} s.hbmPc (st * 32 + q) x)

/-- The controller of stack `st`. -/
def State.hctl (s : State) (st : Nat) : HbmX := mget {} s.hbmx st
def State.setHctl (s : State) (st : Nat) (x : HbmX) : State := s.withHbmx (mset {} s.hbmx st x)

/-- Banks of a pseudo-channel (Table HB-2). -/
def State.hbmBanks (s : State) : Nat := if s.rf CHIP_ID.HBM_GIB = 64 then 32 else 16

/-- Bytes of one area of Table HB-3. -/
def State.hbmArea (s : State) : Nat := if s.rf CHIP_ID.HBM_GIB = 64 then 2 ^ 27 else 2 ^ 26

/-- Rows of a pseudo-channel outside the spare area, and in all. -/
def State.mainRows (s : State) : Nat := 3 * s.hbmArea / 1024
def State.allRows (s : State) : Nat := 4 * s.hbmArea / 1024

/-- Bank and row of a pseudo-channel byte address (Table HB-2). -/
def State.hbmBank (s : State) (a : Nat) : Nat := a / 1024 % s.hbmBanks
def State.hbmRow (s : State) (a : Nat) : Nat := a / 1024 / s.hbmBanks

/-- The byte address of a sump page of region `n` within its pseudo-channel (R477). -/
def State.pageAddr (s : State) (n p : Nat) : Nat := (1 + n % 2) * s.hbmArea + p / 32 * 4096

/-! ### Redirection (R478, R577); a row is numbered by its byte address divided by 1 KiB -/

/-- The row that accesses to row `r` reach: its spare row once it is retired. -/
def HbmPc.served (x : HbmPc) (r : Nat) : Nat := ((x.moved.find? (fun p => p.1 = r)).map (·.2)).getD r

/-- The row whose contents lie in row `r`: a retired row holds none, a spare row in use those of the row it stands for. -/
def HbmPc.contents (x : HbmPc) (r : Nat) : Option Nat :=
  match x.moved.find? (fun p => decide (p.2 = r) && decide (x.served p.1 = r)) with
  | some p => some p.1
  | none => if x.moved.any (fun p => p.1 = r) then none else some r

/-- The 32-byte columns that an access to the `n` bytes at byte address `a` reaches, as row × 32 + column. -/
def HbmPc.columns (x : HbmPc) (a n : Nat) : List Nat :=
  (List.range (n / 32)).map (fun i => x.served ((a + 32 * i) / 1024) * 32 + (a + 32 * i) % 1024 / 32)

/-! ### Data delivered in error (R481) -/

/-- Data of the `n` bytes at byte address `a` was delivered flagged as in error. -/
def HbmPc.flagged (x : HbmPc) (a n : Nat) : Bool := x.bad.any (fun k => decide (k ∈ x.columns a n))

/-- The consumer has taken the data. -/
def HbmPc.taken (x : HbmPc) (a n : Nat) : HbmPc := { x with bad := x.bad.filter (fun k => !(k ∈ x.columns a n)) }

def State.hbmFlagged (s : State) (st q a n : Nat) : Bool := (s.hpc st q).flagged a n

/-- The consumer of the `n` bytes at byte address `a` has taken them, and with them their flag. -/
def State.hbmTaken (s : State) (st q a n : Nat) : State :=
  if s.hbmFlagged st q a n then s.setHpc st q ((s.hpc st q).taken a n) else s

end Sys2Proof.Machine
end

