-- ==== Sys2Proof/Machine/Operands.lean ====
section
/-! DEFINITION. Reading and changing the bytes of frames: CRCs (R75, R204), checksums (R71 to R73), the headers that R71 finds,
VLAN tags and addresses. -/

namespace Sys2Proof.Machine

/-! ### CRCs -/

/-- `k` bits of a reflected CRC with polynomial `poly`. -/
def crcBits (poly : Nat) : Nat → Nat → Nat
  | 0, c => c
  | k + 1, c => crcBits poly k (if c % 2 = 1 then (c / 2) ^^^ poly else c / 2)

/-- A CRC register after one more byte. -/
def crcByte (poly c : Nat) (b : Byte) : Nat := crcBits poly 8 (c ^^^ b.toNat)

/-- A reflected CRC with initial value 0xFFFF_FFFF and final inversion. -/
def crcOf (poly : Nat) (l : List Byte) : Nat := (l.foldl (crcByte poly) 0xFFFFFFFF) ^^^ 0xFFFFFFFF

/-- CRC-32C, RFC 3720 (R204). -/
def crc32c (l : List Byte) : Nat := crcOf 0x82F63B78 l

/-- CRC-32 as for the IEEE 802.3 FCS. -/
def crc32 (l : List Byte) : Nat := crcOf 0xEDB88320 l

/-! ### Bytes of a frame -/

/-- Byte `i`; 0 beyond the end. -/
def byteAt (d : List Byte) (i : Nat) : Nat := (d.getD i 0).toNat

/-- The 16-bit word whose first byte is at `i`, network order. -/
def be16 (d : List Byte) (i : Nat) : Nat := byteAt d i * 256 + byteAt d (i + 1)

/-- The number that `n` bytes from `i` spell, network order. -/
def beAt (d : List Byte) (i n : Nat) : Nat := natBE ((List.range n).map (fun k => d.getD (i + k) 0))

/-- `n` bytes from `i`, zero beyond the end. -/
def bytesAt (d : List Byte) (i n : Nat) : List Byte := (List.range n).map (fun k => d.getD (i + k) 0)

/-- Write a 16-bit word in network order. -/
def putBe16 (d : List Byte) (i v : Nat) : List Byte := overwrite d i (bytesBE 2 v)

/-- Pad with zero bytes up to `n`. -/
def padTo (n : Nat) (d : List Byte) : List Byte := d ++ List.replicate (n - d.length) 0

/-! ### The base address registers (R406) -/

/-- The sizes of BAR0, BAR2 and BAR4 (Table HI-2), numbered 0 to 2. -/
def barSize (bar : Nat) : Nat := if bar < 2 then 64 * 2 ^ 20 else 2 ^ 20

/-! ### Tags -/

/-- A tag protocol identifier: 0x8100 or 0x88A8, for the tags of R66, R71 and R74, which give no value (PRESUMED, log entry 160). -/
def isTpid (t : Nat) : Bool := t = 0x8100 || t = 0x88A8

/-- The frame carries an outer tag. -/
def tagged (d : List Byte) : Bool := isTpid (be16 d 12)

/-- The TCI of the outer tag. -/
def outerTci (d : List Byte) : Nat := be16 d 14

/-- Insert a tag after the source address. -/
def pushTag (tpid tci : Nat) (d : List Byte) : List Byte := d.take 12 ++ bytesBE 2 tpid ++ bytesBE 2 tci ++ d.drop 12

/-- Remove the outer tag. -/
def popTag (d : List Byte) : List Byte := d.take 12 ++ d.drop 16

/-! ### Headers (R71) -/

/-- The headers of a frame: the IP header's place and kind, and the TCP (6) or UDP (17) header behind it. -/
structure Headers where
  ip : Nat
  v6 : Bool
  /-- The IPv4 header's length in bytes. -/
  ihl : Nat
  /-- An IPv4 fragment, or an IPv6 packet with a fragment header. -/
  frag : Bool
  l4 : Option (Nat × Nat)
  /-- The end of the IP packet. -/
  stop : Nat
deriving DecidableEq, Repr

/-- The place of the EtherType behind at most two tags of an Ethernet header at `e`. -/
def etherAt (d : List Byte) (e : Nat) : Nat :=
  if isTpid (be16 d (e + 12)) then (if isTpid (be16 d (e + 16)) then e + 20 else e + 16) else e + 12

/-- Follow Hop-by-Hop (0), Routing (43) and Destination Options (60) headers: the next header found, its place, and whether a
fragment header (44) was met. -/
def skipExt (d : List Byte) : Nat → Nat → Nat → Nat × Nat × Bool
  | 0, nh, p => (nh, p, false)
  | k + 1, nh, p =>
    if nh = 0 ∨ nh = 43 ∨ nh = 60 then skipExt d k (byteAt d p) (p + (byteAt d (p + 1) + 1) * 8)
    else (nh, p, decide (nh = 44))

/-- The TCP or UDP header at `p`, when it lies in the frame and starts within the first 512 bytes. -/
def l4At (d : List Byte) (proto p : Nat) : Option (Nat × Nat) :=
  if p < 512 ∧ ((proto = 6 ∧ p + 20 ≤ d.length) ∨ (proto = 17 ∧ p + 8 ≤ d.length)) then some (p, proto) else none

/-- The headers behind an Ethernet header at `e`, within the limits of R71. -/
def findHeaders (d : List Byte) (e : Nat) : Option Headers :=
  let t := etherAt d e
  let ip := t + 2
  if 256 ≤ ip then none
  else if be16 d t = 0x0800 ∧ ip + 20 ≤ d.length ∧ byteAt d ip / 16 = 4 then
    let ihl := byteAt d ip % 16 * 4
    let frag := be16 d (ip + 6) % 0x4000 != 0
    let l4 := if be16 d (ip + 6) % 0x2000 = 0 then l4At d (byteAt d (ip + 9)) (ip + ihl) else none
    if 20 ≤ ihl ∧ ip + ihl ≤ d.length then some ⟨ip, false, ihl, frag, l4, min d.length (ip + be16 d (ip + 2))⟩ else none
  else if be16 d t = 0x86DD ∧ ip + 40 ≤ d.length ∧ byteAt d ip / 16 = 6 then
    let x := skipExt d 64 (byteAt d (ip + 6)) (ip + 40)
    some ⟨ip, true, 40, x.2.2, if x.2.2 then none else l4At d x.1 x.2.1, min d.length (ip + 40 + be16 d (ip + 4))⟩
  else none

/-- The headers whose checksums egress keeps right (R73): the outer ones, and the inner ones of a VXLAN frame (UDP port 4789). -/
def allHeaders (d : List Byte) : List Headers :=
  match findHeaders d 0 with
  | none => []
  | some h =>
    match h.l4 with
    | some (p, 17) =>
      if be16 d (p + 2) = 4789 then
        match findHeaders d (p + 16) with
        | some h' => [h, h']
        | none => [h]
      else [h]
    | _ => [h]

/-! ### Checksums (R71 to R73) -/

/-- Fold carries of a ones'-complement sum. -/
def foldSum (s : Nat) : Nat :=
  let a := s % 65536 + s / 65536
  a % 65536 + a / 65536

/-- The sum of the 16-bit words of a byte string, an odd last byte padded with zero. -/
def sumWords : List Byte → Nat
  | [] => 0
  | [a] => a.toNat * 256
  | a :: b :: l => a.toNat * 256 + b.toNat + sumWords l

/-- The ones'-complement checksum of a sum. -/
def csumOf (s : Nat) : Nat := 65535 - foldSum (foldSum s)

/-- RFC 1624 equation 3: the checksum after one covered word changes from `m` to `m'`. -/
def csumUpdate (hc m m' : Nat) : Nat := 65535 - foldSum (65535 - hc + (65535 - m) + m')

/-- Update a checksum for every 16-bit word, from place `i` in steps of two, in which two equally long texts differ. -/
def csumDiff : Nat → List Byte → List Byte → Nat
  | hc, a :: b :: l, a' :: b' :: l' =>
    csumDiff (if a = a' ∧ b = b' then hc
      else csumUpdate hc (a.toNat * 256 + b.toNat) (a'.toNat * 256 + b'.toNat)) l l'
  | hc, [a], [a'] => if a = a' then hc else csumUpdate hc (a.toNat * 256) (a'.toNat * 256)
  | hc, _, _ => hc

/-- The bytes of a text from `i` to before `j`. -/
def slice (d : List Byte) (i j : Nat) : List Byte := (d.drop i).take (j - i)

/-- The place of the checksum in a TCP or UDP header. -/
def csumOff (proto : Nat) : Nat := if proto = 6 then 16 else 6

/-- The addresses of the pseudo-header, and the protocol as a word of its own. Of an IPv6 packet they are those of its IPv6 header, a Routing header
or not: R71 does not say which destination stands in the pseudo-header then (DESIGN CHOICE, log entry 201). -/
def pseudoAddrs (d : List Byte) (h : Headers) : List Byte :=
  if h.v6 then slice d (h.ip + 8) (h.ip + 40) else slice d (h.ip + 12) (h.ip + 20) ++ [0, d.getD (h.ip + 9) 0]

/-- The bytes a TCP or UDP checksum covers apart from the pseudo-header, the checksum itself read as zero. -/
def l4Body (d : List Byte) (h : Headers) (p proto : Nat) : List Byte := putBe16 (slice d p h.stop) (csumOff proto) 0

/-- Keep the IPv4 header checksum of `h` in `new`, which differs from `old` in content only (R73). -/
def fixIp (old new : List Byte) (h : Headers) : List Byte :=
  if h.v6 then new
  else
    let body := fun d => putBe16 (slice d h.ip (h.ip + h.ihl)) 10 0
    let hc := be16 old (h.ip + 10)
    let hc' := csumDiff hc (body old) (body new)
    if hc' = hc then new else putBe16 new (h.ip + 10) hc'

/-- Keep the TCP or UDP checksum of `h` in `new` (R73). -/
def fixL4 (old new : List Byte) (h : Headers) : List Byte :=
  match h.l4 with
  | none => new
  | some (p, proto) =>
    let hc := be16 old (p + csumOff proto)
    if proto = 17 ∧ hc = 0 ∧ ¬ h.v6 then new
    else
      let a := csumDiff hc (pseudoAddrs old h) (pseudoAddrs new h)
      let a := csumDiff a (l4Body old h p proto) (l4Body new h p proto)
      if a = hc then new
      else putBe16 new (p + csumOff proto) (if proto = 17 ∧ ¬ h.v6 ∧ a = 0 then 65535 else a)

/-- Update every checksum that covers what changed from `old` to `new`, two texts of one length: inner headers first, since an
outer UDP checksum covers them (R73). -/
def fixSums (old new : List Byte) : List Byte :=
  (allHeaders old).reverse.foldl (fun n h => fixL4 old (fixIp old n h) h) new

/-- The full TCP or UDP checksum of headers `h` (R71); a UDP-over-IPv4 result of 0 becomes 0xFFFF. The pseudo-header's length is what the IP packet
carries from the TCP or UDP header on, for UDP too (DESIGN CHOICE, log entry 202). -/
def l4Csum (d : List Byte) (h : Headers) (p proto : Nat) : Nat :=
  let c := csumOf (sumWords (pseudoAddrs d h) + (if h.v6 then proto else 0) + (h.stop - p) + sumWords (l4Body d h p proto))
  if proto = 17 ∧ ¬ h.v6 ∧ c = 0 then 65535 else c

/-- The full IPv4 header checksum (R71). -/
def ipCsum (d : List Byte) (h : Headers) : Nat := csumOf (sumWords (putBe16 (slice d h.ip (h.ip + h.ihl)) 10 0))

/-! ### PTP (R66) -/

/-- The place of the PTP header of an event message. -/
def ptpAt (d : List Byte) : Option Nat :=
  let t := etherAt d 0
  let p :=
    if be16 d t = 0x88F7 then some (t + 2)
    else match findHeaders d 0 with
      | some h =>
        match h.l4 with
        | some (q, 17) =>
          if be16 d (q + 2) = 319 ∧ (¬ h.v6 ∨ q = h.ip + 40) then some (q + 8) else none
        | _ => none
      | none => none
  match p with
  | some q => if byteAt d q % 16 ≤ 3 ∧ q + 34 ≤ d.length then some q else none
  | none => none

/-! ### PRBS patterns (R124, Table SL-5) -/

/-- The exponents of a pattern's polynomial, the highest first. -/
def prbsTaps (code : Nat) : List Nat :=
  if code = 0 then [7, 6] else if code = 1 then [13, 12, 2, 1] else if code = 2 then [23, 18] else [31, 28]

/-- The degree of a pattern's polynomial. -/
def prbsLen (code : Nat) : Nat := (prbsTaps code).headD 31

/-- One step of a generator's shift register: the next bit is the sum of the bits that the polynomial names, and enters at bit 0. -/
def prbsStep (code r : Nat) : Nat :=
  (r * 2 + (((prbsTaps code).map (fun t => r / 2 ^ (t - 1) % 2)).sum) % 2) % 2 ^ prbsLen code

/-- The shift register after `k` steps. -/
def prbsRun (code : Nat) : Nat → Nat → Nat
  | 0, r => r
  | k + 1, r => prbsRun code k (prbsStep code r)

/-- A PAM4 rate (Table SL-1). -/
def isPam4 (rate : Nat) : Bool := decide (rate ≤ 2)

/-- The pattern that a code selects at a lane rate: SSPRBS acts as PRBS31 at NRZ rates (Table SL-5). -/
def prbsPat (rate code : Nat) : Nat := if code = 4 && !isPam4 rate then 3 else code

/-- Bit `i` of pattern `code` at a lane rate, from the shift register `seed`. -/
def prbsBit (rate code seed i : Nat) : Bool :=
  if prbsPat rate code = 4 then Config.stressBit i else prbsRun (prbsPat rate code) (i + 1) seed % 2 = 1

/-- The PAM4 level that a pair of bits maps to, the first bit first (Gray coding). -/
def grayLevel (a b : Bool) : Nat := if a then (if b then 2 else 3) else b2n b

/-- The bits of a lane rate in `t` ns (Table SL-1). -/
def bitsIn (rate t : Nat) : Nat := t * [6800, 3400, 1700, 825, 330].getD rate 0 / 32

/-! ### Logarithms and histogram bins (R277) -/

/-- The histogram bin of a value in ns. -/
def histBin (v : Nat) : Nat :=
  if v < 2 then v
  else
    let e := Nat.log2 v
    min 63 (2 * e + v / 2 ^ (e - 1) % 2)

end Sys2Proof.Machine
end

