-- ==== Sys2Proof/Machine/Queues.lean ====
section
/-! DEFINITION. Buffers, float valves and the virtual output queues of a region (file 10): allocation and free (R326 to R330), the
valves of Table CS-3 (R331), pause and PFC transmission (R62), the check valve (R338) and the release of frames into their
queues (R333, R347). -/

namespace Sys2Proof.Machine

/-! ### Ports -/

/-- The region that owns a global port (Table SC-5). -/
def regionOf (p : Nat) : Nat := if p < 512 then p / 64 else if p < 528 then (p - 512) / 2 else p - 528

/-- The local index of a global port (file 10, Registers): 0–63 front panel, 64 and 65 host channels, 66 recirculation. -/
def localOf (p : Nat) : Nat := if p < 512 then p % 64 else if p < 528 then 64 + p % 2 else 66

/-- The global port of a local index of region `n`. -/
def globalOf (n l : Nat) : Nat := if l < 64 then n * 64 + l else if l < 66 then 512 + 2 * n + (l - 64) else 528 + n

/-- The ingress pipeline a front-panel port or host channel feeds (R24). -/
def pipeOf (p : Nat) : Nat := if p < 512 then p % 64 / 32 else p % 2

/-- The input of R155 that a port feeds: block mod 4, or 4 for the host channel. -/
def inputOf (p : Nat) : Nat := if p < 512 then p % 32 / 8 else if p < 528 then 4 else 5

/-- A destination that exists (R14). -/
def realPort (p : Nat) : Bool := p < 536

/-- A field of a port register set, by region and local port. -/
def pbf (f : Nat → Nat → Nat → Fld) (n l : Nat) : Fld := f n (l / 8) (l % 8)

/-- Count an event of stroke `t` of a front-panel port (R599). -/
def State.portCount (s : State) (n l c t : Nat) : State :=
  if l < 64 then s.count (PB_PORT_CNT.COUNT n (l / 8) (l % 8) c) t else s

/-- The region's side of cistern and traffic manager. -/
def State.rx (s : State) (n : Nat) : RegX := mget {} s.regx n
def State.setRx (s : State) (n : Nat) (x : RegX) : State := s.withRegx (mset {} s.regx n x)

/-- Count an event of stroke `t` of a cistern (R366). -/
def State.cisCount (s : State) (n c t : Nat) : State := s.count (CIS_CNT.COUNT n c) t

/-- The lanes of a width code of `PB_SHAPE`. -/
def widthOf (code : Nat) : Nat := if code = 0 then 0 else 2 ^ (code - 1)

/-- Set a bit of `CIS_ERR`, raising event 0x350 (R360). -/
def State.cisErr (s : State) (f : Fld) (n : Nat) : State := s.setErr f (regionSrc 0x350 n)

/-- Set a bit of `CIS_ERR` for a buffer; its handle is captured when every bit was 0 (R365). -/
def State.cisErrAt (s : State) (f : Fld) (n h : Nat) : State :=
  (if s.reg (CIS_ERR.w n) = 0 then s.wf (CIS_ERR_LOC.HANDLE n) h else s).cisErr f n

/-! ### Buffers (R325 to R330) -/

/-- The smallest pool whose buffers hold `len` bytes (R326). -/
def poolFor (len : Nat) : Nat := if len ≤ 256 then 0 else if len ≤ 1024 then 1 else if len ≤ 2048 then 2 else 3

/-- Units of a buffer of pool `k` (Table CS-1). -/
def poolUnits (k : Nat) : Nat := if k = 0 then 1 else if k = 1 then 4 else if k = 2 then 8 else 40

/-- Pool `k` has a free buffer. -/
def State.poolHasFree (s : State) (n k : Nat) : Bool := s.rf (CIS_POOL_STATUS.IN_USE n k) < s.rf (CIS_POOL_CFG.COUNT n k)

/-- The pool that gives a buffer to a frame of `len` bytes: the chosen one, or a larger one when BORROW = 1 (R326). -/
def State.pickPool (s : State) (n len : Nat) : Option Nat :=
  let k := poolFor len
  if s.poolHasFree n k then some k
  else if s.rb (CIS_CFG.BORROW n) then ([1, 2, 3].filter (fun j => k < j)).find? (fun j => s.poolHasFree n j)
  else none

/-- The buffer of a handle. -/
def State.bufx (s : State) (n h : Nat) : BufX := mget {} (s.rx n).bufs h
def State.setBufx (s : State) (n h : Nat) (b : BufX) : State :=
  s.setRx n { s.rx n with bufs := mset {} (s.rx n).bufs h b }

/-- The lowest buffer of pool `k` whose count is 0, at or above `i` (the model's choice of free-list order, log entry 17). -/
def State.freeBuf (s : State) (n k : Nat) : Nat → Nat → Nat
  | i, 0 => i
  | i, m + 1 => if (s.bufx n (k * 65536 + i)).count = 0 then i else s.freeBuf n k (i + 1) m

/-- Change the units of one side of the region's occupancy. -/
def State.occAdd (s : State) (n : Nat) (egress : Bool) (u : Int) : State :=
  let f := if egress then CIS_OCC.EGRESS_UNITS n else CIS_OCC.INGRESS_UNITS n
  s.wf f ((s.rf f : Int) + u).toNat

/-- A valve after its counter went from `c` to `c'` (R331): it asserts at ON and releases at OFF or below. -/
def valveStep (was : Bool) (on off c c' : Nat) : Bool :=
  if c < c' then was || decide (on ≤ c') else if c' < c then was && decide (min off on < c') else was

/-- A valve whose thresholds (ON, OFF) were written while its counter is `c`: new ones take effect at once (file 10, Registers), so that a counter
at ON or above asserts it and one at OFF or below releases it. -/
def valveNow (was : Bool) (old new : Nat × Nat) (c : Nat) : Bool :=
  if old = new then was else decide (new.1 ≤ c) || (was && decide (min new.2 new.1 < c))

/-- Put `x` into or take it out of a list of asserted valves. -/
def setMember (l : List Nat) (x : Nat) (b : Bool) : List Nat :=
  if b then (if x ∈ l then l else x :: l) else l.filter (· != x)

/-- The key as a 74-bit number (Table AR-5). -/
def FKey.num (k : FKey) : Nat := (k.stroke % 2 ^ 48) * 2 ^ 26 + (k.port % 2 ^ 10) * 2 ^ 16 + k.seq % 2 ^ 16

/-- The destination address of MAC control frames. -/
def ctlDa : Nat := 0x0180C2000001

/-- The SA of a port's pause frames (`PB_FC_SA`). -/
def State.fcSa (s : State) (n l : Nat) : Nat :=
  s.rf (pbf PB_FC_SA.ADDR_HI n l) * 2 ^ 32 + s.rf (pbf PB_FC_SA.ADDR_LO n l)

/-- The bytes of a pause frame (opcode 1) or PFC frame (opcode 0x101), before the FCS. -/
def ctlFrame (sa : Nat) (pfc : Bool) (en : Nat) (times : List Nat) : List Byte :=
  padTo 60 (bytesBE 6 ctlDa ++ bytesBE 6 sa ++ bytesBE 2 0x8808 ++
    (if pfc then bytesBE 2 0x0101 ++ bytesBE 2 en else bytesBE 2 0x0001) ++ times.flatMap (bytesBE 2))

/-- The device runs in lockstep behind its twin (R537). -/
def State.lockstep (s : State) : Bool :=
  s.rf PAIR_STATUS.STATE = 3 || (s.rf PAIR_STATUS.STATE = 4 && s.pairx.back = 3)

/-- The lanes of the port that starts at region lane `l`, by its W code of `PB_SHAPE`; 0 when none starts there (R48). -/
def State.portWidth (s : State) (n l : Nat) : Nat := widthOf (s.rf (PB_SHAPE.W n (l / 8) (l % 8)))

/-- The states of Table SL-2. -/
def lkDisabled : Nat := 0
def lkAn : Nat := 1
def lkTrain : Nat := 2
def lkAlign : Nat := 3
def lkUp : Nat := 4
def lkHold : Nat := 5
def lkFailed : Nat := 6
def lkPrbs : Nat := 7

/-- The lanes in use by the port that starts at lane `l` of lane group `g`. -/
def State.lanesInUse (s : State) (g l : Nat) : List Nat := (List.range (mget {} s.links (g * 64 + l)).width).map (fun k => l + k)

/-- A lane in use by the port sends back what it receives (Table SL-10, LOOPBACK = 2): the port's own frames do not leave it. -/
def State.farLoop (s : State) (g l : Nat) : Bool := (s.lanesInUse g l).any (fun m => s.rf (LANE_CFG.LOOPBACK g m) = 2)

/-- Every lane in use by the port reads what it transmits (Table SL-10, LOOPBACK = 1): the port receives its own frames. -/
def State.nearPort (s : State) (g l : Nat) : Bool :=
  !(s.lanesInUse g l).isEmpty && (s.lanesInUse g l).all (fun m => s.rf (LANE_CFG.LOOPBACK g m) = 1)

/-- What the device holds of a front-panel port. -/
def State.pport (s : State) (n l : Nat) : PortX := mget {} s.pports (globalOf n l)
def State.setPport (s : State) (n l : Nat) (x : PortX) : State := s.withPports (mset {} s.pports (globalOf n l) x)

/-- A frame leaves front-panel port `l`. In near-end loopback it is on its way to the port's own receiver; that it leaves the port as well is
the model's choice, as Table SL-10 does not say (DESIGN CHOICE, log entry 204). -/
def State.emitFrame (s : State) (n l : Nat) (d : List Byte) (good : Bool) : State :=
  if s.farLoop n l then s
  else
    let s := s.emit (.frame (globalOf n l) d good)
    if s.nearPort n l then s.setPport n l { s.pport n l with loop := (s.pport n l).loop ++ [(d, good)] } else s

/-- A front-panel port can send: its link is up, the transmit gate is open (R533), and its region has not left RUN, whose transmitters then send
electrical idle (R565). -/
def State.canSend (s : State) (n l : Nat) : Bool := s.rb (pbf PB_PORT_STATUS.LINK_UP n l) && s.rb PAIR_STATUS.GATE && s.regionRuns n

/-- Send a pause or PFC frame from a front-panel port that can send, and count it ([13], and [2] and [3] by R599); a port in quiet leaves it
first (R123). -/
def State.sendCtl (s : State) (n l : Nat) (d : List Byte) : State :=
  if s.canSend n l then
    let s := if s.rb (LANE_PORT_STATUS.TX_QUIET n l) then (s.emit (.quiet (globalOf n l) 2)).wf (LANE_PORT_STATUS.TX_QUIET n l) 0 else s
    let s := s.emitFrame n l d true
    let t := s.strokeNow
    let s := ((s.portCount n l 13 t).portCount n l 2 t).countBy (pbf (fun a b c => PB_PORT_CNT.COUNT a b c 3) n l) 64 t
    let u := 8 * n + l / 8
    ((s.ev u 0x16 (some (l % 8)) 1 t (t * 2 ^ 32)).ev u 0x12 (some (l % 8)) 1 t (t * 2 ^ 32)).ev u 0x13 (some (l % 8)) 64 t (t * 2 ^ 32)
  else s

/-- TX_XOFF bit `p` of a port follows what it sends: 1 when a pause time other than 0 leaves it (R96). -/
def State.showXoff (s : State) (n l p t : Nat) : State :=
  let f := pbf PB_PORT_STATUS.TX_XOFF n l
  s.wf f (putBits (s.rf f) p 1 (b2n (t != 0 && s.canSend n l)))

/-- Send PFC priority `p` of a port with a time, and show it in TX_XOFF (R62). -/
def State.sendPfc (s : State) (n l p t : Nat) : State :=
  let s := s.showXoff n l p t
  s.sendCtl n l (ctlFrame (s.fcSa n l) true (2 ^ p) ((List.range 8).map (fun k => if k = p then t else 0)))

/-- Send a pause frame with a time (R62), shown in TX_XOFF bit 0: Table PM-18 gives a bit to each PFC priority and does not say which show 802.3
pause (DESIGN CHOICE, log entry 203). -/
def State.sendPause (s : State) (n l t : Nat) : State :=
  let s := s.showXoff n l 0 t
  s.sendCtl n l (ctlFrame (s.fcSa n l) false 0 [t])

/-- The valve of ingress class queue `q`, or 2000 + p for port pause, or 3000 + p for port admission, is asserted. -/
def State.valve (s : State) (n v : Nat) : Bool := v ∈ (s.rx n).valves

/-- Change a port pause or class valve, and send what R62 says when it changes. -/
def State.setValve (s : State) (n v : Nat) (b : Bool) : State :=
  if s.valve n v = b then s else
  let s := s.setRx n { s.rx n with valves := setMember (s.rx n).valves v b }
  if v < 1024 then
    let l := v / 16
    let p := v % 16 / 2
    if s.rf (pbf PB_FC_CFG.MODE n l) = 2 then
      if b then s.sendPfc n l p (s.rf (pbf PB_FC_TX.XOFF_QUANTA n l))
      else if s.valve n (l * 16 + 2 * p) || s.valve n (l * 16 + 2 * p + 1) then s
      else s.sendPfc n l p 0
    else s
  else if 2000 ≤ v ∧ v < 2064 ∧ s.rf (pbf PB_FC_CFG.MODE n (v - 2000)) = 1 then
    s.sendPause n (v - 2000) (if b then s.rf (pbf PB_FC_TX.XOFF_QUANTA n (v - 2000)) else 0)
  else s

/-- Change the ingress counters of a port and class by `u` units and set the valves they drive (R331, Table CS-3). -/
def State.portAdd (s : State) (n l cls : Nat) (u : Int) : State :=
  let x := s.rx n
  let q := l * 16 + cls
  let c := mget 0 x.portUnits l
  let c' := ((c : Int) + u).toNat
  let d := mget 0 x.clsUnits q
  let d' := ((d : Int) + u).toNat
  let s := s.setRx n { x with portUnits := mset 0 x.portUnits l c', clsUnits := mset 0 x.clsUnits q d' }
  let s := s.wf (CIS_IN_VALVE.UNITS n l) (min c' 65535)
  let lim := s.rf (CIS_IN_VALVE.PORT_LIMIT n l)
  let s := s.setValve n (3000 + l) (valveStep (s.valve n (3000 + l)) lim lim c c')
  let s := s.setValve n (2000 + l)
    (valveStep (s.valve n (2000 + l)) (s.rf (CIS_IN_VALVE.PAUSE_ON n l)) (s.rf (CIS_IN_VALVE.PAUSE_OFF n l)) c c')
  s.setValve n q (valveStep (s.valve n q) (s.rf (CIS_PFC_VALVE.ON n q)) (s.rf (CIS_PFC_VALVE.OFF n q)) d d')

/-- Change the region's ingress occupancy and its spill valve (Table CS-3). -/
def State.ingressAdd (s : State) (n : Nat) (u : Int) : State :=
  let c := s.rf (CIS_OCC.INGRESS_UNITS n)
  let s := s.occAdd n false u
  let v := valveStep (s.rx n).spillValve (s.rf (CIS_SPILL_CFG.REGION_ON n)) (s.rf (CIS_SPILL_CFG.REGION_OFF n)) c
    (s.rf (CIS_OCC.INGRESS_UNITS n))
  s.setRx n { s.rx n with spillValve := v }

/-! ### Thresholds written (R331) -/

/-- The thresholds of the valves of Table CS-3: port admission, port pause, PFC class, region spill, egress hold and egress drop. -/
def State.limitOf (s : State) (n l : Nat) : Nat × Nat := (s.rf (CIS_IN_VALVE.PORT_LIMIT n l), s.rf (CIS_IN_VALVE.PORT_LIMIT n l))
def State.pauseOf (s : State) (n l : Nat) : Nat × Nat := (s.rf (CIS_IN_VALVE.PAUSE_ON n l), s.rf (CIS_IN_VALVE.PAUSE_OFF n l))
def State.pfcOf (s : State) (n q : Nat) : Nat × Nat := (s.rf (CIS_PFC_VALVE.ON n q), s.rf (CIS_PFC_VALVE.OFF n q))
def State.spillAt (s : State) (n : Nat) : Nat × Nat := (s.rf (CIS_SPILL_CFG.REGION_ON n), s.rf (CIS_SPILL_CFG.REGION_OFF n))
def State.holdOf (s : State) (n q : Nat) : Nat × Nat := (s.rf (CIS_EQ_VALVE.HOLD_ON n q), s.rf (CIS_EQ_VALVE.HOLD_OFF n q))
def State.dropOf (s : State) (n q : Nat) : Nat × Nat := (s.rf (CIS_EQ_VALVE.DROP n q), s.rf (CIS_EQ_VALVE.DROP n q))

/-- `CIS_IN_VALVE[l]` was written; before, the machine was `o`. -/
def State.portValves (s o : State) (n l : Nat) : State :=
  let c := mget 0 (s.rx n).portUnits l
  let s := s.setValve n (3000 + l) (valveNow (s.valve n (3000 + l)) (o.limitOf n l) (s.limitOf n l) c)
  s.setValve n (2000 + l) (valveNow (s.valve n (2000 + l)) (o.pauseOf n l) (s.pauseOf n l) c)

/-- `CIS_PFC_VALVE[q]` was written. -/
def State.classValve (s o : State) (n q : Nat) : State :=
  s.setValve n q (valveNow (s.valve n q) (o.pfcOf n q) (s.pfcOf n q) (mget 0 (s.rx n).clsUnits q))

/-- `CIS_SPILL_CFG` was written. -/
def State.regionValve (s o : State) (n : Nat) : State :=
  s.setRx n { s.rx n with spillValve := valveNow (s.rx n).spillValve (o.spillAt n) (s.spillAt n) (s.rf (CIS_OCC.INGRESS_UNITS n)) }

/-- `CIS_EQ_VALVE[q]` was written. -/
def State.egressValves (s o : State) (n q : Nat) : State :=
  let x := s.rx n
  let c := mget 0 x.eqUnits q
  s.setRx n { x with
    holdV := setMember x.holdV q (valveNow (q ∈ x.holdV) (o.holdOf n q) (s.holdOf n q) c),
    dropV := setMember x.dropV q (valveNow (q ∈ x.dropV) (o.dropOf n q) (s.dropOf n q) c) }

/-- Take a buffer of pool `k` with count 1 (R329); an ingress buffer counts for its port and class. -/
def State.takeBuf (s : State) (n k : Nat) (egress : Bool) (l cls : Nat) : State × Nat :=
  let h := k * 65536 + s.freeBuf n k 0 (s.rf (CIS_POOL_CFG.COUNT n k))
  let s := s.setBufx n h ⟨1, egress, l, cls, false⟩
  let s := s.wf (CIS_POOL_STATUS.IN_USE n k) (s.rf (CIS_POOL_STATUS.IN_USE n k) + 1)
  let s := s.wf (CIS_POOL_STATUS.PEAK n k) (max (s.rf (CIS_POOL_STATUS.PEAK n k)) (s.rf (CIS_POOL_STATUS.IN_USE n k)))
  if egress then (s.occAdd n true (poolUnits k), h)
  else ((s.ingressAdd n (poolUnits k)).portAdd n l cls (poolUnits k), h)

/-- Add references to a buffer (R329). -/
def State.refBuf (s : State) (n h k : Nat) : State :=
  let b := s.bufx n h
  s.setBufx n h { b with count := min (b.count + k) 4095 }

/-- Log an ignored free (R330): handle, requester, reason and stroke, without merging repeats. -/
def State.freeViol (s : State) (n h rq reason : Nat) : State :=
  let was := s.rf (CIS_FREE_LOG_CTRL.VALID n)
  let s := s.logAdd (CIS_FREE_LOG.w n 0) 2 16 (CIS_FREE_LOG_CTRL.VALID n) (CIS_FREE_LOG_CTRL.OVERWRITTEN n)
    [h + rq * 2 ^ 18 + reason * 2 ^ 22, s.strokeNow % 2 ^ 32]
  let s := s.cisErrAt (CIS_ERR.FREE_VIOL n) n h
  if was = 0 then s.raise (regionSrc 0x351 n) (s.reg (CIS_FREE_LOG_CTRL.w n)).toNat else s

/-- One copy of a buffer is done with (R329, R330): requester `rq` of side `egress` decrements its count; at 0 it is freed. -/
def State.freeCopy (s : State) (n h rq : Nat) (egress : Bool) : State :=
  let b := s.bufx n h
  if b.count = 0 then s.freeViol n h rq 0
  else if b.egress != egress then s.freeViol n h rq 1
  else if 1 < b.count then s.setBufx n h { b with count := b.count - 1 }
  else
    let k := h / 65536
    let s := s.setBufx n h {}
    let s := s.wf (CIS_POOL_STATUS.IN_USE n k) (s.rf (CIS_POOL_STATUS.IN_USE n k) - 1)
    if egress then s.occAdd n true (-(poolUnits k : Int))
    else (s.ingressAdd n (-(poolUnits k : Int))).portAdd n b.port b.cls (-(poolUnits k : Int))

/-! ### Completions of transmit chains (R420, R425, R451, R457) -/

/-- Post the known completions of each transmit ring as far as the order of consumption allows; rings in `stop` wait. -/
def State.txPost (s : State) (stop : List Nat) (kept : List TxX) : List TxX → State
  | [] => s.withTxs kept
  | x :: l =>
    match x.cpl with
    | none => s.txPost (x.ring :: stop) (kept ++ [x]) l
    | some ws =>
      if x.cq = lostCq then s.txPost stop kept l
      else if x.ring ∈ stop then s.txPost stop (kept ++ [x]) l
      else
        let r := s.ringX x.ring
        ((s.setRingX x.ring { r with begun := r.begun - 1 }).postCpl x.cq ws).txPost stop kept l

/-- Change the chain that a frame came from, and post what can be posted. -/
def State.txMap (s : State) (r : TxRef) (g : TxX → TxX) : State :=
  let l := s.txs.map (fun x => if x.ring = r.ring ∧ x.index = r.index then g x else x)
  (s.withTxs l).txPost [] [] l

/-- The completion of a chain with a STATUS and the stamp block's words 2 and 3 (LEN apart). -/
def TxX.finish (x : TxX) (status w2 w3 : Nat) : TxX :=
  if x.cpl.isSome then x
  else { x with cpl := some [x.ring + status * 2 ^ 16 + x.flags, x.index, w2, x.len + w3] }

/-- `k` more copies of a frame exist (R451). -/
def State.txMore (s : State) (f : Frame) (k : Nat) : State :=
  match f.tx with
  | none => s
  | some r => s.withTxs (s.txs.map (fun x => if x.ring = r.ring ∧ x.index = r.index then { x with copies := x.copies + k } else x))

/-- A copy of a frame is gone; when it was the last, a chain that waits for its stamp completes with STATUS 3 (R451). -/
def State.txLess (s : State) (f : Frame) : State :=
  match f.tx with
  | none => s
  | some r => s.txMap r (fun x => if x.copies ≤ 1 then { x with copies := 0 }.finish 3 0 0 else { x with copies := x.copies - 1 })

/-- The buffer manager has admitted the frame of a chain; the chain waits for a stamp when it asked for one (R420, R451). -/
def State.txAdmitted (s : State) (f : Frame) : State :=
  match f.tx with
  | none => s
  | some r => s.txMap r (fun x => if x.tsReq then { x with copies := 1 } else x.finish 0 0 0)

/-- The frame of a chain is dropped at admission (Table DS-7). -/
def State.txRefused (s : State) (f : Frame) : State :=
  match f.tx with
  | none => s
  | some r => s.txMap r (fun x => x.finish 1 0 0)

/-- A copy is dropped in region `n`: a mirror copy counts in `CIS_CNT[9]` there (R351, R366; that it is the dropping region's counter is DEDUCED,
log entry 186). -/
def State.mirrorLost (s : State) (n : Nat) (f : Frame) : State := if f.kind = 2 then s.cisCount n 9 f.key.stroke else s

/-- An ingress copy of a frame is dropped by the flush logic of its side; requesters of Table CS-2. -/
def State.dropIn (s : State) (f : Frame) : State :=
  ((s.mirrorLost f.region f).freeCopy f.region f.buf (if inputOf f.key.port = 5 then 10 else 0) false).txLess f

/-! ### Actions (Table CL-3) -/

def actFwd (a : Nat) : Nat := bits a 0 2
def actPort (a : Nat) : Nat := bits a 2 10
def actGroup (a : Nat) : Nat := bits a 12 16
def actClass (a : Nat) : Nat := bits a 28 4
def actPolicer (a : Nat) : Nat := bits a 32 16
def actPolEn (a : Nat) : Bool := bit a 48
def actMirEn (a : Nat) : Bool := bit a 49
def actMirSession (a : Nat) : Nat := bits a 50 3
def actTrap (a : Nat) : Bool := bit a 53
def actRecirc (a : Nat) : Bool := bit a 54
def actReason (a : Nat) : Nat := bits a 56 8
def actFlowEn (a : Nat) : Bool := bit a 64
def actPart (a : Nat) : Nat := bits a 65 4
def actRoutine (a : Nat) : Nat := bits a 69 8
def actTtl (a : Nat) : Bool := bit a 77
def actDscpEn (a : Nat) : Bool := bit a 78
def actDscp (a : Nat) : Nat := bits a 79 6
def actVlanOp (a : Nat) : Nat := bits a 85 2
def actVid (a : Nat) : Nat := bits a 96 12
def actPcp (a : Nat) : Nat := bits a 108 3

/-! ### Meter slots (R385) -/

/-- Open meter slots of a region, shown in METER_OPEN. -/
def State.setSlots (s : State) (n : Nat) (l : List MeterSlot) : State :=
  (s.setRx n { s.rx n with slots := l }).wf (TM_STATUS.METER_OPEN n) (l.filter (fun x => !x.done)).length

/-- Cancel a frame's slot. -/
def State.cancelSlot (s : State) (f : Frame) : State :=
  if actPolEn f.act then
    let s := s.setSlots f.region ((s.rx f.region).slots.filter (fun x => x.key != f.key))
    s.setRx f.region { s.rx f.region with slotBad := (s.rx f.region).slotBad.filter (fun k => k != f.key) }
  else s

/-! ### Virtual output queues (R333, R338, R339) -/

/-- A queue of region `i`: VOQ (d, c), list `l` (67 = multicast). -/
def qIndex (d c l : Nat) : Nat := (d * 16 + c) * 68 + l

def State.queue (s : State) (i q : Nat) : QueueX := mget {} (s.rx i).voq q
def State.setQueue (s : State) (i q : Nat) (x : QueueX) : State := s.setRx i { s.rx i with voq := mset {} (s.rx i).voq q x }

/-- The units of a frame's buffer. -/
def bufUnits (f : Frame) : Nat := poolUnits (f.buf / 65536)

/-- An entry lies in the sump or waits for the sump writer. -/
def inSump (e : QEnt) : Bool := e.place = .toSump || e.place = .sump

/-- The depth of a queue: units of its frames in the cistern and in staging (R338). -/
def queueDepth (q : QueueX) : Nat := ((q.ents.filter (fun e => !inSump e)).map (fun e => bufUnits e.frame)).sum

/-- The pages of a region's sump (R340). -/
def State.sumpPages (s : State) (n : Nat) : Nat := s.rf (CIS_SUMP_STATUS.PAGES_LIVE n)

/-- A page lies in a live pseudo-channel of its stack (R477). -/
def State.pageLive (s : State) (n p : Nat) : Bool := bit (s.rf (FE_PC_LIVE.LIVE n)) (p % 32)

/-- A live page of the sump is free. -/
def State.sumpFree (s : State) (n : Nat) : Bool := decide (((s.rx n).pages.filter (s.pageLive n)).length < s.sumpPages n)

/-- Pages leave the sump of region `n` unless another frame lies in them too (R340). -/
def State.freePages (s : State) (n : Nat) (ps : List Nat) : State :=
  let x := s.rx n
  let used := x.voq.flatMap (fun p => p.2.ents.flatMap (fun e => if e.place = .sump then e.pages else []))
  let gone := ps.filter (fun p => !(p ∈ used))
  let voq := x.voq.map (fun p => (p.1, if p.2.page.any (· ∈ gone) then { p.2 with page := none, fill := 0 } else p.2))
  let pages := x.pages.filter (fun p => !(p ∈ gone))
  (s.setRx n { x with voq := voq.filter (fun p => p.2 != {}), pages := pages }).wf (CIS_SUMP_USED.PAGES_USED n) pages.length

/-- What an entry of a queue of region `n` holds is freed once it has left its queue: its ingress buffer or its sump pages. -/
def State.freeEnt (s : State) (n : Nat) (e : QEnt) : State :=
  match e.place with
  | .cistern | .toSump => s.freeCopy n e.frame.buf (if inputOf e.frame.key.port = 5 then 10 else 0) false
  | .sump => s.freePages n e.pages
  | .staging => s

/-- A region copy is replicated or gone (R347, R348, R565). -/
def State.copyDone (s : State) (f : Frame) : State :=
  match f.dest with
  | .group _ => s.wf (WL_MC_INFLIGHT.COPIES f.bank) (s.rf (WL_MC_INFLIGHT.COPIES f.bank) - 1)
  | _ => s

/-- An entry that has left its queue is discarded. -/
def State.dropEnt (s : State) (n : Nat) (e : QEnt) : State := (((s.mirrorLost n e.frame).freeEnt n e).copyDone e.frame).txLess e.frame

/-- Queues in spill, shown in `CIS_SUMP_QUEUES`. -/
def State.noteSpill (s : State) (n : Nat) : State :=
  s.wf (CIS_SUMP_QUEUES.SPILLING n) ((s.rx n).voq.filter (fun p => p.2.spill)).length

/-- The next enqueue sequence number of VOQ `v` (R333). -/
def State.nextSeq (s : State) (n v : Nat) : State × Nat :=
  let x := s.rx n
  let k := mget 0 x.vseq v
  (s.setRx n { x with vseq := mset 0 x.vseq v ((k + 1) % 2 ^ 32) }, k)

/-- A frame is dropped at its release before it could wait for a colour: its meter slot is cancelled (R41, R385). -/
def State.unmeter (s : State) (f : Frame) (waitCol : Bool) : State := if waitCol then s.cancelSlot f else s

/-- A copy that could not be enqueued is gone; a region copy is in flight no longer (R347, R372). -/
def State.copyGone (s : State) (f : Frame) : State := (s.copyDone f).dropIn f

/-- Enqueue a released frame into list `l` of VOQ (d, c) of its region, through the check valve (R338, R342). -/
def State.enqueue (s : State) (f : Frame) (d c l : Nat) (waitCol : Bool) : State :=
  let i := f.region
  let q := qIndex d c l
  let x := s.queue i q
  let depth := queueDepth x
  let sump :=
    if x.spill then true
    else if !s.rb (CIS_CFG.SPILL_EN i) || s.rf (CIS_SUMP_CFG.SIZE_MIB i) = 0 || l = 66 || !s.sumpFree i then false
    else decide (s.rf (CIS_SPILL_Q.Q_MAX i) ≤ depth) ||
      ((s.rx i).spillValve && decide (s.rf (CIS_SPILL_Q.Q_MIN i) ≤ depth))
  if sump && !s.sumpFree i then
    let s := (s.cisCount i 6 f.key.stroke).cisErrAt (CIS_ERR.SUMP_EXHAUST i) i f.buf
    ((s.detSet CHIP_DET_STATUS.SUMP_EXHAUST s.strokeNow).unmeter f (waitCol && l != 67)).copyGone f
  else
    let (s, k) := s.nextSeq i (d * 16 + c)
    let x := s.queue i q
    let s := s.setQueue i q { x with
      ents := x.ents ++ [{ frame := { f with cut := f.cut && !sump }, seq := k, place := if sump then .toSump else .cistern, waitCol := waitCol }],
      spill := x.spill || sump }
    if sump then ((s.cisCount i 5 f.key.stroke).ev (112 + i) 0x11 none 1 f.key.stroke f.key.num).noteSpill i else s

/-! ### Colours (R389) -/

/-- The colour of a frame returns to its entries in the queues of region `n`; `red` names the policer's region when it is to be
discarded. -/
def State.colourReturn (s : State) (n : Nat) (k : FKey) (col : Nat) (red : Option Nat) : State :=
  let x := s.rx n
  let f := fun (e : QEnt) =>
    if e.frame.key = k ∧ e.waitCol then { e with waitCol := false, dropRed := red, frame := { e.frame with colour := col } } else e
  s.setRx n { x with voq := x.voq.map (fun p => (p.1, { p.2 with ents := p.2.ents.map f })) }

/-! ### Egress class queues (R352, R373, Table CS-3) -/

def State.egq (s : State) (n q : Nat) : EgQ := mget {} (s.rx n).eq q
def State.setEgq (s : State) (n q : Nat) (x : EgQ) : State := s.setRx n { s.rx n with eq := mset {} (s.rx n).eq q x }

def State.sgroup (s : State) (n l g : Nat) : SchedX := mget {} (s.rx n).groups (l * 8 + g)
def State.setSgroup (s : State) (n l g : Nat) (x : SchedX) : State :=
  s.setRx n { s.rx n with groups := mset {} (s.rx n).groups (l * 8 + g) x }

/-- The group of a class. -/
def State.classGroup (s : State) (n q : Nat) : Nat := s.rf (TM_CLASS.GROUP n q)

/-- The non-strict classes of a group. -/
def State.groupClasses (s : State) (n l g : Nat) : List Nat :=
  (List.range 16).filter (fun c => s.classGroup n (l * 16 + c) = g && !s.rb (TM_CLASS.STRICT n (l * 16 + c)))

/-- Every class of a group is empty. -/
def State.groupEmpty (s : State) (n l g : Nat) : Bool := (s.groupClasses n l g).all (fun c => (s.egq n (l * 16 + c)).ents.isEmpty)

/-- A queue that became empty, and its group when that is empty too, take the virtual time when they next hold a frame (R376). -/
def State.noteEmpty (s : State) (n q : Nat) : State :=
  let x := s.egq n q
  let g := s.classGroup n q
  if x.ents.isEmpty then
    let s := s.setEgq n q { x with wasEmpty := true, wasElig := false, since := none, blocked := false }
    if s.groupEmpty n (q / 16) g then s.setSgroup n (q / 16) g { s.sgroup n (q / 16) g with wasEmpty := true, wasElig := false } else s
  else s

/-- Put the entries of an egress class queue, keeping its depth, its backlog bit and its valves. -/
def State.setEgEnts (s : State) (n q : Nat) (l : List EgEnt) : State :=
  let c := mget 0 (s.rx n).eqUnits q
  let c' := (l.map (fun e => bufUnits e.frame)).sum
  let s := s.setEgq n q { s.egq n q with ents := l }
  let x := s.rx n
  let s := s.setRx n { x with
    eqUnits := mset 0 x.eqUnits q c',
    holdV := setMember x.holdV q (valveStep (q ∈ x.holdV) (s.rf (CIS_EQ_VALVE.HOLD_ON n q)) (s.rf (CIS_EQ_VALVE.HOLD_OFF n q)) c c'),
    dropV := setMember x.dropV q (valveStep (q ∈ x.dropV) (s.rf (CIS_EQ_VALVE.DROP n q)) (s.rf (CIS_EQ_VALVE.DROP n q)) c c') }
  let s := (s.noteEmpty n q).wf (TM_CLASS.DEPTH n q) (min c' 131071)
  s.wf (TM_PORT.BACKLOG n (q / 16)) (putBits (s.rf (TM_PORT.BACKLOG n (q / 16))) (q % 16) 1 (b2n (!l.isEmpty)))

/-- An egress copy of a frame is done with: its buffer is freed by requester `rq` (R329). -/
def State.dropEg (s : State) (n : Nat) (f : Frame) (rq : Nat) : State := (s.freeCopy n f.buf rq true).txLess f

/-- An egress copy is dropped. -/
def State.loseEg (s : State) (n : Nat) (f : Frame) (rq : Nat) : State := (s.mirrorLost n f).dropEg n f rq

/-! ### Commands of command rings (R455, R459) -/

/-- A table or flow command completes. -/
def State.cmdDone (s : State) (c : CmdX) (status stroke : Nat) : State :=
  s.postCpl c.cq [c.ring + 2 * 2 ^ 14 + status * 2 ^ 16 + c.op * 2 ^ 24, c.ix, stroke % 2 ^ 32, stroke / 2 ^ 32 % 2 ^ 16]

/-! ### Release (R338, R346, R347, R385) -/

/-- The class of a frame: a copy carries its own (R350, R210); the frame's comes from its action (Table CL-3). -/
def frameClass (f : Frame) : Nat := bits f.act 28 4

/-- A frame is lost to the discard port (R14). -/
def State.discardPort (s : State) (f : Frame) : State := (s.withDiscards (s.discards + 1)).dropIn f

/-- Release a unicast frame or copy to port `p` in class `c` (R333); a front-panel port down past its hold drops it (R83), and another region's
recirculation port is the discard port (log entry 19). A frame dropped here is not metered (R385). -/
def State.releasePort (s : State) (f : Frame) (p c : Nat) (waitCol : Bool) : State :=
  if !realPort p || (decide (528 ≤ p) && p != 528 + f.region) then (s.unmeter f waitCol).discardPort f
  else
    let d := regionOf p
    let l := localOf p
    if p < 512 ∧ s.rb (pbf PB_PORT_STATUS.DOWN_DISCARD d l) then ((s.portCount d l 18 f.key.stroke).unmeter f waitCol).dropIn f
    else s.enqueue { f with dest := .port p } d c l waitCol

/-- The number of a group entry or of a node in `State.mcBad`. -/
def groupKey (n b g : Nat) : Nat := n * 131072 + b * 16384 + g
def nodeKey (n i : Nat) : Nat := n * 131072 + 65536 + i

/-- A frame waits for its colour in a queue of its region. -/
def State.awaits (s : State) (f : Frame) : Bool :=
  (s.rx f.region).voq.any (fun p => p.2.ents.any (fun e => e.waitCol && e.frame.key = f.key))

/-- A read of a group entry or node, by its number in `State.mcBad`: false when it fails. One in error fails every read until it is rewritten, and
each read is a detection (R555, R556). -/
def State.mcRead (s : State) (n key : Nat) (chk : ReadCheck) : State × Bool :=
  match s.mcBad.find? (fun p => p.1 = key) with
  | some (_, loc) => (s.detect n 5 loc false, false)
  | none => match chk with
    | .good => (s, true)
    | .retried loc => (s.detect n 5 loc.toNat true, true)
    | .failed loc => ((s.withMcBad ((key, loc.toNat) :: s.mcBad)).detect n 5 loc.toNat false, false)

/-- Make the region copies of a group (R347); an entry whose read fails makes none, and each is counted (R556). A frame that no queue took is
not metered (R385). -/
def State.releaseGroup (s : State) (f : Frame) (g c : Nat) (waitCol : Bool) : State :=
  if 16384 ≤ g then (s.unmeter f waitCol).discardPort f
  else
    let regs := s.rf (CIS_MC_GROUP.REGIONS f.region f.bank g)
    match s.mcRead f.region (groupKey f.region f.bank g) .good with
    | (s, false) =>
      (s.countBy (CIS_CNT.COUNT f.region 10) (((List.range 8).filter (bit regs)).length) f.key.stroke).unmeter f waitCol |>.dropIn f
    | (s, true) =>
      let s := (List.range 8).foldl (fun s d =>
        if bit regs d then
          let s := ((s.refBuf f.region f.buf 1).txMore f 1).addSat (WL_MC_INFLIGHT.COPIES f.bank) 1
          s.enqueue { f with dest := .group g } d c 67 waitCol
        else s) s
      (s.unmeter f (waitCol && !s.awaits f)).dropIn f

/-! ### Admission (R326, R327, R332) -/

/-- The ingress class of a frame (R332). -/
def State.ingressClass (s : State) (n l : Nat) (d : List Byte) : Nat :=
  let k := if tagged d then outerTci d / 8192 else s.rf (CIS_IN_VALVE.DEFAULT_PCP n l)
  s.rf (CIS_IN_VALVE.PRI_MAP n l k)

/-- Admit a frame of local port `l` and stroke `t` into a buffer, or drop it and count the drop (R327). -/
def State.takeIn (s : State) (n l : Nat) (d : List Byte) (t item : Nat) : State × Option Nat :=
  match s.pickPool n (d.length + 4) with
  | none => ((s.cisCount n 0 t).ev (112 + n) 0x15 none 1 t item, none)
  | some k =>
    if s.rf (CIS_POOL_LIMIT.ING_LIMIT n k) ≤ s.rf (CIS_POOL_STATUS.IN_USE n k) then ((s.cisCount n 0 t).ev (112 + n) 0x15 none 1 t item, none)
    else if s.valve n (3000 + l) then ((s.cisCount n 1 t).ev (112 + n) 0x15 none 1 t item, none)
    else
      let (s, h) := s.takeBuf n k false l (s.ingressClass n l d)
      (s.ev (112 + n) 0x10 (some k) 1 t item, some h)

end Sys2Proof.Machine
end

