-- ==== Sys2Proof/Machine/Verdict.lean ====
section
/-! DEFINITION. What becomes of a classified frame: its action set and header vector (Tables CL-3, PG-1), trap and mirror copies
(R179, R350, R351), meter slots (R385, R388), and the verdict precedence of Table CL-4. -/

namespace Sys2Proof.Machine

/-! ### Ordering keys (R30) -/

/-- Key `a` precedes key `b`. -/
def keyLt (a b : FKey) : Bool :=
  if a.stroke = b.stroke then (if a.port = b.port then decide (a.seq < b.seq) else decide (a.port < b.port))
  else strokeLt a.stroke b.stroke

/-- The key as ten bytes, most significant first (Table PG-1). -/
def FKey.bytes (k : FKey) : List Byte := bytesBE 10 k.num

/-- The stroke time of a stroke in ns (R38): the ordering-source time at its start. Strokes wrap after 2^48; the time's high
part is the ordering source's own. -/
def State.strokeTime (s : State) (stroke : Nat) : Nat :=
  let now := s.orderNs / s.strokeLen
  (if strokeLe stroke (now % 2 ^ 48) then now - strokeDiff stroke (now % 2 ^ 48) else now + strokeDiff (now % 2 ^ 48) stroke) *
    s.strokeLen

/-! ### Header vectors (Table PG-1) -/

/-- HDR_VALID bit `i` of a header vector. -/
def hvValid (hv : List Byte) (i : Nat) : Bool := bit (byteAt hv (23 - i / 8)) (i % 8)

/-- The start offset recorded in slot `k`; 0xFFFF when it was not written. -/
def hvSlot (hv : List Byte) (k : Nat) : Nat := be16 hv (24 + 2 * k)

/-- FRAME_LEN: the length in bytes, FCS included. -/
def Frame.len (f : Frame) : Nat := f.data.length + 4

/-- The frame has a flow key (R154). -/
def hvKeyed (hv : List Byte) : Bool := bit (byteAt hv 40) 7

/-! ### Ingress pipelines -/

def State.pipe (s : State) (n p : Nat) : PipeX := mget {} s.pipes (n * 2 + p)
def State.setPipe (s : State) (n p : Nat) (x : PipeX) : State := s.withPipes (mset {} s.pipes (n * 2 + p) x)

/-- Set a bit of `IP_CL_ERR`, raising event 0x322 + pipeline (R194). -/
def State.clErr (s : State) (f : Fld) (n p : Nat) : State := s.setErr f (regionSrc 0x322 n + p)

/-! ### Copies (R179, R350, R351) -/

/-- Make a trap copy of a frame to the pipeline's host channel, carrying `reason`; one at most per pass. -/
def State.trapCopy (s : State) (f : Frame) (reason : Nat) : State :=
  let n := f.region
  ((s.refBuf n f.buf 1).txMore f 1).releasePort { f with kind := 1, reason := reason, cut := false } (512 + 2 * n + f.pipe)
    (s.rf (CIS_CFG.TRAP_CLASS n)) false

/-- Count a frame for mirror session `k` (R350): true when it brings the count to N. -/
def State.mirrorHit (s : State) (f : Frame) (k : Nat) : State × Bool :=
  let x := s.pipe f.region f.pipe
  let i := k * 1024 + f.key.port
  let c := mget 0 x.mir i + 1
  let hit := decide (s.rf (CIS_MIR.N f.region k) ≤ c)
  (s.setPipe f.region f.pipe { x with mir := mset 0 x.mir i (if hit then 0 else c) }, hit)

/-- Make the mirror copy of a frame whose count is reached (R351). -/
def State.mirrorCopy (s : State) (f : Frame) (k : Nat) : State :=
  let n := f.region
  let t := s.rf (CIS_MIR.TRUNC n k)
  let p := s.rf (CIS_MIR.PORT n k)
  let s := (s.cisCount n 8 f.key.stroke).ev (112 + n) 0x17 none 1 f.key.stroke f.key.num
  ((s.refBuf n f.buf 1).txMore f 1).releasePort
    { f with kind := 2, data := f.data.take t, trunc := decide (t < f.data.length), cut := false } p
    (s.rf (CIS_MIR.CLASS n k)) false

/-- Make the mirror copy of an action with MIR_EN, when its session is enabled and the count reaches N (R350). -/
def State.mirror (s : State) (f : Frame) : State :=
  let k := actMirSession f.act
  if actMirEn f.act then
    let (s, hit) := s.mirrorHit f k
    if hit && s.rb (CIS_MIR.EN f.region k) then s.mirrorCopy f k else s
  else s

/-! ### Meter slots (R385, R388) -/

/-- The pre-colour of a frame: 0 green, 1 yellow, 2 red (R388). -/
def State.preColour (s : State) (f : Frame) : Nat :=
  let n := f.region
  if s.rf (TM_CFG.PRECOL_SRC n) = 0 then
    if hvValid f.hv (s.rf (TBL_LKP_SEL0.TAG_HDR n)) && bit (be16 f.hv (s.rf (TBL_LKP_SEL0.VID_OFF n))) 12 then 1 else 0
  else
    let h := hvSlot f.hv (s.rf (TM_CFG.PRECOL_SLOT n))
    if h = 0xFFFF then 0
    else
      let dscp := if byteAt f.data h / 16 = 6 then be16 f.data h / 64 % 64 else byteAt f.data (h + 1) / 4
      min 2 (s.rf (TM_PRECOL_MAP.COLOUR n (dscp / 16) (dscp % 16)))

/-- Put a slot in key order. -/
def insertSlot (x : MeterSlot) : List MeterSlot → List MeterSlot
  | [] => [x]
  | y :: l => if keyLt x.key y.key then x :: y :: l else y :: insertSlot x l

/-- Open a slot for a pass with POL_EN. -/
def State.openSlot (s : State) (f : Frame) : State :=
  s.setSlots f.region (insertSlot { key := f.key } (s.rx f.region).slots)

/-- Complete a frame's slot for policer region `j`. -/
def State.completeSlot (s : State) (f : Frame) (j : Nat) : State :=
  if actPolEn f.act then
    let r := (j, actPolicer f.act, f.len, s.preColour f)
    s.setSlots f.region ((s.rx f.region).slots.map (fun x => if x.key = f.key then { x with done := true, req := some r } else x))
  else s

/-- A frame's meter slot was found in error while it was open: at its release the frame is discarded and counted, and nothing is metered (R393). -/
def State.slotLost (s : State) (f : Frame) : Bool := actPolEn f.act && decide (f.key ∈ (s.rx f.region).slotBad)
def State.slotDrop (s : State) (f : Frame) : State := (s.cancelSlot f).cisCount f.region 10 f.key.stroke |>.dropIn f

/-! ### Endpoint slots -/

/-- An endpoint slot of region `n`. -/
def State.ep (s : State) (n i : Nat) : Nat := mget 0 s.eps (n * 2 ^ 20 + i)

/-- The hit bit that a frame or learn of stroke `t` sets (R218): 86 or 87; 86 while N is 0. -/
def State.hitBit (s : State) (n t : Nat) : Nat :=
  let nn := s.rf (TBL_AGE_CFG.N n)
  if nn = 0 then 86 else 86 + strokeDiff (s.rf (TBL_AGE_BASE.STROKE n)) t / nn % 2

def State.tbl (s : State) (n : Nat) : TblX := mget {} s.tbls n
def State.setTbl (s : State) (n : Nat) (x : TblX) : State := s.withTbls (mset {} s.tbls n x)

/-- A frame hits an entry of its region, known by its slot and key (R211): the hit waits for its logical point, the frame's key (R212). -/
def State.noteHit (s : State) (f : Frame) (e : Nat × List Byte) : State :=
  let x := s.tbl f.region
  s.setTbl f.region { x with hits := x.hits ++ [⟨f.key, e.1, e.2⟩] }

/-! ### Verdicts (Table CL-4) -/

/-- Drop a frame at its verdict: its slot is cancelled and its buffer freed. -/
def State.dropFrame (s : State) (f : Frame) : State := (s.cancelSlot f).dropIn f

/-- Another pass (R183), or the limit of R184; a frame whose open slot was in error is discarded (R393). -/
def State.recircFrame (s : State) (f : Frame) : State :=
  let n := f.region
  if s.slotLost f then s.slotDrop f else
  let s := s.cancelSlot f
  if 3 ≤ f.pass then
    ((s.addSat (IP_CL_RECIRC_DROPS.COUNT n f.pipe) 1).clErr (IP_CL_ERR.RECIRC_LIMIT n f.pipe) n f.pipe).dropIn f
  else s.enqueue { f with dest := .port (528 + n) } n (frameClass f) 66 false

/-- Forward a frame to a port; the region's own recirculation port is another pass (log entry 19). -/
def State.forwardPort (s : State) (f : Frame) (p : Nat) : State :=
  if p = 528 + f.region then s.recircFrame f
  else if 528 ≤ p then (s.cancelSlot f).discardPort f
  else if s.slotLost f then s.slotDrop f
  else (s.completeSlot f (regionOf p)).releasePort f p (frameClass f) (actPolEn f.act)

/-- Forward a frame to a multicast group (R347, R385). -/
def State.forwardGroup (s : State) (f : Frame) (g : Nat) : State :=
  let regs := if g < 16384 then s.rf (CIS_MC_GROUP.REGIONS f.region f.bank g) else 0
  match (List.range 8).find? (fun d => bit regs d) with
  | none => (s.cancelSlot f).releaseGroup f g (frameClass f) false
  | some d => if s.slotLost f then s.slotDrop f else (s.completeSlot f d).releaseGroup f g (frameClass f) (actPolEn f.act)

/-- Act on a destination. -/
def State.forward (s : State) (f : Frame) (d : Dest) : State :=
  match d with
  | .port p => s.forwardPort f p
  | .group g => s.forwardGroup f g
  | _ => s.dropFrame f

/-- The verdict comes from the forwarding tables (row 6): the decision's hit bit and its trap copy take effect (R210, R211). -/
def State.forwardTables (s : State) (f : Frame) : State :=
  let s := match f.dec.hit with
    | some e => s.noteHit f e
    | none => s
  let s := if f.dec.noL2 then s.setRx f.region { s.rx f.region with noL2 := (s.rx f.region).noL2 + 1 } else s
  let s := if f.dec.missTrap && !f.trapMade then s.trapCopy f (s.rf (TBL_CFG.ROUTE_MISS_REASON f.region)) else s
  s.forward f f.dec.dest

/-- The multicast group whose entry the verdict of a frame reads (Table CL-4). -/
def verdictGroup (f : Frame) : Option Nat :=
  if actFwd f.act = 3 || actRecirc f.act then none
  else match f.verd with
    | some (1, _) | some (2, _) | some (3, _) => none
    | _ =>
      if actFwd f.act = 2 then some (actGroup f.act)
      else if actFwd f.act = 1 then none
      else match f.dec.dest with
        | .group g => some g
        | _ => none

/-- What the ingress read of a frame's group entry meets (R556): a retry that mends it is logged here; an entry that stays in error is met by the
read that follows. -/
def State.groupCheck (s : State) (f : Frame) (chk : ReadCheck) : State :=
  match verdictGroup f, chk with
  | some _, .retried loc => s.detect f.region 5 loc.toNat true
  | some g, .failed loc =>
    let k := groupKey f.region f.bank g
    if s.mcBad.any (fun p => p.1 = k) then s else s.withMcBad ((k, loc.toNat) :: s.mcBad)
  | _, _ => s

/-- Decide a frame's fate by the rows of Table CL-4 and act on it. -/
def State.verdict (s : State) (f : Frame) : State :=
  let plain := { f with dec := {} }
  if actFwd f.act = 3 then s.dropFrame f
  else match f.verd with
    | some (1, p) => s.forwardPort plain p
    | some (2, _) => s.dropFrame f
    | some (3, _) => s.recircFrame plain
    | _ =>
      if actRecirc f.act then s.recircFrame plain
      else if actFwd f.act = 1 then s.forwardPort plain (actPort f.act)
      else if actFwd f.act = 2 then s.forwardGroup plain (actGroup f.act)
      else s.forwardTables f

end Sys2Proof.Machine
end

