-- ==== Sys2Proof/Machine/Records.lean ====
section
/-! DEFINITION. Flow records (file 08) and their storage (file 07): the logical record, counters in exponent form (R274, R275),
times (R276), the stored forms C4, C6 and U (R279 to R283), the IPv6 prefix dictionary (R284), buckets, placement, eviction
(R240 to R243, R253), the flow cache (R245) and the reports and digests of changes (R254, R543). -/

namespace Sys2Proof.Machine

/-! ### The logical record (Table FR-2), 64 bytes -/

/-- Word `w` of a record, little-endian (R272). -/
def recWord (r : List Byte) (w : Nat) : Nat := natLE (bytesAt r (4 * w) 4)

/-- The record with word `w` replaced. -/
def setRecWord (r : List Byte) (w v : Nat) : List Byte := overwrite r (4 * w) (bytesLE 4 v)

/-- The normalised key of a record. -/
def recKey (r : List Byte) : List Byte := r.take 40

def recPart (r : List Byte) : Nat := bits (recWord r 10) 0 4
def recVs (r : List Byte) : Bool := bit (recWord r 10) 8
def recPf (r : List Byte) : Bool := bit (recWord r 10) 9
def recBf (r : List Byte) : Bool := bit (recWord r 10) 10
def recHist (r : List Byte) : Nat := bits (recWord r 10) 12 12
def recPkts (r : List Byte) : Nat := recWord r 11
def recFirst (r : List Byte) : Nat := recWord r 13
def recLast (r : List Byte) : Nat := recWord r 14
def recState (r : List Byte) : Nat := recWord r 15

/-- The byte count while BF = 0 (R274). -/
def recBytes (r : List Byte) : Nat := recWord r 12 + bits (recWord r 10) 24 8 * 2 ^ 32

/-- (LAST − FIRST) mod 2^32 (R279). -/
def recAge (r : List Byte) : Nat := (recLast r + 2 ^ 32 - recFirst r) % 2 ^ 32

/-- Word 10 with PART, TCP and VS only: what the stable view and the digest keep of it (R247, R543). -/
def recViewCtrl (r : List Byte) : Nat := bits (recWord r 10) 0 9

/-! ### Counters (R274, R275) -/

/-- The count that a field in exponent form encodes. -/
def expValue (f : Nat) : Nat := (2 ^ 24 + bits f 0 24) * 2 ^ bits f 24 8

/-- The exponent form of sum `s` with offset source `crc` (R275). -/
def expForm (emin s crc : Nat) : Nat :=
  let e := max emin (Nat.log2 s - 24)
  let q := (s + crc % 2 ^ e) / 2 ^ e
  if q = 2 ^ 25 then (if 255 ≤ e then 255 * 2 ^ 24 + (2 ^ 24 - 1) else (e + 1) * 2 ^ 24)
  else if 255 < e then 255 * 2 ^ 24 + (2 ^ 24 - 1)
  else e * 2 ^ 24 + (q - 2 ^ 24)

/-- Add to PKTS (`f` false) or BYTES (`f` true) of a record; `okey` is the frame's ordering key as ten bytes. The Bool says that
the result is in exponent form. -/
def counterAdd (r : List Byte) (f : Bool) (inc : Nat) (okey : List Byte) : List Byte × Bool :=
  let c := recWord r 10
  let crc := crc32c (recKey r ++ okey)
  if f then
    let s := (if recBf r then expValue (recWord r 12) else recBytes r) + inc
    if s < 2 ^ 40 then (setRecWord (setRecWord r 12 s) 10 (putBits (putBits c 24 8 (s / 2 ^ 32)) 10 1 0), false)
    else (setRecWord (setRecWord r 12 (expForm 16 s crc)) 10 (putBits (putBits c 24 8 0) 10 1 1), true)
  else
    let s := (if recPf r then expValue (recPkts r) else recPkts r) + inc
    if s < 2 ^ 32 then (setRecWord (setRecWord r 11 s) 10 (putBits c 9 1 0), false)
    else (setRecWord (setRecWord r 11 (expForm 8 s crc)) 10 (putBits c 9 1 1), true)

/-- R276: a stroke time in quanta of 1,024 ns. -/
def quanta (ns : Nat) : Nat := ns / 1024 % 2 ^ 32

/-! ### Keys (R239, R271) -/

/-- An address of a key is in IPv4 form: its bytes 0 to 11 are zero. -/
def ip4Form (k : List Byte) (off : Nat) : Bool := beAt k off 12 = 0

/-- Endpoint A or B of a key as an 18-byte number. -/
def endpointNum (k : List Byte) (b : Bool) : Nat :=
  if b then beAt k 16 16 * 2 ^ 16 + be16 k 34 else beAt k 0 16 * 2 ^ 16 + be16 k 32

/-- Byte 37 set to 0, and the endpoints exchanged when `norm` and A is the greater: the key and DIR. -/
def normalise (norm : Bool) (k : List Byte) : List Byte × Nat :=
  let k := overwrite (bytesAt k 0 40) 37 [0]
  if norm && decide (endpointNum k true < endpointNum k false) then
    (bytesAt k 16 16 ++ bytesAt k 0 16 ++ bytesAt k 34 2 ++ bytesAt k 32 2 ++ bytesAt k 36 4, 1)
  else (k, 0)

/-! ### Buckets (R240 to R243) -/

/-- A frequency change holds every access of a stack (R493). -/
def State.hbmBusy (s : State) (st : Nat) : Bool := s.rb (HBM_FREQ_CTRL.BUSY st)

/-- Nb: the buckets of each engine's share. -/
def State.nb (s : State) : Nat := if s.rf CHIP_ID.HBM_GIB = 64 then 2 ^ 24 else 2 ^ 23

/-- The byte address of a bucket of engine `e` within its pseudo-channel (R241). -/
def State.bucketAddr (s : State) (e b : Nat) : Nat := (e % 2 * (s.nb / 32) + b / 32) * 128

/-- The physical bucket of a logical bucket (R242): the first live pseudo-channel at or after its own. -/
def State.fold (s : State) (e b : Nat) : Nat :=
  let live := s.rf (FE_PC_LIVE.LIVE e)
  match (List.range 32).find? (fun i => bit live ((b + i) % 32)) with
  | some i => b / 32 * 32 + (b + i) % 32
  | none => b

/-- h0 and h1 of a key (R240). -/
def State.hashes (s : State) (e part : Nat) (k : List Byte) : Nat × Nat :=
  let nb := s.nb
  let h0 := crc32c (BitVec.ofNat 8 part :: k) % nb
  let h1 := crc32c (bytesBE 4 (s.rf (FE_HASH_SEED.SEED e)) ++ (BitVec.ofNat 8 part :: k)) % nb
  (h0, if h1 = h0 then (h0 + 1) % nb else h1)

/-- The home engine of a key that enters region `n` (R237). -/
def State.homeOf (s : State) (n part : Nat) (k : List Byte) : Nat :=
  if s.rb (FE_PART_CFG.MODE n part) then
    let hh := crc32c (bytesBE 4 (s.rf (FE_HOME_SEED.SEED n)) ++ (BitVec.ofNat 8 part :: k)) / 2 ^ 26 % 64
    s.rf (FE_HOME_MAP.ENGINE n (hh / 8) (hh % 8))
  else n

/-- The number of a slot in `State.slots`. -/
def slotId (e b k : Nat) : Nat := e * 2 ^ 26 + b * 4 + k

/-- The 32 bytes of a slot. -/
def State.slotBytes (s : State) (e b k : Nat) : List Byte := bytesLE 32 (mget 0 s.slots (slotId e b k))

/-- FMT of a slot's tag (Table FR-6); the first slot of a U pair has none. -/
def State.slotFmt (s : State) (e b k : Nat) : Nat :=
  let tag := fun j => byteAt (s.slotBytes e b j) 5 % 4
  if k % 2 = 1 then tag k else if tag (k + 1) = 3 then 4 else tag k

/-- Slot `k` of a bucket is free. -/
def State.slotFree (s : State) (e b k : Nat) : Bool := s.slotFmt e b k = 0

/-- The spill count of a bucket (R282). -/
def State.spillOf (s : State) (e b : Nat) : Nat := byteAt (s.slotBytes e b 1) 5 / 4 + 64 * (byteAt (s.slotBytes e b 3) 5 / 4)

/-- Put a slot, keeping the SPILL bits of slots 1 and 3. The first slot of a U pair (`raw`) has no tag. -/
def State.putSlot (s : State) (e b k : Nat) (raw : Bool) (d : List Byte) : State :=
  let keep := if k % 2 = 1 then byteAt (s.slotBytes e b k) 5 / 4 * 4 else 0
  let d := if raw then d else overwrite d 5 [BitVec.ofNat 8 (byteAt d 5 % 4 + keep)]
  s.withSlots (mset 0 s.slots (slotId e b k) (natLE (bytesAt d 0 32)))

/-- Set the spill count of a bucket. -/
def State.setSpill (s : State) (e b v : Nat) : State :=
  let put := fun (s : State) k x =>
    let d := s.slotBytes e b k
    s.withSlots (mset 0 s.slots (slotId e b k) (natLE (overwrite d 5 [BitVec.ofNat 8 (byteAt d 5 % 4 + x * 4)])))
  put (put s 1 (v % 64)) 3 (v / 64)

/-- Step the spill count of a bucket up or down; at 4,095 it counts in neither direction. -/
def State.spillStep (s : State) (e b : Nat) (up : Bool) : State :=
  let v := s.spillOf e b
  if v = 4095 then s else s.setSpill e b (if up then v + 1 else v - 1)

/-! ### The prefix dictionary (R284) -/

/-- The (ZONE, /64 prefix) pair of an address of a key, as a number. -/
def prefixOf (k : List Byte) (off : Nat) : Nat := be16 k 38 * 2 ^ 64 + beAt k off 8

/-- The pair that dictionary entry `i` holds. -/
def State.dictPair (s : State) (e i : Nat) : Nat :=
  s.rf (FE_DICT.ZONE e i) * 2 ^ 64 + s.rf (FE_DICT.PREFIX_HI e i) * 2 ^ 32 + s.rf (FE_DICT.PREFIX_LO e i)

/-- The entry of a pair. -/
def State.dictFind (s : State) (e x : Nat) : Option Nat :=
  (List.range 4096).find? (fun i => s.rb (FE_DICT.VALID e i) && !s.rb (FE_DICT.BAD e i) && s.dictPair e i = x)

/-- The lowest-numbered free entry. -/
def State.dictFree (s : State) (e : Nat) : Option Nat :=
  (List.range 4096).find? (fun i => !s.rb (FE_DICT.VALID e i) && !s.rb (FE_DICT.BAD e i))

/-- Add a reference to an entry. -/
def State.dictUse (s : State) (e i : Nat) : State := s.wf (FE_DICT.USES e i) (s.rf (FE_DICT.USES e i) + 1)

/-- Fill a free entry with a pair. -/
def State.dictFill (s : State) (e i x : Nat) : State :=
  let s := ((s.wf (FE_DICT.PREFIX_LO e i) x).wf (FE_DICT.PREFIX_HI e i) (x / 2 ^ 32)).wf (FE_DICT.ZONE e i) (x / 2 ^ 64)
  (s.wf (FE_DICT.VALID e i) 1).wf (FE_DICT_STATUS.VALID_COUNT e) (s.rf (FE_DICT_STATUS.VALID_COUNT e) + 1)

/-- Release a reference; at 0 the entry is freed, a BAD one too (R285). -/
def State.dictRelease (s : State) (e i : Nat) : State :=
  let u := s.rf (FE_DICT.USES e i) - 1
  if u = 0 then
    (s.setWords (FE_DICT.w e i) [0, 0, 0, 0]).wf (FE_DICT_STATUS.VALID_COUNT e) (s.rf (FE_DICT_STATUS.VALID_COUNT e) - 1)
  else s.wf (FE_DICT.USES e i) u

/-- The entry of a pair, allocated when it is absent. -/
def State.dictGet (s : State) (e x : Nat) : State × Option Nat :=
  match s.dictFind e x with
  | some i => (s, some i)
  | none =>
    match s.dictFree e with
    | some i => (s.dictFill e i x, some i)
    | none => (s, none)

/-- Reference the entries of a record's two pairs, or count a miss and change nothing (R284). -/
def State.dictTake (s : State) (e : Nat) (k : List Byte) : State × Option (Nat × Nat) :=
  match s.dictGet e (prefixOf k 0) with
  | (s1, some a) =>
    match s1.dictGet e (prefixOf k 16) with
    | (s2, some b) => ((s2.dictUse e a).dictUse e b, some (a, b))
    | (_, none) => (s.addSat (FE_DICT_STATUS.FULL_MISSES e) 1, none)
  | (_, none) => (s.addSat (FE_DICT_STATUS.FULL_MISSES e) 1, none)

/-! ### Stored forms (R279, R283) -/

/-- A stored form: C4, C6 with its dictionary entries, or U. -/
inductive Form where
  | c4
  | c6 (a b : Nat)
  | u
deriving DecidableEq, Repr

def Form.slots : Form → Nat
  | .u => 2
  | _ => 1

/-- The C4 conditions of Table FR-5. -/
def fitsC4 (r : List Byte) : Bool :=
  ip4Form r 0 && ip4Form r 16 && recHist r = 0 && !recPf r && !recBf r && decide (recAge r < 2 ^ 24) &&
    decide (recPkts r < 2 ^ 12) && decide (recBytes r < 2 ^ 19)

/-- The C6 conditions of Table FR-5, the dictionary apart. -/
def fitsC6 (r : List Byte) : Bool :=
  !ip4Form r 0 && !ip4Form r 16 && (decide (beAt r 8 8 < 2 ^ 32) || decide (beAt r 24 8 < 2 ^ 32)) &&
    (byteAt r 36 = 6 || byteAt r 36 = 17 || byteAt r 36 = 58) && recState r = 0 && recHist r = 0 && !recPf r && !recBf r &&
    decide (recAge r < 2 ^ 20) && decide (recPkts r < 2 ^ 12) && decide (recBytes r < 2 ^ 16)

/-- A C4 slot (Table FR-7). -/
def packC4 (r : List Byte) : List Byte :=
  let c := recWord r 10
  bytesAt r 12 4 ++ [BitVec.ofNat 8 (byteAt r 36), 1] ++ bytesAt r 38 2 ++ bytesAt r 28 4 ++ bytesAt r 32 4 ++
    bytesLE 4 (recLast r) ++ bytesLE 4 (recState r) ++
    bytesLE 8 (bits c 0 9 + recAge r * 2 ^ 9 + recPkts r * 2 ^ 33 + recBytes r * 2 ^ 45)

/-- The logical record of a C4 slot. -/
def unpackC4 (d : List Byte) : List Byte :=
  let x := natLE (bytesAt d 24 8)
  let last := natLE (bytesAt d 16 4)
  List.replicate 12 0 ++ bytesAt d 0 4 ++ List.replicate 12 0 ++ bytesAt d 8 4 ++ bytesAt d 12 4 ++
    [d.getD 4 0, 0] ++ bytesAt d 6 2 ++ bytesLE 4 (bits x 0 9) ++ bytesLE 4 (bits x 33 12) ++ bytesLE 4 (bits x 45 19) ++
    bytesLE 4 (last + 2 ^ 32 - bits x 9 24) ++ bytesLE 4 last ++ bytesAt d 20 4

/-- A C6 slot (Table FR-8) with dictionary entries `a` and `b`. -/
def packC6 (r : List Byte) (a b : Nat) : List Byte :=
  let c := recWord r 10
  let which := if beAt r 8 8 < 2 ^ 32 then 0 else 1
  let pcode := if byteAt r 36 = 6 then 0 else if byteAt r 36 = 17 then 1 else 2
  let long := if which = 0 then bytesAt r 24 8 else bytesAt r 8 8
  let short := if which = 0 then bytesAt r 12 4 else bytesAt r 28 4
  bytesLE 5 (a + b * 2 ^ 12 + pcode * 2 ^ 24 + which * 2 ^ 26 + bits c 0 9 * 2 ^ 27) ++ [2] ++ bytesAt r 32 4 ++ long ++ short ++
    bytesLE 4 (recLast r) ++ bytesLE 6 (recAge r + recPkts r * 2 ^ 20 + recBytes r * 2 ^ 32)

/-- The dictionary entries of a C6 slot. -/
def c6Entries (d : List Byte) : Nat × Nat := (bits (natLE (bytesAt d 0 5)) 0 12, bits (natLE (bytesAt d 0 5)) 12 12)

/-- The logical record of a C6 slot, given the pairs of its entries. -/
def unpackC6 (d : List Byte) (pa pb : Nat) : List Byte :=
  let w := natLE (bytesAt d 0 5)
  let x := natLE (bytesAt d 26 6)
  let last := natLE (bytesAt d 22 4)
  let long := bytesAt d 10 8
  let short := List.replicate 4 0 ++ bytesAt d 18 4
  let proto := if bits w 24 2 = 0 then 6 else if bits w 24 2 = 1 then 17 else 58
  bytesBE 8 pa ++ (if bit w 26 then long else short) ++ bytesBE 8 pb ++ (if bit w 26 then short else long) ++ bytesAt d 6 4 ++
    [BitVec.ofNat 8 proto, 0] ++ bytesBE 2 (pa / 2 ^ 64) ++ bytesLE 4 (bits w 27 9) ++ bytesLE 4 (bits x 20 12) ++
    bytesLE 4 (bits x 32 16) ++ bytesLE 4 (last + 2 ^ 32 - bits x 0 20) ++ bytesLE 4 last ++ List.replicate 4 0

/-- The logical record of a U pair: byte 37 is the second slot's tag and reads 0 (R281, R283). -/
def unpackU (d0 d1 : List Byte) : List Byte := overwrite (bytesAt d0 0 32 ++ bytesAt d1 0 32) 37 [0]

/-- The logical record whose first slot is slot `k`, if one is. -/
def State.recAt (s : State) (e b k : Nat) : Option (List Byte) :=
  let f := s.slotFmt e b k
  let d := s.slotBytes e b k
  if f = 1 then some (unpackC4 d)
  else if f = 2 then some (unpackC6 d (s.dictPair e (c6Entries d).1) (s.dictPair e (c6Entries d).2))
  else if f = 4 then some (unpackU d (s.slotBytes e b (k + 1)))
  else none

/-- The slots a record at slot `k` takes. -/
def State.recSlots (s : State) (e b k : Nat) : Nat := if s.slotFmt e b k = 4 then 2 else 1

/-! ### Finding a record (R243) -/

/-- The first slot of a key in a physical bucket. -/
def State.inBucket (s : State) (e b part : Nat) (k : List Byte) : Option Nat :=
  (List.range 4).find? (fun j => match s.recAt e b j with
    | some r => recPart r = part && recKey r = k
    | none => false)

/-- Where the record of a key is: whether in its h1 bucket, the physical bucket and the slot. The h1 bucket is read only when the
spill count of the h0 bucket is not 0. -/
def State.findRec (s : State) (e part : Nat) (k : List Byte) : Option (Bool × Nat × Nat) :=
  let h := s.hashes e part k
  let b0 := s.fold e h.1
  let b1 := s.fold e h.2
  match s.inBucket e b0 part k with
  | some j => some (false, b0, j)
  | none => if s.spillOf e b0 = 0 then none else (s.inBucket e b1 part k).map (fun j => (true, b1, j))

/-- The record of a key. -/
def State.recOf (s : State) (e part : Nat) (k : List Byte) : Option (List Byte) :=
  match s.findRec e part k with
  | some (_, b, j) => s.recAt e b j
  | none => none

/-- The logical bucket of a record in physical bucket `b`, and whether it is its h1 bucket. -/
def State.homeBucket (s : State) (e b : Nat) (r : List Byte) : Nat × Bool :=
  let h := s.hashes e (recPart r) (recKey r)
  if s.fold e h.1 = b then (h.1, false) else (h.2, true)

/-! ### The flow cache (R245) -/

def State.eng (s : State) (e : Nat) : EngX := mget {} s.engs e
def State.setEng (s : State) (e : Nat) (x : EngX) : State := s.withEngs (mset {} s.engs e x)

/-- Mark the cache's dirty state in `FE_STATUS.DIRTY`. -/
def State.noteDirty (s : State) (e : Nat) : State := s.wb (FE_STATUS.DIRTY e) (!(s.eng e).dirty.isEmpty)

/-- Count `n` record operations of HBM (Table CT-2). -/
def State.recOps (s : State) (e n : Nat) : State := s.ev (104 + e) 0x12 none n s.strokeNow (s.strokeNow * 2 ^ 32)

/-- The dirty lines of an engine's cache are written back (R245). -/
def State.writeBackAll (s : State) (e : Nat) : State :=
  ((s.recOps e (s.eng e).dirty.length).setEng e { s.eng e with dirty := [] }).noteDirty e

/-- Drop a record's lines from the cache. -/
def State.cacheDrop (s : State) (e i : Nat) : State :=
  let x := s.eng e
  (s.setEng e { x with cached := x.cached.filter (· != i), dirty := x.dirty.filter (· != i) }).noteDirty e

/-- The cache set and lines of the record whose first slot is `i` (bucket × 4 + slot). -/
def State.cacheSet (s : State) (e i : Nat) : Nat × Nat :=
  match s.recAt e (i / 4) (i % 4) with
  | some r => ((s.hashes e (recPart r) (recKey r)).1 % 16384, s.recSlots e (i / 4) (i % 4))
  | none => (16384, 0)

/-- The record at slot `i` is pinned in the cache: its frames wait in the lookup table, its view changes wait to become
visible, or a snapshot whose stroke has come has yet to copy its bucket. -/
def State.pinned (s : State) (e i : Nat) : Bool :=
  match s.recAt e (i / 4) (i % 4) with
  | some r =>
    let x := s.eng e
    let wm := s.rf (SP_WM.STROKE e)
    x.lookups.any (fun l => l.part = recPart r && l.key = recKey r) ||
      x.views.any (fun v => v.part = recPart r && v.key = recKey r && strokeLt wm ((v.stroke + s.verdictLag) % 2 ^ 48)) ||
      (match x.snap with
        | some c => strokeLe c.stroke s.strokeNow && bit c.mask (recPart r) && decide (i / 4 ∉ c.staged)
        | none => false)
  | none => false

/-- The lines of set `k` that the cache holds. -/
def State.setLines (s : State) (e k : Nat) (l : List Nat) : Nat :=
  ((l.map (s.cacheSet e)).filter (fun p => p.1 = k)).map (·.2) |>.sum

/-- The least recently used line of set `k` that is not pinned. -/
def State.victimLine (s : State) (e k : Nat) : Option Nat :=
  (s.eng e).cached.reverse.find? (fun i => (s.cacheSet e i).1 = k && !s.pinned e i)

/-- Replace lines until set `k` has room for `n` more; a dirty line is written back. False when the rest is pinned. -/
def State.cacheRoom (s : State) (e k n : Nat) : Nat → State × Bool
  | 0 => (s, s.setLines e k (s.eng e).cached + n ≤ 16)
  | m + 1 =>
    if s.setLines e k (s.eng e).cached + n ≤ 16 then (s, true)
    else match s.victimLine e k with
      | some i => ((if i ∈ (s.eng e).dirty then s.recOps e 1 else s).cacheDrop e i).cacheRoom e k n m
      | none => (s, false)

/-- Use a record's line: it becomes the most recent, brought in if there is room; `d` marks it dirty. False when its set is fully
pinned. -/
def State.cacheUse (s : State) (e b j : Nat) (d : Bool) : State × Bool :=
  let i := b * 4 + j
  let x := s.eng e
  let put := fun (s : State) =>
    let x := s.eng e
    (s.setEng e { x with cached := i :: x.cached.filter (· != i), dirty := if d then setMember x.dirty i true else x.dirty }).noteDirty e
  if i ∈ x.cached then (put s, true)
  else
    let (k, n) := s.cacheSet e i
    match s.cacheRoom e k n 16 with
    | (s, true) => (put s, true)
    | (s, false) => (s, false)

/-! ### Reports, digests and stable views (R254, R247, R543) -/

/-- Add an update of a stroke to the digest of its period: sums 0–7 of flow engines, 8–15 of table blocks (R543). -/
def State.digest (s : State) (i stroke : Nat) (d : List Byte) : State :=
  let k := stroke / 1024 * 16 + i
  s.withDigs (mset 0 s.digs k ((mget 0 s.digs k + crc32c d) % 2 ^ 64))

/-- The digest contribution of a flow commit (`del` 0) or removal (`del` 1): `tag` is the ordering key's ten bytes or the
stroke's six. -/
def State.flowDigest (s : State) (e stroke : Nat) (tag : List Byte) (del : Nat) (r : List Byte) : State :=
  s.digest e stroke (tag ++ [BitVec.ofNat 8 del] ++ bytesAt r 0 40 ++ bytesLE 4 (recViewCtrl r) ++ bytesAt r 60 4 ++
    (if s.rb PAIR_CFG.DIGEST_FULL then bytesAt r 44 16 else []))

/-- WHAT codes of Table DS-16. -/
def flEvict : Nat := 0
def flFail : Nat := 1
def flLost : Nat := 2
def flAged : Nat := 3

/-- Set a bit of `FE_ERR`; its event is 0x340, BYPASS apart (R265). -/
def State.feErr (s : State) (f : Fld) (e : Nat) : State := if f.lo = 3 then s.wf f 1 else s.setErr f (regionSrc 0x340 e)

/-- The report queue is full (R254). -/
def State.reportsFull (s : State) (e : Nat) : Bool := decide (1024 ≤ s.evtHeld 4 e)

/-- REPORT_STALL is set while the report queue is full (R254). -/
def State.noteStall (s : State) (e : Nat) : State := if s.reportsFull e then s.feErr (FE_ERR.REPORT_STALL e) e else s

/-- A FLOW record (R467): source 0x341, or 0x342 for an ageing removal; a lost record that was not readable carries none. -/
def State.flowRec (s : State) (e what bucket slot stroke part : Nat) (r : Option (List Byte)) : EvtRec :=
  ⟨regionSrc (if what = flAged then 0x342 else 0x341) e, 4,
    bucket + slot * 2 ^ 24 + what * 2 ^ 26 + b2n r.isSome * 2 ^ 28, stroke % 2 ^ 32, stroke / 2 ^ 32 + part * 2 ^ 16,
    match r with
      | some r => bytesAt r 0 64 ++ List.replicate 8 0
      | none => []⟩

/-- Raise a FLOW record, a place in the report queue found (R254). -/
def State.flowRaise (s : State) (e : Nat) (x : EvtRec) : State := (s.raiseRec x).noteStall e

/-- Report what an item of the engine did; items that would overfill the queue wait (R254). -/
def State.flowReport (s : State) (e what bucket slot stroke part : Nat) (r : Option (List Byte)) : State :=
  s.flowRaise e (s.flowRec e what bucket slot stroke part r)

/-- Report a loss. A loss by an error waits for no event (R579), and its report is never dropped (R254): with the queue full it stays with the
engine until the queue has room (DESIGN CHOICE, log entry 213). -/
def State.lossReport (s : State) (e bucket slot stroke part : Nat) (r : Option (List Byte)) : State :=
  let x := s.flowRec e flLost bucket slot stroke part r
  if s.reportsFull e && (s.evtRing x.src).any (fun r => s.ringIs r 4) then
    ((s.setEng e { s.eng e with losses := (s.eng e).losses ++ [x] }).pend x.src).noteStall e
  else s.flowRaise e x

/-- Reports of losses enter the queue while it has room, at most `k` of them. -/
def State.sendLosses (s : State) (e : Nat) : Nat → State
  | 0 => s
  | k + 1 =>
    match (s.eng e).losses with
    | [] => s
    | x :: l => if s.reportsFull e then s else ((s.setEng e { s.eng e with losses := l }).flowRaise e x).sendLosses e k

/-- The stable view of a record: PART, TCP and VS, and STATE (R247). -/
def viewOf (r : Option (List Byte)) : Option (Nat × Nat) := r.map (fun r => (recViewCtrl r, recState r))

/-- Note that the stable view of a key changes at a stroke. -/
def State.noteView (s : State) (e part : Nat) (k : List Byte) (stroke : Nat) (old new : Option (Nat × Nat)) : State :=
  if old = new then s
  else
    let x := s.eng e
    s.setEng e { x with views := x.views ++ [⟨part, k, stroke, old⟩] }

/-- Forget the changes of a key's view: what it is now has been so for every stroke (an unscheduled command, a loss). -/
def State.dropViews (s : State) (e part : Nat) (k : List Byte) : State :=
  let x := s.eng e
  s.setEng e { x with views := x.views.filter (fun v => !(v.part = part && v.key = k)) }

/-! ### Storing and removing (R243, R253, R280) -/

/-- Write a record into slots, counting it and its spill (R243, R282). -/
def State.putRec (s : State) (e b j : Nat) (f : Form) (r : List Byte) : State :=
  let s := match f with
    | .c4 => s.putSlot e b j false (packC4 r)
    | .c6 x y => s.putSlot e b j false (packC6 r x y)
    | .u => (s.putSlot e b j true (bytesAt r 0 32)).putSlot e b (j + 1) false (overwrite (bytesAt r 32 32) 5 [3])
  let h := s.hashes e (recPart r) (recKey r)
  let b0 := s.fold e h.1
  let s := if b0 = b then s else s.spillStep e b0 true
  (s.wf (FE_OCC.SLOTS_USED e) (s.rf (FE_OCC.SLOTS_USED e) + f.slots)).wf (FE_RECORDS.COUNT e) (s.rf (FE_RECORDS.COUNT e) + 1)

/-- Empty the slots of the record at slot `j`, releasing its dictionary references (R284) and its cache lines. -/
def State.clearRec (s : State) (e b j : Nat) : State :=
  match s.recAt e b j with
  | none => s
  | some r =>
    let n := s.recSlots e b j
    let d := s.slotBytes e b j
    let s1 := if s.slotFmt e b j = 2 then (s.dictRelease e (c6Entries d).1).dictRelease e (c6Entries d).2 else s
    let b0 := s.fold e (s.hashes e (recPart r) (recKey r)).1
    let s1 := s1.cacheDrop e (b * 4 + j)
    let zero := List.replicate 32 (0 : Byte)
    let s1 := s1.putSlot e b j false zero
    let s1 := if n = 2 then s1.putSlot e b (j + 1) false zero else s1
    let s1 := if b0 = b then s1 else s1.spillStep e b0 false
    (s1.wf (FE_OCC.SLOTS_USED e) (s1.rf (FE_OCC.SLOTS_USED e) - n)).wf (FE_RECORDS.COUNT e) (s1.rf (FE_RECORDS.COUNT e) - 1)

/-- The free slots of a bucket, and the first free slot or aligned pair in it. -/
def State.freeSlots (s : State) (e b : Nat) : Nat := ((List.range 4).filter (s.slotFree e b)).length

def State.roomIn (s : State) (e b n : Nat) : Option Nat :=
  if n = 1 then (List.range 4).find? (s.slotFree e b)
  else [0, 2].find? (fun j => s.slotFree e b j && s.slotFree e b (j + 1))

/-- Where a record of `n` slots goes (R243): the bucket with more free slots, ties to h0. -/
def State.placeRec (s : State) (e b0 b1 n : Nat) : Option (Nat × Nat) :=
  match s.roomIn e b0 n, s.roomIn e b1 n with
  | some j, some i => if s.freeSlots e b1 ≤ s.freeSlots e b0 then some (b0, j) else some (b1, i)
  | some j, none => some (b0, j)
  | none, some i => some (b1, i)
  | none, none => none

/-- The first slot of the record that takes slot `j`, if any. -/
def State.ownerSlot (s : State) (e b j : Nat) : Option Nat :=
  if s.slotFmt e b j = 0 then none else if s.slotFmt e b j = 3 then some (j - 1) else some j

/-- How long ago slot `j`'s occupant was last seen, as a number that orders the times within 2^31 quanta of quantum `now`; an empty slot is
older than all (R253, R276). -/
def State.slotAge (s : State) (e now b j : Nat) : Nat :=
  match s.ownerSlot e b j with
  | some i => match s.recAt e b i with
    | some r => (now + 2 ^ 31 + 2 ^ 32 - recLast r) % 2 ^ 32
    | none => 2 ^ 32
  | none => 2 ^ 32

/-- The first member of greatest value. -/
def firstMax (v : Nat × Nat → Nat) : List (Nat × Nat) → Option (Nat × Nat)
  | [] => none
  | p :: l =>
    match firstMax v l with
    | none => some p
    | some q => some (if v p < v q then q else p)

/-- The victim of an eviction (R253): a slot, or the first slot of a pair for `n` = 2. -/
def State.victim (s : State) (e part : Nat) (k : List Byte) (b0 b1 n stroke : Nat) : Option (Nat × Nat) :=
  let bs := if b0 = b1 then [b0] else [b0, b1]
  let cand := bs.flatMap (fun b => if n = 1 then ((List.range 4).filter (fun j => !s.slotFree e b j)).map (fun j => (b, j))
    else [(b, 0), (b, 2)])
  if s.rb (FE_PART_CFG.EVICT_RANDOM e part) then
    (if cand.isEmpty then none else cand[crc32c (BitVec.ofNat 8 part :: k ++ bytesBE 6 stroke) % cand.length]?)
  else
    let now := quanta (s.strokeTime stroke)
    let age := s.slotAge e now
    firstMax (fun p => if n = 1 then age p.1 p.2 else min (age p.1 p.2) (age p.1 (p.2 + 1))) cand

/-- Remove the record at slot `j` at a stroke, as an update of the digest and of the stable view. -/
def State.removeRec (s : State) (e b j stroke : Nat) (tag : List Byte) : State :=
  match s.recAt e b j with
  | none => s
  | some r =>
    (((s.recOps e 1).noteView e (recPart r) (recKey r) stroke (viewOf (some r)) none).flowDigest e stroke tag 1 r).clearRec e b j

/-- The record at slot `j` is lost (R244, R263): removed for every stroke, counted and reported. -/
def State.loseRec (s : State) (e b j : Nat) (readable : Bool) : State :=
  match s.recAt e b j with
  | none => s
  | some r =>
    let hb := (s.homeBucket e b r).1
    let s := ((s.clearRec e b j).dropViews e (recPart r) (recKey r)).count (FE_CNT.COUNT e 7) s.strokeNow
    s.lossReport e hb j s.strokeNow (recPart r) (if readable then some r else none)

/-- Capture `FE_ERR_LOC` when PARITY and RECORD_LOST are both 0 (R268). -/
def State.feLoc (s : State) (e bucket slot : Nat) (cache : Bool) : State :=
  if s.rb (FE_ERR.PARITY e) || s.rb (FE_ERR.RECORD_LOST e) then s
  else ((s.wf (FE_ERR_LOC.BUCKET e) bucket).wf (FE_ERR_LOC.SLOT e) slot).wb (FE_ERR_LOC.IN_CACHE e) cache

/-- The record at slot `j` could not be read (R263): it is invalidated and reported. -/
def State.recLost (s : State) (e b j : Nat) (cache : Bool) : State :=
  match s.recAt e b j with
  | some r =>
    let s := (s.feLoc e (s.homeBucket e b r).1 j cache).loseRec e b j false
    (s.feErr (FE_ERR.RECORD_LOST e) e).feErr (FE_ERR.PARITY e) e
  | none => (s.feLoc e b j cache).feErr (FE_ERR.PARITY e) e

/-- The C6 record at slot `j` references a BAD dictionary entry (R285). -/
def State.badRefs (s : State) (e b j : Nat) : Bool :=
  let x := c6Entries (s.slotBytes e b j)
  s.slotFmt e b j = 2 && (s.rb (FE_DICT.BAD e x.1) || s.rb (FE_DICT.BAD e x.2))

/-- The record at slot `j` is read: when it references a BAD dictionary entry it is lost (R285). -/
def State.loseRefs (s : State) (e b j : Nat) (cache : Bool) : State := if s.badRefs e b j then s.detParity.recLost e b j cache else s

/-- The record of a key is read where it lies, in the cache or in its bucket (R285). -/
def State.readRec (s : State) (e part : Nat) (k : List Byte) : State :=
  match s.findRec e part k with
  | some (_, b, j) => s.loseRefs e b j (decide (b * 4 + j ∈ (s.eng e).cached))
  | none => s

/-- A record of a global partition that an item of a region-local one evicts while only the region-local part of a snapshot's image is fixed is in
the image as it stands (R262). -/
def State.snapKeep (s : State) (e b j stroke : Nat) (r : List Byte) : State :=
  match (s.eng e).snap with
  | some c =>
    if c.takenLocal && !c.taken && s.rb (FE_PART_CFG.MODE e (recPart r)) && bit c.mask (recPart r) && strokeLe c.stroke stroke then
      s.setEng e { s.eng e with snap := some { c with image := mset [] c.image (b * 4 + j) (bytesAt r 0 64) } }
    else s
  | none => s

/-- Evict the record at slot `j` for an update tagged `tag`: removed, counted and reported; its report reads it, so one that references a BAD
dictionary entry is lost instead (R285). -/
def State.evictRec (s : State) (e b j stroke : Nat) (tag : List Byte) : State :=
  match s.recAt e b j with
  | none => s
  | some r =>
    if s.badRefs e b j then s.detParity.recLost e b j (decide (b * 4 + j ∈ (s.eng e).cached)) else
    let s := ((s.snapKeep e b j stroke r).removeRec e b j stroke tag).count (FE_CNT.COUNT e 4) stroke
    s.flowReport e flEvict (s.homeBucket e b r).1 j stroke (recPart r) (some r)

/-- Make room for `n` slots of key `k`: a free place, or one that an eviction frees. -/
def State.makeRoom (s : State) (e part : Nat) (k : List Byte) (n stroke : Nat) (tag : List Byte) :
    State × Option (Nat × Nat) :=
  let h := s.hashes e part k
  let b0 := s.fold e h.1
  let b1 := s.fold e h.2
  match s.placeRec e b0 b1 n with
  | some p => (s, some p)
  | none =>
    if !s.rb (FE_PART_CFG.EVICT_EN e part) then (s, none)
    else match s.victim e part k b0 b1 n stroke with
      | none => (s, none)
      | some (b, j) =>
        let owners := ((if n = 1 then [j] else [j, j + 1]).filterMap (s.ownerSlot e b)).eraseDups
        (owners.foldl (fun s i => s.evictRec e b i stroke tag) s, some (b, j))

/-- What storing a record did. -/
inductive Stored where
  | ok
  | noRoom
deriving DecidableEq, Repr

/-- A place for `n` slots of a record whose own slots are free again: `at_`, the place it left, when that is as large, else a free place or one
that an eviction frees (R243, R253, R280). -/
def State.placeFor (s : State) (e : Nat) (r : List Byte) (n stroke : Nat) (tag : List Byte) (at_ : Option (Nat × Nat × Nat)) :
    State × Option (Nat × Nat) :=
  match at_ with
  | some (b, j, m) => if m = n then (s, some (b, j)) else s.makeRoom e (recPart r) (recKey r) n stroke tag
  | none => s.makeRoom e (recPart r) (recKey r) n stroke tag

/-- The form and the place of a record: the first form whose conditions hold (R279). The references that the change releases, those of
evicted records among them, are released before dictionary entries are allocated (R284). -/
def State.formPlace (s : State) (e : Nat) (r : List Byte) (stroke : Nat) (tag : List Byte) (at_ : Option (Nat × Nat × Nat)) :
    State × Option (Form × Nat × Nat) :=
  let room := fun (s : State) (n : Nat) => s.placeFor e r n stroke tag at_
  let whole := fun (s : State) => ((room s 2).1, (room s 2).2.map (fun p => (Form.u, p)))
  if fitsC4 r then ((room s 1).1, (room s 1).2.map (fun p => (Form.c4, p)))
  else if fitsC6 r then
    match room s 1 with
    | (_, none) => (s, none)
    | (s1, some p) =>
      match s1.dictTake e r with
      | (s2, some (a, b)) => (s2, some (.c6 a b, p))
      | (_, none) => whole (s.addSat (FE_DICT_STATUS.FULL_MISSES e) 1)
  else whole s

/-- Store a record by key: in place when its form needs as many slots, else placed again (R243, R253, R280). With no room the answer
is `noRoom` and the state is the one before. -/
def State.storeRec (s : State) (e : Nat) (r : List Byte) (stroke : Nat) (tag : List Byte) : State × Stored :=
  let part := recPart r
  let k := recKey r
  let was := viewOf (s.recOf e part k)
  let (s1, at_) := match s.findRec e part k with
    | some (_, b, j) => (s.clearRec e b j, some (b, j, s.recSlots e b j))
    | none => (s, none)
  match s1.formPlace e r stroke tag at_ with
  | (_, none) => (s, .noRoom)
  | (s2, some (f, b, j)) =>
    let s3 := (s2.putRec e b j f r).noteView e part k stroke was (viewOf (some r))
    (s3.flowDigest e stroke tag 0 r, .ok)

/-- A record that could not be created (R253), or found no room for its new form (R280): counted and reported. -/
def State.createFail (s : State) (e : Nat) (r : List Byte) (stroke : Nat) : State :=
  (s.count (FE_CNT.COUNT e 6) stroke).flowReport e flFail (s.hashes e (recPart r) (recKey r)).1 0 stroke (recPart r) (some r)

end Sys2Proof.Machine
end

