-- ==== Sys2Proof/Machine/Parser.lean ====
section
/-! DEFINITION. The ingress pipeline's parser (file 04): header grants and the distributor (R155, R156), the graph walk (R143 to
R154), the reorder buffer (R157) and the commands of its registers. -/

namespace Sys2Proof.Machine

/-! ### Storage checks (R18, R555) -/

/-- Some copy of the word was found bad. -/
def isBad : ReadCheck → Bool
  | .good => false
  | _ => true

/-- The retry failed too. -/
def isFailed : ReadCheck → Bool
  | .failed _ => true
  | _ => false

/-- Enter a detection of memory `mem` of region `n` in the error log (R555, R559). -/
def State.noteRead (s : State) (n mem : Nat) : ReadCheck → State
  | .good => s
  | .retried l => s.detect n mem l.toNat true
  | .failed l => s.detect n mem l.toNat false

/-! ### Rule-set bank of a frame (R186) -/

/-- The bank and epoch of a first-pass frame of stroke `t`. -/
def State.bankOf (s : State) (n p t : Nat) : Nat × Nat :=
  let a := s.rf (IP_CL_STATUS.ACTIVE_BANK n p)
  let e := s.rf (IP_CL_STATUS.EPOCH n p)
  if s.rb (IP_CL_STATUS.PENDING n p) && strokeLe (s.rf (IP_CL_SWITCH_STROKE.STROKE n p)) t then (1 - a, (e + 1) % 65536)
  else match (s.pipe n p).lastSwitch with
    | some x => if s.rb (IP_CL_STATUS.DRAINING n p) && strokeLt t x then (1 - a, (e + 65535) % 65536) else (a, e)
    | none => (a, e)

/-- The zone entry of a source (R154, R170). -/
def State.zoneOf (s : State) (n p b port : Nat) : Nat :=
  let i := if port < 512 then port % 32 else 32
  if i % 2 = 0 then s.rf (IP_PARSE_ZONE.ZONE_LO n p b (i / 2)) else s.rf (IP_PARSE_ZONE.ZONE_HI n p b (i / 2))

/-! ### Header grants and the distributor (R155, R156) -/

/-- The first member of `l` at or after `k` in round robin over `m` indices. -/
def rrPick (m k : Nat) (ok : Nat → Bool) : Option Nat :=
  ((List.range m).map (fun i => (k + i) % m)).find? ok

/-- The engine has room in its queue of 32 headers and is enabled. -/
def State.engineTakes (s : State) (n p e : Nat) : Bool :=
  !bit (s.rf (IP_PARSE_CFG.ENGINE_DIS n p)) e &&
    decide (((s.pipe n p).rob.filter (fun r => r.eng = e && !r.done)).length < 32)

/-- The status fields of the parser: idle engines and occupied slots. -/
def State.parseStatus (s : State) (n p : Nat) : State :=
  let x := s.pipe n p
  let idle := (List.range 8).foldl (fun a e => if x.rob.any (fun r => r.eng = e && !r.done) then a else a + 2 ^ e) 0
  (s.wf (IP_PARSE_STATUS.ENGINE_IDLE n p) idle).wf (IP_PARSE_STATUS.ROB_OCC n p) x.rob.length

/-- Grant one header: the next input with one waiting, to the next engine with room (R155, R156). -/
def State.grantHeader (s : State) (n p : Nat) : State :=
  let x := s.pipe n p
  if 256 ≤ x.rob.length then s
  else match rrPick 6 x.rrIn (fun i => !(mget [] x.inq i).isEmpty), rrPick 8 x.rrEng (fun e => s.engineTakes n p e) with
    | some i, some e =>
      match mget [] x.inq i with
      | [] => s
      | f :: rest =>
        let be := if f.pass = 0 then s.bankOf n p f.key.stroke else (f.bank, f.epoch)
        let z := if f.pass = 0 then s.zoneOf n p be.1 f.key.port else f.zone
        let f := { f with bank := be.1, epoch := be.2, zone := z }
        (s.setPipe n p { x with
          inq := mset [] x.inq i rest, rrIn := (i + 1) % 6, rrEng := (e + 1) % 8,
          nextSlot := (x.nextSlot + 1) % 256,
          rob := x.rob ++ [{ slot := x.nextSlot, eng := e, frame := f }] }).parseStatus n p |>.ev (64 + 2 * n + p) 0x10 none 1
            f.key.stroke f.key.num
    | _, _ => s

/-- One cycle of the input arbiter: up to two headers (R155), in a region that runs. -/
def headerAccept (n p : Nat) (s : State) : State :=
  if s.running && s.regionOn n then (s.grantHeader n p).grantHeader n p else s

/-! ### The graph walk (R143 to R152) -/

/-- What a parse carries from node to node. -/
structure ParseSt where
  hv : List Byte
  steps : Nat
  h : Nat
  key : Option Nat
  /-- The table entries read, the latest first (R158). -/
  reads : List Nat := []
deriving DecidableEq, Repr

/-- A parser table entry as `IP_PARSE_ERR_LOC` numbers it (Table PG-15): table, bank and entry. -/
def entLoc (table b e : Nat) : Nat := table + 4 * b + 8 * e

/-- The parse goes on at a node, or ends with an exit code. -/
inductive ParseRes where
  | go (node : Nat) (x : ParseSt)
  | stop (code : Nat) (x : ParseSt)
deriving DecidableEq, Repr

/-- The code of a needed byte that is absent (R152). -/
def absentByte (d : List Byte) (x : Nat) : Option Nat :=
  if d.length ≤ x then some 0x42 else if 256 ≤ x then some 0x40 else none

/-- One extract field: enabled, source, bytes and destination (Table PG-3). -/
structure Extract where
  en : Bool
  src : Nat
  len : Nat
  dst : Nat
deriving DecidableEq, Repr

def extractOf (v : Nat) : Extract := ⟨bit v 19, bits v 0 6, bits v 6 4 + 1, bits v 10 9⟩

/-- The extracts of a node. -/
def State.extracts (s : State) (n p b e : Nat) : List Extract :=
  [extractOf (s.rf (IP_PARSE_NODE.EXT0 n p b e)), extractOf (s.rf (IP_PARSE_NODE.EXT1 n p b e)),
   extractOf (s.rf (IP_PARSE_NODE.EXT2 n p b e)), extractOf (s.rf (IP_PARSE_NODE.EXT3 n p b e))].filter (·.en)

/-- The bytes that a range of `k` bytes from `x` needs. -/
def needs (x k : Nat) : List Nat := (List.range k).map (fun i => x + i)

/-- The selector (R144). -/
def State.selector (s : State) (n p b e h : Nat) (d : List Byte) : Nat :=
  be16 d (h + s.rf (IP_PARSE_NODE.SEL_OFF_HI n p b e)) * 65536 + be16 d (h + s.rf (IP_PARSE_NODE.SEL_OFF_LO n p b e))

/-- The number of the first matching transition of a node (R145). -/
def State.transOf (s : State) (n p b e sel : Nat) : Option Nat :=
  let base := s.rf (IP_PARSE_NODE.TR_BASE n p b e)
  let hit := fun i =>
    s.rb (IP_PARSE_TRANS.VALID n p b (base + i)) &&
      (sel &&& s.rf (IP_PARSE_TRANS.MASK n p b (base + i))) =
        (s.rf (IP_PARSE_TRANS.VALUE n p b (base + i)) &&& s.rf (IP_PARSE_TRANS.MASK n p b (base + i)))
  if s.rb (IP_PARSE_NODE.SEL_EN n p b e) then (List.range (s.rf (IP_PARSE_NODE.TR_COUNT n p b e))).find? hit else none

/-- The transition entries that the choice of R145 tests. -/
def State.transRead (s : State) (n p b e sel : Nat) : List Nat :=
  let tested := match s.transOf n p b e sel with
    | some i => i + 1
    | none => if s.rb (IP_PARSE_NODE.SEL_EN n p b e) then s.rf (IP_PARSE_NODE.TR_COUNT n p b e) else 0
  (List.range tested).map (fun i => entLoc 1 b (s.rf (IP_PARSE_NODE.TR_BASE n p b e) + i))

/-- The next node or exit (R145). -/
def State.nextOf (s : State) (n p b e sel : Nat) : Nat :=
  match s.transOf n p b e sel with
  | some i => s.rf (IP_PARSE_TRANS.NEXT n p b (s.rf (IP_PARSE_NODE.TR_BASE n p b e) + i))
  | none => s.rf (IP_PARSE_NODE.DEFAULT_NEXT n p b e)

/-- The length of a node's header (R146). -/
def State.nodeLen (s : State) (n p b e h : Nat) (d : List Byte) : Nat :=
  let base := s.rf (IP_PARSE_NODE.LEN_BASE n p b e)
  if s.rb (IP_PARSE_NODE.LEN_VAR n p b e) then
    let f := byteAt d (h + s.rf (IP_PARSE_NODE.LEN_OFF n p b e)) / 2 ^ s.rf (IP_PARSE_NODE.LEN_SHIFT n p b e)
    base + bits f 0 (if s.rb (IP_PARSE_NODE.LEN_WIDE n p b e) then 8 else 4) * 2 ^ s.rf (IP_PARSE_NODE.LEN_SCALE n p b e)
  else base

/-- Set HDR_VALID bit `i` of a header vector. -/
def setHdr (hv : List Byte) (i : Nat) : List Byte :=
  let k := 23 - i / 8
  setAt hv k ((hv.getD k 0) ||| BitVec.ofNat 8 (2 ^ (i % 8)))

/-- One node step (R143), in its order. R152 orders selector, extracted and last bytes; among the selector bytes the model checks those of
SEL_OFF_HI first, and among extracts EXT0 first, each from its lowest byte (DESIGN CHOICE, log entry 176). -/
def State.nodeStep (s : State) (n p b e : Nat) (d : List Byte) (x : ParseSt) : ParseRes :=
  let sel := s.rb (IP_PARSE_NODE.SEL_EN n p b e)
  let cnt := s.rf (IP_PARSE_NODE.TR_COUNT n p b e)
  let ext := s.extracts n p b e
  let lenVar := s.rb (IP_PARSE_NODE.LEN_VAR n p b e)
  let x := if x.steps = s.rf (IP_PARSE_LIMIT.MAX_STEPS n p b) then x else { x with reads := entLoc 0 b e :: x.reads }
  if x.steps = s.rf (IP_PARSE_LIMIT.MAX_STEPS n p b) then .stop 0x41 x
  else if 16 < cnt || (sel && decide (1024 < s.rf (IP_PARSE_NODE.TR_BASE n p b e) + cnt)) ||
      ext.any (fun q => decide (q.dst < 64) || decide (512 < q.dst + q.len)) then .stop 0x47 x
  else match (if lenVar then absentByte d (x.h + s.rf (IP_PARSE_NODE.LEN_OFF n p b e)) else none) with
    | some c => .stop c x
    | none =>
      let len := s.nodeLen n p b e x.h d
      if lenVar && decide (len < s.rf (IP_PARSE_NODE.MIN_LEN n p b e)) then .stop 0x43 x
      else
        let need :=
          (if sel then needs (x.h + s.rf (IP_PARSE_NODE.SEL_OFF_HI n p b e)) 2 ++
            needs (x.h + s.rf (IP_PARSE_NODE.SEL_OFF_LO n p b e)) 2 else []) ++
          ext.flatMap (fun q => needs (x.h + q.src) q.len) ++ (if len = 0 then [] else [x.h + len - 1])
        match need.findSome? (absentByte d) with
        | some c => .stop c x
        | none =>
          let hv := ext.foldl (fun v q => overwrite v q.dst (bytesAt d (x.h + q.src) q.len)) x.hv
          let hv := if s.rb (IP_PARSE_NODE.HDR_SET n p b e) then setHdr hv (s.rf (IP_PARSE_NODE.HDR_ID n p b e)) else hv
          let hv := if s.rb (IP_PARSE_NODE.OFS_EN n p b e)
            then overwrite hv (24 + 2 * s.rf (IP_PARSE_NODE.OFS_SLOT n p b e)) (bytesBE 2 x.h) else hv
          let key := if s.rb (IP_PARSE_NODE.KEY_SET n p b e) then some (s.rf (IP_PARSE_NODE.KEY_PROFILE n p b e)) else x.key
          let sv := s.selector n p b e x.h d
          let nx := s.nextOf n p b e sv
          let y : ParseSt := ⟨hv, x.steps, x.h, key, (s.transRead n p b e sv).reverse ++ x.reads⟩
          if 0x140 ≤ nx then .stop 0x47 y
          else
            let y : ParseSt := { y with steps := x.steps + 1, h := x.h + len }
            if 0x100 ≤ nx then .stop (nx - 0x100) y else .go nx y

/-- Walk the graph from a node; MAX_STEPS ends every walk (R143). -/
def State.walk (s : State) (n p b : Nat) (d : List Byte) : Nat → Nat → ParseSt → Nat × ParseSt
  | 0, _, x => (0x41, x)
  | k + 1, e, x =>
    match s.nodeStep n p b e d x with
    | .stop c y => (c, y)
    | .go e' y => s.walk n p b d k e' y

/-- The header vector before the first node (Table PG-1, R139). -/
def startHv (f : Frame) : List Byte :=
  let v := List.replicate 512 (0 : Byte)
  let v := overwrite v 0 f.key.bytes
  let v := overwrite v 10 (bytesBE 2 f.key.port)
  let v := overwrite v 12 (bytesBE 2 f.len)
  let v := overwrite v 24 (List.replicate 16 0xFF)
  let v := overwrite v 41 [BitVec.ofNat 8 (f.bank + f.pass * 2)]
  overwrite v 42 (bytesBE 2 f.zone)

/-- The start node of a frame's source (R139). -/
def State.startNode (s : State) (f : Frame) : Nat :=
  if f.key.port < 512 then s.rf (IP_PARSE_START.FRONT_NODE f.region f.pipe f.bank)
  else if f.key.port < 528 then s.rf (IP_PARSE_START.HOST_NODE f.region f.pipe f.bank)
  else s.rf (IP_PARSE_START.RECIRC_NODE f.region f.pipe f.bank)

/-- The exit of code `k` drops the frame (R153). -/
def State.exitDrops (s : State) (n p b k : Nat) : Bool :=
  k != 0 &&
    bit (if k < 32 then s.rf (IP_PARSE_EXIT_ACT0.DROP n p b) else if k < 64 then s.rf (IP_PARSE_EXIT_ACT1.DROP n p b)
      else s.rf (IP_PARSE_EXIT_ACT2.DROP n p b)) (k % 32)

/-- The 40-byte flow key that profile `k` of a bank builds from a header vector (R154). -/
def State.flowKey (s : State) (n p b k : Nat) (hv : List Byte) : List Byte :=
  (List.range 20).flatMap (fun w =>
    [ if s.rb (IP_PARSE_FKEY.VALID_A n p b k w) then hv.getD (s.rf (IP_PARSE_FKEY.SEL_A n p b k w)) 0 else 0,
      if s.rb (IP_PARSE_FKEY.VALID_B n p b k w) then hv.getD (s.rf (IP_PARSE_FKEY.SEL_B n p b k w)) 0 else 0 ])

/-- The walk of a frame's parse: its exit code and what it leaves. The window is 256 bytes (R137). -/
def State.parseWalk (s : State) (f : Frame) : Nat × ParseSt :=
  s.walk f.region f.pipe f.bank f.data 25 (s.startNode f) ⟨startHv f, 0, 0, none, []⟩

/-- Parse a frame: its header vector and flow key, and whether its exit drops it (R151 to R154). The key is built before KEY[7] is set. -/
def State.parseFrame (s : State) (f : Frame) : Frame × Nat :=
  let r := s.parseWalk f
  let v := overwrite r.2.hv 14 [BitVec.ofNat 8 r.1, BitVec.ofNat 8 r.2.steps]
  let drop := s.exitDrops f.region f.pipe f.bank r.1
  match r.2.key with
  | some k =>
    if drop then ({ f with hv := v, fkey := [], dropCode := true }, r.1)
    else
      ({ f with hv := overwrite v 40 [BitVec.ofNat 8 (128 + k)], fkey := s.flowKey f.region f.pipe f.bank k v, dropCode := false }, r.1)
  | none => ({ f with hv := v, fkey := [], dropCode := drop }, r.1)

/-- The table entries that a frame's parse reads, in order (R158): bank control words, nodes and transitions, and the profile of its key. -/
def State.parseReads (s : State) (f : Frame) : List Nat :=
  let r := s.parseWalk f
  let z := if f.key.port < 512 then f.key.port % 32 else 32
  [entLoc 3 f.bank 0, entLoc 3 f.bank 1] ++ (if f.pass = 0 then [entLoc 3 f.bank (16 + z / 2)] else []) ++ r.2.reads.reverse ++
    (if r.1 = 0 then [] else [entLoc 3 f.bank (2 + r.1 / 32)]) ++
    (match r.2.key with
      | some k => if s.exitDrops f.region f.pipe f.bank r.1 then [] else [entLoc 2 f.bank k]
      | none => [])

/-- The first entry in error that a frame's parse reads: a persistent fault, found again by every frame until the entry is rewritten (R158). -/
def State.badRead (s : State) (n p : Nat) (f : Frame) : Option Nat := (s.parseReads f).find? (fun l => decide (l ∈ (s.pipe n p).badEnt))

/-- Raise a bit of `IP_PARSE_ERR` with event 0x320 + pipeline (R164). -/
def State.parseErr (s : State) (f : Fld) (n p : Nat) : State := s.setErr f (regionSrc 0x320 n + p)

/-- A parser table entry was read with a parity error (R158): flags, location and event. -/
def State.parseParity (s : State) (n p : Nat) (chk : ReadCheck) (loc : Nat) : State :=
  if isBad chk then
    let s := s.noteRead n 5 chk
    let s := if s.rb (IP_PARSE_ERR.PARITY n p) then s else s.setReg (IP_PARSE_ERR_LOC.w n p) (BitVec.ofNat 32 (loc % 2 ^ 13))
    let s := s.parseErr (IP_PARSE_ERR.PARITY n p) n p
    if isFailed chk then (s.parseErr (IP_PARSE_ERR.PARITY_FAIL n p) n p).addSat (IP_PARSE_STATUS.PARITY_DISCARDS n p) 1 else s
  else s

/-- An entry's retry failed: it is in error from now on. -/
def State.markBad (s : State) (n p loc : Nat) (chk : ReadCheck) : State :=
  let x := s.pipe n p
  if isFailed chk && !(loc ∈ x.badEnt) then s.setPipe n p { x with badEnt := loc :: x.badEnt } else s

/-- What the reads of a frame's parse find: an entry already in error, or what `chk` says of entry `loc`. -/
def State.parseCheck (s : State) (n p : Nat) (f : Frame) (chk : ReadCheck) (loc : Nat) : ReadCheck × Nat :=
  match s.badRead n p f with
  | some l => (.failed (BitVec.ofNat 18 l), l)
  | none => (chk, loc)

/-- Engine `e` parses the oldest header of its queue (R143, R156); `chk` is the parity check of its table reads, `loc` the entry
in error as `IP_PARSE_ERR_LOC`. A failed retry discards the frame (R158). -/
def parseHeader (n p e : Nat) (chk : ReadCheck) (loc : Nat) (s : State) : State :=
  let x := s.pipe n p
  match x.rob.find? (fun r => r.eng = e && !r.done) with
  | none => s
  | some r =>
    let (chk, loc) := s.parseCheck n p r.frame chk loc
    let s := (s.parseParity n p chk loc).markBad n p loc chk
    let fc := s.parseFrame r.frame
    let f := if isFailed chk then { r.frame with dropCode := true } else fc.1
    let s := if isFailed chk then s else s.count (IP_PARSE_EXIT_CNT.COUNT n p fc.2) r.frame.key.stroke |>.ev
      (64 + 2 * n + p) 0x12 (some fc.2) 1 r.frame.key.stroke r.frame.key.num
    let x := s.pipe n p
    (s.setPipe n p { x with rob := x.rob.map (fun y => if y.slot = r.slot then { y with done := true, frame := f } else y) }).parseStatus
      n p

/-! ### The reorder buffer (R157) -/

/-- The parse of a slot's frame dropped it: the frame has left the pipeline, and only its slot stands (R153). -/
def RobSlot.gone (r : RobSlot) : Bool := r.done && r.frame.dropCode

/-- Every frame inside an ingress pipeline. -/
def PipeX.frames (x : PipeX) : List Frame :=
  x.inq.flatMap (·.2) ++ (x.rob.filter (fun r => !r.gone)).map (·.frame) ++ x.cls ++ x.tbl ++ x.flow

/-- Release the oldest slot if its parse is complete. -/
def State.releaseSlot (s : State) (n p : Nat) : State :=
  let x := s.pipe n p
  match x.rob with
  | r :: rest =>
    if r.done then
      if r.frame.dropCode then ((s.setPipe n p { x with rob := rest }).dropIn r.frame).parseStatus n p
      else (s.setPipe n p { x with rob := rest, cls := x.cls ++ [r.frame] }).parseStatus n p
    else s
  | [] => s

/-- One cycle of the reorder buffer: up to two slots, strictly in order. -/
def reorderRelease (n p : Nat) (s : State) : State := (s.releaseSlot n p).releaseSlot n p

/-! ### Register commands (R165) -/

/-- A write of `IP_PARSE_CFG`: CNT_CLEAR zeroes the exit counters; a write that would disable all eight engines is ignored. -/
def parseCfgWrite (n p v : Nat) (s : State) : State :=
  if bits v 0 8 = 255 then s.parseErr (IP_PARSE_ERR.CFG_REJECT n p) n p
  else
    let s := s.wf (IP_PARSE_CFG.ENGINE_DIS n p) (bits v 0 8)
    if bit v 8 then (List.range 72).foldl (fun s k => s.wf (IP_PARSE_EXIT_CNT.COUNT n p k) 0) s else s

/-! ### Meanings -/

def execHeaderAccept (n : Region) (p : Pipe) (s : State) : Host.Outcome State Fault Refusal := .next (headerAccept n p s)

def execParse (n : Region) (p : Pipe) (e : Oct) (chk : ReadCheck) (loc : BitVec 13) (s : State) :
    Host.Outcome State Fault Refusal := .next (if s.running && s.regionOn n then parseHeader n p e chk loc.toNat s else s)

def execReorderRelease (n : Region) (p : Pipe) (s : State) : Host.Outcome State Fault Refusal :=
  .next (if s.running && s.regionOn n then reorderRelease n p s else s)

def execParseCntClear (n : Region) (p : Pipe) (v : Word) (s : State) : Host.Outcome State Fault Refusal :=
  .next (onWrite (parseCfgWrite n p (putBits v.toNat 8 1 1)) s)

def execEngineDisable (n : Region) (p : Pipe) (v : Word) (s : State) : Host.Outcome State Fault Refusal :=
  .next (onWrite (parseCfgWrite n p v.toNat) s)

end Sys2Proof.Machine
end

