-- ==== Sys2Proof/Machine/Classify.lean ====
section
/-! DEFINITION. Classification (file 05): the TCAM search and action sets (R171 to R181), recirculation (R183, R31) and the
rule-set bank switch (R185 to R190). -/

namespace Sys2Proof.Machine

/-! ### The rule-set bank switch (R187 to R190) -/

/-- The region's watermark, and the test that it has passed stroke `x` (R33). -/
def State.wm (s : State) (n : Nat) : Nat := s.rf (SP_WM.STROKE n)
def State.wmPassed (s : State) (n x : Nat) : Bool := strokeLt x (s.wm n)

/-- A pending switch takes effect (R189): bank, epoch, DRAINING and the retire stroke, in one step. In a region that is not in RUN
DRAINING clears in that same step. -/
def State.bankSwitch (s : State) (n p : Nat) : State :=
  let x := s.rf (IP_CL_SWITCH_STROKE.STROKE n p)
  let s := s.wf (IP_CL_STATUS.ACTIVE_BANK n p) (1 - s.rf (IP_CL_STATUS.ACTIVE_BANK n p))
  let s := s.wf (IP_CL_STATUS.EPOCH n p) (s.rf (IP_CL_STATUS.EPOCH n p) + 1)
  let s := (s.wb (IP_CL_STATUS.DRAINING n p) (s.regionRuns n)).wf (IP_CL_STATUS.PENDING n p) 0
  let s := s.wf (IP_CL_RETIRE_STROKE.STROKE n p) ((x + 3 * s.effLag + (2 ^ 48 - 1)) % 2 ^ 48)
  s.setPipe n p { s.pipe n p with lastSwitch := some x }

/-- The switch is due: its stroke has reached the classifier with a frame or the watermark; in a region that is not in RUN the
ordering source has reached it (R189). -/
def State.switchDue (s : State) (n p : Nat) : Bool :=
  let x := s.rf (IP_CL_SWITCH_STROKE.STROKE n p)
  s.rb (IP_CL_STATUS.PENDING n p) &&
    (if s.regionRuns n then
      strokeLe x (s.wm n) ||
        (match (s.pipe n p).cls with
          | f :: _ => strokeLe x f.key.stroke
          | [] => false)
    else strokeLe x s.strokeNow)

def bankSwitchStep (n p : Nat) (s : State) : State := if s.switchDue n p then s.bankSwitch n p else s

/-- DRAINING clears once the watermark passes the retire stroke, or in a quarantined region (R189, R190). -/
def drainEnd (n p : Nat) (s : State) : State :=
  if s.rb (IP_CL_STATUS.DRAINING n p) &&
      (s.wmPassed n (s.rf (IP_CL_RETIRE_STROKE.STROKE n p)) || !s.regionRuns n) then
    (s.wf (IP_CL_STATUS.DRAINING n p) 0).setPipe n p { s.pipe n p with lastSwitch := none }
  else s

/-- Bank `b` is in use: active or draining (R176). -/
def State.bankUsed (s : State) (n p b : Nat) : Bool :=
  s.rf (IP_CL_STATUS.ACTIVE_BANK n p) = b || s.rb (IP_CL_STATUS.DRAINING n p)

/-- CANCEL of `IP_CL_SWITCH_CTRL` (R188). -/
def State.switchCancel (s : State) (n p : Nat) : State :=
  if s.rb (IP_CL_STATUS.PENDING n p) then
    if leadOk s.strokeNow (s.rf (IP_CL_SWITCH_STROKE.STROKE n p)) then
      (s.wf (IP_CL_STATUS.PENDING n p) 0).wf (IP_CL_STATUS.ARM_RESULT n p) 0
    else (s.wf (IP_CL_STATUS.ARM_RESULT n p) 1).clErr (IP_CL_ERR.ARM_REJECT n p) n p
  else s.wf (IP_CL_STATUS.ARM_RESULT n p) 0

/-- ARM of `IP_CL_SWITCH_CTRL` (R187). -/
def State.switchArm (s : State) (n p : Nat) : State :=
  let r :=
    if s.rb (IP_CL_STATUS.PENDING n p) then 2
    else if s.rb (IP_CL_STATUS.DRAINING n p) then 3
    else if leadOk s.strokeNow (s.rf (IP_CL_SWITCH_STROKE.STROKE n p)) then 0 else 1
  let s := s.wf (IP_CL_STATUS.ARM_RESULT n p) r
  if r = 0 then s.wf (IP_CL_STATUS.PENDING n p) 1 else s.clErr (IP_CL_ERR.ARM_REJECT n p) n p

/-- A write of `IP_CL_SWITCH_CTRL`: the cancel first, then the arm (R664). -/
def switchCtrlWrite (n p v : Nat) (s : State) : State :=
  let s := if bit v 1 then s.switchCancel n p else s
  if bit v 0 then s.switchArm n p else s

/-- A write of `IP_CL_SWITCH_STROKE`: ignored while a switch is pending (R187). -/
def switchStrokeWrite (n p v : Nat) (s : State) : State :=
  if s.rb (IP_CL_STATUS.PENDING n p) then s.clErr (IP_CL_ERR.ARM_REJECT n p) n p
  else s.wf (IP_CL_SWITCH_STROKE.STROKE n p) v

/-! ### TCAM and actions (R171 to R177) -/

/-- The index of TCAM or action entry `e` of a pipeline. -/
def entryIx (n p e : Nat) : Nat := (n * 2 + p) * 32768 + e

/-- Fields of a TCAM entry held as 32 words (Table CL-2). -/
def tcValue (v : Nat) : Nat := bits v 0 320
def tcMask (v : Nat) : Nat := bits v 320 320
def tcValid (v : Nat) : Bool := bit v 640
def tcMember (v b : Nat) : Bool := bit v 640 && bit v (641 + b)

/-- The TCAM key as a 320-bit number, byte 0 most significant (Table CL-1). -/
def State.tcamKey (s : State) (f : Frame) (k : Nat) : Nat :=
  let sel := fun (w : Nat) =>
    let n := f.region
    let p := f.pipe
    [ if s.rb (IP_CL_KPROF.VALID_A n p f.bank k w) then f.hv.getD (s.rf (IP_CL_KPROF.SEL_A n p f.bank k w)) 0 else 0,
      if s.rb (IP_CL_KPROF.VALID_B n p f.bank k w) then f.hv.getD (s.rf (IP_CL_KPROF.SEL_B n p f.bank k w)) 0 else 0 ]
  natBE ([BitVec.ofNat 8 (k + f.pass % 4 * 8), f.hv.getD 14 0] ++ (List.range 19).flatMap sel)

/-- The lowest-numbered entry of bank `b` that matches `key` (R173, R174). -/
def State.tcamFind (s : State) (n p b key : Nat) : Option Nat :=
  let base := entryIx n p 0
  (s.tcam.find? (fun e => decide (base ≤ e.1 ∧ e.1 < base + 32768) && tcMember e.2 b &&
    (key &&& tcMask e.2) = (tcValue e.2 &&& tcMask e.2))).map (fun e => e.1 - base)

/-- The miss action of a bank, as 128 bits (R175). -/
def State.missAct (s : State) (n p b : Nat) : Nat :=
  (s.reg (IP_CL_MISS_ACT.w n p b)).toNat + 2 ^ 32 * (s.reg (IP_CL_MISS_ACT.w n p b + 1)).toNat +
    2 ^ 64 * (s.reg (IP_CL_MISS_ACT.w n p b + 2)).toNat + 2 ^ 96 * (s.reg (IP_CL_MISS_ACT.w n p b + 3)).toNat

/-- The TCAM hit and action set of a parsed frame (R171, R175): a function of its header vector and bank (R181). -/
def State.classifyFrame (s : State) (f : Frame) : Frame :=
  let n := f.region
  let p := f.pipe
  let i := bits (byteAt f.hv 40) 7 1 * 8 + bits (byteAt f.hv 40) 0 3
  let hit :=
    if s.rb (IP_CL_KPSEL.EN n p f.bank (i / 8) (i % 8)) then
      s.tcamFind n p f.bank (s.tcamKey f (s.rf (IP_CL_KPSEL.PROFILE n p f.bank (i / 8) (i % 8))))
    else none
  match hit with
  | some e => { f with tcam := some e, act := mget 0 s.actions (entryIx n p e) }
  | none => { f with tcam := none, act := s.missAct n p f.bank }

/-- Note a TCAM (`t` = 0) or action (`t` = 1) parity error of entry `e` (R192, R193, R197). -/
def State.clParity (s : State) (n p e t : Nat) (chk : ReadCheck) : State :=
  let s := s.detect n 4 (p * 512 + e / 64) (!isFailed chk)
  let s := if s.rb (IP_CL_ERR.TCAM_PARITY n p) || s.rb (IP_CL_ERR.ACT_PARITY n p) then s
    else (s.wf (IP_CL_ERR_LOC.ENTRY n p) e).wf (IP_CL_ERR_LOC.TABLE n p) t
  s.clErr (if t = 0 then IP_CL_ERR.TCAM_PARITY n p else IP_CL_ERR.ACT_PARITY n p) n p

/-- The classifier takes the next frame (R171 to R179): its action set, its meter slot, its trap and mirror copies. `chk` is the
parity check of the action read. A POL_EN frame waits while the region holds 4,096 open slots (R385). -/
def classifyNext (n p : Nat) (chk : ReadCheck) (s : State) : State :=
  let s := bankSwitchStep n p s
  let x := s.pipe n p
  match x.cls with
  | [] => s
  | f0 :: rest =>
    let f := s.classifyFrame f0
    let bad := isBad chk && f.tcam.isSome
    let s1 := if bad then s.clParity n p (f.tcam.getD 0) 1 chk else s
    if bad && isFailed chk then
      ((((s1.setPipe n p { s1.pipe n p with cls := rest }).addSat (IP_CL_STATUS.PARITY_DISCARDS n p) 1).clErr
        (IP_CL_ERR.ACT_PARITY_FAIL n p) n p).dropIn f)
    else if actPolEn f.act && decide (4096 ≤ s1.rf (TM_STATUS.METER_OPEN n)) then s1
    else
      let nokey := actFlowEn f.act && !hvKeyed f.hv
      let s := if nokey then s1.addSat (IP_CL_STATUS.NOKEY_COUNT n p) 1 else s1
      let f := if nokey then { f with act := putBits f.act 64 1 0 } else f
      let s := (s.setPipe n p { s.pipe n p with cls := rest }).ev (64 + 2 * n + p) (if f.tcam.isSome then 0x13 else 0x14) none 1
        f.key.stroke f.key.num
      let s := if actPolEn f.act then s.openSlot f else s
      let s := if actTrap f.act then s.trapCopy f (actReason f.act) else s
      let s := s.mirror f
      s.setPipe n p { s.pipe n p with tbl := (s.pipe n p).tbl ++ [{ f with trapMade := actTrap f.act }] }

/-- A TCAM bank's check reads one of its entries (R192); a bad entry is invalidated. -/
def tcamCheck (n p e : Nat) (bad : Bool) (s : State) : State :=
  if s.rb (IP_CL_CFG.PAR_CHECK_EN n p) && bad then
    let i := entryIx n p e
    (s.withTcam (mset 0 s.tcam i (putBits (mget 0 s.tcam i) 640 1 0))).clParity n p e 0 (.failed 0)
  else s

/-! ### Recirculation (R31, R183) -/

def State.recircx (s : State) (n : Nat) : RecircX := mget {} s.recirc n
def State.setRecircx (s : State) (n : Nat) (x : RecircX) : State := s.withRecirc (mset {} s.recirc n x)

/-- Frames of region `n` on the way to its recirculation port: queued, crossing, or waiting behind the egress pipeline. -/
def State.onRecircPath (s : State) (n : Nat) : List Frame :=
  (List.range 16).flatMap (fun c => (s.queue n (qIndex n c 66)).ents.map (·.frame)) ++
  ((s.wind.xfer.filter (fun p => p.1 = n * 8 + n && p.2.ent.frame.dest = .port (528 + n))).map (fun p => p.2.ent.frame)) ++
  (s.recircx n).waiting

/-- The stroke of a frame's next pass (R31). -/
def State.nextStroke (s : State) (f : Frame) : Nat := (f.key.stroke + s.effLag) % 2 ^ 48

/-- Frames of region `n` that still wait for a verdict in a flow engine. -/
def State.undecided (s : State) (n : Nat) : List Frame :=
  (s.engs.flatMap (fun p => p.2.lookups)).filterMap (fun l => if l.frame.region = n && !l.released then some l.frame else none)

/-- The frame of least previous key that waits to re-enter. -/
def leastKey : List Frame → Option Frame
  | [] => none
  | f :: l =>
    match leastKey l with
    | none => some f
    | some g => some (if keyLt g.key f.key then g else f)

/-- The next recirculated frame of a region re-enters its pipeline (R183) with its new key (R31), once no frame of its previous
stroke can still precede it: the frames of one stroke re-enter in the order of their previous keys. -/
def recircPass (n : Nat) (s : State) : State :=
  match leastKey (s.recircx n).waiting with
  | none => s
  | some f =>
    let before := fun (g : Frame) => keyLt g.key f.key
    if !s.wmPassed n f.key.stroke || (s.onRecircPath n).any before || (s.undecided n).any before then s
    else
      let x := s.recircx n
      let t := s.nextStroke f
      let q := mget 0 x.seq t
      let s := s.setRecircx n { waiting := x.waiting.filter (fun g => g.key != f.key), seq := mset 0 x.seq t (q + 1) }
      let s := s.freeCopy n f.buf 14 true
      let d := padTo 60 f.data
      let (s, h) := s.takeIn n 66 d t (FKey.num ⟨t, 528 + n, q % 65536⟩)
      match h with
      | none => s.txLess f
      | some h =>
        let g : Frame := { key := ⟨t, 528 + n, q % 65536⟩, data := d, region := n, pipe := f.pipe, pass := f.pass + 1, bank := f.bank,
                           epoch := f.epoch, zone := f.zone, stamp := f.stamp, stampDom := f.stampDom, stamped := false, tx := f.tx, buf := h,
                           origLen := f.origLen }
        let s := s.ev (64 + 2 * n + f.pipe) 0x15 none 1 t g.key.num
        let y := s.pipe n f.pipe
        s.setPipe n f.pipe { y with inq := mset [] y.inq 5 (mget [] y.inq 5 ++ [g]) }

/-! ### Meanings -/

def execClassify (n : Region) (p : Pipe) (chk : ReadCheck) (s : State) : Host.Outcome State Fault Refusal :=
  .next (if s.running && s.regionOn n then classifyNext n p chk s else s)

def execRecirculationPass (n : Region) (s : State) : Host.Outcome State Fault Refusal :=
  .next (if s.running && s.regionOn n then recircPass n s else s)

def execTcamParityCheck (n : Region) (p : Pipe) (e : BitVec 15) (bad : Bool) (s : State) : Host.Outcome State Fault Refusal :=
  .next (if s.alive && s.rf (PWR_STATUS.LEVEL n) = 8 then tcamCheck n p e.toNat bad s else s)

def execRuleSetArm (n : Region) (p : Pipe) (v : Word) (s : State) : Host.Outcome State Fault Refusal :=
  .next (onWrite (switchCtrlWrite n p (putBits v.toNat 0 1 1)) s)

def execRuleSetCancel (n : Region) (p : Pipe) (v : Word) (s : State) : Host.Outcome State Fault Refusal :=
  .next (onWrite (switchCtrlWrite n p (putBits v.toNat 1 1 1)) s)

/-- The low word first, then the high word that uses it up, or leaves it held where the write is rejected (R10, log entry 166). -/
def execSwitchStrokeWrite (n : Region) (p : Pipe) (v : BitVec 48) (s : State) : Host.Outcome State Fault Refusal :=
  .next (onWrite (fun s => switchStrokeWrite n p v.toNat (s.withHold (mset none s.hold (IP_CL_SWITCH_STROKE.w n p)
    (if s.rb (IP_CL_STATUS.PENDING n p) then some (v.truncate 32) else none)))) s)

def execBankSwitch (n : Region) (p : Pipe) (s : State) : Host.Outcome State Fault Refusal := .next (bankSwitchStep n p s)

def execDrainEnd (n : Region) (p : Pipe) (s : State) : Host.Outcome State Fault Refusal := .next (drainEnd n p s)

end Sys2Proof.Machine
end

