-- ==== Sys2Proof/Machine/Tables.lean ====
section
/-! DEFINITION. The table block of a region (file 06): endpoint, route and VLAN tables with the visibility of changes (R212 to R214),
the forwarding lookup (R209, R210), learning (R215), ageing (R218, R219), eviction (R220) and the compare walker (R227). -/

namespace Sys2Proof.Machine

/-- Set a bit of `TBL_ERR` and raise event 0x330 (R230). -/
def State.tblErr (s : State) (f : Fld) (n : Nat) : State := s.setErr f (regionSrc 0x330 n)

/-! ### Units: endpoint slots, route units, VLAN entries

A unit of a region's tables is named by one number: slot i, 2^20 + route unit, 2^21 + VID. -/

def routeId (u : Nat) : Nat := 2 ^ 20 + u
def vlanId (v : Nat) : Nat := 2 ^ 21 + v

/-- What a unit holds now. -/
def State.unit (s : State) (n id : Nat) : Nat :=
  if id < 2 ^ 20 then s.ep n id
  else if id < 2 ^ 21 then mget 0 s.routes (n * 2 ^ 18 + (id - 2 ^ 20))
  else mget 0 s.vlans (n * 2 ^ 12 + (id - 2 ^ 21))

/-- Buckets of the hashed area (R202). -/
def State.buckets (s : State) (n : Nat) : Nat := 131072 - s.rf (TBL_CFG.NH_BUCKETS n)

/-- Route unit `u` with contents `v` is in use: bit 128 marks a unit written through table 0x03, whose odd unit keeps the VALID bit of
its pair in bit 129 (R206). -/
def routeUsed (u v : Nat) : Bool := if bit v 128 && u % 2 = 1 then bit v 129 else bit v 40

/-- The unit is occupied: an endpoint slot of the hashed area with TYPE not 0, or a valid route unit. -/
def State.occUnit (s : State) (n id v : Nat) : Bool :=
  if id < 2 ^ 20 then decide (id < 8 * s.buckets n) && bits v 80 3 != 0
  else decide (id < 2 ^ 21) && routeUsed (id - 2 ^ 20) v

/-- Store a unit and keep `TBL_OCC` and `TBL_ROUTE_OCC`. -/
def State.putUnit (s : State) (n id v : Nat) : State :=
  let f := if id < 2 ^ 20 then TBL_OCC.USED n else TBL_ROUTE_OCC.USED n
  let u := s.rf f + b2n (s.occUnit n id v) - b2n (s.occUnit n id (s.unit n id))
  let s := if id < 2 ^ 21 then s.wf f u else s
  if id < 2 ^ 20 then s.withEps (mset 0 s.eps (n * 2 ^ 20 + id) v)
  else if id < 2 ^ 21 then s.withRoutes (mset 0 s.routes (n * 2 ^ 18 + (id - 2 ^ 20)) v)
  else s.withVlans (mset 0 s.vlans (n * 2 ^ 12 + (id - 2 ^ 21)) v)

/-- Store a unit as a change at a logical stroke, made by a frame or by a scheduled command (R212, R214). A removal that was pending there is
pending no more. -/
def State.changeUnit (s : State) (n id v stroke : Nat) (byFrame : Bool) : State :=
  let x := s.tbl n
  (s.setTbl n { x with log := x.log ++ [⟨id, s.unit n id, stroke, byFrame⟩], aging := x.aging.filter (fun i => i != id) }).putUnit n id v

/-- Store a unit at once: every earlier change of it is visible with this one (an unscheduled command, R223; a parity loss). -/
def State.forceUnit (s : State) (n id v : Nat) : State :=
  let x := s.tbl n
  (s.setTbl n { x with log := x.log.filter (fun c => c.slot != id), aging := x.aging.filter (fun i => i != id) }).putUnit n id v

/-- Take back, newest first, the changes that a lookup of stroke `t` does not see (R213). -/
def undoChanges (d t : Nat) : List TblChange → Nat → Nat
  | [], v => v
  | c :: l, v => if strokeLe (if c.byFrame then (c.stroke + d) % 2 ^ 48 else c.stroke) t then v else undoChanges d t l c.old

/-- What a lookup of stroke `t` sees in a unit (R213). -/
def State.seen (s : State) (n t id : Nat) : Nat :=
  undoChanges s.verdictLag t ((s.tbl n).log.filter (fun c => c.slot = id)).reverse (s.unit n id)

/-- A command has written a unit: a difference that waits for its recheck is no mismatch (R227). -/
def State.noteWritten (s : State) (n table unit : Nat) : State :=
  let x := s.tbl n
  s.setTbl n { x with cmpDiff := x.cmpDiff.map (fun c => if c.table = table ∧ c.unit = unit then { c with written := true } else c) }

/-! ### Endpoint entries (R202 to R204) -/

/-- A MAC or host-IP key. -/
inductive EpKey where
  | mac (vid addr : Nat)
  | ip4 (vrf addr : Nat)
  | ip6 (vrf hi lo : Nat)
deriving DecidableEq, Repr

/-- The hash key bytes (Table FT-3). -/
def EpKey.bytes : EpKey → List Byte
  | .mac v a => 1 :: (bytesBE 2 v ++ bytesBE 6 a)
  | .ip4 v a => 2 :: (bytesBE 2 v ++ bytesBE 4 a)
  | .ip6 v h l => 3 :: (bytesBE 2 v ++ bytesBE 8 h ++ bytesBE 8 l)

def EpKey.type : EpKey → Nat
  | .mac _ _ => 1
  | .ip4 _ _ => 2
  | .ip6 _ _ _ => 3

/-- Fields of an endpoint slot (Tables FT-1, FT-2). -/
def epType (v : Nat) : Nat := bits v 80 3
def epStatic (v : Nat) : Bool := bit v 83
def epLock (v : Nat) : Bool := bit v 84
def epAgeEn (v : Nat) : Bool := bit v 85
def epIdle (v : Nat) : Bool := bit v 88
def epAging (v : Nat) : Bool := bit v 89
def epPort (v : Nat) : Nat := bits v 64 10

/-- The two candidate buckets of a key (R204). -/
def State.candidates (s : State) (n : Nat) (k : EpKey) : Nat × Nat :=
  let b := s.buckets n
  let h0 := crc32c k.bytes % b
  let h1 := crc32c (bytesBE 4 (s.rf (TBL_HASH_SEED.SEED n)) ++ k.bytes) % b
  (h0, if h1 = h0 then (h0 + 1) % b else h1)

/-- The slots of both candidate buckets, h0 first. -/
def State.slotsOf (s : State) (n : Nat) (k : EpKey) : List Nat :=
  let c := s.candidates n k
  (List.range 8).map (fun i => 8 * c.1 + i) ++ (List.range 8).map (fun i => 8 * c.2 + i)

/-- Slot `i` of a view is the first slot of an IPv6 host entry (R203). -/
def pairFirst (g : Nat → Nat) (i : Nat) : Bool := i % 2 = 0 && epType (g i) = 3 && epType (g (i + 1)) = 4

/-- Slot `i` of a view is the second slot of an IPv6 host entry. -/
def pairSecond (g : Nat → Nat) (i : Nat) : Bool := i % 2 = 1 && pairFirst g (i - 1)

/-- Slot `i` of a view holds key `k`. -/
def holdsKey (g : Nat → Nat) (k : EpKey) (i : Nat) : Bool :=
  match k with
  | .mac v a => epType (g i) = 1 && bits (g i) 0 48 = a && bits (g i) 48 12 = v
  | .ip4 v a => epType (g i) = 2 && bits (g i) 0 32 = a && bits (g i) 32 12 = v
  | .ip6 v h l => pairFirst g i && bits (g i) 0 64 = h && bits (g i) 64 12 = v && bits (g (i + 1)) 0 64 = l

/-- The slot of a key in a view: both candidate buckets are searched (R204). -/
def State.findIn (s : State) (n : Nat) (g : Nat → Nat) (k : EpKey) : Option Nat := (s.slotsOf n k).find? (holdsKey g k)

/-- The key that a slot holds, as stored. -/
def slotKey (g : Nat → Nat) (i : Nat) : EpKey :=
  if epType (g i) = 1 then .mac (bits (g i) 48 12) (bits (g i) 0 48)
  else if epType (g i) = 2 then .ip4 (bits (g i) 32 12) (bits (g i) 0 32)
  else .ip6 (bits (g i) 64 12) (bits (g i) 0 64) (bits (g (i + 1)) 0 64)

/-- TARGET of a learning report: PORT of a MAC entry, NH of a host entry (R466). -/
def slotTarget (g : Nat → Nat) (i : Nat) : Nat :=
  if epType (g i) = 1 then epPort (g i) else if epType (g i) = 2 then bits (g i) 48 16 else bits (g (i + 1)) 64 16

/-! ### Learning reports (R217, R466) -/

/-- Report a change of an endpoint table. -/
def State.learnReport (s : State) (n what slot type stroke target : Nat) (key : List Byte) : State :=
  s.raiseRec ⟨regionSrc 0x332 n, 3, slot + what * 2 ^ 20 + type * 2 ^ 23, stroke % 2 ^ 32, stroke / 2 ^ 32,
    if key.isEmpty then [] else bytesLE 2 target ++ key⟩

/-- A change of the entry of slot `i`: it enters the digest, its fields in the order of R543, and is reported when `notify` says so. -/
def State.reportSlot (s : State) (n what i stroke : Nat) (notify : Bool) : State :=
  let g := s.ep n
  let k := slotKey g i
  let t := slotTarget g i
  let s := s.digest (8 + n) stroke
    ([BitVec.ofNat 8 what, BitVec.ofNat 8 k.type] ++ bytesBE 3 i ++ bytesBE 2 t ++ k.bytes ++ bytesBE 6 stroke)
  if notify then s.learnReport n what i k.type stroke t k.bytes else s

/-! ### Placement and eviction (R204, R220) -/

/-- The slots an occupant of slot `i` takes. -/
def occupant (g : Nat → Nat) (i : Nat) : List Nat :=
  if pairFirst g i then [i, i + 1] else if pairSecond g i then [i - 1, i] else [i]

/-- The slot whose flags count for slot `i` (R203). -/
def flagSlot (g : Nat → Nat) (i : Nat) : Nat := if pairSecond g i then i - 1 else i

/-- An empty slot that is not locked (R226). -/
def freeSlot (g : Nat → Nat) (i : Nat) : Bool := epType (g i) = 0 && !epLock (g i)

/-- An evictable occupant (R220). -/
def evictable (g : Nat → Nat) (i : Nat) : Bool :=
  let v := g (flagSlot g i)
  !epStatic v && !epLock v && decide (1 ≤ epType (g i)) && decide (epType (g i) ≤ 4)

/-- The rank of a slot (R220). -/
def slotRank (g : Nat → Nat) (hit i : Nat) : Nat :=
  if epType (g i) = 0 then 4
  else
    let v := g (flagSlot g i)
    2 * b2n (epIdle v) + (1 - b2n (bit v hit))

/-- The first member of greatest rank. -/
def bestBy (r : Nat → Nat) : List Nat → Option Nat
  | [] => none
  | i :: l =>
    match bestBy r l with
    | none => some i
    | some j => some (if r i < r j then j else i)

/-- Where an entry of key `k` is placed at stroke `t`: an empty place, or a victim when `evict` allows it. The second component lists
the slots that eviction empties. -/
def State.place (s : State) (n : Nat) (k : EpKey) (t : Nat) (evict : Bool) : Option (Nat × List Nat) :=
  let g := s.ep n
  let sl := s.slotsOf n k
  let two := k.type = 3
  let ok := fun i => if two then i % 2 = 0 && freeSlot g i && freeSlot g (i + 1) else freeSlot g i
  match sl.find? ok with
  | some i => some (i, [])
  | none =>
    if !evict then none
    else
      let takes := fun i => freeSlot g i || evictable g i
      let cand := sl.filter (fun i => if two then i % 2 = 0 && takes i && takes (i + 1) else evictable g i)
      let hit := s.hitBit n t
      let rank := fun i => if two then min (slotRank g hit i) (slotRank g hit (i + 1)) else slotRank g hit i
      let pick :=
        if s.rb (TBL_CFG.EVICT_RANDOM n) then
          (if cand.isEmpty then none else cand[crc32c (k.bytes ++ bytesBE 6 t) % cand.length]?)
        else bestBy rank cand
      pick.map (fun i => (i, ((if two then occupant g i ++ occupant g (i + 1) else occupant g i).eraseDups).filter
        (fun j => epType (g j) != 0)))

/-- Evict the occupants of some slots, reporting each entry once. -/
def State.evictSlots (s : State) (n stroke : Nat) (byFrame : Bool) : List Nat → State
  | [] => s
  | i :: l =>
    let s := if pairSecond (s.ep n) i then s else s.reportSlot n 3 i stroke true
    (s.evictSlots n stroke byFrame l).changeUnit n i 0 stroke byFrame

/-! ### Learning (R214 to R216) -/

/-- E: learns and moves per stroke (R214). -/
def State.learnMax (s : State) (n : Nat) : Nat := min (s.rf (TBL_LEARN_CFG.LEARN_LIMIT n)) (4096 / s.verdictLag)

/-- Count a create or move of stroke `t` that changes `k` slots, or refuse it (R214). The Bool says that it is performed. -/
def State.learnCount (s : State) (n t k : Nat) : State × Bool :=
  let x := s.tbl n
  let used := if x.learnAt = t then x.learnN else 0
  if s.learnMax n < used + k then
    ((s.setTbl n { x with learnAt := t, learnN := used, limitN := x.limitN + 1 }).addSat (TBL_CNT.LIMIT_DROPS n) 1, false)
  else (s.setTbl n { x with learnAt := t, learnN := used + k }, true)

/-- What an aborted removal leaves of slot `i` (R218): AGING and IDLE clear, ABORT set. -/
def State.aborted (s : State) (n i v : Nat) : Nat :=
  if i ∈ (s.tbl n).aging then putBits (putBits (putBits v 89 1 0) 88 1 0) 90 1 1 else v

/-- Slot `i`, which holds `v`, with its hit bit set, IDLE clear and its pending removal aborted (Table FT-7, R218). -/
def State.refreshed (s : State) (n t i v : Nat) : Nat := putBits (s.aborted n i (putBits v (s.hitBit n t) 1 1)) 88 1 0

/-- Store a slot that a hit or a refresh changed: no lookup sees a difference, and no removal is pending there. -/
def State.touch (s : State) (n i v : Nat) : State :=
  let x := s.tbl n
  let s := if i ∈ x.aging then s.setTbl n { x with aging := x.aging.filter (fun j => j != i) } else s
  s.withEps (mset 0 s.eps (n * 2 ^ 20 + i) v)

/-! ### Hits (R211, R212) -/

/-- Ageing acts on the slot: a MAC entry, an IPv4 host entry, or the first slot of an IPv6 pair. -/
def ages (g : Nat → Nat) (i : Nat) : Bool := epType (g i) = 1 || epType (g i) = 2 || pairFirst g i

/-- A hit takes effect if the entry it found is still there: it sets the interval's hit bit and aborts a pending removal. -/
def State.applyHit (s : State) (n : Nat) (h : HitReq) : State :=
  let g := s.ep n
  if ages g h.slot && (slotKey g h.slot).bytes = h.who then
    s.touch n h.slot (s.aborted n h.slot (putBits (g h.slot) (s.hitBit n h.key.stroke) 1 1))
  else s

/-- Apply the waiting hits whose key is one of `p`; hits of one interval commute. -/
def State.applyHits (s : State) (n : Nat) (p : FKey → Bool) : State :=
  let x := s.tbl n
  let now := x.hits.filter (fun h => p h.key)
  if now.isEmpty then s
  else now.foldl (fun s h => if s.pairChanges h.key.stroke then s.applyHit n h else s) (s.setTbl n { x with hits := x.hits.filter (fun h => !p h.key) })

/-- A frame of a stroke up to `t` still waits for a verdict that may set a hit bit. -/
def State.hitsHeld (s : State) (n t : Nat) : Bool := (s.undecided n).any (fun f => strokeLe f.key.stroke t && f.dec.hit.isSome)

/-- Apply a learn request at its logical point (Table FT-7). -/
def State.applyLearn (s : State) (n : Nat) (q : LearnReq) : State :=
  let k := EpKey.mac q.vid q.mac
  let t := q.key.stroke
  match s.findIn n (s.ep n) k with
  | some i =>
    let v := s.ep n i
    if epPort v = q.key.port then s.touch n i (s.refreshed n t i v)
    else if epStatic v || epLock v then s.addSat (TBL_CNT.STATIC_REFUSED n) 1
    else
      let (s, ok) := s.learnCount n t 1
      if !ok then s
      else
        let s := s.ev (96 + n) 0x13 none 1 t q.key.num
        let s := s.changeUnit n i (putBits (s.refreshed n t i v) 64 10 q.key.port) t true
        s.reportSlot n 1 i t (s.rb (TBL_LEARN_CFG.NOTIFY_MOVE n))
  | none =>
    match s.place n k t (s.rb (TBL_CFG.LEARN_EVICT n)) with
    | none =>
      (s.addSat (TBL_CNT.LEARN_FAIL n) 1).learnReport n 4 0xFFFFF 1 t q.key.port k.bytes
    | some (i, out) =>
      let (s, ok) := s.learnCount n t (1 + out.length)
      if !ok then s
      else
        let s := (s.ev (96 + n) 0x13 none 1 t q.key.num).ev (96 + n) 0x15 none out.length t q.key.num
        let s := s.evictSlots n t true out
        let v := q.mac + q.vid * 2 ^ 48 + q.key.port * 2 ^ 64 + 1 * 2 ^ 80 + 2 ^ 85 + 2 ^ s.hitBit n t + 2 ^ 91
        let s := s.changeUnit n i v t true
        s.reportSlot n 0 i t (s.rb (TBL_LEARN_CFG.NOTIFY_LEARN n))

/-- The first boundary of a grid of `nn` strokes from `base` that comes after stroke `x` (R218, R255). -/
def nextBoundary (base nn x : Nat) : Nat := (base + (strokeDiff base x / nn + 1) * nn) % 2 ^ 48

/-- The stroke up to which boundaries are done: those before the first run never are (R607). -/
def State.sweptUpTo (s : State) (x : Option Nat) : Nat := x.getD ((s.chip.sweepFrom + (2 ^ 48 - 1)) % 2 ^ 48)

/-- The next sweep boundary of a table block, when ageing is on (R218). Boundaries are taken one by one, each once (R37, R618). -/
def State.boundary (s : State) (n : Nat) : Option Nat :=
  let nn := s.rf (TBL_AGE_CFG.N n)
  if nn = 0 then none else some (nextBoundary (s.rf (TBL_AGE_BASE.STROKE n)) nn (s.sweptUpTo (s.tbl n).swept))

/-- The sweep step of every boundary at or before `t` is done. -/
def State.sweptTo (s : State) (n t : Nat) : Bool :=
  match s.boundary n with
  | none => true
  | some b => strokeLt t b

/-- A scheduled command of a stroke at or before `t` still waits. -/
def State.schedBefore (s : State) (n t : Nat) : Bool := (s.tbl n).sched.any (fun c => strokeLe c.stroke t)

/-- Removals of a boundary that are final before stroke `t` are not yet done (R218, R219). -/
def State.removalBefore (s : State) (n t : Nat) : Bool :=
  match (s.tbl n).removal with
  | some b => strokeLt ((b + s.verdictLag + (2 ^ 48 - 1)) % 2 ^ 48) t
  | none => false

/-- The request of least key. -/
def leastLearn : List LearnReq → Option LearnReq
  | [] => none
  | q :: l =>
    match leastLearn l with
    | none => some q
    | some r => some (if keyLt r.key q.key then r else q)

/-- Apply the learn request of least key, once the watermark has passed its stroke and everything before it is applied, the hits of keys up to
its own among them (R39, R212, R215; that a frame's own hit precedes its learn is a DESIGN CHOICE, log entry 178); the drops of a stroke are reported once, when its last request is taken (R217). -/
def learnApply (n : Nat) (s : State) : State :=
  match leastLearn (s.tbl n).learns with
  | none => s
  | some q =>
    let t := q.key.stroke
    if !s.wmPassed n t || !s.sweptTo n t || s.schedBefore n t || s.removalBefore n t || s.hitsHeld n t then s
    else
      let s := s.applyHits n (fun k => !keyLt q.key k)
      let x := s.tbl n
      let s := s.setTbl n { x with learns := x.learns.filter (fun r => r != q) }
      let s := if s.pairChanges t then s.applyLearn n q else s
      let x := s.tbl n
      if x.limitN = 0 || x.learns.any (fun r => r.key.stroke = t) then s
      else (s.setTbl n { x with limitN := 0 }).learnReport n 5 (min x.limitN 0xFFFFF) 0 t 0 []

/-! ### Ageing (R218, R219) -/

/-- The sweep step on one entry with hit bit `j` (Table FT-9). -/
def sweepEntry (j v : Nat) : Nat :=
  let v := putBits v 90 1 0
  if !epAgeEn v || epStatic v || epLock v then v
  else if bit v (86 + j) then putBits (putBits v (86 + j) 1 0) 88 1 0
  else if !epIdle v then putBits v 88 1 1
  else putBits v 89 1 1

/-- The last row of Table FT-9 applies: the entry's removal becomes pending. -/
def sweepsOut (j v : Nat) : Bool := epAgeEn v && !epStatic v && !epLock v && !bit v (86 + j) && epIdle v

/-- The slots of a region that hold something. -/
def State.heldSlots (s : State) (n : Nat) : List Nat :=
  s.eps.filterMap (fun e => if n * 2 ^ 20 ≤ e.1 ∧ e.1 < (n + 1) * 2 ^ 20 then some (e.1 - n * 2 ^ 20) else none)

/-- Store slots without logging: what a sweep changes, lookups do not see. -/
def State.putSlots (s : State) (n : Nat) : List (Nat × Nat) → State
  | [] => s
  | (i, v) :: l => (s.withEps (mset 0 s.eps (n * 2 ^ 20 + i) v)).putSlots n l

/-- Everything that precedes the sweep step of boundary `b` is applied (R37, R212, R218), and `b` does not lie in a quiesce (R618). -/
def State.sweepReady (s : State) (n b : Nat) : Bool :=
  let t := (b + (2 ^ 48 - 1)) % 2 ^ 48
  strokeLe b s.strokeNow && !s.inSpan b && s.wmPassed n t && (s.tbl n).removal.isNone && !s.hitsHeld n t &&
    !((s.tbl n).learns.any (fun q => strokeLt q.key.stroke b)) && !((s.tbl n).sched.any (fun c => strokeLt c.stroke b))

/-- The ageing sweep at the next boundary: it examines exactly the hits of earlier strokes (R218). In Standby-Cold nothing ages (R536). -/
def State.sweepAt (s : State) (n b : Nat) : State :=
  if !s.pairChanges b then s.setTbl n { s.tbl n with swept := some b } else
  let s := s.applyHits n (fun k => strokeLt k.stroke b)
  let k := strokeDiff (s.rf (TBL_AGE_BASE.STROKE n)) b / s.rf (TBL_AGE_CFG.N n)
  let j := (k - 1) % 2
  let g := s.ep n
  let l := (s.heldSlots n).filter (ages g)
  let out := l.filter (fun i => sweepsOut j (g i))
  let s := s.putSlots n (l.map (fun i => (i, sweepEntry j (g i))))
  let x := s.tbl n
  (s.setTbl n { x with swept := some b, removal := if out.isEmpty then none else some b, aging := out }).wb (TBL_STATUS.REMOVALS_PENDING n)
    (!out.isEmpty)

/-- Remove the entries whose removal is pending. -/
def State.removeAged (s : State) (n b : Nat) : List Nat → State
  | [] => s
  | i :: l =>
    let s := s.ev (96 + n) 0x14 none 1 b (b * 2 ^ 32)
    let s := s.reportSlot n 2 i b (s.rb (TBL_LEARN_CFG.NOTIFY_AGED n))
    let s := (occupant (s.ep n) i).foldl (fun s j => s.changeUnit n j 0 b true) s
    s.removeAged n b l

/-- Pending removals become final once the watermark passes S + D − 1 (R219). -/
def removalFinal (n : Nat) (s : State) : State :=
  match (s.tbl n).removal with
  | none => s
  | some b =>
    let last := (b + s.verdictLag + (2 ^ 48 - 1)) % 2 ^ 48
    if !s.wmPassed n last || s.schedBefore n last || s.hitsHeld n last || (s.tbl n).learns.any (fun q => strokeLe q.key.stroke last) then s
    else
      let s := s.applyHits n (fun k => strokeLe k.stroke last)
      let s := if s.pairChanges b then s.removeAged n b (s.tbl n).aging else s
      (s.setTbl n { s.tbl n with removal := none, aging := [] }).wf (TBL_STATUS.REMOVALS_PENDING n) 0

/-! ### Routes (R206, R207) -/

/-- A route unit's fields: payload words 0 to 3 in bits [127:0] (Table FT-4); bit 128 marks a unit written through table 0x03. -/
def rtLen (v : Nat) : Nat := bits v 32 8
def rtValid (v : Nat) : Bool := bit v 40
def rtVrf (v : Nat) : Nat := bits v 48 12
def rtNh (v : Nat) : Nat := bits v 64 16
def rtV6 (v : Nat) : Bool := bit v 128

/-- The IPv6 address of a prefix in an aligned unit pair: ADDR0 in the first unit, ADDR1 to ADDR3 in the second. -/
def rtAddr6 (v w : Nat) : Nat := bits v 0 32 * 2 ^ 96 + bits w 0 32 * 2 ^ 64 + bits w 32 32 * 2 ^ 32 + bits w 64 32

/-- The first `len` of `w` bits agree. -/
def prefixEq (w len a b : Nat) : Bool := a / 2 ^ (w - len) = b / 2 ^ (w - len)

/-- The route units that a view may hold, lowest first. -/
def State.routeUnits (s : State) (n : Nat) : List Nat :=
  let cur := s.routes.filterMap (fun e =>
    if n * 2 ^ 18 ≤ e.1 ∧ e.1 < (n + 1) * 2 ^ 18 then some (e.1 - n * 2 ^ 18) else none)
  let old := (s.tbl n).log.filterMap (fun c => if 2 ^ 20 ≤ c.slot ∧ c.slot < 2 ^ 21 then some (c.slot - 2 ^ 20) else none)
  (cur ++ old).eraseDups

/-- The better of two matches: longer prefix, then lower unit (R207). -/
def betterRoute (a b : Nat × Nat × Nat) : Nat × Nat × Nat :=
  if b.1 < a.1 then a else if a.1 < b.1 then b else if b.2.1 < a.2.1 then b else a

/-- Longest-prefix match for stroke `t`: the next hop (R207). -/
def State.routeFind (s : State) (n t vrf : Nat) (v6 : Bool) (addr : Nat) : Option Nat :=
  let g := fun u => s.seen n t (routeId u)
  let hits := (s.routeUnits n).filterMap (fun u =>
    let v := g u
    if rtValid v && rtVrf v = vrf && rtV6 v = v6 then
      if v6 then (if u % 2 = 0 && prefixEq 128 (rtLen v) addr (rtAddr6 v (g (u + 1))) then some (rtLen v, u, rtNh v) else none)
      else (if prefixEq 32 (rtLen v) addr (bits v 0 32) then some (rtLen v, u, rtNh v) else none)
    else none)
  match hits with
  | [] => none
  | h :: l => some (l.foldl betterRoute h).2.2

/-! ### The forwarding lookup (R209, R210) -/

/-- VID of a frame (R209). -/
def State.vidOf (s : State) (f : Frame) : Nat :=
  let n := f.region
  let v := be16 f.hv (s.rf (TBL_LKP_SEL0.VID_OFF n)) % 4096
  if hvValid f.hv (s.rf (TBL_LKP_SEL0.TAG_HDR n)) && v != 0 then v
  else
    let l := localOf f.key.port
    if l % 2 = 0 then s.rf (TBL_PVID.PVID_LO n (l / 2)) else s.rf (TBL_PVID.PVID_HI n (l / 2))

/-- DA and SA of a frame as 48-bit numbers. -/
def State.daOf (s : State) (f : Frame) : Nat := beAt f.hv (s.rf (TBL_LKP_SEL0.DA_OFF f.region)) 6
def State.saOf (s : State) (f : Frame) : Nat := beAt f.hv (s.rf (TBL_LKP_SEL0.DA_OFF f.region) + 6) 6

/-- The IP destination of a frame: IPv4 first (R209). -/
def State.ipOf (s : State) (f : Frame) : Option (Bool × Nat) :=
  let n := f.region
  if hvValid f.hv (s.rf (TBL_LKP_SEL1.IP4_HDR n)) then some (false, beAt f.hv (s.rf (TBL_LKP_SEL1.IP4_DA_OFF n)) 4)
  else if hvValid f.hv (s.rf (TBL_LKP_SEL1.IP6_HDR n)) then some (true, beAt f.hv (s.rf (TBL_LKP_SEL1.IP6_DA_OFF n)) 16)
  else none

/-- DA is a router address (`TBL_RMAC`). -/
def State.isRouter (s : State) (n da : Nat) : Bool :=
  (List.range 8).any (fun i => s.rb (TBL_RMAC.VALID n i) &&
    s.rf (TBL_RMAC.ADDR_HI n i) * 2 ^ 32 + s.rf (TBL_RMAC.ADDR_LO n i) = da)

/-- Follow next hop `j` as a lookup of stroke `t` sees it (R210). -/
def State.nextHop (s : State) (n t j : Nat) (hit : Option (Nat × List Byte)) : FwdDec :=
  let v := s.seen n t (8 * s.buckets n + j)
  if j < 8 * s.rf (TBL_CFG.NH_BUCKETS n) ∧ epType v = 5 then { dest := .port (epPort v), nh := some v, hit := hit, found := hit.isSome }
  else { dest := .port 1023, hit := hit, found := hit.isSome }

/-- The destination decision of Table FT-6. -/
def State.decide6 (s : State) (f : Frame) : FwdDec :=
  let n := f.region
  let t := f.key.stroke
  let g := s.seen n t
  let da := s.daOf f
  let vid := s.vidOf f
  match (if s.isRouter n da then s.ipOf f else none) with
  | some (v6, a) =>
    let vrf := f.zone % 4096
    let k := if v6 then EpKey.ip6 vrf (a / 2 ^ 64) (a % 2 ^ 64) else EpKey.ip4 vrf a
    match s.findIn n g k with
    | some i => s.nextHop n t (slotTarget g i) (some (i, k.bytes))
    | none =>
      match s.routeFind n t vrf v6 a with
      | some j => s.nextHop n t j none
      | none => { dest := .drop, missTrap := s.rb (TBL_CFG.ROUTE_MISS_TRAP n) }
  | none =>
    match s.findIn n g (.mac vid da) with
    | some i => { dest := .port (epPort (g i)), hit := if s.rb (TBL_CFG.DA_HIT n) then some (i, (EpKey.mac vid da).bytes) else none, found := true }
    | none =>
      let e := s.seen n t (vlanId vid)
      if bit e 17 then { dest := .drop } else { dest := .group (bits e 0 16) }

/-- Issue a learn request when R215 allows one. -/
def State.learnAsk (s : State) (f : Frame) (vid sa : Nat) : State :=
  let n := f.region
  if s.rb (TBL_CFG.LEARN_EN n) && bit (s.seen n f.key.stroke (vlanId vid)) 16 && !bit sa 40 && decide (f.key.port < 512) then
    s.setTbl n { s.tbl n with learns := (s.tbl n).learns ++ [⟨f.key, vid, sa⟩] }
  else s

/-- The source lookup of a frame: a hit on its own port, or a learn request (R210, R211, R215). -/
def State.sourceLookup (s : State) (f : Frame) : State :=
  let n := f.region
  let t := f.key.stroke
  let vid := s.vidOf f
  let sa := s.saOf f
  let g := s.seen n t
  let hit := s.findIn n g (.mac vid sa)
  match hit with
  | some i =>
    if epPort (g i) = f.key.port then s.noteHit f (i, (EpKey.mac vid sa).bytes)
    else s.learnAsk f vid sa
  | none => s.learnAsk f vid sa

/-- Strokes that frames in a region's ingress pipelines, or on its recirculation path, belong to (R33). -/
def State.pipeStrokes (s : State) (n : Nat) : List Nat :=
  ((List.range 2).flatMap (fun p => (s.pipe n p).frames.map (·.key.stroke))) ++
  (s.onRecircPath n).map (fun f => s.nextStroke f) ++ s.pairx.recs.map (·.stroke)

/-- A lookup of stroke `t` can be answered: everything it must see has been applied (R213, R219). -/
def State.lookupReady (s : State) (n t : Nat) : Bool :=
  let u := (t + 2 ^ 48 - s.verdictLag) % 2 ^ 48
  !s.schedBefore n t && s.sweptTo n u && !((s.tbl n).learns.any (fun q => strokeLe q.key.stroke u)) &&
    !((s.pipeStrokes n).any (fun x => strokeLe x u)) &&
    (match (s.tbl n).removal with
      | some b => !strokeLe ((b + s.verdictLag) % 2 ^ 48) t
      | none => true)

/-- A table word was read with a parity error: table 0 endpoint, 1 route, 2 VLAN, and the unit. It is logged, captured and flagged (R228, R233). -/
def State.tblNote (s : State) (n table ix : Nat) (chk : ReadCheck) : State :=
  let s := s.noteRead n (if table = 0 then 2 else if table = 1 then 3 else 5) chk
  let s := if s.reg (TBL_ERR.w n) = 0 then (s.wf (TBL_ERR_LOC.TABLE n) table).wf (TBL_ERR_LOC.INDEX n) ix else s
  s.tblErr (TBL_ERR.PARITY n) n

/-- The units that fall with unit `ix` of a table: an endpoint pair, both units of an IPv6 prefix, or the unit alone (R228). -/
def State.unitsLost (s : State) (n table ix : Nat) : List Nat :=
  if table = 0 then occupant (s.ep n) ix
  else if table = 1 then
    (if bit (s.unit n (routeId ix)) 128 then [routeId (ix / 2 * 2), routeId (ix / 2 * 2 + 1)] else [routeId ix])
  else [vlanId ix]

/-- A lookup, the sweeper or the walker read a table word with a parity error (R228); a failed retry empties it. -/
def State.tblParity (s : State) (n table ix : Nat) (chk : ReadCheck) : State :=
  if isBad chk then
    let s := s.tblNote n table ix chk
    if isFailed chk then (s.unitsLost n table ix).foldl (fun s j => s.forceUnit n j 0) (s.tblErr (TBL_ERR.PARITY_FAIL n) n) else s
  else s

/-- AGEING_SWEEP: the sweep step of the next boundary once it is due; `bad` are the slots that the sweeper reads with an error. -/
def ageingSweep (n : Nat) (bad : List (Nat × ReadCheck)) (s : State) : State :=
  match s.boundary n with
  | none => s
  | some b => if s.sweepReady n b then (bad.foldl (fun s r => s.tblParity n 0 r.1 r.2) s).sweepAt n b else s

/-- Hits whose logical point everything earlier has passed: a read of the tables shows them. -/
def State.settleHits (s : State) (n : Nat) : State :=
  s.applyHits n (fun k => s.wmPassed n k.stroke && s.sweptTo n k.stroke && !s.schedBefore n k.stroke &&
    !((s.tbl n).learns.any (fun q => keyLt q.key k)))

/-- A lookup of stroke `t` waits for a removal that is not final (R219). -/
def State.removalWaits (s : State) (n t : Nat) : Bool :=
  match (s.tbl n).removal with
  | some b => strokeLe ((b + s.verdictLag) % 2 ^ 48) t
  | none => false

/-- The lookups of a pipeline that wait for a removal are counted, each once (R591). -/
def State.countWaits (s : State) (n p : Nat) : State :=
  let x := s.pipe n p
  let w := fun (f : Frame) => !f.waited && s.removalWaits n f.key.stroke
  if !x.tbl.any w then s
  else
    (x.tbl.filter w).foldl (fun s f => s.ev (96 + n) 0x16 none 1 f.key.stroke f.key.num)
      (s.setPipe n p { x with tbl := x.tbl.map (fun f => if w f then { f with waited := true } else f) })

/-- The table block answers the next frame of a pipeline whose lookup can be answered (R210). `chk` is the check of unit `ix` of table `table`, or,
with table 3, that of the group entry that the release of the frame reads. -/
def forwardingLookup (n p : Nat) (chk : ReadCheck) (table ix : Nat) (s : State) : State :=
  let s := s.countWaits n p
  let (chk, grp) := if table = 3 then (ReadCheck.good, chk) else (chk, ReadCheck.good)
  match (s.pipe n p).tbl.find? (fun f => s.lookupReady n f.key.stroke) with
  | none => s
  | some f =>
    let x := s.pipe n p
    let s := (s.setPipe n p { x with tbl := x.tbl.filter (fun g => g.key != f.key) }).tblParity n table ix chk
    if isFailed chk then (s.addSat (TBL_CNT.PARITY_DISCARDS n) 1).dropFrame f
    else
      let l2 := hvValid f.hv (s.rf (TBL_LKP_SEL0.L2_HDR n))
      let dec : FwdDec := if actFwd f.act = 0 then (if l2 then s.decide6 f else { dest := .drop, noL2 := true }) else {}
      let u := 96 + n
      let t := f.key.stroke
      let s := if l2 then s.sourceLookup f else s
      let s := if l2 then s.ev u 0x10 none 1 t f.key.num else s
      let miss := l2 && actFwd f.act = 0 && !dec.found
      let s := if miss then s.ev u 0x11 none 1 t f.key.num else s
      let s := if miss && s.isRouter n (s.daOf f) && (s.ipOf f).isSome then s.ev u 0x12 none 1 t f.key.num else s
      let f := { f with dec := dec }
      if actFlowEn f.act then
        let x := s.pipe n p
        s.setPipe n p { x with flow := x.flow ++ [f] }
      else (s.groupCheck f grp).verdict f

/-! ### The compare walker (R227) -/

/-- Units of compared table `k`, and its shadow offset (Table FT-13). -/
def cmpSize (k : Nat) : Nat := if k = 0 then 2 ^ 20 else if k = 1 then 2 ^ 18 else 2 ^ 12
def cmpBase (k : Nat) : Nat := if k = 0 then 0 else if k = 1 then 0x1000000 else 0x1400000

/-- Table `k` is compared. -/
def State.cmpOn (s : State) (n k : Nat) : Bool :=
  s.rb (if k = 0 then TBL_CMP_CFG.EP n else if k = 1 then TBL_CMP_CFG.ROUTE n else TBL_CMP_CFG.VLAN n)

/-- The shadow of a unit in host memory. -/
def State.shadow (s : State) (n k u : Nat) : Nat := natLE (s.hostRead (s.rf (TBL_CMP_BASE.ADDR n) * 2 ^ 12 + cmpBase k + u * 16) 16)

/-- The unit and its shadow differ in what R227 compares. -/
def State.cmpDiffers (s : State) (n k u : Nat) : Bool :=
  let v := s.unit n (if k = 0 then u else if k = 1 then routeId u else vlanId u)
  let w := s.shadow n k u
  if k = 0 then (epStatic v || epStatic w || decide (8 * s.buckets n ≤ u)) && bits v 0 86 != bits w 0 86
  else if k = 1 then bits v 0 128 != w else v != w

/-- The walker leaves table `k`: for the next enabled table, or for a new lap. -/
def State.cmpLeave (s : State) (n k : Nat) : State :=
  let x := s.tbl n
  let go := fun (k : Nat) => (List.range 3).find? (fun j => decide (k ≤ j) && s.cmpOn n j)
  match go (k + 1) with
  | some j => s.setTbl n { x with cmpAt := (j, 0) }
  | none =>
    (s.setTbl n { x with cmpAt := ((go 0).getD 0, 0) }).wf (TBL_CMP_STATUS.LAPS n) (s.rf (TBL_CMP_STATUS.LAPS n) + 1)

/-- The place after unit `u` of table `k`. -/
def State.cmpNext (s : State) (n : Nat) (at_ : Nat × Nat) : State :=
  let x := s.tbl n
  if at_.2 + 1 < cmpSize at_.1 then s.setTbl n { x with cmpAt := (at_.1, at_.2 + 1) } else s.cmpLeave n at_.1

/-- The walker stands in a table that is walked: one whose enable bit is clear is left at once (R227). -/
def State.cmpEnter (s : State) (n : Nat) : State := if s.cmpOn n (s.tbl n).cmpAt.1 then s else s.cmpLeave n (s.tbl n).cmpAt.1

/-- One unit of the walker; the shadow read may fail, and the table read be in error (R227, R228). -/
def compareRead (n : Nat) (r : CmpRead) (s : State) : State :=
  if !s.rb (TBL_CMP_CFG.EN n) then s.wf (TBL_CMP_STATUS.RUNNING n) 0
  else if !r.dma then ((s.wf (TBL_CMP_CFG.EN n) 0).wf (TBL_CMP_STATUS.RUNNING n) 0).tblErr (TBL_ERR.CMP_DMA n) n
  else
    let s := (s.wf (TBL_CMP_STATUS.RUNNING n) 1).cmpEnter n
    let a := (s.tbl n).cmpAt
    if !s.cmpOn n a.1 then s
    else
      let s := s.tblParity n a.1 a.2 r.chk
      let s := if s.cmpDiffers n a.1 a.2 then s.setTbl n { s.tbl n with cmpDiff := (s.tbl n).cmpDiff ++ [⟨a.1, a.2, false⟩] } else s
      s.cmpNext n a

/-- The recheck of the oldest difference, 1,000 µs after it. -/
def compareRecheck (n : Nat) (r : CmpRead) (s : State) : State :=
  match (s.tbl n).cmpDiff with
  | [] => s
  | c :: rest =>
    if !r.dma then ((s.wf (TBL_CMP_CFG.EN n) 0).wf (TBL_CMP_STATUS.RUNNING n) 0).tblErr (TBL_ERR.CMP_DMA n) n
    else
      let s := (s.setTbl n { s.tbl n with cmpDiff := rest }).tblParity n c.table c.unit r.chk
      if s.cmpDiffers n c.table c.unit && !c.written then
        let s := if s.reg (TBL_ERR.w n) = 0 then (s.wf (TBL_ERR_LOC.TABLE n) c.table).wf (TBL_ERR_LOC.INDEX n) c.unit else s
        let s := s.addSat (TBL_CMP_STATUS.MISMATCHES n) 1
        (s.wf (TBL_ERR.CMP_MISMATCH n) 1).raise (regionSrc 0x331 n) (s.reg (TBL_ERR_LOC.w n)).toNat
      else s

/-! ### Meanings -/

def execForwardingLookup (n : Region) (p : Pipe) (chk : ReadCheck) (table : Fin 4) (ix : BitVec 20) (s : State) :
    Host.Outcome State Fault Refusal :=
  .next (if s.running && s.regionOn n then forwardingLookup n p chk table ix.toNat s else s)

def execLearnApply (n : Region) (s : State) : Host.Outcome State Fault Refusal :=
  .next (if s.running && s.regionOn n then learnApply n s else s)

def execAgeingSweep (n : SweepReads) (s : State) : Host.Outcome State Fault Refusal :=
  .next (if s.running && s.regionOn n.region then ageingSweep n.region (n.bad.map (fun r => (r.1.toNat, r.2))) s else s)

def execRemovalFinal (n : Region) (s : State) : Host.Outcome State Fault Refusal :=
  .next (if s.running && s.regionOn n then removalFinal n s else s)

def execCompareRead (n : Region) (r : CmpRead) (s : State) : Host.Outcome State Fault Refusal :=
  .next (if s.alive && s.rf (PWR_STATUS.LEVEL n) != 0 then compareRead n r s else s)

def execCompareRecheck (n : Region) (r : CmpRead) (s : State) : Host.Outcome State Fault Refusal :=
  .next (if s.alive && s.rf (PWR_STATUS.LEVEL n) != 0 then compareRecheck n r s else s)

end Sys2Proof.Machine
end

