-- ==== Sys2Proof/Machine/TimeBlock.lean ====
section
/-! DEFINITION. The time block (file 15): domains, loads and slews, timestamping cells, the ordering-source switch, pulse
outputs and capture inputs. -/

namespace Sys2Proof.Machine

/-! ### Domain counters (R501 to R505) -/

/-- The bounds of the effective increment, 1 ns ± 200 ppm in 32.32 format (R502). -/
def incrMin : Nat := 0x0FFF2E48F
def incrMax : Nat := 0x1000D1B71

/-- Hold an increment within the bounds of R502. -/
def holdIncr (i : Int) : Nat := (max (incrMin : Int) (min (incrMax : Int) i)).toNat

/-- The part of the remaining adjustment that one tick slews in at PPM (R503): PPM × 10^−6 ns, no more than remains. -/
def slewPart (ppm : Nat) (adj : Int) : Int :=
  let q : Int := (ppm * 2 ^ 32 / 1000000 : Nat)
  max (-q) (min q adj)

/-- The registers' increment of domain `d` in 2^−32 ns. -/
def State.timeIncr (s : State) (d : Nat) : Nat := s.rf (TIME_INCR.NS d) * 2 ^ 32 + s.rf (TIME_INCR.FRAC d)

/-- A time value wraps at 2^48 seconds (R501); in ns, and in 2^−32 ns. -/
def nsWrap : Nat := 2 ^ 48 * 1000000000
def timeWrap : Nat := nsWrap * 2 ^ 32

/-- `a` − `b` of two times in 2^−32 ns, either way round the wrap (R501). -/
def timeDiff (a b : Int) : Int :=
  let d := (a - b) % (timeWrap : Int)
  if d < (timeWrap / 2 : Nat) then d else d - (timeWrap : Nat)

/-- One tick of a domain (R502, R503): the increment within its bounds, and what of the adjustment fits in beside it. -/
def domTick (incr ppm : Nat) (x : Dom) : Dom :=
  let base := holdIncr incr
  let eff := holdIncr ((base : Int) + slewPart ppm x.adj)
  let t := x.ns * 2 ^ 32 + x.frac + eff
  { ns := t / 2 ^ 32 % nsWrap, frac := t % 2 ^ 32, adj := x.adj - ((eff : Int) - (base : Int)) }

/-- The remaining adjustment in ns, away from zero, so that it reads 0 only when nothing remains (R503). -/
def adjNs (a : Int) : Int := if 0 ≤ a then (cdiv a.toNat (2 ^ 32) : Nat) else -((cdiv (-a).toNat (2 ^ 32) : Nat) : Int)

/-- Advance domain `d` by one tick and show what remains of its adjustment. -/
def State.tickDom (s : State) (d : Nat) : State :=
  let x := domTick (s.timeIncr d) (s.rf (TIME_ADJ_CFG.PPM d)) (s.dom d)
  (s.setDom d x).wf (TIME_ADJ_REMAIN.NS d) (unsigned 32 (adjNs x.adj))

/-- One tick of the time block's 1.0 GHz clock (R502). -/
def State.timeTick (s : State) : State :=
  let s := (s.tickDom 0).tickDom 1
  s.withTime { s.time with tick := s.time.tick + 1 }

/-- A tick of the time block's clock, which runs from priming on (Table BU-4). -/
def clockTick (s : State) : State := if s.chipState = stOff || s.chipState = stStrap then s else s.timeTick

/-- A write of `TIME_ADJ` replaces the remaining adjustment (R503). -/
def timeAdjWrite (d : Nat) (v : Nat) (s : State) : State :=
  let s := s.wf (TIME_ADJ.OFFSET_NS d) v
  let s := s.setDom d { s.dom d with adj := signed 32 v * 2 ^ 32 }
  s.wf (TIME_ADJ_REMAIN.NS d) v

/-- Set a bit of `TIME_ERR`, capturing its location when the register was 0 (file 15, Registers), and raise event 0xF00 by
Table TI-5 for every bit but CELL_UNLOCK. -/
def State.timeErr (s : State) (f : Fld) (kind ix : Nat) : State :=
  let s := if s.reg TIME_ERR.w = 0 then (s.wf TIME_ERR_LOC.INDEX ix).wf TIME_ERR_LOC.KIND kind else s
  if f.lo = 3 then s.wf f 1 else s.setErr f 0xF00

/-- The domain that a pending change of the stamping domain leads to, if one is pending (R510). -/
def State.stampPending (s : State) : Option Nat :=
  if s.time.stampIn = 0 then none else some (s.rf TIME_CFG.STAMP_DOMAIN)

/-- R504: a load of domain `d` is accepted. -/
def State.loadOk (s : State) (d : Nat) : Bool :=
  s.configurable ||
    (s.rf TIME_STATUS.ORDER_SRC != d && s.rf TIME_STATUS.STAMP_ACTIVE != d && s.stampPending != some d)

/-! ### Pulse outputs (R515 to R517) -/

/-- What the device holds of pulse output `i`. -/
def State.pulse (s : State) (i : Nat) : PulseX := mget {} s.time.pulses i

/-- Put what the device holds of pulse output `i`. -/
def State.setPulse (s : State) (i : Nat) (x : PulseX) : State :=
  s.withTime { s.time with pulses := mset {} s.time.pulses i x }

/-- The start time of pulse `i` in ns. -/
def State.pulseStart (s : State) (i : Nat) : Nat :=
  s.rf (TIME_PULSE_START_SEC.SEC i) * 1000000000 + s.rf (TIME_PULSE_START_NS.NS i)

/-- The domain time of pulse `i`. -/
def State.pulseNow (s : State) (i : Nat) : Nat := (s.dom (s.rf (TIME_PULSE_CTRL.DOMAIN i))).ns

/-- The first whole ns that is not before the present of a domain: an edge time lies 100 ns after the present when it lies 100 ns after this. -/
def Dom.ceil (x : Dom) : Nat := x.ns + b2n (x.frac != 0)

/-- The level of PULSE_OUT i: active high, unless INVERT = 1 (R515). -/
def State.pulseOut (s : State) (i : Nat) : Bool := (s.pulse i).active != s.rb (TIME_PULSE_CTRL.INVERT i)

/-- The first edge time at least 100 ns after `now` (R516): START + k × PERIOD; START alone when PERIOD is 0. -/
def nextEdge (start period now : Nat) : Option Nat :=
  if now + 100 ≤ start then some start
  else if period = 0 then none
  else some (start + cdiv (now + 100 - start) period * period)

/-- Arm pulse `i` (R516): schedule its next edge, or report a single pulse that is late. -/
def State.pulseArm (s : State) (i : Nat) : State :=
  match nextEdge (s.pulseStart i) (s.rf (TIME_PULSE_PERIOD.NS i))
      (s.dom (s.rf (TIME_PULSE_CTRL.DOMAIN i))).ceil with
  | some t => ((s.setPulse i { s.pulse i with next := t }).wf (TIME_PULSE_CTRL.ARMED i) 1).wf (TIME_PULSE_CTRL.LATE i) 0
  | none =>
    let s := (s.wf (TIME_PULSE_CTRL.ARMED i) 0).wf (TIME_PULSE_CTRL.LATE i) 1
    let s := s.timeErr TIME_ERR.PULSE_LATE 2 i
    s.raise (0xF04 + i) (s.reg (TIME_PULSE_CTRL.w i)).toNat

/-- A write of `TIME_PULSE_CTRL`: its RW fields are stored; EN = 1 arms (R516), EN = 0 stops further edges (R517). -/
def pulseCtrlWrite (i v : Nat) (s : State) : State :=
  let s := ((s.wf (TIME_PULSE_CTRL.EN i) (bits v 0 1)).wf (TIME_PULSE_CTRL.DOMAIN i) (bits v 1 1)).wf
    (TIME_PULSE_CTRL.INVERT i) (bits v 2 1)
  if bit v 0 then s.pulseArm i else s.wf (TIME_PULSE_CTRL.ARMED i) 0

/-- WIDTH is stored within 8 to PERIOD − 8, and at no less than 8 when PERIOD = 0 (R515). -/
def fixWidth (period v : Nat) : Nat := if period = 0 then max 8 v else max 8 (min v (period - 8))

/-- A write of another register of pulse `i`: ignored with CFG_IGNORED while EN = 1 (R517), else `store`. -/
def pulseRegWrite (i : Nat) (store : State → State) (s : State) : State :=
  if s.rb (TIME_PULSE_CTRL.EN i) then s.timeErr TIME_ERR.CFG_IGNORED 2 i else store s

/-- A load moves domain `d` from `was` to `now`: a pulse at its active level still completes its width (R515, R517). -/
def State.shiftWidths (s : State) (d was now : Nat) : State :=
  s.withTime { s.time with pulses := s.time.pulses.map (fun p =>
    if p.2.active && p.2.dom = d then (p.1, { p.2 with endAt := p.2.endAt + now - was }) else p) }

/-- Recompute the armed pulses of domain `d` after a load (R504, R516). -/
def State.rearm (s : State) (d : Nat) : Nat → State
  | 0 => s
  | i + 1 =>
    let s := s.rearm d i
    if s.rb (TIME_PULSE_CTRL.EN i) && s.rf (TIME_PULSE_CTRL.DOMAIN i) = d && s.rb (TIME_PULSE_CTRL.ARMED i) then s.pulseArm i else s

/-- A write of `TIME_LOAD_CTRL.GO` (R504). The times remembered from the last sync move with the domain, so that the rate measured at the next one
is not the load's (R507). -/
def timeLoadGo (d : Nat) (s : State) : State :=
  if s.loadOk d then
    let conf := s.configurable
    let ns := s.rf (TIME_LOAD_SEC.SEC d) * 1000000000 + s.rf (TIME_LOAD_NS.NS d)
    let was := s.dom d
    let s := (s.setDom d { ns := ns, frac := 0, adj := 0 }).wf (TIME_ADJ_REMAIN.NS d) 0
    let sync := fun t : Nat => ((t : Int) + (ns * 2 ^ 32 : Nat) - (was.ns * 2 ^ 32 + was.frac : Nat)) % (timeWrap : Nat)
    let s := s.withTime (if d = 0 then { s.time with stepA := true, syncA := (sync s.time.syncA).toNat }
      else { s.time with stepB := true, syncB := (sync s.time.syncB).toNat })
    let s := s.shiftWidths d was.ns ns
    let s := s.wf ⟨TIME_STATUS.w, 2 + d, 1⟩ 0
    let s := if conf then (s.withLastKey []).withTime { s.time with floor := none } else s
    s.rearm d 4
  else s.timeErr TIME_ERR.LOAD_REFUSED 1 d

/-- Capture domain `d` into its snapshot registers (R505). -/
def State.snapDom (s : State) (d : Nat) : State :=
  ((s.wf (TIME_SNAP_NS.NS d) ((s.dom d).ns % 1000000000)).wf (TIME_SNAP_FRAC.FRAC d) (s.dom d).frac).wf
    (TIME_SNAP_SEC.SEC d) ((s.dom d).ns / 1000000000)

/-- A write of `TIME_SNAP.GO` (R505). -/
def timeSnapGo (s : State) : State := ((s.snapDom 0).snapDom 1).wf TIME_SNAP.READY 1

/-! ### Timestamping cells (R506 to R510) -/

/-- Cell `c`. -/
def State.cell (s : State) (c : Nat) : CellX := mget {} s.time.cells c

/-- Put cell `c`. -/
def State.setCell (s : State) (c : Nat) (x : CellX) : State :=
  s.withTime { s.time with cells := mset {} s.time.cells c x }

/-- The time of a copy `cyc` cell cycles after the last sync, in 2^−32 ns (R506). -/
def copyAt (incr : Nat) (x : CellCopy) (cyc : Nat) : Nat := ((x.time : Int) + (cyc : Int) * ((incr : Int) + x.corr)).toNat % timeWrap

/-- The time of the cell of front-panel port `p` in domain `d`, `cyc` cell cycles after the last sync, in 2^−32 ns (R506, R510). -/
def State.cellTime (s : State) (p d cyc : Nat) : Nat :=
  let c := s.cell p
  let incr := s.rf (TIME_CELL_INCR.INCR p)
  copyAt incr (if d = 0 then c.a else c.b) cyc

/-- A stroke raised to a least one: the hold of a switch (R513) or of a takeover (R546, R548). -/
def raiseTo (f : Option Nat) (t : Nat) : Nat :=
  match f with
  | some x => if strokeLt t x then x else t
  | none => t

/-- The stroke that the cell of port `p` reads from its copy of domain `d` (R28). A cell that lost a copy holds the stroke it had at the last
sync, since when the copy has been in error (R522). -/
def State.copyStroke (s : State) (p d cyc : Nat) : Nat :=
  s.cellTime p d (if (s.cell p).badA || (s.cell p).badB then 0 else cyc) / 2 ^ 32 / s.strokeLen % 2 ^ 48

/-- The stroke of a port's present: its cell's copy of the ordering source (R511). After a switch the cell follows the old source until its own
copy of that reaches the switch's stroke (R513); by the next sync it has. -/
def State.portStroke (s : State) (p cyc : Nat) : Nat :=
  match s.time.oswOld with
  | some d => if strokeLt (s.copyStroke p d cyc) s.time.oswAt then s.copyStroke p d cyc else raiseTo s.time.floor (s.copyStroke p (1 - d) cyc)
  | none => raiseTo s.time.floor (s.copyStroke p (s.rf TIME_STATUS.ORDER_SRC) cyc)

/-- A port's stroke under the holds of a switch and of a takeover (R513, R546, R548). -/
def State.heldStroke (s : State) (p cyc : Nat) : Nat := raiseTo s.pairx.floor (s.portStroke p cyc)

/-- The cell cycles since the last sync: 1.25 in a tick of the time block's clock (R502, R506). -/
def State.cellCycles (s : State) : Nat := (s.time.tick - s.time.syncAt) * 5 / 4

/-- The bound of a cell's correction: 200 ppm of its increment (R507). -/
def corrMax (incr : Nat) : Nat := incr * 200 / 1000000

/-- The correction of a copy with error `e` (R507, R508): towards the domain, at the full bound while unlocked; while locked
the spec bounds it and does not give it, so its size is the free value `f`. -/
def corrOf (incr : Nat) (locked : Bool) (e : Int) (f : Nat) : Int :=
  let m : Int := if locked then ((f % (corrMax incr + 1) : Nat) : Int) else (corrMax incr : Nat)
  if 0 < e then m else if e < 0 then -m else 0

/-- R508: lock is gained within ±4 ns, lost beyond ±16 ns, and else kept. -/
def lockOf (was : Bool) (e : Int) : Bool :=
  if e.natAbs ≤ 4 * 2 ^ 32 then true else if 16 * 2 ^ 32 < e.natAbs then false else was

/-- A copy at a sync: a load, or a copy that lost parity, is reloaded as a step; else its correction is set (R507, R522). -/
def syncCopy (incr cyc dom : Nat) (step was : Bool) (x : CellCopy) (f : Nat) : CellCopy × Bool × Int :=
  if step then (⟨dom, 0⟩, true, 0)
  else
    let t := copyAt incr x cyc
    let e := timeDiff dom t
    let l := lockOf was e
    (⟨t, corrOf incr l e f⟩, l, e)

/-- A signed value held within `w` bits' symmetric range. -/
def satSigned (m : Nat) (i : Int) : Int := max (-(m : Int)) (min (m : Int) i)

/-- The ratio of R507 in 0.01 ppm: the domain's advance `da` against `cyc` increments. -/
def measPpm (incr cyc da : Nat) : Int :=
  if cyc * incr = 0 then 0
  else satSigned 32767 (((da : Int) - (cyc * incr : Nat)) * 100000000 / (cyc * incr : Nat))

/-- Count an event of the time block (Table CT-2). -/
def State.timeEv (s : State) (code : Nat) : State := s.ev 135 code none 1 s.strokeNow (s.strokeNow * 2 ^ 32)

/-- A change of a lock bit (R508): loss sets CELL_UNLOCK, and both raise event 0xF02 with the cell's number. -/
def State.lockChange (s : State) (c : Nat) (f : Fld) (now : Bool) : State :=
  if s.rb f = now then s
  else
    let s := s.wb f now
    let s := if now then s else (s.timeErr TIME_ERR.CELL_UNLOCK 0 c).timeEv 0x11
    s.raise 0xF02 c

/-- The sync of cell `c` (R506 to R508). -/
def State.syncCell (s : State) (cyc c : Nat) : State :=
  let incr := s.rf (TIME_CELL_INCR.INCR c)
  let x := s.cell c
  let da := s.time.domA.ns * 2 ^ 32 + s.time.domA.frac
  let db := s.time.domB.ns * 2 ^ 32 + s.time.domB.frac
  let ra := syncCopy incr cyc da (s.time.stepA || x.badA || x.badB) (s.rb (TIME_CELL_STATUS.LOCK_A c)) x.a (s.freeBits 32)
  let s1 := s.nextFree
  let rb := syncCopy incr cyc db (s.time.stepB || x.badA || x.badB) (s.rb (TIME_CELL_STATUS.LOCK_B c)) x.b (s1.freeBits 32)
  let s2 := s1.nextFree.setCell c { a := ra.1, b := rb.1 }
  let stamp := s.rf TIME_STATUS.STAMP_ACTIVE
  let e := if stamp = 0 then ra.2.2 else rb.2.2
  let adv := (if stamp = 0 then timeDiff da s.time.syncA else timeDiff db s.time.syncB).toNat
  let s3 := (s2.lockChange c (TIME_CELL_STATUS.LOCK_A c) ra.2.1).lockChange c (TIME_CELL_STATUS.LOCK_B c) rb.2.1
  (s3.wf (TIME_CELL_STATUS.ERR_NS c) (unsigned 8 (satSigned 127 (e / 2 ^ 32)))).wf (TIME_CELL_STATUS.MEAS_PPM c)
    (unsigned 16 (measPpm incr cyc adv))

/-- The sync of cells 0 to k − 1. -/
def State.syncCells (s : State) (cyc : Nat) : Nat → State
  | 0 => s
  | c + 1 => (s.syncCells cyc c).syncCell cyc c

/-- The cells among 0 to k − 1 that have a copy unlocked (Table TI-6). -/
def State.unlockedCells (s : State) (k : Nat) : Nat :=
  ((List.range k).filter (fun c => !s.rb (TIME_CELL_STATUS.LOCK_A c) || !s.rb (TIME_CELL_STATUS.LOCK_B c))).length

/-- Copy `k % 2` of cell `k / 2` is found in error: the cell uses its other copy until the next sync reloads it (R522). -/
def State.cellParity (s : State) (k : Nat) : State :=
  let x := s.cell (k / 2)
  let s := s.setCell (k / 2) (if k % 2 = 0 then { x with badA := true } else { x with badB := true })
  (s.detect 12 0 (k / 2) false).timeErr TIME_ERR.PARITY 0 (k / 2)

/-- One sync of every cell (R506), `cyc` cell cycles after the last; a pending change of the stamping domain takes effect at
the second sync after its write (R510). `bad` is a copy that is found in error after this sync. -/
def cellSync (cyc : Nat) (bad : Option Nat) (s : State) : State :=
  let s := (s.syncCells cyc 512).timeEv 0x10
  let s := match bad with
    | none => s
    | some k => s.cellParity k
  let s := s.wf TIME_STATUS.UNLOCKED (s.unlockedCells 512)
  let s := s.withTime { s.time with
    stepA := false, stepB := false,
    syncA := s.time.domA.ns * 2 ^ 32 + s.time.domA.frac, syncB := s.time.domB.ns * 2 ^ 32 + s.time.domB.frac, syncAt := s.time.tick,
    oswOld := none }
  if s.time.stampIn = 1 then
    (s.withTime { s.time with stampIn := 0 }).wf TIME_STATUS.STAMP_ACTIVE (s.rf TIME_CFG.STAMP_DOMAIN)
  else s.withTime { s.time with stampIn := s.time.stampIn - 1 }

/-- A write of `TIME_CFG.STAMP_DOMAIN` (R510). -/
def stampDomainWrite (v : Nat) (s : State) : State :=
  let s := s.wf TIME_CFG.STAMP_DOMAIN v
  s.withTime { s.time with stampIn := if s.rf TIME_STATUS.STAMP_ACTIVE = v % 2 then 0 else 2 }

/-! ### Ordering-source switch (R512, R513) -/

/-- R512: an arm is accepted. -/
def State.oswOk (s : State) : Bool :=
  !s.rb TIME_OSW_CTRL.PENDING && s.rf TIME_OSW_CTRL.TARGET != s.rf TIME_STATUS.ORDER_SRC &&
    !s.rb CHIP_STROKE_CFG.SRC_LEDGER && leadOk s.strokeNow (s.rf TIME_OSW_STROKE.STROKE)

/-- ARM (R512). -/
def State.oswArm (s : State) : State :=
  if s.oswOk then
    (s.withTime { s.time with oswAt := s.rf TIME_OSW_STROKE.STROKE }).wf TIME_OSW_CTRL.PENDING 1
  else s.timeErr TIME_ERR.ARM_REJECT 1 (s.rf TIME_OSW_CTRL.TARGET)

/-- CANCEL clears PENDING while X is at least 64 strokes ahead (R512). -/
def State.oswCancel (s : State) : State :=
  if s.rb TIME_OSW_CTRL.PENDING && leadOk s.strokeNow s.time.oswAt then s.wf TIME_OSW_CTRL.PENDING 0 else s

/-- A write of `TIME_OSW_CTRL`: TARGET and MAX_LEAD are stored, then CANCEL and ARM act (R664). -/
def oswCtrlWrite (v : Nat) (s : State) : State :=
  let ml := bits v 8 11
  let s := (s.wf TIME_OSW_CTRL.TARGET (bits v 0 1)).wf TIME_OSW_CTRL.MAX_LEAD (if ml = 0 then 1 else min ml 1024)
  let s := if bit v 2 then s.oswCancel else s
  if bit v 1 then s.oswArm else s

/-- The end of an armed switch (R513): PENDING clears, RESULT is written and event 0xF01 is raised with it. -/
def State.oswEnd (s : State) (r : Nat) : State :=
  ((s.wf TIME_OSW_CTRL.PENDING 0).wf TIME_OSW_CTRL.RESULT r).raise 0xF01 r

/-- Table TI-1: the outcome for lead `d`, in 2^−32 ns. -/
def oswResult (d : Int) (maxLead len : Nat) : Nat :=
  if d < 0 then 2 else if d ≤ (maxLead * len * 2 ^ 32 : Nat) then 1 else 3

/-- The lead of R513 in 2^−32 ns: the new source's time less X × L, which the old source's own time places on its time line. -/
def State.oswLead (s : State) : Int :=
  let x : Int := ((s.orderNs / s.strokeLen : Nat) - (strokeDiff s.time.oswAt s.strokeNow : Nat) : Int) * (s.strokeLen : Nat)
  let new := s.dom (s.rf TIME_OSW_CTRL.TARGET)
  timeDiff ((new.ns * 2 ^ 32 + new.frac : Nat) : Int) (x * 2 ^ 32)

/-- R513: when the old source has reached X × L, measure the lead and switch or refuse. -/
def orderingSourceSwitch (s : State) : State :=
  if s.rb TIME_OSW_CTRL.PENDING && strokeLe s.time.oswAt s.strokeNow then
    let r := oswResult s.oswLead (s.rf TIME_OSW_CTRL.MAX_LEAD) s.strokeLen
    if r = 1 then
      let s := (s.withTime { s.time with floor := some s.time.oswAt, oswOld := some (s.rf TIME_STATUS.ORDER_SRC) }).wf TIME_STATUS.ORDER_SRC (s.rf TIME_OSW_CTRL.TARGET)
      s.oswEnd 1
    else s.oswEnd r
  else s

/-! ### Pulse edges and captures -/

/-- R515: at an edge time the output goes to its active level; a single pulse that fires clears ARMED and raises its event. -/
def pulseEdge (i : Nat) (s : State) : State :=
  let x := s.pulse i
  if s.rb (TIME_PULSE_CTRL.ARMED i) && decide (x.next ≤ s.pulseNow i) then
    let p := s.rf (TIME_PULSE_PERIOD.NS i)
    let s := s.setPulse i { active := true, endAt := x.next + s.rf (TIME_PULSE_WIDTH.NS i), next := x.next + p,
                             dom := s.rf (TIME_PULSE_CTRL.DOMAIN i) }
    if p = 0 then
      let s := s.wf (TIME_PULSE_CTRL.ARMED i) 0
      s.raise (0xF04 + i) (s.reg (TIME_PULSE_CTRL.w i)).toNat
    else s
  else s

/-- R515: after WIDTH the output returns to its inactive level. -/
def pulseWidthEnd (i : Nat) (s : State) : State :=
  let x := s.pulse i
  if x.active && decide (x.endAt ≤ (s.dom x.dom).ns) then s.setPulse i { x with active := false } else s

/-- What the device holds of capture input `i`. -/
def State.capt (s : State) (i : Nat) : CaptX := mget {} s.time.capts i

/-- Put what the device holds of capture input `i`; COUNT follows. -/
def State.setCapt (s : State) (i : Nat) (x : CaptX) : State :=
  (s.withTime { s.time with capts := mset {} s.time.capts i x }).wf (TIME_CAPT_STATUS.COUNT i) x.fifo.length

/-- R518: the transition is of a polarity that EDGE selects. -/
def State.captSelects (s : State) (i : Nat) (rising : Bool) : Bool :=
  if rising then bit (s.rf (TIME_CAPT_CFG.EDGE i)) 0 else bit (s.rf (TIME_CAPT_CFG.EDGE i)) 1

/-- R519: the edge at tick `t` follows the previous stamped edge too soon. -/
def State.captTooSoon (s : State) (i t : Nat) : Bool :=
  match (s.capt i).last with
  | none => false
  | some t0 => decide (t < t0 + s.rf (TIME_CAPT_CFG.MIN_GAP i) * 16)

/-- The time of domain `d` `back` ns of the clock ago, to the nearest ns (R518). -/
def State.domBack (s : State) (d back : Nat) : Nat :=
  let t : Int := (((s.dom d).ns * 2 ^ 32 + (s.dom d).frac : Nat) : Int) - (back * holdIncr (s.timeIncr d) : Nat) + 2 ^ 31
  (t / 2 ^ 32 % (nsWrap : Int)).toNat

/-- A transition of capture input `i` that has held for `back` ns since it reached the ball (R518 to R520). -/
def captureEdge (i : Nat) (rising : Bool) (back : Nat) (s : State) : State :=
  if s.rb (TIME_CAPT_CFG.EN i) && decide (s.rf (TIME_CAPT_CFG.FILTER_NS i) ≤ back) && s.captSelects i rising then
    let t := s.time.tick - back
    if s.captTooSoon i t then s.addSat (TIME_CAPT_STATUS.DROPPED_GAP i) 1
    else
      let d := s.rf (TIME_CAPT_CFG.DOMAIN i)
      let x := s.capt i
      if x.fifo.length < 16 then
        let s := (s.setCapt i { fifo := x.fifo ++ [⟨s.domBack d back, d⟩], last := some t }).timeEv 0x12
        if x.fifo.isEmpty then s.raise (0xF08 + i) (s.reg (TIME_CAPT_STATUS.w i)).toNat else s
      else
        let s := ((s.setCapt i { x with last := some t }).addSat (TIME_CAPT_STATUS.DROPPED_FULL i) 1).wf
          (TIME_CAPT_STATUS.OVERFLOW i) 1
        let s := s.timeErr TIME_ERR.CAPT_OVERFLOW 3 i
        s.raise (0xF08 + i) (s.reg (TIME_CAPT_STATUS.w i)).toNat
  else s

/-- A read of `TIME_CAPT_NS` (R520): the head's word, its seconds latched, the head removed. -/
def captureRead (i : Nat) (s : State) : State × Word :=
  match (s.capt i).fifo with
  | [] => (s, 0)
  | st :: rest =>
    let sec := st.ns / 1000000000 % 2 ^ 48
    let s := s.setCapt i { s.capt i with fifo := rest }
    let s := (s.wf (TIME_CAPT_SEC_LO.SEC i) (sec % 2 ^ 32)).wf (TIME_CAPT_SEC_HI.SEC i) (sec / 2 ^ 32)
    (s, BitVec.ofNat 32 (st.ns % 1000000000 + st.dom * 2 ^ 30 + 2 ^ 31))

/-- R522: the two copies of domain counter `d` differ. -/
def domainMismatch (d : Nat) (s : State) : State :=
  let s := s.detect 12 0 d false
  if s.rf TIME_STATUS.ORDER_SRC = d || s.rf TIME_STATUS.STAMP_ACTIVE = d then s.haltDev 0x20
  else
    let s := ((s.setDom d {}).wf (TIME_ADJ_REMAIN.NS d) 0).wf ⟨TIME_STATUS.w, 2 + d, 1⟩ 1
    s.timeErr TIME_ERR.PARITY 1 d

/-! ### Meanings -/

def execTimeAdjWrite (d : DomIx) (v : Word) (s : State) : Host.Outcome State Fault Refusal := .next (onWrite (timeAdjWrite d v.toNat) s)
def execTimeLoad (d : DomIx) (s : State) : Host.Outcome State Fault Refusal := .next (onWrite (timeLoadGo d) s)
def execTimeSnap (s : State) : Host.Outcome State Fault Refusal := .next (onWrite timeSnapGo s)
def execCellSync (cycles : BitVec 16) (bad : Option (Fin 1024)) (s : State) : Host.Outcome State Fault Refusal :=
  .next (cellSync cycles.toNat (bad.map (·.val)) s)
def execStampDomainWrite (v : DomIx) (s : State) : Host.Outcome State Fault Refusal := .next (onWrite (stampDomainWrite v) s)
/-- The write has ARM = 1, whatever its bit says. -/
def execOswArm (v : Word) (s : State) : Host.Outcome State Fault Refusal := .next (onWrite (oswCtrlWrite (v ||| 2).toNat) s)
/-- The write has CANCEL = 1. -/
def execOswCancel (v : Word) (s : State) : Host.Outcome State Fault Refusal := .next (onWrite (oswCtrlWrite (v ||| 4).toNat) s)
def execOrderingSourceSwitch (s : State) : Host.Outcome State Fault Refusal := .next (orderingSourceSwitch s)
/-- The write has EN = 1. -/
def execPulseEnable (i : Fin 4) (v : Word) (s : State) : Host.Outcome State Fault Refusal := .next (onWrite (pulseCtrlWrite i (v ||| 1).toNat) s)
/-- The write has EN = 0. -/
def execPulseDisable (i : Fin 4) (v : Word) (s : State) : Host.Outcome State Fault Refusal := .next (onWrite (pulseCtrlWrite i (v &&& ~~~1).toNat) s)
def execPulseEdge (i : Fin 4) (s : State) : Host.Outcome State Fault Refusal := .next (pulseEdge i s)
def execPulseWidthEnd (i : Fin 4) (s : State) : Host.Outcome State Fault Refusal := .next (pulseWidthEnd i s)
def execCaptureEdge (i : Fin 4) (rising : Bool) (back : BitVec 16) (s : State) : Host.Outcome State Fault Refusal :=
  .next (captureEdge i rising back.toNat s)
/-- The word read is what the bus returns. -/
def execCaptureRead (i : Fin 4) (s : State) : Host.Outcome State Fault Refusal :=
  let r := captureRead i s
  .next (r.1.withReadData [r.2])
def execDomainCounterMismatch (d : DomIx) (s : State) : Host.Outcome State Fault Refusal := .next (domainMismatch d s)

end Sys2Proof.Machine
end

