-- ==== Sys2Proof/Machine/Flow.lean ====
section
/-! DEFINITION. The flow engine (file 07): lookups (R236 to R246), the stable view and the decision to release or hold (R247), the
watermarks and the standpipe (R33, R34, R250), commits (R248, R249), bypass (R252), ageing (R255) and snapshots (R262). -/

namespace Sys2Proof.Machine

/-- Put the lookup table of an engine, shown in LOOKUP_OCC. -/
def State.setLookups (s : State) (e : Nat) (l : List Lookup) : State :=
  (s.setEng e { s.eng e with lookups := l }).wf (FE_STATUS.LOOKUP_OCC e) l.length

/-- Change the lookup of a frame, by its ordering key. -/
def State.mapLookup (s : State) (e : Nat) (k : FKey) (f : Lookup → Lookup) : State :=
  s.setLookups e ((s.eng e).lookups.map (fun l => if l.frame.key = k then f l else l))

/-- A frame's last effect in the engine is released (R246). -/
def State.dropLookup (s : State) (e : Nat) (k : FKey) : State :=
  s.setLookups e ((s.eng e).lookups.filter (fun l => l.frame.key != k))

/-- A frame is answered without a record: its partition's BYPASS_ACT (R252). -/
def State.bypassAct (s : State) (e : Nat) (f : Frame) : State :=
  let a := s.rf (FE_PART_CFG.BYPASS_ACT e (actPart f.act))
  let s := if 2 ≤ a && !f.trapMade then s.trapCopy f (actReason f.act) else s
  let f := { f with trapMade := f.trapMade || decide (2 ≤ a) }
  if a % 2 = 1 then s.dropFrame f else s.verdict f

/-- A read of a record showed a parity error (R263): when the retry failed the record is lost. -/
def State.recParity (s : State) (e b j : Nat) (cache : Bool) (chk : ReadCheck) : State :=
  if isBad chk then
    let s := if cache then s.noteRead e 1 chk
      else if isFailed chk then s.detParity else s
    if isFailed chk then s.recLost e b j cache else s
  else s

/-- Slot `j` of a physical bucket is read: when the stack delivered its data in error, its record is lost (R481, R263). -/
def State.takeData (s : State) (e b j : Nat) : State :=
  let a := s.bucketAddr e b + 32 * j
  if s.hbmFlagged (e / 2) (b % 32) a 32 then
    (s.hbmTaken (e / 2) (b % 32) a 32).recParity e b ((s.ownerSlot e b j).getD j) false (.failed 0)
  else s

/-- The records of a physical bucket are read (R285, R481). -/
def State.readBucket (s : State) (e b : Nat) : State := (List.range 4).foldl (fun s j => (s.takeData e b j).loseRefs e b j false) s

/-- The buckets that a lookup of a key reads (R243) are read. -/
def State.readKey (s : State) (e part : Nat) (k : List Byte) : State :=
  let h := s.hashes e part k
  let b0 := s.fold e h.1
  let s := s.readBucket e b0
  if (s.inBucket e b0 part k).isNone && s.spillOf e b0 != 0 then s.readBucket e (s.fold e h.2) else s

/-- A dictionary entry that a record needs failed its read and the retry (R285): it is BAD, and the record is lost. -/
def State.dictParity (s : State) (e b j : Nat) (second : Bool) (chk : ReadCheck) : State :=
  if isBad chk && s.slotFmt e b j = 2 then
    let s := s.noteRead e 7 chk
    if isFailed chk then
      let x := c6Entries (s.slotBytes e b j)
      (s.wf (FE_DICT.BAD e (if second then x.2 else x.1)) 1).recParity e b j false chk
    else s
  else s

/-- A FLOW_EN frame at the head of its pipeline issues its lookup (R236, R237, R246, R252); `chk` is the check of a cache line read. -/
def flowLookup (n p : Nat) (chk : ReadCheck) (s : State) : State :=
  let x := s.pipe n p
  match x.flow with
  | [] => s
  | f :: rest =>
    let part := actPart f.act
    let t := f.key.stroke
    let s1 := s.setPipe n p { x with flow := rest }
    let s0 := s1.ev (64 + 2 * n + p) 0x16 none 1 t f.key.num
    if !s.rb (FE_PART_CFG.VALID n part) then (s1.count (FE_CNT.COUNT n 8) t).verdict f
    else
      let (k, dir) := normalise (s.rb (FE_PART_CFG.NORM n part)) f.fkey
      let e := s.homeOf n part k
      if !s.regionRuns e then (s0.count (FE_CNT.COUNT n 2) t).bypassAct e f
      else if 65536 ≤ (s.eng e).lookups.length then s
      else
        let l : Lookup := { frame := f, part := part, key := k, dir := dir, at_ := s.orderNs }
        match s.findRec e part k with
        | some (_, b, j) =>
          if b * 4 + j ∈ (s.eng e).cached then
            let s1 := ((((s0.count (FE_CNT.COUNT e 0) t).ev (104 + e) 0x10 none 1 t f.key.num).cacheUse e b j false).1.recParity e b j true chk).loseRefs
              e b j true
            s1.setLookups e ((s1.eng e).lookups ++ [{ l with ready := true }])
          else if s.rb (FE_STATUS.BYPASS e) then (s0.count (FE_CNT.COUNT e 2) t).bypassAct e f
          else ((s0.count (FE_CNT.COUNT e 1) t).ev (104 + e) 0x11 none 1 t f.key.num).setLookups e ((s0.eng e).lookups ++ [l])
        | none =>
          if s.rb (FE_STATUS.BYPASS e) then (s0.count (FE_CNT.COUNT e 2) t).bypassAct e f
          else ((s0.count (FE_CNT.COUNT e 1) t).ev (104 + e) 0x11 none 1 t f.key.num).setLookups e ((s0.eng e).lookups ++ [l])

/-- The physical bucket and slot that slot `k` of a lookup's bucket reads names: 0 to 3 in the h0 bucket, 4 to 7 in the h1 bucket where that
is read too (R243); a record's second slot names the record. -/
def State.readSlot (s : State) (e part : Nat) (key : List Byte) (k : Nat) : Option (Nat × Nat) :=
  let h := s.hashes e part key
  let b0 := s.fold e h.1
  let at_ := fun b => some (b, (s.ownerSlot e b (k % 4)).getD (k % 4))
  if k < 4 then at_ b0
  else if (s.inBucket e b0 part key).isNone && s.spillOf e b0 != 0 then at_ (s.fold e h.2)
  else none

/-- The bucket reads of the `i`-th lookup that waits for them return, one slot of them with the checks `rd.chk` and, for a dictionary entry of
its record, `dict`: the record is found and enters the cache, or it is absent (R243, R245, R263, R285). A lookup whose cache set is fully
pinned waits (R245). -/
def bucketReturn (e i : Nat) (rd : BucketRead) (dict : ReadCheck) (second : Bool) (s : State) : State :=
  match ((s.eng e).lookups.filter (fun l => !l.ready))[i]? with
  | none => s
  | some l =>
    let ready := fun (s : State) => s.mapLookup e l.frame.key (fun l => { l with ready := true })
    let s1 := s.ev (104 + e) 0x12 none 1 l.frame.key.stroke l.frame.key.num
    let s1 := match s1.readSlot e l.part l.key rd.slot with
      | some (b, j) => (s1.recParity e b j false rd.chk).dictParity e b j second dict
      | none => s1
    let s1 := s1.readKey e l.part l.key
    match s1.findRec e l.part l.key with
    | none => ready s1
    | some (_, b, j) =>
      match s1.cacheUse e b j false with
      | (s2, true) => ready s2
      | (_, false) => s

/-! ### Sweep boundaries (R255) -/

/-- The stored sweep interval (R256). -/
def State.sweepLen (s : State) (e : Nat) : Nat := s.rf (FE_SWEEP_CFG.N_F e)

/-- The next flow sweep boundary of engine `e` (R255). Boundaries are taken one by one, each once (R37, R618). -/
def State.flowBoundary (s : State) (e : Nat) : Option Nat :=
  let nf := s.sweepLen e
  if nf = 0 then none else some (nextBoundary (s.rf (FE_SWEEP_BASE.STROKE e)) nf (s.sweptUpTo (s.eng e).swept))

/-- The sweep steps of every boundary at or before `t` are done. -/
def State.flowSwept (s : State) (e t : Nat) : Bool :=
  match s.flowBoundary e with
  | none => true
  | some b => strokeLt t b

/-- A record is idle past its partition's timeout at boundary `b` (R255, R276), and it ages (R536). -/
def State.agedOut (s : State) (e b : Nat) (r : List Byte) : Bool :=
  let i := s.rf (FE_PART_TIMEOUT.IDLE_TIMEOUT e (recPart r))
  let t := s.strokeTime b
  let idle := i * s.sweepLen e * s.strokeLen
  let cut := if 2 ^ 31 - 1 ≤ idle / 1024 then quanta t + 2 ^ 32 - (2 ^ 31 - 1) else quanta (t + 2 ^ 42 - idle)
  let d := (cut + 2 ^ 32 - recLast r) % 2 ^ 32
  s.pairChanges b && i != 0 && decide (1 ≤ d) && decide (d < 2 ^ 31)

/-- The first boundary at or before `t`, of those the walker has not done, at which a record ages out: a frame of stroke `t` treats it as
absent (R255). Where no frames run no sweep steps are taken (R607, R618). -/
def State.agedAt (s : State) (e t : Nat) (r : List Byte) : Option Nat :=
  match s.flowBoundary e with
  | none => none
  | some b =>
    if !(s.running && s.regionRuns e) || strokeLt t b then none
    else ((List.range (strokeDiff b t / s.sweepLen e + 1)).map (fun k => (b + k * s.sweepLen e) % 2 ^ 48)).find? (fun b => s.agedOut e b r)

/-- The record of a key as a frame of stroke `t` meets it (R255). -/
def State.recNow (s : State) (e part : Nat) (k : List Byte) (t : Nat) : Option (List Byte) :=
  (s.recOf e part k).filter (fun r => (s.agedAt e t r).isNone)

/-- The stable view of a key that every commit and removal of strokes up to `t` leaves (R247). -/
def State.viewAt (s : State) (e part : Nat) (k : List Byte) (t : Nat) : Option (Nat × Nat) :=
  match (s.eng e).views.find? (fun v => v.part = part && v.key = k && !strokeLe v.stroke t) with
  | some v => v.old
  | none => viewOf (s.recNow e part k t)

/-! ### What may be applied (R34, R248 to R250) -/

/-- The updates of stroke `t` of partition `part` may be applied at engine `e`: its region's watermark has passed `t`, or the
standpipe has released it. -/
def State.mayCommit (s : State) (e part t : Nat) : Bool :=
  if s.rb (FE_PART_CFG.MODE e part) then strokeLe t (s.rf SP_RELEASED.STROKE) else s.wmPassed e t

/-- An item of partition `p` precedes one of partition `part` in an engine's order: a region-local partition waits for no global one, whose
items wait for the standpipe (R250; log entry 28). -/
def State.sameOrder (s : State) (e part p : Nat) : Bool := s.rb (FE_PART_CFG.MODE e part) || !s.rb (FE_PART_CFG.MODE e p)

/-- A partition of engine `e` in use is global. -/
def State.hasGlobal (s : State) (e : Nat) : Bool :=
  (List.range 16).any (fun p => s.rb (FE_PART_CFG.VALID e p) && s.rb (FE_PART_CFG.MODE e p))

/-- The physical buckets that may hold the record of a key (R243). -/
def State.keyBuckets (s : State) (e part : Nat) (k : List Byte) : List Nat :=
  let h := s.hashes e part k
  [s.fold e h.1, s.fold e h.2]

/-- The record of a key may be stored in C6, as far as its key says (Table FR-5). -/
def mayC6 (k : List Byte) : Bool := !ip4Form k 0 && !ip4Form k 16

/-- A commit of `m` may change the record that `l` finds: they share it, or a bucket that an eviction may empty (R253), in one order (R250). -/
def State.shares (s : State) (e : Nat) (l m : Lookup) : Bool :=
  s.sameOrder e l.part m.part && (s.keyBuckets e l.part l.key).any (fun b => decide (b ∈ s.keyBuckets e m.part m.key))

/-- The lookups of lower key whose commits may change the record that `l` finds (R291, R292). -/
def State.aheadOf (s : State) (e : Nat) (l : Lookup) : List Lookup :=
  (s.eng e).lookups.filter (fun m => keyLt m.frame.key l.frame.key && s.shares e l m)

/-- A commit of `m` may change what a commit of `l` does: the record it finds, or the prefix dictionary, whose entries change at logical points
(R280, R284). -/
def State.meets (s : State) (e : Nat) (l m : Lookup) : Bool :=
  s.shares e l m || (s.sameOrder e l.part m.part && mayC6 l.key && mayC6 m.key)

/-- The lookups of lower key whose commits the commit of `l` depends on. -/
def State.ahead (s : State) (e : Nat) (l : Lookup) : List Lookup :=
  (s.eng e).lookups.filter (fun m => keyLt m.frame.key l.frame.key && s.meets e l m)

/-- The scheduled commands of strokes up to `t` that precede the commits of stroke `t` of a partition are applied (R249). -/
def State.changesDone (s : State) (e part t : Nat) : Bool :=
  !((s.eng e).sched.any (fun c => strokeLe c.stroke t && s.sameOrder e part c.table))

/-- Every update of a stroke at or before `t` that the view of `l`'s record depends on is applied in engine `e` (R247). -/
def State.updatesDone (s : State) (e : Nat) (l : Lookup) (t : Nat) : Bool :=
  s.mayCommit e l.part t && s.changesDone e l.part t &&
    !((s.eng e).lookups.any (fun m => strokeLe m.frame.key.stroke t && s.shares e l m))

/-- Every commit that precedes boundary `x` in the order of partition `part` is done (R249, R250). -/
def State.classDone (s : State) (e part x : Nat) : Bool :=
  let t := (x + (2 ^ 48 - 1)) % 2 ^ 48
  s.wmPassed e t && s.mayCommit e part t && !((s.eng e).lookups.any (fun l => strokeLt l.frame.key.stroke x && s.sameOrder e part l.part))

/-- Every update of engine `e` of a stroke before `x` is applied, but for scheduled commands. -/
def State.commitsBefore (s : State) (e x : Nat) : Bool :=
  let t := (x + (2 ^ 48 - 1)) % 2 ^ 48
  s.wmPassed e t && (!s.hasGlobal e || strokeLe t (s.rf SP_RELEASED.STROKE)) &&
    !((s.eng e).lookups.any (fun l => strokeLt l.frame.key.stroke x))

/-! ### Snapshots (R262) -/

/-- The physical buckets of an engine that hold something, ascending. -/
def State.heldBuckets (s : State) (e : Nat) : List Nat :=
  (s.slots.filterMap (fun p => if e * 2 ^ 26 ≤ p.1 ∧ p.1 < (e + 1) * 2 ^ 26 then some ((p.1 - e * 2 ^ 26) / 4) else none)).eraseDups

/-- Every record of an engine with its place, in order of physical location. -/
def State.records (s : State) (e : Nat) : List (Nat × Nat × List Byte) :=
  (s.heldBuckets e).flatMap (fun b => (List.range 4).filterMap (fun j => (s.recAt e b j).map (fun r => (b, j, r))))

/-- Every bucket of an engine is read: by the walker, by a snapshot (R285). -/
def State.readAll (s : State) (e : Nat) : State := (s.heldBuckets e).foldl (fun s b => s.readBucket e b) s

/-- The image of snapshot `c` with the records of its partitions as they stand: those of region-local ones, or with `all` of every one (R262). -/
def State.snapImage (s : State) (e : Nat) (all : Bool) (c : SnapX) : SnapX :=
  let new := (s.records e).filter (fun q => bit c.mask (recPart q.2.2) && (s.agedAt e c.stroke q.2.2).isNone &&
    (if s.rb (FE_PART_CFG.MODE e (recPart q.2.2)) then all else !c.takenLocal))
  { c with takenLocal := true, taken := all, image := new.foldl (fun m q => mset [] m (q.1 * 4 + q.2.1) (bytesAt q.2.2 0 64)) c.image }

/-- Before a change of stroke `t` to buckets `bs`, an active snapshot whose boundary is at or before `t` has its image fixed, and the copies of
those buckets go to its staging area. A change of a region-local partition (`all` false) fixes the part of the image that holds those, since it
waits for no update of a global one (R250). -/
def State.snapFix (s : State) (e t : Nat) (all : Bool) (bs : List Nat) : State :=
  match (s.eng e).snap with
  | some c =>
    let fixed := c.taken || (c.takenLocal && !all)
    if !fixed && !strokeLe c.stroke t then s
    else
      let s := if fixed then s else s.readAll e
      let c := if fixed then c else s.snapImage e all c
      s.setEng e { s.eng e with snap := some { c with staged := (c.staged ++ bs).eraseDups } }
  | none => s

/-- The staging area of an engine's snapshot holds more than 256 buckets (R262). -/
def State.stageFull (s : State) (e : Nat) : Bool :=
  match (s.eng e).snap with
  | some c => decide (256 < c.staged.length)
  | none => false

/-- The engines whose report queue has no room for what a change of `s` into `t` adds to it (R254). -/
def State.overfilled (s t : State) : List Nat := (List.range 8).filter (fun e => decide (s.evtHeld 4 e < t.evtHeld 4 e) && decide (1024 < t.evtHeld 4 e))

/-- The change need not wait. -/
def State.mayChange (s t : State) : Bool := (s.overfilled t).isEmpty && !(List.range 8).any t.stageFull

/-- Make a change, or wait: for room in a report queue that it would add to (R254), or in a snapshot's staging area (R262). -/
def State.orWait (s t : State) : State :=
  if !(s.overfilled t).isEmpty then (s.overfilled t).foldl (fun s e => s.feErr (FE_ERR.REPORT_STALL e) e) s
  else if (List.range 8).any t.stageFull then s else t

/-! ### Release or hold (R247, R306) -/

/-- The binding entry of a frame is usable: VALID = 1 and LEN not 0. -/
def State.bound (s : State) (e : Nat) (f : Frame) : Bool :=
  s.rb (PMP_BIND.VALID e f.bank (actRoutine f.act)) && s.rf (PMP_BIND.LEN e f.bank (actRoutine f.act)) != 0

/-- A frame with an unbound routine runs no pass and is released with no verdict (R306). It has a flow action and no verdict-stable record, so it is
not forwarded cut-through (R57; DEDUCED, log entry 210). -/
def State.unbound (s : State) (e : Nat) (l : Lookup) : State :=
  let s := (s.count (PMP_CNT.COUNT e 5) l.frame.key.stroke).dropLookup e l.frame.key
  if l.released then s else s.verdict { l.frame with cut := false }

/-- Queue a pass for the dispatcher. -/
def State.askPass (s : State) (e : Nat) (l : Lookup) (verdict : Bool) : State :=
  let s := s.mapLookup e l.frame.key (fun l => { l with inPass := true })
  s.setEng e { s.eng e with passes := (s.eng e).passes ++ [{ look := { l with inPass := true }, verdict := verdict }] }

/-- T − D of a frame's stroke. -/
def State.viewStroke (s : State) (l : Lookup) : Nat := (l.frame.key.stroke + 2 ^ 48 - s.verdictLag) % 2 ^ 48

/-- A frame is held until its commit pass (R34), and counted. -/
def State.holdFrame (s : State) (e : Nat) (f : Frame) : State :=
  let k := f.key
  ((s.mapLookup e k (fun l => { l with held := true, inPass := false, frame := { l.frame with cut := false } })).count (FE_CNT.COUNT e 3) k.stroke).ev
    (64 + 2 * f.region + f.pipe) 0x17 none 1 k.stroke k.num

/-- The engine decides on the next lookup whose stable view is complete: a verdict pass when the view is verdict-stable, else the
frame is held (R247). -/
def verdictPass (e : Nat) (s : State) : State :=
  match (s.eng e).lookups.find? (fun l => l.ready && !l.released && !l.held && !l.inPass &&
      s.updatesDone e l (s.viewStroke l)) with
  | none => s
  | some l =>
    let s := s.readRec e l.part l.key
    if !s.bound e l.frame then s.unbound e l
    else match s.viewAt e l.part l.key (s.viewStroke l) with
      | some (c, _) => if bit c 8 then s.askPass e l true else s.holdFrame e l.frame
      | none => s.holdFrame e l.frame

/-- The lookup of least ordering key. -/
def leastLookup : List Lookup → Option Lookup
  | [] => none
  | l :: r =>
    match leastLookup r with
    | none => some l
    | some m => some (if keyLt m.frame.key l.frame.key then m else l)

/-- A commit of stroke `t` of a partition leaves an active snapshot's image whole: what it changes is fixed, the boundary is later, or every
change that precedes the image in the partition's order is done (R250, R262). -/
def State.snapClear (s : State) (e part t : Nat) : Bool :=
  match (s.eng e).snap with
  | some c => c.taken || strokeLt t c.stroke || (c.takenLocal && !s.rb (FE_PART_CFG.MODE e part)) ||
      (s.classDone e part c.stroke && !(s.eng e).sched.any (fun d => strokeLe d.stroke c.stroke && s.sameOrder e part d.table))
  | none => true

/-- The commit pass of `l` may start (R248, R249): its stroke may commit, the changes before it are applied, and the passes it depends on have
been asked for, so that no pass takes a context ahead of one it waits for. -/
def State.commitDue (s : State) (e : Nat) (l : Lookup) : Bool :=
  l.ready && (l.released || l.held) && !l.inPass && s.mayCommit e l.part l.frame.key.stroke &&
    s.changesDone e l.part l.frame.key.stroke && s.snapClear e l.part l.frame.key.stroke && (s.ahead e l).all (·.inPass)

/-- The engine starts the commit pass of least key among the frames whose stroke may commit (R248). -/
def commitPass (e : Nat) (s : State) : State :=
  match leastLookup ((s.eng e).lookups.filter (s.commitDue e)) with
  | none => s
  | some l => if s.bound e l.frame then s.askPass e l false else s.unbound e l

/-! ### Watermarks and the standpipe (R33, R35, R250) -/

/-- The least of some strokes, from `a`. -/
def strokeMin (a : Nat) (l : List Nat) : Nat := l.foldl (fun x y => if strokeLt y x then y else x) a

/-- Regions whose watermark is the lowest, among those the release test counts. -/
def State.lowest (s : State) : Nat :=
  let regs := (List.range 8).filter (fun n => !bit (s.rf SP_STATUS.QUARANTINED) n)
  (List.range 8).foldl (fun a n => if n ∈ regs && !(regs.any (fun m => strokeLt (s.wm m) (s.wm n))) then a + 2 ^ n else a) 0

/-- Forget changes that every later lookup sees: those of strokes a verdict lag behind every frame still under way. -/
def State.pruneLogs (s : State) (n : Nat) : State :=
  let d := s.verdictLag
  let low := strokeMin (s.wm n) ((List.range 8).map s.wm)
  let x := s.tbl n
  let s := s.setTbl n { x with log := x.log.filter (fun c => strokeLt (s.wm n) ((c.stroke + d) % 2 ^ 48)) }
  let y := s.eng n
  let low := strokeMin low (y.lookups.map (fun l => l.frame.key.stroke))
  s.setEng n { y with views := y.views.filter (fun c => strokeLt low ((c.stroke + d) % 2 ^ 48)) }

/-- The stroke that a watermark of region `n` can reach at most: the current one, and the quiesce stroke once it is reached, since what is due in
the strokes of a quiesce waits for the resume (R618); of every front-panel port of the region the stroke of its own copy of the ordering
source (R33, R511), but where strokes come from the ledger, the first whose record has not arrived (R539). A frame is stamped in the command that receives it, so the fixed stamping
delay is 0 (DESIGN CHOICE, log entry 180). -/
def State.wmLimit (s : State) (n : Nat) : Nat :=
  let now := match s.chip.quiesceAt with
    | some q => if strokeLt q s.strokeNow then q else s.strokeNow
    | none => s.strokeNow
  if s.rb CHIP_STROKE_CFG.SRC_LEDGER then strokeMin now [(s.rf PAIR_LAST_LEDGER.STROKE + 1) % 2 ^ 48]
  else strokeMin now (((List.range 64).filter (fun l => s.portWidth n l != 0)).map (fun l => s.heldStroke (globalOf n l) s.cellCycles))

/-- The watermark of a region advances to the lowest stroke that a frame may still belong to (R33). -/
def watermarkAdvance (n : Nat) (s : State) : State :=
  let w := strokeMin (s.wmLimit n) (s.pipeStrokes n)
  if strokeLt (s.wm n) w then
    let s := (s.wf (SP_WM.STROKE n) w).pruneLogs n
    s.wf SP_STATUS.LOWEST s.lowest
  else s

/-- The standpipe releases every stroke that the watermarks of all counted regions have passed (R34, R250). -/
def standpipeRelease (s : State) : State :=
  match (List.range 8).filter (fun n => !bit (s.rf SP_STATUS.QUARANTINED) n) with
  | [] => s
  | n :: l =>
    let w := strokeMin (s.wm n) (l.map s.wm)
    let t := (w + (2 ^ 48 - 1)) % 2 ^ 48
    if strokeLt (s.rf SP_RELEASED.STROKE) t then (s.wf SP_RELEASED.STROKE t).ev 129 0x10 none (strokeDiff (s.rf SP_RELEASED.STROKE) t) s.strokeNow (s.strokeNow * 2 ^ 32) else s

/-! ### Bypass (R252) -/

/-- How long the oldest entry has waited, in ns. -/
def State.oldest (s : State) (e : Nat) : Nat :=
  match (s.eng e).lookups with
  | [] => 0
  | l :: _ => s.orderNs - l.at_

def State.bypassEvent (s : State) (e : Nat) : State := s.raise (regionSrc 0x343 e) (s.reg (FE_STATUS.w e)).toNat

def bypassEnter (e : Nat) (s : State) : State :=
  if s.rb (FE_STATUS.BYPASS e) then s
  else if 57344 < (s.eng e).lookups.length ∨
      ((s.eng e).lookups ≠ [] ∧ s.rf (FE_CFG.BYPASS_US e) * 1000 ≤ s.oldest e) then
    (((s.wf (FE_STATUS.BYPASS e) 1).feErr (FE_ERR.BYPASS e) e).detSet CHIP_DET_STATUS.BYPASS s.strokeNow).bypassEvent e
  else s

def bypassExit (e : Nat) (s : State) : State :=
  if s.rb (FE_STATUS.BYPASS e) && decide ((s.eng e).lookups.length < 16384) &&
      decide (s.oldest e < s.rf (FE_CFG.BYPASS_US e) * 500) then (s.wf (FE_STATUS.BYPASS e) 0).bypassEvent e
  else s

/-! ### Ageing (R255) -/

/-- Remove an aged record at boundary `b`; `all` as in `State.snapFix`. -/
def State.ageRec (s : State) (e b : Nat) (all : Bool) (q : Nat × Nat × List Byte) : State :=
  let (i, j, r) := q
  let hb := (s.homeBucket e i r).1
  let s := (((s.snapFix e ((b + (2 ^ 48 - 1)) % 2 ^ 48) all [i]).removeRec e i j b (bytesBE 6 b))).count (FE_CNT.COUNT e 5) b
  if s.rb (FE_PART_CFG.NOTIFY_AGED e (recPart r)) then s.flowReport e flAged hb j b (recPart r) (some r) else s

/-- Remove the aged records of a list at boundary `b`, as far as their reports and copies find room; the Bool says that none is left. -/
def State.ageOut (s : State) (e b : Nat) : List (Nat × Nat × List Byte) → State × Bool
  | [] => (s, true)
  | q :: l =>
    let t := s.ageRec e b true q
    if (decide (s.evtHeld 4 e < t.evtHeld 4 e) && decide (1024 < t.evtHeld 4 e)) || t.stageFull e then (s.orWait t, false)
    else t.ageOut e b l

/-- The sweep steps of the boundaries up to stroke `t` precede the commits and commands of stroke `t` (R37, R249): before a change of key `k` of
partition `part` the records that the walker has not reached yet go, each at the boundary it aged out at, so far as the change could meet them, in
its buckets or, through the prefix dictionary, in another (R255, R257, R284). -/
def State.ageFor (s : State) (e part : Nat) (k : List Byte) (t : Nat) : State :=
  if s.flowSwept e t || !(s.running && s.regionRuns e) then s
  else
    let bs := s.keyBuckets e part k
    let s := bs.eraseDups.foldl (fun s b => s.readBucket e b) s
    let aged := (s.records e).filter (fun q => s.sameOrder e part (recPart q.2.2) && (s.agedAt e t q.2.2).isSome &&
      (decide (q.1 ∈ bs) || (mayC6 k && s.slotFmt e q.1 q.2.1 = 2)))
    aged.foldl (fun s q => s.ageRec e ((s.agedAt e t q.2.2).getD t) (s.rb (FE_PART_CFG.MODE e part)) q) s

/-- The step of sweep boundary `b` may be applied: every update of earlier strokes is (R249), and `b` does not lie in a quiesce (R618). -/
def State.flowSweepReady (s : State) (e b : Nat) : Bool :=
  !s.inSpan b && s.commitsBefore e b && !(s.eng e).sched.any (fun c => strokeLt c.stroke b)

/-- The walker removes what the next boundary ages out, once it has come (R249, R255); records whose reports find no room are left to a later
command. A snapshot of an earlier boundary is fixed first. -/
def flowSweep (e : Nat) (s : State) : State :=
  match s.flowBoundary e with
  | none => s
  | some b =>
    if !s.flowSweepReady e b then s
    else
      let s := (s.snapFix e ((b + (2 ^ 48 - 1)) % 2 ^ 48) true []).readAll e
      match s.ageOut e b ((s.records e).filter (fun q => s.agedOut e b q.2.2)) with
      | (s, true) => s.setEng e { s.eng e with swept := some b }
      | (s, false) => s

/-! ### Meanings -/

def execFlowLookup (n : Region) (p : Pipe) (chk : ReadCheck) (s : State) : Host.Outcome State Fault Refusal :=
  .next (if s.running && s.regionOn n then flowLookup n p chk s else s)

def execBucketReadReturn (e : Region) (i : BitVec 16) (rd : BucketRead) (dict : ReadCheck) (second : Bool) (s : State) :
    Host.Outcome State Fault Refusal :=
  .next (if s.running && s.regionOn e && !s.hbmBusy (e / 2) then bucketReturn e i.toNat rd dict second s else s)

def execVerdictPass (e : Region) (s : State) : Host.Outcome State Fault Refusal :=
  .next (if s.running && s.regionOn e then verdictPass e s else s)

def execStandpipeRelease (s : State) : Host.Outcome State Fault Refusal := .next (if s.running then standpipeRelease s else s)

def execCommitPass (e : Region) (s : State) : Host.Outcome State Fault Refusal :=
  .next (if s.running && s.regionOn e then commitPass e s else s)

def execBypassEnter (e : Region) (s : State) : Host.Outcome State Fault Refusal := .next (if s.running && s.regionOn e then bypassEnter e s else s)

def execBypassExit (e : Region) (s : State) : Host.Outcome State Fault Refusal := .next (if s.running && s.regionOn e then bypassExit e s else s)

def execFlowSweep (e : Region) (s : State) : Host.Outcome State Fault Refusal :=
  .next (if s.running && s.regionOn e then flowSweep e s else s)

end Sys2Proof.Machine
end

