-- ==== Sys2Proof/Machine/Pump.lean ====
section
/-! DEFINITION. Pumps (file 09): contexts and passes (R288 to R293), abandon, restart and failure (R307, R308), the 48 microwords
(R295 to R303), COMMIT (R304, R305) and the pool (R317, R318). -/

namespace Sys2Proof.Machine

/-! ### Contexts -/

/-- The context `c` of pump `p` of engine `e`, when it runs a pass. -/
def State.ctx (s : State) (e p c : Nat) : Option PumpCtx := mget none s.ctxs ((e * 32 + p) * 8 + c)

/-- The contexts of an engine that run a pass. -/
def State.busyCtxs (s : State) (e : Nat) : List (Nat × PumpCtx) :=
  s.ctxs.filterMap (fun x => if e * 256 ≤ x.1 ∧ x.1 < (e + 1) * 256 then x.2.map (fun k => (x.1, k)) else none)

/-- A context waits for export credit (R303, R314). -/
def PumpCtx.creditWait (k : PumpCtx) : Bool :=
  match k.wait with
  | some (2, _) => true
  | some (7, _) => true
  | _ => false

/-- Show CTX_BUSY and CREDIT_WAIT (R322). -/
def State.showCtxs (s : State) (e : Nat) : State :=
  let l := s.busyCtxs e
  (s.wf (PMP_STATUS.CTX_BUSY e) l.length).wf (PMP_STATUS.CREDIT_WAIT e) (min 255 (l.filter (fun x => x.2.creditWait)).length)

/-- Put a context. -/
def State.setCtx (s : State) (e p c : Nat) (k : Option PumpCtx) : State :=
  (s.withCtxs (mset none s.ctxs ((e * 32 + p) * 8 + c) k)).showCtxs e

/-- A binding entry's word `w` for a frame (Table PU-7): its own bank (R311). -/
def State.bindWord (s : State) (e : Nat) (f : Frame) (w : Nat) : Nat := (s.reg (PMP_BIND.w e f.bank (actRoutine f.act) + w)).toNat

def State.bindEntry (s : State) (e : Nat) (f : Frame) : Nat := bits (s.bindWord e f 0) 0 14
def State.bindLen (s : State) (e : Nat) (f : Frame) : Nat := bits (s.bindWord e f 0) 16 15

/-- Address `pc` lies in the frame's binding range (R311). -/
def State.inRange (s : State) (e : Nat) (f : Frame) (pc : Nat) : Bool :=
  decide (s.bindEntry e f ≤ pc) && decide (pc < min (s.bindEntry e f + s.bindLen e f) 16384)

/-- The RECORD condition can hold: no frame of lower key is unfinished whose commit may change the record, as a pass of the same record or an
eviction from its buckets would (R291, R253; DEDUCED, log entry 28). -/
def State.recordFinal (s : State) (e : Nat) (l : Lookup) (verdict : Bool) : Bool := verdict || (s.aheadOf e l).isEmpty

/-- A commit's effect may take place: none of lower key is unfinished that it could depend on through the prefix dictionary either (R284;
DEDUCED, log entry 28). -/
def State.commitTurn (s : State) (e : Nat) (k : PumpCtx) : Bool := k.verdict || (s.ahead e k.look).isEmpty

/-- A context that loads its record window reads the record (R285, R292). -/
def State.readFor (s : State) (e : Nat) (l : Lookup) (verdict : Bool) : State :=
  if s.recordFinal e l verdict then s.readRec e l.part l.key else s

/-- The window of an absent record (R291). -/
def blankWin (l : Lookup) : List Byte := l.key ++ bytesLE 4 l.part ++ List.replicate 20 0

/-- The record window of a pass and NEW (R291): the stable view in a verdict pass, the record in a commit pass. -/
def State.window (s : State) (e : Nat) (l : Lookup) (verdict : Bool) : List Byte × Bool :=
  if verdict then
    match s.viewAt e l.part l.key (s.viewStroke l) with
    | some (c, st) => (setRecWord (setRecWord (blankWin l) 10 c) 15 st, false)
    | none => (blankWin l, true)
  else match s.recNow e l.part l.key l.frame.key.stroke with
    | some r => (r, false)
    | none => (blankWin l, true)

/-- The metadata window as the pass begins (Table PU-1); NEW is not yet known. -/
def State.metadata (s : State) (e : Nat) (l : Lookup) (verdict : Bool) : List Nat :=
  let f := l.frame
  let k := f.key.num
  let t := s.strokeTime f.key.stroke
  let off := s.rf (PMP_BIND.HV_OFF e f.bank (actRoutine f.act))
  [ k % 2 ^ 32, k / 2 ^ 32 % 2 ^ 32,
    k / 2 ^ 64 + l.dir * 2 ^ 16 + b2n verdict * 2 ^ 18 + f.pass * 2 ^ 19 + f.bank * 2 ^ 22,
    f.len + be16 f.hv 10 * 2 ^ 16, t % 2 ^ 32, quanta t,
    (match f.tcam with
      | some x => x
      | none => 2 ^ 15) + byteAt f.hv 14 * 2 ^ 16 + actRoutine f.act * 2 ^ 24, 0 ] ++
  (List.range 4).map (fun i => beAt f.hv (off + 4 * i) 4) ++ (List.range 4).map (fun i => s.bindWord e f (4 + i))

/-- Load the window once RECORD holds (R292); metadata NEW is known from then on. -/
def State.loadWin (s : State) (e : Nat) (k : PumpCtx) : PumpCtx :=
  if s.recordFinal e k.look k.verdict then
    let w := s.window e k.look k.verdict
    { k with win := w.1, winOk := true, isNew := w.2, md := setAt k.md 2 (putBits (k.md.getD 2 0) 17 1 (b2n w.2)) }
  else k

/-- A context at the start of a pass (R289, R307); its metadata and LATENCY are those of its first start (R293). -/
def State.startCtx (s : State) (e : Nat) (l : Lookup) (verdict : Bool) (restarts since latency : Nat) (md : List Nat) : PumpCtx :=
  s.loadWin e {
    look := l, verdict := verdict, pc := s.bindEntry e l.frame, g := List.replicate 32 0, win := blankWin l,
    md := md, latency := latency, restarts := restarts, since := since }

/-- The current time of the domain a frame was stamped in. -/
def State.sinceStamp (s : State) (f : Frame) : Nat := min ((s.dom f.stampDom).ns - f.stamp / 4) (2 ^ 32 - 1)

/-! ### Errors, abandon and failure (R307, R308) -/

/-- Capture `PMP_ERR_LOC` and `PMP_ERR_CAUSE` while every bit of `PMP_ERR` is 0. -/
def State.pmpCapture (s : State) (e p c : Nat) (k : PumpCtx) (cause : Nat) : State :=
  if s.reg (PMP_ERR.w e) = 0 then
    let f := k.look.frame
    (s.setReg (PMP_ERR_LOC.w e) (BitVec.ofNat 32
      (k.pc % 2 ^ 14 + actRoutine f.act * 2 ^ 14 + f.bank * 2 ^ 22 + p * 2 ^ 23 + c * 2 ^ 28))).wf (PMP_ERR_CAUSE.CAUSE e) cause
  else s

/-- Set a bit of `PMP_ERR` with event 0x344 (R320). -/
def State.pmpErr (s : State) (f : Fld) (e : Nat) : State := s.setErr f (regionSrc 0x344 e)

/-- A pass ends: its context is free, and its time enters its routine's histogram (R595, R601, R602). -/
def State.endPass (s : State) (e p c : Nat) (k : PumpCtx) : State :=
  let s := s.setCtx e p c none
  if s.rb (PMP_RT_HIST_CFG.EN e) && s.counts k.look.frame.key.stroke then
    let i := e * 2 ^ 15 + actRoutine k.look.frame.act * 128
    let v := min (s.orderNs - k.since) (2 ^ 32 - 1)
    let b := i + histBin v
    s.withRtHist (mset 0 (mset 0 s.rtHist b (min (mget 0 s.rtHist b + 1) (2 ^ 32 - 1))) (i + 64) (max v (mget 0 s.rtHist (i + 64))))
  else s

/-- Passes of engine `e` end without a commit or a failure: their frames are discarded or answered (R309, R565). -/
def State.endPasses (s : State) (e : Nat) (p : PumpCtx → Bool) : State :=
  (s.busyCtxs e).foldl (fun s x => if p x.2 then s.endPass e (x.1 / 8 % 32) (x.1 % 8) x.2 else s) s

/-- A pass fails (R308): a verdict pass leaves its frame held, a commit pass drops a held frame and leaves the record alone. -/
def State.failPass (s : State) (e p c : Nat) (k : PumpCtx) (cause : Nat) : State :=
  let f := k.look.frame
  let s := ((s.count (PMP_CNT.COUNT e 3) f.key.stroke).pmpCapture e p c k cause).pmpErr (PMP_ERR.PASS_FAIL e) e
  let s := s.endPass e p c k
  if k.verdict then s.holdFrame e f
  else
    let s := s.dropLookup e f.key
    if k.look.released then s else s.dropFrame f

/-- The detection behind an abandon cause enters the error log (R555, R560): a control-store word by its row of memory 6 (of which copy is free), a
binding entry by the LOC found, `at_`, in memory 5. -/
def State.logCause (s : State) (e cause : Nat) (k : PumpCtx) (at_ : Option Nat) : State :=
  if cause = 0x10 then
    match at_ with
    | some l => s.detect e 5 l false
    | none => (s.detect e 6 (s.freeBits 1 * 64 + k.pc / 256) false).nextFree
  else if cause = 0x11 then s.detectFree e
  else s

/-- The error bits of an abandon cause (R307, R312). -/
def State.noteCause (s : State) (e p c : Nat) (k : PumpCtx) (cause : Nat) (at_ : Option Nat) : State :=
  if cause = 0x10 then ((s.pmpCapture e p c k cause).pmpErr (PMP_ERR.STORE_PARITY e) e).logCause e cause k at_
  else if cause = 0x11 then ((s.pmpCapture e p c k cause).pmpErr (PMP_ERR.CTX_PARITY e) e).logCause e cause k at_
  else if cause ≤ 7 then (s.pmpCapture e p c k cause).pmpErr (PMP_ERR.FAULT e) e
  else s

/-- A pass is abandoned for a cause that counts (R307): it starts again from ENTRY with a freshly read window, or fails when its restarts are used
up. -/
def State.abandonOnce (s : State) (e p c : Nat) (k : PumpCtx) (cause : Nat) (at_ : Option Nat) : State :=
  let s := s.noteCause e p c k cause at_
  if s.rf (PMP_CFG.MAX_RESTARTS e) ≤ k.restarts then s.failPass e p c k cause
  else
    let t := k.look.frame.key.stroke
    let s := (s.count (PMP_CNT.COUNT e 2) t).ev (104 + e) 0x17 none 1 t k.look.frame.key.num
    let s := s.readFor e k.look k.verdict
    s.setCtx e p c (some (s.startCtx e k.look k.verdict (k.restarts + 1) k.since k.latency k.md))

/-- The LOC of the lasting error of a frame's binding entry (R557). -/
def bindIx (e : Nat) (f : Frame) : Nat := e * 512 + f.bank * 256 + actRoutine f.act
def State.bindBad (s : State) (e : Nat) (f : Frame) : Option Nat :=
  if mget 0 s.bindErr (bindIx e f) = 0 then none else some (mget 0 s.bindErr (bindIx e f) - 1)

/-- A pass that has just started has read its binding entry: with that in error it is abandoned again, until it fails (R557, R312). -/
def State.rebind (s : State) (e p c : Nat) : Nat → State
  | 0 => s
  | n + 1 =>
    match s.ctx e p c with
    | none => s
    | some k =>
      match s.bindBad e k.look.frame with
      | none => s
      | some l => (s.abandonOnce e p c k 0x10 (some l)).rebind e p c n

/-- The restarts a pass may have (R307). -/
def State.maxStarts (s : State) (e : Nat) : Nat := s.rf (PMP_CFG.MAX_RESTARTS e) + 1

/-- A pass is abandoned; the start that follows reads its binding entry again (R557). -/
def State.abandon (s : State) (e p c : Nat) (k : PumpCtx) (cause : Nat) (at_ : Option Nat := none) : State :=
  (s.abandonOnce e p c k cause at_).rebind e p c (s.maxStarts e)

/-! ### Dispatch (R289) -/

/-- The lowest-numbered free context of a pump. -/
def State.freeCtx (s : State) (e p : Nat) : Option Nat := (List.range 8).find? (fun c => (s.ctx e p c).isNone)

/-- The pump that the dispatcher serves next (R289). -/
def State.nextPump (s : State) (e : Nat) : Option (Nat × Nat) :=
  ((List.range 32).map (fun i => ((s.eng e).rrPump + 1 + i) % 32)).findSome? (fun p =>
    if bit (s.rf (PMP_POOL.IN_POOL e)) p then (s.freeCtx e p).map (fun c => (p, c)) else none)

/-- The dispatcher gives the oldest waiting pass to a context (R289); `rd` is what the read of its binding entry met (R557). -/
def passDispatch (e : Nat) (rd : BindRead) (s : State) : State :=
  match (s.eng e).passes, s.nextPump e with
  | q :: rest, some (p, c) =>
    let f := q.look.frame
    let t := f.key.stroke
    let s := s.setEng e { s.eng e with passes := rest, rrPump := p }
    let s := if q.since.isNone then
        let s := (s.count (PMP_CNT.COUNT e 0) t).ev (104 + e) (if q.verdict then 0x13 else 0x14) none 1 t f.key.num
        if q.verdict then s.count (PMP_CNT.COUNT e 1) t else s
      else s
    let s := s.readFor e q.look q.verdict
    let k := match q.since with
      | none => s.startCtx e q.look q.verdict q.restarts s.orderNs (s.sinceStamp f) (s.metadata e q.look q.verdict)
      | some t => s.startCtx e q.look q.verdict q.restarts t q.latency q.md
    let s := s.setCtx e p c (some k)
    match rd with
    | .good => s.rebind e p c (s.maxStarts e)
    | .once l => s.abandon e p c k 0x10 (some l.toNat)
    | .stuck l => (s.withBindErr (mset 0 s.bindErr (bindIx e f) (l.toNat + 1))).rebind e p c (s.maxStarts e)
  | _, _ => s

/-! ### Issue (R290, R295, R296, R307) -/

/-- What a microword does to its context. -/
inductive OpRes where
  /-- It runs and falls through, with its count. -/
  | ok (k : PumpCtx) (n : Nat)
  /-- It branches to an address, with its count. -/
  | jump (k : PumpCtx) (target n : Nat)
  | fault (cause : Nat)
  /-- It waits before it issues: COND and stream. -/
  | stall (cond arg : Nat)
  /-- It issues, and its context then waits. -/
  | wait (k : PumpCtx) (cond arg : Nat)
deriving DecidableEq, Repr

/-- The control-store word at an address, as copy 0 holds it. -/
def State.storeWord (s : State) (e a : Nat) : Nat := (s.reg (PMP_STORE.w e a)).toNat

/-- The two copies of a word differ (R312). -/
def State.copiesDiffer (s : State) (e a : Nat) : Bool := mget 0 s.pmp2 (e * 16384 + a) != 0

/-- Count a word issued with `n` count units. -/
def State.countWord (s : State) (e p c : Nat) (k : PumpCtx) (n : Nat) : State :=
  let f := k.look.frame
  let t := f.key.stroke
  let item := k.pc + actRoutine f.act * 2 ^ 14 + p * 2 ^ 22 + c * 2 ^ 27 + f.key.num % 2 ^ 64 * 2 ^ 32
  ((s.countBy (PMP_CNT.COUNT e 7) n t).ev (104 + e) 0x15 (some p) 1 t item).ev (104 + e) 0x16 (some p) n t item

/-- What the word at the program counter does: the checks of R307 in their order, then `f`. -/
def State.outcome (s : State) (e flt : Nat) (k : PumpCtx) (f : State → PumpCtx → OpRes) : OpRes :=
  if !s.inRange e k.look.frame k.pc then .fault 0x03
  else if flt = 1 || s.copiesDiffer e k.pc then .fault 0x10
  else if s.rf (PMP_CFG.MAX_WORDS e) ≤ k.issued then .fault 0x04
  else f s k

/-- A context parity error in the cycle of a word is recorded in place of the word's own fault; a COMMIT that issues takes effect all the same, and
the error is recorded beside it (R307, R309). -/
def withParity (flt : Nat) (r : OpRes) : OpRes :=
  if flt = 2 then
    match r with
    | .wait k 5 m => .wait k 5 m
    | _ => .fault 0x11
  else r

/-- Context `c` issues the word at its program counter, which is `w`. `flt` is 1 for a store parity error and 2 for a context parity error,
which a context that waits can meet too. A word that is not the one at the program counter issues nothing, nor does a context that waits. -/
def State.issue (s : State) (e p c w flt : Nat) (f : State → PumpCtx → OpRes) : State :=
  match s.ctx e p c with
  | none => s
  | some k =>
    if k.wait.isSome then (if flt = 2 then s.abandon e p c k 0x11 else s)
    else if s.inRange e k.look.frame k.pc && s.storeWord e k.pc != w then s
    else
      let step := fun (k' : PumpCtx) pc n => (s.countWord e p c k n).setCtx e p c (some { k' with pc := pc, issued := k.issued + 1 })
      match withParity flt (s.outcome e flt k f) with
      | .ok k' n => step k' (k.pc + 1) n
      | .jump k' t n => step k' t n
      | .fault cause => s.abandon e p c k cause
      | .stall cond arg => s.setCtx e p c (some { k with wait := some (cond, arg) })
      | .wait k' cond arg => step { k' with wait := some (cond, arg) } (k.pc + 1) 1

/-- The word of an opcode and its 26 operand bits. -/
def word (op x : Nat) : Nat := op * 2 ^ 26 + x

/-- Operand fields (Table PU-2). -/
def opD (x : Nat) : Nat := bits x 21 5
def opA (x : Nat) : Nat := bits x 16 5
def opB (x : Nat) : Nat := bits x 11 5
def opImm (x : Nat) : Nat := bits x 0 16
def opImmS (x : Nat) : Nat := unsigned 32 (signed 16 (opImm x))
def opTarget (x : Nat) : Nat := bits x 0 14
def opWord (x : Nat) : Nat := bits x 17 4

/-- A general register. -/
def PumpCtx.r (k : PumpCtx) (i : Nat) : Nat := k.g.getD i 0

/-- The context with a general register written. -/
def PumpCtx.put (k : PumpCtx) (i v : Nat) : PumpCtx := { k with g := setAt k.g i (v % 2 ^ 32) }

/-- A word of format R: `f` gives gD from gA and gB. -/
def opR (f : Nat → Nat → Nat) (n x : Nat) (k : PumpCtx) : OpRes :=
  if bits x 0 11 != 0 then .fault 2 else .ok (k.put (opD x) (f (k.r (opA x)) (k.r (opB x)))) n

/-- A word of format I whose bits of `must0` have to be 0: `f` gives gD from gA and the word's operands. -/
def opI (f : Nat → Nat → Nat) (must0 x : Nat) (k : PumpCtx) : OpRes :=
  if x &&& must0 != 0 then .fault 2 else .ok (k.put (opD x) (f (k.r (opA x)) x)) 1

/-- A word of format B: it branches when `f` holds of gA (format field D) and the second operand's number. -/
def opBr (f : Nat → Nat → Bool) (x : Nat) (k : PumpCtx) : OpRes :=
  if bits x 14 2 != 0 then .fault 2
  else if f (k.r (opD x)) (opA x) then .jump k (opTarget x) 2 else .ok k 1

/-- Shift right with sign fill. -/
def sar (a b : Nat) : Nat := unsigned 32 (signed 32 a / 2 ^ (b % 32))

/-- The bytes of a word in reverse order. -/
def bswap (a : Nat) : Nat := natBE (bytesLE 4 a)

/-- A store into record word `w`, or the fault of R292. -/
def storeWin (k : PumpCtx) (w v : Nat) : OpRes :=
  if w < 10 || (decide (11 ≤ w) && decide (w ≤ 14)) then .fault 5
  else if w = 10 then
    let c := recWord k.win 10
    .ok { k with win := setRecWord k.win 10 (putBits (putBits c 4 5 (v / 2 ^ 4)) 12 12 (v / 2 ^ 12)) } 1
  else .ok { k with win := setRecWord k.win w v } 1

/-- A word that reads or writes the record window waits for RECORD (R292). -/
def needWin (k : PumpCtx) (r : OpRes) : OpRes := if k.winOk then r else .stall 0 0

/-! ### The microwords (Table PU-3) -/

def mAdd (e p c x flt : Nat) (s : State) : State := s.issue e p c (word 0x01 x) flt (fun _ k => opR (fun a b => a + b) 1 x k)
def mSub (e p c x flt : Nat) (s : State) : State := s.issue e p c (word 0x02 x) flt (fun _ k => opR (fun a b => a + 2 ^ 32 - b) 1 x k)
def mAnd (e p c x flt : Nat) (s : State) : State := s.issue e p c (word 0x03 x) flt (fun _ k => opR (fun a b => a &&& b) 1 x k)
def mOr (e p c x flt : Nat) (s : State) : State := s.issue e p c (word 0x04 x) flt (fun _ k => opR (fun a b => a ||| b) 1 x k)
def mXor (e p c x flt : Nat) (s : State) : State := s.issue e p c (word 0x05 x) flt (fun _ k => opR (fun a b => a ^^^ b) 1 x k)
def mShl (e p c x flt : Nat) (s : State) : State :=
  s.issue e p c (word 0x06 x) flt (fun _ k => opR (fun a b => a * 2 ^ (b % 32)) 1 x k)
def mShr (e p c x flt : Nat) (s : State) : State :=
  s.issue e p c (word 0x07 x) flt (fun _ k => opR (fun a b => a / 2 ^ (b % 32)) 1 x k)
def mSar (e p c x flt : Nat) (s : State) : State := s.issue e p c (word 0x08 x) flt (fun _ k => opR sar 1 x k)
def mMul (e p c x flt : Nat) (s : State) : State := s.issue e p c (word 0x09 x) flt (fun _ k => opR (fun a b => a * b) 2 x k)
def mMinu (e p c x flt : Nat) (s : State) : State := s.issue e p c (word 0x0A x) flt (fun _ k => opR (fun a b => min a b) 1 x k)
def mMaxu (e p c x flt : Nat) (s : State) : State := s.issue e p c (word 0x0B x) flt (fun _ k => opR (fun a b => max a b) 1 x k)
def mSltu (e p c x flt : Nat) (s : State) : State :=
  s.issue e p c (word 0x0C x) flt (fun _ k => opR (fun a b => b2n (decide (a < b))) 1 x k)
def mBswap (e p c x flt : Nat) (s : State) : State :=
  s.issue e p c (word 0x0D x) flt (fun _ k => if opB x != 0 then .fault 2 else opR (fun a _ => bswap a) 1 x k)

def mAddi (e p c x flt : Nat) (s : State) : State := s.issue e p c (word 0x10 x) flt (fun _ k => opI (fun a x => a + opImmS x) 0 x k)
def mAndi (e p c x flt : Nat) (s : State) : State := s.issue e p c (word 0x11 x) flt (fun _ k => opI (fun a x => a &&& opImm x) 0 x k)
def mOri (e p c x flt : Nat) (s : State) : State := s.issue e p c (word 0x12 x) flt (fun _ k => opI (fun a x => a ||| opImm x) 0 x k)
def mXori (e p c x flt : Nat) (s : State) : State := s.issue e p c (word 0x13 x) flt (fun _ k => opI (fun a x => a ^^^ opImm x) 0 x k)
def mLui (e p c x flt : Nat) (s : State) : State :=
  s.issue e p c (word 0x14 x) flt (fun _ k => opI (fun _ x => opImm x * 2 ^ 16) 0x1F0000 x k)
def mShli (e p c x flt : Nat) (s : State) : State :=
  s.issue e p c (word 0x15 x) flt (fun _ k => opI (fun a x => a * 2 ^ bits x 0 5) 0xFFE0 x k)
def mShri (e p c x flt : Nat) (s : State) : State :=
  s.issue e p c (word 0x16 x) flt (fun _ k => opI (fun a x => a / 2 ^ bits x 0 5) 0xFFE0 x k)
def mExt (e p c x flt : Nat) (s : State) : State :=
  s.issue e p c (word 0x17 x) flt (fun _ k => opI (fun a x => bits a (bits x 5 5) (bits x 0 5 + 1)) 0xFC00 x k)
def mIns (e p c x flt : Nat) (s : State) : State :=
  s.issue e p c (word 0x18 x) flt (fun _ k =>
    opI (fun a x => putBits (k.r (opD x)) (bits x 5 5) (bits x 0 5 + 1) a) 0 x k)
def mSltiu (e p c x flt : Nat) (s : State) : State :=
  s.issue e p c (word 0x19 x) flt (fun _ k => opI (fun a x => b2n (decide (a < opImm x))) 0 x k)
def mLi (e p c x flt : Nat) (s : State) : State := s.issue e p c (word 0x1A x) flt (fun _ k => opI (fun _ x => opImmS x) 0x1F0000 x k)

def mBeq (e p c x flt : Nat) (s : State) : State := s.issue e p c (word 0x20 x) flt (fun _ k => opBr (fun a b => a = k.r b) x k)
def mBne (e p c x flt : Nat) (s : State) : State := s.issue e p c (word 0x21 x) flt (fun _ k => opBr (fun a b => a != k.r b) x k)
def mBltu (e p c x flt : Nat) (s : State) : State := s.issue e p c (word 0x22 x) flt (fun _ k => opBr (fun a b => a < k.r b) x k)
def mBgeu (e p c x flt : Nat) (s : State) : State := s.issue e p c (word 0x23 x) flt (fun _ k => opBr (fun a b => k.r b ≤ a) x k)
def mBbs (e p c x flt : Nat) (s : State) : State := s.issue e p c (word 0x24 x) flt (fun _ k => opBr (fun a b => bit a b) x k)
def mBbc (e p c x flt : Nat) (s : State) : State := s.issue e p c (word 0x25 x) flt (fun _ k => opBr (fun a b => !bit a b) x k)
def mJmp (e p c x flt : Nat) (s : State) : State :=
  s.issue e p c (word 0x26 x) flt (fun _ k => if bits x 14 12 != 0 then .fault 2 else .jump k (opTarget x) 2)
def mJal (e p c x flt : Nat) (s : State) : State :=
  s.issue e p c (word 0x27 x) flt (fun _ k => if bits x 14 7 != 0 then .fault 2 else .jump (k.put (opD x) (k.pc + 1)) (opTarget x) 2)
def mJr (e p c x flt : Nat) (s : State) : State :=
  s.issue e p c (word 0x28 x) flt (fun _ k =>
    if opD x != 0 || opImm x != 0 then .fault 2 else .jump k (k.r (opA x) % 2 ^ 14) 2)

def mLdr (e p c x flt : Nat) (s : State) : State :=
  s.issue e p c (word 0x2C x) flt (fun _ k =>
    if bits x 0 17 != 0 then .fault 2 else needWin k (.ok (k.put (opD x) (recWord k.win (opWord x))) 1))
def mStr (e p c x flt : Nat) (s : State) : State :=
  s.issue e p c (word 0x2D x) flt (fun _ k =>
    if bits x 0 17 != 0 then .fault 2 else needWin k (storeWin k (opWord x) (k.r (opD x))))
/-- A metadata word; NEW in word 2 is known once RECORD holds (log entry 27). -/
def mLdm (e p c x flt : Nat) (s : State) : State :=
  s.issue e p c (word 0x2E x) flt (fun _ k =>
    if bits x 0 17 != 0 then .fault 2
    else
      let r := OpRes.ok (k.put (opD x) (k.md.getD (opWord x) 0)) 1
      if opWord x = 2 then needWin k r else r)
def mLdf (e p c x flt : Nat) (s : State) : State :=
  s.issue e p c (word 0x2F x) flt (fun _ k =>
    if bits x 0 6 != 0 then .fault 2
    else
      let get := fun (v : Nat) => OpRes.ok (k.put (opD x) (bits v (bits x 12 5) (bits x 7 5 + 1))) 1
      if bit x 6 then
        let r := get (k.md.getD (opWord x) 0)
        if opWord x = 2 then needWin k r else r
      else needWin k (get (recWord k.win (opWord x))))
def mStf (e p c x flt : Nat) (s : State) : State :=
  s.issue e p c (word 0x30 x) flt (fun _ k =>
    if bits x 0 7 != 0 then .fault 2
    else
      let w := opWord x
      needWin k (storeWin k w (putBits (recWord k.win w) (bits x 12 5) (bits x 7 5 + 1) (k.r (opD x)) % 2 ^ 32)))

def mHash (e p c x flt : Nat) (s : State) : State :=
  s.issue e p c (word 0x31 x) flt (fun _ k =>
    let n := bits x 0 3 + 1
    if bits x 3 13 != 0 then .fault 2
    else if 32 < opA x + n then .fault 7
    else .ok (k.put (opD x) (crc32c ((List.range n).flatMap (fun i => bytesLE 4 (k.r (opA x + i)))))) (1 + cdiv n 4))
def mCadd (e p c x flt : Nat) (s : State) : State :=
  s.issue e p c (word 0x32 x) flt (fun _ k =>
    if opD x != 0 || bits x 1 15 != 0 then .fault 2
    else
      let (w, ex) := counterAdd k.win (bit x 0) (k.r (opA x)) k.look.frame.key.bytes
      needWin k (.ok { k with win := w } (if ex then 3 else 2)))
def mHadd (e p c x flt : Nat) (s : State) : State :=
  s.issue e p c (word 0x33 x) flt (fun _ k =>
    if opD x != 0 || bits x 1 15 != 0 then .fault 2
    else if 4 ≤ k.hadds then .fault 6
    else
      let set := recHist k.win
      let v := if bit x 0 then k.latency else k.r (opA x)
      needWin k (.ok { k with hadds := k.hadds + 1, hist := if set = 0 then k.hist else k.hist ++ [(set, histBin v)] } 1))
def mRwr (e p c x flt : Nat) (s : State) : State :=
  s.issue e p c (word 0x34 x) flt (fun _ k =>
    let n := bits x 8 2 + 1
    if bits x 0 8 != 0 then .fault 2
    else if 8 ≤ k.rwr.length then .fault 6
    else .ok { k with rwr := k.rwr ++ [⟨bits x 18 3, bits x 10 8, bytesBE n (k.r (opD x))⟩] } 1)
def mEmit (e p c x flt : Nat) (s : State) : State :=
  s.issue e p c (word 0x35 x) flt (fun _ k =>
    if bits x 21 3 != 0 || bits x 1 15 != 0 then .fault 2
    else if 8 ≤ k.exps.length then .fault 6
    else if bit x 0 && opA x = 31 then .fault 7
    else
      let ws := if bit x 0 then [k.r (opA x), k.r (opA x + 1)] else [k.r (opA x)]
      .ok { k with exps := k.exps ++ [⟨bits x 24 2, ws⟩] } 1)
def mVerd (e p c x flt : Nat) (s : State) : State :=
  s.issue e p c (word 0x36 x) flt (fun _ k =>
    if bits x 21 3 != 0 || opImm x != 0 then .fault 2
    else .ok { k with verd := if bits x 24 2 = 0 then none else some (bits x 24 2, k.r (opA x) % 2 ^ 10) } 1)
def mNop (e p c x flt : Nat) (s : State) : State :=
  s.issue e p c (word 0x3A x) flt (fun _ k => if x != 0 then .fault 2 else .ok k 1)

/-- Opcodes that Table PU-3 assigns (R296). -/
def assigned (op : Nat) : Bool :=
  (decide (1 ≤ op) && decide (op ≤ 0x0D)) || (decide (0x10 ≤ op) && decide (op ≤ 0x1A)) ||
  (decide (0x20 ≤ op) && decide (op ≤ 0x28)) || (decide (0x2C ≤ op) && decide (op ≤ 0x3A))

def mIllegal (e p c w flt : Nat) (s : State) : State :=
  if assigned (w / 2 ^ 26) then s else s.issue e p c w flt (fun _ _ => .fault 1)

/-! ### Waits (R303) -/

/-- The ring entries that a pass's buffered entries of stream `st` take (R462: a header and a continuation each). -/
def expNeed (k : PumpCtx) (st : Nat) : Nat := 2 * (k.exps.filter (fun x => x.stream = st)).length

/-- Stream `st` is enabled and routed (R314). -/
def State.streamRouted (s : State) (e st : Nat) : Bool :=
  s.rb (PMP_EXPORT_CFG.EN e st) && s.ringIs (s.rf (PMP_EXPORT_CFG.RING e st)) 4

/-- The CREDIT condition of a stream (Table PU-4). -/
def State.credit (s : State) (e : Nat) (k : PumpCtx) (st : Nat) : Bool :=
  !s.streamRouted e st || expNeed k st = 0 || !s.evtFull (s.rf (PMP_EXPORT_CFG.RING e st)) (expNeed k st)

/-- CREDIT on every stream: where streams share a ring there is room for the entries of all of them. -/
def State.creditAll (s : State) (e : Nat) (k : PumpCtx) : Bool :=
  (List.range 4).all (fun st =>
    let r := s.rf (PMP_EXPORT_CFG.RING e st)
    let n := (((List.range 4).filter (fun j => s.streamRouted e j && s.rf (PMP_EXPORT_CFG.RING e j) = r)).map (expNeed k)).sum
    !s.streamRouted e st || expNeed k st = 0 || !s.evtFull r n)

/-- COMMIT's implied waits hold (R303). -/
def State.commitReady (s : State) (e : Nat) (k : PumpCtx) : Bool := k.winOk && (k.verdict || s.creditAll e k)

/-- EXPORT_STALL is set when a COMMIT waits for credit (R314). -/
def State.exportStall (s : State) (e : Nat) : State := s.pmpErr (PMP_ERR.EXPORT_STALL e) e

/-- A verdict pass ends with nothing kept: its frame is held (Table PU-4). -/
def State.endHeld (s : State) (e p c : Nat) (k : PumpCtx) : State := (s.endPass e p c k).holdFrame e k.look.frame

def mWait (e p c x flt : Nat) (s : State) : State :=
  let cond := bits x 22 4
  let s' := s.issue e p c (word 0x37 x) flt (fun s k =>
    if bit x 21 || bits x 2 14 != 0 || decide (4 ≤ cond) then .fault 2
    else if cond = 0 then (if k.winOk then .ok k 1 else .wait k 0 0)
    else if cond = 1 then (if k.verdict then .wait k 1 0 else .ok k 1)
    else if cond = 2 then (if s.credit e k (bits x 0 2) then .ok k 1 else .wait k 2 (bits x 0 2))
    else if k.r (opA x) = 0 then .ok k 1 else .wait k 3 0)
  match s'.ctx e p c with
  | some k => if k.wait = some (1, 0) then s'.endHeld e p c k else s'
  | none => s'

/-- A waiting context's condition has come true and it resumes (R303). TIMER's pump cycles are not counted by the model: the command
is their end. -/
def waitSatisfied (e p c : Nat) (s : State) : State :=
  match s.ctx e p c with
  | none => s
  | some k =>
    let go := fun (k : PumpCtx) => s.setCtx e p c (some { k with wait := none })
    match k.wait with
    | some (0, _) =>
      let s := s.readFor e k.look k.verdict
      let k' := s.loadWin e k
      if k'.winOk then s.setCtx e p c (some { k' with wait := none }) else s
    | some (2, st) => if s.credit e k st then go k else s
    | some (3, _) => go k
    | some (4, _) =>
      let s := if k.winOk then s else s.readFor e k.look k.verdict
      let k' := if k.winOk then k else s.loadWin e k
      if !k'.winOk then s
      else if !s.commitTurn e k' then s.setCtx e p c (some k')
      else if s.commitReady e k' then s.setCtx e p c (some { k' with wait := none })
      else (s.setCtx e p c (some { k' with wait := some (7, 0) })).exportStall e
    | some (7, _) => if s.creditAll e k then go k else s
    | _ => s

/-! ### COMMIT and FAIL (R304, R305, R308) -/

/-- The record that mode 0 writes: LAST, and FIRST of a new record, are STIME_Q. -/
def commitRec (k : PumpCtx) : List Byte :=
  let q := k.md.getD 5 0
  let r := setRecWord k.win 14 q
  if k.isNew then setRecWord r 13 q else r

/-- The record write or removal of a commit pass (R304). -/
def State.commitRecord (s : State) (e : Nat) (k : PumpCtx) (mode : Nat) : State :=
  let f := k.look.frame
  let t := f.key.stroke
  if mode = 0 then
    let r := commitRec k
    let s := (s.snapFix e t (s.rb (FE_PART_CFG.MODE e k.look.part)) (s.keyBuckets e k.look.part k.look.key)).ageFor e k.look.part k.look.key t
    match s.storeRec e r t f.key.bytes with
    | (s', .ok) =>
      match s'.findRec e k.look.part k.look.key with
      | some (_, b, j) => (s'.cacheUse e b j true).1
      | none => s'
    | (_, .noRoom) =>
      match s.findRec e k.look.part k.look.key with
      | some (_, b, j) => (s.removeRec e b j t f.key.bytes).createFail e r t
      | none => s.createFail e r t
  else if mode = 2 && !k.isNew then
    let s := s.snapFix e t (s.rb (FE_PART_CFG.MODE e k.look.part)) (s.keyBuckets e k.look.part k.look.key)
    match s.findRec e k.look.part k.look.key with
    | some (_, b, j) => s.removeRec e b j t f.key.bytes
    | none => s
  else s

/-- Release the buffered export entries in EMIT order (R305, R314, R468). -/
def State.export (s : State) (e : Nat) (k : FKey) : List ExpEnt → State
  | [] => s
  | x :: l =>
    let s :=
      if s.streamRouted e x.stream then
        s.raiseRec ⟨regionSrc 0x346 e + x.stream, 5, x.words.getD 0 0, x.words.getD 1 0, x.words.length - 1, bytesLE 10 k.num⟩
      else
        let s := s.count (PMP_CNT.COUNT e 6) k.stroke
        if s.rb (PMP_EXPORT_CFG.EN e x.stream) then s.pmpErr (PMP_ERR.EXPORT_UNROUTED e) e else s
    s.export e k l

/-- Apply the buffered histogram adds (R277). -/
def State.histAdds (s : State) (e : Nat) : List (Nat × Nat) → State
  | [] => s
  | (set, b) :: l =>
    let i := e * 2 ^ 18 + set * 64 + b
    (s.withHists (mset 0 s.hists i (min (mget 0 s.hists i + 1) (2 ^ 32 - 1)))).histAdds e l

/-- The check of the group entry that the release of a committed frame reads: `flt` 3 for an error that the retry mended, 4 for one that stays. Its
LOC in the error log is free (log entry 214). -/
def State.commitGroup (s : State) (f : Frame) (flt : Nat) : State :=
  if flt = 3 then (s.groupCheck f (.retried (BitVec.ofNat 18 (s.freeBits 18)))).nextFree
  else if flt = 4 then (s.groupCheck f (.failed (BitVec.ofNat 18 (s.freeBits 18)))).nextFree
  else s

/-- A COMMIT takes effect (Table PU-5) and ends its pass. -/
def State.commitPassNow (s : State) (e p c : Nat) (k : PumpCtx) (mode flt : Nat) : State :=
  let f := k.look.frame
  let g := { f with verd := k.verd, rewrites := if actFwd f.act = 3 then [] else k.rwr }
  let s := (s.countWord e p c k 2).endPass e p c k
  if k.verdict then (s.mapLookup e f.key (fun l => { l with released := true, inPass := false })).commitGroup g flt |>.verdict g
  else
    let s := if s.pairChanges f.key.stroke then (s.commitRecord e k mode).histAdds e k.hist else s
    let s := (if actFwd f.act = 3 then s else s.export e f.key k.exps).dropLookup e f.key
    if k.look.released then s else (s.commitGroup g flt).verdict g

def mCommit (e p c x flt : Nat) (s : State) : State :=
  let mode := bits x 0 2
  let s' := s.issue e p c (word 0x38 x) flt (fun s k =>
    if bits x 2 24 != 0 || mode = 3 then .fault 2
    else if !(k.winOk && s.commitTurn e k) then .stall 4 0
    else if s.commitReady e k then .wait k 5 mode else .stall 7 0)
  match s.ctx e p c, s'.ctx e p c with
  | some k, some k' =>
    if k'.wait = some (5, mode) then
      let t := s.commitPassNow e p c k mode flt
      if flt != 2 then s.orWait t
      else if s.mayChange t then t.noteCause e p c k 0x11 none
      else (s.orWait t).abandon e p c k 0x11
    else if k'.wait = some (7, 0) && k.wait.isNone then s'.exportStall e
    else s'
  | _, _ => s'

def mFail (e p c x flt : Nat) (s : State) : State :=
  let code := bits x 0 8
  let s' := s.issue e p c (word 0x39 x) flt (fun _ k => if bits x 8 18 != 0 || code < 0x80 then .fault 2 else .wait k 6 code)
  match s.ctx e p c, s'.ctx e p c with
  | some k, some k' =>
    if k'.wait = some (6, code) then
      ((s.countWord e p c k 1).count (PMP_CNT.COUNT e 4) k.look.frame.key.stroke).failPass e p c k code
    else s'
  | _, _ => s'

/-! ### The pool and the pump test (R317, R318) -/

/-- Give the passes of pump `p` back to the dispatcher, ahead of those that wait (cause 0x13). -/
def State.emptyPump (s : State) (e p : Nat) : State :=
  (List.range 8).reverse.foldl (fun s c => match s.ctx e p c with
    | some k =>
      let s := s.setCtx e p c none
      let x := s.eng e
      s.setEng e { x with passes := ⟨k.look, k.verdict, k.restarts, some k.since, k.latency, k.md⟩ :: x.passes }
    | none => s) s

/-- A write of `PMP_POOL` (R317). -/
def poolWrite (e v : Nat) (s : State) : State :=
  let old := s.rf (PMP_POOL.IN_POOL e)
  let tested := s.rf (PMP_TEST_STATUS.PUMP e)
  if v % 2 ^ 32 = 0 || (s.rb (PMP_TEST_STATUS.BUSY e) && bit v tested && !bit old tested) then s.pmpErr (PMP_ERR.CFG_REJECT e) e
  else
    let s := s.wf (PMP_POOL.IN_POOL e) v
    (List.range 32).foldl (fun s p => if bit old p && !bit v p then s.emptyPump e p else s) s

/-- A write of `PMP_TEST` (R318). -/
def pumpTestWrite (e v : Nat) (s : State) : State :=
  let s := s.wf (PMP_TEST.PUMP e) v
  if !bit v 5 then s
  else
    let p := v % 32
    if bit (s.rf (PMP_POOL.IN_POOL e)) p || s.rb (PMP_TEST_STATUS.BUSY e) then s.pmpErr (PMP_ERR.CFG_REJECT e) e
    else (s.wf (PMP_TEST_STATUS.BUSY e) 1).wf (PMP_TEST_STATUS.PUMP e) p

/-- The pump test ends (R318). -/
def pumpTestEnd (e : Nat) (pass : Bool) (s : State) : State :=
  if s.rb (PMP_TEST_STATUS.BUSY e) then
    let s := ((s.wf (PMP_TEST_STATUS.BUSY e) 0).wb (PMP_TEST_STATUS.PASS e) pass).wb (PMP_TEST_STATUS.FAIL e) (!pass)
    s.raise (regionSrc 0x345 e) (s.reg (PMP_TEST_STATUS.w e)).toNat
  else s

/-- A write of `PMP_RT_HIST_SEL` (R601): the routine's bins and maximum enter the read window; CLEAR zeroes them in the same step. -/
def rtHistCopy (e v : Nat) (s : State) : State :=
  let i := e * 2 ^ 15 + v % 256 * 128
  let s := (List.range 64).foldl (fun s b => s.wf (PMP_RT_HIST_BIN.COUNT e b) (mget 0 s.rtHist (i + b))) s
  let s := s.wf (PMP_RT_HIST_MAX.NS e) (mget 0 s.rtHist (i + 64))
  let s := ((s.wf (PMP_RT_HIST_SEL.ROUTINE e) v).wf (PMP_RT_HIST_SEL.CLEAR e) (v / 256)).wf (PMP_RT_HIST_SEL.READY e) 1
  if bit v 8 then s.withRtHist (s.rtHist.filter (fun p => p.1 < i || i + 128 ≤ p.1)) else s

/-! ### Meanings -/

def execAdd (e : Region) (p : Fin 32) (c : Oct) (x : BitVec 26) (flt : Fin 3) (s : State) : Host.Outcome State Fault Refusal :=
  .next (if s.running && s.regionOn e then mAdd e p c x.toNat flt s else s)

def execSub (e : Region) (p : Fin 32) (c : Oct) (x : BitVec 26) (flt : Fin 3) (s : State) : Host.Outcome State Fault Refusal :=
  .next (if s.running && s.regionOn e then mSub e p c x.toNat flt s else s)

def execAnd (e : Region) (p : Fin 32) (c : Oct) (x : BitVec 26) (flt : Fin 3) (s : State) : Host.Outcome State Fault Refusal :=
  .next (if s.running && s.regionOn e then mAnd e p c x.toNat flt s else s)

def execOr (e : Region) (p : Fin 32) (c : Oct) (x : BitVec 26) (flt : Fin 3) (s : State) : Host.Outcome State Fault Refusal :=
  .next (if s.running && s.regionOn e then mOr e p c x.toNat flt s else s)

def execXor (e : Region) (p : Fin 32) (c : Oct) (x : BitVec 26) (flt : Fin 3) (s : State) : Host.Outcome State Fault Refusal :=
  .next (if s.running && s.regionOn e then mXor e p c x.toNat flt s else s)

def execShl (e : Region) (p : Fin 32) (c : Oct) (x : BitVec 26) (flt : Fin 3) (s : State) : Host.Outcome State Fault Refusal :=
  .next (if s.running && s.regionOn e then mShl e p c x.toNat flt s else s)

def execShr (e : Region) (p : Fin 32) (c : Oct) (x : BitVec 26) (flt : Fin 3) (s : State) : Host.Outcome State Fault Refusal :=
  .next (if s.running && s.regionOn e then mShr e p c x.toNat flt s else s)

def execSar (e : Region) (p : Fin 32) (c : Oct) (x : BitVec 26) (flt : Fin 3) (s : State) : Host.Outcome State Fault Refusal :=
  .next (if s.running && s.regionOn e then mSar e p c x.toNat flt s else s)

def execMul (e : Region) (p : Fin 32) (c : Oct) (x : BitVec 26) (flt : Fin 3) (s : State) : Host.Outcome State Fault Refusal :=
  .next (if s.running && s.regionOn e then mMul e p c x.toNat flt s else s)

def execMinu (e : Region) (p : Fin 32) (c : Oct) (x : BitVec 26) (flt : Fin 3) (s : State) : Host.Outcome State Fault Refusal :=
  .next (if s.running && s.regionOn e then mMinu e p c x.toNat flt s else s)

def execMaxu (e : Region) (p : Fin 32) (c : Oct) (x : BitVec 26) (flt : Fin 3) (s : State) : Host.Outcome State Fault Refusal :=
  .next (if s.running && s.regionOn e then mMaxu e p c x.toNat flt s else s)

def execSltu (e : Region) (p : Fin 32) (c : Oct) (x : BitVec 26) (flt : Fin 3) (s : State) : Host.Outcome State Fault Refusal :=
  .next (if s.running && s.regionOn e then mSltu e p c x.toNat flt s else s)

def execBswap (e : Region) (p : Fin 32) (c : Oct) (x : BitVec 26) (flt : Fin 3) (s : State) : Host.Outcome State Fault Refusal :=
  .next (if s.running && s.regionOn e then mBswap e p c x.toNat flt s else s)

def execAddi (e : Region) (p : Fin 32) (c : Oct) (x : BitVec 26) (flt : Fin 3) (s : State) : Host.Outcome State Fault Refusal :=
  .next (if s.running && s.regionOn e then mAddi e p c x.toNat flt s else s)

def execAndi (e : Region) (p : Fin 32) (c : Oct) (x : BitVec 26) (flt : Fin 3) (s : State) : Host.Outcome State Fault Refusal :=
  .next (if s.running && s.regionOn e then mAndi e p c x.toNat flt s else s)

def execOri (e : Region) (p : Fin 32) (c : Oct) (x : BitVec 26) (flt : Fin 3) (s : State) : Host.Outcome State Fault Refusal :=
  .next (if s.running && s.regionOn e then mOri e p c x.toNat flt s else s)

def execXori (e : Region) (p : Fin 32) (c : Oct) (x : BitVec 26) (flt : Fin 3) (s : State) : Host.Outcome State Fault Refusal :=
  .next (if s.running && s.regionOn e then mXori e p c x.toNat flt s else s)

def execLui (e : Region) (p : Fin 32) (c : Oct) (x : BitVec 26) (flt : Fin 3) (s : State) : Host.Outcome State Fault Refusal :=
  .next (if s.running && s.regionOn e then mLui e p c x.toNat flt s else s)

def execShli (e : Region) (p : Fin 32) (c : Oct) (x : BitVec 26) (flt : Fin 3) (s : State) : Host.Outcome State Fault Refusal :=
  .next (if s.running && s.regionOn e then mShli e p c x.toNat flt s else s)

def execShri (e : Region) (p : Fin 32) (c : Oct) (x : BitVec 26) (flt : Fin 3) (s : State) : Host.Outcome State Fault Refusal :=
  .next (if s.running && s.regionOn e then mShri e p c x.toNat flt s else s)

def execExt (e : Region) (p : Fin 32) (c : Oct) (x : BitVec 26) (flt : Fin 3) (s : State) : Host.Outcome State Fault Refusal :=
  .next (if s.running && s.regionOn e then mExt e p c x.toNat flt s else s)

def execIns (e : Region) (p : Fin 32) (c : Oct) (x : BitVec 26) (flt : Fin 3) (s : State) : Host.Outcome State Fault Refusal :=
  .next (if s.running && s.regionOn e then mIns e p c x.toNat flt s else s)

def execSltiu (e : Region) (p : Fin 32) (c : Oct) (x : BitVec 26) (flt : Fin 3) (s : State) : Host.Outcome State Fault Refusal :=
  .next (if s.running && s.regionOn e then mSltiu e p c x.toNat flt s else s)

def execLi (e : Region) (p : Fin 32) (c : Oct) (x : BitVec 26) (flt : Fin 3) (s : State) : Host.Outcome State Fault Refusal :=
  .next (if s.running && s.regionOn e then mLi e p c x.toNat flt s else s)

def execBeq (e : Region) (p : Fin 32) (c : Oct) (x : BitVec 26) (flt : Fin 3) (s : State) : Host.Outcome State Fault Refusal :=
  .next (if s.running && s.regionOn e then mBeq e p c x.toNat flt s else s)

def execBne (e : Region) (p : Fin 32) (c : Oct) (x : BitVec 26) (flt : Fin 3) (s : State) : Host.Outcome State Fault Refusal :=
  .next (if s.running && s.regionOn e then mBne e p c x.toNat flt s else s)

def execBltu (e : Region) (p : Fin 32) (c : Oct) (x : BitVec 26) (flt : Fin 3) (s : State) : Host.Outcome State Fault Refusal :=
  .next (if s.running && s.regionOn e then mBltu e p c x.toNat flt s else s)

def execBgeu (e : Region) (p : Fin 32) (c : Oct) (x : BitVec 26) (flt : Fin 3) (s : State) : Host.Outcome State Fault Refusal :=
  .next (if s.running && s.regionOn e then mBgeu e p c x.toNat flt s else s)

def execBbs (e : Region) (p : Fin 32) (c : Oct) (x : BitVec 26) (flt : Fin 3) (s : State) : Host.Outcome State Fault Refusal :=
  .next (if s.running && s.regionOn e then mBbs e p c x.toNat flt s else s)

def execBbc (e : Region) (p : Fin 32) (c : Oct) (x : BitVec 26) (flt : Fin 3) (s : State) : Host.Outcome State Fault Refusal :=
  .next (if s.running && s.regionOn e then mBbc e p c x.toNat flt s else s)

def execJmp (e : Region) (p : Fin 32) (c : Oct) (x : BitVec 26) (flt : Fin 3) (s : State) : Host.Outcome State Fault Refusal :=
  .next (if s.running && s.regionOn e then mJmp e p c x.toNat flt s else s)

def execJal (e : Region) (p : Fin 32) (c : Oct) (x : BitVec 26) (flt : Fin 3) (s : State) : Host.Outcome State Fault Refusal :=
  .next (if s.running && s.regionOn e then mJal e p c x.toNat flt s else s)

def execJr (e : Region) (p : Fin 32) (c : Oct) (x : BitVec 26) (flt : Fin 3) (s : State) : Host.Outcome State Fault Refusal :=
  .next (if s.running && s.regionOn e then mJr e p c x.toNat flt s else s)

def execLdr (e : Region) (p : Fin 32) (c : Oct) (x : BitVec 26) (flt : Fin 3) (s : State) : Host.Outcome State Fault Refusal :=
  .next (if s.running && s.regionOn e then mLdr e p c x.toNat flt s else s)

def execStr (e : Region) (p : Fin 32) (c : Oct) (x : BitVec 26) (flt : Fin 3) (s : State) : Host.Outcome State Fault Refusal :=
  .next (if s.running && s.regionOn e then mStr e p c x.toNat flt s else s)

def execLdm (e : Region) (p : Fin 32) (c : Oct) (x : BitVec 26) (flt : Fin 3) (s : State) : Host.Outcome State Fault Refusal :=
  .next (if s.running && s.regionOn e then mLdm e p c x.toNat flt s else s)

def execLdf (e : Region) (p : Fin 32) (c : Oct) (x : BitVec 26) (flt : Fin 3) (s : State) : Host.Outcome State Fault Refusal :=
  .next (if s.running && s.regionOn e then mLdf e p c x.toNat flt s else s)

def execStf (e : Region) (p : Fin 32) (c : Oct) (x : BitVec 26) (flt : Fin 3) (s : State) : Host.Outcome State Fault Refusal :=
  .next (if s.running && s.regionOn e then mStf e p c x.toNat flt s else s)

def execHash (e : Region) (p : Fin 32) (c : Oct) (x : BitVec 26) (flt : Fin 3) (s : State) : Host.Outcome State Fault Refusal :=
  .next (if s.running && s.regionOn e then mHash e p c x.toNat flt s else s)

def execCadd (e : Region) (p : Fin 32) (c : Oct) (x : BitVec 26) (flt : Fin 3) (s : State) : Host.Outcome State Fault Refusal :=
  .next (if s.running && s.regionOn e then mCadd e p c x.toNat flt s else s)

def execHadd (e : Region) (p : Fin 32) (c : Oct) (x : BitVec 26) (flt : Fin 3) (s : State) : Host.Outcome State Fault Refusal :=
  .next (if s.running && s.regionOn e then mHadd e p c x.toNat flt s else s)

def execRwr (e : Region) (p : Fin 32) (c : Oct) (x : BitVec 26) (flt : Fin 3) (s : State) : Host.Outcome State Fault Refusal :=
  .next (if s.running && s.regionOn e then mRwr e p c x.toNat flt s else s)

def execEmit (e : Region) (p : Fin 32) (c : Oct) (x : BitVec 26) (flt : Fin 3) (s : State) : Host.Outcome State Fault Refusal :=
  .next (if s.running && s.regionOn e then mEmit e p c x.toNat flt s else s)

def execVerd (e : Region) (p : Fin 32) (c : Oct) (x : BitVec 26) (flt : Fin 3) (s : State) : Host.Outcome State Fault Refusal :=
  .next (if s.running && s.regionOn e then mVerd e p c x.toNat flt s else s)

def execWait (e : Region) (p : Fin 32) (c : Oct) (x : BitVec 26) (flt : Fin 3) (s : State) : Host.Outcome State Fault Refusal :=
  .next (if s.running && s.regionOn e then mWait e p c x.toNat flt s else s)

def execCommit (e : Region) (p : Fin 32) (c : Oct) (x : BitVec 26) (flt : Fin 5) (s : State) : Host.Outcome State Fault Refusal :=
  .next (if s.running && s.regionOn e then mCommit e p c x.toNat flt s else s)

def execFail (e : Region) (p : Fin 32) (c : Oct) (x : BitVec 26) (flt : Fin 3) (s : State) : Host.Outcome State Fault Refusal :=
  .next (if s.running && s.regionOn e then mFail e p c x.toNat flt s else s)

def execNop (e : Region) (p : Fin 32) (c : Oct) (x : BitVec 26) (flt : Fin 3) (s : State) : Host.Outcome State Fault Refusal :=
  .next (if s.running && s.regionOn e then mNop e p c x.toNat flt s else s)

def execIllegal (e : Region) (p : Fin 32) (c : Oct) (w : Word) (flt : Fin 3) (s : State) : Host.Outcome State Fault Refusal :=
  .next (if s.running && s.regionOn e then mIllegal e p c w.toNat flt s else s)

def execPassDispatch (e : Region) (rd : BindRead) (s : State) : Host.Outcome State Fault Refusal :=
  .next (if s.running && s.regionOn e then passDispatch e rd s else s)

def execWaitSatisfied (e : Region) (p : Fin 32) (c : Oct) (s : State) : Host.Outcome State Fault Refusal :=
  .next (if s.running && s.regionOn e then waitSatisfied e p c s else s)

def execPmpPoolWrite (e : Region) (v : Word) (s : State) : Host.Outcome State Fault Refusal :=
  .next (onWrite (poolWrite e v.toNat) s)

def execPumpTestStart (e : Region) (v : Word) (s : State) : Host.Outcome State Fault Refusal :=
  .next (onWrite (pumpTestWrite e (putBits v.toNat 5 1 1)) s)

def execPumpTestEnd (e : Region) (pass : Bool) (s : State) : Host.Outcome State Fault Refusal :=
  .next (if s.alive then pumpTestEnd e pass s else s)

def execRoutineHistCopy (e : Region) (v : Word) (s : State) : Host.Outcome State Fault Refusal :=
  .next (onWrite (rtHistCopy e v.toNat) s)

end Sys2Proof.Machine
end

