-- ==== Sys2Proof/Machine/Quarantine.lean ====
section
/-! DEFINITION. Region quarantine (R19, R35, R564 to R566): entering DRAIN, with all that R565 discards, answers and completes. -/

namespace Sys2Proof.Machine

/-! ### What the lanes transmit -/

/-- A lane. -/
def State.lanex (s : State) (g l : Nat) : LaneX := mget {} s.lanes (g * 64 + l)
def State.setLanex (s : State) (g l : Nat) (x : LaneX) : State := s.withLanes (mset {} s.lanes (g * 64 + l) x)

/-- The rate that lane `m` runs at (R124). -/
def State.rateOf (s : State) (g m : Nat) : Nat := if g = 8 then 1 else (s.lanex g m).rate

/-- The ports of lane group `g` transmit electrical idle, as their region is out of RUN (R565). -/
def State.regionIdle (s : State) (g : Nat) : Bool := decide (g < 8) && !s.regionRuns g

/-- What a lane transmits: its generator's pattern; electrical idle, when it is marked failed (R114) or its region is out of RUN (R565); what it
receives, in far-end loopback; or the data of its port (R124, Table SL-10). -/
def State.laneSource (s : State) (g m : Nat) : Nat :=
  if s.rb (LANE_PRBS_CFG.GEN_EN g m) then prbsPat (s.rateOf g m) (s.rf (LANE_PRBS_CFG.GEN_PAT g m))
  else if s.rb (LANE_STATUS.FAILED g m) || s.regionIdle g then 10
  else if s.rf (LANE_CFG.LOOPBACK g m) = 2 then 9 else 8

/-- A lane's transmitted data changes its source. -/
def State.noteSource (s : State) (g m was : Nat) : State :=
  if s.laneSource g m = was then s else s.emit (.lane g m (s.laneSource g m))

/-- The lanes of region `n` transmit what its state now lets them: `was` is the state of the machine before. -/
def State.regionSources (s was : State) (n : Nat) : State := (List.range 64).foldl (fun s m => s.noteSource n m (was.laneSource n m)) s

/-! ### Entering DRAIN -/

/-- Set a bit of `REG_ERR`, raising event 0x370. -/
def State.regErr (s : State) (f : Fld) (n : Nat) : State := s.setErr f (regionSrc 0x370 n)

/-- Enter a quarantine state (R566). -/
def State.enterRegion (s : State) (n st : Nat) : State :=
  let s := s.wf (REG_Q_STATUS.STATE n) st
  s.raise (regionSrc 0x371 n) (s.reg (REG_Q_STATUS.w n)).toNat

/-- Count a frame that the quarantine of region `n` discards (log entry 40). -/
def State.countLost (s : State) (n : Nat) (f : Frame) : State := s.cisCount n 7 f.key.stroke

/-- Discard the frames of an ingress pipeline of region `n`; no rule-set bank drains there any more (R190). -/
def State.emptyPipe (s : State) (n p : Nat) : State :=
  let x := s.pipe n p
  let s := s.setPipe n p { x with inq := [], rob := [], cls := [], tbl := [], flow := [], lastSwitch := none }
  let s := (s.parseStatus n p).wf (IP_CL_STATUS.DRAINING n p) 0
  let s := (x.rob.filter RobSlot.gone).foldl (fun s r => s.dropIn r.frame) s
  x.frames.foldl (fun s f => (s.countLost n f).dropIn f) s

/-- A frame that no verdict has released yet, of region `n`. -/
def unreleased (n : Nat) (l : Lookup) : Bool := l.frame.region = n && !l.released

/-- Discard the unreleased frames of region `n` that engine `e` holds; their passes end with no effects (R309). -/
def State.emptyLookups (s : State) (n e : Nat) : State :=
  let x := s.eng e
  let gone := x.lookups.filter (unreleased n)
  let s := s.setEng e { x with passes := x.passes.filter (fun r => !unreleased n r.look) }
  let s := s.setLookups e (x.lookups.filter (fun l => !unreleased n l))
  let s := s.endPasses e (fun c => unreleased n c.look)
  gone.foldl (fun s l => (s.countLost n l.frame).dropIn l.frame) s

/-- Every other lookup of engine `n` is answered without a record; its passes end (R565). -/
def State.answerLookups (s : State) (n : Nat) : State :=
  let x := s.eng n
  let s := (s.setEng n { x with passes := [] }).setLookups n []
  let s := s.endPasses n (fun _ => true)
  (x.lookups.filter (fun l => !l.released)).foldl (fun s l =>
    (s.count (FE_CNT.COUNT l.frame.region 2) l.frame.key.stroke).bypassAct n l.frame) s

/-- Empty the virtual output queues of region `n`. -/
def State.emptyVoqs (s : State) (n : Nat) : State :=
  let ents := (s.rx n).voq.flatMap (·.2.ents)
  let s := s.setRx n { s.rx n with voq := [] }
  (ents.foldl (fun s e => (s.countLost n e.frame).dropEnt n e) s).noteSpill n

/-- Empty the egress class queues of region `n`, its host channels and what waits to recirculate. -/
def State.emptyEgress (s : State) (n : Nat) : State :=
  let qs := (s.rx n).eq
  let s := qs.foldl (fun s p => p.2.ents.foldl (fun s e => (s.countLost n e.frame).loseEg n e.frame 14) (s.setEgEnts n p.1 [])) s
  let w := (s.recircx n).waiting
  let s := s.setRecircx n { s.recircx n with waiting := [] }
  let s := w.foldl (fun s f => (s.countLost n f).loseEg n f 14) s
  [2 * n, 2 * n + 1].foldl (fun s c =>
    match mget none s.hostRx c with
    | none => s
    | some (f, _) => ((s.withHostRx (mset none s.hostRx c none)).countLost n f).loseEg n f 15) s

/-- Frames crossing from or to region `n` are discarded. -/
def State.emptyXfers (s : State) (n : Nat) : State :=
  let mine := fun (p : Nat × XferX) => decide (p.1 / 8 = n) || decide (p.1 % 8 = n)
  let gone := s.wind.xfer.filter mine
  let s := s.withWind { s.wind with xfer := s.wind.xfer.filter (fun p => !mine p) }
  gone.foldl (fun s p => ((s.countLost n p.2.ent.frame).freeCopy (p.1 % 8) p.2.buf 11 true).dropEnt (p.1 / 8) p.2.ent) s

/-- The stroke of a FLOW_SNAPSHOT command (R261, R459). -/
def State.snapStroke (s : State) (c : CmdX) : Nat := if c.sched then c.stroke else (s.strokeNow + 64) % 2 ^ 48

/-- The commands of a list, each once. -/
def onceEach : List CmdX → List CmdX
  | [] => []
  | c :: l => c :: (onceEach l).filter (fun d => !(d.ring = c.ring && d.ix = c.ix))

/-- Take a scheduled flow command out of every engine's queue. -/
def State.unqueueFlow (s : State) (c : CmdX) : State :=
  (List.range 8).foldl (fun s e =>
    s.setEng e { s.eng e with sched := (s.eng e).sched.filter (fun d => !(d.ring = c.ring && d.ix = c.ix)) }) s

/-- Scheduled commands of region `n`, those of global partitions homed in its engine, and its snapshot complete with QUARANTINED
(R565). -/
def State.quarantineCmds (s : State) (n : Nat) : State :=
  let t := s.tbl n
  let x := s.eng n
  let mine := onceEach (x.sched ++ (List.range 8).flatMap (fun e => (s.eng e).sched.filter (fun c => c.region = n)))
  let s := ((s.setTbl n { t with sched := [] }).wf (TBL_STATUS.SCHED_QUEUED n) 0).setEng n { x with snap := none }
  let s := (s.writeBackAll n).wf (FE_STATUS.SNAP_ACTIVE n) 0
  let s := mine.foldl State.unqueueFlow s
  let s := (t.sched ++ mine).foldl (fun s c => s.cmdDone c 9 s.strokeNow) s
  match x.snap with
  | some a => s.cmdDone a.cmd 9 a.stroke
  | none => s

/-- Meter slots of region `n` are cancelled, and requests at its meter are answered red (R386). -/
def State.quarantineMeters (s : State) (n : Nat) : State :=
  let rs := (s.rx n).reqs
  let s := ((s.setSlots n []).setRx n { (s.setSlots n []).rx n with reqs := [], slotBad := [] }).wf (TM_STATUS.METER_QUEUED n) 0
  rs.foldl (fun s r => (s.count (TM_CNT.COUNT n 7) r.key.stroke).colourReturn r.src r.key 2 none) s

/-- Transmit chains for the host channels of region `n` that are not complete are dropped (R565). -/
def State.quarantineTx (s : State) (n : Nat) : State :=
  let l := s.txs.map (fun x => if x.chan / 2 = n then { x with frags := none }.finish 1 0 0 else x)
  (s.withTxs l).txPost [] [] l

/-- Region `n` enters DRAIN (R35, R565): its transmitters send electrical idle, and the cache writes back its dirty lines. -/
def State.drain (s : State) (n cause : Nat) : State :=
  let was := s
  let s := (s.wf (REG_Q_STATUS.CAUSE n) cause).wf (REG_Q_STROKE.STROKE n) s.strokeNow
  let s := s.wf SP_STATUS.QUARANTINED (putBits (s.rf SP_STATUS.QUARANTINED) n 1 1)
  let s := (s.detSet CHIP_DET_STATUS.QUARANTINE s.strokeNow).regErr (REG_ERR.QUARANTINED n) n
  let s := s.enterRegion n rgDrain
  let s := ((s.quarantineTx n).emptyPipe n 0).emptyPipe n 1
  let s := (List.range 8).foldl (fun s e => s.emptyLookups n e) s
  let s := (s.quarantineCmds n).answerLookups n
  let s := ((((s.emptyXfers n).emptyVoqs n).emptyEgress n).quarantineMeters n).regionSources was n
  s.wf SP_STATUS.LOWEST s.lowest

/-- A hardware cause quarantines region `n` (R564): nothing while it is quarantined already; a third region halts the device. -/
def State.quarantine (s : State) (n cause : Nat) : State :=
  if !s.regionRuns n then s
  else if 2 ≤ s.quarantinedBut n then s.haltDev 0x21
  else s.drain n cause

/-- A block error of region `n` that cannot be contained quarantines it (R19, R564). With the cause in the flow engine the dirty lines of its cache
are lost and counted (R565). -/
def State.escalate (s : State) (n : Nat) (flow : Bool) : State :=
  let s := if flow && s.regionRuns n && decide (s.quarantinedBut n < 2) then
      (s.eng n).dirty.foldl (fun s i => s.loseRec n (i / 4) (i % 4) false) s else s
  s.quarantine n 3

end Sys2Proof.Machine
end

