-- ==== Sys2Proof/Machine/Rewrite.lean ====
section
/-! DEFINITION. What the egress pipeline does to a frame's bytes (R180, R210, R299): next-hop, routine and action rewrites in their
order, tags, TTL and DSCP, checksums (R73), and the ECN mark of R354. -/

namespace Sys2Proof.Machine

/-- The place of a header that lay at `h` when the frame was parsed, after tags have made the frame `old` bytes into `new`: headers
behind the addresses move (log entry 21). -/
def movedTo (old new h : Nat) : Nat := if h < 12 then h else h + new - old

/-- Send with outer VID `v` (Table FT-2): set it in the outer tag, or push a tag of priority 0 (log entry 21). -/
def setVid (v : Nat) (d : List Byte) : List Byte :=
  if tagged d then putBe16 d 14 (outerTci d / 4096 * 4096 + v % 4096) else pushTag 0x8100 (v % 4096) d

/-- The rewrites of a next hop (Table FT-2): destination, source and outer tag. -/
def routedHeader (da sa nh : Nat) (d : List Byte) : List Byte :=
  let d := overwrite (overwrite d 0 (bytesBE 6 da)) 6 (bytesBE 6 sa)
  if bit nh 77 then setVid (bits nh 48 12) d else if tagged d then popTag d else d

/-- A routine's rewrite at its header's place (R299); none when its slot is empty or it would pass the frame's end. -/
def applyRwr (old : Nat) (hv : List Byte) (d : List Byte) (r : Rwr) : Option (List Byte) :=
  let h := hvSlot hv r.slot
  let i := movedTo old d.length h + r.off
  if h = 0xFFFF || decide (d.length < i + r.bytes.length) then none
  else some (fixSums d (overwrite d i r.bytes))

/-- Apply buffered rewrites in order; the numbers applied and not applied. -/
def applyRwrs (old : Nat) (hv : List Byte) : List Byte → List Rwr → List Byte × Nat × Nat
  | d, [] => (d, 0, 0)
  | d, r :: l =>
    match applyRwr old hv d r with
    | some d' => let x := applyRwrs old hv d' l; (x.1, x.2.1 + 1, x.2.2)
    | none => let x := applyRwrs old hv d l; (x.1, x.2.1, x.2.2 + 1)

/-- VLAN_OP (Table CL-3): 1 pushes a tag, 2 pops the outer tag, 3 sets the outer VID and PCP. -/
def vlanOp (a : Nat) (d : List Byte) : List Byte :=
  match actVlanOp a with
  | 1 => pushTag 0x8100 (actPcp a * 8192 + actVid a) d
  | 2 => if tagged d then popTag d else d
  | 3 => if tagged d then putBe16 d 14 (actPcp a * 8192 + outerTci d / 4096 % 2 * 4096 + actVid a) else d
  | _ => d

/-- The place of the TTL or hop limit. -/
def ttlAt (h : Headers) : Nat := if h.v6 then h.ip + 7 else h.ip + 8

/-- TTL_DEC: none drops the frame (R180). -/
def ttlDec (d : List Byte) : Option (List Byte) :=
  match findHeaders d 0 with
  | none => some d
  | some h =>
    let t := byteAt d (ttlAt h)
    if t ≤ 1 then none else some (fixSums d (overwrite d (ttlAt h) (bytesBE 1 (t - 1))))

/-- The traffic class of the IP header at `i`. -/
def tclass (d : List Byte) (i : Nat) : Nat := if byteAt d i / 16 = 6 then be16 d i / 16 % 256 else byteAt d (i + 1)

/-- Put a traffic class, keeping checksums. -/
def setTclass (d : List Byte) (i v : Nat) : List Byte :=
  fixSums d (if byteAt d i / 16 = 6 then putBe16 d i (be16 d i / 4096 * 4096 + v % 256 * 16 + be16 d i % 16)
    else overwrite d (i + 1) (bytesBE 1 v))

/-- DSCP_EN: set the DSCP of an IP frame. -/
def setDscp (v : Nat) (d : List Byte) : List Byte :=
  match findHeaders d 0 with
  | none => d
  | some h => setTclass d h.ip (v % 64 * 4 + tclass d h.ip % 4)

/-- The action's rewrites in their order (R180); none drops the frame. -/
def actionRewrites (a : Nat) (d : List Byte) : Option (List Byte) :=
  let d := vlanOp a d
  match (if actTtl a then ttlDec d else some d) with
  | none => none
  | some d => some (if actDscpEn a then setDscp (actDscp a) d else d)

/-- The source address of a router MAC entry. -/
def State.routerMac (s : State) (n i : Nat) : Nat := s.rf (TBL_RMAC.ADDR_HI n i) * 2 ^ 32 + s.rf (TBL_RMAC.ADDR_LO n i)

/-- Count an event of the egress pipeline of region `j` that serves port `p`. -/
def State.egEv (s : State) (j p code n : Nat) (f : Frame) : State :=
  if n = 0 then s else s.ev (80 + 2 * j + pipeOf p) code none n f.key.stroke f.key.num

/-- All rewrites of a frame for egress port `p` of region `j`, with the outer VID that a multicast node writes
into a tagged frame (R348, log entry 42); none when TTL_DEC drops it.
Copies leave as they were received. -/
def State.egressRewrite (s : State) (j p : Nat) (f : Frame) (vid : Option Nat) : State × Option (List Byte) :=
  let s := s.egEv j p 0x10 1 f
  let tag := fun (d : List Byte) => match vid with
    | some v => if tagged d then setVid v d else d
    | none => d
  if f.kind != 0 then (s, some (tag f.data))
  else
    let d := match f.dec.nh with
      | some v => routedHeader (bits v 0 48) (s.routerMac f.region (bits v 74 3)) v f.data
      | none => f.data
    let x := applyRwrs f.data.length f.hv (tag d) f.rewrites
    let s := s.setRx j { s.rx j with rwrSkipped := (s.rx j).rwrSkipped + x.2.2 }
    let s := (s.egEv j p 0x11 x.2.1 f).egEv j p 0x12 x.2.2 f
    match actionRewrites f.act x.1 with
    | none => (s, none)
    | some d =>
      let changed := x.2.1 != 0 || actTtl f.act || actDscpEn f.act
      (s.egEv j p 0x13 (b2n (changed && (findHeaders d 0).isSome)) f, some d)

end Sys2Proof.Machine
end

