-- ==== Sys2Proof/Machine/Switch.lean ====
section
/-! DEFINITION. The windlass and crossbar (R335 to R337, R344, R345), the sump (R339 to R343), multicast replication at the
destination (R348), and egress admission with RED (R352 to R354). -/

namespace Sys2Proof.Machine

/-! ### Heads (R335 to R337) -/

/-- Enqueue sequence `a` is older than `b`, in 32-bit serial arithmetic (R333). -/
def seqLt (a b : Nat) : Bool := decide (1 ≤ (b + 2 ^ 32 - a) % 2 ^ 32) && decide ((b + 2 ^ 32 - a) % 2 ^ 32 < 2 ^ 31)

/-- The head of list `l` of VOQ (d, c) of region `i`. -/
def State.headOf (s : State) (i d c l : Nat) : Option QEnt := (s.queue i (qIndex d c l)).ents.head?

/-- An entry's data can be read and its colour is known (R335, R389). -/
def canCross (e : QEnt) : Bool := !inSump e && !e.waitCol

/-- Port list `l` of destination region `d` may send in class `c`: its port is not frozen and its egress hold valve is released. -/
def State.listOpen (s : State) (d c l : Nat) : Bool :=
  !(decide (l < 64) && s.rb (pbf PB_PORT_STATUS.FROZEN d l)) && !(decide (l < 66) && decide (l * 16 + c ∈ (s.rx d).holdV))

/-- Region `j` can allocate the egress buffer of a frame (R345). -/
def State.canAlloc (s : State) (j : Nat) (f : Frame) : Bool := (s.pickPool j f.len).isSome

/-- The head of a port list is eligible and its buffer can be had. -/
def State.portHead (s : State) (i d c l : Nat) : Option QEnt :=
  match s.headOf i d c l with
  | none => none
  | some e =>
    let older := match s.headOf i d c 67 with
      | none => true
      | some m => seqLt e.seq m.seq
    if canCross e && s.listOpen d c l && older && s.canAlloc d e.frame then some e else none

/-- The head of the multicast list is eligible and its buffer can be had. -/
def State.mcHead (s : State) (i d c : Nat) : Option QEnt :=
  match s.headOf i d c 67 with
  | none => none
  | some m =>
    let first := (List.range 67).all (fun l => match s.headOf i d c l with
      | none => true
      | some e => seqLt m.seq e.seq)
    if canCross m && first && s.canAlloc d m.frame then some m else none

/-- The lists that a region's queues of VOQ (d, c) use. -/
def State.usedLists (s : State) (i d c : Nat) : List Nat :=
  (s.rx i).voq.filterMap (fun p => if p.1 / 68 = d * 16 + c then some (p.1 % 68) else none)

/-- The eligible head of lowest enqueue sequence of VOQ (d, c), recirculation apart (R336). -/
def State.voqHead (s : State) (i d c : Nat) : Option (Nat × QEnt) :=
  ((s.usedLists i d c).filterMap (fun l =>
      if l = 66 then none else (if l = 67 then s.mcHead i d c else s.portHead i d c l).map (fun e => (l, e)))).foldl
    (fun a x => match a with
      | none => some x
      | some y => if seqLt x.2.seq y.2.seq then some x else some y) none

/-- A recirculation head of region `i`, and its class: urgent classes first, then the lowest class (log entry 41). -/
def State.recircHead (s : State) (i : Nat) : Option (Nat × Nat × QEnt) :=
  let u := s.rf (CIS_CLASS_PRIO.URGENT i)
  let cs := (List.range 16).filter (bit u) ++ (List.range 16).filter (fun c => !bit u c)
  cs.findSome? (fun c => (s.portHead i i c 66).map (fun e => (c, 66, e)))

/-- The class served after `last` in a block round robin over those for which `p` holds (R15). -/
def rrNext (last : Nat) (p : Nat → Bool) : Option Nat := ((List.range 16).map (fun k => (last + 1 + k) % 16)).find? p

/-- The last class that output `j` took from input `i`, urgent (u = 1) or not. -/
def State.lastCls (s : State) (i j u : Nat) : Nat := mget 15 (s.rx i).rrCls (j * 2 + u)

/-- The head that input `i` sends to output `j` next: class, list and entry (R336). -/
def State.nextHead (s : State) (i j : Nat) : Option (Nat × Nat × QEnt) :=
  let u := s.rf (CIS_CLASS_PRIO.URGENT i)
  let pick := fun (k : Nat) => rrNext (s.lastCls i j k) (fun c => bit u c == (k == 1) && (s.voqHead i j c).isSome)
  match (match pick 1 with
    | some c => some c
    | none => pick 0) with
  | none => none
  | some c => (s.voqHead i j c).map (fun x => (c, x.1, x.2))

/-! ### Discards at a head (R337, R343, R389, R565) -/

/-- A queue leaves spill once its sump segment is empty (R339). -/
def State.spillCheck (s : State) (i q : Nat) : State :=
  let x := s.queue i q
  if x.spill && !x.ents.any inSump then (s.setQueue i q { x with spill := false }).noteSpill i else s

/-- An entry whose ingress buffer was found in error (R571, R576). -/
def State.badBuf (s : State) (e : QEnt) : Bool :=
  (decide (e.place = .cistern) || decide (e.place = .toSump)) && (s.bufx e.frame.region e.frame.buf).corrupt

/-- An entry to be discarded when it reaches its head. -/
def State.condemned (s : State) (d : Nat) (e : QEnt) : Bool :=
  e.marked || e.dropRed.isSome || !s.regionRuns d || (e.lost && e.place != .sump) || s.badBuf e

/-- Count a discarded head. -/
def State.countHead (s : State) (i d : Nat) (e : QEnt) : State :=
  let t := e.frame.key.stroke
  if e.marked || !s.regionRuns d then s.cisCount i 7 t
  else match e.dropRed with
    | some j => s.count (TM_CNT.COUNT j 3) t
    | none => s.cisCount i 10 t

/-- Discard the condemned heads of a queue. -/
def State.discardHeads (s : State) (i q : Nat) : Nat → State
  | 0 => s
  | k + 1 =>
    match (s.queue i q).ents with
    | [] => s
    | e :: l =>
      let d := q / 68 / 16
      if s.condemned d e then
        let s := (s.setQueue i q { s.queue i q with ents := l }).countHead i d e
        ((s.dropEnt i e).spillCheck i q).discardHeads i q k
      else s

/-- Discard the condemned heads of every queue of region `i`. -/
def State.discardAll (s : State) (i : Nat) : State :=
  ((s.rx i).voq.map (fun p => (p.1, p.2.ents.length))).foldl (fun s p => s.discardHeads i p.1 p.2) s

/-! ### The windlass (R344, R345) -/

def State.xfer (s : State) (i j : Nat) : Option XferX := (s.wind.xfer.find? (fun p => p.1 = i * 8 + j)).map (·.2)
def State.setXfer (s : State) (i j : Nat) (x : Option XferX) : State :=
  let l := s.wind.xfer.filter (fun p => p.1 != i * 8 + j)
  s.withWind { s.wind with xfer := match x with
    | some x => (i * 8 + j, x) :: l
    | none => l }

/-- A frame in progress is a recirculated one. -/
def isRecirc (i : Nat) (f : Frame) : Bool := f.dest = .port (528 + i)

/-- Input `i` has a recirculation cell ready. -/
def State.recircReady (s : State) (i : Nat) : Bool :=
  match s.xfer i i with
  | some x => isRecirc i x.ent.frame && decide (x.sent < x.total)
  | none => (s.recircHead i).isSome

/-- Input `i` has a cell ready for output `j`. -/
def State.cellReady (s : State) (i j : Nat) : Bool :=
  match s.xfer i j with
  | some x => decide (x.sent < x.total)
  | none => (decide (i = j) && (s.recircHead i).isSome) || (s.nextHead i j).isSome

/-- Begin the transfer of a head: it leaves its queue and its egress buffer is allocated. -/
def State.beginXfer (s : State) (i j c l : Nat) (e : QEnt) : State :=
  match s.pickPool j e.frame.len with
  | none => s
  | some k =>
    let q := qIndex j c l
    let s := (s.setQueue i q { s.queue i q with ents := (s.queue i q).ents.drop 1 }).spillCheck i q
    let u := b2n (bit (s.rf (CIS_CLASS_PRIO.URGENT i)) c)
    let s := if l = 66 then s else s.setRx i { s.rx i with rrCls := mset 15 (s.rx i).rrCls (j * 2 + u) c }
    let (s, h) := s.takeBuf j k true 0 0
    let s := s.ev (112 + j) 0x10 (some k) 1 e.frame.key.stroke e.frame.key.num
    s.setXfer i j (some { ent := e, sent := 0, total := cdiv e.frame.len 256, buf := h, cls := c })

/-- Send one cell from `i` to `j`, beginning a frame when none is in progress; the last cell frees the ingress copy. -/
def State.sendCell (s : State) (i j : Nat) (recirc : Bool) : State :=
  let s := match s.xfer i j with
    | some _ => s
    | none =>
      match (if recirc then s.recircHead i else s.nextHead i j) with
      | some (c, l, e) => s.beginXfer i j c l e
      | none => s
  match s.xfer i j with
  | none => s
  | some x =>
    let t := x.ent.frame.key.stroke
    let s := ((s.count (WL_CELLS.COUNT i) t).ev 128 0x10 (some i) 1 t (t * 2 ^ 32)).ev 128 0x11 none (b2n recirc) t (t * 2 ^ 32)
    let s := s.ev (112 + i) 0x13 none 1 t x.ent.frame.key.num
    let x := { x with sent := x.sent + 1 }
    if x.sent < x.total then s.setXfer i j (some x)
    else (s.setXfer i j (some { x with ent := { x.ent with place := .staging } })).freeEnt i x.ent

/-- Output `j`'s grant in one round: its recirculation request, else the requesting input at or after G. -/
def grantOf (g : Nat) (recirc : Bool) (req : Nat → Bool) (j : Nat) : Option Nat :=
  if recirc then some j else ((List.range 8).map (fun k => (g + k) % 8)).find? req

/-- One round of plane `p` (R344); `done` holds the pairs matched on earlier planes of the cycle. -/
def State.plane (s : State) (p : Nat) (done : List (Nat × Nat)) : State × List (Nat × Nat) :=
  let rec' := fun j => s.recircReady j && !((j, j) ∈ done)
  let req := fun i j => s.cellReady i j && !((i, j) ∈ done)
  let grants := (List.range 8).map (fun j => grantOf (mget 0 s.wind.g (p * 8 + j)) (rec' j) (fun i => req i j) j)
  let accept := fun i =>
    if rec' i && grants.getD i none = some i then some i
    else ((List.range 8).map (fun k => (mget 0 s.wind.a (p * 8 + i) + k) % 8)).find? (fun j => grants.getD j none = some i)
  ((List.range 8).filterMap (fun i => (accept i).map (fun j => (i, j, decide (i = j) && rec' i)))).foldl (fun sd m =>
    let (i, j, r) := m
    let s := if r then sd.1 else
      { sd.1 with wind := { sd.1.wind with g := mset 0 sd.1.wind.g (p * 8 + j) ((i + 1) % 8), a := mset 0 sd.1.wind.a (p * 8 + i) ((j + 1) % 8) } }
    (s.sendCell i j r, (i, j) :: sd.2)) (s, done)

/-- Data of a frame crossing from `i` to `j` was in error: it is discarded where that was found (R355). -/
def State.xferError (s : State) (i j loc : Nat) : State :=
  match s.xfer i j with
  | none => s
  | some x =>
    let s := (s.detect i 0 loc false).cisErrAt (CIS_ERR.DATA_PARITY i) i x.ent.frame.buf
    ((s.cisCount i 10 x.ent.frame.key.stroke).setXfer i j none |>.freeCopy j x.buf 11 true).dropEnt i x.ent

/-- Queue state of a region is in error (R356): the region is quarantined. -/
def State.stateError (s : State) (n loc : Nat) : State :=
  ((s.detect n 7 loc false).cisErr (CIS_ERR.STATE_PARITY n) n).quarantine n 2

/-- What a cycle of the windlass met. -/
def State.windlassFault (s : State) (flt : WindlassFault) : State :=
  match flt with
  | .none => s
  | .pointer => ((s.withWind { s.wind with g := [], a := [] }).detectFree 12).setErr WL_ERR.PTR_PARITY 0x020
  | .links n loc => s.stateError n loc.toNat
  | .data i j loc => s.xferError i j loc.toNat

/-- One cycle of the windlass: heads to be discarded leave, then each plane in use matches in turn. -/
def windlassMatch (flt : WindlassFault) (s : State) : State :=
  let s := (List.range 8).foldl (fun s i => s.discardAll i) (s.windlassFault flt)
  (((List.range 5).filter (bit (s.rf WL_STATUS.PLANES_ACTIVE))).foldl (fun sd p => sd.1.plane p sd.2) (s, [])).1

/-! ### Egress admission (R352 to R354) -/

/-- The RED profile of a colour. -/
def State.redProfile (s : State) (n q col : Nat) : Nat :=
  if col = 0 then s.rf (CIS_RED_MAP.GREEN n q) else if col = 1 then s.rf (CIS_RED_MAP.YELLOW n q) else s.rf (CIS_RED_MAP.RED n q)

/-- The average after an enqueue, with 8 fractional bits (R353). -/
def redAvg (avg depth weight : Nat) : Nat := ((avg : Int) + ((depth * 256 : Nat) - (avg : Int)) / (2 ^ weight : Nat)).toNat

/-- RED's decision (R353). -/
def State.redAct (s : State) (n prof avg port : Nat) (k : FKey) : Bool :=
  let lo := s.rf (CIS_RED_PROF.MIN n prof) * 256
  let hi := s.rf (CIS_RED_PROF.MAX n prof) * 256
  if avg < lo then false
  else if hi ≤ avg then true
  else
    let t := s.rf (CIS_RED_PROF.MAXP n prof) * 256 * (avg - lo) / (hi - lo)
    let h := crc32c (k.bytes ++ bytesBE 2 port ++ bytesBE 4 (s.rf (CIS_RED_SEED.SEED n))) % 65536
    decide (h < t)

/-- What a frame that RED acts on becomes (R354): its bytes, marked CE or already marked, or none when it is dropped; the Bool says
that it was marked now. -/
def redFrame (ecn : Bool) (slot : Nat) (old : Nat) (hv d : List Byte) : Option (List Byte × Bool) :=
  let h := hvSlot hv slot
  let i := movedTo old d.length h
  if h = 0xFFFF then none
  else
    let e := tclass d i % 4
    if e = 3 then some (d, false)
    else if ecn && (e = 1 || e = 2) then some (setTclass d i (tclass d i / 4 * 4 + 3), true)
    else none

/-- The conditions of R57 that are known where a frame enters its egress queue. -/
def State.cutOk (s : State) (n l : Nat) (f : Frame) (empty : Bool) : Bool :=
  let i := f.key.port
  f.cut && f.kind = 0 && decide (l < 64) && empty && decide (i < 512) &&
    s.rb (pbf PB_PORT_CFG.CUT_THROUGH (regionOf i) (localOf i)) && s.rb (pbf PB_PORT_CFG.CUT_THROUGH n l) &&
    decide (s.rf (LANE_PORT_STATUS.ACT_SPEED (regionOf i) (localOf i)) ≤ s.rf (LANE_PORT_STATUS.ACT_SPEED n l)) &&
    (match f.dest with
      | .port _ => true
      | _ => false)

/-- A frame, rewritten to `d`, enters the egress class queue of port `p` and class `c` of region `n` (R352). -/
def State.egressEnqueue (s : State) (n p c : Nat) (f : Frame) (d : List Byte) : State :=
  let l := localOf p
  let q := l * 16 + c
  let t := f.key.stroke
  if l < 64 ∧ s.rb (pbf PB_PORT_STATUS.DOWN_DISCARD n l) then (s.portCount n l 18 t).loseEg n f 14
  else if q ∈ (s.rx n).dropV then (s.cisCount n 2 t).loseEg n f 14
  else
    let x := s.egq n q
    let avg := redAvg x.avg (mget 0 (s.rx n).eqUnits q) (s.rf (CIS_RED_MAP.WEIGHT n q))
    let s := s.setEgq n q { x with avg := avg }
    let prof := s.redProfile n q f.colour
    let put := fun (s : State) (d : List Byte) =>
      let cut := s.cutOk n l f x.ents.isEmpty
      if f.bad && !cut then s.loseEg n f 14
      else s.setEgEnts n q (x.ents ++ [{ frame := { f with data := d, cut := cut }, at_ := s.orderNs }])
    if s.rb (CIS_RED_MAP.EN n q) && s.redAct n prof avg p f.key then
      match redFrame (s.rb (CIS_RED_PROF.ECN n prof)) (s.rf (CIS_CFG.ECN_SLOT n)) f.data.length f.hv d with
      | none => (s.cisCount n 3 t).loseEg n f 14
      | some (d, marked) => put (if marked then s.cisCount n 4 t else s) d
    else put s d

/-- Rewrite a frame for port `p` and enqueue it; a TTL drop is counted at the port (R180). -/
def State.egressFrame (s : State) (n p c : Nat) (f : Frame) (vid : Option Nat) : State :=
  match s.egressRewrite n p f vid with
  | (s, none) => (s.portCount n (localOf p) 22 f.key.stroke).dropEg n f 14
  | (s, some d) => s.egressEnqueue n p c f d

/-! ### Multicast replication (R348, R556) -/

/-- Walk the node list of a region copy, at most `k` nodes from node `i`; `at_` is the number of nodes walked, `bad` the node whose
read is in error. The copies share the buffer through its count. -/
def State.walkNodes (s : State) (n c : Nat) (f : Frame) (prune : Bool) (bad : Option (Nat × ReadCheck)) : Nat → Nat → Nat → State
  | 0, _, _ => s.cisErrAt (CIS_ERR.MC_LIMIT n) n f.buf
  | k + 1, i, at_ =>
    let chk := match bad with
      | some (b, chk) => if b = at_ then chk else .good
      | none => .good
    match s.mcRead n (nodeKey n i) chk with
    | (s, false) => s.cisCount n 10 f.key.stroke
    | (s, true) =>
      let p := s.rf (CIS_MC_NODE.PORT n i)
      let s :=
        if prune && p = f.key.port then s
        else if !realPort p || regionOf p != n || decide (528 ≤ p) then s.cisErrAt (CIS_ERR.MC_LIMIT n) n f.buf
        else
          let s := (((s.refBuf n f.buf 1).txMore f 1).cisCount n 11 f.key.stroke)
          s.egressFrame n p c f (if s.rb (CIS_MC_NODE.VID_EN n i) then some (s.rf (CIS_MC_NODE.VID n i)) else none)
      if s.rb (CIS_MC_NODE.LAST n i) then s
      else s.walkNodes n c f prune bad k (s.rf (CIS_MC_NODE.NEXT n i)) (at_ + 1)

/-- Replicate a region copy of group `g` (R348). -/
def State.replicate (s : State) (n c g : Nat) (f : Frame) (flt : CellFault) : State :=
  let chk := match flt with
    | .group chk => chk
    | _ => .good
  let s := match s.mcRead n (groupKey n f.bank g) chk with
    | (s, false) => s.cisCount n 10 f.key.stroke
    | (s, true) =>
      if s.rb (CIS_MC_GROUP.HEAD_VALID n f.bank g) then
        let bad := match flt with
          | .node k chk => some (k.toNat, chk)
          | _ => none
        s.walkNodes n c f (s.rb (CIS_MC_GROUP.SRC_PRUNE n f.bank g)) bad (s.rf (CIS_MC_CFG.MAX_COPIES n))
          (s.rf (CIS_MC_GROUP.HEAD n f.bank g)) 0
      else s
  (s.copyDone f).dropEg n f 11

/-! ### Reception at the destination (R345) -/

/-- A frame has crossed: it is enqueued, replicated, or waits for its next pass (R183). -/
def State.arrive (s : State) (j : Nat) (x : XferX) (flt : CellFault) : State :=
  let f := { x.ent.frame with buf := x.buf }
  if x.bad then (s.copyDone f).loseEg j f 11
  else match f.dest with
    | .group g => s.replicate j x.cls g f flt
    | .port p =>
      if p = 528 + j then
        match s.egressRewrite j p f none with
        | (s, none) => s.dropEg j f 14
        | (s, some d) => s.setRecircx j { s.recircx j with waiting := (s.recircx j).waiting ++ [{ f with data := d }] }
      else s.egressFrame j p x.cls f none
    | _ => s.dropEg j f 11

/-- The destination receives the next cell of the frame that input `i` sends. -/
def cellReceive (i j : Nat) (flt : CellFault) (s : State) : State :=
  match s.xfer i j with
  | none => s
  | some x =>
    if x.sent ≤ x.got then s
    else
      let k := x.ent.frame.key
      let s := s.ev (112 + j) 0x14 none 1 k.stroke k.num
      let (s, bad) := match flt with
        | .header =>
          let s := (s.detectFree 12).setErr WL_ERR.CELL_PARITY 0x020
          (if x.bad then s else s.cisCount j 10 k.stroke, true)
        | .data loc =>
          let s := (s.detect j 0 loc.toNat false).cisErrAt (CIS_ERR.DATA_PARITY j) j x.buf
          (if x.bad then s else s.cisCount j 10 k.stroke, true)
        | _ => (s, false)
      let x := { x with got := x.got + 1, bad := x.bad || bad }
      if x.got < x.total then s.setXfer i j (some x) else (s.setXfer i j none).arrive j x flt

/-! ### The sump (R339 to R343) -/

/-- Bytes a frame takes in the sump: its header and its data rounded up to 64 bytes. -/
def sumpBytes (f : Frame) : Nat := 64 + cdiv f.len 64 * 64

/-- The lowest `k` free pages of region `n`, from page `p` on, among `m` pages (the model's choice of page order, log entry 17). -/
def State.pickPages (s : State) (n : Nat) (used : List Nat) : Nat → Nat → Nat → List Nat
  | _, _, 0 => []
  | _, 0, _ => []
  | p, m + 1, k + 1 =>
    if p ∈ used || !s.pageLive n p then s.pickPages n used (p + 1) m (k + 1)
    else p :: s.pickPages n used (p + 1) m k

/-- Change the first entry of a queue for which `p` holds. -/
def mapFirst (p : QEnt → Bool) (g : QEnt → QEnt) : List QEnt → List QEnt
  | [] => []
  | e :: l => if p e then g e :: l else e :: mapFirst p g l

/-- Remove the first entry for which `p` holds. -/
def dropFirst (p : QEnt → Bool) : List QEnt → List QEnt
  | [] => []
  | e :: l => if p e then l else e :: dropFirst p l

/-- Entry `e`, taken out of queue `q` of region `n`, is discarded because its data is in error (R355). -/
def State.dropBadData (s : State) (n q : Nat) (e : QEnt) : State :=
  let s := (s.cisCount n 10 e.frame.key.stroke).detParity
  ((s.cisErrAt (CIS_ERR.DATA_PARITY n) n e.frame.buf).dropEnt n e).spillCheck n q

/-- The columns that `b` bytes take in a list of pages, from byte `off` of the first: the page, a byte of it and the bytes from there. -/
def dataSpans (off b : Nat) : List Nat → List (Nat × Nat × Nat)
  | [] => []
  | p :: l =>
    let m := min b (4096 - off)
    (p, off / 32 * 32, cdiv (off % 32 + m) 32 * 32) :: dataSpans 0 (b - m) l

/-- The columns of the data of a frame in the sump. -/
def QEnt.spans (e : QEnt) : List (Nat × Nat × Nat) := dataSpans e.off (sumpBytes e.frame) e.pages

/-- The stack delivered data of a frame of region `n` in error (R481). -/
def State.dataFlagged (s : State) (n : Nat) (e : QEnt) : Bool :=
  e.spans.any (fun d => s.hbmFlagged (n / 2) (d.1 % 32) (s.pageAddr n d.1 + d.2.1) d.2.2)

/-- The sump reader has taken the data of a frame, or the sump writer has written it anew. -/
def State.dataTaken (s : State) (n : Nat) (e : QEnt) : State :=
  e.spans.foldl (fun s d => s.hbmTaken (n / 2) (d.1 % 32) (s.pageAddr n d.1 + d.2.1) d.2.2) s

/-- The sump writer writes the next frame of queue `q` that waits for it (R340, R341, R389); one whose data is in error is discarded (R355). -/
def sumpWrite (n q : Nat) (s : State) : State :=
  let x := s.queue n q
  let todo := fun (e : QEnt) => decide (e.place = .toSump)
  match x.ents.find? todo with
  | none => s
  | some e =>
    if e.waitCol then s
    else if s.badBuf e then (s.setQueue n q { x with ents := dropFirst todo x.ents }).dropBadData n q e
    else
      let room := if x.page.isSome then 4096 - x.fill else 0
      let b := sumpBytes e.frame
      let need := cdiv (b - min b room) 4096
      let got := s.pickPages n (s.rx n).pages 0 (s.rf (CIS_SUMP_CFG.SIZE_MIB n) * 256) need
      if got.length < need then
        let s := s.setQueue n q { x with ents := dropFirst todo x.ents }
        let s := (s.cisCount n 6 e.frame.key.stroke).cisErrAt (CIS_ERR.SUMP_EXHAUST n) n e.frame.buf
        ((s.detSet CHIP_DET_STATUS.SUMP_EXHAUST s.strokeNow).dropEnt n e).spillCheck n q
      else
        let first := if room = 0 then [] else x.page.toList
        let fill := if need = 0 then x.fill + b else b - room - (need - 1) * 4096
        let page := if need = 0 then x.page else got.getLast?
        let put := fun (e : QEnt) => { e with place := .sump, pages := first ++ got, off := if room = 0 then 0 else x.fill }
        let s := (s.dataTaken n (put e)).setQueue n q { x with ents := mapFirst todo put x.ents, page := page, fill := fill }
        let s := s.setRx n { s.rx n with pages := got ++ (s.rx n).pages }
        (s.wf (CIS_SUMP_USED.PAGES_USED n) (s.rx n).pages.length).freeCopy n e.frame.buf 12 false

/-- Units of a queue's frames in staging. -/
def stagedUnits (x : QueueX) : Nat := ((x.ents.filter (fun e => e.place = .staging)).map (fun e => bufUnits e.frame)).sum

/-- The sump reader reads the next frame of queue `q` into staging (R341, R343); `bad` says that its data failed (R355, R481): the controller has
logged it. A condemned frame is discarded from its header alone (R337, R389). The entry remembers its pages until it crosses, so that a withdrawn
copy can be read again (R485). -/
def sumpReadback (n q : Nat) (bad : Bool) (s : State) : State :=
  let x := s.queue n q
  let ahead := x.ents.takeWhile (fun e => !inSump e)
  let pf := s.rf (CIS_SUMP_CFG.PREFETCH n)
  let here := fun (e : QEnt) => decide (e.place = .sump)
  match x.ents.find? inSump with
  | none => s
  | some e =>
    if e.place = .sump && (e.marked || e.dropRed.isSome || !s.regionRuns (q / 68 / 16)) && !e.lost then
      (((s.setQueue n q { x with ents := dropFirst here x.ents }).countHead n (q / 68 / 16) e).dropEnt n e).spillCheck n q
    else if e.place = .toSump || decide (pf ≤ (ahead.filter (fun e => e.place = .cistern)).length) ||
        decide (pf ≤ (ahead.filter (fun e => e.place = .staging)).length) ||
        decide (1024 < ((s.rx n).voq.map (fun p => stagedUnits p.2)).sum + bufUnits e.frame) then s
    else if e.lost then
      let s := (s.setQueue n q { x with ents := dropFirst here x.ents }).cisCount n 10 e.frame.key.stroke
      (((s.cisErrAt (CIS_ERR.SUMP_LOST n) n e.frame.buf).detParity).dropEnt n e).spillCheck n q
    else if bad || e.corrupt || s.dataFlagged n e then
      ((s.dataTaken n e).setQueue n q { x with ents := dropFirst here x.ents }).dropBadData n q e
    else
      let s := s.setQueue n q { x with ents := mapFirst here (fun e => { e with place := .staging }) x.ents }
      ((s.freePages n e.pages).ev (112 + n) 0x12 none 1 e.frame.key.stroke e.frame.key.num).spillCheck n q

/-- A write of `CIS_FREE_LOG_CTRL` (R367). -/
def freeLogWrite (n : Nat) (v : Word) (s : State) : State := if bit v.toNat 16 then s.logClear (CIS_FREE_LOG_CTRL.VALID n) else s

/-! ### Meanings -/

def execWindlassMatch (flt : WindlassFault) (s : State) : Host.Outcome State Fault Refusal :=
  .next (if s.running then windlassMatch flt s else s)

def execCellReceive (i j : Region) (flt : CellFault) (s : State) : Host.Outcome State Fault Refusal :=
  .next (if s.running && s.regionRuns j then cellReceive i j flt s else s)

def execSumpWrite (n : Region) (q : BitVec 14) (s : State) : Host.Outcome State Fault Refusal :=
  .next (if s.running && s.regionRuns n && !s.hbmBusy (n / 2) then sumpWrite n q.toNat s else s)

def execSumpReadback (n : Region) (q : BitVec 14) (bad : Bool) (s : State) : Host.Outcome State Fault Refusal :=
  .next (if s.running && s.regionRuns n && !s.hbmBusy (n / 2) then sumpReadback n q.toNat bad s else s)

def execFreeLogClear (n : Region) (v : Word) (s : State) : Host.Outcome State Fault Refusal :=
  .next (onWrite (freeLogWrite n (BitVec.ofNat 32 (putBits v.toNat 16 1 1))) s)

end Sys2Proof.Machine
end

