-- ==== Sys2Proof/Machine/Meter.lean ====
section
/-! DEFINITION. Policers (R385 to R390, R393, R397): meter requests in ordering-key order, the metering algorithm of R387, the colours it
returns, scheduled changes and the peek. -/

namespace Sys2Proof.Machine

/-- Set a bit of `TM_ERR` with its location, captured when every bit was 0 (R396); event 0x360. -/
def State.tmErr (s : State) (f : Fld) (n kind ix : Nat) : State :=
  let s := if s.reg (TM_ERR.w n) = 0 then (s.wf (TM_ERR_LOC.KIND n) kind).wf (TM_ERR_LOC.INDEX n) ix else s
  s.setErr f (regionSrc 0x360 n)

/-! ### Sending requests (R386) -/

/-- Put a request in key order. -/
def insertReq (x : MeterReq) : List MeterReq → List MeterReq
  | [] => [x]
  | y :: l => if keyLt x.key y.key then x :: y :: l else y :: insertReq x l

/-- Show the requests that wait at a meter. -/
def State.setReqs (s : State) (n : Nat) (l : List MeterReq) : State :=
  (s.setRx n { s.rx n with reqs := l }).wf (TM_STATUS.METER_QUEUED n) (min l.length 65535)

/-- Send one request of region `n` to its policer region; a quarantined region answers red. -/
def State.sendReq (s : State) (n : Nat) (k : FKey) (r : Nat × Nat × Nat × Nat) : State :=
  let (j, pol, len, pre) := r
  if s.regionRuns j then s.setReqs j (insertReq ⟨n, k, pol, len, pre⟩ (s.rx j).reqs)
  else (s.count (TM_CNT.COUNT j 7) k.stroke).colourReturn n k 2 none

/-- The frame of key `k` of region `n` that waits for its colour is lost: it is discarded and counted at its head (R393). -/
def State.loseMetered (s : State) (n : Nat) (k : FKey) : State :=
  let x := s.rx n
  let f := fun (e : QEnt) => if e.frame.key = k ∧ e.waitCol then { e with waitCol := false, lost := true } else e
  s.setRx n { x with voq := x.voq.map (fun p => (p.1, { p.2 with ents := p.2.ents.map f })) }

/-- A slot or request in error, found in region `n`, of the frame of key `k` of region `src`: the frame is discarded and counted, and the request
counts as cancelled (R393). -/
def State.slotError (s : State) (n src : Nat) (k : FKey) : State :=
  ((s.loseMetered src k).detect n 7 0 false).tmErr (TM_ERR.SLOT_PARITY n) n 3 0

/-- Meter slot `i` of region `n` is in error: the slot is cancelled, and its frame is discarded where it waits, or at its release. -/
def State.badSlot (s : State) (n i : Nat) : State :=
  match (s.rx n).slots[i]? with
  | none => s
  | some x =>
    let s := s.setSlots n ((s.rx n).slots.filter (fun y => y.key != x.key))
    let s := if x.done then s else s.setRx n { s.rx n with slotBad := x.key :: (s.rx n).slotBad }
    s.loseMetered n x.key

/-- Send the completed slots that precede every open slot, in key order; `bad` names the one in error, if any. -/
def State.sendSlots (s : State) (n : Nat) (bad : Option Nat) : Nat → List MeterSlot → State
  | _, [] => s.setSlots n []
  | i, x :: l =>
    match x.done, x.req with
    | true, some r => (if bad = some i then s.slotError n n x.key else s.sendReq n x.key r).sendSlots n bad (i + 1) l
    | _, _ => s.setSlots n (x :: l)

/-- The meter watermark of region `n`: the lowest stroke of an open slot, or the region's watermark. -/
def State.meterMark (s : State) (n : Nat) : Nat :=
  match (s.rx n).slots with
  | [] => s.wm n
  | x :: _ => x.key.stroke

/-- A region sends its completed slots and its meter watermark (R386). -/
def meterSend (n : Nat) (bad : Option Nat) (s : State) : State :=
  let s := s.sendSlots n bad 0 (s.rx n).slots
  s.setRx n { s.rx n with meterWm := s.meterMark n }

/-! ### Metering (R387) -/

/-- A policer's profile. -/
structure Profile where
  cir : Nat
  cbs : Nat
  pir : Nat
  epbs : Nat
  two : Bool
  aware : Bool
  dropRed : Bool
  overhead : Nat
deriving DecidableEq, Repr

/-- Profile `k` of region `n`, bursts in 1/8,000 byte. -/
def State.profile (s : State) (n k : Nat) : Profile :=
  { cir := s.rf (TM_POL_PROF.CIR n k), cbs := s.rf (TM_POL_PROF.CBS n k) * 8000, pir := s.rf (TM_POL_PROF.PIR n k),
    epbs := s.rf (TM_POL_PROF.EPBS n k) * 8000, two := s.rb (TM_POL_PROF.MODE n k), aware := s.rb (TM_POL_PROF.AWARE n k),
    dropRed := s.rb (TM_POL_PROF.DROP_RED n k), overhead := s.rf (TM_POL_PROF.OVERHEAD n k) }

/-- Both buckets full, with LAST at `t`. -/
def fullPol (p : Profile) (t : Nat) : PolX := { tc := p.cbs, te := p.epbs, last := t, used := true }

/-- The state of policer `i` as a request finds it: full after reset. -/
def State.polState (s : State) (n i : Nat) (p : Profile) : PolX :=
  let x := mget {} (s.rx n).pols i
  if x.used then x else fullPol p 0

/-- Put a policer's state. -/
def State.setPol (s : State) (n i : Nat) (x : PolX) : State := s.setRx n { s.rx n with pols := mset {} (s.rx n).pols i x }

/-- srTCM (RFC 2697) after a refill of `dt` ns, for `b` units and pre-colour `pc`: the colour and the buckets. -/
def srTcm (p : Profile) (tc te dt b pc : Nat) : Nat × Nat × Nat :=
  let c := tc + p.cir * dt
  let te := if p.cbs < c then min p.epbs (te + (c - p.cbs)) else te
  let tc := min p.cbs c
  if pc = 0 ∧ b ≤ tc then (0, tc - b, te) else if pc ≠ 2 ∧ b ≤ te then (1, tc, te - b) else (2, tc, te)

/-- trTCM (RFC 2698). -/
def trTcm (p : Profile) (tc te dt b pc : Nat) : Nat × Nat × Nat :=
  let tc := min p.cbs (tc + p.cir * dt)
  let te := min p.epbs (te + p.pir * dt)
  if pc = 2 ∨ te < b then (2, tc, te) else if pc = 1 ∨ tc < b then (1, tc, te - b) else (0, tc - b, te - b)

/-- Meter a frame of policing length `len` at stroke time `t` with pre-colour `pre` (R387). -/
def meterFrame (p : Profile) (x : PolX) (len pre t : Nat) : Nat × PolX :=
  let dt := min (t - x.last) (2 ^ 40)
  let pc := if p.aware then pre else 0
  let r := (if p.two then trTcm else srTcm) p x.tc x.te dt (len * 8000) pc
  (r.1, { tc := r.2.1, te := r.2.2, last := t, used := true })

/-- Every counted region's meter watermark has passed stroke `t` (`strict`), or reached it. -/
def State.metersPast (s : State) (t : Nat) (strict : Bool) : Bool :=
  (List.range 8).all (fun n => !s.regionRuns n || strokeLt t (s.rx n).meterWm || (!strict && t = (s.rx n).meterWm))

/-- The parity check of a policer's state (R393): a failed retry fills its buckets. -/
def State.polCheck (s : State) (n i : Nat) (p : Profile) (t stroke : Nat) (chk : ReadCheck) : State :=
  match chk with
  | .good => s
  | .retried loc => (s.detect n 5 loc.toNat true).tmErr (TM_ERR.POL_PARITY n) n 0 i
  | .failed loc =>
    let s := ((s.detect n 5 loc.toNat false).tmErr (TM_ERR.POL_PARITY n) n 0 i).tmErr (TM_ERR.POL_PARITY_FAIL n) n 0 i
    (s.count (TM_CNT.COUNT n 6) stroke).setPol n i (fullPol p t)

/-- Meter one request and return its colour (R387, R389). -/
def State.meterOne (s : State) (n : Nat) (r : MeterReq) (chk : ReadCheck) : State :=
  let t := s.strokeTime r.key.stroke
  let p := s.profile n (s.rf (TM_POL.PROFILE n r.pol))
  let s := s.ev (120 + n) 0x13 none 1 r.key.stroke (r.key.stroke * 2 ^ 32)
  if !s.rb (TM_POL.EN n r.pol) then (s.count (TM_CNT.COUNT n 0) r.key.stroke).colourReturn r.src r.key 0 none
  else
    let s := s.polCheck n r.pol p t r.key.stroke chk
    let (col, x) := meterFrame p (s.polState n r.pol p) (r.len + p.overhead) r.pre t
    let s := (s.setPol n r.pol x).count (TM_CNT.COUNT n col) r.key.stroke
    let s := s.ev (120 + n) 0x14 none (b2n (col = 2)) r.key.stroke (r.key.stroke * 2 ^ 32)
    s.colourReturn r.src r.key col (if col = 2 ∧ p.dropRed then some n else none)

/-! ### Scheduled changes (R390) -/

/-- Show the queued changes. -/
def State.setPushes (s : State) (n : Nat) (l : List PolPush) : State :=
  (s.setRx n { s.rx n with pushes := l }).wf (TM_POL_SCHED_STATUS.QUEUED n) l.length

/-- Put a change behind every change of an earlier stroke or of its own. -/
def insertPush (x : PolPush) : List PolPush → List PolPush
  | [] => [x]
  | y :: l => if strokeLt x.stroke y.stroke then x :: y :: l else y :: insertPush x l

/-- Apply a change: EN and PROFILE, both buckets full, LAST the stroke time of X. -/
def State.applyPush (s : State) (n : Nat) (x : PolPush) : State :=
  let s := (s.wf (TM_POL.EN n x.pol) x.en).wf (TM_POL.PROFILE n x.pol) x.prof
  s.setPol n x.pol (fullPol (s.profile n x.prof) (s.strokeTime x.stroke))

/-- Apply the first queued change once every request of an earlier stroke has been applied; one whose stroke lies in the span of a quiesce
waits for the resume (R618). -/
def policerChange (n : Nat) (s : State) : State :=
  match (s.rx n).pushes with
  | [] => s
  | x :: l =>
    if !s.inSpan x.stroke && s.metersPast x.stroke false && !(s.rx n).reqs.any (fun r => strokeLt r.key.stroke x.stroke) && strokeLe x.stroke s.strokeNow then
      (s.setPushes n l).applyPush n x
    else s

/-- Apply every queued change of stroke `t` or before. -/
def State.pushesTo (s : State) (n t : Nat) : List PolPush → State
  | [] => s
  | x :: l => if strokeLe x.stroke t then ((s.setPushes n l).applyPush n x).pushesTo n t l else s

/-- The meter of region `n` applies its next request, after the changes due before it (R386, R390); a request read in error is cancelled (R393). -/
def meterApply (n : Nat) (flt : MeterFault) (s : State) : State :=
  match (s.rx n).reqs with
  | [] => s
  | r :: l =>
    if s.metersPast r.key.stroke true then
      let s := (s.pushesTo n r.key.stroke (s.rx n).pushes).setReqs n l
      match flt with
      | .policer chk => s.meterOne n r chk
      | .request => s.slotError n r.src r.key
    else s

/-- A write of `TM_POL_SCHED_CTRL` (R390). -/
def polSchedWrite (n : Nat) (v : Word) (s : State) : State :=
  if !bit v.toNat 0 then s
  else
    let x := s.rf (TM_POL_SCHED_STROKE.STROKE n)
    if !leadOk s.strokeNow x then s.wf (TM_POL_SCHED_STATUS.LAST_RESULT n) 1
    else if 64 ≤ (s.rx n).pushes.length then s.wf (TM_POL_SCHED_STATUS.LAST_RESULT n) 2
    else
      let p : PolPush := ⟨x, s.rf (TM_POL_SCHED_IDX.INDEX n), s.rf (TM_POL_SCHED_IDX.EN n), s.rf (TM_POL_SCHED_IDX.PROFILE n)⟩
      (s.setPushes n (insertPush p (s.rx n).pushes)).wf (TM_POL_SCHED_STATUS.LAST_RESULT n) 0

/-- A write of `TM_POL_PEEK_IDX` captures a policer's state (R397). -/
def polPeekWrite (n : Nat) (v : Word) (s : State) : State :=
  let i := v.toNat % 65536
  let x := s.polState n i (s.profile n (s.rf (TM_POL.PROFILE n i)))
  let s := (s.wf (TM_POL_PEEK_IDX.INDEX n) i).wf (TM_POL_PEEK_TC.BYTES n) (min (x.tc / 8000) (2 ^ 32 - 1))
  (s.wf (TM_POL_PEEK_TE.BYTES n) (min (x.te / 8000) (2 ^ 32 - 1))).wf (TM_POL_PEEK_LAST.TIME n) x.last

/-! ### Meanings -/

def execMeterRequestSend (n : Region) (bad : Option (Fin 4096)) (s : State) : Host.Outcome State Fault Refusal :=
  .next (if s.running && s.regionOn n then meterSend n (bad.map (·.val)) s else s)

def execMeterApply (n : Region) (flt : MeterFault) (s : State) : Host.Outcome State Fault Refusal :=
  .next (if s.running && s.regionOn n then meterApply n flt s else s)

def execPolicerPush (n : Region) (v : Word) (s : State) : Host.Outcome State Fault Refusal :=
  .next (onWrite (polSchedWrite n (BitVec.ofNat 32 (putBits v.toNat 0 1 1))) s)

def execPolicerChangeApply (n : Region) (s : State) : Host.Outcome State Fault Refusal :=
  .next (if s.running then policerChange n s else s)

def execPolicerPeek (n : Region) (v : Word) (s : State) : Host.Outcome State Fault Refusal :=
  .next (onWrite (polPeekWrite n v) s)

end Sys2Proof.Machine
end

