-- ==== Sys2Proof/Machine/Traffic.lean ====
section
/-! DEFINITION. The traffic manager's ports (file 11): eligibility (R374), gates (R382 to R384), shapers and the wheel (R379 to R381),
selection and tags (R375 to R377), the frame's way through the egress MAC (R55, R56, R66 to R69, R84) and the dipstick (R391). -/

namespace Sys2Proof.Machine

/-! ### Gates (R382, R383) -/

/-- A port speed code in Gb/s (Table PM-11). -/
def gbps (code : Nat) : Nat := [1600, 800, 400, 200, 100, 50, 25, 10].getD code 10

/-- UNIT in ns (Table TM-8). -/
def gateUnit (u : Nat) : Nat := 8 * 8 ^ u

def State.gate (s : State) (n l : Nat) : GateX := mget {} (s.rx n).gates l
def State.setGate (s : State) (n l : Nat) (x : GateX) : State := s.setRx n { s.rx n with gates := mset {} (s.rx n).gates l x }

/-- One cycle of the active list for class `c`: lengths in ns and whether the gate is open; an entry in error is closed (R393). -/
def State.gateSegs (s : State) (n l c : Nat) : List (Nat × Bool) :=
  let b := s.rf (TM_GATE_CTRL.ACTIVE n l)
  let cycle := s.rf (TM_GATE_CTRL.ACT_CYCLE_NS n l)
  let u := gateUnit (s.rf (TM_GATE_CTRL.ACT_UNIT n l))
  let r := (List.range (s.rf (TM_GATE_CTRL.ACT_LEN n l))).foldl (fun (r : List (Nat × Bool) × Nat × Bool) i =>
      let d := min (s.rf (TM_GATE_LIST.INTERVAL n l b i) * u) (cycle - r.2.1)
      let o := bit (s.rf (TM_GATE_LIST.GATES n l b i)) c && !(l * 512 + b * 256 + i ∈ (s.rx n).gateBad)
      if d = 0 then r else (r.1 ++ [(d, o)], r.2.1 + d, o)) ([], 0, true)
  if r.2.1 < cycle then r.1 ++ [(cycle - r.2.1, r.2.2)] else r.1

/-- A cycle seen from offset `o` on. -/
def rotateSegs (o : Nat) : List (Nat × Bool) → List (Nat × Bool) × List (Nat × Bool)
  | [] => ([], [])
  | (d, b) :: l =>
    if d ≤ o then let r := rotateSegs (o - d) l; (r.1, (d, b) :: r.2)
    else ((d - o, b) :: l, if o = 0 then [] else [(o, b)])

/-- The cycle from offset `o` around to itself. -/
def segsFrom (o : Nat) (l : List (Nat × Bool)) : List (Nat × Bool) := let r := rotateSegs o l; r.1 ++ r.2

/-- How long the gate stays open from the start of `l` on; none when it never closes. -/
def openRun : List (Nat × Bool) → Option Nat
  | [] => none
  | (d, true) :: l => (openRun l).map (d + ·)
  | (_, false) :: _ => some 0

/-- The time to the start of the next open window, when the list opens the class at all. -/
def nextOpen (l : List (Nat × Bool)) : Option Nat :=
  let r := l.dropWhile (·.2)
  let closed := r.takeWhile (fun x => !x.2)
  if l.any (·.2) then some (((l.takeWhile (·.2)).map (·.1)).sum + (closed.map (·.1)).sum) else none

/-- The longest unbroken open window of one cycle; none when the gate never closes (R383). -/
def longestOpen (l : List (Nat × Bool)) : Option Nat :=
  let starts := (List.range l.length).map (fun i => openRun (l.drop i ++ l.take i))
  if l.all (·.2) then none else some (maxOf 0 (starts.filterMap id))

/-- The gates of port `l` act. -/
def State.gated (s : State) (n l : Nat) : Bool :=
  decide (l < 64) && s.rb (TM_PORT.GATE_EN n l) && s.rf (TM_GATE_CTRL.ACT_CYCLE_NS n l) != 0

/-- The offset of the present in the active cycle. -/
def State.gateOffset (s : State) (n l : Nat) : Nat :=
  (((s.orderNs : Int) - ((s.gate n l).actBase : Int)) % (s.rf (TM_GATE_CTRL.ACT_CYCLE_NS n l) : Int)).toNat

/-- Bytes on the wire, FCS included, with the padding of R56. -/
def wireLen (f : Frame) : Nat := max 64 (f.data.length + 4)

/-- D of R383. -/
def State.gateNeed (s : State) (n l : Nat) (f : Frame) : Nat :=
  cdiv ((wireLen f + 20) * 8) (gbps (s.rf (LANE_PORT_STATUS.ACT_SPEED n l)))

/-- The gate of class `c` is open and the frame fits. -/
def State.gateFits (s : State) (n l c : Nat) (f : Frame) : Bool :=
  if s.gated n l then
    match openRun (segsFrom (s.gateOffset n l) (s.gateSegs n l c)) with
    | none => true
    | some d => decide (s.gateNeed n l f ≤ d)
  else true

/-! ### Eligibility (R374) -/

def State.sport (s : State) (n l : Nat) : SchedX := mget {} (s.rx n).ports l
def State.setSport (s : State) (n l : Nat) (x : SchedX) : State := s.setRx n { s.rx n with ports := mset {} (s.rx n).ports l x }


/-- Class `c` is paused by the link partner (R59); a tripped storm watchdog ignores the pause (R63). -/
def State.paused (s : State) (n l c : Nat) : Bool :=
  let x := s.pport n l
  let storm := s.rf (pbf PB_PORT_STATUS.STORM n l)
  if 64 ≤ l then false
  else if s.rf (pbf PB_FC_CFG.MODE n l) = 1 then mget 0 x.quanta 0 != 0 && !bit storm 0
  else if s.rf (pbf PB_FC_CFG.MODE n l) = 2 then mget 0 x.quanta (c / 2) != 0 && !bit storm (c / 2)
  else false

/-- The port is up and not frozen; a host channel always is. -/
def State.portServes (s : State) (n l : Nat) : Bool :=
  if l < 64 then s.rb (pbf PB_PORT_STATUS.LINK_UP n l) && !s.rb (pbf PB_PORT_STATUS.FROZEN n l) else true

/-- A shaper of rate `rate` is eligible (R379, R380): it is unshaped or not on the wheel. -/
def shaperOk (rate : Nat) (b : Bucket) : Bool := decide (rate = 0) || b.next.isNone

/-- The group's and the port's shapers are eligible for class queue `q`. -/
def State.shapersOk (s : State) (n l q : Nat) : Bool :=
  let g := s.classGroup n q
  shaperOk (s.rf (TM_CLASS.RATE n q)) (s.egq n q).bucket && shaperOk (s.rf (TM_GROUP.RATE n l g)) (s.sgroup n l g).bucket &&
    shaperOk (s.rf (TM_PORT.RATE n l)) (s.sport n l).bucket

/-- Class `c` of port `l` is eligible (R374). -/
def State.classElig (s : State) (n l c : Nat) : Bool :=
  let q := l * 16 + c
  match (s.egq n q).ents with
  | [] => false
  | e :: _ => s.portServes n l && !s.paused n l c && s.shapersOk n l q && (s.egq n q).gateWait.isNone && s.gateFits n l c e.frame

/-- The larger of two serial numbers. -/
def serialMax (a b : Nat) : Nat := if seqLt a b then b else a

/-- A start tag when its class or group becomes eligible again at virtual time `v` (R376). -/
def wakeTag (tag v : Nat) (empty : Bool) : Nat := if empty then v else serialMax tag v

/-- When a class that is found eligible became so: at the entry of its head when it was empty, else now. Whatever makes a class eligible brings it
up to date before and after, so that a head that entered while it was not is known (`blocked`). -/
def eligFrom (x : EgQ) (now : Nat) : Nat := if x.wasEmpty && !x.blocked then (x.ents.head?.map (·.at_)).getD now else now

/-- Bring the tags of class `c` and its starvation timer up to date with its eligibility (R376, R377). -/
def State.freshClass (s : State) (n l c : Nat) : State :=
  let q := l * 16 + c
  let x := s.egq n q
  let v := (s.sgroup n l (s.classGroup n q)).vt
  if s.classElig n l c then
    if x.wasElig then s
    else
      s.setEgq n q { x with
        tag := wakeTag x.tag v x.wasEmpty, wasElig := true, wasEmpty := false, since := some (eligFrom x s.orderNs), blocked := false }
  else if x.wasElig || (x.ents.isEmpty && !x.wasEmpty) || x.blocked == x.ents.isEmpty then
    s.setEgq n q { x with wasElig := false, wasEmpty := x.wasEmpty || x.ents.isEmpty, since := none, blocked := !x.ents.isEmpty }
  else s

/-- Bring the tags of group `g` up to date. -/
def State.freshGroup (s : State) (n l g : Nat) : State :=
  let x := s.sgroup n l g
  let cs := s.groupClasses n l g
  let empty := s.groupEmpty n l g
  if cs.any (fun c => s.classElig n l c) then
    if x.wasElig then s else s.setSgroup n l g { x with tag := wakeTag x.tag (s.sport n l).vt x.wasEmpty, wasElig := true, wasEmpty := false }
  else if x.wasElig || (empty && !x.wasEmpty) then s.setSgroup n l g { x with wasElig := false, wasEmpty := x.wasEmpty || empty }
  else s

/-- Bring the tags of a port up to date. -/
def State.fresh (s : State) (n l : Nat) : State :=
  let s := (List.range 16).foldl (fun s c => s.freshClass n l c) s
  (List.range 8).foldl (fun s g => s.freshGroup n l g) s

/-! ### Shapers (R380, R381) -/

/-- A shaper spends `len` bytes at time `t` (R380); when its tokens go below 0 it enters the wheel at a multiple of 8 ns. -/
def Bucket.spend (b : Bucket) (rate burst len t : Nat) : Bucket :=
  if rate = 0 then b
  else
    let full : Int := (burst * 8000 : Nat)
    let tok := (if b.used then min full (b.tok + ((rate * (t - b.last) : Nat) : Int)) else full) - ((len * 8000 : Nat) : Int)
    let next := if tok < 0 then some (cdiv (t + cdiv tok.natAbs rate) 8 * 8) else none
    { tok := tok, last := t, used := true, next := next }

/-- An entry on the wheel whose slot is `t` leaves it. -/
def leaveWheel (t : Nat) (o : Option Nat) : Option Nat := if o = some t then none else o

/-- The earliest of some wheel slots. -/
def earliest (l : List Nat) : Option Nat := l.foldl (fun a x => match a with
  | none => some x
  | some y => some (min x y)) none

/-- Every slot of the wheel that holds an entry. -/
def State.wheelSlots (s : State) (n : Nat) : List Nat :=
  let x := s.rx n
  x.eq.flatMap (fun p => p.2.bucket.next.toList ++ p.2.gateWait.toList) ++
    x.groups.flatMap (fun p => p.2.bucket.next.toList) ++ x.ports.flatMap (fun p => p.2.bucket.next.toList)

/-- The earliest slot of the wheel comes due, when its time has come: every entry of it becomes eligible (R381). -/
def wheelDue (n : Nat) (s : State) : State :=
  match earliest (s.wheelSlots n) with
  | none => s
  | some t =>
    if s.orderNs < t then s
    else
      let s := ((s.rx n).eq.map (fun p => p.1 / 16)).eraseDups.foldl (fun s l => s.fresh n l) s
      let x := s.rx n
      let fb := fun (b : Bucket) => { b with next := leaveWheel t b.next }
      let s := s.setRx n { x with
        eq := (x.eq.map (fun p => (p.1, { p.2 with bucket := fb p.2.bucket, gateWait := leaveWheel t p.2.gateWait }))).filter (fun p => p.2 != {}),
        groups := (x.groups.map (fun p => (p.1, { p.2 with bucket := fb p.2.bucket }))).filter (fun p => p.2 != {}),
        ports := (x.ports.map (fun p => (p.1, { p.2 with bucket := fb p.2.bucket }))).filter (fun p => p.2 != {}) }
      (x.eq.map (fun p => p.1 / 16)).eraseDups.foldl (fun s l => s.fresh n l) s

/-- A write of `TM_PORT[l]`: with GATE_EN = 0 every gate is open, and no class waits for a window (R374, R382). -/
def State.gatesOff (s : State) (n l : Nat) : State :=
  if s.rb (TM_PORT.GATE_EN n l) then s
  else
    let s := s.fresh n l
    (List.range 16).foldl (fun s c =>
    let q := l * 16 + c
    if (s.egq n q).gateWait.isNone then s else s.setEgq n q { s.egq n q with gateWait := none }) s

/-! ### Selection (R375) -/

/-- The smallest start tag among some candidates; ties by the round robin over their numbers (R15). -/
def leastTag (last m : Nat) (tag : Nat → Nat) (p : Nat → Bool) : Option Nat :=
  (((List.range m).map (fun k => (last + 1 + k) % m)).filter p).foldl (fun a x => match a with
    | none => some x
    | some y => if seqLt (tag x) (tag y) then some x else some y) none

/-- The class that port `l` serves next: step 1, 2 or 3 of R375. -/
def State.choose (s : State) (n l : Nat) : Option (Nat × Nat) :=
  let elig := fun c => s.classElig n l c
  match (s.rx n).promoted.find? (fun q => q / 16 = l && elig (q % 16)) with
  | some q => some (q % 16, 1)
  | none =>
    match (List.range 16).reverse.find? (fun c => s.rb (TM_CLASS.STRICT n (l * 16 + c)) && elig c) with
    | some c => some (c, 2)
    | none =>
      let cs := fun g => (s.groupClasses n l g).filter elig
      match leastTag (s.sport n l).last 8 (fun g => (s.sgroup n l g).tag) (fun g => !(cs g).isEmpty) with
      | none => none
      | some g => (leastTag (s.sgroup n l g).last 16 (fun c => (s.egq n (l * 16 + c)).tag) (fun c => c ∈ cs g)).map (fun c => (c, 3))

/-- Advance the tags of a service of class `c` with shaping length `len` at step `st` (R376). -/
def State.advanceTags (s : State) (n l c len st : Nat) : State :=
  let q := l * 16 + c
  if s.rb (TM_CLASS.STRICT n q) then s
  else
    let g := s.classGroup n q
    let x := s.egq n q
    let y := s.sgroup n l g
    let z := s.sport n l
    let s := if st = 3 then s.setSport n l { z with vt := y.tag, last := g } else s
    let vt := if st = 3 then x.tag else y.vt
    let s := s.setSgroup n l g { y with
      vt := vt, last := if st = 3 then c else y.last, tag := (y.tag + len * 4096 / max 1 (s.rf (TM_GROUP.WEIGHT n l g))) % 2 ^ 32 }
    s.setEgq n q { x with tag := (x.tag + len * 4096 / max 1 (s.rf (TM_CLASS.WEIGHT n q))) % 2 ^ 32 }

/-- The three shapers of a service of `len` bytes (R380). -/
def State.spendAll (s : State) (n l c len : Nat) : State :=
  let q := l * 16 + c
  let g := s.classGroup n q
  let t := s.orderNs
  let s := s.setEgq n q { s.egq n q with bucket := (s.egq n q).bucket.spend (s.rf (TM_CLASS.RATE n q)) (s.rf (TM_CLASS.BURST n q)) len t }
  let s := s.setSgroup n l g { s.sgroup n l g with
    bucket := (s.sgroup n l g).bucket.spend (s.rf (TM_GROUP.RATE n l g)) (s.rf (TM_GROUP.BURST n l g)) len t }
  let s := s.setSport n l { s.sport n l with
    bucket := (s.sport n l).bucket.spend (s.rf (TM_PORT.RATE n l)) (s.rf (TM_PORT.BURST n l)) len t }
  let k := [(s.egq n q).bucket.next, (s.sgroup n l g).bucket.next, (s.sport n l).bucket.next].countP Option.isSome
  if k = 0 then s else s.ev (120 + n) 0x16 none k s.strokeNow (l + c * 256 + s.strokeNow * 2 ^ 32)

/-- Show whether class queue `q` is promoted. -/
def State.setPromoted (s : State) (n q : Nat) (b : Bool) : State :=
  let l := (s.rx n).promoted.filter (· != q)
  let s := s.setRx n { s.rx n with promoted := if b then l ++ [q] else l }
  let s := s.wb (TM_CLASS.PROMOTED n q) b
  s.wf (TM_PORT.URGENT n (q / 16)) (putBits (s.rf (TM_PORT.URGENT n (q / 16))) (q % 16) 1 (b2n b))

/-- Class queue `q` has been eligible without being selected for STARVE_US (R377). -/
def State.starved (s : State) (n q : Nat) : Bool :=
  match (s.egq n q).since with
  | some t => decide (t + s.rf (TM_CLASS.STARVE_US n q) * 1000 ≤ s.orderNs)
  | none => false

/-- A class eligible but not selected for STARVE_US is promoted (R377). -/
def starvePromote (n q : Nat) (s : State) : State :=
  if 1056 ≤ q then s
  else
    let s := s.freshClass n (q / 16) (q % 16)
    if s.rf (TM_CLASS.STARVE_US n q) != 0 && s.classElig n (q / 16) (q % 16) && s.starved n q && !(q ∈ (s.rx n).promoted) then
      (s.setPromoted n q true).count (TM_CNT.COUNT n 5) s.strokeNow
    else s

/-! ### Gate waits and drops (R383) -/

/-- Drop the head of class `c` when it can never fit: D exceeds the longest open window computed when the bank became active (R383). -/
def State.gateDrop (s : State) (n l c : Nat) : Nat → State
  | 0 => s
  | k + 1 =>
    let q := l * 16 + c
    match (s.egq n q).ents with
    | [] => s
    | e :: r =>
      if !s.gated n l then s
      else match (s.gate n l).longest.getD c none with
        | none => s
        | some w =>
          if w != 0 && decide (w < s.gateNeed n l e.frame) then
            (((s.setEgEnts n q r).count (TM_CNT.COUNT n 4) s.strokeNow).loseEg n e.frame 14).gateDrop n l c k
          else s

/-- Drop every head of a port that can never fit. -/
def State.gateDrops (s : State) (n l : Nat) : State :=
  (List.range 16).foldl (fun s c => s.gateDrop n l c (s.egq n (l * 16 + c)).ents.length) s

/-- A class whose head does not fit waits on the wheel for the start of the next open window (R383). -/
def State.gateWaits (s : State) (n l : Nat) : State :=
  (List.range 16).foldl (fun s c =>
    let q := l * 16 + c
    match (s.egq n q).ents with
    | [] => s
    | e :: _ =>
      if (s.egq n q).gateWait.isSome || s.gateFits n l c e.frame then s
      else match nextOpen (segsFrom (s.gateOffset n l) (s.gateSegs n l c)) with
        | none => s
        | some d =>
          let s := s.setEgq n q { s.egq n q with gateWait := some (cdiv (s.orderNs + d) 8 * 8) }
          let it := l + c * 256 + s.strokeNow * 2 ^ 32
          (s.ev (120 + n) 0x15 none 1 s.strokeNow it).ev (120 + n) 0x16 none 1 s.strokeNow it) s

/-! ### The dipstick (R391) -/

/-- Add a sample to histogram `h` (0 depth, 1 delay) of queue `q`. -/
def State.dipAdd (s : State) (n q h v : Nat) : State :=
  if s.rb (TM_CFG.DIP_EN n) && s.counts s.strokeNow then
    let x := s.rx n
    let i := q * 128 + h * 64 + histBin v
    let m := q * 2 + h
    let lim := if h = 0 then 2 ^ 17 - 1 else 2 ^ 32 - 1
    s.setRx n { x with dip := mset 0 x.dip i (satAdd 32 (mget 0 x.dip i) 1), dipMax := mset 0 x.dipMax m (max (mget 0 x.dipMax m) (min v lim)) }
  else s

/-- The dipstick samples the next queue's depth. -/
def dipSample (n : Nat) (s : State) : State :=
  let q := (s.rx n).dipAt
  let s := s.dipAdd n q 0 (mget 0 (s.rx n).eqUnits q)
  s.setRx n { s.rx n with dipAt := (q + 1) % 1056 }

/-- A write of `TM_DIP_SEL`: the copy of a queue's histograms, and their clearing. -/
def dipSelWrite (n : Nat) (v : Word) (s : State) : State :=
  let q := v.toNat % 2048
  let s := (s.wf (TM_DIP_SEL.QUEUE n) q).wf (TM_DIP_SEL.CLEAR n) (v.toNat / 2048)
  let x := s.rx n
  let s := (List.range 128).foldl (fun s b => s.wf (TM_DIP_BIN.COUNT n b) (mget 0 x.dip (q * 128 + b))) s
  let s := (s.wf (TM_DIP_MAX.DEPTH n) (mget 0 x.dipMax (q * 2))).wf (TM_DIP_MAX_DELAY.NS n) (mget 0 x.dipMax (q * 2 + 1))
  let s := s.wf (TM_DIP_SEL.READY n) 1
  if bit v.toNat 11 then
    s.setRx n { s.rx n with dip := x.dip.filter (fun p => p.1 / 128 != q), dipMax := x.dipMax.filter (fun p => p.1 / 2 != q) }
  else s

/-! ### The egress MAC (R55, R56, R66 to R70, R451) -/

/-- The domain that the cell of port `p` stamps with: the active one, or its other copy while that is in error (R522). -/
def State.stampDomOf (s : State) (p : Nat) : Nat :=
  let d := s.rf TIME_STATUS.STAMP_ACTIVE
  if (if d = 0 then (s.cell p).badA else (s.cell p).badB) then 1 - d else d

/-- A physical stamp in quarter nanoseconds: the cell's time and a signed correction in 1/16 ns (R65). -/
def stampQ (time adj : Nat) : Nat := (((time / 2 ^ 28 : Nat) : Int) + signed 16 adj).toNat / 4

/-- The stamp block's word 2 and the bits of word 3 that a stamp gives, LEN apart (Table DS-5). -/
def stampWords (q dom : Nat) : Nat × Nat :=
  let ns := q / 4
  (ns % 10 ^ 9 + q % 4 * 2 ^ 30, 2 ^ 14 + dom * 2 ^ 15 + ns / 10 ^ 9 % 2 ^ 15 * 2 ^ 16)

/-- The chain of a frame whose first copy starts on a front-panel port completes with the copy's stamp (R451). -/
def State.txStamp (s : State) (f : Frame) (q dom : Nat) : State :=
  match f.tx with
  | none => s
  | some r => s.txMap r (fun x => if x.tsReq then x.finish 0 (stampWords q dom).1 (stampWords q dom).2 else x)

/-- Add to a correctionField, saturating (R68). -/
def addCorrection (d : List Byte) (i : Nat) (v : Int) : List Byte :=
  let c := min (signed 64 (beAt d (i + 8) 8) + v) ((2 ^ 63 - 1 : Nat) : Int)
  overwrite d (i + 8) (bytesBE 8 (unsigned 64 c))

/-- The message at `i` is a Sync with twoStepFlag clear. -/
def oneStepSync (d : List Byte) (i : Nat) : Bool :=
  byteAt d i % 16 = 0 && !bit (byteAt d (i + 6)) 1 && decide (i + 44 ≤ d.length)

/-- The egress MAC's PTP handling of a frame with egress stamp `q` of domain `dom` (R66 to R69): its bytes, whether a residence update
was skipped, and whether its stamp is reported. -/
def ptpEgress (one tc two : Bool) (f : Frame) (q dom : Nat) : List Byte × Bool × Bool :=
  let d := f.data
  match ptpAt d with
  | none => (d, false, false)
  | some i =>
    let ok := f.stampDom = dom
    let d1 := if tc && ok then addCorrection d i (((q : Int) - f.stamp) * 2 ^ 14) else d
    let sync := one && oneStepSync d i
    let ns := q / 4
    let d2 := if sync then
        overwrite (addCorrection d1 i ((q % 4 * 2 ^ 14 : Nat) : Int)) (i + 34) (bytesBE 6 (ns / 10 ^ 9) ++ bytesBE 4 (ns % 10 ^ 9))
      else d1
    (fixSums d d2, tc && !ok, two && !sync)

/-- Report an egress stamp (R69, Table DS-14). -/
def State.stampReport (s : State) (n l : Nat) (d : List Byte) (q dom : Nat) : State :=
  match ptpAt d with
  | none => s
  | some i =>
    let ns := q / 4
    s.raiseRec ⟨regionSrc 0x280 n + l, 2, globalOf n l + be16 d (i + 30) * 2 ^ 16, byteAt d (i + 4) + byteAt d i % 16 * 2 ^ 8, 0,
      bytesLE 4 (ns % 10 ^ 9 + q % 4 * 2 ^ 30) ++ bytesLE 4 (ns / 10 ^ 9) ++ bytesLE 4 (ns / 10 ^ 9 / 2 ^ 32 % 2 ^ 16 + dom * 2 ^ 16)⟩

/-- Count a frame that leaves port `l` (R599, Table CT-2). -/
def State.countSent (s : State) (n l bytes : Nat) : State :=
  let t := s.strokeNow
  let u := 8 * n + l / 8
  let s := (s.portCount n l 2 t).countBy (pbf (fun a b c => PB_PORT_CNT.COUNT a b c 3) n l) bytes t
  (s.ev u 0x12 (some (l % 8)) 1 t (t * 2 ^ 32)).ev u 0x13 (some (l % 8)) bytes t (t * 2 ^ 32)

/-- The egress MAC of front-panel port `l` sends a frame; `good` is false when its data met an error (R55, R355). -/
def State.transmit (s : State) (n l cyc : Nat) (f : Frame) (good : Bool) : State :=
  let p := globalOf n l
  let dom := s.stampDomOf p
  let q := stampQ (s.cellTime p dom cyc) (s.rf (pbf PB_TS_ADJ.EGRESS n l))
  let t := s.strokeNow
  let x := ptpEgress (s.rb (pbf PB_TS_CFG.ONE_STEP n l)) (s.rb (pbf PB_TS_CFG.TC n l)) (s.rb (pbf PB_TS_CFG.TWO_STEP n l)) f q dom
  let good := good && !f.bad
  let s := s.emitFrame n l (padTo 60 x.1) good
  let s := s.countSent n l (max 64 (x.1.length + 4))
  let s := if good then s else s.portCount n l 14 t
  let s := if f.cut then (s.portCount n l 23 t).ev (8 * n + l / 8) 0x17 (some (l % 8)) 1 t (t * 2 ^ 32) else s
  let s := if x.2.1 then s.portCount n l 21 t else s
  let s := s.txStamp f q dom
  if x.2.2 then s.stampReport n l x.1 q dom else s

/-- A frame's residence exceeds MAX_RES_MS of port `l` (R84). -/
def State.tooOld (s : State) (n l : Nat) (f : Frame) : Bool :=
  decide (l < 64) && decide (s.rf (pbf PB_DOWN_CFG.MAX_RES_MS n l) * 1000000 < (s.dom f.stampDom).ns - f.stamp / 4)

/-- What the MAC does with a selected frame: a host channel takes it over for delivery (R421); a front-panel port flushes it when it is too old
(R84), drops it in lockstep (R537), or sends it; data in error is discarded at the point of detection, a begun frame ended by R55 (R355): a buffer
known to be in error is never begun. -/
def State.toMac (s : State) (n l c cyc : Nat) (f : Frame) (flt : SelectFault) : State :=
  if (s.bufx n f.buf).corrupt then
    (s.cisCount n 10 f.key.stroke).loseEg n f (if 64 ≤ l then 15 else 13)
  else if 64 ≤ l then
    match flt with
    | .data loc => (((s.detect n 0 loc.toNat false).cisErrAt (CIS_ERR.DATA_PARITY n) n f.buf).cisCount n 10 f.key.stroke).loseEg n f 15
    | _ => s.withHostRx (mset none s.hostRx (2 * n + (l - 64)) (some (f, c)))
  else if s.tooOld n l f then (s.portCount n l 19 s.strokeNow).loseEg n f 14
  else if s.lockstep then s.loseEg n f 13
  else
    match flt with
    | .mac => ((s.detect n 0 0 false).setErr (PB_BLOCK_ERR.PARITY n (l / 8)) (regionSrc 0x2C0 n + l / 8)).loseEg n f 13
    | .data loc =>
      let s := ((s.detect n 0 loc.toNat false).cisErrAt (CIS_ERR.DATA_PARITY n) n f.buf).cisCount n 10 f.key.stroke
      (s.transmit n l cyc f false).loseEg n f 13
    | _ => (s.transmit n l cyc f true).dropEg n f 13

/-- The egress MAC of a port can accept a frame: its link is up with the transmit gate open (R533) or in lockstep (R537), and not in quiet
(R123); a host channel's has nothing to deliver (R421). -/
def State.macReady (s : State) (n l : Nat) : Bool :=
  if 64 ≤ l then (mget none s.hostRx (2 * n + (l - 64))).isNone
  else (s.rb PAIR_STATUS.GATE || s.lockstep) && s.rb (pbf PB_PORT_STATUS.LINK_UP n l) && !s.rb (LANE_PORT_STATUS.TX_QUIET n l)

/-- Serve class `c` of port `l`, chosen at step `st` of R375. -/
def State.serve (s : State) (n l c st cyc : Nat) (flt : SelectFault) : State :=
  let q := l * 16 + c
  match (s.egq n q).ents with
  | [] => s
  | e :: r =>
    let len := wireLen e.frame
    let shaped := len + s.rf (TM_PORT.OVERHEAD n l)
    let t := s.strokeNow
    let it := l + c * 256 + t * 2 ^ 32
    let u := 120 + n
    let s := ((s.ev u 0x10 (some c) 1 t it).ev u 0x11 (some c) len t it).ev u 0x12 none (b2n (st = 1)) t it
    let s := (s.advanceTags n l c shaped st).spendAll n l c shaped
    let s := if q ∈ (s.rx n).promoted then s.setPromoted n q false else s
    let s := s.setEgq n q { s.egq n q with since := some s.orderNs }
    let s := s.dipAdd n q 1 (s.orderNs - e.at_)
    (s.setEgEnts n q r).toMac n l c cyc e.frame flt

/-- A port's scheduler state was in error (R393): its tags go to its virtual times and its shapers to full. -/
def State.schedReset (s : State) (n l : Nat) : State :=
  let s := (List.range 16).foldl (fun s c =>
    let i := l * 16 + c
    let x := s.egq n i
    s.setEgq n i { x with tag := (s.sgroup n l (s.classGroup n i)).vt, bucket := {}, gateWait := none }) s
  let s := (List.range 8).foldl (fun s g =>
    let x := s.sgroup n l g
    s.setSgroup n l g { x with tag := (s.sport n l).vt, bucket := {} }) s
  s.setSport n l { s.sport n l with bucket := {} }

/-- The scheduler of port `l` finds an error of its state, at class queue `q` (R393). -/
def State.schedError (s : State) (n l q : Nat) : State := ((s.detect n 7 0 false).tmErr (TM_ERR.SCHED_PARITY n) n 1 q).schedReset n l

/-- The egress MAC of port `l` can accept a frame and the port selects one (R375). -/
def portSelect (n l cyc : Nat) (flt : SelectFault) (s : State) : State :=
  match flt with
  | .links loc => ((s.detect n 7 loc.toNat false).tmErr (TM_ERR.STATE_PARITY n) n 1 (l * 16)).quarantine n 2
  | _ =>
    let s := match flt with
      | .sched q => s.schedError n l q.toNat
      | _ => s
    let s := (s.gateDrops n l).fresh n l
    if s.macReady n l then
      match s.choose n l with
      | some (c, st) => ((s.serve n l c st cyc flt).fresh n l).gateWaits n l
      | none => s.gateWaits n l
    else s

/-! ### Gate lists (R382, R384) -/

/-- The activation instant of a switch written now (R384). -/
def gateInstant (now base cycle : Nat) : Nat :=
  if now + 1000 ≤ base then base else base + cdiv (now + 1000 - base) cycle * cycle

/-- A write of word 0 of `TM_GATE_CTRL`: its fields, then SWITCH (R384, R400); a host channel's is ignored. -/
def gateCtrlWrite (n l : Nat) (v : Word) (s : State) : State :=
  let s := (s.wf (TM_GATE_CTRL.ADMIN_LEN n l) (min 256 (v.toNat % 512))).wf (TM_GATE_CTRL.UNIT n l) (v.toNat / 512)
  if !bit v.toNat 11 || decide (64 ≤ l) then s
  else
    let cycle := s.rf (TM_GATE_CTRL.CYCLE_NS n l)
    let len := s.rf (TM_GATE_CTRL.ADMIN_LEN n l)
    if s.rb (TM_GATE_CTRL.PENDING n l) || cycle = 0 || len = 0 then s.tmErr (TM_ERR.CFG_IGNORED n) n 2 (l * 512)
    else
      let base := s.rf (TM_GATE_CTRL.BASE n l)
      let x := s.gate n l
      (s.wf (TM_GATE_CTRL.PENDING n l) 1).setGate n l
        { x with pendAt := some (gateInstant s.orderNs base cycle), base := base, len := len, unit := s.rf (TM_GATE_CTRL.UNIT n l), cycle := cycle }

/-- The pending bank becomes active at its instant (R384), and heads that can never fit are dropped (R383). -/
def gateActivate (n l : Nat) (s : State) : State :=
  let x := s.gate n l
  match x.pendAt with
  | none => s
  | some t =>
    if s.orderNs < t then s
    else
      let s := (s.wf (TM_GATE_CTRL.PENDING n l) 0).wf (TM_GATE_CTRL.ACTIVE n l) (1 - s.rf (TM_GATE_CTRL.ACTIVE n l))
      let s := ((s.wf (TM_GATE_CTRL.ACT_LEN n l) x.len).wf (TM_GATE_CTRL.ACT_UNIT n l) x.unit).wf (TM_GATE_CTRL.ACT_CYCLE_NS n l) x.cycle
      let s := (s.fresh n l).setGate n l { x with pendAt := none, actBase := x.base }
      let s := s.setGate n l { s.gate n l with longest := (List.range 16).map (fun c => longestOpen (s.gateSegs n l c)) }
      let s := (List.range 16).foldl (fun s c => s.setEgq n (l * 16 + c) { s.egq n (l * 16 + c) with gateWait := none }) s
      ((s.raise (regionSrc 0x361 n) l).gateDrops n l).fresh n l

/-- An interval of the active list ends and the next entry's gates apply; an entry read in error closes every gate for its interval
until it is rewritten (R382, R393). -/
def gateEntryChange (n l : Nat) (bad : Option (Fin 256)) (s : State) : State :=
  let s := match bad with
    | none => s
    | some i =>
      let k := l * 512 + s.rf (TM_GATE_CTRL.ACTIVE n l) * 256 + i.val
      let s := (s.detect n 5 0 false).tmErr (TM_ERR.GATE_PARITY n) n 2 k
      s.setRx n { s.rx n with gateBad := setMember (s.rx n).gateBad k true }
  ((s.gateDrops n l).fresh n l).gateWaits n l

/-! ### Meanings -/

/-- The traffic manager of region `n` works. -/
def State.tmRuns (s : State) (n : Nat) : Bool := s.running && s.regionOn n

def execPortSelect (n : Region) (l : Fin 66) (cyc : BitVec 11) (flt : SelectFault) (s : State) : Host.Outcome State Fault Refusal :=
  .next (if s.tmRuns n then portSelect n l cyc.toNat flt s else s)

def execWheelSlotDue (n : Region) (s : State) : Host.Outcome State Fault Refusal := .next (if s.tmRuns n then wheelDue n s else s)

def execStarvePromote (n : Region) (q : BitVec 11) (s : State) : Host.Outcome State Fault Refusal :=
  .next (if s.tmRuns n then starvePromote n q.toNat s else s)

def execGateEntryChange (n : Region) (l : Fin 64) (bad : Option (Fin 256)) (s : State) : Host.Outcome State Fault Refusal :=
  .next (if s.gated n l && s.tmRuns n then gateEntryChange n l bad s else s)

def execGateSwitch (n : Region) (l : Fin 66) (v : Word) (s : State) : Host.Outcome State Fault Refusal :=
  .next (onWrite (gateCtrlWrite n l (BitVec.ofNat 32 (putBits v.toNat 11 1 1))) s)

def execGateBankActivate (n : Region) (l : Fin 64) (s : State) : Host.Outcome State Fault Refusal :=
  .next (if s.alive then gateActivate n l s else s)

def execDipstickSample (n : Region) (s : State) : Host.Outcome State Fault Refusal := .next (if s.tmRuns n then dipSample n s else s)

def execDipstickCopy (n : Region) (v : Word) (s : State) : Host.Outcome State Fault Refusal := .next (onWrite (dipSelWrite n v) s)

end Sys2Proof.Machine
end

