-- ==== Sys2Proof/Machine/PairOps.lean ====
section
/-! DEFINITION. What the rest of the device shares with the redundancy pair (file 16): its states (R536), what the ledger keeps of each
stroke (R538), the match of held frames to ordering keys (R539), the loss of lockstep (R542), and the stamping of frames (R27 to R29). -/

namespace Sys2Proof.Machine

def State.setPairx (s : State) (x : PairX) : State := s.withPairx x

/-- The pair logic runs: in Running, up to the stroke of a quiesce (R607, R617). -/
def State.pairRuns (s : State) : Bool := s.running && !s.chip.quiescing

/-- Set a bit of `PAIR_ERR` other than LS_LOST, raising event 0xF11 (R551). -/
def State.pairErr (s : State) (f : Fld) : State := s.setErr f 0xF11

/-! ### Health (R547) -/

/-- The device is healthy. -/
def State.isHealthy (s : State) : Bool :=
  let m := s.rf PAIR_CFG.HEALTH_MASK
  s.running && !(bit m 0 && s.rf SP_STATUS.QUARANTINED != 0) &&
    !(bit m 1 && (List.range 64).any (fun i => s.rf (HBM_CH_STATUS.STATE (i / 16) (i % 16)) = 6)) &&
    !(bit m 2 && s.reg CHIP_DET_STATUS.w != 0) &&
    !(bit m 3 && s.links.any (fun p => decide (p.1 < 512) && decide (p.2.state = lkFailed)))

/-- The conditions of a reversion hold, the hold-off apart. -/
def State.mayRevert (s : State) : Bool :=
  s.isHealthy && s.rb PAIR_CFG.PREFERRED && s.rb PAIR_STATUS.LINK && decide (s.rf PAIR_STATUS.PEER_STATE = 1) &&
    !s.pairx.peerPreferred && (s.pairState = 3 || (s.pairState = 2 && s.rb PAIR_CFG.REVERT_COLD))

/-- Bring HEALTHY and HOLDOFF_LEFT up to date: the hold-off restarts whenever a condition fails. -/
def State.showHealth (s : State) : State :=
  let s := s.wb PAIR_STATUS.HEALTHY s.isHealthy
  let now := s.time.tick
  let since := if s.mayRevert then some (s.pairx.holdoff.getD now) else none
  let s := s.setPairx { s.pairx with holdoff := since }
  s.wf PAIR_STATUS.HOLDOFF_LEFT (match since with
    | some t => s.rf PAIR_CFG.HOLDOFF_S - (now - t) / 10 ^ 9
    | none => 0)

/-- Enter a pair state and raise event 0xF10 with what `PAIR_STATUS` then shows (R551). Strokes come from the ledger in Standby-Lockstep (R539), and
after a handover until the last of its frames is matched (R546). -/
def State.setPairState (s : State) (st : Nat) : State :=
  let s := s.wf PAIR_STATUS.STATE st
  let s := s.wb CHIP_STROKE_CFG.SRC_LEDGER (st = 3 || (st = 4 && s.pairx.back = 3) ||
    (st = 1 && s.pairx.yieldAt.isSome && s.rb CHIP_STROKE_CFG.SRC_LEDGER))
  let s := s.showHealth
  s.raise 0xF10 (s.reg PAIR_STATUS.w).toNat

/-! ### Stamping (R27 to R29) -/

/-- The ordering key of the next frame stamped on a port whose time is in stroke `t` (R27, R29). -/
def State.stampKey (s : State) (p t : Nat) : State × FKey :=
  let t := raiseTo s.pairx.floor (raiseTo s.time.floor t)
  let last := mget (0, 0) s.lastKey p
  let clamp := decide (last.2 ≠ 0) && strokeLt t last.1
  let t := if clamp then last.1 else t
  let q := if decide (last.2 ≠ 0) && t = last.1 then last.2 else 0
  let s := s.withLastKey (mset (0, 0) s.lastKey p (t, q + 1))
  (if clamp then s.detSet CHIP_DET_STATUS.ORDER_CLAMP t else s, ⟨t, p, q % 2 ^ 16⟩)

/-! ### What the active keeps for its ledger (R538) -/

/-- The device sends ledger records. -/
def State.sendsLedger (s : State) : Bool := s.rf PAIR_CFG.MODE = 2 && s.pairState = 1

/-- The device keeps what its ledger records will hold: as the active, and from the takeover of its own strokes on (R546). -/
def State.keepsLedger (s : State) : Bool :=
  s.rf PAIR_CFG.MODE = 2 && (s.pairState = 1 || (s.pairMode = 3 && !s.rb CHIP_STROKE_CFG.SRC_LEDGER))

/-- Change what is kept of stroke `t`. -/
def ledUpd (t : Nat) (g : LedX → LedX) : List LedX → List LedX
  | [] => [g { stroke := t }]
  | x :: l => if x.stroke = t then g x :: l else x :: ledUpd t g l

def State.ledger (s : State) (t : Nat) (g : LedX → LedX) : State :=
  if s.keepsLedger then s.setPairx { s.pairx with led := ledUpd t g s.pairx.led } else s

/-- A SEQ value of a port was consumed. -/
def State.ledCount (s : State) (k : FKey) : State :=
  s.ledger k.stroke (fun x => { x with counts := mset 0 x.counts k.port (mget 0 x.counts k.port + 1) })

/-- Its frame did not become a received frame: KIND 0 when the MAC refused it, 1 when admission did. -/
def State.ledSkip (s : State) (k : FKey) (kind : Nat) : State :=
  s.ledger k.stroke (fun x => { x with skips := x.skips ++ [(k.port, k.seq, kind)] })

/-- Its frame was received, with this FCS. -/
def State.ledFcs (s : State) (k : FKey) (fcs : Nat) : State :=
  s.ledger k.stroke (fun x => { x with fcs := x.fcs ++ [(k.num, fcs)] })

/-! ### Into the ingress pipeline (R24, R155) -/

/-- A frame with its key and buffer waits for its header to be taken. -/
def State.intoPipe (s : State) (f : Frame) : State :=
  let x := s.pipe f.region f.pipe
  s.setPipe f.region f.pipe { x with inq := mset [] x.inq (inputOf f.key.port) (mget [] x.inq (inputOf f.key.port) ++ [f]) }

/-- The 4-byte FCS of a frame as a number of its bytes in little-endian order. -/
def fcsOf (d : List Byte) : Nat := crc32 d

/-- Admit a frame that has its key under R326 and R327, or drop it; the ledger keeps which. -/
def State.admitKeyed (s : State) (f : Frame) : State :=
  match s.takeIn f.region (localOf f.key.port) f.data f.key.stroke f.key.num with
  | (s, none) => (s.txRefused f).ledSkip f.key 1
  | (s, some h) => ((if f.bad then s.ledSkip f.key 0 else s.ledFcs f.key (fcsOf f.data)).txAdmitted f).intoPipe { f with buf := h, origLen := f.len }

/-! ### Taking the device's own strokes (R546, R548) -/

/-- The device takes its own strokes, from `f` on: frames that no record has matched get the strokes they had by its own source, and are
admitted. -/
def State.takeOwn (s : State) (f : Nat) : State :=
  let held := s.pairx.held
  let s := s.setPairx { s.pairx with held := [], recs := [], floor := some f, ledNext := some f, ownSince := some s.time.tick }
  let s := s.wf CHIP_STROKE_CFG.SRC_LEDGER 0
  held.foldl (fun s h =>
    let (s, k) := s.stampKey h.frame.key.port h.own
    (s.ledCount k).admitKeyed { h.frame with key := k }) s

/-- The least own stroke of a unit that leaves the ledger: H, or S_last + 1. -/
def State.ownFrom (s : State) : Nat := s.pairx.yieldAt.getD ((s.rf PAIR_LAST_LEDGER.STROKE + 1) % 2 ^ 48)

/-- Leave the ledger, recording the handover stroke of a yield. -/
def State.leaveLedger (s : State) : State :=
  if s.rb CHIP_STROKE_CFG.SRC_LEDGER then
    let s := match s.pairx.yieldAt with
      | some h => s.wf PAIR_HANDOVER_STROKE.STROKE h
      | none => s
    let s := s.takeOwn s.ownFrom
    if s.pairState = 1 then s.setPairx { s.pairx with yieldAt := none } else s
  else s

/-! ### Losing lockstep (R542) -/

/-- The first stroke that a lockstep standby has not completed. -/
def State.incomplete (s : State) : Nat :=
  match s.pairx.recs with
  | r :: _ => r.stroke
  | [] => (s.rf PAIR_LAST_LEDGER.STROKE + 1) % 2 ^ 48

/-- Lockstep is lost: frames not yet admitted are discarded, the device enters Standby-Cold, and it makes the changes of the strokes that it has
completed alone. A unit that has claimed already takes its own strokes (R546). -/
def State.loseLockstep (s : State) (cause digest : Nat) : State :=
  if s.pairState = 1 then s.leaveLedger
  else
    let s := if s.reg PAIR_ERR.w = 0 then
        ((s.wf PAIR_ERR_LOC.CAUSE cause).wf PAIR_ERR_LOC.DIGEST digest).wf PAIR_ERR_LOC.STROKE (s.strokeNow % 2 ^ 25)
      else s
    let held := s.pairx.held
    let s := s.setPairx { s.pairx with
      held := [], recs := [], peerDigs := [], rxSeq := none, ownSince := some s.time.tick, coldFrom := some s.incomplete }
    let s := held.foldl (fun s h => s.txRefused h.frame) s
    let s := (s.wf PAIR_ERR.LS_LOST 1).setPairState 2
    s.raise 0xF12 (s.reg PAIR_ERR_LOC.w).toNat

/-- Lose lockstep when in it. -/
def State.loseIfLockstep (s : State) (cause : Nat) : State := if s.pairMode = 3 then s.loseLockstep cause 0 else s

/-! ### The ledger match (R539) -/

/-- The first held frame of a port, and the others. -/
def takeHeld (p : Nat) : List HeldRx → Option (HeldRx × List HeldRx)
  | [] => none
  | h :: l => if h.frame.key.port = p then some (h, l) else (takeHeld p l).map (fun r => (r.1, h :: r.2))

/-- Match held frames to the slots of the oldest records, at most `k` steps; a record whose slots are done is checked by its FCSD. -/
def State.matchLedger (s : State) : Nat → State
  | 0 => s
  | k + 1 =>
    match s.pairx.recs with
    | [] => s
    | r :: rest =>
      match r.todo with
      | [] =>
        if r.acc ^^^ 0xFFFFFFFF = r.fcsd then (s.setPairx { s.pairx with recs := rest }).matchLedger k
        else s.loseLockstep 2 0
      | (p, q, skip) :: todo =>
        match takeHeld p s.pairx.held with
        | none => s
        | some (h, held) =>
          let acc := (bytesLE 4 (fcsOf h.frame.data)).foldl (crcByte 0x82F63B78) r.acc
          let s := s.setPairx { s.pairx with recs := { r with acc := acc, todo := todo } :: rest, held := held }
          if skip then ((s.count (PAIR_CNT.COUNT 4) r.stroke).txRefused h.frame).matchLedger k
          else
            let n := h.frame.region
            match s.pickPool n (h.frame.data.length + 4) with
            | none => (s.txRefused h.frame).loseLockstep 6 0
            | some pool =>
              let l := localOf p
              let (s, b) := s.takeBuf n pool false l (s.ingressClass n l h.frame.data)
              let key : FKey := ⟨r.stroke, p, q⟩
              let s := (s.ev (112 + n) 0x10 (some pool) 1 r.stroke key.num).count (PAIR_CNT.COUNT 2) r.stroke
              ((s.txAdmitted h.frame).intoPipe { h.frame with key := key, buf := b, origLen := h.frame.len }).matchLedger k

/-- Match as far as the records and the held frames go. -/
def State.matchAll (s : State) : State :=
  s.matchLedger ((s.pairx.recs.map (fun r => r.todo.length + 1)).sum)

/-- Hold a frame that the MAC of a lockstep standby has accepted (R539), in stroke `own` by its own source. -/
def State.holdRx (s : State) (f : Frame) (own : Nat) : State :=
  (s.setPairx { s.pairx with held := s.pairx.held ++ [⟨f, s.time.tick, own⟩] }).matchAll

/-- Frames of stroke `t` get their keys from the ledger: in lockstep, and on an Active device that hands over, from stroke H on (R539, R546). -/
def State.fromLedger (s : State) (t : Nat) : Bool :=
  s.rb CHIP_STROKE_CFG.SRC_LEDGER || (s.pairState = 1 && s.pairx.yieldAt.any (fun h => strokeLe h t))

end Sys2Proof.Machine
end

