-- ==== Sys2Proof/Machine/Ports.lean ====
section
/-! DEFINITION. The port blocks (file 02): reception (R52 to R54), the violation log (R80, R666), pause and PFC (R59 to R64), the storm
watchdog (R63), and ports that go down and come up (R82, R83). -/

namespace Sys2Proof.Machine

/-! ### Violations (R80, R81, R666) -/

/-- Enter a partner violation in a port's log. -/
def State.viol (s : State) (n l code lane : Nat) : State :=
  let v := pbf PB_VIOL_CTRL.VALID n l
  let b := PB_VIOL_LOG.w n (l / 8) (l % 8) 0
  if s.rf v != 0 && s.logTop b 2 v 0 % 2048 = code + 256 * lane then
    s.addSat ⟨b + (s.rf v - 1) * 2, 16, 16⟩ 1
  else
    let was := s.rf v
    let s := s.logAdd b 2 16 v (pbf PB_VIOL_CTRL.OVERWRITTEN n l) [code + 256 * lane, s.strokeNow % 2 ^ 32]
    if was = 0 then s.raise (regionSrc 0x200 n + l) (s.logTop b 2 v 0) else s

/-- A write of `PB_VIOL_CTRL`: CLEAR empties the log. -/
def violCtrlWrite (n l : Nat) (v : Word) (s : State) : State :=
  if bit v.toNat 16 then s.logClear (pbf PB_VIOL_CTRL.VALID n l) else s

/-! ### Flushes (R63, R83, R337) -/

/-- Mark the entries of the port lists for port `l` of region `d`, classes `cls`, in every ingress region; how many are marked now. -/
def State.markVoqs (s : State) (d l : Nat) (cls : List Nat) : State × Nat :=
  (List.range 8).foldl (fun r i =>
    let hit := fun (p : Nat × QueueX) => decide (p.1 % 68 = l) && decide (p.1 / 68 / 16 = d) && decide (p.1 / 68 % 16 ∈ cls)
    let x := r.1.rx i
    let k := ((x.voq.filter hit).map (fun p => (p.2.ents.filter (fun e => !e.marked)).length)).sum
    let voq := x.voq.map (fun p => if hit p then (p.1, { p.2 with ents := p.2.ents.map (fun e => { e with marked := true }) }) else p)
    (r.1.setRx i { x with voq := voq }, r.2 + k)) (s, 0)

/-- Flush the frames queued for classes `cls` of front-panel port `l`, counting them in port counter `c` and, where they lie in the traffic
manager, in `CIS_CNT[7]`; a marked frame of an ingress queue is counted there when it reaches the head. -/
def State.flushPort (s : State) (d l : Nat) (cls : List Nat) (c : Nat) : State :=
  let t := s.strokeNow
  let r := s.markVoqs d l cls
  let s := r.1.countBy (pbf (fun a b p => PB_PORT_CNT.COUNT a b p c) d l) r.2 t
  cls.foldl (fun s k =>
    let es := (s.egq d (l * 16 + k)).ents
    let s := s.setEgEnts d (l * 16 + k) []
    es.foldl (fun s e => ((s.portCount d l c t).cisCount d 7 t).loseEg d e.frame 14) s) s

/-! ### Ports down and up (R82, R83) -/

/-- The link event of a port (Table EV-7). -/
def State.linkEvent (s : State) (n l : Nat) : State := s.raise (regionSrc 0x240 n + l) (s.reg (PB_PORT_STATUS.w n (l / 8) (l % 8))).toNat

/-- The flap hold ends with the port down: every frame queued for it is flushed, and later ones are dropped at enqueue. -/
def State.holdFlush (s : State) (n l : Nat) : State :=
  let s := (s.wf (pbf PB_PORT_STATUS.FROZEN n l) 0).wf (pbf PB_PORT_STATUS.DOWN_DISCARD n l) 1
  s.flushPort n l (List.range 16) 17

/-- Link down is reported; `wire` says that a frame was on the wire (R82). A hold of 0 flushes at once. -/
def State.linkDown (s : State) (n l : Nat) (wire : Bool) : State :=
  if !s.rb (pbf PB_PORT_STATUS.LINK_UP n l) then s
  else
    let s := ((s.wf (pbf PB_PORT_STATUS.LINK_UP n l) 0).wf (pbf PB_PORT_STATUS.FROZEN n l) 1).wf (pbf PB_PORT_STATUS.TX_XOFF n l) 0
    let s := (s.fresh n l).setPport n l { s.pport n l with loop := [] }
    let s := if wire then s.portCount n l 15 s.strokeNow else s
    let s := if s.rf (pbf PB_DOWN_CFG.FLAP_HOLD_MS n l) = 0 then s.holdFlush n l else s
    s.linkEvent n l

/-- Link up is reported: frozen frames are sent in queue order. -/
def State.linkUp (s : State) (n l : Nat) : State :=
  let s := ((s.fresh n l).wf (pbf PB_PORT_STATUS.LINK_UP n l) 1).wf (pbf PB_PORT_STATUS.FROZEN n l) 0
  ((s.wf (pbf PB_PORT_STATUS.DOWN_DISCARD n l) 0).fresh n l).linkEvent n l

/-- FLAP_HOLD_MS expires with the port still down (R83). -/
def flapHoldExpiry (n l : Nat) (s : State) : State :=
  if s.rb (pbf PB_PORT_STATUS.FROZEN n l) && !s.rb (pbf PB_PORT_STATUS.LINK_UP n l) then s.holdFlush n l else s

/-! ### Pause and PFC (R59 to R64) -/

/-- A pause time received for a priority, already clamped; 0 releases it. The classes it pauses or releases are eligible no longer or again
(R374, R377). -/
def State.setQuanta (s : State) (n l p t : Nat) : State :=
  let s := s.fresh n l
  let x := s.pport n l
  (s.setPport n l { x with quanta := mset 0 x.quanta p t }).fresh n l

/-- A pause or PFC frame that passes its checks (R59, R61, R666). -/
def State.pauseReceive (s : State) (n l : Nat) (d : List Byte) : State :=
  let m := s.rf (pbf PB_FC_CFG.RX_QUANTA_MAX n l)
  let pfc := be16 d 14 = 0x0101
  let en := be16 d 16
  let times : List (Nat × Nat) :=
    if pfc then ((List.range 8).filter (bit en)).map (fun p => (p, be16 d (18 + 2 * p))) else [(0, be16 d 16)]
  let s := if pfc && decide (256 ≤ en) then s.viol n l 0x13 0 else s
  let s := if times.any (fun x => decide (m < x.2)) then s.viol n l 0x10 0 else s
  times.foldl (fun s x => s.setQuanta n l x.1 (min m x.2)) s

/-- An accepted MAC control frame (R54, R666). -/
def State.macControl (s : State) (n l : Nat) (key : FKey) (d : List Byte) : State :=
  let t := key.stroke
  let op := be16 d 14
  let mode := s.rf (pbf PB_FC_CFG.MODE n l)
  if beAt d 0 6 != ctlDa then (s.viol n l 0x15 0).portCount n l 12 t
  else if op != 1 && op != 0x101 then (s.viol n l 0x14 0).portCount n l 12 t
  else
    let s := (s.portCount n l 11 t).ev (8 * n + l / 8) 0x15 (some (l % 8)) 1 t key.num
    if mode != 1 && mode != 2 then s.viol n l 0x11 0
    else if (op = 1) != (mode = 1) then s.viol n l 0x12 0
    else s.pauseReceive n l d

/-- The pause time of priority `p` runs out (R64). -/
def pauseExpiry (n l p : Nat) (s : State) : State := s.setQuanta n l p 0

/-- REFRESH_QUANTA, or XOFF_QUANTA / 2 when it is not below XOFF_QUANTA, has passed while the valve of priority `p` stays asserted: the frame
is sent again (R62). -/
def pfcRefresh (n l p : Nat) (s : State) : State :=
  let x := s.rf (pbf PB_FC_TX.XOFF_QUANTA n l)
  if s.rf (pbf PB_FC_CFG.MODE n l) = 2 && (s.valve n (l * 16 + 2 * p) || s.valve n (l * 16 + 2 * p + 1)) then s.sendPfc n l p x
  else if s.rf (pbf PB_FC_CFG.MODE n l) = 1 && decide (p = 0) && s.valve n (2000 + l) then s.sendPause n l x
  else s

/-- The classes that priority `p` pauses. -/
def State.pauseClasses (s : State) (n l p : Nat) : List Nat :=
  if s.rf (pbf PB_FC_CFG.MODE n l) = 1 then List.range 16 else [2 * p, 2 * p + 1]

/-- The storm watchdog of priority `p` trips (R63). -/
def stormTrip (n l p : Nat) (s : State) : State :=
  let mode := s.rf (pbf PB_FC_CFG.MODE n l)
  let f := pbf PB_PORT_STATUS.STORM n l
  if (mode = 2 || (mode = 1 && decide (p = 0))) && s.rf (pbf PB_STORM_CFG.LIMIT_MS n l) != 0 && mget 0 (s.pport n l).quanta p != 0 &&
      !bit (s.rf f) p then
    (((s.flushPort n l (s.pauseClasses n l p) 20).wf f (putBits (s.rf f) p 1 1)).fresh n l).viol n l 0x16 0
  else s

/-- The watchdog re-arms after RESTORE_MS without a non-zero pause time (R63). -/
def stormRearm (n l p : Nat) (s : State) : State :=
  let f := pbf PB_PORT_STATUS.STORM n l
  (s.wf f (putBits (s.rf f) p 1 0)).fresh n l

/-! ### Reception (R52, R55, R65, R666) -/

/-- The code that R666 gives a refused frame, if any of its codes applies. -/
def rxCode (mtu : Nat) (r : RxFrame) : Option Nat :=
  let len := r.data.length + 4
  if !r.preamble then some 0x04 else if !r.sfd then some 0x05 else if r.early then some 0x07 else if 16383 < len then some 0x03
  else if r.pcs then some 0x06 else if len < 64 then some 0x01 else if mtu < len then some 0x02 else none

/-- The port counter of a refused frame's code (Table CT-5). -/
def codeCounter (code : Nat) : Nat :=
  if code = 1 then 5 else if code = 2 then 6 else if code = 3 then 7 else if code = 6 then 9 else if code = 7 then 10 else 8

/-- The port counter of a frame whose reception the loss of the link ends (R55, R60, R82, R599). -/
def downCounter (r : RxFrame) : Nat :=
  if r.began then 9 else if be16 r.data 12 = 0x8808 ∧ (be16 r.data 14 = 1 ∨ be16 r.data 14 = 0x101) then 12 else 16

/-- The cell cycles since the last sync at the SFD of a frame: those its command gives, and never fewer than have passed now, as a port has no
frame still to come of a time that its watermark may have passed (R33, log entry 180). -/
def State.sfdCyc (s : State) (r : RxFrame) : Nat := max r.cyc.toNat s.cellCycles

/-- A frame as it enters the device at a front-panel port. -/
def State.rxFrame (s : State) (n l : Nat) (k : FKey) (r : RxFrame) (bad : Bool) : Frame :=
  let p := globalOf n l
  let dom := s.stampDomOf p
  { key := k, data := r.data, region := n, pipe := pipeOf p, stamp := stampQ (s.cellTime p dom (s.sfdCyc r)) (s.rf (pbf PB_TS_ADJ.INGRESS n l)),
    stampDom := dom, stamped := true, bad := bad, cut := s.rb (pbf PB_PORT_CFG.CUT_THROUGH n l) }

/-- The MACs take frames of stroke `t`: the run has begun for it and no quiesce has (R616, R617). -/
def State.admitsStroke (s : State) (t : Nat) : Bool :=
  !strokeLt t s.chip.runFrom && (match s.chip.quiesceAt with
    | some q => strokeLt t q
    | none => true) && !s.chip.quiescing

/-- A frame that R52 refuses: it is logged and counted, and goes on stomped when its forwarding has begun (R55), which that of a MAC control
frame never does (R54). -/
def State.refuse (s : State) (n l : Nat) (k : FKey) (r : RxFrame) : State :=
  let t := k.stroke
  let s := s.ev (8 * n + l / 8) 0x14 (some (l % 8)) 1 t (if r.preamble && r.sfd then k.num else t * 2 ^ 32)
  let s := if r.down then s.portCount n l (downCounter r) t
    else match rxCode (s.rf (pbf PB_PORT_CFG.MTU n l)) r with
      | some c => (s.viol n l c 0).portCount n l (codeCounter c) t
      | none => s.portCount n l 4 t
  if r.began && r.preamble && r.sfd && be16 r.data 12 != 0x8808 && s.rb (pbf PB_PORT_CFG.CUT_THROUGH n l) && !s.rb CHIP_STROKE_CFG.SRC_LEDGER then s.admitKeyed (s.rxFrame n l k r true)
  else if r.preamble && r.sfd then s.ledSkip k 0 else s

/-- Set a bit of `PB_BLOCK_ERR`, raising the block's event (R49). -/
def State.blockErr (s : State) (f : Fld) (n b : Nat) : State := s.setErr f (regionSrc 0x2C0 n + b)

/-- A frame that meets a parity error in the MAC's buffer is discarded (R88, R555). -/
def State.macDiscard (s : State) (n l : Nat) (k : FKey) (stamped : Bool) : State :=
  let s := (s.detect n 0 0 false).blockErr (PB_BLOCK_ERR.PARITY n (l / 8)) n (l / 8)
  if stamped then s.ledSkip k 0 else s

/-- A frame that R52 accepts. -/
def State.accept (s : State) (n l : Nat) (k : FKey) (r : RxFrame) : State :=
  let t := k.stroke
  let u := 8 * n + l / 8
  let len := r.data.length + 4
  let s := (s.portCount n l 0 t).countBy (pbf (fun a b p => PB_PORT_CNT.COUNT a b p 1) n l) len t
  let s := (s.ev u 0x10 (some (l % 8)) 1 t k.num).ev u 0x11 (some (l % 8)) len t k.num
  if be16 r.data 12 = 0x8808 then (s.macControl n l k r.data).ledSkip k 0
  else if s.fromLedger k.stroke then s.holdRx (s.rxFrame n l k r false) k.stroke
  else s.admitKeyed (s.rxFrame n l k r false)

/-- What reaches the MAC when a frame does: in near-end loopback the oldest frame that the port sent and has not received, and nothing where there
is none (Table SL-10). -/
def State.heard (s : State) (n l : Nat) (r : RxFrame) : Option (State × RxFrame) :=
  if !s.nearPort n l then some (s, r)
  else match (s.pport n l).loop with
    | [] => none
    | (d, good) :: rest => some (s.setPport n l { s.pport n l with loop := rest },
        { r with data := d, preamble := true, sfd := true, early := false, pcs := false, fcs := good })

/-- A frame reaches a MAC that takes frames (R27, R52). -/
def State.macReceive (s : State) (n l : Nat) (r : RxFrame) : State :=
  let p := globalOf n l
  let stamped := r.preamble && r.sfd
  let t := s.heldStroke p (s.sfdCyc r)
  let ledger := s.fromLedger t
  if !s.admitsStroke t then s
  else
    let (s, k) := if stamped && !ledger then s.stampKey p t else (s, (⟨t, p, 0⟩ : FKey))
    let s := if stamped then s.ledCount k else s
    if r.mac then s.macDiscard n l k stamped
    else if r.down || !r.fcs || (rxCode (s.rf (pbf PB_PORT_CFG.MTU n l)) r).isSome then s.refuse n l k r
    else s.accept n l k r

/-- The MAC receives a frame (R52). -/
def frameReceive (n l : Nat) (r : RxFrame) (s : State) : State :=
  if s.portWidth n l = 0 || !s.running || !s.regionRuns n || !(s.rb (pbf PB_PORT_STATUS.LINK_UP n l) || r.down) then s
  else if s.pairMode = 2 then s.count (PAIR_CNT.COUNT 3) s.strokeNow
  else match s.heard n l r with
    | none => s
    | some (s, r) => s.macReceive n l r

/-! ### Meanings -/

def execFrameReceive (n : Region) (l : Fin 64) (r : RxFrame) (s : State) : Host.Outcome State Fault Refusal := .next (frameReceive n l r s)

def execPauseExpiry (n : Region) (l : Fin 64) (p : Oct) (s : State) : Host.Outcome State Fault Refusal := .next (pauseExpiry n l p s)

def execPfcRefresh (n : Region) (l : Fin 64) (p : Oct) (s : State) : Host.Outcome State Fault Refusal := .next (pfcRefresh n l p s)

def execStormWatchdogTrip (n : Region) (l : Fin 64) (p : Oct) (s : State) : Host.Outcome State Fault Refusal := .next (stormTrip n l p s)

def execStormWatchdogRearm (n : Region) (l : Fin 64) (p : Oct) (s : State) : Host.Outcome State Fault Refusal := .next (stormRearm n l p s)

def execFlapHoldExpiry (n : Region) (l : Fin 64) (s : State) : Host.Outcome State Fault Refusal := .next (flapHoldExpiry n l s)

def execViolLogClear (n : Region) (l : Fin 64) (v : Word) (s : State) : Host.Outcome State Fault Refusal :=
  .next (onWrite (violCtrlWrite n l (BitVec.ofNat 32 (putBits v.toNat 16 1 1))) s)

end Sys2Proof.Machine
end

