-- ==== Sys2Proof/Machine/Lanes.lean ====
section
/-! DEFINITION. The serial lanes (file 03): bring-up of ports and of the pair link (R108 to R119), quiet mode (R120 to R123), PRBS testing
(R124 to R128), and the writes of `PB_PORT_CFG` and `PB_SHAPE` that start and stop ports (R49, R51, R665). -/

namespace Sys2Proof.Machine

/-! ### Port shapes (Table PM-1) -/

/-- A row of Table PM-1: speed code, lanes, lane rate (0 = 212.5, 1 = 106.25, 2 = 53.125, 3 = 25.78125, 4 = 10.3125 Gb/s), FEC codes. -/
structure ShapeRow where
  speed : Nat
  lanes : Nat
  rate : Nat
  fecs : List Nat
deriving DecidableEq, Repr

/-- Table PM-1. -/
def shapeRows : List ShapeRow :=
  [⟨0, 8, 0, [3]⟩, ⟨1, 4, 0, [3]⟩, ⟨1, 8, 1, [3]⟩, ⟨2, 2, 0, [3]⟩, ⟨2, 4, 1, [3]⟩, ⟨3, 1, 0, [3]⟩, ⟨3, 2, 1, [3]⟩, ⟨3, 4, 2, [3]⟩,
   ⟨4, 1, 1, [3]⟩, ⟨4, 2, 2, [3]⟩, ⟨4, 4, 3, [2, 0]⟩, ⟨5, 1, 2, [3]⟩, ⟨6, 1, 3, [2, 1, 0]⟩, ⟨7, 1, 4, [1, 0]⟩]

/-- The row of a speed and width. -/
def shapeRow (speed lanes : Nat) : Option ShapeRow := shapeRows.find? (fun r => r.speed = speed && r.lanes = lanes)

/-- The row of a lane rate and width that has a FEC. -/
def rateRow (rate lanes fec : Nat) : Option ShapeRow := shapeRows.find? (fun r => r.rate = rate && r.lanes = lanes && fec ∈ r.fecs)

/-! ### Ports of a lane group: group 8 is the pair link, one port of eight lanes (R530) -/

/-- The first lane of the port that lane `l` belongs to. -/
def State.portOfLane (s : State) (g l : Nat) : Option Nat :=
  if g = 8 then (if l < 8 then some 0 else none)
  else ((List.range 8).map (fun k => l / 8 * 8 + k)).find? (fun i => i ≤ l && l < i + s.portWidth g i)

/-- The lanes a port is shaped with. -/
def State.cfgWidth (s : State) (g l : Nat) : Nat := if g = 8 then 8 else s.portWidth g l

/-- Its configured speed and FEC. -/
def State.cfgSpeed (s : State) (g l : Nat) : Nat := if g = 8 then 1 else s.rf (pbf PB_PORT_CFG.SPEED g l)
def State.cfgFec (s : State) (g l : Nat) : Nat := if g = 8 then 3 else s.rf (pbf PB_PORT_CFG.FEC g l)

/-- The port is enabled; the pair link is once priming is done (log entry 64). -/
def State.portEnabled (s : State) (g l : Nat) : Bool :=
  if g = 8 then s.alive || s.halted else s.rb (pbf PB_PORT_CFG.ENABLE g l)

/-- Its lanes. -/
def State.portLanes (s : State) (g l : Nat) : List Nat := (List.range (s.cfgWidth g l)).map (fun k => l + k)

/-- The bring-up of a port. -/
def State.link (s : State) (g l : Nat) : LinkX := mget {} s.links (g * 64 + l)
def State.setLink (s : State) (g l : Nat) (x : LinkX) : State := s.withLinks (mset {} s.links (g * 64 + l) x)

/-- The generator or the checker of a lane is on. -/
def State.prbsOn (s : State) (g l : Nat) : Bool := s.rb (LANE_PRBS_CFG.GEN_EN g l) || s.rb (LANE_PRBS_CFG.CHK_EN g l)

/-- The event of a lane, with its `LANE_STATUS` (Table SL-8, Table EV-7). -/
def State.laneEvent (s : State) (g l : Nat) : State :=
  s.raise (if g = 8 then 0xF40 + l else regionSrc 0x2D0 g + l) (s.reg (LANE_STATUS.w g l)).toNat

/-- Set a bit of `LANE_ERR`, raising the block's event (Table SL-8). -/
def State.laneErr (s : State) (f : Fld) (g : Nat) : State := s.setErr f (if g = 8 then 0xF48 else regionSrc 0x310 g)

/-! ### States shown (R108) -/

/-- Show the state of a lane of a port in state `st`. REFORMED stands until the port's next sequence, so that a marked lane of a re-formed port
reads FAILED while the port is DISABLED or FAILED too: the spec does not say when such a port stops being re-formed (DESIGN CHOICE, log
entry 163). -/
def State.showLane (s : State) (g l st : Nat) (reformed : Bool) : State :=
  s.wf (LANE_STATUS.STATE g l) (if s.prbsOn g l then lkPrbs else if reformed && s.rb (LANE_STATUS.FAILED g l) then lkFailed else st)

/-- Show a port's state in all its lanes. -/
def State.showPort (s : State) (g l : Nat) : State :=
  let x := s.link g l
  (s.portLanes g l).foldl (fun s m => s.showLane g m x.state (s.rb (LANE_PORT_STATUS.REFORMED g l))) s

/-- Show the state of one lane after its PRBS enables or its mark changed. -/
def State.showOne (s : State) (g m : Nat) : State :=
  match s.portOfLane g m with
  | some l => s.showPort g l
  | none => s.showLane g m lkDisabled false

/-- A port enters a state. -/
def State.setPortState (s : State) (g l st : Nat) : State := (s.setLink g l { s.link g l with state := st }).showPort g l

/-- Put a field of `LANE_STATUS` on every lane of a port. -/
def State.eachLane (s : State) (g l : Nat) (f : Nat → Nat → Fld) (v : Nat) : State :=
  (s.portLanes g l).foldl (fun s m => s.wf (f g m) v) s

/-- Log a code for a port-relative lane: in the port's violation log, and as LAST_CODE of the lane. -/
def State.laneCode (s : State) (g l code lane : Nat) : State :=
  let s := s.wf (LANE_STATUS.LAST_CODE g (l + lane)) code
  if g = 8 then s else s.viol g l code lane

/-! ### Transmitter taps (R105, R113, Table SL-7) -/

/-- Tap `k` of a taps register: c(−3), c(−2), c(−1), c(0), c(1). -/
def tapFld (w k : Nat) : Fld := ⟨w, 6 * k, 6⟩

/-- A tap's value: c(0) is unsigned. -/
def State.tap (s : State) (w k : Nat) : Int := if k = 3 then (s.rf (tapFld w k) : Int) else signed 6 (s.rf (tapFld w k))

/-- The limits of Table SL-7. -/
def tapMin (k : Nat) : Int := [-4, -8, -24, 32, -16].getD k 0
def tapMax (k : Nat) : Int := [4, 8, 0, 63, 0].getD k 0

/-- A lane rate uses tap `k` (Table SL-1). -/
def tapUsed (rate k : Nat) : Bool := decide ((if rate ≤ 1 then 0 else if rate = 2 then 1 else 2) ≤ k)

/-- The sum of the magnitudes of the five taps. -/
def State.tapSum (s : State) (w : Nat) : Nat := ((List.range 5).map (fun k => (s.tap w k).natAbs)).sum

/-- The lane rate in use by a port. -/
def State.laneRate (s : State) (g l : Nat) : Nat :=
  match shapeRow (s.link g l).speed (s.link g l).width with
  | some r => r.rate
  | none => 0

/-- The taps of a lane in use go to those of `LANE_TX_TAPS`; taps the rate does not use are held at 0. -/
def State.presetTaps (s : State) (g m rate : Nat) : State :=
  (List.range 5).foldl (fun s k =>
    s.wf (tapFld (LANE_TX_TAPS_NOW.w g m) k) (if tapUsed rate k then s.rf (tapFld (LANE_TX_TAPS.w g m) k) else 0)) s

/-! ### Attempts (R109 to R116) -/

/-- The technologies a port advertises: the speed codes of the rows of Table PM-1 at its width, not above its configured speed, that have its
FEC (R110). -/
def State.advTech (s : State) (g l : Nat) : List Nat :=
  (List.range 8).filter (fun c => decide (s.cfgSpeed g l ≤ c) && (match shapeRow c (s.link g l).width with
    | some row => decide (s.cfgFec g l ∈ row.fecs)
    | none => false))

/-- The message code and OUI of the next page that offers quiet mode (R120). -/
def quietCode : Nat := 5
def quietOui : Nat := 0xC53E91

/-- The base page of an attempt that begins in AN, and the next pages of quiet mode when QUIET_EN = 1 (R110, R120). -/
def State.advertise (s : State) (g l : Nat) : State :=
  let s := s.emit (.anBase g l (s.advTech g l) (s.cfgFec g l) (s.rf (LANE_CFG.PAUSE_ADV g l)))
  if s.rb (LANE_CFG.QUIET_EN g l) then s.emit (.anNext g l quietCode quietOui 1) else s

/-- The partner's next pages offer quiet mode (R120). -/
def askedQuiet (r : AnResult) : Bool :=
  r.pages.any (fun p => p.1.toNat = quietCode && p.2.1.toNat = quietOui && bit p.2.2.toNat 0)

/-- A bring-up begins with autonegotiation; that of the pair link never does (R530). -/
def State.anOn (s : State) (g l : Nat) : Bool := g != 8 && s.rb (LANE_CFG.AN_EN g l)

/-- Mark a lane failed, or clear its mark (R114, R116): what it transmits follows. -/
def State.setFailed (s : State) (g m : Nat) (b : Bool) : State := (s.wb (LANE_STATUS.FAILED g m) b).noteSource g m (s.laneSource g m)

/-- Start an attempt: the port enters AN, TRAIN or ALIGN; it waits in DISABLED while an unmarked lane of it is in PRBS (R108, R126), also when
a RESTART begins it, of which R126 does not speak (DEDUCED, log entry 165), and while its region is out of RUN and its transmitters are idle (DEDUCED
from R565 and R570, log entry 208). -/
def State.startAttempt (s : State) (g l : Nat) : State :=
  let s := s.wf (LANE_PORT_STATUS.QUIET_AGREED g l) 0
  if s.regionIdle g || (s.portLanes g l).any (fun m => s.prbsOn g m && !s.rb (LANE_STATUS.FAILED g m)) then s.setPortState g l lkDisabled
  else
    let s := (s.portLanes g l).foldl (fun s m => (s.setLanex g m { s.lanex g m with limit := false }).presetTaps g m (s.laneRate g l)) s
    let s := if s.anOn g l then s.advertise g l else s
    s.setPortState g l (if s.anOn g l then lkAn else if s.rb (LANE_CFG.TRAIN_EN g l) then lkTrain else lkAlign)

/-- The port enters FAILED and its lowest lane raises its event. -/
def State.linkFail (s : State) (g l : Nat) : State := (s.setPortState g l lkFailed).laneEvent g l

/-- R115: the first width below k whose lanes are unmarked and that has a row at the port's lane rate and FEC: width and speed. -/
def State.reform (s : State) (g l : Nat) : Option (Nat × Nat) :=
  let k := s.cfgWidth g l
  let rate := ((shapeRow (s.cfgSpeed g l) k).map (·.rate)).getD 0
  ([k / 2, k / 4, k / 8].filter (fun w => decide (1 ≤ w))).findSome? (fun w =>
    if ((List.range w).map (fun i => l + i)).any (fun m => s.rb (LANE_STATUS.FAILED g m)) then none
    else (rateRow rate w (s.cfgFec g l)).map (fun r => (w, r.speed)))

/-- Begin an attempt sequence: with every lane when none is marked, else re-formed on fewer (R114, R115). A port that enters FAILED in its place
keeps ATTEMPTS (R109). -/
def State.beginSeq (s : State) (g l : Nat) : State :=
  let x := { s.link g l with missed := none }
  let begin := fun (s : State) => (s.eachLane g l LANE_STATUS.ATTEMPTS 0).startAttempt g l
  if !(s.portLanes g l).any (fun m => s.rb (LANE_STATUS.FAILED g m)) then
    begin ((s.setLink g l { x with width := s.cfgWidth g l, speed := s.cfgSpeed g l }).wf (LANE_PORT_STATUS.REFORMED g l) 0)
  else if s.rb (LANE_CFG.REFORM_EN g l) && !s.rb (LANE_STATUS.FAILED g l) then
    match s.reform g l with
    | some (w, sp) => begin ((s.setLink g l { x with width := w, speed := sp }).wf (LANE_PORT_STATUS.REFORMED g l) 1)
    | none => (s.setLink g l x).linkFail g l
  else (s.setLink g l x).linkFail g l

/-- Hold-down (R112, R118): FAILED in its place when HOLDS would pass MAX_HOLDS. With MAX_HOLDS = 0 the holds have no limit and HOLDS has four
bits: it stays at 15 (DESIGN CHOICE, log entry 205). -/
def State.holdDown (s : State) (g l : Nat) : State :=
  let h := s.rf (LANE_STATUS.HOLDS g l)
  let m := s.rf (LANE_TIMER_CFG.MAX_HOLDS g)
  if m != 0 && decide (m < h + 1) then s.linkFail g l
  else (((s.eachLane g l LANE_STATUS.ATTEMPTS 0).eachLane g l LANE_STATUS.HOLDS (min 15 (h + 1))).setPortState g l lkHold).laneEvent g l

/-- Lanes that missed the training target in every failed attempt so far. -/
def missAll (old : Option (List Nat)) (new : List Nat) : List Nat :=
  match old with
  | none => new
  | some m => m.filter (· ∈ new)

/-- An attempt fails (R112, R114) with a code, if one is logged, for a port-relative lane; `miss` are the lanes of the port that did not
meet the training target. -/
def State.attemptFail (s : State) (g l : Nat) (code : Option Nat) (lane : Nat) (miss : List Nat) : State :=
  let s := match code with
    | some c => s.laneCode g l c lane
    | none => s
  let a := s.rf (LANE_STATUS.ATTEMPTS g l) + 1
  let s := s.eachLane g l LANE_STATUS.ATTEMPTS a
  let x := s.link g l
  let m := missAll x.missed miss
  let s := s.setLink g l { x with missed := some m }
  if a < 3 then (if code = some 0x21 then s.holdDown g l else s.startAttempt g l)
  else
    let s := s.laneCode g l 0x22 lane
    if m.isEmpty then s.holdDown g l
    else (m.foldl (fun s k => (s.setFailed g (l + k) true).laneEvent g (l + k)) s).beginSeq g l

/-- Autonegotiation resolves (R110 to R112). -/
def anResolved (g l : Nat) (r : AnResult) (s : State) : State :=
  if (s.link g l).state != lkAn then s
  else
    let fec := s.cfgFec g l
    let s := (s.wf (LANE_PORT_STATUS.PARTNER_PAUSE g l) r.pause.toNat).wf (LANE_STATUS.SIGNAL g l) 1
    match (s.advTech g l).find? (fun c => bit r.tech.toNat c) with
    | none => s.attemptFail g l (some 0x21) 0 []
    | some c =>
      if r.fec.val != fec then s.attemptFail g l (some 0x21) 0 []
      else
        let s := (s.setLink g l { s.link g l with speed := c }).wb (LANE_PORT_STATUS.QUIET_AGREED g l) (s.rb (LANE_CFG.QUIET_EN g l) && askedQuiet r)
        let s := (s.portLanes g l).foldl (fun s m => s.presetTaps g m (s.laneRate g l)) s
        s.setPortState g l (if s.rb (LANE_CFG.TRAIN_EN g l) then lkTrain else lkAlign)

/-- Autonegotiation fails (Table SL-3). -/
def anFail (g l : Nat) (s : State) : State := if (s.link g l).state != lkAn then s else s.attemptFail g l (some 0x20) 0 []

/-- The link partner restarts autonegotiation: a failed attempt (R109) without a code of Table SL-3. -/
def partnerRestart (g l : Nat) (s : State) : State :=
  let st := (s.link g l).state
  if st = lkAn || st = lkTrain || st = lkAlign then s.attemptFail g l none 0 [] else s

/-- A lane receives: signal is detected and its receiver clock locked (R134). -/
def State.laneHears (s : State) (g m : Nat) : State := (s.wf (LANE_STATUS.SIGNAL g m) 1).wf (LANE_STATUS.CDR_LOCK g m) 1

/-- A partner's request moves a tap of lane `m`, or is answered "at limit" (R113, Table SL-7). -/
def State.coeffStep (s : State) (g l m : Nat) (r : CoeffReq) : State :=
  let w := LANE_TX_TAPS_NOW.w g m
  match r with
  | .hold => s
  | .preset => s.presetTaps g m (s.laneRate g l)
  | .step k up =>
    let v := s.tap w k.val + (if up then 1 else -1)
    let t := s.wf (tapFld w k.val) (unsigned 6 v)
    if tapUsed (s.laneRate g l) k.val && decide (tapMin k.val ≤ v) && decide (v ≤ tapMax k.val) && decide (t.tapSum w ≤ 64) then
      t.emit (.coeff g m false)
    else
      let s := s.emit (.coeff g m true)
      if (s.lanex g m).limit then s
      else (s.setLanex g m { s.lanex g m with limit := true }).laneCode g l 0x24 (m - l)

/-! ### Link loss (R117 to R119) -/

/-- A port that was UP is no longer: the port block, or the pair block, hears of it (R117, R531). -/
def State.linkGone (s : State) (g l : Nat) (wire : Bool) : State :=
  if (s.link g l).state != lkUp then s
  else
    let s := ((s.wf (LANE_PORT_STATUS.QUIET_AGREED g l) 0).wf (LANE_PORT_STATUS.TX_QUIET g l) 0).wf (LANE_PORT_STATUS.RX_QUIET g l) 0
    if g = 8 then (s.wf PAIR_STATUS.LINK 0).loseIfLockstep 5 else s.linkDown g l wire

/-- An UP port loses its link (R117, R118): a code, if one is logged, for a port-relative lane; too many downs within the window lead to
HOLD, else a new sequence begins. -/
def State.linkLoss (s : State) (g l : Nat) (code : Option Nat) (lane : Nat) (wire : Bool) : State :=
  if (s.link g l).state != lkUp then s
  else
    let s := match code with
      | some c => s.laneCode g l c lane
      | none => s
    let s := s.linkGone g l wire
    let x := s.link g l
    let now := s.time.tick
    let downs := now :: x.downs.filter (fun t => decide (now < t + s.rf (LANE_FLAP_CFG.FLAP_WINDOW_MS g) * 1000000))
    let s := s.setLink g l { x with downs := downs, state := lkDisabled }
    if s.rf (LANE_TIMER_CFG.FLAP_LIMIT g) ≤ downs.length then (s.laneCode g l 0x30 0).holdDown g l else s.beginSeq g l

/-- ENABLE is cleared: the port goes to DISABLED with all timers cancelled (R119). The spec does not say whether that clears the downs of the flap
window; the model keeps them (DESIGN CHOICE, log entry 164). -/
def State.disableLink (s : State) (g l : Nat) : State :=
  ((s.linkGone g l false).wf (LANE_PORT_STATUS.QUIET_AGREED g l) 0).setPortState g l lkDisabled

/-- ENABLE is set, or the port begins anew: ATTEMPTS and HOLDS are cleared and a sequence begins. -/
def State.enableLink (s : State) (g l : Nat) : State :=
  (((s.linkGone g l false).eachLane g l LANE_STATUS.ATTEMPTS 0).eachLane g l LANE_STATUS.HOLDS 0).beginSeq g l

/-- Port-relative lane `k` meets the training target: its ratio is at most 10^−BER_EXP, read from the port's lowest lane (R113, R132). -/
def State.laneMet (s : State) (g l : Nat) (ber : BerEst) (k : Nat) : Bool := decide (s.rf (LANE_CFG.BER_EXP g l) ≤ bits ber.toNat (4 * k) 4)

/-- The port-relative lanes in use that do not meet the target. -/
def State.lanesNot (s : State) (g l : Nat) (ber : BerEst) : List Nat := (List.range (s.link g l).width).filter (fun k => !s.laneMet g l ber k)

/-- Training is done once every lane meets the target (R113). -/
def trainComplete (g l : Nat) (ber : BerEst) (s : State) : State :=
  let x := s.link g l
  if x.state != lkTrain || !(s.lanesNot g l ber).isEmpty then s
  else
    let s := ((List.range x.width).map (fun k => l + k)).foldl (fun s m => (s.wf (LANE_STATUS.TRAINED g m) 1).laneHears g m) s
    s.setPortState g l lkAlign

/-- Training fails: TRAINED shows the lanes that met the target. -/
def State.trainFail (s : State) (g l lane : Nat) (ber : BerEst) : State :=
  let miss := s.lanesNot g l ber
  let s := (List.range (s.link g l).width).foldl (fun s k => s.wb (LANE_STATUS.TRAINED g (l + k)) (!(k ∈ miss))) s
  s.attemptFail g l (some 0x23) lane miss

/-- TRAIN_TIMEOUT_MS passes with a lane not at the target (Table SL-3). -/
def trainTimeout (g l : Nat) (ber : BerEst) (s : State) : State :=
  match (s.link g l).state == lkTrain, s.lanesNot g l ber with
  | true, k :: _ => s.trainFail g l k ber
  | _, _ => s

/-- A coefficient request of lane `m` is unanswered for 2 ms (Table SL-3). -/
def coeffTimeout (g m : Nat) (ber : BerEst) (s : State) : State :=
  match s.portOfLane g m with
  | some l => if (s.link g l).state = lkTrain ∧ m < l + (s.link g l).width then s.trainFail g l (m - l) ber else s
  | none => s

/-- Alignment completes and the port is UP (R108). -/
def alignComplete (g l : Nat) (s : State) : State :=
  let x := s.link g l
  if x.state != lkAlign then s
  else
    let s := ((List.range x.width).map (fun k => l + k)).foldl (fun s m => s.laneHears g m) s
    let s := (s.eachLane g l LANE_STATUS.ATTEMPTS 0).eachLane g l LANE_STATUS.HOLDS 0
    let s := ((s.wf (LANE_PORT_STATUS.ACT_WIDTH g l) (Nat.log2 x.width + 1)).wf (LANE_PORT_STATUS.ACT_SPEED g l) x.speed).wf
      (LANE_PORT_STATUS.ACT_FEC g l) (s.cfgFec g l)
    let s := s.setPortState g l lkUp
    if g = 8 then s else s.linkUp g l

/-- Alignment is not complete within 50 ms (Table SL-3). -/
def alignTimeout (g l : Nat) (s : State) : State := if (s.link g l).state != lkAlign then s else s.attemptFail g l (some 0x33) 0 []

/-- HOLD_DOWN_MS expires (R108). -/
def holdExpiry (g l : Nat) (s : State) : State := if (s.link g l).state != lkHold then s else s.beginSeq g l

/-! ### Quiet mode (R120 to R123) -/

/-- Quiet mode may be used: agreed on a front-panel port, configured on the pair link. -/
def State.quietOk (s : State) (g l : Nat) : Bool :=
  (s.link g l).state = lkUp && (if g = 8 then s.rb (LANE_CFG.QUIET_EN g l) else s.rb (LANE_PORT_STATUS.QUIET_AGREED g l))

/-- The port number that a quiet-mode signal is recorded with; the pair link is 1024. -/
def quietPort (g l : Nat) : Nat := if g = 8 then 1024 else globalOf g l

/-- The port has nothing to send. -/
def State.nothingToSend (s : State) (g l : Nat) : Bool :=
  g = 8 || (List.range 16).all (fun c => (s.egq g (l * 16 + c)).ents.isEmpty)

/-- ENTER_US has passed with nothing to send: the transmitter sends the quiet-enter marker and goes idle (R121). -/
def quietEnter (g l : Nat) (s : State) : State :=
  if s.quietOk g l && !s.regionIdle g && !s.rb (LANE_PORT_STATUS.TX_QUIET g l) && s.nothingToSend g l then
    (s.emit (.quiet (quietPort g l) 0)).wf (LANE_PORT_STATUS.TX_QUIET g l) 1
  else s

/-- 200 µs in quiet: a refresh burst (R121), but for the ports of a region out of RUN, which send electrical idle (R565). -/
def quietRefresh (g l : Nat) (s : State) : State :=
  if s.rb (LANE_PORT_STATUS.TX_QUIET g l) && !s.regionIdle g then s.emit (.quiet (quietPort g l) 1) else s

/-- The transmitter leaves quiet (R123). -/
def quietExit (g l : Nat) (s : State) : State :=
  if s.rb (LANE_PORT_STATUS.TX_QUIET g l) && !s.regionIdle g then (s.emit (.quiet (quietPort g l) 2)).wf (LANE_PORT_STATUS.TX_QUIET g l) 0 else s

/-- The receiver decodes a quiet-enter marker (R122); without agreement it has no effect. -/
def quietMarker (g l : Nat) (s : State) : State :=
  if s.quietOk g l then
    (s.setLink g l { s.link g l with burst := s.time.tick }).wf (LANE_PORT_STATUS.RX_QUIET g l) 1
  else s

/-- A refresh burst in quiet restarts the receiver's timeout (R122). -/
def refreshBurst (g l : Nat) (s : State) : State :=
  if s.rb (LANE_PORT_STATUS.RX_QUIET g l) then s.setLink g l { s.link g l with burst := s.time.tick } else s

/-- 400 µs in receive quiet without a refresh burst or an exit: the link is lost (R122). -/
def quietTimeout (g l : Nat) (wire : Bool) (s : State) : State :=
  if s.rb (LANE_PORT_STATUS.RX_QUIET g l) && decide ((s.link g l).burst + 400000 ≤ s.time.tick) then s.linkLoss g l none 0 wire else s

/-- The receiver confirms alignment after the exit burst (R123). -/
def quietRelock (g l : Nat) (s : State) : State := s.wf (LANE_PORT_STATUS.RX_QUIET g l) 0

/-- Alignment is not confirmed within 2 µs of the exit burst (R123). -/
def quietRelockTimeout (g l : Nat) (wire : Bool) (s : State) : State :=
  if s.rb (LANE_PORT_STATUS.RX_QUIET g l) then s.linkLoss g l (some 0x33) 0 wire else s

/-! ### Loss of the link -/

/-- A lane has lost its signal (R134). -/
def State.laneLost (s : State) (g m : Nat) : State := (s.wf (LANE_STATUS.SIGNAL g m) 0).wf (LANE_STATUS.CDR_LOCK g m) 0

/-- Lane `m` has had no signal for `us` µs, with electrical idle when `idle` (R117, R122): nothing while the marker holds; a loss of an UP
port's lane shorter than DOWN_DEBOUNCE_US is counted only, electrical idle without a marker too: R122 refers such a loss to R117 and does not say
whether its debounce applies (DEDUCED, log entry 206). -/
def lossOfSignal (g m us : Nat) (idle wire : Bool) (s : State) : State :=
  match s.portOfLane g m with
  | none => s.laneLost g m
  | some l =>
    let x := s.link g l
    if x.state != lkUp || decide (l + x.width ≤ m) then s.laneLost g m
    else if s.rb (LANE_PORT_STATUS.RX_QUIET g l) then s
    else if us < s.rf (LANE_FLAP_CFG.DOWN_DEBOUNCE_US g) then s.setLanex g m { s.lanex g m with shortLoss := (s.lanex g m).shortLoss + 1 }
    else (s.laneLost g m).linkLoss g l (if idle then some 0x32 else none) (m - l) wire

/-- Alignment-marker lock is lost, or lane `m` leaves the skew tolerance (0x33, R117). -/
def alignLoss (g m : Nat) (wire : Bool) (s : State) : State :=
  match s.portOfLane g m with
  | some l => if (s.link g l).state = lkUp ∧ m < l + (s.link g l).width then s.linkLoss g l (some 0x33) (m - l) wire else s
  | none => s

/-- Remote fault is received (0x31, R117). -/
def remoteFault (g l : Nat) (wire : Bool) (s : State) : State := s.linkLoss g l (some 0x31) 0 wire

/-- A parity error in the control state of lane `m`: the port of the lane is restarted if it is enabled (Table SL-9). -/
def State.laneParity (s : State) (g m : Nat) : State :=
  let s := (s.detect (if g = 8 then 12 else g) 0 0 false).laneErr (LANE_ERR.PARITY g) g
  match s.portOfLane g m with
  | some l => if s.portEnabled g l then s.enableLink g l else s
  | none => s

/-- A partner's request, or an error of the lane control state (R113, Table SL-9). -/
def coeffRequest (g m : Nat) (r : CoeffReq) (bad : Bool) (s : State) : State :=
  if bad then s.laneParity g m
  else match s.portOfLane g m with
    | none => s
    | some l =>
      if (s.link g l).state = lkTrain ∧ m < l + (s.link g l).width then (s.laneHears g m).coeffStep g l m r
      else s

/-! ### PRBS (R124 to R128) -/

/-- A lane may be tested: its port is DISABLED or FAILED, or it is marked, or it belongs to no port (R126). -/
def State.testable (s : State) (g m : Nat) : Bool :=
  match s.portOfLane g m with
  | none => true
  | some l => (s.link g l).state = lkDisabled || (s.link g l).state = lkFailed || s.rb (LANE_STATUS.FAILED g m)

/-- A port that waited in DISABLED for its lanes' tests to end begins its sequence (R126). -/
def State.afterPrbs (s : State) (g m : Nat) : State :=
  match s.portOfLane g m with
  | none => s
  | some l =>
    if s.portEnabled g l && (s.link g l).state = lkDisabled && !(s.portLanes g l).any (fun k => s.prbsOn g k && !s.rb (LANE_STATUS.FAILED g k))
    then s.beginSeq g l else s

/-- The number of the next bit of a lane's generator. -/
def State.genIndex (s : State) (g m : Nat) : Nat :=
  (s.lanex g m).genBase + bitsIn (s.rateOf g m) (s.time.tick - (s.lanex g m).genAt)

/-- Injection inverts bit `i` of a lane's generator (R128). -/
def State.injected (s : State) (g m i : Nat) : Bool :=
  let k := s.rf (LANE_PRBS_CFG.INJECT_RATE g m)
  (decide (i ∈ (s.lanex g m).injAt)).xor (k != 0 && i % 2 ^ k = (s.lanex g m).injOff % 2 ^ k)

/-- The bits `a` to before `b` that injection inverts. -/
def State.injectedIn (s : State) (g m a b : Nat) : Nat :=
  let k := s.rf (LANE_PRBS_CFG.INJECT_RATE g m)
  let x := s.lanex g m
  let upTo := fun e => if k = 0 then 0 else (e + (2 ^ k - 1 - x.injOff % 2 ^ k)) / 2 ^ k
  let once := (x.injAt.filter (fun i => decide (a ≤ i) && decide (i < b)))
  (upTo b - upTo a) + (once.filter (fun i => k = 0 || i % 2 ^ k != x.injOff % 2 ^ k)).length -
    (once.filter (fun i => k != 0 && i % 2 ^ k = x.injOff % 2 ^ k)).length

/-- Bit `i` that a lane's generator sends (R124, R128), after TX_INVERT. -/
def State.genBit (s : State) (g m i : Nat) : Bool :=
  ((prbsBit (s.rateOf g m) (s.rf (LANE_PRBS_CFG.GEN_PAT g m)) (s.lanex g m).seed i).xor (s.injected g m i)).xor
    (s.rb (LANE_CFG.TX_INVERT g m))

/-- Symbol `i` that a lane's generator sends: a level of two bits by Gray coding at PAM4 rates, one bit at NRZ rates (R124). -/
def State.genSymbol (s : State) (g m i : Nat) : Nat :=
  if isPam4 (s.rateOf g m) then grayLevel (s.genBit g m (2 * i)) (s.genBit g m (2 * i + 1)) else b2n (s.genBit g m i)

/-- In near-end loopback a lane's checker reads its own generator, with the polarity of both inversions (Table SL-10). -/
def State.nearLoop (s : State) (g m : Nat) : Bool := s.rf (LANE_CFG.LOOPBACK g m) = 1

/-- The checker of a looped lane reads the pattern it checks for. -/
def State.loopMatch (s : State) (g m : Nat) : Bool :=
  let r := s.rateOf g m
  s.rb (LANE_PRBS_CFG.GEN_EN g m) && s.rb (LANE_CFG.TX_INVERT g m) == s.rb (LANE_CFG.RX_INVERT g m) &&
    prbsPat r (s.rf (LANE_PRBS_CFG.GEN_PAT g m)) = prbsPat r (s.rf (LANE_PRBS_CFG.CHK_PAT g m))

/-- Bring the counts of a locked checker up to date (R125): the bits of the time since they last were; the errors are those injected where the
lane is looped and its generator still sends the pattern it is checked for, and otherwise a free value, as no command says what arrived; where a command reports both, they are `seen` (log entry 69). -/
def State.countPrbs (s : State) (g m : Nat) (seen : Option (Nat × Nat)) : State :=
  if !s.rb (LANE_PRBS_STATUS.LOCK g m) then s
  else
    let x := s.lanex g m
    let n := bitsIn (s.rateOf g m) (s.time.tick - x.lockAt)
    let i := s.genIndex g m
    let known := s.nearLoop g m && s.loopMatch g m
    let (n, e) := seen.getD (n, if known then s.injectedIn g m (i - n) i else s.freeBits 48 % (n + 1))
    let s := if known || seen.isSome then s else s.nextFree
    let s := (s.addSat (LANE_PRBS_BITS.BITS g m) n).addSat (LANE_PRBS_ERRS.ERRS g m) e
    s.setLanex g m { x with lockAt := s.time.tick }

/-- The rate of a lane becomes `rate` (R124, R125): what its checker counted at the old one is counted, its generator goes on from the bit it has
reached, and taps that the new rate does not use are held at 0 (R105). -/
def State.setRate (s : State) (g m rate : Nat) : State :=
  let s := s.countPrbs g m none
  let s := s.setLanex g m { s.lanex g m with rate := rate, genAt := s.time.tick, genBase := s.genIndex g m }
  s.presetTaps g m rate

/-- A port that is not enabled is configured: its lanes take the rate of its row of Table PM-1, if it has one. -/
def State.noteRates (s : State) (g l : Nat) : State :=
  match shapeRow (s.cfgSpeed g l) (s.cfgWidth g l) with
  | some r => (s.portLanes g l).foldl (fun s m => s.setRate g m r.rate) s
  | none => s

/-- A generator starts: its shift register holds a value that the spec does not give, other than 0; so does the place of INJECT_RATE's
errors. -/
def State.startGen (s : State) (g m : Nat) : State :=
  let x := s.lanex g m
  let p := prbsPat (s.rateOf g m) (s.rf (LANE_PRBS_CFG.GEN_PAT g m))
  let x := { x with genAt := s.time.tick, genBase := 0, injAt := [], seed := 1 + s.freeBits 31 % (2 ^ prbsLen p - 1) }
  let s := s.nextFree
  (s.setLanex g m { x with injOff := s.freeBits 31 }).nextFree

/-- A write of `LANE_PRBS_CFG` (R126, Table SL-14). -/
def prbsCfgWrite (g m : Nat) (v : Word) (s : State) : State :=
  let v := v.toNat
  if g = 8 ∧ 8 ≤ m then s
  else if (bit v 3 || bit v 7) && !s.testable g m then s.laneErr (LANE_ERR.PRBS_REJECT g) g
  else
    let fix := fun p => if 5 ≤ p then 3 else p
    let r := bits v 8 5
    let was := s.laneSource g m
    let s := s.countPrbs g m none
    let s := ((s.wf (LANE_PRBS_CFG.GEN_PAT g m) (fix (bits v 0 3))).wf (LANE_PRBS_CFG.GEN_EN g m) (bits v 3 1)).wf
      (LANE_PRBS_CFG.CHK_PAT g m) (fix (bits v 4 3))
    let s := (s.wf (LANE_PRBS_CFG.CHK_EN g m) (bits v 7 1)).wf (LANE_PRBS_CFG.INJECT_RATE g m) (if 1 ≤ r ∧ r ≤ 9 then 10 else r)
    let s := if bit v 7 then s else s.wf (LANE_PRBS_STATUS.LOCK g m) 0
    let s := if bit v 3 && s.laneSource g m != was then s.startGen g m else s
    ((s.noteSource g m was).showOne g m).afterPrbs g m

/-- 1,024 error-free bits lock a checker (R125); in near-end loopback only its own pattern can. -/
def prbsLock (g m : Nat) (s : State) : State :=
  if s.rb (LANE_PRBS_CFG.CHK_EN g m) && !s.rb (LANE_PRBS_STATUS.LOCK g m) && (!s.nearLoop g m || s.loopMatch g m) then
    ((s.setLanex g m { s.lanex g m with lockAt := s.time.tick }).laneHears g m).wf (LANE_PRBS_STATUS.LOCK g m) 1
  else s

/-- 32 errors in a 1,024-bit window: the checker loses lock, having compared `n` bits and found `errs` of them in error since the counts were
last brought up to date (R125). -/
def prbsLockLoss (g m n errs : Nat) (s : State) : State :=
  if s.rb (LANE_PRBS_STATUS.LOCK g m) then
    let s := s.countPrbs g m (some (n, errs))
    ((s.wf (LANE_PRBS_STATUS.LOCK g m) 0).addSat (LANE_PRBS_STATUS.LOCK_LOSS g m) 1).laneEvent g m
  else s

/-! ### Writes of the lane registers -/

/-- INJECT inverts one bit of the generator's next output word (R128): which one, of words whose length the spec does not give, is a free
value (log entry 70). -/
def State.inject (s : State) (g m : Nat) : State :=
  (s.setLanex g m { s.lanex g m with injAt := (s.genIndex g m + s.freeBits 6) :: (s.lanex g m).injAt }).nextFree

/-- A write of `LANE_CTRL` (R116, R119, R125, R128, R133). -/
def laneCtrlWrite (g m : Nat) (v : Word) (s : State) : State :=
  let v := if g = 8 ∧ 8 ≤ m then 0 else v.toNat
  let s := if bit v 1 then (s.setFailed g m false).showOne g m else s
  let s := if bit v 2 then
      (((s.setLanex g m { s.lanex g m with lockAt := s.time.tick }).wf (LANE_PRBS_ERRS.ERRS g m) 0).wf (LANE_PRBS_BITS.BITS g m) 0).wf (LANE_PRBS_STATUS.LOCK_LOSS g m) 0
    else s
  let s := if bit v 3 && s.rb (LANE_PRBS_CFG.GEN_EN g m) then s.inject g m else s
  if bit v 0 && s.portOfLane g m = some m && (s.link g m).state != lkDisabled then s.enableLink g m else s

/-- The lane's port is enabled, so that `LANE_CFG` and `LANE_TX_TAPS` take no write (R132). -/
def State.laneBusy (s : State) (g m : Nat) : Bool :=
  match s.portOfLane g m with
  | some l => g != 8 && s.portEnabled g l
  | none => false

/-- A write of `LANE_CFG` (R132). -/
def laneCfgWrite (g m : Nat) (v : Word) (s : State) : State :=
  if s.laneBusy g m then s.laneErr (LANE_ERR.CFG_IGNORED g) g
  else
    let e := bits v.toNat 10 4
    let was := s.laneSource g m
    let s := s.countPrbs g m none
    (s.setReg (LANE_CFG.w g m) (BitVec.ofNat 32 (putBits (v.toNat % 2 ^ 14) 10 4 (if 4 ≤ e ∧ e ≤ 8 then e else 5)))).noteSource g m was

/-- Tap `k` of a written value, within its own limits (Table SL-7). -/
def tapWritten (v k : Nat) : Int := max (tapMin k) (min (tapMax k) (if k = 3 then (bits v 18 6 : Nat) else signed 6 (bits v (6 * k) 6)))

/-- A tap cut to what is left of the sum of magnitudes. -/
def tapCut (x : Int) (left : Nat) : Int := if x.natAbs ≤ left then x else if 0 ≤ x then left else -(left : Int)

/-- The taps stored of a written value, as tap and value: the sum of magnitudes is kept at most 64 by cutting the outer taps first, c(0) being
kept whole; Table SL-7 bounds the sum and R135 does not say how (DESIGN CHOICE, log entry 171). -/
def tapsStored (v : Nat) : List (Nat × Int) :=
  ([3, 2, 4, 1, 0].foldl (fun (r : Nat × List (Nat × Int)) k =>
    let x := tapCut (tapWritten v k) r.1
    (r.1 - x.natAbs, (k, x) :: r.2)) (64, [])).2

/-- The taps in use are those of `LANE_TX_TAPS`: without training always (R135), and with it while no attempt has begun that could move them. -/
def State.tapsFollow (s : State) (g m : Nat) : Bool :=
  match s.portOfLane g m with
  | none => true
  | some l => !s.rb (LANE_CFG.TRAIN_EN g l) || (s.link g l).state = lkDisabled || (s.link g l).state = lkFailed

/-- A write of `LANE_TX_TAPS`: the taps are stored within the limits of Table SL-7 (R129, R135), and where they are in use `LANE_TX_TAPS_NOW`
shows them. -/
def laneTapsWrite (g m : Nat) (v : Word) (s : State) : State :=
  if s.laneBusy g m then s.laneErr (LANE_ERR.CFG_IGNORED g) g
  else
    let s := (tapsStored v.toNat).foldl (fun s p => s.wf (tapFld (LANE_TX_TAPS.w g m) p.1) (unsigned 6 p.2)) s
    if s.tapsFollow g m then s.presetTaps g m (s.rateOf g m) else s

/-! ### Port configuration and shapes (R49, R51, R665) -/

/-- A write of `PB_PORT_CFG` (R51, R53). -/
def portCfgWrite (n l : Nat) (v : Word) (s : State) : State :=
  let v := v.toNat
  let b := l / 8
  if s.portWidth n l = 0 then s
  else
    let was := s.rb (pbf PB_PORT_CFG.ENABLE n l)
    let s := if was then
        (if bits v 1 3 != s.rf (pbf PB_PORT_CFG.SPEED n l) || bits v 4 2 != s.rf (pbf PB_PORT_CFG.FEC n l) then
          s.blockErr (PB_BLOCK_ERR.CFG_IGNORED n b) n b else s)
      else ((s.wf (pbf PB_PORT_CFG.SPEED n l) (bits v 1 3)).wf (pbf PB_PORT_CFG.FEC n l) (bits v 4 2)).noteRates n l
    let s := (s.wf (pbf PB_PORT_CFG.CUT_THROUGH n l) (bits v 6 1)).wf (pbf PB_PORT_CFG.MTU n l) (max 64 (min 10000 (bits v 8 14)))
    if was then
      (if bit v 0 then s else (s.wf (pbf PB_PORT_CFG.ENABLE n l) 0).disableLink n l)
    else if !bit v 0 then s
    else match shapeRow (s.cfgSpeed n l) (s.portWidth n l) with
      | some r => if s.cfgFec n l ∈ r.fecs then (s.wf (pbf PB_PORT_CFG.ENABLE n l) 1).enableLink n l
        else s.blockErr (PB_BLOCK_ERR.CFG_REJECT n b) n b
      | none => s.blockErr (PB_BLOCK_ERR.CFG_REJECT n b) n b

/-- The widths a `PB_SHAPE` value gives the eight lanes. -/
def shapeWidths (v : Nat) : List Nat := (List.range 8).map (fun i => widthOf (bits v (3 * i) 3))

/-- R48: codes 0 to 4, each port at a multiple of its width, no lane in two ports. -/
def shapeOk (v : Nat) : Bool :=
  let w := shapeWidths v
  (List.range 8).all (fun i =>
    let k := w.getD i 0
    decide (bits v (3 * i) 3 ≤ 4) &&
      (k = 0 || (decide (i % k = 0) && (List.range 8).all (fun j => j ≤ i || i + k ≤ j || w.getD j 0 = 0))))

/-- Return a port register set to its reset values, with no low word held and no high word latched for its 64-bit registers (R10, R665): a high-word
read before any low-word read of the new set reads 0, which R10 and R665 leave open (DESIGN CHOICE, log entry 207). -/
def State.resetPortSet (s : State) (n b i : Nat) : State :=
  let w := PB_PORT_CFG.w n b i
  let s := s.withRegs (s.regs.filter (fun p => !(decide (w ≤ p.1) && decide (p.1 < w + 128))))
  let s := s.withHold (s.hold.filter (fun p => !(decide (w ≤ p.1) && decide (p.1 < w + 128))))
  let s := s.withLatch (s.latch.filter (fun p => !(decide (w ≤ p.1) && decide (p.1 < w + 128))))
  s.setPport n (b * 8 + i) {}

/-- A write of `PB_SHAPE` (R49, R665). One that breaks R48 is rejected whether or not a port is enabled, and as it could not have changed the shape
it sets SHAPE_REJECT alone (DEDUCED, log entry 161). -/
def shapeWrite (n b : Nat) (v : Word) (s : State) : State :=
  let x := v.toNat % 2 ^ 24
  if !shapeOk x then s.blockErr (PB_BLOCK_ERR.SHAPE_REJECT n b) n b
  else if (List.range 8).any (fun i => s.rb (PB_PORT_CFG.ENABLE n b i)) then
    if (s.reg (PB_SHAPE.w n b)).toNat = x then s else s.blockErr (PB_BLOCK_ERR.CFG_IGNORED n b) n b
  else
    let old := shapeWidths (s.reg (PB_SHAPE.w n b)).toNat
    let new := shapeWidths x
    let s := s.setReg (PB_SHAPE.w n b) (BitVec.ofNat 32 x)
    (List.range 8).foldl (fun s i =>
      let l := b * 8 + i
      let s := if old.getD i 0 = new.getD i 0 then s else ((s.resetPortSet n b i).setLink n l {}).noteRates n l
      s.showOne n l) s

/-! ### Meanings -/

def execAnResolved (g : LaneGroup) (l : LaneIx) (r : AnResult) (s : State) : Host.Outcome State Fault Refusal := .next (anResolved g l r s)

def execAnPageError (g : LaneGroup) (l : LaneIx) (s : State) : Host.Outcome State Fault Refusal := .next (anFail g l s)

def execAnTimeout (g : LaneGroup) (l : LaneIx) (s : State) : Host.Outcome State Fault Refusal := .next (anFail g l s)

def execPartnerAnRestart (g : LaneGroup) (l : LaneIx) (s : State) : Host.Outcome State Fault Refusal := .next (partnerRestart g l s)

def execCoeffRequest (g : LaneGroup) (l : LaneIx) (r : CoeffReq) (bad : Bool) (s : State) : Host.Outcome State Fault Refusal :=
  .next (coeffRequest g l r bad s)

def execCoeffTimeout (g : LaneGroup) (l : LaneIx) (ber : BerEst) (s : State) : Host.Outcome State Fault Refusal :=
  .next (coeffTimeout g l ber s)

def execTrainComplete (g : LaneGroup) (l : PortBer) (s : State) : Host.Outcome State Fault Refusal :=
  .next (trainComplete g l.lane l.ber s)

def execTrainTimeout (g : LaneGroup) (l : LaneIx) (ber : BerEst) (s : State) : Host.Outcome State Fault Refusal :=
  .next (trainTimeout g l ber s)

def execAlignComplete (g : LaneGroup) (l : LaneIx) (s : State) : Host.Outcome State Fault Refusal := .next (alignComplete g l s)

def execAlignTimeout (g : LaneGroup) (l : LaneIx) (s : State) : Host.Outcome State Fault Refusal := .next (alignTimeout g l s)

def execHoldExpiry (g : LaneGroup) (l : LaneIx) (s : State) : Host.Outcome State Fault Refusal := .next (holdExpiry g l s)

def execLossOfSignal (g : LaneGroup) (l : LaneIx) (x : SignalLoss) (wire : Bool) (s : State) : Host.Outcome State Fault Refusal :=
  .next (lossOfSignal g l x.us.toNat x.idle wire s)

def execAlignmentLockLoss (g : LaneGroup) (l : LaneIx) (wire : Bool) (s : State) : Host.Outcome State Fault Refusal :=
  .next (alignLoss g l wire s)

def execRemoteFault (g : LaneGroup) (l : LaneIx) (wire : Bool) (s : State) : Host.Outcome State Fault Refusal :=
  .next (remoteFault g l wire s)

def execQuietEnter (g : LaneGroup) (l : LaneIx) (s : State) : Host.Outcome State Fault Refusal := .next (quietEnter g l s)

def execQuietRefresh (g : LaneGroup) (l : LaneIx) (s : State) : Host.Outcome State Fault Refusal := .next (quietRefresh g l s)

def execQuietExit (g : LaneGroup) (l : LaneIx) (s : State) : Host.Outcome State Fault Refusal := .next (quietExit g l s)

def execQuietMarkerReceive (g : LaneGroup) (l : LaneIx) (s : State) : Host.Outcome State Fault Refusal := .next (quietMarker g l s)

def execRefreshBurstReceive (g : LaneGroup) (l : LaneIx) (s : State) : Host.Outcome State Fault Refusal := .next (refreshBurst g l s)

def execQuietTimeout (g : LaneGroup) (l : LaneIx) (wire : Bool) (s : State) : Host.Outcome State Fault Refusal :=
  .next (quietTimeout g l wire s)

def execQuietRelock (g : LaneGroup) (l : LaneIx) (s : State) : Host.Outcome State Fault Refusal := .next (quietRelock g l s)

def execQuietRelockTimeout (g : LaneGroup) (l : LaneIx) (wire : Bool) (s : State) : Host.Outcome State Fault Refusal :=
  .next (quietRelockTimeout g l wire s)

def execPrbsLock (g : LaneGroup) (l : LaneIx) (s : State) : Host.Outcome State Fault Refusal := .next (prbsLock g l s)

def execPrbsLockLoss (g : LaneGroup) (l : LaneIx) (n errs : BitVec 48) (s : State) : Host.Outcome State Fault Refusal :=
  .next (prbsLockLoss g l n.toNat errs.toNat s)

def execPrbsEnable (g : LaneGroup) (l : LaneIx) (v : Word) (s : State) : Host.Outcome State Fault Refusal := .next (onWrite (prbsCfgWrite g l v) s)

def execLaneRestart (g : LaneGroup) (l : LaneIx) (v : Word) (s : State) : Host.Outcome State Fault Refusal :=
  .next (onWrite (laneCtrlWrite g l (BitVec.ofNat 32 (putBits v.toNat 0 1 1))) s)

def execLaneClearFail (g : LaneGroup) (l : LaneIx) (v : Word) (s : State) : Host.Outcome State Fault Refusal :=
  .next (onWrite (laneCtrlWrite g l (BitVec.ofNat 32 (putBits v.toNat 1 1 1))) s)

def execPrbsClear (g : LaneGroup) (l : LaneIx) (v : Word) (s : State) : Host.Outcome State Fault Refusal :=
  .next (onWrite (laneCtrlWrite g l (BitVec.ofNat 32 (putBits v.toNat 2 1 1))) s)

def execPrbsInject (g : LaneGroup) (l : LaneIx) (v : Word) (s : State) : Host.Outcome State Fault Refusal :=
  .next (onWrite (laneCtrlWrite g l (BitVec.ofNat 32 (putBits v.toNat 3 1 1))) s)

def execPortCfgWrite (n : Region) (l : Fin 64) (v : Word) (s : State) : Host.Outcome State Fault Refusal :=
  .next (onWrite (portCfgWrite n l v) s)

def execPbShapeWrite (n : Region) (b : Oct) (v : Word) (s : State) : Host.Outcome State Fault Refusal :=
  .next (onWrite (shapeWrite n b v) s)

end Sys2Proof.Machine
end

