-- ==== Sys2Proof/Machine/Wellhead.lean ====
section
/-! DEFINITION. The wellhead (files 12, 13): doorbells (R411 to R415), ring contexts (R430 to R434), descriptor fetch and invalidation
(R417 to R419, R435, R436), transmit chains (R420, R449 to R451), receive delivery (R72, R74 to R79, R421), messages and event records. -/

namespace Sys2Proof.Machine

/-! ### Rings -/

/-- Two 17-bit indices' difference b − a (R410). -/
def ixDiff (a b : Nat) : Nat := (b + 2 ^ 17 - a % 2 ^ 17) % 2 ^ 17

def State.ringHead (s : State) (r : Nat) : Nat := s.rf (HIF_RING_HEAD.HEAD r)
def State.ringTail (s : State) (r : Nat) : Nat := s.rf (HIF_RING_TAIL.TAIL r)

/-- A ring type that the device fetches. -/
def fetched (ty : Nat) : Bool := ty = 0 || ty = 1 || ty = 3

/-- Rings whose control or status word differs from reset: every ring that is not DISABLED is among them. -/
def State.ringsUsed (s : State) : List Nat :=
  s.regs.filterMap (fun p =>
    let b := HIF_RING_CTRL.w 0
    let k := (p.1 - b) % 16
    if b ≤ p.1 ∧ p.1 < b + 16 * 16384 ∧ (k = 0 ∨ (k = 8 ∧ s.reg (p.1 - 8) = 0)) then some ((p.1 - b) / 16) else none)

/-- Set a bit of `HIF_ERR` that raises an event of its own besides 0x100. -/
def State.hifErrEv (s : State) (f : Fld) (r src : Nat) : State := (s.hifErr f r).raise src r

/-- A fetched ring is bound to completion ring `cq`. -/
def State.boundTo (s : State) (r cq : Nat) : Bool := fetched (s.ringType r) && s.rf (HIF_RING_BIND.CQ r) = cq

/-- Fetched rings of `cq` that have work enter BACKPRESSURE when F + 64 < 1, and return to ACTIVE when F + 64 ≥ 1 (R424). -/
def State.pressure (s : State) (cq : Nat) : State :=
  let short := decide (s.cqFree cq + 64 < 1)
  s.ringsUsed.foldl (fun s r =>
    if s.boundTo r cq then
      if short && s.ringState r = rsActive && s.ringUsed r != 0 then s.wf (HIF_RING_STATUS.STATE r) rsBackpressure
      else if !short && s.ringState r = rsBackpressure then s.wf (HIF_RING_STATUS.STATE r) rsActive
      else s
    else s) s

/-- The entries of a ring that the device holds, from its head on. -/
def RingX.entries (x : RingX) : List (List Nat) := x.front ++ x.cache

/-- Put the entries that the device holds of ring `r`, the first `k` of them as the front of a long chain, and show the cache's size (R417, R419). -/
def State.setEntries (s : State) (r k : Nat) (l : List (List Nat)) : State :=
  (s.setRingX r { s.ringX r with front := l.take k, cache := l.drop k }).wf (HIF_RING_STATUS.CACHED r) (l.length - k)

/-- Discard a ring's entries. -/
def State.dropCache (s : State) (r : Nat) : State := (s.setEntries r 0 []).setRingX r { (s.setEntries r 0 []).ringX r with upset := [] }

/-- Move the head of a fetched ring past `k` entries, which leave the cache; a head write-back is due when HWB_EN = 1 (R434). -/
def State.consume (s : State) (r k : Nat) : State :=
  let s := s.setRingX r { s.ringX r with misAt := (s.ringX r).misAt.filter (fun u => decide (k ≤ ixDiff (s.ringHead r) u)) }
  let s := s.wf (HIF_RING_HEAD.HEAD r) ((s.ringHead r + k) % 2 ^ 17)
  let x := s.ringX r
  let s := s.setEntries r (x.front.length - k) (x.entries.drop k)
  if s.rb (HIF_RING_CTRL.HWB_EN r) then s.setRingX r { s.ringX r with hwbDue := true } else s

/-- A DMA of `b` bytes from or to host memory (Table CT-2). -/
def State.dmaRead (s : State) (b item : Nat) : State := s.ev 134 0x15 none (cdiv b 64) s.strokeNow item
def State.dmaWrite (s : State) (b item : Nat) : State := s.ev 134 0x16 none (cdiv b 64) s.strokeNow item

/-! ### Doorbells (R411 to R415, R469) -/

/-- The cause code of a malformed doorbell, the lowest that applies (R469, R471). -/
def State.doorbellFault (s : State) (r : Nat) (v : Nat) (full : Bool) : Option Nat :=
  let x := v % 2 ^ 17
  let held := s.ringUsed r
  let ahead := ixDiff (s.ringHead r) x
  if !full then some 0x14
  else if fetched (s.ringType r) && decide (ahead < held) then some 0x10
  else if fetched (s.ringType r) && decide (s.ringSize r < ahead) then some 0x11
  else if !fetched (s.ringType r) && decide (held < ahead) then some 0x12
  else if bits v 17 14 != 0 || (fetched (s.ringType r) && bit v 31) then some 0x13
  else none

/-- A write of the doorbell of ring `r` of exactly 32 bits when `full` (R407, R411 to R415). -/
def doorbell (r : Nat) (v : Nat) (full : Bool) (s : State) : State :=
  let st := s.ringState r
  if st = rsDisabled || st = rsDisabling || st = rsFault then s.hifErrEv HIF_ERR.DB_DISCARD r 0x104
  else match s.doorbellFault r v full with
    | some c => s.haltItem c r (v % 2 ^ 17)
    | none =>
      let s := (s.count (HIF_CNT.COUNT 0) s.strokeNow).ev 134 0x10 none 1 s.strokeNow (r + v % 2 ^ 17 * 2 ^ 14)
      if fetched (s.ringType r) then
        ((s.wf (HIF_RING_TAIL.TAIL r) (v % 2 ^ 17)).wf (HIF_RING_STATUS.SUSPENDED r) 0).pressure (s.rf (HIF_RING_BIND.CQ r))
      else
        let s := s.wf (HIF_RING_HEAD.HEAD r) (v % 2 ^ 17)
        let s := if bit v 31 then s.wf (HIF_RING_STATUS.ARMED r) 1 else s
        let s := if s.ringType r = 2 then (s.drainHeld r 65).pressure r else s
        s.ringEval r false

/-- Record a discarded write in `HIF_ACCESS_ERR` when none is (R443). -/
def State.accessErr (s : State) (bar off : Nat) : State :=
  if s.rb HIF_ACCESS_ERR.VALID then s
  else ((s.wf HIF_ACCESS_ERR.OFFSET off).wf HIF_ACCESS_ERR.BAR bar).wf HIF_ACCESS_ERR.VALID 1

/-- A stray write of BAR2 (`bar` = 1) or BAR4 (`bar` = 2) is discarded, counted and recorded (R407). -/
def strayWrite (bar off : Nat) (s : State) : State :=
  let s := ((s.count (HIF_CNT.COUNT 10) s.strokeNow).hifErr HIF_ERR.STRAY_WRITE 0).accessErr bar off
  s.raise 0x1F1 (s.reg HIF_ACCESS_ERR.w).toNat

/-! ### Ring contexts (R430 to R433) -/

/-- R430: an enable is accepted. -/
def State.enableOk (s : State) (r : Nat) : Bool :=
  decide (s.ringType r ≤ 4) && decide (s.rf (HIF_RING_CTRL.LOG_SIZE r) ≤ 10) &&
    (!fetched (s.ringType r) || s.ringIs (s.rf (HIF_RING_BIND.CQ r)) 2)

/-- R432: a disable of a written ring is refused. -/
def State.ringNeeded (s : State) (r : Nat) : Bool :=
  if s.ringType r = 2 then
    (s.ringX r).owed != 0 || s.ringsUsed.any (fun q => s.boundTo q r && s.ringState q != rsDisabled)
  else
    (List.range 4096).any (fun e => (exportOf e).isNone && s.rb (CHIP_EVT_SRC.EN e) && s.rf (CHIP_EVT_SRC.RING e) = r) ||
      (List.range 8).any (fun n => (List.range 4).any (fun e => s.rb (PMP_EXPORT_CFG.EN n e) && s.rf (PMP_EXPORT_CFG.RING n e) = r))

/-- A ring enters DISABLED by a disable. -/
def State.ringDisabled (s : State) (r : Nat) : State :=
  let s := s.setRingX r { s.ringX r with inval := false }
  ((s.wf (HIF_RING_STATUS.STATE r) rsDisabled).wf (HIF_RING_STATUS.SUSPENDED r) 0).raise 0x103 r

/-- The ENABLE bit of a `HIF_RING_CTRL` write, once the other fields are stored (R430 to R432). -/
def State.ringEnable (s : State) (r : Nat) (en : Bool) : State :=
  let st := s.ringState r
  if en then
    if st = rsDisabled then
      if s.enableOk r then
        let i := s.rf (HIF_RING_START.INDEX r)
        let s := ((s.wf (HIF_RING_CTRL.ENABLE r) 1).wf (HIF_RING_HEAD.HEAD r) i).wf (HIF_RING_TAIL.TAIL r) i
        let s := (s.wf (HIF_RING_STATUS.STATE r) rsActive).wf (HIF_RING_STATUS.ARMED r) 0
        s.setRingX r { s.ringX r with hwbDue := false, misAt := [], upset := [], timer := false }
      else s.hifErr HIF_ERR.CTX_REJECT r
    else if st = rsDisabling then s.hifErr HIF_ERR.CTX_REJECT r
    else s
  else if st = rsDisabled || st = rsDisabling then s
  else if fetched (s.ringType r) then
    ((s.wf (HIF_RING_CTRL.ENABLE r) 0).wf (HIF_RING_STATUS.STATE r) rsDisabling).dropCache r
  else if s.ringNeeded r then s.hifErr HIF_ERR.CTX_REJECT r
  else (s.wf (HIF_RING_CTRL.ENABLE r) 0).ringDisabled r

/-- A write of `HIF_RING_CTRL` (R430, R431). -/
def ringCtrlWrite (r : Nat) (v : Word) (s : State) : State :=
  let v := v.toNat
  let s := if s.ringState r = rsDisabled then
      ((s.wf (HIF_RING_CTRL.TYPE r) (bits v 1 3)).wf (HIF_RING_CTRL.LOG_SIZE r) (bits v 4 4)).wf (HIF_RING_CTRL.HWB_EN r) (bits v 8 1)
    else if bits v 1 8 != bits (s.reg (HIF_RING_CTRL.w r)).toNat 1 8 then s.hifErr HIF_ERR.CTX_IGNORED r
    else s
  s.ringEnable r (bit v 0)

/-- A write of another context register: ignored while the ring is not DISABLED (R431). -/
def ringCtxWrite (r : Nat) (store : State → State) (s : State) : State :=
  if s.ringState r = rsDisabled then store s else s.hifErr HIF_ERR.CTX_IGNORED r

/-- The published head is written back (R434). -/
def State.writeBack (s : State) (r : Nat) : State :=
  let s := (s.setRingX r { s.ringX r with hwbDue := false }).dmaWrite 4 (r + s.ringHead r * 2 ^ 14)
  s.hostWrite (s.rf (HIF_RING_HWB.ADDR r) * 8) (bytesLE 4 (s.ringHead r))

def headWriteback (r : Nat) (s : State) : State :=
  if (s.ringX r).hwbDue && s.rb (HIF_RING_CTRL.HWB_EN r) then s.writeBack r else s

/-- Begun work is done: the disable completes (R432). -/
def ringDisableComplete (r : Nat) (s : State) : State :=
  if s.ringState r = rsDisabling && (s.ringX r).begun = 0 then
    (if s.rb (HIF_RING_CTRL.HWB_EN r) then s.writeBack r else s).ringDisabled r
  else s

/-! ### Invalidation (R418) -/

/-- A ring in a state in which an invalidation may run. -/
def State.invalOk (s : State) (r : Nat) : Bool := fetched (s.ringType r) && (s.ringState r = rsActive || s.ringState r = rsBackpressure)

/-- A write of `HIF_RING_INVAL`: RING is stored, and GO starts an invalidation of it; a refused GO changes nothing else, RING included. -/
def invalWrite (v : Word) (s : State) : State :=
  let r := bits v.toNat 0 14
  if !bit v.toNat 14 then s.wf HIF_RING_INVAL.RING r
  else if s.rb HIF_RING_INVAL.BUSY || !s.invalOk r then (s.wf HIF_RING_INVAL.REFUSED 1).hifErr HIF_ERR.INVAL_REFUSED r
  else
    let s := ((s.wf HIF_RING_INVAL.RING r).wf HIF_RING_INVAL.BUSY 1).wf HIF_RING_INVAL.REFUSED 0
    s.setRingX r { s.ringX r with inval := true }

/-- The ring that the running invalidation names: RING as it was at GO, or as it reads where that ring has been disabled since. -/
def State.invalRing (s : State) : Nat := ((s.rings.find? (fun p => p.2.inval)).map (·.1)).getD (s.rf HIF_RING_INVAL.RING)

/-- The invalidation completes: a chain begun has left the cache, so that the whole cache is discarded (R418). -/
def invalComplete (s : State) : State :=
  if s.rb HIF_RING_INVAL.BUSY then
    let r := s.invalRing
    let s := if (s.ringX r).inval && s.invalOk r then (s.dropCache r).wf (HIF_RING_STATUS.SUSPENDED r) 1 else s
    let s := s.setRingX r { s.ringX r with inval := false }
    (s.wf HIF_INVAL_FROM.INDEX (s.ringHead r)).wf HIF_RING_INVAL.BUSY 0
  else s

/-! ### Descriptor fetch (R417, R419, R435) -/

def entOp (e : List Nat) : Nat := bits (e.getD 0 0) 0 8
def entFirst (e : List Nat) : Bool := bit (e.getD 0 0) 8
def entLast (e : List Nat) : Bool := bit (e.getD 0 0) 9

/-- The flags of a transmit ring's entries, from the first of a chain on: the cause code and place of the first fault (R419, R450),
the lower code where one entry has two (R471). -/
def chainFault : Nat → Nat → List (List Nat) → Option (Nat × Nat)
  | _, _, [] => none
  | k, i, e :: l =>
    if k = 63 ∧ !entLast e then some (0x1B, i)
    else if (k = 0 ∧ !entFirst e) ∨ (k ≠ 0 ∧ entFirst e) then some (0x1C, i)
    else if entLast e then chainFault 0 (i + 1) l
    else chainFault (k + 1) (i + 1) l

/-- Fetching is suspended on a ring: an invalidation of it runs, or has completed and no doorbell came since (R418). -/
def State.fetchStopped (s : State) (r : Nat) : Bool := s.rb (HIF_RING_STATUS.SUSPENDED r) || (s.ringX r).inval

/-- The device may fetch from a ring: transmit rings only while it runs and no quiesce has begun (R607, R617). -/
def State.mayFetch (s : State) (r : Nat) : Bool :=
  s.ringState r = rsActive && !s.fetchStopped r && fetched (s.ringType r) &&
    (s.ringType r != 0 || (s.running && !s.chip.quiescing))

/-- How many of a ring's entries stand outside the cache when the next ones are fetched: a full cache without the LAST of the chain at the head makes
room for the chain's rest (R417, R419). -/
def State.frontLen (s : State) (r : Nat) : Nat :=
  let x := s.ringX r
  if s.ringType r = 0 && x.front.isEmpty && decide (32 ≤ x.cache.length) && !x.cache.any entLast then 32 else x.front.length

/-- Entries that may be fetched now: up to 32 at a time, while the cache has room. -/
def State.fetchable (s : State) (r : Nat) : Nat :=
  let n := (s.ringX r).entries.length
  min (s.ringUsed r - n) (32 - (n - s.frontLen r))

/-- `k` entries of ring `r` from index `h` on, as they stand in host memory, are read (Tables CT-2, HI-12). -/
def State.readEntries (s : State) (r h k : Nat) : State × List (List Nat) :=
  let it := r + h % 2 ^ 17 * 2 ^ 14
  (((s.countBy (HIF_CNT.COUNT 1) k s.strokeNow).ev 134 0x11 none k s.strokeNow it).dmaRead (32 * k) it,
    (List.range k).map (fun i => s.hostWords (s.ringAddr r (h + i) 32) 8))

/-- A DMA read of descriptors fails: the ring enters FAULT (R435). -/
def State.fetchFail (s : State) (r : Nat) : State := (s.wf (HIF_RING_STATUS.STATE r) rsFault).hifErrEv HIF_ERR.FETCH_ERR r 0x102

/-- A DMA read of at most `n` descriptors returns (R417); a failed one puts the ring into FAULT, one that was outstanding when the ring entered
BACKPRESSURE too (R433, R435). -/
def descriptorFetch (r n : Nat) (res : FetchResult) (s : State) : State :=
  let c := (s.ringX r).entries
  let k := min n (s.fetchable r)
  if k = 0 then s
  else match res with
    | .failed => if s.mayFetch r || (fetched (s.ringType r) && s.ringState r = rsBackpressure) then s.fetchFail r else s
    | _ =>
      if !s.mayFetch r then s
      else
        let h := s.ringHead r + c.length
        let f := s.frontLen r
        let (s, new) := s.readEntries r h k
        let s := s.setEntries r f (c ++ new)
        let s := match res with
          | .upset i => if i.val < k then s.setRingX r { s.ringX r with upset := (h + i.val) % 2 ^ 17 :: (s.ringX r).upset } else s
          | _ => s
        if s.ringType r != 0 then s
        else match chainFault 0 0 (c ++ new) with
          | some (code, i) => s.haltItem code r ((s.ringHead r + i) % 2 ^ 17)
          | none => s

/-- The two cache copies of entry `h` of ring `r` differ on use: a detection (R555). The cached entries are discarded, to be fetched again once; then
the ring faults (R436). -/
def State.cacheMismatch (s : State) (r h : Nat) : State :=
  let s := (s.detectFree 12).hifErr HIF_ERR.CACHE_PARITY r
  if h ∈ (s.ringX r).misAt then (s.wf (HIF_RING_STATUS.STATE r) rsFault).hifErrEv HIF_ERR.CACHE_FAIL r 0x102
  else
    let s := s.dropCache r
    s.setRingX r { s.ringX r with misAt := h :: (s.ringX r).misAt }

/-- The first entry among the first `k` held of ring `r` whose cache copies differ. -/
def State.upsetIn (s : State) (r k : Nat) : Option Nat :=
  ((List.range k).map (fun i => (s.ringHead r + i) % 2 ^ 17)).find? (fun u => decide (u ∈ (s.ringX r).upset))

/-! ### Transmit chains (R420, R449 to R451) -/

/-- The entries of the chain at the front of a transmit ring's cache, when its LAST entry is there. -/
def chainOf (l : List (List Nat)) : Option (List (List Nat)) :=
  (findIdx entLast l).map (fun k => l.take (k + 1))

/-- A chain may be begun on ring `r` of channel `c` (R419, R420, R423). -/
def State.chainReady (s : State) (c r : Nat) : Bool :=
  s.ringState r = rsActive && s.ringType r = 0 && s.rf (HIF_RING_BIND.CHANNEL r) = c && (chainOf (s.ringX r).entries).isSome &&
    decide (1 ≤ s.cqFree (s.rf (HIF_RING_BIND.CQ r)) + 64)

/-- The next ring in round robin from `k` (R15). -/
def nextRing (k : Nat) (l : List Nat) : Option Nat :=
  match earliest (l.filter (fun r => decide (k ≤ r))) with
  | some r => some r
  | none => earliest l

/-- The fault of one transmit descriptor (Table DS-2, R469). -/
def txFault (e : List Nat) : Option Nat :=
  let w0 := e.getD 0 0
  let len := bits (e.getD 1 0) 0 14
  if w0 / 2 ^ 13 != 0 || (!entFirst e && bits w0 10 3 != 0) || e.getD 1 0 / 2 ^ 14 != 0 || (e.drop 4).any (· != 0) then some 0x18
  else if entOp e != 1 then some 0x19
  else if len = 0 || decide (9996 < len) then some 0x1A
  else none

/-- The bytes of a chain. -/
def chainLen (l : List (List Nat)) : Nat := (l.map (fun e => bits (e.getD 1 0) 0 14)).sum

/-- The lowest cause code of some faults with their places, the first place of that code (R471). -/
def leastFault (l : List (Nat × Nat)) : Option (Nat × Nat) :=
  l.foldl (fun a x => match a with
    | none => some x
    | some y => if x.1 < y.1 then some x else some y) none

/-- The fault of a whole chain. -/
def chainBad (l : List (List Nat)) : Option (Nat × Nat) :=
  leastFault (((List.range l.length).filterMap (fun i => (txFault (l.getD i [])).map (fun c => (c, i)))) ++
    (if chainLen l < 14 ∨ 9996 < chainLen l then [(0x1A, 0)] else []))

/-- A 64-bit field of an entry. -/
def entAddr (e : List Nat) (w : Nat) : Nat := e.getD w 0 + 2 ^ 32 * e.getD (w + 1) 0

/-- The entry of the chain at the head of ring `r`, of `k` entries, whose cache copies differ: entry `mis` of it, or one that was fetched so. -/
def State.chainUpset (s : State) (r k : Nat) (mis : Option (Fin 64)) : Option Nat :=
  match mis with
  | some i => if i.val < k then some ((s.ringHead r + i.val) % 2 ^ 17) else s.upsetIn r k
  | none => s.upsetIn r k

/-- The arbiter of host channel `c` grants a ready chain, whose data read begins (R420); `mis` names an entry of it whose cache copies differ. -/
def chainBegin (c : Nat) (mis : Option (Fin 64)) (s : State) : State :=
  match nextRing (mget 0 s.rrHost c) (s.ringsUsed.filter (fun r => s.chainReady c r)) with
  | none => s
  | some r =>
    if !s.running || s.chip.quiescing then s
    else match chainOf (s.ringX r).entries with
      | none => s
      | some l =>
        let h := s.ringHead r
        match s.chainUpset r l.length mis, chainBad l with
        | some u, _ => s.cacheMismatch r u
        | none, some (code, i) => s.haltItem code r ((h + i) % 2 ^ 17)
        | none, none =>
          let cq := s.rf (HIF_RING_BIND.CQ r)
          let w0 := (l.getD 0 []).getD 0 0
          let x : TxX := { ring := r, index := h, cq := cq, len := chainLen l, tsReq := bit w0 12, csumIp := bit w0 10, csumL4 := bit w0 11,
                           chan := c, frags := some (l.map (fun e => (entAddr e 2, bits (e.getD 1 0) 0 14))) }
          let s := (s.withRrHost (mset 0 s.rrHost c (r + 1))).withTxs (s.txs ++ [x])
          let s := s.setRingX r { s.ringX r with begun := (s.ringX r).begun + 1 }
          ((s.consume r l.length).owe cq 1).pressure cq

/-- Checksum insertion (R71): the frame, and the IP_SKIP and L4_SKIP bits of its completion. -/
def txChecksums (ip l4 : Bool) (d : List Byte) : List Byte × Nat :=
  match findHeaders d 0 with
  | none => (d, b2n ip * 2 ^ 20 + b2n l4 * 2 ^ 21)
  | some h =>
    let ipOk := !h.v6 && !h.frag
    let d1 := if ip && ipOk then putBe16 d (h.ip + 10) (ipCsum d h) else d
    match h.l4 with
    | some (p, proto) =>
      let ok := !h.frag
      let d2 := if l4 && ok then putBe16 d1 (p + csumOff proto) (l4Csum d1 h p proto) else d1
      (d2, b2n (ip && !ipOk) * 2 ^ 20 + b2n (l4 && !ok) * 2 ^ 21)
    | none => (d1, b2n (ip && !ipOk) * 2 ^ 20 + b2n l4 * 2 ^ 21)

/-- Present a host frame to its ingress pipeline (R31, R420). -/
def State.presentHost (s : State) (x : TxX) (d : List Byte) : State :=
  let p := 512 + x.chan
  let n := x.chan / 2
  let t := s.orderNs / s.strokeLen % 2 ^ 48
  let dom := s.rf TIME_STATUS.STAMP_ACTIVE
  let f : Frame := { key := ⟨t, p, 0⟩, data := d, region := n, pipe := p % 2, stamp := (s.dom dom).ns * 4, stampDom := dom,
                     tx := some ⟨x.ring, x.index, x.tsReq⟩ }
  let s := (s.count (HIF_CNT.COUNT 4) s.strokeNow)
  if !s.running || !s.regionRuns n || s.chip.quiescing then s.txRefused f
  else if s.fromLedger t then s.holdRx f t
  else
    let (s, k) := s.stampKey p t
    if !s.admitsStroke k.stroke then s.txRefused f else (s.ledCount k).admitKeyed { f with key := k }

/-- The data of the oldest begun chain of channel `c` arrives (R420), or its read fails (R435, Table DS-7). -/
def dataReturn (c : Nat) (err : Bool) (s : State) : State :=
  match s.txs.find? (fun x => x.chan = c && x.frags.isSome) with
  | none => s
  | some x =>
    let r : TxRef := ⟨x.ring, x.index, x.tsReq⟩
    let s := s.dmaRead x.len (x.ring + x.index * 2 ^ 14)
    if err then (s.hifErr HIF_ERR.DATA_ERR x.ring).txMap r (fun y => { y with frags := none }.finish 2 0 0)
    else
      let d := (x.frags.getD []).flatMap (fun a => s.hostRead a.1 a.2)
      let y := txChecksums x.csumIp x.csumL4 d
      (s.txMap r (fun z => { z with frags := none, flags := y.2 })).presentHost x y.1

/-! ### Receive filters and wake patterns (R74 to R79) -/

/-- Step 1 of R74. -/
def State.vlanPass (s : State) (n c : Nat) (d : List Byte) : Bool :=
  let vid := outerTci d % 4096
  if !s.rb (PB_HOST_FILT_CFG.VLAN_EN n c) then true
  else if tagged d && vid != 0 then bit (s.rf (PB_HOST_VLAN.BITS n c (vid / 32))) (vid % 32)
  else s.rb (PB_HOST_FILT_CFG.ACCEPT_UNTAGGED n c)

/-- The multicast hash (R75): the 12 most significant bits of the FCS value over the destination address. The coefficient of x^31 is the most
significant bit (DEDUCED from the order in which IEEE 802.3 sends the FCS, log entry 168); `crc32` holds it as bit 0. -/
def mcastHash (d : List Byte) : Nat :=
  let c := crc32 (bytesAt d 0 6)
  (List.range 12).foldl (fun h i => 2 * h + bits c i 1) 0

/-- Step 2 of R74. -/
def State.addrPass (s : State) (n c : Nat) (d : List Byte) : Bool :=
  let a := beAt d 0 6
  if a = 2 ^ 48 - 1 then s.rb (PB_HOST_FILT_CFG.BCAST n c)
  else if byteAt d 0 % 2 = 1 then
    s.rb (PB_HOST_FILT_CFG.MCAST_ALL n c) || bit (s.rf (PB_HOST_MCAST_HASH.BITS n c (mcastHash d / 32))) (mcastHash d % 32)
  else (List.range 32).any (fun i => s.rb (PB_HOST_UCAST.VALID n c i) &&
    s.rf (PB_HOST_UCAST.ADDR_HI n c i) * 2 ^ 32 + s.rf (PB_HOST_UCAST.ADDR_LO n c i) = a)

/-- Pattern `k` of region `n` matches a frame (R76). R76 does not say whether the frame's end is that of its FCS: the model's frame ends before it
(DESIGN CHOICE, log entry 211). -/
def State.wakeMatch (s : State) (n k : Nat) (d : List Byte) : Bool :=
  let o := s.rf (PB_WAKE_PAT_CTRL.OFFSET n k)
  (List.range 64).all (fun i => !bit (s.rf (PB_WAKE_PAT_MASK.MASK n k)) i ||
    (decide (o + i < d.length) && byteAt d (o + i) = bits (s.rf (PB_WAKE_PAT_DATA.DATA n k (i / 4))) (i % 4 * 8) 8))

/-- 100 ms have passed since the last PM_PME message (R78). -/
def State.pmeFree (s : State) : Bool :=
  match s.cfg.pmeAt with
  | some a => decide (a + 100000000 ≤ s.time.tick)
  | none => true

/-- A PM_PME message is sent (R78). -/
def State.sendPme (s : State) : State := (s.withCfg { s.cfg with pmeAt := some s.time.tick }).emit .pme

/-- PME signalling of a match (R77, R78): a message that would follow the last one within 100 ms is left to the next repetition. -/
def State.pmeSignal (s : State) : State :=
  let c := s.cfg
  if !c.pmeEn || c.pmeStatus || c.power < 3 then s
  else if c.power = 3 then
    let t := s.withCfg { c with pmeStatus := true }
    if s.pmeFree then t.sendPme else t
  else s.withCfg { c with pmeStatus := true, wakeN := true }

/-- Check a frame accepted by channel `c` of region `n` against the wake patterns (R76, R77). -/
def State.wakeCheck (s : State) (n c : Nat) (d : List Byte) : State :=
  let m := (List.range 4).filter (fun k => bit (s.rf (PB_WAKE_CFG.PAT_EN n)) k && s.rf (PB_WAKE_PAT_CTRL.CHANNEL n k) = c && s.wakeMatch n k d)
  if m.isEmpty then s
  else
    let s := s.wf (PB_WAKE_STATUS.MATCH n) (m.foldl (fun a k => putBits a k 1 1) (s.rf (PB_WAKE_STATUS.MATCH n)))
    (s.raise (regionSrc 0x2C8 n) (s.reg (PB_WAKE_STATUS.w n)).toNat).pmeSignal

/-! ### Receive delivery (R72, R421, R458) -/

/-- The checksum results of a received frame: IP_CSUM and L4_CSUM (R72). The pseudo-header's length is that of the IP payload for UDP too (log
entry 202). -/
def rxChecksums (d : List Byte) : Nat × Nat :=
  match findHeaders d 0 with
  | none => (0, 0)
  | some h =>
    let ip := if h.v6 then 0 else if csumOf (sumWords (slice d h.ip (h.ip + h.ihl))) = 0 then 1 else 2
    match h.l4 with
    | some (p, proto) =>
      if h.frag then (ip, 0)
      else if proto = 17 ∧ be16 d (p + 6) = 0 then (ip, if h.v6 then 2 else 1)
      else
        let sum := sumWords (pseudoAddrs d h) + (if h.v6 then proto else 0) + (h.stop - p) + sumWords (slice d p h.stop)
        (ip, if csumOf sum = 0 then 1 else 2)
    | none => (ip, 0)

/-- The buffers a frame of `len` bytes takes from posted entries, in ring order: entries and bytes; none when they are too few. -/
def takeBufs : Nat → List (List Nat) → Option (List (List Nat × Nat))
  | _, [] => none
  | len, e :: l =>
    let b := bits (e.getD 1 0) 0 14
    if len ≤ b then some [(e, len)] else (takeBufs (len - b) l).map (fun r => (e, b) :: r)

/-- The fault of a receive-post descriptor (Table DS-3, R469). -/
def rxFault (e : List Nat) : Option Nat :=
  let len := bits (e.getD 1 0) 0 14
  if bits (e.getD 0 0) 10 22 != 0 || e.getD 1 0 / 2 ^ 14 != 0 || (e.drop 4).any (· != 0) then some 0x18
  else if entOp e != 2 then some 0x19
  else if len % 64 != 0 || decide (len < 128) || decide (10240 < len) then some 0x1A
  else if !(entFirst e && entLast e) then some 0x1C
  else if e.getD 2 0 % 64 != 0 then some 0x1D
  else none

/-- The posted entries of a receive ring from its head, at most `k`: those in the cache, and those that a fetch of them brings, where fetching is not
suspended (R417, R418). -/
def State.posted (s : State) (r k : Nat) : List (List Nat) :=
  let c := (s.ringX r).entries.take k
  if s.fetchStopped r then c
  else c ++ (List.range (min k (s.ringUsed r) - c.length)).map (fun i => s.hostWords (s.ringAddr r (s.ringHead r + c.length + i) 32) 8)

/-- The first `k` entries of a receive ring are needed: those not in the cache are fetched, in reads of up to 32 entries (R417). What a frame that is
dropped has read so is not kept (DESIGN CHOICE, log entry 216). -/
def State.fetchPosted (s : State) (r k : Nat) : State :=
  let n := (s.ringX r).entries.length
  let h := s.ringHead r + n
  if k ≤ n then s
  else if k - n ≤ 32 then (s.readEntries r h (k - n)).1
  else ((s.readEntries r h 32).1.readEntries r (h + 32) (k - n - 32)).1

/-- The ring a frame of class `c` is steered to on channel `ch` (R421). -/
def State.steer (s : State) (ch c : Nat) (f : Frame) : Nat :=
  let k := 4 * c + (if hvKeyed f.hv then crc32c f.fkey % 4 else 0)
  if k % 2 = 0 then s.rf (HIF_RX_STEER.RING_LO ch (k / 2)) else s.rf (HIF_RX_STEER.RING_HI ch (k / 2))

/-- Write a frame into its buffers; `i` counts the entries. -/
def State.fillBufs (s : State) (r h : Nat) : Nat → List (List Nat × Nat) → List Byte → State
  | _, [], _ => s
  | i, (e, len) :: l, d =>
    ((s.hostWrite (entAddr e 2) (d.take len)).dmaWrite len (r + (h + i) % 2 ^ 17 * 2 ^ 14)).fillBufs r h (i + 1) l (d.drop len)

/-- Complete the buffers of a frame. -/
def State.completeBufs (s : State) (r cq w0 w2 w3 h n : Nat) : Nat → List (List Nat × Nat) → State
  | _, [] => s
  | i, (_, len) :: l =>
    (s.postCpl cq [r + 2 ^ 14 + b2n (i = 0) * 2 ^ 16 + b2n (i + 1 = n) * 2 ^ 17 + w0, (h + i) % 2 ^ 17 + len * 2 ^ 17, w2, w3]).completeBufs
      r cq w0 w2 w3 h n (i + 1) l

/-- Write a frame into buffers and complete each of them, after every data write of the frame (R425). -/
def State.deliver (s : State) (r cq w0 w2 w3 h : Nat) (l : List (List Nat × Nat)) (d : List Byte) : State :=
  (s.fillBufs r h 0 l d).completeBufs r cq w0 w2 w3 h l.length 0 l

/-- The word 0 [31:18] of a frame's receive completions (Table DS-8). -/
def State.rxFlags (s : State) (n c : Nat) (f : Frame) : Nat :=
  let x := if s.rb (PB_HOST_FILT_CFG.CSUM_RX n c) then rxChecksums f.data else (0, 0)
  x.1 * 2 ^ 18 + x.2 * 2 ^ 20 + b2n f.trunc * 2 ^ 22 + b2n (f.kind = 2) * 2 ^ 23 + (if f.kind = 1 then f.reason else 0) * 2 ^ 24

/-- A frame is dropped for lack of buffers, or of completion room (R421, R444). -/
def State.noBuf (s : State) (r : Nat) (f : Frame) (n : Nat) : State :=
  ((s.addSat (HIF_RING_DROPS.NO_BUF r) 1).count (HIF_CNT.COUNT 6) s.strokeNow).mirrorLost n f
def State.noCq (s : State) (r : Nat) (f : Frame) (n : Nat) : State :=
  ((s.addSat (HIF_RING_DROPS.NO_CQ r) 1).count (HIF_CNT.COUNT 7) s.strokeNow).mirrorLost n f

/-- A receive ring that takes frames of channel `ch` (R421). -/
def State.takesFrames (s : State) (ch r : Nat) : Bool := s.ringIs r 1 && s.rf (HIF_RING_BIND.CHANNEL r) = ch

/-- The ring's entries that a frame may need are compared and fetched: a mismatch discards the cache, and a failed read faults the ring (R435,
R436). -/
def State.rxEntries (s : State) (r len : Nat) (flt : HostRxFault) : State :=
  let need := fun (s : State) => ((takeBufs len (s.posted r 64)).map (·.length)).getD (s.posted r 64).length
  let s := match s.upsetIn r (need s) with
    | some u => s.cacheMismatch r u
    | none => s
  if flt = .fetch ∧ s.ringState r = rsActive ∧ (s.ringX r).entries.length < need s then s.fetchFail r else s

/-- A frame that channel `ch` accepts goes to its ring (R421), whose entries it takes only when it is not dropped (R470). -/
def State.receiveTo (s : State) (ch c : Nat) (f : Frame) (flt : HostRxFault) : State :=
  let r := s.steer ch c f
  let t := s.strokeNow
  let n := ch / 2
  let cq := s.rf (HIF_RING_BIND.CQ r)
  let s := if s.takesFrames ch r then s.rxEntries r f.data.length flt else s
  if !s.takesFrames ch r then (s.count (HIF_CNT.COUNT 8) t).mirrorLost n f
  else
    let es := s.posted r 64
    match takeBufs f.data.length es with
    | none => (s.fetchPosted r es.length).noBuf r f n
    | some l =>
      let h := s.ringHead r
      let s := s.fetchPosted r l.length
      if s.cqFree cq < (l.length : Int) then s.noCq r f n
      else match leastFault ((List.range l.length).filterMap (fun i => (rxFault (es.getD i [])).map (fun k => (k, i)))) with
      | some (code, i) => s.haltItem code r ((h + i) % 2 ^ 17)
      | none =>
        let w := if f.stamped then stampWords f.stamp f.stampDom else (0, 0)
        let s := ((s.consume r l.length).owe cq l.length).count (HIF_CNT.COUNT 5) t
        (s.deliver r cq (s.rxFlags (ch / 2) (ch % 2) f) w.1 ((f.origLen - 4) + w.2) h l f.data).pressure cq

/-- A frame waits for delivery at host channel `ch` (R421); `flt` says what its delivery met. -/
def hostReceive (ch : Nat) (flt : HostRxFault) (s : State) : State :=
  match mget none s.hostRx ch with
  | none => s
  | some (f, c) =>
    let n := ch / 2
    let k := ch % 2
    let t := s.strokeNow
    let s := s.withHostRx (mset none s.hostRx ch none)
    let s := if flt = .data then (((s.detect n 0 0 false).cisErrAt (CIS_ERR.DATA_PARITY n) n f.buf).cisCount n 10 f.key.stroke).mirrorLost n f
      else if s.rb (PB_HOST_FILT_CFG.PROMISC n k) || (s.vlanPass n k f.data && s.addrPass n k f.data) then
        ((s.count (PB_HOST_CNT.COUNT n k 0) t).wakeCheck n k f.data).receiveTo ch c f flt
      else (s.count (PB_HOST_CNT.COUNT n k (if s.vlanPass n k f.data then 2 else 1)) t).mirrorLost n f
    s.dropEg n f 15

/-! ### Messages and event records -/

/-- TIMER_US expires (R429). -/
def moderationTimer (r : Nat) (s : State) : State := if (s.ringX r).timer then s.ringEval r true else s

/-- Send the pending message of a vector that is unmasked now (R428). -/
def State.sendPending (s : State) (v : Nat) : State :=
  let w := MSIX_PBA.w (v / 32)
  if bit (s.reg w).toNat (v % 32) && !s.rb (MSIX_CTRL.MASK v) && !s.cfg.fnMask then
    (s.setReg w (BitVec.ofNat 32 (putBits (s.reg w).toNat (v % 32) 1 0))).sendMsi v none
  else s

/-- A write of word 3 of an MSI-X table entry. -/
def msixCtrlWrite (v : Nat) (x : Word) (s : State) : State := (s.wf (MSIX_CTRL.MASK v) (bits x.toNat 0 1)).sendPending v

/-- The words of an event record's entries with their places from the ring's tail: the header, then the continuations (R461). -/
def recordWords (e : EvtRec) : List (List Nat) :=
  let n := cdiv e.payload.length 12
  [e.src + n * 2 ^ 12 + e.kind * 2 ^ 16, e.w1, e.w2, e.w3] ::
    (List.range n).map (fun j =>
      let p := fun k => natLE (bytesAt e.payload (12 * j + k) 4)
      [p 0, p 4, p 8, j + 1])

/-- Write the entries of a record from index `i` of ring `r`, the last first (R462). -/
def State.putRecord (s : State) (r : Nat) : Nat → List (List Nat) → State
  | _, [] => s
  | i, ws :: l => (s.putRecord r (i + 1) l).putEntry r i ws

/-- Take the oldest record that waits for ring `r`. -/
def takeRec (p : EvtRec → Bool) : List EvtRec → Option (EvtRec × List EvtRec)
  | [] => none
  | e :: l => if p e then some (e, l) else (takeRec p l).map (fun x => (x.1, e :: x.2))

/-- Reports of losses that waited enter the report queues as these have room (R254). -/
def State.moreLosses (s : State) : State := (List.range 8).foldl (fun s e => s.sendLosses e 1024) s

/-- A record is written when its event ring has room (R462). -/
def eventWrite (r : Nat) (s : State) : State :=
  if !s.ringIs r 4 then s
  else match takeRec (fun e => s.evtRing e.src = some r) s.evts with
    | none => s
    | some (e, rest) =>
      if s.ringFree r < e.entries then s
      else
        let i := s.ringTail r
        let t := s.strokeNow
        let it := r + i * 2 ^ 14
        let s := ((s.withEvts rest).putRecord r i (recordWords e)).bumpTail r e.entries
        let s := ((s.count (HIF_CNT.COUNT 3) t).ev 134 0x13 none e.entries t it).dmaWrite (16 * e.entries) it
        (s.ringEval r false).moreLosses

/-! ### The function's configuration space (R77, R78, R403) -/

/-- A configuration write: power state, PME_En, a write of 1 that clears PME_Status, and the MSI-X function mask. A write of D1 or D2, which
the function does not support (Table HI-1), leaves the power state (PRESUMED from PCI power management, log entry 174). A write answered with the
retry status does nothing (Table BU-4). -/
def configWrite (power : Nat) (pmeEn pmeClear fnMask : Bool) (s : State) : State :=
  if !s.answers then s else
  let c := s.cfg
  let power := if power = 1 ∨ power = 2 then c.power else power
  let s := s.withCfg { c with power := power, pmeEn := pmeEn, pmeStatus := c.pmeStatus && !pmeClear, fnMask := fnMask }
  if c.fnMask && !fnMask then
    ((List.range 64).filter (fun w => (s.reg (MSIX_PBA.w w)).toNat != 0)).foldl (fun s w =>
      (List.range 32).foldl (fun s k => s.sendPending (32 * w + k)) s) s
  else s

/-- The PCIe link reaches L0 (R78, R443) at the fastest rate of its partner and the board that PCIE_MAX allows (R612); at 64 GT/s it is in flit
mode (Table HI-1). -/
def linkUpPcie (speed width : Nat) (flit : Bool) (s : State) : State :=
  let speed := min speed (6 - s.rf CHIP_STRAP.PCIE_MAX)
  let s := ((s.wf HIF_STATUS.LINK_UP 1).wf HIF_STATUS.SPEED speed).wf HIF_STATUS.WIDTH width
  { (s.wb HIF_STATUS.FLIT (flit || speed = 6)) with cfg := { s.cfg with wakeN := false } }

/-- 100 ms after the last PM_PME message another is sent while PME_Status stays 1 (R78); in D3cold there is no link to send it on. -/
def pmeRepeat (s : State) : State :=
  if s.cfg.pmeStatus && s.cfg.pmeAt.isSome && s.pmeFree && s.cfg.power != 4 then s.sendPme else s

/-- The word at byte offset `4 * i` of the type 0 header that R405 and R406 fix: IDs, revision and class, and the BAR slots at base 0. -/
def State.headerWord (s : State) (i : Nat) : Nat :=
  match i with
  | 0 => 0x91000000 + Config.vendorId.toNat
  | 2 => 0x02000000 + s.rf CHIP_ID.STEPPING
  | 4 => 0x4
  | 6 => 0x4
  | 8 => 0xC
  | _ => 0

/-! ### Meanings -/

/-- The wellhead does DMA: not in Priming, not while Halted (R437, R607). -/
def State.dmaOn (s : State) : Bool := s.alive

def execDoorbell (r : RingIx) (v : Word) (full : Bool) (s : State) : Host.Outcome State Fault Refusal := .next (onWrite (doorbell r v.toNat full) s)

def execStrayWrite (bar4 : Bool) (off : BarOffset) (s : State) : Host.Outcome State Fault Refusal :=
  .next (onWrite (strayWrite (if bar4 then 2 else 1) off.toNat) s)

def execRingEnable (r : RingIx) (v : Word) (s : State) : Host.Outcome State Fault Refusal :=
  .next (onWrite (ringCtrlWrite r (BitVec.ofNat 32 (putBits v.toNat 0 1 1))) s)

def execRingDisable (r : RingIx) (v : Word) (s : State) : Host.Outcome State Fault Refusal :=
  .next (onWrite (ringCtrlWrite r (BitVec.ofNat 32 (putBits v.toNat 0 1 0))) s)

def execRingDisableComplete (r : RingIx) (s : State) : Host.Outcome State Fault Refusal := .next (if s.dmaOn then ringDisableComplete r s else s)

def execRingInvalidate (v : Word) (s : State) : Host.Outcome State Fault Refusal :=
  .next (onWrite (invalWrite (BitVec.ofNat 32 (putBits v.toNat 14 1 1))) s)

def execInvalidationComplete (s : State) : Host.Outcome State Fault Refusal := .next (if s.dmaOn then invalComplete s else s)

def execDescriptorFetch (r : RingIx) (n : Fin 33) (res : FetchResult) (s : State) : Host.Outcome State Fault Refusal :=
  .next (if s.dmaOn then descriptorFetch r n res s else s)

def execTransmitChainBegin (c : HostCh) (mis : Option (Fin 64)) (s : State) : Host.Outcome State Fault Refusal :=
  .next (if s.dmaOn then chainBegin c mis s else s)

def execTransmitDataReturn (c : HostCh) (err : Bool) (s : State) : Host.Outcome State Fault Refusal :=
  .next (if s.dmaOn then dataReturn c err s else s)

def execHostReceive (c : HostCh) (flt : HostRxFault) (s : State) : Host.Outcome State Fault Refusal :=
  .next (if s.dmaOn then hostReceive c flt s else s)

def execHeadWriteback (r : RingIx) (s : State) : Host.Outcome State Fault Refusal := .next (if s.dmaOn then headWriteback r s else s)

def execModerationTimer (r : RingIx) (s : State) : Host.Outcome State Fault Refusal := .next (if s.dmaOn then moderationTimer r s else s)

def execVectorUnmask (v : BitVec 11) (x : Word) (s : State) : Host.Outcome State Fault Refusal :=
  .next (onWrite (msixCtrlWrite v.toNat (BitVec.ofNat 32 (putBits x.toNat 0 1 0))) s)

def execEventRecordWrite (r : RingIx) (s : State) : Host.Outcome State Fault Refusal := .next (if s.dmaOn then eventWrite r s else s)

def execConfigSpaceWrite (power : Fin 5) (pmeEn pmeClear fnMask : Bool) (s : State) : Host.Outcome State Fault Refusal :=
  .next (configWrite power pmeEn pmeClear fnMask s)

def execPcieLinkUp (speed : Fin 7) (width : Fin 17) (flit : Bool) (s : State) : Host.Outcome State Fault Refusal :=
  .next (if s.cfg.training then linkUpPcie speed width flit s else s)

def execPmeRepeat (s : State) : Host.Outcome State Fault Refusal := .next (pmeRepeat s)

end Sys2Proof.Machine
end

