-- ==== Sys2Proof/Machine/Commands.lean ====
section
/-! DEFINITION. Command rings (R422, R453, R454, R469, R470): table commands (R175, R176, R206, R221 to R226, R667), flow commands
(R258, R259, R273), snapshots (R260 to R262), and the application of scheduled commands (R212, R225, R249). -/

namespace Sys2Proof.Machine

/-! ### Command descriptors (Table DS-4) -/

def cmdSched (e : List Nat) : Bool := bit (e.getD 0 0) 10
def cmdPipe (e : List Nat) : Nat := bits (e.getD 0 0) 11 1
def cmdRegion (e : List Nat) : Nat := bits (e.getD 0 0) 12 3
def cmdTable (e : List Nat) : Nat := bits (e.getD 0 0) 16 8
def cmdCount (e : List Nat) : Nat := bits (e.getD 0 0) 24 7

/-- The opcodes of a table (Table FT-10). -/
def tableOps (t : Nat) : List Nat :=
  if t = 0 then [0x10, 0x11, 0x15, 0x16] else if t = 1 then [0x12, 0x13, 0x14]
  else if t = 2 ∨ t = 3 ∨ t = 4 ∨ t = 0x20 ∨ t = 0x21 then [0x10, 0x11] else []

/-- OPCODE and TABLE go together (Tables FT-10, FE-2). -/
def opcodeOk (op t : Nat) : Bool :=
  if 0x40 ≤ op ∧ op ≤ 0x44 then decide (t ≤ 15) else if op = 0x45 then t = 0 else decide (op ∈ tableOps t)

/-- COUNT is allowed for the opcode. -/
def countOk (op n : Nat) : Bool :=
  if op = 0x10 ∨ op = 0x11 ∨ op = 0x41 ∨ op = 0x43 then decide (1 ≤ n) && decide (n ≤ 64) else n = 1

/-- PIPE may be set: a table command on table 0x20 or 0x21. -/
def pipeOk (op t : Nat) : Bool := decide (0x10 ≤ op) && decide (op ≤ 0x16) && (t = 0x20 || t = 0x21)

/-- The cause code of a malformed command entry, the lowest that applies (Table DS-17, R471). -/
def cmdFault (e : List Nat) : Option Nat :=
  let w0 := e.getD 0 0
  let op := entOp e
  let t := cmdTable e
  if bit w0 15 || bit w0 31 || bits (e.getD 1 0) 24 8 != 0 || bits (e.getD 3 0) 16 16 != 0 || e.getD 6 0 != 0 || e.getD 7 0 != 0 ||
      (cmdPipe e = 1 && !pipeOk op t) then some 0x18
  else if !opcodeOk op t then some 0x19
  else if !countOk op (cmdCount e) then some 0x1A
  else if !entFirst e || !entLast e then some 0x1C
  else if op != 0x45 && entAddr e 4 % 64 != 0 then some 0x1D
  else none

/-- A command ring has a command ready (R422, R424). -/
def State.cmdReady (s : State) (r : Nat) : Bool :=
  s.ringState r = rsActive && s.ringType r = 3 && !(s.ringX r).entries.isEmpty && decide (1 ≤ s.cqFree (s.rf (HIF_RING_BIND.CQ r)) + 64)

/-- The command that entry `e` of ring `r` spells. -/
def State.cmdOf (s : State) (r : Nat) (e : List Nat) : CmdX :=
  { ring := r, ix := s.ringHead r, op := entOp e, table := cmdTable e, region := cmdRegion e, pipe := cmdPipe e,
    index := bits (e.getD 1 0) 0 24, count := cmdCount e, sched := cmdSched e, stroke := entAddr e 2 % 2 ^ 48,
    addr := entAddr e 4, cq := s.rf (HIF_RING_BIND.CQ r) }

/-- The arbiter of command rings dispatches the next command when its opcode is `op`: the entry is consumed and its completion owed,
and `body` is its effect (R419, R422, R470); cache copies that differ are found first (R436). -/
def dispatch (op : Nat) (body : CmdX → State → State) (s : State) : State :=
  if !s.alive then s else
  match nextRing (mget 0 s.rrHost 16) (s.ringsUsed.filter s.cmdReady) with
  | none => s
  | some r =>
    let e := (s.ringX r).entries.headD []
    match s.upsetIn r 1, cmdFault e with
    | some u, _ => s.cacheMismatch r u
    | none, some code => s.haltItem code r (s.ringHead r)
    | none, none =>
      if entOp e != op then s
      else
        let c := s.cmdOf r e
        let s := s.withRrHost (mset 0 s.rrHost 16 (r + 1))
        body c (((s.consume r 1).owe c.cq 1).pressure c.cq)

/-- A command completes now. -/
def State.cmdNow (s : State) (c : CmdX) (status : Nat) : State := s.cmdDone c status s.strokeNow

/-- The item of a command's DMA (Table CT-3). -/
def CmdX.item (c : CmdX) : Nat := c.ring + c.ix * 2 ^ 14

/-- Write results to the command's buffer. -/
def State.results (s : State) (c : CmdX) (off : Nat) (d : List Byte) : State :=
  (s.dmaWrite d.length c.item).hostWrite (c.addr + off) d

/-! ### Table payloads (R454) -/

/-- The bytes of an entry in the buffer (Table FT-10). -/
def entrySize (t : Nat) : Nat := if t = 3 then 32 else if t = 0x20 then 128 else 16

/-- Entry `i` of a payload of entries of `z` bytes. -/
def CmdX.entry (c : CmdX) (i z : Nat) : Nat := natLE (bytesAt c.payload (i * z) z)

/-- The bits that Table FT-2 names for a TYPE. -/
def typeMask (t : Nat) : Nat :=
  if t = 1 then (2 ^ 60 - 1) + 1023 * 2 ^ 64
  else if t = 2 then (2 ^ 44 - 1) + 65535 * 2 ^ 48
  else if t = 3 then (2 ^ 64 - 1) + 4095 * 2 ^ 64
  else if t = 4 then (2 ^ 64 - 1) + 65535 * 2 ^ 64
  else if t = 5 then (2 ^ 60 - 1) + 16383 * 2 ^ 64
  else 0

/-- A reserved bit of an endpoint entry is set (Tables FT-1, FT-2). -/
def slotReserved (v : Nat) : Bool := bits v 92 36 != 0 || maskAnd (bits v 0 80) (typeMask (epType v)) != bits v 0 80

/-- A reserved bit of a payload entry is set. -/
def entryReserved (t v : Nat) : Bool :=
  if t ≤ 1 then slotReserved v
  else if t = 2 ∨ t = 3 then
    bits v 41 7 != 0 || bits v 60 4 != 0 || bits v 80 48 != 0 || bits v 224 32 != 0
  else if t = 4 then bits v 18 110 != 0
  else if t = 0x20 then v / 2 ^ 643 != 0
  else bit v 55 || bits v 87 9 != 0 || bits v 111 17 != 0

/-- The words of a table 0x01 entry: one 16-byte part, or two for an IPv6 host. -/
def CmdX.keyParts (c : CmdX) : Nat := if epType (c.entry 0 16) = 3 then 2 else 1

/-- The bytes of a table command's payload in the buffer. -/
def State.tablePayload (s : State) (c : CmdX) : Nat :=
  if c.table = 1 then (if epType (natLE (s.hostRead c.addr 16)) = 3 then 32 else 16) else entrySize c.table * c.count

/-- A payload holds a reserved bit. -/
def CmdX.payloadReserved (c : CmdX) : Bool :=
  if c.table = 1 then (List.range c.keyParts).any (fun i => entryReserved 1 (c.entry i 16))
  else (List.range c.count).any (fun i => entryReserved c.table (c.entry i (entrySize c.table)))

/-- The key of a table 0x01 entry, when it is one (R221). -/
def CmdX.key (c : CmdX) : Option EpKey :=
  let v := c.entry 0 16
  let w := c.entry 1 16
  if epType v = 1 then some (.mac (bits v 48 12) (bits v 0 48))
  else if epType v = 2 then some (.ip4 (bits v 32 12) (bits v 0 32))
  else if epType v = 3 ∧ epType w = 4 then some (.ip6 (bits v 64 12) (bits v 0 64) (bits w 0 64))
  else none

/-! ### RANGE (Table FT-12) -/

/-- The units of a table, and the units an entry takes. -/
def tableSize (t : Nat) : Nat := if t = 0 then 2 ^ 20 else if t = 2 ∨ t = 3 then 2 ^ 18 else if t = 4 then 4096 else 32768
def entryUnits (t : Nat) : Nat := if t = 3 then 2 else 1

/-- A route payload whose LEN is too long or whose address has a bit below LEN (R206). -/
def routeBad (v6 : Bool) (v : Nat) : Bool :=
  if v6 then decide (128 < rtLen v) || rtAddr6 (bits v 0 128) (bits v 128 128) % 2 ^ (128 - rtLen v) != 0
  else decide (32 < rtLen v) || bits v 0 32 % 2 ^ (32 - rtLen v) != 0

/-- Unit `u` belongs to a valid prefix of the other family (R206). -/
def State.routeClash (s : State) (n u : Nat) (v6 : Bool) : Bool :=
  let v := s.unit n (routeId u)
  bit v 128 != v6 && routeUsed u v

/-- A WRITE names a place whose area or prefix does not allow its entry (R206, R222). -/
def State.writeRange (s : State) (c : CmdX) : Bool :=
  (List.range c.count).any (fun i =>
    let v := c.entry i (entrySize c.table)
    if c.table = 0 then
      let nh := decide (8 * s.buckets c.region ≤ c.index + i)
      (epType v = 5 && !nh) || (decide (1 ≤ epType v) && decide (epType v ≤ 4) && nh)
    else if c.table = 2 then routeBad false v || s.routeClash c.region (c.index + i) false
    else if c.table = 3 then
      routeBad true v || s.routeClash c.region (c.index + 2 * i) true || s.routeClash c.region (c.index + 2 * i + 1) true
    else false)

/-- A table command completes with RANGE. -/
def State.tableRange (s : State) (c : CmdX) : Bool :=
  if c.table = 1 then c.key.isNone
  else
    (c.table = 3 && c.index % 2 = 1) || decide (tableSize c.table < c.index + entryUnits c.table * c.count) ||
      (c.op = 0x10 && s.writeRange c) ||
      ((c.op = 0x15 || c.op = 0x16) && pairSecond (s.ep c.region) c.index)

/-! ### Applying a table command

`x` is the stroke of a scheduled command; an unscheduled one takes effect at once, at a stroke that is a free value (R223). -/

/-- The logical stroke of a command. -/
def State.cmdStroke (s : State) (x : Option Nat) : Nat := x.getD (s.freeBits 48)

/-- Put a unit by command: visible from its stroke on, or at once; the compare walker takes note (R213, R227). -/
def State.putByCmd (s : State) (n id v : Nat) (x : Option Nat) : State :=
  let s := match x with
    | some t => s.changeUnit n id v t false
    | none => s.forceUnit n id v
  s.noteWritten n (if id < 2 ^ 20 then 0 else if id < 2 ^ 21 then 1 else 2) (id % 2 ^ 20)

/-- A WRITE to the second slot of an IPv6 host entry aborts the removal that is pending of the entry (R203, R218). -/
def State.abortPair (s : State) (n i : Nat) : State :=
  if pairSecond (s.ep n) i then s.touch n (i - 1) (s.aborted n (i - 1) (s.ep n (i - 1))) else s

/-- Put the units of entry `i` of a WRITE. -/
def State.writeEntry (s : State) (c : CmdX) (x : Option Nat) (i : Nat) : State :=
  let n := c.region
  let v := c.entry i (entrySize c.table)
  if c.table = 0 then (s.abortPair n (c.index + i)).putByCmd n (c.index + i) (bits v 0 96) x
  else if c.table = 2 then s.putByCmd n (routeId (c.index + i)) v x
  else if c.table = 3 then
    let u := c.index + 2 * i
    (s.putByCmd n (routeId u) (bits v 0 128 + 2 ^ 128) x).putByCmd n (routeId (u + 1))
      (bits v 128 128 + 2 ^ 128 + b2n (rtValid v) * 2 ^ 129) x
  else if c.table = 4 then s.putByCmd n (vlanId (c.index + i)) v x
  else if c.table = 0x20 then s.withTcam (mset 0 s.tcam (entryIx n c.pipe (c.index + i)) v)
  else s.withActions (mset 0 s.actions (entryIx n c.pipe (c.index + i)) v)

/-- Place the entry of an INSERT at slot `i`, replacing what it holds when `old` (R667). -/
def State.putEntryAt (s : State) (c : CmdX) (x : Option Nat) (i : Nat) (old : Bool) : State :=
  let n := c.region
  let v := bits (c.entry 0 16) 0 96
  let was := s.aborted n i (s.ep n i)
  let v := putBits v 86 6 0
  let v := if old then putBits (putBits (putBits v 86 1 (bits was 86 1)) 87 1 (bits was 87 1)) 90 1 (bits was 90 1) else v
  let s := s.putByCmd n i v x
  if c.keyParts = 2 then s.putByCmd n (i + 1) (putBits (bits (c.entry 1 16) 0 96) 83 9 0) x else s

/-- Evicted slots are emptied as the command's change. -/
def State.emptyByCmd (s : State) (n t : Nat) (x : Option Nat) : List Nat → State
  | [] => s
  | i :: l =>
    let s := if pairSecond (s.ep n) i then s else s.reportSlot n 3 i t true
    (s.emptyByCmd n t x l).putByCmd n i 0 x

/-- INSERT (R204, R220, R667): the state and the status. -/
def State.insertKey (s : State) (c : CmdX) (k : EpKey) (x : Option Nat) : State × Nat :=
  let n := c.region
  let t := s.cmdStroke x
  match s.findIn n (s.ep n) k with
  | some i => (s.putEntryAt c x i true, 0)
  | none =>
    match s.place n k t true with
    | none => (s, 2)
    | some (i, out) =>
      let s := s.ev (96 + n) 0x15 none out.length t (t * 2 ^ 32)
      ((s.emptyByCmd n t x out).putEntryAt c x i false, 0)

/-- DELETE by key (R221). -/
def State.deleteKey (s : State) (c : CmdX) (k : EpKey) (x : Option Nat) : State × Nat :=
  let n := c.region
  match s.findIn n (s.ep n) k with
  | none => (s, 1)
  | some i => ((occupant (s.ep n) i).foldl (fun s j => s.putByCmd n j 0 x) s, 0)

/-- LOCK of a slot; `err` says that the write of its result failed (R226, R460). -/
def State.lockSlot (s : State) (c : CmdX) (x : Option Nat) (err : Bool) : State × Nat :=
  let v := s.ep c.region c.index
  if err then (s, 8)
  else if pairSecond (s.ep c.region) c.index then (s, 5)
  else if epLock v then (s, 6)
  else
    let v := putBits (s.aborted c.region c.index v) 84 1 1
    ((s.putByCmd c.region c.index v x).results c 0 (bytesLE 16 v), 0)

/-- UNLOCK of a slot (R226). -/
def State.unlockSlot (s : State) (c : CmdX) (x : Option Nat) : State × Nat :=
  let v := s.ep c.region c.index
  if pairSecond (s.ep c.region) c.index then (s, 5)
  else if epLock v then (s.putByCmd c.region c.index (putBits v 84 1 0) x, 0) else (s, 6)

/-- Apply a modifying table command (R212): the state and the status. A WRITE that would now split a prefix changes nothing (R206). -/
def State.applyTable (s : State) (c : CmdX) (x : Option Nat) (err : Bool) : State × Nat :=
  if c.op = 0x10 then
    if s.writeRange c then (s, 5) else ((List.range c.count).foldl (fun s i => s.writeEntry c x i) s, 0)
  else if c.op = 0x15 then s.lockSlot c x err
  else if c.op = 0x16 then s.unlockSlot c x
  else match c.key with
    | none => (s, 5)
    | some k => if c.op = 0x12 then s.insertKey c k x else s.deleteKey c k x

/-- A TCAM or action write that R176 makes a scheduled write, whatever SCHED holds. A rewrite that leaves an entry as it is changes only an unused
bank's bit, if there is such a bank: the model takes it as scheduled too, though R43 counts a command whether or not its entries differ (DESIGN
CHOICE, log entry 209). -/
def State.writeScheduled (s : State) (c : CmdX) : Bool :=
  let n := c.region
  let p := c.pipe
  let used := fun v => (List.range 2).any (fun b => tcMember v b && s.bankUsed n p b)
  (c.table = 0x20 || c.table = 0x21) && (List.range c.count).all (fun i =>
    let v := mget 0 s.tcam (entryIx n p (c.index + i))
    if c.table = 0x21 then !used v
    else
      let w := c.entry i 128
      (!used v && !used w) || (List.range 2).any (fun b => !s.bankUsed n p b && putBits v (641 + b) 1 (bits w (641 + b) 1) = w))

/-- R567: a modifying command to region `n` is applied at once, whatever SCHED and STROKE hold. -/
def State.appliesNow (s : State) (n : Nat) (c : CmdX) : Bool :=
  let st := s.region n
  st = rgIsolated || st = rgTest || (st = rgRejoin && (!c.sched || strokeLt c.stroke (s.rf (REG_REJOIN_STROKE.STROKE n))))

/-- Entries in a region's scheduled queue, and route units queued for stroke `x` (R223). -/
def schedEntries (l : List CmdX) : Nat := (l.map (·.count)).sum
def schedUnits (x : Nat) (l : List CmdX) : Nat :=
  ((l.filter (fun c => c.stroke = x && (c.table = 2 || c.table = 3))).map (fun c => entryUnits c.table * c.count)).sum

/-- Put a region's scheduled queue, shown in SCHED_QUEUED. -/
def State.setSched (s : State) (n : Nat) (l : List CmdX) : State :=
  (s.setTbl n { s.tbl n with sched := l }).wf (TBL_STATUS.SCHED_QUEUED n) (schedEntries l)

/-- A modifying table command that has passed its payload checks (R223, R567, R43). -/
def State.modifyTable (s : State) (c : CmdX) (err : Bool) : State :=
  let n := c.region
  let q := (s.tbl n).sched
  if c.sched && !s.appliesNow n c then
    if !leadOk s.strokeNow c.stroke then s.cmdNow c 3
    else if decide (16384 < schedEntries q + c.count) || decide (1024 < schedUnits c.stroke (q ++ [c])) then s.cmdNow c 4
    else s.setSched n (q ++ [c])
  else
    let quiet := s.writeScheduled c
    let (s, st) := s.applyTable c none err
    let s := s.nextFree
    (if st = 0 && !quiet then s.unsched (some n) else s).cmdNow c st

/-- A table command that modifies (R224): `err` says that the DMA of its payload, or of its result, failed. -/
def modifyCmd (err : Bool) (c : CmdX) (s : State) : State :=
  let s := s.settleHits c.region
  let reads := c.op = 0x10 || c.op = 0x12 || c.op = 0x13
  let len := s.tablePayload c
  let c := if reads then { c with payload := s.hostRead c.addr len } else c
  let s := if reads then s.dmaRead len c.item else s
  if reads && err then s.cmdNow c 8
  else if reads && c.payloadReserved then s.haltItem 0x1E c.ring c.ix
  else if s.region c.region = rgDrain then s.cmdNow c 9
  else if s.tableRange c then s.cmdNow c 5
  else s.modifyTable c err

/-! ### READ and FIND (R221) -/

/-- The bytes of entry `i` of a READ; `par` marks an endpoint entry read with a parity error. -/
def State.readEntry (s : State) (c : CmdX) (par : Bool) (i : Nat) : List Byte :=
  let n := c.region
  let u := c.index + i
  if c.table = 0 then bytesLE 16 (bits (s.ep n u) 0 96 + b2n par * 2 ^ 96)
  else if c.table = 2 then bytesLE 16 (s.unit n (routeId u))
  else if c.table = 3 then bytesLE 16 (s.unit n (routeId (u + i))) ++ bytesLE 16 (s.unit n (routeId (u + i + 1)))
  else if c.table = 4 then bytesLE 16 (s.unit n (vlanId u))
  else if c.table = 0x20 then bytesLE 128 (mget 0 s.tcam (entryIx n c.pipe u))
  else bytesLE 16 (mget 0 s.actions (entryIx n c.pipe u))

/-- The error-log memory of a table (Table EV-5). -/
def tableMem (t : Nat) : Nat := if t ≤ 1 then 2 else if t = 2 ∨ t = 3 then 3 else if t = 4 then 5 else 4

/-- TABLE of `TBL_ERR_LOC` (Table FT-18). -/
def tableLoc (t : Nat) : Nat := if t ≤ 1 then 0 else if t ≤ 3 then 1 else 2

/-- The write of a READ's results fails: its buffer of `n` bytes is left undefined, bytes that nothing constrains (R460). -/
def State.undefBuf (s : State) (c : CmdX) (n : Nat) : State :=
  ((s.hostWrite c.addr (s.freeBytes n)).withFree (s.free + n)).cmdNow c 8

/-- READ: entry `bad` of it is read with the check `chk`; `err` says that the write of the results failed. -/
def readCmd (err : Bool) (chk : ReadCheck) (bad : Nat) (c : CmdX) (s : State) : State :=
  if s.region c.region = rgDrain then s.cmdNow c 9
  else if s.tableRange c then s.cmdNow c 5
  else
    let s := s.settleHits c.region
    let s := if !isBad chk then s
      else if 4 < c.table then s.noteRead c.region (tableMem c.table) chk
      else s.tblNote c.region (tableLoc c.table) (c.index + entryUnits c.table * bad) chk
    if err then s.undefBuf c (entrySize c.table * c.count)
    else
      let d := (List.range c.count).flatMap (fun i => s.readEntry c (isFailed chk && i = bad) i)
      (s.results c 0 d).cmdNow c (if isFailed chk then 7 else 0)

/-- FIND. -/
def findCmd (err : Bool) (c : CmdX) (s : State) : State :=
  let n := c.region
  let s := s.settleHits n
  let len := s.tablePayload c
  let c := { c with payload := s.hostRead c.addr len }
  let s := s.dmaRead len c.item
  if err then s.cmdNow c 8
  else if c.payloadReserved then s.haltItem 0x1E c.ring c.ix
  else if s.region n = rgDrain then s.cmdNow c 9
  else match c.key with
    | none => s.cmdNow c 5
    | some k =>
      match s.findIn n (s.ep n) k with
      | none => s.cmdNow c 1
      | some i =>
        let d := bytesLE 16 (bits (s.ep n i) 0 96 + i * 2 ^ 96) ++
          (if pairFirst (s.ep n) i then bytesLE 16 (bits (s.ep n (i + 1)) 0 96) else [])
        (s.results c 0 d).cmdNow c 0

/-! ### Flow commands (R258, R259, R273) -/

/-- The bytes of a flow command's payload. -/
def flowPayload (c : CmdX) : Nat := if c.op = 0x41 then 64 * c.count else if c.op = 0x44 then 32 else if c.op = 0x43 ∨ c.op = 0x45 then 0 else 40

/-- The normalised keys of a flow command, each with its home engine and its record (R258, R239). -/
def State.flowItems (s : State) (c : CmdX) : List (Nat × List Byte) :=
  let n := c.region
  let put := fun (d : List Byte) =>
    let (k, _) := normalise (s.rb (FE_PART_CFG.NORM n c.table)) d
    (s.homeOf n c.table k, k ++ d.drop 40)
  if c.op = 0x41 then (List.range c.count).map (fun i => put (bytesAt c.payload (64 * i) 64))
  else [put (bytesAt c.payload 0 40)]

/-- A record with a reserved bit: key byte 37 or CTRL bit [11] (R273). -/
def recReserved (r : List Byte) : Bool := byteAt r 37 != 0 || bit (recWord r 10) 11

/-- A record with an encoding that R274 never produces, or whose PART is not the command's TABLE (R273). -/
def recRange (part : Nat) (r : List Byte) : Bool :=
  recPart r != part || (recPf r && decide (bits (recPkts r) 24 8 < 8)) ||
    (recBf r && (decide (bits (recWord r 12) 24 8 < 16) || bits (recWord r 10) 24 8 != 0))

/-- Some region of a flow command is in DRAIN (R565). -/
def State.flowDrains (s : State) (c : CmdX) : Bool :=
  s.region c.region = rgDrain || (decide (c.op ≤ 0x42) && (s.flowItems c).any (fun p => s.region p.1 = rgDrain))

/-- Forget the stable-view changes that an unscheduled command has just made: its effect is seen at once. -/
def State.seenAtOnce (s : State) (e had : Nat) : State :=
  let x := s.eng e
  let new := x.views.drop had
  s.setEng e { x with views := x.views.filter (fun v => !new.any (fun w => w.part = v.part && w.key = v.key)) }

/-- Store records in order; the first that finds no room ends it (R258). -/
def State.insertAll (s : State) (e t : Nat) : List (List Byte) → State × Option (List Byte)
  | [] => (s, none)
  | r :: l =>
    match s.storeRec e r t (bytesBE 6 t) with
    | (s', .ok) => (s'.recOps e 1).insertAll e t l
    | (_, .noRoom) => (s, some r)

/-- Engine `e` applies its part of a FLOW_INSERT or FLOW_DELETE: the state and the status. A command that does not complete with OK
has changed nothing (R224). -/
def State.applyFlow (s : State) (e : Nat) (c : CmdX) (x : Option Nat) : State × Nat :=
  let t := s.cmdStroke x
  let had := (s.eng e).views.length
  let mine := ((s.flowItems c).filter (fun p => p.1 = e)).map (·.2)
  let bs := mine.flatMap (fun r => s.keyBuckets e c.table (r.take 40))
  let s := mine.foldl (fun s r => s.readKey e c.table (r.take 40)) s
  let all := s.rb (FE_PART_CFG.MODE e c.table)
  let s := match x, (s.eng e).snap with
    | some y, _ => mine.foldl (fun s r => s.ageFor e c.table (r.take 40) y) (s.snapFix e ((y + (2 ^ 48 - 1)) % 2 ^ 48) all bs)
    | none, some a => if a.taken || (a.takenLocal && !all) then s.snapFix e s.strokeNow all bs else s
    | none, none => s
  let done := fun (s : State) => if x.isNone then s.seenAtOnce e had else s
  if c.op = 0x41 then
    match s.insertAll e t mine with
    | (s', none) => (done s', 0)
    | (_, some r) => if (s.recOf e c.table (recKey r)).isNone then (s.createFail e r t, 2) else (s, 2)
  else
    match mine with
    | [] => (s, 0)
    | k :: _ =>
      match s.findRec e c.table k with
      | none => (s, 1)
      | some (_, b, j) => (done (s.removeRec e b j t (bytesBE 6 t)), 0)

/-- Every engine that holds a part of the command applies it; `x` is the stroke of a scheduled command. -/
def State.applyEngines (s : State) (c : CmdX) (x : Option Nat) (es : List Nat) : State × Nat :=
  es.foldl (fun (a : State × Nat) e =>
    let (s, st) := a.1.applyFlow e c x
    (s, if a.2 = 0 then st else a.2)) (s, 0)

/-- FLOW_INSERT and FLOW_DELETE (R223, R224, R259, R567). -/
def flowModify (err : Bool) (c : CmdX) (s : State) : State :=
  let c := { c with payload := s.hostRead c.addr (flowPayload c) }
  let s := s.dmaRead (flowPayload c) c.item
  let items := s.flowItems c
  let es := (items.map (·.1)).eraseDups
  if err then s.cmdNow c 8
  else if c.op = 0x41 && (List.range c.count).any (fun i => recReserved (bytesAt c.payload (64 * i) 64)) then s.haltItem 0x1E c.ring c.ix
  else if s.flowDrains c then s.cmdNow c 9
  else if c.op = 0x41 && items.any (fun p => recRange c.table p.2) then s.cmdNow c 5
  else if c.sched && !(es.any (fun e => s.appliesNow e c)) then
    if !leadOk s.strokeNow c.stroke then s.cmdNow c 3
    else if es.any (fun e => decide (16384 < schedEntries (s.eng e).sched + c.count)) then s.cmdNow c 4
    else es.foldl (fun s e => s.setEng e { s.eng e with sched := (s.eng e).sched ++ [c] }) s
  else
    let (s, st) := s.applyEngines c none es
    let s := s.nextFree
    (if st = 0 then es.foldl (fun s e => s.unsched (some e)) s else s).cmdNow c st

/-- FLOW_FIND; `rd` is what the record's read met. -/
def flowFind (err : Bool) (rd : RecRead) (c : CmdX) (s : State) : State :=
  let c := { c with payload := s.hostRead c.addr 40 }
  let s := s.dmaRead 40 c.item
  if err then s.cmdNow c 8
  else if s.flowDrains c then s.cmdNow c 9
  else match s.flowItems c with
    | [] => s
    | (e, k) :: _ =>
      let s := s.readKey e c.table k
      match s.findRec e c.table k with
      | none => s.cmdNow c 1
      | some (h1, b, j) =>
        let s := (s.recParity e b j false rd.chk).dictParity e b j rd.second rd.dict
        match s.recAt e b j with
        | none => s.cmdNow c 1
        | some r =>
          let s := (s.results c 40 (bytesLE 4 ((s.homeBucket e b r).1 + j * 2 ^ 24 + b2n h1 * 2 ^ 26))).results c 64 (bytesAt r 0 64)
          s.cmdNow c 0

/-- The 256 bytes of a logical bucket (Table FE-2). -/
def State.bucketBytes (s : State) (e b : Nat) : List Byte :=
  (List.range 4).flatMap (fun j => bytesAt ((s.recAt e (s.fold e b) j).getD []) 0 64)

/-- FLOW_READ; the read of slot `j` of its `i`-th bucket met `rd`. -/
def flowRead (err : Bool) (rd : RecRead) (i j : Nat) (c : CmdX) (s : State) : State :=
  let e := c.region
  if s.flowDrains c then s.cmdNow c 9
  else if s.nb < c.index + c.count then s.cmdNow c 5
  else
    let b := s.fold e (c.index + i)
    let s := if i < c.count then (s.recParity e b j false rd.chk).dictParity e b j rd.second rd.dict else s
    let s := (List.range c.count).foldl (fun s i => s.readBucket e (s.fold e (c.index + i))) s
    if err then s.undefBuf c (256 * c.count)
    else (s.results c 0 ((List.range c.count).flatMap (fun i => s.bucketBytes e (c.index + i)))).cmdNow c 0

/-- FLOW_FLUSH: every dirty line is written back. -/
def flowFlush (c : CmdX) (s : State) : State :=
  let e := c.region
  if s.flowDrains c then s.cmdNow c 9
  else (s.writeBackAll e).cmdNow c 0

/-! ### Snapshots (R260 to R262) -/

/-- The cause code of a malformed snapshot descriptor. -/
def snapFault (d : List Byte) : Option Nat :=
  let len := natLE (bytesAt d 8 8)
  if len = 0 ∨ len % 64 ≠ 0 then some 0x1A
  else if natLE (bytesAt d 0 8) % 4096 != 0 then some 0x1D
  else if natLE (bytesAt d 18 14) != 0 then some 0x1E
  else none

/-- FLOW_SNAPSHOT: arm a snapshot at stroke X, which every completion of the command gives (R459). -/
def flowSnapshot (err : Bool) (c : CmdX) (s : State) : State :=
  let e := c.region
  let d := s.hostRead c.addr 32
  let s := s.dmaRead 32 c.item
  let x := s.snapStroke c
  if err then s.cmdDone c 8 x
  else match snapFault d with
    | some code => s.haltItem code c.ring c.ix
    | none =>
      if s.flowDrains c then s.cmdDone c 9 x
      else if c.sched && !leadOk s.strokeNow c.stroke then s.cmdDone c 3 x
      else if (s.eng e).snap.isSome then s.cmdDone c 6 x
      else
        let a : SnapX := { cmd := c, stroke := x, out := natLE (bytesAt d 0 8), len := natLE (bytesAt d 8 8), mask := natLE (bytesAt d 16 2) }
        (s.setEng e { s.eng e with snap := some a }).wf (FE_STATUS.SNAP_ACTIVE e) 1

/-- The commits of engine `e` that precede step 3 of boundary `x` are applied (R249, R262); what lies in the span of a quiesce waits for the resume
(R618). The image leaves out what the sweep step of `x` removes (`State.snapImage`); where no frames run there is no sweep step (R607, R618). -/
def State.atBoundary (s : State) (e x : Nat) : Bool :=
  !s.inSpan x && (if s.running && s.regionRuns e then s.commitsBefore e x else strokeLe x s.strokeNow)

/-- The same for a scheduled command of a partition: one of a region-local partition waits for no global one (R250). What the sweep step of `x`
removes goes as the command is applied (`State.ageFor`). -/
def State.cmdDue (s : State) (e part x : Nat) : Bool :=
  !s.inSpan x && (if s.running && s.regionRuns e then s.classDone e part x else strokeLe x s.strokeNow)

/-- The trailer of a snapshot (Table FE-3). -/
def snapTrailer (e mask x n : Nat) (recs : List Byte) : List Byte :=
  [0x4B, 0x46, 0x53, 0x31] ++ bytesLE 2 e ++ bytesLE 2 mask ++ bytesLE 8 x ++ bytesLE 8 n ++ bytesLE 4 (crc32 recs) ++ List.replicate 36 0

/-- The snapshot of engine `e` is complete: its image and trailer are written and the command completes (R262). -/
def snapshotCapture (e : Nat) (err : Bool) (s : State) : State :=
  match (s.eng e).snap with
  | none => s
  | some c =>
    if !c.taken && (!s.atBoundary e c.stroke || (s.eng e).sched.any (fun d => strokeLe d.stroke c.stroke)) then s
    else
      let s := s.snapFix e c.stroke true []
      match (s.eng e).snap with
      | none => s
      | some c =>
        let s := (s.setEng e { s.eng e with snap := none }).wf (FE_STATUS.SNAP_ACTIVE e) 0
        if err then s.cmdDone c.cmd 8 c.stroke
        else
          let n := min c.image.length (c.len / 64 - 1)
          let recs := (c.image.take n).flatMap (·.2)
          let d := recs ++ snapTrailer e c.mask c.stroke n recs
          let s := (s.dmaWrite d.length c.cmd.item).hostWrite c.out d
          s.cmdDone c.cmd (if n < c.image.length then 5 else 0) c.stroke

/-! ### Scheduled commands (R212, R225, R249) -/

/-- Command `a` is applied before `b`: by stroke, then by ring number, then in fetch order. -/
def cmdBefore (a b : CmdX) : Bool := strokeLt a.stroke b.stroke || (a.stroke = b.stroke && decide (a.ring < b.ring))

/-- The first command of a queue. -/
def firstCmd : List CmdX → Option CmdX
  | [] => none
  | c :: l =>
    match firstCmd l with
    | none => some c
    | some d => some (if cmdBefore d c then d else c)

/-- The same entry of a ring. -/
def sameCmd (c d : CmdX) : Bool := c.ring = d.ring && c.ix = d.ix

/-- Everything that precedes a scheduled table command of stroke `x` is applied (R212); a classifier's write waits for its stroke, and what lies
in the span of a quiesce for the resume (R618). -/
def State.tableDue (s : State) (n : Nat) (c : CmdX) : Bool :=
  let t := (c.stroke + (2 ^ 48 - 1)) % 2 ^ 48
  if s.inSpan c.stroke then false
  else if s.running && s.regionRuns n && decide (c.table < 0x20) then
    s.wmPassed n t && s.sweptTo n c.stroke && !s.removalBefore n c.stroke && !s.hitsHeld n t &&
      !((s.tbl n).learns.any (fun q => strokeLt q.key.stroke c.stroke))
  else s.region n != rgRejoin && strokeLe c.stroke s.strokeNow

/-- The next scheduled table command of region `n` is applied and completes; `err` says that the write of its result failed. -/
def applyScheduled (n : Nat) (err : Bool) (s : State) : State :=
  match firstCmd (s.tbl n).sched with
  | none => s
  | some c =>
    if !s.tableDue n c then s
    else
      let s := s.applyHits n (fun k => strokeLt k.stroke c.stroke)
      let (s, st) := (s.setSched n ((s.tbl n).sched.filter (fun d => !sameCmd c d))).applyTable c (some c.stroke) err
      s.cmdDone c st c.stroke

/-- The part of a scheduled flow command at engine `e` may be applied: everything that precedes it in its order is (R225, R249, R250), and the
engine's clocks run (R627). -/
def State.partDue (s : State) (e : Nat) (c : CmdX) : Bool :=
  s.region e != rgRejoin && s.rf (PWR_STATUS.LEVEL e) != 0 && s.cmdDue e c.table c.stroke &&
    !(s.eng e).sched.any (fun d => cmdBefore d c && s.sameOrder e c.table d.table)

/-- The engines that hold a part of a scheduled flow command. -/
def State.holders (s : State) (c : CmdX) : List Nat := (List.range 8).filter (fun k => (s.eng k).sched.any (sameCmd c))

/-- The scheduled flow commands of engine `e` that may be applied: those of which every part may be. -/
def State.flowDue (s : State) (e : Nat) : List CmdX :=
  (s.eng e).sched.filter (fun c => (s.holders c).all (fun k => s.partDue k c))

/-- The next scheduled flow command of engine `e` is applied, its parts together, so that none is applied when a quarantine completes it with
QUARANTINED (R460). -/
def applyScheduledFlow (e : Nat) (s : State) : State :=
  match firstCmd (s.flowDue e) with
  | none => s
  | some c =>
    s.orWait (
      let r := (s.unqueueFlow c).applyEngines c (some c.stroke) (s.holders c)
      r.1.cmdDone c r.2 c.stroke)

/-! ### Meanings -/

def execWrite (err : Bool) (s : State) : Host.Outcome State Fault Refusal := .next (dispatch 0x10 (modifyCmd err) s)

def execRead (err : Bool) (chk : ReadCheck) (bad : Fin 64) (s : State) : Host.Outcome State Fault Refusal :=
  .next (dispatch 0x11 (readCmd err chk bad.val) s)

def execInsert (err : Bool) (s : State) : Host.Outcome State Fault Refusal := .next (dispatch 0x12 (modifyCmd err) s)

def execDelete (err : Bool) (s : State) : Host.Outcome State Fault Refusal := .next (dispatch 0x13 (modifyCmd err) s)

def execFind (err : Bool) (s : State) : Host.Outcome State Fault Refusal := .next (dispatch 0x14 (findCmd err) s)

def execLock (err : Bool) (s : State) : Host.Outcome State Fault Refusal := .next (dispatch 0x15 (modifyCmd err) s)

def execUnlock (s : State) : Host.Outcome State Fault Refusal := .next (dispatch 0x16 (modifyCmd false) s)

def execScheduledCommandApply (n : Region) (flow err : Bool) (s : State) : Host.Outcome State Fault Refusal :=
  .next (if !s.alive || s.rf (PWR_STATUS.LEVEL n) = 0 then s else if flow then applyScheduledFlow n s else applyScheduled n err s)

def execFlowFind (err : Bool) (rd : RecRead) (s : State) : Host.Outcome State Fault Refusal :=
  .next (dispatch 0x40 (flowFind err rd) s)

def execFlowInsert (err : Bool) (s : State) : Host.Outcome State Fault Refusal := .next (s.orWait (dispatch 0x41 (flowModify err) s))

def execFlowDelete (err : Bool) (s : State) : Host.Outcome State Fault Refusal := .next (s.orWait (dispatch 0x42 (flowModify err) s))

def execFlowRead (err : Bool) (rd : RecRead) (i : Fin 64) (j : Fin 4) (s : State) : Host.Outcome State Fault Refusal :=
  .next (dispatch 0x43 (flowRead err rd i.val j.val) s)

def execFlowSnapshot (err : Bool) (s : State) : Host.Outcome State Fault Refusal := .next (dispatch 0x44 (flowSnapshot err) s)

def execFlowFlush (s : State) : Host.Outcome State Fault Refusal := .next (dispatch 0x45 flowFlush s)

def execSnapshotCapture (e : Region) (err : Bool) (s : State) : Host.Outcome State Fault Refusal :=
  .next (if s.alive && s.rf (PWR_STATUS.LEVEL e) != 0 then snapshotCapture e err s else s)

end Sys2Proof.Machine
end

