-- ==== Sys2Proof/Machine/Counters.lean ====
section
/-! DEFINITION. Freeze, thaw and snapshot of the counters, and the sample registers (file 18, R588 to R597). The cycle counters count
cycles of clocks that this model does not follow: while they run a read of one is a free value, and what stops them (a freeze, a stopped clock, EN
cleared) leaves a free value in them (log entry 129). -/

namespace Sys2Proof.Machine

/-- The counter units of Table CT-1. -/
def counterUnits : Nat := 138

/-- The actions of R594, as the boundary's kind. -/
def bkFreeze : Nat := 0
def bkThaw : Nat := 1
def bkSnap : Nat := 2

/-! ### Arms (R594) -/

/-- `CT_STATUS.ARM_RESULT` for an arm at stroke `x`: the same kind is pending; the frozen state or the order is wrong; the lead rule of
R187 (log entry 130). -/
def State.armResult (s : State) (pending order : Bool) (x : Nat) : Nat :=
  if pending then 2 else if !order then 3 else if leadOk s.strokeNow x then 0 else 1

/-- A thaw at `x` suits the frozen state: the counters are frozen, or a freeze is pending whose stroke is earlier. -/
def State.thawOrder (s : State) (x : Nat) : Bool :=
  if s.rb CT_STATUS.FREEZE_PEND then strokeLt s.countx.freezeAt x else s.rb CT_STATUS.FROZEN

/-- FREEZE_ARM. -/
def State.freezeArm (s : State) : State :=
  let x := s.rf CT_FREEZE_STROKE.STROKE
  let r := s.armResult (s.rb CT_STATUS.FREEZE_PEND) (!s.rb CT_STATUS.FROZEN) x
  let s := s.wf CT_STATUS.ARM_RESULT r
  if r = 0 then (s.withCountx { s.countx with freezeAt := x }).wf CT_STATUS.FREEZE_PEND 1 else s

/-- THAW_ARM. -/
def State.thawArm (s : State) : State :=
  let x := s.rf CT_THAW_STROKE.STROKE
  let r := s.armResult (s.rb CT_STATUS.THAW_PEND) (s.thawOrder x) x
  let s := s.wf CT_STATUS.ARM_RESULT r
  if r = 0 then (s.withCountx { s.countx with thawAt := x }).wf CT_STATUS.THAW_PEND 1 else s

/-- The word offset lies in a `CT_CNT` register. -/
def isCtCnt (w : Nat) : Bool :=
  decide (CT_CYCLE.w 0 ≤ w) && decide (w < CT_CYCLE.w counterUnits) && decide (2 ≤ (w - CT_CYCLE.w 0) % 64) &&
    decide ((w - CT_CYCLE.w 0) % 64 < 18)

/-- The word offset lies in the snapshot bank. -/
def isSnapBank (w : Nat) : Bool := decide (CT_SNAP_BANK.w 0 0 ≤ w) && decide (w < CT_SNAP_BANK.w counterUnits 0)

/-- Copy words of a register map to offsets `d` higher. -/
def State.copyUp (s : State) (d : Nat) : List (Nat × Word) → State
  | [] => s
  | (w, v) :: l => (s.setReg (w + d) v).copyUp d l

/-- The snapshot bank starts from the counts as they stand; until the boundary it follows the counted events of strokes below it
(`State.evOne`). -/
def State.snapStart (s : State) : State :=
  let cs := s.regs.filter (fun p => isCtCnt p.1)
  (s.withRegs (s.regs.filter (fun p => !isSnapBank p.1))).copyUp (CT_SNAP_BANK.w 0 0 - CT_CYCLE.w 0) cs

/-- SNAP_ARM; an accepted arm clears SNAP_READY (R596). -/
def State.snapArm (s : State) : State :=
  let x := s.rf CT_SNAP_STROKE.STROKE
  let r := s.armResult (s.rb CT_STATUS.SNAP_PEND) true x
  let s := s.wf CT_STATUS.ARM_RESULT r
  if r = 0 then
    ((s.withCountx { s.countx with snapAt := x }).snapStart.wf CT_STATUS.SNAP_READY 0).wf CT_STATUS.SNAP_PEND 1
  else s

/-- Clear one pending arm whose stroke is still at least 64 strokes ahead. -/
def State.cancelArm (s : State) (f : Fld) (x : Nat) : State :=
  if s.rb f && leadOk s.strokeNow x then s.wf f 0 else s

/-- CANCEL. -/
def State.counterCancel (s : State) : State :=
  ((s.cancelArm CT_STATUS.FREEZE_PEND s.countx.freezeAt).cancelArm CT_STATUS.THAW_PEND s.countx.thawAt).cancelArm
    CT_STATUS.SNAP_PEND s.countx.snapAt

/-- A write of `CT_CTRL`: the cancel first, then each arm (R664). -/
def ctCtrlWrite (v : Nat) (s : State) : State :=
  let s := if bit v 3 then s.counterCancel else s
  let s := if bit v 0 then s.freezeArm else s
  let s := if bit v 1 then s.thawArm else s
  if bit v 2 then s.snapArm else s

/-! ### Boundaries (R595, R596) -/

/-- Every unit has passed boundary `x`: the ordering source has reached it and, while the chip runs, no region in RUN has events of
earlier strokes to come: its watermark has passed them, and its table block and flow engine hold no learn and no lookup of them (R596). -/
def State.boundaryPassed (s : State) (x : Nat) : Bool :=
  strokeLe x s.strokeNow &&
    (!s.running || (List.range 8).all (fun n => !s.regionRuns n || (s.wmPassed n ((x + (2 ^ 48 - 1)) % 2 ^ 48) &&
      !(s.tbl n).learns.any (fun q => strokeLt q.key.stroke x) && !(s.eng n).lookups.any (fun l => strokeLt l.frame.key.stroke x))))

/-- Put a free value of 64 bits into two words. -/
def State.freePair (s : State) (w : Nat) : State :=
  ((s.setReg w (BitVec.ofNat 32 (s.freeBits 64))).setReg (w + 1) (BitVec.ofNat 32 (s.freeBits 64 / 2 ^ 32))).nextFree

/-- The gated islands of region `n`, as counter units (R627). -/
def gatedUnits (n : Nat) : List Nat := [64 + 2 * n, 65 + 2 * n, 80 + 2 * n, 81 + 2 * n, 96 + n, 104 + n, 120 + n]

/-- The island of unit `u` counts its cycles: the counters are not frozen (R595), nor its clock stopped (R589, R627). -/
def State.cycling (s : State) (u : Nat) : Bool :=
  !s.rb CT_STATUS.FROZEN && !(List.range 8).any (fun n => decide (u ∈ gatedUnits n) && s.rf (PWR_STATUS.LEVEL n) = 0)

/-- The event counts cycles of the unit's clock (R591, Table CT-2), which this model does not follow. -/
def cycleCode (u code : Nat) : Bool :=
  code = 1 || code = 2 || (decide (64 ≤ u) && decide (u < 80) && code = 0x11) || (decide (104 ≤ u) && decide (u < 112) && code = 0x18) ||
    (decide (112 ≤ u) && decide (u < 120) && code = 0x16) || (u = 137 && code = 0x10)

/-- Counter `k` of unit `u` counts cycles now. -/
def State.countsCycles (s : State) (u k : Nat) : Bool := s.rb (CT_SEL.EN u k) && cycleCode u (s.rf (CT_SEL.EVENT u k)) && s.cycling u

/-- The cycle counter of unit `u` at a moment that shows or stops it: a running one stands at a free value. -/
def State.showCycle (s : State) (u : Nat) : State := if s.cycling u then s.freePair (CT_CYCLE.w u) else s

/-- The same for `CT_CNT[k]` of unit `u`: whether it has wrapped since it was last seen is a free value too (R590). -/
def State.showCount (s : State) (u k : Nat) : State :=
  if s.countsCycles u k then
    let t := (s.wf (CT_CNT.COUNT u k) (s.freeBits 48)).nextFree
    let wraps := t.freeBits 1 = 1
    let t := t.nextFree
    if wraps then t.wrapped u k (t.rf (CT_SEL.EVENT u k)) (t.strokeNow * 2 ^ 32) else t
  else s

/-- Every counter of unit `u` that counts cycles takes the value it has now. -/
def State.showUnit (s : State) (u : Nat) : State := (List.range 8).foldl (fun s k => s.showCount u k) (s.showCycle u)

/-- The cycle counters of units 0 to k − 1 take the values they have at a freeze. -/
def State.cutCycles (s : State) : Nat → State
  | 0 => s
  | u + 1 => (s.cutCycles u).showCycle u

/-- The counters whose `CT_SEL` differs from its reset value, as unit and number. -/
def State.selected (s : State) : List (Nat × Nat) :=
  s.regs.filterMap (fun p =>
    let d := p.1 - CT_SEL.w 0 0
    if decide (CT_SEL.w 0 0 ≤ p.1) && decide (d < 64 * counterUnits) && decide (d % 64 < 8) then some (d / 64, d % 64) else none)

/-- The counters of cycles take the values they have at a freeze. -/
def State.cutCounts (s : State) : State := s.selected.foldl (fun s p => s.showCount p.1 p.2) s

/-- Event 0x050 with DATA = `CT_STATUS`. -/
def State.boundaryEvent (s : State) : State := s.raise 0x050 (s.reg CT_STATUS.w).toNat

/-- A freeze completes. A snapshot bank that waits for the same stroke and the counters hold equal cycle counts. -/
def State.freezeDone (s : State) : State :=
  ((((s.cutCycles counterUnits).cutCounts).wf CT_STATUS.FREEZE_PEND 0).wf CT_STATUS.FROZEN 1).boundaryEvent

/-- A thaw completes. -/
def State.thawDone (s : State) : State :=
  ((s.wf CT_STATUS.THAW_PEND 0).wf CT_STATUS.FROZEN 0).boundaryEvent

/-- The cycle counters of units 0 to k − 1 in the snapshot bank: a running one stands at a free value. -/
def State.copyCycles (s : State) : Nat → State
  | 0 => s
  | u + 1 =>
    let s := s.copyCycles u
    if s.cycling u then s.freePair (CT_SNAP_BANK.w u 0)
    else (s.setReg (CT_SNAP_BANK.w u 0) (s.reg (CT_CYCLE.w u))).setReg (CT_SNAP_BANK.w u 0 + 1) (s.reg (CT_CYCLE.w u + 1))

/-- The same for the counters of cycles. -/
def State.copyCounts (s : State) : State :=
  s.selected.foldl (fun s p => if s.countsCycles p.1 p.2 then (s.wf (CT_SNAP_BANK.COUNT p.1 (p.2 + 1)) (s.freeBits 48)).nextFree else s) s

/-- A snapshot completes: inside a frozen interval it holds the frozen cycle counts. -/
def State.snapDone (s : State) : State :=
  let s := (s.copyCycles counterUnits).copyCounts
  ((s.wf CT_STATUS.SNAP_PEND 0).wf CT_STATUS.SNAP_READY 1).boundaryEvent

/-- A boundary of a kind completes once every unit has passed it. A freeze completes before a snapshot or a thaw of the same or a later
stroke. -/
def boundaryComplete (kind : Nat) (s : State) : State :=
  let freezeFirst := fun x => s.rb CT_STATUS.FREEZE_PEND && strokeLe s.countx.freezeAt x
  if kind = bkFreeze then
    if s.rb CT_STATUS.FREEZE_PEND && s.boundaryPassed s.countx.freezeAt then s.freezeDone else s
  else if kind = bkThaw then
    if s.rb CT_STATUS.THAW_PEND && s.rb CT_STATUS.FROZEN && s.boundaryPassed s.countx.thawAt &&
        !(s.rb CT_STATUS.SNAP_PEND && strokeLe s.countx.snapAt s.countx.thawAt) then s.thawDone else s
  else
    if s.rb CT_STATUS.SNAP_PEND && s.boundaryPassed s.countx.snapAt && !freezeFirst s.countx.snapAt then s.snapDone else s

/-! ### Samples and writes of counters -/

/-- A write of word 0 of `CT_SAMPLE`: VALID written 1 frees the sample register (R593). -/
def ctSampleWrite (u v : Nat) (s : State) : State := if bit v 31 then s.wf (CT_SAMPLE.VALID u) 0 else s

/-- Host software writes `CT_SEL` (R590); a counter of cycles stands at what it has counted by then. -/
def ctSelWrite (u k : Nat) (store : State → State) (s : State) : State := store (s.showCount u k)

/-- Host software writes a counter (R590); while a snapshot is pending its bank follows. -/
def ctCntWrite (u k v : Nat) (s : State) : State :=
  let s := s.wf (CT_CNT.COUNT u k) v
  if s.rb CT_STATUS.SNAP_PEND && strokeLt s.strokeNow s.countx.snapAt then s.wf (CT_SNAP_BANK.COUNT u (k + 1)) (v % 2 ^ 48) else s

/-! ### Meanings -/

/-- The write has FREEZE_ARM = 1. -/
def execFreezeArm (v : Word) (s : State) : Host.Outcome State Fault Refusal := .next (onWrite (ctCtrlWrite (v ||| 1).toNat) s)
/-- The write has THAW_ARM = 1. -/
def execThawArm (v : Word) (s : State) : Host.Outcome State Fault Refusal := .next (onWrite (ctCtrlWrite (v ||| 2).toNat) s)
/-- The write has SNAP_ARM = 1. -/
def execSnapArm (v : Word) (s : State) : Host.Outcome State Fault Refusal := .next (onWrite (ctCtrlWrite (v ||| 4).toNat) s)
/-- The write has CANCEL = 1. -/
def execCounterCancel (v : Word) (s : State) : Host.Outcome State Fault Refusal := .next (onWrite (ctCtrlWrite (v ||| 8).toNat) s)
def execBoundaryComplete (kind : Fin 3) (s : State) : Host.Outcome State Fault Refusal := .next (boundaryComplete kind s)
/-- The write has VALID = 1. -/
def execSampleFree (u : Fin 138) (v : Word) (s : State) : Host.Outcome State Fault Refusal :=
  .next (onWrite (ctSampleWrite u (v ||| 2147483648).toNat) s)

end Sys2Proof.Machine
end

