-- ==== Sys2Proof/Machine/Hbm.lean ====
section
/-! DEFINITION. The HBM controllers (file 14): command issue, read return, refresh and row disturbance, command parity and replay,
in-service retraining, fencing and frequency change. -/

namespace Sys2Proof.Machine

/-- Channel states of Table HB-6. -/
def hcTrain : Nat := 1
def hcActive : Nat := 2
def hcSlice : Nat := 3
def hcReplay : Nat := 4
def hcSelfref : Nat := 5
def hcFenced : Nat := 6

def State.chState (s : State) (st c : Nat) : Nat := s.rf (HBM_CH_STATUS.STATE st c)
def State.setChState (s : State) (st c v : Nat) : State := s.wf (HBM_CH_STATUS.STATE st c) v

/-- A location as bits [23:0] of `HBM_ERR_LOC`: pseudo-channel, bank and row (Table HB-11). -/
def hbmLoc (q bank row : Nat) : Nat := q / 2 + 16 * (q % 2) + 32 * bank + 1024 * row

/-- Set a bit of `HBM_ERR` with its event (R496); the location is captured while every bit is 0 (R498). -/
def State.hbmErr (s : State) (f : Fld) (st loc kind : Nat) : State :=
  let s := if s.reg (HBM_ERR.w st) = 0 then s.setReg (HBM_ERR_LOC.w st) (BitVec.ofNat 32 (loc + 2 ^ 24 * kind)) else s
  s.setErr f (0xE10 + st * 0x40)

/-- Set a bit of `HBM_ERR` whose location Table HB-11 does not give, but for the channel `c` of a refused RETRAIN: the rest of what
`HBM_ERR_LOC` captures is free (log entry 217). -/
def State.hbmNote (s : State) (f : Fld) (st : Nat) (c : Option Nat := none) : State :=
  let v := s.freeBits 26
  (s.hbmErr f st (putBits (v % 2 ^ 24) 0 4 (c.getD (v % 16))) (v / 2 ^ 24)).withFree (s.free + 1)

/-- Raise the event of a channel (Table HB-9). -/
def State.chEvent (s : State) (st c : Nat) : State := s.raise (0xE00 + st * 0x40 + c) (s.reg (HBM_CH_STATUS.w st c)).toNat

/-! ### Issue (R479, R483 to R485) -/

/-- The open row of a bank. -/
def HbmPc.openRow (x : HbmPc) (b : Nat) : Option Nat := mget none x.rows b

/-- A command is legal for the rows that are open. -/
def HbmPc.legal (x : HbmPc) (c : HbmCmd) : Bool :=
  match c.op with
  | .act | .ref => (x.openRow c.bank.toNat).isNone
  | .rd | .wr => x.openRow c.bank.toNat = some c.row.toNat
  | .pre | .preAll => true
  | .refAll => x.rows.isEmpty

/-- The first place of a bank's activate table with the smallest count. -/
def actMin (l : List (Nat × Nat)) : Option Nat :=
  findIdx (fun p => l.all (fun r => decide (p.2 ≤ r.2))) l

/-- The activate table of a bank after an activate of a row (R483). -/
def actNote (l : List (Nat × Nat)) (row : Nat) : List (Nat × Nat) :=
  if l.any (fun p => p.1 = row) then l.map (fun p => if p.1 = row then (row, p.2 + 1) else p)
  else if l.length < 64 then l ++ [(row, 1)]
  else match actMin l with
    | some i => setAt l i (row, ((l.getD i (0, 0)).2 + 1))
    | none => l

/-- The event code of Table CT-2 of a command. -/
def hbmCode : HbmOp → Option Nat
  | .rd => some 0x10
  | .wr => some 0x11
  | .act => some 0x12
  | .ref | .refAll => some 0x13
  | .pre | .preAll => none

/-- The number of a command on the stack's pins, for the model's record of outputs. -/
def hbmOpNum : HbmOp → Nat
  | .act => 0
  | .rd => 1
  | .wr => 2
  | .pre => 3
  | .ref => 4
  | .refAll => 5
  | .preAll => 6

/-- The open rows after a command. -/
def HbmPc.rowsAfter (x : HbmPc) (c : HbmCmd) : List (Nat × Option Nat) :=
  match c.op with
  | .act => mset none x.rows c.bank.toNat (some c.row.toNat)
  | .pre => mset none x.rows c.bank.toNat none
  | .preAll => []
  | .rd | .wr | .ref | .refAll => x.rows

/-- The column that a command of a pseudo-channel reaches, as row × 32 + column. -/
def State.hbmColumn (s : State) (c : HbmCmd) : Nat := (c.row.toNat * s.hbmBanks + c.bank.toNat) * 32 + c.col.toNat

/-- Issue a command: it enters the retry buffer (R485), and the activate table unless a neighbour refresh issues it (R484). A write ends the
error of the data that its column held (R481). -/
def State.issueHbm (s : State) (st q : Nat) (r : RetryEnt) : State :=
  let x := s.hpc st q
  let c := r.cmd
  let bad := if c.op = .wr then x.bad.filter (fun k => k != s.hbmColumn c) else x.bad
  let b := c.bank.toNat
  let acts := if c.op = .act && !r.nbr then mset [] x.acts b (actNote (mget [] x.acts b) c.row.toNat) else x.acts
  let reads := if c.op = .rd then x.reads ++ [(c, r.req)] else x.reads
  let used := if c.op = .act || c.op = .rd || c.op = .wr then mset 0 x.used b s.time.tick else x.used
  let s := s.setHpc st q { x with rows := x.rowsAfter c, acts := acts, retry := x.retry ++ [r], reads := reads, used := used, bad := bad }
  let s := match hbmCode c.op with
    | some code => s.ev (130 + st) code (some (q / 2)) 1 s.strokeNow (hbmLoc q b c.row.toNat)
    | none => s
  s.emit (.hbm st q (hbmOpNum c.op) b c.row.toNat)

/-- A replaying channel whose marked commands have all been issued resumes (Table HB-6). -/
def State.replayDone (s : State) (st c : Nat) : State :=
  if s.chState st c = hcReplay && (s.hpc st (2 * c)).replay.isEmpty && (s.hpc st (2 * c + 1)).replay.isEmpty then
    s.setChState st c hcActive
  else s

/-! ### The requests of a pseudo-channel (R480) -/

/-- Bank and row that a request reaches, redirection included (R478). -/
def State.hbmTarget (s : State) (st q : Nat) (a : HbmAsk) : Nat × Nat :=
  let r := (s.hpc st q).served (a.row.toNat * s.hbmBanks + a.bank.toNat)
  (r % s.hbmBanks, r / s.hbmBanks)

/-- A bucket read whose first column has been issued: the others follow consecutively. -/
def HbmReq.begun (r : HbmReq) : Bool := r.ask.bucket && decide (r.left < 4)

/-- Two requests touch one 32-byte address. -/
def HbmReq.meets (a b : HbmReq) : Bool :=
  decide (a.ask.bank = b.ask.bank) && decide (a.ask.row = b.ask.row) && decide (a.ask.col.toNat < b.ask.col.toNat + b.left) &&
    decide (b.ask.col.toNat < a.ask.col.toNat + a.left)

/-- Requester `k` has begun a bucket read. -/
def inBucketRead (l : List HbmReq) (k : Nat) : Bool := l.any (fun r => decide (r.ask.who.val = k) && r.begun)

/-- Request `i` may be served before the earlier ones of its requester: none of them touches its address or has been passed 16 times. -/
def mayServe (l : List HbmReq) (i : Nat) (r : HbmReq) : Bool :=
  r.begun || (!inBucketRead l r.ask.who.val &&
    (l.take i).all (fun o => decide (o.ask.who ≠ r.ask.who) || (decide (o.passed < 16) && !o.meets r)))

/-- The requests after a column of request `i` has been issued. -/
def serveReq (l : List HbmReq) (i : Nat) (r : HbmReq) : List HbmReq :=
  (l.take i).map (fun o => if o.ask.who = r.ask.who && !r.begun then { o with passed := o.passed + 1 } else o) ++
    (if 1 < r.left then [{ r with ask := { r.ask with col := r.ask.col + 1 }, left := r.left - 1 }] else []) ++ l.drop (i + 1)

/-- The request of one column of a request. -/
def HbmReq.column (r : HbmReq) : HbmReq := { ask := { r.ask with bucket := false }, again := r.again }

/-- A request is one of Table HB-4's. -/
def State.validAsk (s : State) (a : HbmAsk) : Bool :=
  decide (2 ≤ a.who.val) && decide (a.bank.toNat < s.hbmBanks) &&
    (!a.bucket || (!a.write && decide (a.who.val ≤ 3) && decide (a.col.toNat % 4 = 0)))

/-- Requests reach a pseudo-channel whose channel is trained and not fenced. -/
def State.takeAsks (s : State) (st q : Nat) (l : List HbmAsk) : State :=
  let state := s.chState st (q / 2)
  let new := (l.filter s.validAsk).map (fun a => ({ ask := a, left := if a.bucket then 4 else 1 } : HbmReq))
  if !s.alive || decide (state < hcActive) || state = hcFenced || new.isEmpty then s
  else s.setHpc st q { s.hpc st q with queue := (s.hpc st q).queue ++ new }

/-- What requester `k` of 2 to 6 issues when it issues `c`: a column of one of its requests, or an activate or precharge that one of them
needs, with the requests that wait afterwards and the one that a read serves. -/
def State.hbmServes (s : State) (st q k : Nat) (c : HbmCmd) : Option (List HbmReq × Option HbmReq) :=
  let x := s.hpc st q
  let goes := fun (r : HbmReq) => decide (r.ask.who.val = k) && (r.begun || !inBucketRead x.queue k)
  let column := fun (r : HbmReq) => decide (r.ask.who.val = k) && (r.ask.write == decide (c.op = .wr)) &&
    decide (s.hbmTarget st q r.ask = (c.bank.toNat, c.row.toNat)) && decide (r.ask.col = c.col)
  match c.op with
  | .rd | .wr => (List.range x.queue.length).findSome? (fun i =>
      match x.queue[i]? with
      | some r => if column r && mayServe x.queue i r then some (serveReq x.queue i r, some r.column) else none
      | none => none)
  | .act =>
    if x.queue.any (fun r => goes r && decide (s.hbmTarget st q r.ask = (c.bank.toNat, c.row.toNat))) then some (x.queue, none) else none
  | .pre =>
    if x.queue.any (fun r => goes r && decide ((s.hbmTarget st q r.ask).1 = c.bank.toNat) &&
        (x.openRow c.bank.toNat).any (fun o => o != (s.hbmTarget st q r.ask).2)) then some (x.queue, none) else none
  | .preAll | .ref | .refAll => none

/-- Controller cycles in `ns` ns: the controller clock is a quarter of the data rate (R492). -/
def State.hbmCycles (s : State) (st ns : Nat) : Nat := ns * 4 * s.rf (HBM_STATUS.RATE st) / 5

/-- A bank whose row no request waits for and which has been idle for IDLE_CLOSE cycles (R480). -/
def State.idleBank (s : State) (st q : Nat) : Option Nat :=
  let x := s.hpc st q
  (x.rows.find? (fun p => p.2.any (fun row => !x.queue.any (fun r => decide (s.hbmTarget st q r.ask = (p.1, row)))) &&
    decide (bits (s.hctl st).cfg 21 7 ≤ s.hbmCycles st (s.time.tick - mget 0 x.used p.1)))).map (·.1)

/-- Remove the first member equal to `a`. -/
def dropOne {α : Type} [DecidableEq α] (a : α) : List α → List α
  | [] => []
  | b :: l => if a = b then l else b :: dropOne a l

/-- The commands that the requests of requester `k` call for, those of open rows first: a column, an activate, a precharge. -/
def State.hbmWants (s : State) (st q k : Nat) : List HbmCmd :=
  let x := s.hpc st q
  let mine := x.queue.filter (fun r => decide (r.ask.who.val = k))
  let cmd := fun (op : HbmOp) (r : HbmReq) =>
    let t := s.hbmTarget st q r.ask
    ({ op := op, bank := BitVec.ofNat 5 t.1, row := BitVec.ofNat 14 t.2, col := r.ask.col } : HbmCmd)
  mine.map (fun r => cmd (if r.ask.write then .wr else .rd) r) ++ mine.map (cmd .act) ++ mine.map (cmd .pre)

/-- Requester `k` of 2 to 6 issues `c`. -/
def State.hbmTakes (s : State) (st q k : Nat) (c : HbmCmd) : Option (RetryEnt × HbmPc) :=
  let x := s.hpc st q
  if x.legal c then (s.hbmServes st q k c).map (fun p => ({ cmd := c, req := p.2 }, { x with queue := p.1 })) else none

/-- What requester `k` (Table HB-4) can issue, with the pseudo-channel once it is taken: maintenance from its queue, then the precharge of an
idle row; replay from its queue; the others the command `c` where it is one of theirs, and else the first that their requests call for. -/
def State.hbmOffer (s : State) (st q k : Nat) (c : HbmCmd) : Option (RetryEnt × HbmPc) :=
  let x := s.hpc st q
  if k = 0 then
    match x.maint.find? (fun m => x.legal m.1) with
    | some m => some ({ cmd := m.1, nbr := m.2 }, { x with maint := dropOne m x.maint })
    | none => (s.idleBank st q).map (fun b => ({ cmd := { op := .pre, bank := BitVec.ofNat 5 b } }, x))
  else if k = 1 then (x.replay.head?.filter (fun r => x.legal r.cmd)).map (fun r => (r, { x with replay := x.replay.drop 1 }))
  else (c :: s.hbmWants st q k).findSome? (s.hbmTakes st q k)

/-- A requester whose bit of `ready` is set has a command ready by the timing: maintenance and replay also while the device is halted (R472), and
replay alone while the channel replays. -/
def State.hbmMay (s : State) (st q ready k : Nat) : Bool :=
  let state := s.chState st (q / 2)
  bit ready k && (s.alive || decide (k ≤ 1)) && (state = hcActive || (state = hcReplay && decide (k = 1)))

/-- A software range pass reads pseudo-channel `q` of stack `st` (R573). -/
def State.passOn (s : State) (st q : Nat) : Bool := (mget none s.passes (8 + st)).any (fun p => p.mem = q)

/-- The requesters in the order in which they are tried: the lowest first, but for the scrubber's slot of every 256 in a range pass. -/
def State.slotOrder (s : State) (st q : Nat) : List Nat :=
  if s.passOn st q && decide (255 ≤ (s.hpc st q).denied) then 6 :: List.range 6 else List.range 7

/-- Slots of a range pass that others than the scrubber took since it had its last. -/
def State.deniedAfter (s : State) (st q k : Nat) : Nat :=
  if s.passOn st q && k != 6 then min 255 ((s.hpc st q).denied + 1) else 0

/-- A command slot of a pseudo-channel: requests reach it, and it issues one command from its lowest requester with a legal one ready (R479);
`ready` names the requesters whose command the timing allows (log entry 95). -/
def hbmIssue (st q ready : Nat) (w : HbmSlot) (s : State) : State :=
  let s := s.takeAsks st q w.asks
  if 64 ≤ (s.hpc st q).retry.length || s.hbmBusy st then s else
  match (s.slotOrder st q).findSome? (fun k => if s.hbmMay st q ready k then (s.hbmOffer st q k w.cmd).map (fun p => (k, p)) else none) with
  | none => s
  | some (k, r, x) => ((s.setHpc st q { x with denied := s.deniedAfter st q k }).issueHbm st q r).replayDone st (q / 2)

/-! ### Read return (R481) -/

/-- Read `i` of those outstanding returns; `bad` says that its parity check fails. A first failure puts the read before the other requests of
its pseudo-channel; after a second one the data is delivered flagged to a flow engine or sump. What the scrubber's second failure does,
SCRUB_READ says. -/
def hbmReturn (st q i : Nat) (bad : Bool) (s : State) : State :=
  let x := s.hpc st q
  match x.reads[i]? with
  | none => s
  | some (c, req) =>
    let again := req.any (·.again)
    let loc := hbmLoc q c.bank.toNat c.row.toNat
    let gone := { x with reads := x.reads.eraseIdx i }
    if !bad then
      let s := s.setHpc st q { gone with bad := x.bad.filter (fun k => k != s.hbmColumn c) }
      if again then s.detect (8 + st) 0 loc true else s
    else if !again then
      let s := s.setHpc st q { gone with queue := (req.map (fun r => { r with again := true })).toList ++ x.queue }
      ((s.hbmErr (HBM_ERR.DATA_PARITY st) st loc 0).addSat (HBM_CH_CNT.PARITY st (q / 2)) 1).detParity
    else
      let flagged := if req.any (fun r => decide (r.ask.who.val < 6)) then s.hbmColumn c :: x.bad else x.bad
      ((s.setHpc st q { gone with bad := flagged }).hbmErr (HBM_ERR.DATA_PARITY_FAIL st) st loc 0).detect (8 + st) 0 loc false

/-! ### Refresh and row disturbance (R482 to R484) -/

/-- The refresh of the next bank comes due. While requests for that bank wait the controller may postpone it, and `post` says that it does. -/
def perBankRefresh (st q : Nat) (post : Bool) (s : State) : State :=
  if s.chState st (q / 2) != hcActive then s else
  let x := s.hpc st q
  let b := x.refBank % s.hbmBanks
  let owed := mget 0 x.postponed b
  let x := { x with refBank := (b + 1) % s.hbmBanks }
  let waiting := x.queue.any (fun r => decide ((s.hbmTarget st q r.ask).1 = b))
  if post && waiting && decide (owed < bits (s.hctl st).cfg 17 4) then
    s.setHpc st q { x with postponed := mset 0 x.postponed b (owed + 1) }
  else
    let close := if (x.openRow b).isSome then [(⟨.pre, BitVec.ofNat 5 b, 0, 0⟩, false)] else []
    let refs := List.replicate (owed + 1) (⟨.ref, BitVec.ofNat 5 b, 0, 0⟩, false)
    s.setHpc st q { x with postponed := mset 0 x.postponed b 0, maint := x.maint ++ close ++ refs }

/-- The 1 ms reading of the stack temperature. -/
def hbmTemp (st t : Nat) (s : State) : State :=
  let hot := s.rf (HBM_TEMP.HOT_C st)
  let was := s.rf (HBM_TEMP.TEMP_C st)
  let s := (s.wf (HBM_TEMP.TEMP_C st) t).wb (HBM_TEMP.DOUBLE st) (decide (85 ≤ t))
  if hot ≤ t then
    let s := s.hbmNote (HBM_ERR.HOT st) st
    if was < hot then s.raise (0xE12 + st * 0x40) (s.reg (HBM_TEMP.w st)).toNat else s
  else s

/-- A refresh window starts: the activate tables are emptied and `HBM_CFG` takes effect (R483, R497). -/
def refreshWindow (st : Nat) (s : State) : State :=
  let s := s.setHctl st { s.hctl st with cfg := (s.reg (HBM_CFG.w st)).toNat }
  (List.range 32).foldl (fun s q => s.setHpc st q { s.hpc st q with acts := [] }) s

/-- The neighbours of a row that a neighbour refresh refreshes. -/
def neighbours (deep : Bool) (r : Nat) : List Nat :=
  let near := (if 1 ≤ r then [r - 1] else []) ++ (if r + 1 < 16384 then [r + 1] else [])
  let far := (if 2 ≤ r then [r - 2] else []) ++ (if r + 2 < 16384 then [r + 2] else [])
  if deep then near ++ far else near

/-- The first row of a bank whose count has reached ACT_THRESH has its neighbours refreshed, and its count returns to 0. -/
def neighbourRefresh (st q b : Nat) (s : State) : State :=
  let x := s.hpc st q
  let l := mget [] x.acts b
  let cfg := (s.hctl st).cfg
  match findIdx (fun p => decide (bits cfg 0 16 ≤ p.2)) l with
  | none => s
  | some i =>
    let r := (l.getD i (0, 0)).1
    let bank := BitVec.ofNat 5 b
    let cmds := (neighbours (bit cfg 16) r).flatMap (fun k =>
      [(⟨.act, bank, BitVec.ofNat 14 k, 0⟩, true), (⟨.pre, bank, 0, 0⟩, true)])
    let close := if (x.openRow b).isSome then [(⟨.pre, bank, 0, 0⟩, true)] else []
    let s := s.setHpc st q { x with acts := mset [] x.acts b (setAt l i (r, 0)), maint := x.maint ++ close ++ cmds }
    (s.addSat (HBM_CH_NBR.COUNT st (q / 2)) 1).ev (130 + st) 0x14 (some (q / 2)) 1 s.strokeNow (hbmLoc q b r)

/-! ### Fencing (R491, R242, R244, R343, R477) -/

/-- `FE_PC_LIVE` of a set of live channels: both pseudo-channels of each. -/
def pcsOf (live : Nat) : Nat := ((List.range 16).map (fun c => if bit live c then 3 * 4 ^ c else 0)).sum

/-- The number of channels of a set. -/
def channelsIn (live : Nat) : Nat := ((List.range 16).filter (fun c => bit live c)).length

/-- Show the live set of stack `st` in its two regions (R242, R477). -/
def State.showLive (s : State) (st : Nat) : State :=
  let live := s.rf (HBM_STATUS.LIVE_CH st)
  let l := 2 * channelsIn live
  [2 * st, 2 * st + 1].foldl (fun s n =>
    ((s.wf (FE_PC_LIVE.LIVE n) (pcsOf live)).wf (FE_CAPACITY.SLOTS n) (4 * s.nb * l / 32)).wf (CIS_SUMP_STATUS.PAGES_LIVE n)
      (s.rf (CIS_SUMP_CFG.SIZE_MIB n) * 8 * l)) s

/-- A key of `State.slots` lies in channel `c` of engine `e`. -/
def slotIn (e c k : Nat) : Bool := k / 2 ^ 26 = e && k % 2 ^ 26 / 4 % 32 / 2 = c

/-- The records of engine `e` in channel `c` are lost, and their buckets start empty (R244). -/
def State.fenceRecords (s : State) (e c : Nat) : State :=
  let lost := (s.slots.filter (fun p => slotIn e c p.1)).map (fun p => (p.1 % 2 ^ 26 / 4, p.1 % 4))
  let any := lost.any (fun p => (s.recAt e p.1 p.2).isSome)
  let s := lost.foldl (fun s p => s.loseRec e p.1 p.2 false) s
  let s := s.withSlots (s.slots.filter (fun p => !slotIn e c p.1))
  if any then (s.feErr (FE_ERR.RECORD_LOST e) e).detParity else s

/-- A frame of the sump with a page in channel `c`. -/
def inChannel (c : Nat) (e : QEnt) : Bool := decide (e.place = .sump) && e.pages.any (fun p => decide (p % 32 / 2 = c))

/-- Frames of region `n` stored in channel `c` are lost; they keep their places (R343). -/
def State.fencePages (s : State) (n c : Nat) : State :=
  let x := s.rx n
  let upd := fun (q : QueueX) =>
    let ents := q.ents.map (fun e => if inChannel c e then { e with lost := true } else e)
    if q.page.any (fun p => decide (p % 32 / 2 = c)) then { q with ents := ents, page := none, fill := 0 } else { q with ents := ents }
  s.setRx n { x with voq := (x.voq.map (fun p => (p.1, upd p.2))).filter (fun p => p.2 != {}) }

/-- Fence channel `c` of stack `st` with its cause: 1 training, 2 replay, 3 host (R491); its spare rows are lost with it (R478). -/
def State.fenceCh (s : State) (st c cause : Nat) : State :=
  let s := [2 * st, 2 * st + 1].foldl (fun s n => (s.fenceRecords n c).fencePages n c) s
  let s := (s.setHpc st (2 * c) {}).setHpc st (2 * c + 1) {}
  let s := ((s.setChState st c hcFenced).wf (HBM_CH_STATUS.RETRAINING st c) 0).wf (HBM_CH_STATUS.FENCE_CAUSE st c) cause
  let s := (s.wf (HBM_SPARE_LEFT.ROWS st (2 * c)) 0).wf (HBM_SPARE_LEFT.ROWS st (2 * c + 1)) 0
  let s := (s.wf (HBM_STATUS.LIVE_CH st) (putBits (s.rf (HBM_STATUS.LIVE_CH st)) c 1 0)).showLive st
  (s.hbmErr (HBM_ERR.FENCED st) st (hbmLoc (2 * c) 0 0) 3).chEvent st c

/-! ### Command parity and replay (R485, R486) -/

/-- The marked commands as they are reissued after every bank was precharged, in their order: a column command whose activate has been
retired has its row activated first, and an activate of a row that is open is left out (log entry 196). -/
def replayFrom (rows : List (Nat × Option Nat)) : List RetryEnt → List RetryEnt
  | [] => []
  | r :: l =>
    let b := r.cmd.bank.toNat
    let isOpen := decide (mget none rows b = some r.cmd.row.toNat)
    let opened := mset none rows b (some r.cmd.row.toNat)
    match r.cmd.op with
    | .act => if isOpen then replayFrom rows l else r :: replayFrom opened l
    | .rd | .wr =>
      if isOpen then r :: replayFrom rows l
      else { cmd := { op := .act, bank := r.cmd.bank, row := r.cmd.row } } :: r :: replayFrom opened l
    | .pre => r :: replayFrom (mset none rows b none) l
    | .preAll => r :: replayFrom [] l
    | .ref | .refAll => r :: replayFrom rows l

/-- The precharge of every bank of a pseudo-channel. -/
def preAll : RetryEnt := { cmd := { op := .preAll } }

/-- Pseudo-channel `q` marks the commands of its retry buffer; their reads are withdrawn, and the data that they returned with them. -/
def State.markRetry (s : State) (st q : Nat) : State :=
  let x := s.hpc st q
  let marked := x.retry.map (fun r => { r with alerts := r.alerts + 1 })
  let again := marked.filter (fun r => decide (r.cmd.op = .rd))
  let reads := again.foldl (fun l r => dropOne (r.cmd, r.req) l) x.reads
  let bad := x.bad.filter (fun k => !again.any (fun r => k = s.hbmColumn r.cmd))
  s.setHpc st q { x with replay := replayFrom [] (marked ++ x.replay), retry := [], reads := reads, bad := bad }

/-- One more alert marks an entry of the retry buffer a third time (R486). -/
def HbmPc.third (x : HbmPc) : Bool := x.retry.any (fun r => decide (2 ≤ r.alerts))

/-- A frame of queue `q` of region `n` whose withdrawn copy lies in staging goes back to its place in the sump. -/
def State.withdrawSump (s : State) (n q : Nat) (k : FKey) : State :=
  let x := s.queue n q
  let mine := fun (e : QEnt) => decide (e.place = .staging) && decide (e.frame.key = k)
  match x.ents.find? mine with
  | none => s
  | some e =>
    let s := s.setQueue n q { x with ents := mapFirst mine (fun e => { e with place := .sump }) x.ents }
    let pages := e.pages.filter (fun p => !(p ∈ (s.rx n).pages)) ++ (s.rx n).pages
    (s.setRx n { s.rx n with pages := pages }).wf (CIS_SUMP_USED.PAGES_USED n) pages.length

/-- A command-parity alert on channel `c`. `passes` are the contexts (engine of the two, pump, context) and `staged` the frames (region of
the two, queue, key) that withdrawn data fed. -/
def parityAlert (st c : Nat) (passes : List (Bool × Nat × Nat)) (staged : List (Bool × Nat × FKey)) (s : State) : State :=
  let state := s.chState st c
  if !(state = hcActive || state = hcSlice || state = hcReplay) then s else
  let s := ((s.hbmErr (HBM_ERR.CMD_PARITY st) st (hbmLoc (2 * c) 0 0) 1).detParity).addSat (HBM_CH_CNT.REPLAYS st c) 1
  let third := (s.hpc st (2 * c)).third || (s.hpc st (2 * c + 1)).third
  let s := (s.markRetry st (2 * c)).markRetry st (2 * c + 1)
  let s := passes.foldl (fun s p =>
    let e := 2 * st + b2n p.1
    match s.ctx e p.2.1 p.2.2 with
    | none => s
    | some k => s.abandon e p.2.1 p.2.2 k 0x12) s
  let s := staged.foldl (fun s p => s.withdrawSump (2 * st + b2n p.1) p.2.1 p.2.2) s
  if third then s.fenceCh st c 2
  else
    let s := (s.issueHbm st (2 * c) preAll).issueHbm st (2 * c + 1) preAll
    let s := s.ev (130 + st) 0x15 (some c) 1 s.strokeNow (hbmLoc (2 * c) 0 0)
    (s.setChState st c hcReplay).replayDone st c

/-- The oldest command of the retry buffer is retired, 40 ns after its issue (R485). -/
def retryRetire (st q : Nat) (s : State) : State := s.setHpc st q { s.hpc st q with retry := (s.hpc st q).retry.drop 1 }

/-! ### Retraining and fencing by the host (R488 to R491) -/

/-- A write of RETRAIN. -/
def State.retrain (s : State) (st c : Nat) : State :=
  if s.chState st c = hcActive && !s.rb (HBM_CH_STATUS.RETRAINING st c) then
    (s.wf (HBM_CH_STATUS.RETRAINING st c) 1).wf (HBM_CH_STATUS.SLICES st c) 0
  else s.hbmNote (HBM_ERR.CFG_IGNORED st) st (some c)

/-- A write of FENCE acts in every state except RESET and FENCED. -/
def State.hostFence (s : State) (st c : Nat) : State :=
  if s.chState st c = 0 || s.chState st c = hcFenced then s else s.fenceCh st c 3

/-- A write of `HBM_CH_CTRL[c]`; RETRAIN is taken before FENCE. -/
def chCtrlWrite (st c : Nat) (v : Word) (s : State) : State :=
  let s := if bit v.toNat 0 then s.retrain st c else s
  if bit v.toNat 1 then s.hostFence st c else s

/-- A retrain slice begins (0), ends with more to come (1), ends the retrain with a working setting (2) or without one (3). -/
def retrainSlice (st c what : Nat) (s : State) : State :=
  if !s.rb (HBM_CH_STATUS.RETRAINING st c) then s
  else if what = 0 then
    if s.chState st c = hcActive && !s.hbmBusy st then (s.setChState st c hcSlice).addSat (HBM_CH_STATUS.SLICES st c) 1 else s
  else if s.chState st c != hcSlice then s
  else if what = 1 then s.setChState st c hcActive
  else if what = 2 then ((s.setChState st c hcActive).wf (HBM_CH_STATUS.RETRAINING st c) 0).chEvent st c
  else (s.hbmErr (HBM_ERR.TRAIN_FAIL st) st (hbmLoc (2 * c) 0 0) 2).fenceCh st c 1

/-! ### Frequency change (R492, R493) -/

/-- Pseudo-channel `q` goes into self-refresh: its issued commands are retired, then all banks are precharged and refreshed once
(Table HB-7). What waits for replay finds every row closed. -/
def State.pcSelfRefresh (s : State) (st q : Nat) : State :=
  let s := s.setHpc st q { s.hpc st q with retry := [], replay := replayFrom [] (s.hpc st q).replay }
  let s := (s.issueHbm st q preAll).issueHbm st q { cmd := { op := .refAll } }
  s.setHpc st q { s.hpc st q with retry := [] }

/-- A live channel of a stack enters self-refresh. -/
def State.selfRefresh (s : State) (st c : Nat) : State :=
  if bit (s.rf (HBM_STATUS.LIVE_CH st)) c then
    ((s.pcSelfRefresh st (2 * c)).pcSelfRefresh st (2 * c + 1)).setChState st c hcSelfref
  else s

/-- A write of `HBM_FREQ_CTRL`: TARGET is stored; GO starts the change or is refused. -/
def freqCtrlWrite (st : Nat) (v : Word) (s : State) : State :=
  let s := s.wf (HBM_FREQ_CTRL.TARGET st) (bits v.toNat 0 2)
  if !bit v.toNat 2 then s
  else if s.hbmBusy st || (List.range 16).any (fun c => s.chState st c = hcSlice) || s.rf (HBM_FREQ_CTRL.TARGET st) = 0 then
    (s.wf (HBM_FREQ_CTRL.RESULT st) 1).hbmNote (HBM_ERR.CFG_IGNORED st) st
  else
    let s := (s.wf (HBM_FREQ_CTRL.BUSY st) 1).setHctl st { s.hctl st with rateTo := s.rf (HBM_FREQ_CTRL.TARGET st) }
    (List.range 16).foldl (fun s c => s.selfRefresh st c) s

/-- The change ends: channels whose bit of `fail` is set are fenced, the others return to service, first to what waits for replay; `us` is its length. -/
def freqComplete (st fail us : Nat) (s : State) : State :=
  if !s.hbmBusy st then s else
  let s := [(HBM_TIMING0.w st, HBM_TIMING_SHADOW0.w st), (HBM_TIMING1.w st, HBM_TIMING_SHADOW1.w st),
    (HBM_TIMING2.w st, HBM_TIMING_SHADOW2.w st), (HBM_TIMING3.w st, HBM_TIMING_SHADOW3.w st)].foldl
      (fun s p => s.setReg p.1 (s.reg p.2)) s
  let s := s.wf (HBM_STATUS.RATE st) (s.hctl st).rateTo
  let mine := (List.range 16).filter (fun c => s.chState st c = hcSelfref)
  let s := mine.foldl (fun s c => if bit fail c then s.fenceCh st c 1 else (s.setChState st c hcReplay).replayDone st c) s
  let s := (s.wf (HBM_FREQ_CTRL.BUSY st) 0).wf (HBM_FREQ_CTRL.RESULT st) (if mine.any (bit fail) then 2 else 0)
  let s := s.wf (HBM_FREQ_CTRL.STAY_US st) us
  s.raise (0xE11 + st * 0x40) (s.reg (HBM_FREQ_CTRL.w st)).toNat

/-! ### Meanings -/

def execHbmCommandIssue (st : Stack) (q : PseudoCh) (ready : BitVec 7) (w : HbmSlot) (s : State) : Host.Outcome State Fault Refusal :=
  .next (if s.alive || s.halted then hbmIssue st q ready.toNat w s else s)

def execHbmReadReturn (st : Stack) (q : PseudoCh) (i : BitVec 8) (bad : Bool) (s : State) : Host.Outcome State Fault Refusal :=
  .next (if s.alive || s.halted then hbmReturn st q i.toNat bad s else s)

def execPerBankRefresh (st : Stack) (q : PseudoCh) (post : Bool) (s : State) : Host.Outcome State Fault Refusal :=
  .next (if s.alive || s.halted then perBankRefresh st q post s else s)

def execHbmTempRead (st : Stack) (t : Byte) (s : State) : Host.Outcome State Fault Refusal :=
  .next (if s.alive || s.halted then hbmTemp st t.toNat s else s)

def execRefreshWindowStart (st : Stack) (s : State) : Host.Outcome State Fault Refusal :=
  .next (if s.alive || s.halted then refreshWindow st s else s)

def execNeighbourRefresh (st : Stack) (q : PseudoCh) (bank : BitVec 5) (s : State) : Host.Outcome State Fault Refusal :=
  .next (if s.alive || s.halted then neighbourRefresh st q bank.toNat s else s)

def execRetryRetire (st : Stack) (q : PseudoCh) (s : State) : Host.Outcome State Fault Refusal :=
  .next (if s.alive || s.halted then retryRetire st q s else s)

def execCmdParityAlert (st : Stack) (c : Channel) (passes : List (Bool × Fin 32 × Oct))
    (staged : List (Bool × BitVec 14 × BitVec 48 × BitVec 10 × BitVec 16)) (s : State) : Host.Outcome State Fault Refusal :=
  .next (if s.alive then
    parityAlert st c (passes.map (fun p => (p.1, p.2.1.val, p.2.2.val)))
      (staged.map (fun p => (p.1, p.2.1.toNat, ⟨p.2.2.1.toNat, p.2.2.2.1.toNat, p.2.2.2.2.toNat⟩))) s
  else s)

def execRetrain (st : Stack) (c : Channel) (v : Word) (s : State) : Host.Outcome State Fault Refusal :=
  .next (onWrite (chCtrlWrite st c (BitVec.ofNat 32 (putBits v.toNat 0 1 1))) s)

def execRetrainSlice (st : Stack) (c : Channel) (what : Fin 4) (s : State) : Host.Outcome State Fault Refusal :=
  .next (if s.alive || s.halted then retrainSlice st c what s else s)

def execFence (st : Stack) (c : Channel) (v : Word) (s : State) : Host.Outcome State Fault Refusal :=
  .next (onWrite (chCtrlWrite st c (BitVec.ofNat 32 (putBits v.toNat 1 1 1))) s)

def execFreqChangeGo (st : Stack) (v : Word) (s : State) : Host.Outcome State Fault Refusal :=
  .next (onWrite (freqCtrlWrite st (BitVec.ofNat 32 (putBits v.toNat 2 1 1))) s)

def execFreqChangeComplete (st : Stack) (fail : BitVec 16) (us : Byte) (s : State) : Host.Outcome State Fault Refusal :=
  .next (if s.alive then freqComplete st fail.toNat us.toNat s else s)

end Sys2Proof.Machine
end

