-- ==== Sys2Proof/Machine/Pair.lean ====
section
/-! DEFINITION. The redundancy pair (file 16): HELLOs, the interlock and claims, the stroke ledger, digests, joining lockstep, handover and
revert, faulty interlock inputs and table captures. The pair logic runs while the chip is Running (R607). -/

namespace Sys2Proof.Machine

/-- `PAIR_CFG.MODE` as it acts (Table RD-9). -/
def State.pairCfg (s : State) : Nat := if s.rf PAIR_CFG.MODE = 3 then 0 else s.rf PAIR_CFG.MODE

/-- The pair lanes are UP. -/
def State.pairLanes (s : State) : Bool := (s.link 8 0).state = lkUp

/-- The words of the configuration fingerprint (R541). -/
def State.printWords (s : State) : List Nat :=
  [s.rf CHIP_ID.HBM_GIB, s.rf CHIP_STROKE_CFG.LEN, s.rf CHIP_STROKE_CFG.EFF_RECIRC_LAG, s.rf CHIP_STROKE_CFG.VERDICT_LAG,
    s.rf SP_CFG.WINDOW_NS, s.rf (FE_HASH_SEED.SEED 0), s.rf (FE_HOME_SEED.SEED 0), s.rf (TBL_HASH_SEED.SEED 0),
    s.rf (TBL_CFG.NH_BUCKETS 0), s.rf PAIR_CFG.MODE, s.rf PAIR_CFG.DIGEST_FULL]

/-- FPRINT. -/
def State.fprint (s : State) : Nat := crc32c (s.printWords.flatMap (bytesLE 4))

/-- A pair frame from its destination address to the end of its body (R530). -/
def pairFrame (kind seq : Nat) (body : List Byte) : List Byte :=
  List.replicate 6 0xFF ++ List.replicate 6 0 ++ [0x88, 0xB5] ++ (bytesLE 2 kind).reverse ++ (bytesLE 4 seq).reverse ++ body

/-- Send a pair frame while the pair lanes are UP; in quiet the transmitter leaves it first (R123), and in far-end loopback it does not reach the
lanes (Table SL-10). The fields of a body are little-endian, as Table RD-5 says of the ledger's (DESIGN CHOICE, log entry 222). -/
def State.sendPair (s : State) (kind : Nat) (body : List Byte) : State :=
  if s.pairLanes then
    let s := if s.rb (LANE_PORT_STATUS.TX_QUIET 8 0) then (s.emit (.quiet 1024 2)).wf (LANE_PORT_STATUS.TX_QUIET 8 0) 0 else s
    let s := if s.farLoop 8 0 then s else s.emit (.pair (pairFrame kind s.pairx.txSeq body))
    s.setPairx { s.pairx with txSeq := (s.pairx.txSeq + 1) % 2 ^ 32 }
  else s

/-! ### The interlock (R532 to R535) -/

/-- PAIR_HOLD_IN is treated as held (R549). -/
def State.lineHeld (s : State) : Bool := s.pairx.heldIn || s.pairx.chatter

/-- A held line is acted on at once: the gate closes, and an Active device stands by (R533, Table RD-4). -/
def State.actHeld (s : State) : State :=
  let s := (s.setPairx { s.pairx with released := false }).closeGate
  if s.pairRuns && s.pairState = 1 then
    let s := (s.releasePair).setPairx { s.pairx with yieldAt := none, led := [], ledNext := none }
    (s.pairErr PAIR_ERR.CONFLICT).setPairState 2
  else s

/-- R534 step 1 holds, and no claim or back-off is in progress. -/
def State.mayClaim (s : State) : Bool :=
  s.pairRuns && s.pairState != 1 && !s.rb PAIR_STATUS.HOLD_OUT && s.pairx.released && !s.lineHeld &&
    !(s.rb PAIR_STATUS.LINK && s.pairx.peerHolding) && !s.pairx.claiming && !s.pairx.backoff

/-- Every record below H is here and matched. -/
def State.handoverDone (s : State) (h : Nat) : Bool :=
  s.pairx.recs.isEmpty && decide ((s.rf PAIR_LAST_LEDGER.STROKE + 1) % 2 ^ 48 = h)

/-- Step 2 of a claim: drive PAIR_HOLD_OUT (Table RD-7: the ledger is left at once). A unit that a YIELD_ACK names takes the ledger's keys through
H − 1 first (R546). -/
def State.startClaim (s : State) : State :=
  let s := if s.pairx.yieldAt.all s.handoverDone then s.leaveLedger else s
  (s.wf PAIR_STATUS.HOLD_OUT 1).setPairx { s.pairx with claiming := true }

/-- A claim that the device makes by itself (R536, R546). -/
def State.autoClaim (s : State) : State :=
  if s.mayClaim && (s.pairState = 0 || s.pairx.acked || s.rb PAIR_CFG.AUTO_TAKEOVER) then s.startClaim else s

/-- PAIR_HOLD_IN changes level; while Halted the pair logic does not act on it, and BAR0 keeps what it showed (R472, R536). -/
def holdInChange (held : Bool) (s : State) : State :=
  if s.pairx.heldIn = held then s
  else
    let s := s.setPairx { s.pairx with heldIn := held, released := s.pairx.released && !held }
    if s.halted then s
    else
      let s := s.wb PAIR_STATUS.HOLD_IN s.lineHeld
      if held then s.actHeld else s

/-- PAIR_HOLD_IN has read released for RELEASE_US. -/
def releaseExpiry (s : State) : State :=
  if s.halted || s.lineHeld then s
  else
    let s := s.setPairx { s.pairx with released := true }
    let s := if s.pairRuns && s.pairState = 0 && s.rb PAIR_STATUS.HOLD_OUT && !s.pairx.claiming then s.wf PAIR_STATUS.GATE 1 else s
    s.autoClaim

/-- The device becomes Active: its ledger begins at its first own stroke (R546). -/
def State.becomeActive (s : State) : State :=
  let cold := s.pairMode = 2
  let matching := s.rb CHIP_STROKE_CFG.SRC_LEDGER
  let first := if cold then s.strokeNow else if matching then s.ownFrom else s.pairx.ledNext.getD s.strokeNow
  let x := s.pairx
  let s := s.setPairx { x with
    acked := false, joinAt := none, yieldAt := if matching then x.yieldAt else none, holdoff := none, recs := if matching then x.recs else [],
    peerDigs := [], led := if cold then [] else x.led, ledNext := some first, digNext := some (first / 1024),
    floor := if cold then none else x.floor, coldFrom := none }
  s.setPairState 1

/-- Steps 3 and 4 of a claim, 1 µs after the line was driven. -/
def claimConfirm (s : State) : State :=
  if !s.pairRuns || !s.pairx.claiming then s
  else
    let s := s.setPairx { s.pairx with claiming := false }
    if !s.lineHeld then
      let s := s.wf PAIR_STATUS.GATE 1
      if s.pairState = 0 then s else s.becomeActive
    else
      let s := (s.releasePair).setPairx { s.pairx with backoff := true }
      let s := s.wb CHIP_STROKE_CFG.SRC_LEDGER (s.pairMode = 3)
      (s.count (PAIR_CNT.COUNT 5) s.strokeNow).pairErr PAIR_ERR.CLAIM_FAIL

/-- The back-off of R534 ends. -/
def backoffExpiry (s : State) : State :=
  if s.pairRuns && s.pairx.backoff then (s.setPairx { s.pairx with backoff := false }).autoClaim else s

/-- The pair state on every entry to Running (R536). -/
def State.pairStart (s : State) : State :=
  let s := s.setPairx { s.pairx with
    claiming := false, backoff := false, acked := false, joinAt := none, yieldAt := none, held := [], recs := [], led := [],
    ledNext := none, floor := none, peerDigs := [], digNext := none, holdoff := none, arrived := [], ownSince := none, coldFrom := none }
  let s := s.wb PAIR_STATUS.HOLD_IN s.lineHeld
  let st := if s.pairCfg = 0 then 0 else 2
  let s := s.wf CHIP_STROKE_CFG.SRC_LEDGER 0
  (if s.pairState = st then s else s.setPairState st).autoClaim

/-- The pair logic stops as the chip leaves Running (R607); frames not yet matched are discarded. -/
def State.pairStop (s : State) : State :=
  let held := s.pairx.held
  let s := (s.releasePair).setPairx { s.pairx with claiming := false, backoff := false, held := [] }
  held.foldl (fun s h => s.txRefused h.frame) s

/-! ### HELLO and the pair link (R530, R531, R541, R549) -/

/-- The device sends a HELLO. -/
def helloSend (s : State) : State :=
  if !s.pairRuns then s
  else
    let s := s.showHealth
    let b := s.pairState + 8 * s.rf PAIR_STATUS.HOLD_OUT + 16 * s.rf PAIR_CFG.PREFERRED + 32 * s.rf PAIR_STATUS.HEALTHY
    s.sendPair 1 (bytesLE 1 b ++ bytesLE 6 s.strokeNow ++ bytesLE 4 s.fprint)

/-- A pair frame arrives: one with a bad FCS is dropped, and a gap in SEQ ends lockstep (R530, R542). The Bool says that it is taken. -/
def State.pairArrive (s : State) (chk : PairCheck) (seq : Nat) : State × Bool :=
  if !s.pairRuns || !s.pairLanes || chk.etherType != 0x88B5 then (s, false)
  else if !chk.fcs then (s.ev 136 0x12 none 1 s.strokeNow (s.strokeNow * 2 ^ 32), false)
  else
    let gap := s.pairx.rxSeq.any (fun q => (q + 1) % 2 ^ 32 != seq)
    let s := if gap then s.loseIfLockstep 1 else s
    (s.setPairx { s.pairx with rxSeq := some seq }, true)

/-- A HELLO is taken. -/
def State.hello (s : State) (h : HelloRx) : State :=
  let st := h.state.toNat
  let x := s.pairx
  let s := s.setPairx { x with
    hello := true, peerHolding := h.holding, peerPreferred := h.preferred, peerHealthy := h.healthy, peerStroke := h.stroke.toNat,
    peerPrint := h.fprint.toNat, peerBase := if st = 4 then x.peerBase else st }
  let s := (s.wf PAIR_STATUS.PEER_STATE st).wf PAIR_STATUS.LINK 1
  let differs := h.fprint.toNat != s.fprint
  let s := if differs then s.loseIfLockstep 5 else s
  let s := if differs || (h.preferred && s.rb PAIR_CFG.PREFERRED) then s.pairErr PAIR_ERR.CFG_MISMATCH else s
  let s := if h.holding && !s.pairx.heldIn then s.pairErr PAIR_ERR.HOLD_DISAGREE else s
  (s.showHealth).autoClaim

/-- A HELLO arrives. -/
def helloReceive (h : HelloRx) (s : State) : State :=
  match s.pairArrive h.check h.seq.toNat with
  | (s, false) => s
  | (s, true) => s.hello h

/-- No valid HELLO for 100 µs (R531). -/
def linkTimeout (s : State) : State :=
  if s.pairRuns && s.rb PAIR_STATUS.LINK then
    ((s.wf PAIR_STATUS.LINK 0).setPairx { s.pairx with hello := false, rxSeq := none }).loseIfLockstep 5 |>.showHealth.autoClaim
  else s

/-! ### The stroke ledger (R538, R539) -/

/-- Insert into a list by the order `le`. -/
def insertBy {α : Type} (le : α → α → Bool) (a : α) : List α → List α
  | [] => [a]
  | b :: l => if le a b then a :: b :: l else b :: insertBy le a l

/-- Sort a list by the order `le`. -/
def sortBy {α : Type} (le : α → α → Bool) (l : List α) : List α := l.foldr (insertBy le) []

/-- The ledger record of a stroke (Table RD-5). -/
def ledgerBytes (x : LedX) : List Byte :=
  let counts := x.counts.filter (fun p => decide (p.1 < 528) && p.2 != 0)
  let skips := sortBy (fun a b => decide (a.1 < b.1) || (a.1 = b.1 && decide (a.2.1 ≤ b.2.1))) x.skips
  let shown := skips.take 256
  let fcsd := crc32c ((sortBy (fun a b => decide (a.1 ≤ b.1)) x.fcs).flatMap (fun p => bytesLE 4 p.2))
  let ports := counts.foldl (fun a p => a + 2 ^ p.1) 0
  let body := bytesLE 6 x.stroke ++ bytesLE 2 (b2n (decide (256 < skips.length))) ++ bytesLE 2 counts.length ++ bytesLE 2 shown.length ++
    bytesLE 4 fcsd ++ bytesLE 72 ports ++ counts.flatMap (fun p => bytesLE 2 p.2) ++
    shown.flatMap (fun k => bytesLE 4 (k.2.1 + 2 ^ 16 * k.1 + 2 ^ 26 * k.2.2))
  body ++ List.replicate ((8 - body.length % 8) % 8) 0

/-- What is kept of a stroke. -/
def ledOf (t : Nat) (l : List LedX) : LedX := (l.find? (fun x => x.stroke = t)).getD { stroke := t }

/-- Every port's stamping for stroke `t` is final: its cell's copy of the ordering source has passed it (R538, R511). -/
def State.stampsDone (s : State) (t : Nat) : Bool :=
  strokeLt t s.strokeNow && (List.range 512).all (fun p =>
    !s.regionRuns (p / 64) || s.portWidth (p / 64) (p % 64) = 0 || strokeLt t (s.heldStroke p s.cellCycles))

/-- The active sends the record of the next stroke that has ended. -/
def ledgerSend (s : State) : State :=
  match s.pairx.ledNext with
  | none => s
  | some t =>
    if !s.pairRuns || !s.sendsLedger || s.rb CHIP_STROKE_CFG.SRC_LEDGER || !s.pairLanes || !s.stampsDone t then s
    else
      let d := ledgerBytes (ledOf t s.pairx.led)
      let s := s.sendPair 2 d
      let x := s.pairx
      let s := s.setPairx { x with ledNext := some ((t + 1) % 2 ^ 48), led := x.led.filter (fun y => y.stroke != t && !strokeLt y.stroke t) }
      (s.count (PAIR_CNT.COUNT 0) t).ev 136 0x10 none 1 t t

/-- The slots of a record, in the order of the match: refused ones left out (R539). -/
def ledgerSlots (r : LedgerRec) : List (Nat × Nat × Bool) :=
  r.counts.flatMap (fun p =>
    (List.range p.2.toNat).filterMap (fun q =>
      match r.skips.find? (fun k => decide (k.2.1 = p.1) && decide (k.1.toNat = q)) with
      | some k => if k.2.2 then some (p.1.toNat, q, true) else none
      | none => some (p.1.toNat, q, false)))

/-- Lockstep may be entered: MODE = 2, and the FPRINT values match (R536, R541). -/
def State.lockOk (s : State) : Bool := s.rf PAIR_CFG.MODE = 2 && s.pairx.peerPrint = s.fprint

/-- The device enters Standby-Lockstep at stroke `y` (R545, R546); frames of stroke `y` and later wait for their records already. -/
def State.enterLockstep (s : State) (y enforce : Nat) : State :=
  let s := s.setPairx { s.pairx with
    coldFrom := none, joinAt := none, yieldAt := none, acked := false, recs := [], led := [], ledNext := none, floor := none, peerDigs := [],
    digNext := none, enforce := enforce, arrived := [((y + (2 ^ 48 - 1)) % 2 ^ 48, s.time.tick)], ownSince := none }
  (s.wf PAIR_LAST_LEDGER.STROKE ((y + (2 ^ 48 - 1)) % 2 ^ 48)).setPairState 3

/-- Stroke Y of an accepted JOIN is reached. -/
def State.joinNow (s : State) : State :=
  match s.pairx.joinAt with
  | none => s
  | some y =>
    if s.pairState != 2 then s.setPairx { s.pairx with joinAt := none }
    else if !s.lockOk || !s.rb PAIR_STATUS.LINK then
      (s.setPairx { s.pairx with joinAt := none }).pairErr PAIR_ERR.JOIN_REJECT
    else (s.withDigs []).enterLockstep y ((y + s.rf PAIR_CONVERGE.STROKES) % 2 ^ 48)

/-- Arrivals that a region's deadline can still need, with that of stroke `t` now (R539). -/
def State.noteArrival (s : State) (t : Nat) : State :=
  let needed := fun (p : Nat × Nat) => (List.range 8).any (fun n => s.regionRuns n && strokeLe (s.wm n) p.1)
  s.setPairx { s.pairx with arrived := s.pairx.arrived.filter needed ++ [(t, s.time.tick)] }

/-- A record is taken in Standby-Lockstep. -/
def State.ledgerTake (s : State) (r : LedgerRec) : State :=
  let t := r.stroke.toNat
  if t != (s.rf PAIR_LAST_LEDGER.STROKE + 1) % 2 ^ 48 then s.loseLockstep 1 0
  else
    let s := (s.wf PAIR_LAST_LEDGER.STROKE t).noteArrival t
    if r.lossy then s.loseLockstep 3 0
    else
      (s.setPairx { s.pairx with recs := s.pairx.recs ++ [⟨t, r.fcsd.toNat, 0xFFFFFFFF, ledgerSlots r⟩] }).matchAll

/-- One ledger record arrives. -/
def State.ledgerRec (s : State) (r : LedgerRec) : State :=
  let t := r.stroke.toNat
  let s := (s.count (PAIR_CNT.COUNT 1) t).ev 136 0x11 none 1 t t
  let s := if s.pairx.joinAt.any (fun y => strokeLe y t) then s.joinNow else s
  if s.rb CHIP_STROKE_CFG.SRC_LEDGER then s.ledgerTake r else s

/-- A LEDGER frame arrives. -/
def ledgerReceive (chk : PairCheck) (seq : Nat) (recs : List LedgerRec) (s : State) : State :=
  match s.pairArrive chk seq with
  | (s, false) => s
  | (s, true) => recs.foldl State.ledgerRec s

/-- A held frame has waited LEDGER_LAG_US (R542). -/
def ledgerLag (s : State) : State :=
  if s.pairRuns && s.rb CHIP_STROKE_CFG.SRC_LEDGER &&
      s.pairx.held.any (fun h => decide (h.at_ + 1000 * s.rf PAIR_TIMER_CFG.LEDGER_LAG_US ≤ s.time.tick)) then s.loseLockstep 4 0
  else s

/-! ### Digests (R543, R544) -/

/-- Digest period `k` has closed. -/
def State.digClosed (s : State) (k : Nat) : Bool :=
  let last := (1024 * k + 1023) % 2 ^ 48
  (List.range 8).all (fun n => !s.regionRuns n || s.wmPassed n last) && strokeLe last (s.rf SP_RELEASED.STROKE)

/-- The 16 sums of a period. -/
def State.digSums (s : State) (k : Nat) : List Nat := (List.range 16).map (fun i => mget 0 s.digs (k * 16 + i))

/-- Forget the sums of the periods up to `k`; there are 2^38 periods in the 2^48 strokes. -/
def State.digForget (s : State) (k : Nat) : State :=
  s.withDigs (s.digs.filter (fun p => strokeLt (1024 * k) (1024 * (p.1 / 16))))

/-- The active sends the sums of the period that has closed. -/
def digestSend (s : State) : State :=
  match s.pairx.digNext with
  | none => s
  | some k =>
    if !s.pairRuns || !s.sendsLedger || !s.pairLanes || !s.digClosed k then s
    else
      let s := (s.sendPair 3 (bytesLE 6 k ++ (s.digSums k).flatMap (bytesLE 8))).digForget k
      s.setPairx { s.pairx with digNext := some ((k + 1) % 2 ^ 38) }

/-- Compare a period's sums with the active's; `late` says that the own sums were not ready in time. -/
def State.digCompare (s : State) (k : Nat) (sums : List Nat) (late : Bool) : State :=
  let own := s.digSums k
  let bad := findIdx (fun i => own.getD i 0 != sums.getD i 0) (List.range 16)
  let s := (s.wf PAIR_DIGEST_CNT.PERIODS (s.rf PAIR_DIGEST_CNT.PERIODS + 1)).digForget k
  if bad.isNone && !late then s
  else if strokeLe s.pairx.enforce (1024 * k % 2 ^ 48) then s.loseLockstep 7 (bad.getD 0)
  else s.addSat PAIR_DIGEST_CNT.MISMATCHES 1

/-- Compare what waits and is ready. -/
def State.digReady (s : State) : State :=
  (s.pairx.peerDigs.filter (fun p => s.digClosed p.1)).foldl (fun s p =>
    if s.pairMode = 3 && p ∈ s.pairx.peerDigs then
      (s.setPairx { s.pairx with peerDigs := s.pairx.peerDigs.filter (fun q => q.1 != p.1) }).digCompare p.1 p.2 false
    else s) s

/-- A DIGEST frame arrives. -/
def digestReceive (chk : PairCheck) (seq period : Nat) (sums : List Nat) (s : State) : State :=
  match s.pairArrive chk seq with
  | (s, false) => s
  | (s, true) =>
    if s.pairMode = 3 then (s.setPairx { s.pairx with peerDigs := s.pairx.peerDigs ++ [(period, sums)] }).digReady else s

/-- The oldest DIGEST that waits has waited 100 µs. -/
def digestTimeout (s : State) : State :=
  match s.pairx.peerDigs with
  | [] => s
  | (k, sums) :: l =>
    if s.pairRuns && s.pairMode = 3 then (s.setPairx { s.pairx with peerDigs := l }).digCompare k sums (!s.digClosed k) else s

/-! ### Joining, yielding and reverting (R545 to R548) -/

/-- A write of JOIN. -/
def State.join (s : State) : State :=
  let y := s.rf PAIR_JOIN_STROKE.STROKE
  if s.pairRuns && s.pairState = 2 && decide (s.rf PAIR_CFG.MODE = 2) && s.rb PAIR_STATUS.LINK && decide (s.pairx.peerPrint = s.fprint) &&
      decide (s.rf PAIR_STATUS.PEER_STATE = 1) && leadOk s.pairx.peerStroke y then
    s.setPairx { s.pairx with joinAt := some y }
  else s.pairErr PAIR_ERR.JOIN_REJECT

/-- The Active device hands over by its peer's state (R546); a Reverting peer acts as the state it came from. -/
def State.yieldNow (s : State) : State :=
  let peer := if s.rf PAIR_STATUS.PEER_STATE = 4 then s.pairx.peerBase else s.rf PAIR_STATUS.PEER_STATE
  if s.pairx.yieldAt.isSome then s
  else if peer = 3 then
    let h := (s.strokeNow + 64) % 2 ^ 48
    (s.setPairx { s.pairx with yieldAt := some h }).sendPair 5 (bytesLE 6 h)
  else if peer = 2 then
    let s := (s.sendPair 5 (bytesLE 6 0)).releasePair
    (s.setPairx { s.pairx with led := [], ledNext := none, floor := none }).setPairState 2
  else s

/-- A write of YIELD: ignored unless the device is Active with the pair link up. -/
def State.hostYield (s : State) : State :=
  if s.pairRuns && s.pairState = 1 && s.rb PAIR_STATUS.LINK then s.yieldNow else s.pairErr PAIR_ERR.CFG_IGNORED

/-- A write of CLAIM: in a standby state, when R534 step 1 holds. -/
def State.hostClaim (s : State) : State :=
  if s.mayClaim && s.pairState != 0 then s.startClaim else s

/-- A write of `PAIR_CTRL`. -/
def pairCtrlWrite (v : Word) (s : State) : State :=
  let s := if bit v.toNat 0 then s.hostClaim else s
  let s := if bit v.toNat 1 then s.hostYield else s
  if bit v.toNat 2 then s.join else s

/-- A YIELD_REQ arrives. -/
def yieldReq (chk : PairCheck) (seq : Nat) (s : State) : State :=
  match s.pairArrive chk seq with
  | (s, false) => s
  | (s, true) => if s.pairState = 1 then s.yieldNow else s

/-- A YIELD_ACK arrives: the unit claims after the release. -/
def yieldAck (chk : PairCheck) (seq h : Nat) (s : State) : State :=
  match s.pairArrive chk seq with
  | (s, false) => s
  | (s, true) =>
    if s.pairState = 0 || s.pairState = 1 then s
    else (s.setPairx { s.pairx with acked := true, yieldAt := if s.pairMode = 3 then some h else none }).autoClaim

/-- Stroke H of a handover: the new active takes its own strokes once the records below H are matched; the old one stands by in lockstep once its
record of H − 1 is sent, or in Standby-Cold where the FPRINT values no longer let it into lockstep (R541). -/
def handoverStroke (s : State) : State :=
  match s.pairx.yieldAt with
  | none => s
  | some h =>
    if !s.pairRuns then s
    else if s.rb CHIP_STROKE_CFG.SRC_LEDGER then (if s.handoverDone h then s.leaveLedger else s)
    else if s.pairState = 1 && strokeLe h s.strokeNow && (!s.sendsLedger || s.pairx.ledNext.any (fun t => strokeLe h t)) then
      if s.lockOk then (s.releasePair).enterLockstep h h
      else
        let held := s.pairx.held
        let s := (s.releasePair).setPairx { s.pairx with yieldAt := none, led := [], ledNext := none, floor := none, held := [] }
        (held.foldl (fun s x => s.txRefused x.frame) s).setPairState 2
    else s

/-- A Reverting unit has had no YIELD_ACK for 1 ms. -/
def revertTimeout (s : State) : State :=
  if s.pairRuns && s.pairState = 4 && !s.pairx.acked then (s.setPairState s.pairx.back).pairErr PAIR_ERR.REVERT_FAIL else s

/-- The conditions of a reversion have held for HOLDOFF_S. -/
def State.holdoffOver (s : State) : Bool :=
  s.mayRevert && s.pairx.holdoff.any (fun t => decide (t + 10 ^ 9 * s.rf PAIR_CFG.HOLDOFF_S ≤ s.time.tick))

/-- The hold-off of a preferred standby ends. -/
def holdoffExpiry (s : State) : State :=
  if s.holdoffOver then
    ((s.setPairx { s.pairx with back := s.pairState, acked := false, holdoff := none }).setPairState 4).sendPair 4 []
  else s.showHealth

/-! ### Faulty interlock inputs (R549) -/

/-- PAIR_HOLD_IN has been held for 100 ms while HELLOs show HOLDING = 0. -/
def holdStuck (s : State) : State :=
  if s.pairRuns && s.pairx.heldIn && s.rb PAIR_STATUS.LINK && !s.pairx.peerHolding then s.pairErr PAIR_ERR.HOLD_STUCK else s

/-- More than 8 transitions within 1 ms. -/
def holdChatter (s : State) : State :=
  if !s.pairRuns then s
  else
    let s := (s.setPairx { s.pairx with chatter := true }).wf PAIR_STATUS.HOLD_IN 1
    (s.pairErr PAIR_ERR.HOLD_CHATTER).actHeld

/-- 100 ms after the last transition. -/
def chatterEnd (s : State) : State :=
  if s.pairx.chatter && !s.halted then
    let s := s.setPairx { s.pairx with chatter := false }
    s.wb PAIR_STATUS.HOLD_IN s.pairx.heldIn
  else s

/-! ### Table capture (Table RD-10) -/

/-- A write of `PAIR_CAP_CTRL`. -/
def capWrite (v : Word) (s : State) : State :=
  if !bit v.toNat 0 then s
  else
    let x := s.rf PAIR_CAP_STROKE.STROKE
    if s.rb PAIR_CAP_CTRL.BUSY || !leadOk s.strokeNow x then s.wf PAIR_CAP_CTRL.RESULT 1
    else (s.wf PAIR_CAP_CTRL.BUSY 1).setPairx { s.pairx with cap := some ⟨x, s.rf PAIR_CAP_BASE.ADDR * 2 ^ 12⟩ }

/-- Take back, newest first, the changes of frames of stroke `x` or later and of commands after stroke `x`. -/
def undoFrom (x : Nat) : List TblChange → Nat → Nat
  | [], v => v
  | c :: l, v => if (if c.byFrame then strokeLt c.stroke x else strokeLe c.stroke x) then v else undoFrom x l c.old

/-- An endpoint slot as it stood at boundary `x`. -/
def State.epAt (s : State) (n x i : Nat) : Nat :=
  undoFrom x ((s.tbl n).log.filter (fun c => c.slot = i)).reverse (s.ep n i)

/-- Table block `n` writes its endpoint slots, 16 bytes each, from address `a`. -/
def State.captureBlock (s : State) (n x a : Nat) : State :=
  let s := s.withHostMem (s.hostMem.filter (fun p => decide (p.1 < a) || decide (a + 2 ^ 24 ≤ p.1)))
  let idx := (s.heldSlots n ++ ((s.tbl n).log.map (·.slot)).filter (fun i => decide (i < 2 ^ 20))).eraseDups
  idx.foldl (fun s i => s.hostWrite (a + 16 * i) (bytesLE 16 (s.epAt n x i))) s

/-- Table block `n` has reached boundary `x`. -/
def State.capReached (s : State) (n x : Nat) : Bool :=
  let t := (x + (2 ^ 48 - 1)) % 2 ^ 48
  !s.running || !s.regionRuns n || (s.wmPassed n t && s.sweptTo n x && !s.hitsHeld n t &&
    !((s.tbl n).learns.any (fun q => strokeLt q.key.stroke x)) && !((s.tbl n).sched.any (fun c => strokeLe c.stroke x)))

/-- The armed capture runs; `err` says that one of its writes failed. -/
def tableCapture (err : Bool) (s : State) : State :=
  match s.pairx.cap with
  | none => s
  | some c =>
    if !strokeLe c.stroke s.strokeNow || !(List.range 8).all (fun n => s.capReached n c.stroke) then s
    else
      let s := (List.range 8).foldl (fun s n =>
        if s.regionRuns n then (s.applyHits n (fun k => strokeLt k.stroke c.stroke)).captureBlock n c.stroke (c.base + n * 2 ^ 24) else s) s
      let skipped := (List.range 8).any (fun n => !s.regionRuns n)
      let s := (s.wf PAIR_CAP_CTRL.RESULT (if err then 2 else if skipped then 3 else 0)).wf PAIR_CAP_CTRL.BUSY 0
      (s.setPairx { s.pairx with cap := none }).raise 0xF13 (s.reg PAIR_CAP_CTRL.w).toNat

/-! ### Meanings -/

def execWatermarkAdvance (n : Region) (s : State) : Host.Outcome State Fault Refusal :=
  .next (if s.running then (watermarkAdvance n s).digReady else s)

def execHelloSend (s : State) : Host.Outcome State Fault Refusal := .next (helloSend s)

def execHelloReceive (h : HelloRx) (s : State) : Host.Outcome State Fault Refusal := .next (helloReceive h s)

def execPairLinkTimeout (s : State) : Host.Outcome State Fault Refusal := .next (linkTimeout s)

def execPairHoldInChange (held : Bool) (s : State) : Host.Outcome State Fault Refusal := .next (holdInChange held s)

def execReleaseTimerExpiry (s : State) : Host.Outcome State Fault Refusal := .next (releaseExpiry s)

def execPairClaim (v : Word) (s : State) : Host.Outcome State Fault Refusal :=
  .next (onWrite (pairCtrlWrite (BitVec.ofNat 32 (putBits v.toNat 0 1 1))) s)

def execClaimConfirm (s : State) : Host.Outcome State Fault Refusal := .next (claimConfirm s)

def execClaimBackoffExpiry (s : State) : Host.Outcome State Fault Refusal := .next (backoffExpiry s)

def execLedgerSend (s : State) : Host.Outcome State Fault Refusal := .next (ledgerSend s)

def execLedgerReceive (chk : PairCheck) (seq : BitVec 32) (recs : List LedgerRec) (s : State) : Host.Outcome State Fault Refusal :=
  .next (ledgerReceive chk seq.toNat recs s)

def execLedgerLagTimeout (s : State) : Host.Outcome State Fault Refusal := .next (ledgerLag s)

def execDigestSend (s : State) : Host.Outcome State Fault Refusal := .next (digestSend s)

def execDigestReceive (chk : PairCheck) (seq : BitVec 32) (period : BitVec 48) (sums : List (BitVec 64)) (s : State) :
    Host.Outcome State Fault Refusal :=
  .next (digestReceive chk seq.toNat period.toNat (sums.map (·.toNat)) s)

def execDigestTimeout (s : State) : Host.Outcome State Fault Refusal := .next (digestTimeout s)

def execPairJoin (v : Word) (s : State) : Host.Outcome State Fault Refusal :=
  .next (onWrite (pairCtrlWrite (BitVec.ofNat 32 (putBits v.toNat 2 1 1))) s)

/-- Stroke Y comes by the device's own strokes, or with the ledger record of a stroke from Y on (LEDGER_RECEIVE). -/
def execJoinStrokeReached (s : State) : Host.Outcome State Fault Refusal :=
  .next (if s.pairRuns && s.pairx.joinAt.any (fun y => strokeLe y s.strokeNow) then s.joinNow else s)

def execPairYield (v : Word) (s : State) : Host.Outcome State Fault Refusal :=
  .next (onWrite (pairCtrlWrite (BitVec.ofNat 32 (putBits v.toNat 1 1 1))) s)

def execYieldReq (chk : PairCheck) (seq : BitVec 32) (s : State) : Host.Outcome State Fault Refusal := .next (yieldReq chk seq.toNat s)

def execYieldAck (chk : PairCheck) (seq : BitVec 32) (h : BitVec 48) (s : State) : Host.Outcome State Fault Refusal :=
  .next (yieldAck chk seq.toNat h.toNat s)

def execHandoverStroke (s : State) : Host.Outcome State Fault Refusal := .next (handoverStroke s)

def execRevertTimeout (s : State) : Host.Outcome State Fault Refusal := .next (revertTimeout s)

def execHoldoffExpiry (s : State) : Host.Outcome State Fault Refusal := .next (holdoffExpiry s)

def execHoldStuck (s : State) : Host.Outcome State Fault Refusal := .next (holdStuck s)

def execHoldChatter (s : State) : Host.Outcome State Fault Refusal := .next (holdChatter s)

def execChatterHoldEnd (s : State) : Host.Outcome State Fault Refusal := .next (chatterEnd s)

def execPairCapArm (v : Word) (s : State) : Host.Outcome State Fault Refusal :=
  .next (onWrite (capWrite (BitVec.ofNat 32 (putBits v.toNat 0 1 1))) s)

def execTableCapture (err : Bool) (s : State) : Host.Outcome State Fault Refusal :=
  .next (if s.alive then tableCapture err s else s)

end Sys2Proof.Machine
end

