-- ==== Sys2Proof/Machine/Errors.lean ====
section
/-! DEFINITION. Error protection (file 17): host halts, region quarantine, test and rejoin, scrubbing and range passes, retirement of rows,
the error log, and the standpipe's deadline miss (R35, R250). -/

namespace Sys2Proof.Machine

/-! ### Halt and error log (R562, R583) -/

/-- A write of `CHIP_HALT_CTRL`. -/
def haltCtrlWrite (v : Word) (s : State) : State := if bit v.toNat 0 && bits v.toNat 8 8 = 0x5A then s.haltDev 0x01 else s

/-- A write of `CHIP_ERR_LOG_CTRL`. -/
def errLogWrite (v : Word) (s : State) : State := if bit v.toNat 16 then s.logClear CHIP_ERR_LOG_CTRL.VALID else s

/-! ### Deadline of the standpipe (R35, R250, R630) -/

/-- The time at which a stroke at or before the current one ended, in ordering-source ns. -/
def State.strokeEnd (s : State) (t : Nat) : Nat := (s.orderNs / s.strokeLen + 1 - strokeDiff t s.strokeNow) * s.strokeLen

/-- The deadline of stroke `t` has run out. It runs from the arrival of the stroke's ledger record (R539), or, for a stroke without one, from
its end by the device's own source and not before SRC_LEDGER cleared (R35, R548). -/
def State.strokeLate (s : State) (t : Nat) : Bool :=
  let w := s.rf SP_CFG.WINDOW_NS
  match s.pairx.arrived.find? (fun p => strokeLe t p.1) with
  | some p => decide (p.2 + w ≤ s.time.tick)
  | none => !s.rb CHIP_STROKE_CFG.SRC_LEDGER && strokeLt t s.strokeNow && decide (s.strokeEnd t + w ≤ s.orderNs) &&
      s.pairx.ownSince.all (fun k => decide (k + w ≤ s.time.tick))

/-- Region `n` has missed the deadline of its first stroke not passed. Below level 8, and for W after it is reached, the deadline has not run
out (R630). -/
def State.lateWm (s : State) (n : Nat) : Bool :=
  let t := s.wm n
  s.chip.quiesceAt != some t && s.strokeLate t && decide (s.rf (PWR_STATUS.LEVEL n) = 8) &&
    decide (mget 0 s.pwr.fullAt n + s.rf SP_CFG.WINDOW_NS ≤ s.time.tick)

/-- The watermark of region `n` misses its deadline. -/
def deadlineMiss (n : Nat) (s : State) : State :=
  if s.running && s.regionRuns n && s.lateWm n then
    let s := (s.addSat SP_LATE.MISSES 1).wf SP_LATE.LAST_REGION n
    let s := (s.raise 0x018 n).ev 129 0x11 (some n) 1 s.strokeNow (s.strokeNow * 2 ^ 32)
    s.quarantine n 1
  else s

/-! ### Quarantine by the host, test and rejoin (R564 to R569) -/

/-- A write of QUARANTINE. -/
def State.hostQuarantine (s : State) (n : Nat) : State :=
  if s.regionRuns n then
    if 2 ≤ s.quarantinedBut n then s.regErr (REG_ERR.CFG_REJECT n) n else s.drain n 4
  else if s.region n = rgRejoin then s.enterRegion n rgIsolated
  else s.regErr (REG_ERR.CFG_IGNORED n) n

/-- A write of BIST_START. -/
def State.bistStart (s : State) (n : Nat) : State :=
  if s.region n = rgIsolated then s.enterRegion n rgTest else s.regErr (REG_ERR.CFG_IGNORED n) n

/-- An ingress pipeline of the chip has a bank switch pending or draining. -/
def State.switching (s : State) : Bool :=
  (List.range 16).any (fun i => s.rb (IP_CL_STATUS.PENDING (i / 2) (i % 2)) || s.rb (IP_CL_STATUS.DRAINING (i / 2) (i % 2)))

/-- A write of REJOIN. -/
def State.rejoin (s : State) (n : Nat) : State :=
  if s.region n != rgIsolated then s.regErr (REG_ERR.CFG_IGNORED n) n
  else if leadOk s.strokeNow (s.rf (REG_REJOIN_STROKE.STROKE n)) && !s.switching then s.enterRegion n rgRejoin
  else s.regErr (REG_ERR.CFG_REJECT n) n

/-- A write of `REG_Q_CTRL`. -/
def qCtrlWrite (n : Nat) (v : Word) (s : State) : State :=
  let s := if bit v.toNat 0 then s.hostQuarantine n else s
  let s := if bit v.toNat 1 then s.bistStart n else s
  if bit v.toNat 2 then s.rejoin n else s

/-- The drain of a region completes. -/
def drainComplete (n : Nat) (s : State) : State := if s.region n = rgDrain then s.enterRegion n rgIsolated else s

/-- Zero the register words from `a` up, `k` of them, whatever their reset values. -/
def State.zeroWords (s : State) (a k : Nat) : State :=
  let zeros := (List.range k).filterMap (fun i => if resetWord (a + i) = 0 then none else some (a + i, (0 : Word)))
  s.withRegs (s.regs.filter (fun p => decide (p.1 < a)) ++ zeros ++ s.regs.filter (fun p => decide (a + k ≤ p.1)))

/-- Keep the entries of a map whose keys lie outside [a, b). -/
def outside {α : Type} (a b : Nat) (m : List (Nat × α)) : List (Nat × α) := m.filter (fun p => decide (p.1 < a) || decide (b ≤ p.1))

/-- The counters of region `n`'s pipelines, table block, flow engine, cistern and traffic manager, and the units of Table CT-1 among these, which lie
in memory 7. -/
def State.zeroCounters (s : State) (n : Nat) : State :=
  let s := [0, 1].foldl (fun s p => (s.zeroWords (IP_PARSE_EXIT_CNT.w n p 0) 144).zeroWords (IP_CL_RECIRC_DROPS.w n p) 1) s
  let s := ((s.zeroWords (TBL_CNT.w n) 1).zeroWords (FE_CNT.w n 0) 18).zeroWords (PMP_CNT.w n 0) 16
  let s := (s.zeroWords (CIS_CNT.w n 0) 24).zeroWords (TM_CNT.w n 0) 16
  ((112 + n) :: gatedUnits n).foldl (fun s u => s.zeroWords (CT_CYCLE.w u) 18) s

/-- The memories of region `n` that BAR0 shows: parser tables, control store and bindings, multicast groups and nodes, the configuration of the
traffic manager's ports, groups and classes, gate lists, policers and their profiles, the dictionary, and the counters (Table EV-5). -/
def State.zeroTables (s : State) (n : Nat) : State :=
  let s := [0, 1].foldl (fun s p =>
    ((s.zeroWords (IP_PARSE_NODE.w n p 0 0) 4096).zeroWords (IP_PARSE_TRANS.w n p 0 0) 8192).zeroWords (IP_PARSE_FKEY.w n p 0 0 0) 512) s
  let s := ((s.zeroWords (FE_DICT.w n 0) 16384).wf (FE_DICT_STATUS.VALID_COUNT n) 0).zeroWords (PMP_STORE.w n 0) 16384
  let s := ((s.zeroWords (PMP_BIND.w n 0 0) 4096).zeroWords (CIS_MC_GROUP.w n 0 0) 32768).zeroWords (CIS_MC_NODE.w n 0) 65536
  let s := ((s.zeroWords (TM_PORT.w n 0) 528).zeroWords (TM_GROUP.w n 0 0) 2112).zeroWords (TM_CLASS.w n 0) 4224
  (((s.zeroWords (TM_GATE_LIST.w n 0 0 0) 33792).zeroWords (TM_POL_PROF.w n 0) 8192).zeroWords (TM_POL.w n 0) 65536).zeroCounters n

/-- The test leaves every memory of region `n` zero (R568); the values of registers that lie in none, and retirements, are kept. -/
def State.zeroRegion (s : State) (n : Nat) : State :=
  let s := s.zeroTables n
  let s := ((s.wf (TBL_OCC.USED n) 0).wf (TBL_ROUTE_OCC.USED n) 0).wf (TBL_STATUS.SCHED_QUEUED n) 0
  let s := (s.withTcam (outside (n * 65536) ((n + 1) * 65536) s.tcam)).withActions (outside (n * 65536) ((n + 1) * 65536) s.actions)
  let s := (s.withEps (outside (n * 2 ^ 20) ((n + 1) * 2 ^ 20) s.eps)).withRoutes (outside (n * 2 ^ 18) ((n + 1) * 2 ^ 18) s.routes)
  let s := (s.withVlans (outside (n * 2 ^ 12) ((n + 1) * 2 ^ 12) s.vlans)).withHists (outside (n * 2 ^ 18) ((n + 1) * 2 ^ 18) s.hists)
  let s := (s.withRtHist (outside (n * 2 ^ 15) ((n + 1) * 2 ^ 15) s.rtHist)).withPmp2 (outside (n * 16384) ((n + 1) * 16384) s.pmp2)
  let s := (s.withMcBad (s.mcBad.filter (fun p => decide (p.1 / 131072 ≠ n)))).wf (TBL_STATUS.REMOVALS_PENDING n) 0
  let s := ([0, 1].foldl (fun s p => s.setPipe n p { s.pipe n p with badEnt := [] }) s).withBindErr (outside (n * 512) ((n + 1) * 512) s.bindErr)
  ((s.setTbl n {}).setRx n {}).setEng n {}

/-- The result of the test of region `n`, by the memories of its failing rows (R568, R614). -/
def State.bistResult (s : State) (n : Nat) (mems : List Nat) (logic : Bool) : State :=
  let bad := logic || !mems.isEmpty
  let s := (s.wb (REG_Q_STATUS.BIST_PASS n) (!bad)).wb (REG_Q_STATUS.BIST_FAIL n) bad
  let first := mems.foldl min 7
  let s := s.wf (REG_Q_STATUS.BIST_FAIL_MEM n) (if !bad then 0 else if mems.isEmpty then s.freeBits 3 else first)
  if bad then s.nextFree.regErr (REG_ERR.BIST_FAIL n) n else s

/-- The region test ends; each failing row is named by its memory, and `logic` says that the logic failed (R568). The memory that a failure of the
logic alone shows is free (log entry 123). -/
def testEnd (n : Nat) (fails : List (Nat × Nat)) (logic : Bool) (s : State) : State :=
  if s.region n != rgTest then s
  else
    let s := s.zeroRegion n
    let s := fails.foldl (fun s p => s.logError n p.1 p.2 false) s
    (s.bistResult n (fails.map (·.1)) logic).enterRegion n rgIsolated

/-- The enabled front-panel ports of region `n`. -/
def State.enabledPorts (s : State) (n : Nat) : List Nat := (List.range 64).filter (fun l => s.rb (pbf PB_PORT_CFG.ENABLE n l))

/-- Stroke X of a rejoin is reached (R569). -/
def rejoinReached (n : Nat) (s : State) : State :=
  let was := s
  let x := s.rf (REG_REJOIN_STROKE.STROKE n)
  if s.region n != rgRejoin || !strokeLe x s.strokeNow then s
  else
    let s := s.showHealth
    let s := match (List.range 8).find? (fun k => s.regionRuns k) with
      | none => s
      | some k =>
        let bank := s.rf (IP_CL_STATUS.ACTIVE_BANK k 0)
        let epoch := s.rf (IP_CL_STATUS.EPOCH k 0)
        [0, 1].foldl (fun s p => (s.wf (IP_CL_STATUS.ACTIVE_BANK n p) bank).wf (IP_CL_STATUS.EPOCH n p) epoch) s
    let s := s.wf (SP_WM.STROKE n) x
    let before := some ((x + (2 ^ 48 - 1)) % 2 ^ 48)
    let s := (s.setTbl n { s.tbl n with swept := before }).setEng n { s.eng n with swept := before }
    let s := s.wf SP_STATUS.QUARANTINED (putBits (s.rf SP_STATUS.QUARANTINED) n 1 0)
    let s := (s.wf SP_STATUS.LOWEST s.lowest).enterRegion n rgRun
    (s.enabledPorts n).foldl (fun s l => s.enableLink n l) (s.regionSources was n)

/-! ### What a read in error does to a store (R571, Table EV-1) -/

/-- Lines of a region memory, and lines of one of its rows (Table EV-5); memories without rows are located by line. -/
def memLines (m : Nat) : Nat := [262144, 131072, 196608, 32768, 65536, 16384, 2048, 24576].getD m 0
def rowLines (m : Nat) : Nat := [64, 16, 12, 32, 64, 1, 16, 1].getD m 1
def memRows (m : Nat) : Nat := [4096, 8192, 16384, 1024, 1024, 0, 128, 0].getD m 0
def memSpares (m : Nat) : Nat := [64, 32, 32, 16, 64, 0, 16, 0].getD m 0

/-- A check with its location put to a row. -/
def checkAt (loc : Nat) : ReadCheck → ReadCheck
  | .good => .good
  | .retried _ => .retried (BitVec.ofNat 18 loc)
  | .failed _ => .failed (BitVec.ofNat 18 loc)

/-- The data of buffer `h` of region `n` is in error: frames that read it are discarded (R355). -/
def State.markBuf (s : State) (n h : Nat) : State :=
  if (s.bufx n h).count = 0 then s
  else (s.setBufx n h { s.bufx n h with corrupt := true }).cisErrAt (CIS_ERR.DATA_PARITY n) n h

/-- A cached line, by bucket × 4 + slot, is lost: clean lines are dropped, dirty ones are lost by R263. -/
def State.loseLine (s : State) (e i : Nat) : State :=
  if i ∈ (s.eng e).dirty then
    let s := (s.feLoc e (i / 4) (i % 4) true).loseRec e (i / 4) (i % 4) false
    (s.feErr (FE_ERR.RECORD_LOST e) e).feErr (FE_ERR.PARITY e) e
  else s.cacheDrop e i

/-- A parser table entry (bit 13: the pipeline; bits [12:0]: the entry as `IP_PARSE_ERR_LOC`) in error: a retry that fails leaves it in error for
every frame that reads it until it is rewritten (R158). -/
def State.scrubParser (s : State) (n k : Nat) (chk : ReadCheck) : State :=
  let p := k / 8192 % 2
  let s := s.noteRead n 5 chk
  let s := if s.rb (IP_PARSE_ERR.PARITY n p) then s else s.setReg (IP_PARSE_ERR_LOC.w n p) (BitVec.ofNat 32 (k % 8192))
  let s := s.parseErr (IP_PARSE_ERR.PARITY n p) n p
  if isFailed chk then (s.parseErr (IP_PARSE_ERR.PARITY_FAIL n p) n p).markBad n p (k % 8192) chk else s

/-- Stores of memory 5, by `kind`: parser tables, VLAN entries, multicast groups and nodes, bindings, policer state, gate entries, others. -/
def State.scrub5 (s : State) (n kind k : Nat) (chk : ReadCheck) : State :=
  match kind with
  | 0 => s.scrubParser n k chk
  | 1 => s.tblParity n 2 (k % 4096) chk
  | 2 => (s.mcRead n (n * 131072 + k % 32768) chk).1
  | 3 => (s.mcRead n (n * 131072 + 65536 + k % 32768) chk).1
  | 4 =>
    let s := (s.noteRead n 5 chk).pmpErr (PMP_ERR.STORE_PARITY n) n
    match chk with
    | .failed loc => s.withBindErr (mset 0 s.bindErr (n * 512 + k % 512) (loc.toNat + 1))
    | _ => s
  | 5 =>
    let i := k % 65536
    s.polCheck n i (s.profile n (s.rf (TM_POL.PROFILE n i))) s.orderNs s.strokeNow chk
  | 6 =>
    let s := (s.noteRead n 5 chk).tmErr (TM_ERR.GATE_PARITY n) n 2 (k % 33792)
    if isFailed chk then s.setRx n { s.rx n with gateBad := setMember (s.rx n).gateBad (k % 33792) true } else s
  | _ => s.noteRead n 5 chk

/-- A detection in the traffic manager sets its bit of `TM_ERR`, whether a retry mends it or not (R393). -/
def State.scrubTm (s : State) (n kind k : Nat) (chk : ReadCheck) : State :=
  if chk = .good then s
  else match kind with
    | 1 => s.tmErr (TM_ERR.STATE_PARITY n) n 1 (k % 1056)
    | 2 => s.tmErr (TM_ERR.SLOT_PARITY n) n 3 0
    | 3 => s.tmErr (TM_ERR.SCHED_PARITY n) n 1 (k % 1056)
    | _ => s

/-- Stores of memory 7, by `kind`: queue state, scheduler queue links, meter slots, scheduler tags, dictionary, a control structure that a whole
block shares, one of the flow engine, counters and histograms. Table EV-1 names no store whose failure is the block error of R19: kinds 5 and 6
stand for one (DESIGN CHOICE, log entry 215). -/
def State.scrub7 (s : State) (n kind k : Nat) (chk : ReadCheck) : State :=
  let s := (s.noteRead n 7 chk).scrubTm n kind k chk
  if !isFailed chk then s
  else match kind with
    | 0 => (s.cisErr (CIS_ERR.STATE_PARITY n) n).quarantine n 2
    | 1 => s.quarantine n 2
    | 2 => s.badSlot n k
    | 3 => s.schedReset n (k % 1056 / 16)
    | 4 => if s.rb (FE_DICT.VALID n (k % 4096)) then s.wf (FE_DICT.BAD n (k % 4096)) 1 else s
    | 5 => s.escalate n false
    | 6 => s.escalate n true
    | _ => s

/-- The rule of Table EV-1 for a read of line `line` of memory `m` of region `n` that was in error. `kind` and `k` say which object of the
line: a buffer handle, a cached line, the object's place within the line, or as the memory's own stores need. Memory 4's lap is the check of R192:
a scrubber's read of it follows `REG_SCRUB_CFG.EN` alone, and the check commanded by TCAM_PARITY_CHECK follows PAR_CHECK_EN alone (DESIGN CHOICE,
log entry 212). -/
def State.storeRule (s : State) (n m line kind k : Nat) (chk : ReadCheck) : State :=
  match m with
  | 0 => let s := s.noteRead n 0 chk; if isFailed chk then s.markBuf n k else s
  | 1 => let s := s.noteRead n 1 chk; if isFailed chk && decide (k ∈ (s.eng n).cached) then ((s.feLoc n (k / 4) (k % 4) true).feErr (FE_ERR.PARITY n) n).loseLine n k else s
  | 2 => s.tblParity n 0 (min (line * 64 / 12 + k % 8) ((line * 64 + 63) / 12)) chk
  | 3 => s.tblParity n 1 (line * 8 + k % 8) chk
  | 4 =>
    let p := line / 32768
    let e := line % 32768
    if kind = 0 then
      let i := entryIx n p e
      (s.withTcam (mset 0 s.tcam i (putBits (mget 0 s.tcam i) 640 1 0))).clParity n p e 0 (.failed 0)
    else
      let s := s.clParity n p e 1 chk
      if isFailed chk then s.clErr (IP_CL_ERR.ACT_PARITY_FAIL n p) n p else s
  | 5 => s.scrub5 n kind k chk
  | 6 =>
    let s := s.noteRead n 6 chk
    let s := if s.reg (PMP_ERR.w n) = 0 then s.setReg (PMP_ERR_LOC.w n) (BitVec.ofNat 32 (16 * (line % 1024) + k % 16)) else s
    (s.pmpErr (PMP_ERR.STORE_PARITY n) n).detParity
  | _ => s.scrub7 n kind k chk

/-! ### HBM places (R241, R475 to R477) -/

/-- What lies at byte address `a` of pseudo-channel `q` of stack `st`: a slot of an engine's bucket, a page of a region's sump, or spare. -/
inductive HbmObj where
  | slot (e b j : Nat)
  | page (n p : Nat)
  | spare
deriving DecidableEq, Repr

/-- What belongs at byte address `a`, whether or not its row is redirected. -/
def State.hbmHome (s : State) (st q a : Nat) : HbmObj :=
  let area := s.hbmArea
  if a < area then
    let i := a / 128
    .slot (2 * st + i / (s.nb / 32)) (i % (s.nb / 32) * 32 + q) (a / 32 % 4)
  else if a < 3 * area then .page (2 * st + (a - area) / area) (a % area / 4096 * 32 + q)
  else .spare

/-- What lies at byte address `a` itself, redirection included (R478). -/
def State.hbmAt (s : State) (st q a : Nat) : HbmObj :=
  match (s.hpc st q).contents (a / 1024) with
  | some r => s.hbmHome st q (r * 1024 + a % 1024)
  | none => .spare

/-- The first slot of the record that holds slot `j` of a bucket: an uncompressed record takes an aligned pair. -/
def State.recSlot (s : State) (e b j : Nat) : Nat := if j % 2 = 1 && (s.recAt e b j).isNone then j - 1 else j

/-- Frames of region `n` with data in a page are marked. -/
def State.markPage (s : State) (n p : Nat) (lost : Bool) : State :=
  let x := s.rx n
  let upd := fun (e : QEnt) =>
    if e.place = .sump ∧ p ∈ e.pages then (if lost then { e with lost := true } else { e with corrupt := true }) else e
  s.setRx n { x with voq := x.voq.map (fun q => (q.1, { q.2 with ents := q.2.ents.map upd })) }

/-- A read of HBM by the scrubber was in error (R481): the controller's part, then the store's rule. -/
def State.hbmRule (s : State) (st q a : Nat) (chk : ReadCheck) : State :=
  let loc := hbmLoc q (s.hbmBank a) (s.hbmRow a)
  let s := ((s.hbmErr (HBM_ERR.DATA_PARITY st) st loc 0).addSat (HBM_CH_CNT.PARITY st (q / 2)) 1).detect (8 + st) 0 loc (!isFailed chk)
  if !isFailed chk then s
  else
    let s := s.hbmErr (HBM_ERR.DATA_PARITY_FAIL st) st loc 0
    match s.hbmAt st q a with
    | .slot e b j => s.recParity e b (s.recSlot e b j) false chk
    | .page n p => s.markPage n p false
    | .spare => s

/-! ### Scrubbing (R571, R572) -/

def State.scrubx (s : State) (u m : Nat) : ScrubX := mget {} s.scrub (u * 8 + m)
def State.setScrubx (s : State) (u m : Nat) (x : ScrubX) : State := s.withScrub (mset {} s.scrub (u * 8 + m) x)

/-- A scrubber that reads the first line of its memory begins a lap. -/
def ScrubX.begun (x : ScrubX) (now : Nat) : ScrubX := if x.line = 0 then { start := now } else x

/-- A scrubber reads the line of `x`; `next` is the line after it, none at the end of a lap. A lap that has run past its limit is overdue, once; at
its end its length is shown (R572; log entry 120). -/
def State.lapStep (s : State) (u m : Nat) (lap : Fld × Fld) (limit : Nat) (overdue : State → State) (x : ScrubX) (next : Option Nat) : State :=
  let ns := s.time.tick - x.start
  let past := limit != 0 && decide (limit * 1000000 < ns)
  let s := if past && !x.late then overdue s else s
  match next with
  | some l => s.setScrubx u m { x with line := l, late := x.late || past }
  | none => ((s.setScrubx u m {}).wf lap.1 (min (ns / 1000) (2 ^ 24 - 1))).wf lap.2 (s.rf lap.2 + 1)

/-- The scrubber of memory `m` of region `n` reads its next line; it pauses while the region is gated (R628). -/
def scrubRegion (n m kind k : Nat) (chk : ReadCheck) (s : State) : State :=
  if !bit (s.rf (REG_SCRUB_CFG.EN n)) m || s.region n = rgTest || s.rf (PWR_STATUS.LEVEL n) != 8 then s
  else
    let x := (s.scrubx n m).begun s.time.tick
    let s := if isBad chk then
        (s.storeRule n m x.line kind k (checkAt (x.line / rowLines m) chk)).regErr (REG_ERR.SCRUB_PARITY n) n
      else s
    s.lapStep n m (REG_SCRUB_LAP.LAP_US n m, REG_SCRUB_LAP.LAPS n m) (s.rf (REG_SCRUB_CFG.LAP_LIMIT_MS n))
      (fun s => s.regErr (REG_ERR.LAP_OVERDUE n) n) x (if x.line + 1 < memLines m then some (x.line + 1) else none)

/-- Valid retirement entries of a stack for pseudo-channel `q`. -/
def State.retiredIn (s : State) (st q : Nat) : List Nat :=
  (List.range 1024).filter (fun i => s.rb (HBM_RETIRE.VALID st i) && decide (bits (s.reg (HBM_RETIRE.w st i)).toNat 0 5 = q / 2 + 16 * (q % 2)))

/-- The banks of pseudo-channel `q` that are retired. -/
def State.retiredBanks (s : State) (st q : Nat) : List Nat :=
  ((s.retiredIn st q).filter (fun i => s.rb (HBM_RETIRE.KIND st i))).map (fun i => s.rf (HBM_RETIRE.BANK st i))

/-- Spare row `r` is in use: an access to another row reaches it. -/
def HbmPc.spareUsed (x : HbmPc) (r : Nat) : Bool := x.moved.any (fun p => p.2 = r) && (x.contents r).isSome

/-- The first spare row in use above row `r`. -/
def HbmPc.nextSpare (x : HbmPc) (r : Nat) : Option Nat :=
  ((x.moved.map (·.2)).filter (fun k => decide (r < k) && x.spareUsed k)).foldl (fun a k => some (min k (a.getD k))) none

/-- The next row that the scrubber of a stack reads after row `r` of pseudo-channel `q`: every row but the training row and the spare rows
not in use (R571). -/
def State.rowAfter (s : State) (st q r : Nat) : Option Nat :=
  if r + 1 < s.mainRows then some (r + 1) else (s.hpc st q).nextSpare r

/-- The line of a stack's scrubber that follows line `l`: pseudo-channels in turn, live ones alone, then a new lap at `none`. -/
def State.hbmNext (s : State) (st l : Nat) : Option Nat :=
  let per := s.allRows * 32
  let q := l / per
  let a := l % per
  if a % 32 < 31 then some (l + 1)
  else match s.rowAfter st q (a / 32) with
    | some r => some (q * per + r * 32)
    | none => ((List.range 32).find? (fun k => decide (q < k) && bit (s.rf (FE_PC_LIVE.LIVE (2 * st))) k)).map (· * per)

/-- The scrubber of stack `st` reads its next line. -/
def scrubStack (st : Nat) (chk : ReadCheck) (s : State) : State :=
  if !bit (s.rf (HBM_SCRUB_CFG.EN st)) 0 || s.hbmBusy st then s
  else
    let x := (s.scrubx (8 + st) 0).begun s.time.tick
    let per := s.allRows * 32
    let s := if isBad chk && bit (s.rf (FE_PC_LIVE.LIVE (2 * st))) (x.line / per) then
        s.hbmRule st (x.line / per) (x.line % per * 32) chk
      else s
    s.lapStep (8 + st) 0 (HBM_SCRUB_LAP.LAP_US st, HBM_SCRUB_LAP.LAPS st) (s.rf (HBM_SCRUB_CFG.LAP_LIMIT_MS st))
      (fun s => s.raise (0xE14 + st * 0x40) (s.reg (HBM_SCRUB_LAP.w st)).toNat) x (s.hbmNext st x.line)

/-- An error found in what cannot be contained to a frame, entry or ring (R19, R558, R631): of a crossing between a region and a
chip-level block, of a ring context or the MSI-X table, of other chip-global state, or of the governor. It halts the device with the
cause of Table EV-2 or PW-5. -/
def chipParity (what loc : Nat) (s : State) : State :=
  if s.chipState = stOff || s.chipState = stStrap || s.halted then s
  else match what with
    | 0 => (s.detectFree 12).haltDev 0x22
    | 1 => (s.detect 12 0 loc false).haltDev 0x23
    | 2 => (s.detect 12 0 loc false).haltDev 0x24
    | _ => ((s.detectFree 12).setErr PWR_ERR.PARITY 0xF20).haltDev 0x33

/-- The background scrubber of a region memory, or of stack `u` − 8, reads its next line; unit 12 is the chip-global state, checked
where it is held, whose part `kind` names (log entry 131). -/
def scrubRead (u m kind k : Nat) (chk : ReadCheck) (s : State) : State :=
  if u < 8 then (if s.alive then scrubRegion u m kind k chk s else s)
  else if u < 12 then (if s.alive then scrubStack (u - 8) chk s else s)
  else if isBad chk then chipParity kind (k % 2 ^ 18) s else s

/-! ### Range passes (R573) -/

/-- An empty summary. -/
def State.noSummary (s : State) (w e f l : Nat) : State := (((s.setReg w 0).setReg e 0).setReg f 0).setReg l 0

/-- A write of `REG_SCRUB_PASS`. -/
def regPassWrite (n : Nat) (v : Word) (s : State) : State :=
  let s := s.wf (REG_SCRUB_PASS.MEM n) v.toNat
  let m := s.rf (REG_SCRUB_PASS.MEM n)
  let a := s.rf (REG_SCRUB_START.LINE n)
  let b := s.rf (REG_SCRUB_END.LINE n)
  if !bit v.toNat 5 then s
  else if s.rb (REG_SCRUB_PASS.BUSY n) then s.regErr (REG_ERR.CFG_IGNORED n) n
  else if b < a || 8 ≤ m then
    (s.regErr (REG_ERR.CFG_REJECT n) n).noSummary (REG_SCRUB_SUM_WORDS.w n) (REG_SCRUB_SUM_ERRS.w n) (REG_SCRUB_SUM_FIRST.w n)
      (REG_SCRUB_SUM_LAST.w n)
  else
    (s.withPasses (mset none s.passes n (some ⟨m, a, min b (memLines m - 1)⟩))).wf (REG_SCRUB_PASS.BUSY n) 1

/-- A write of `HBM_SCRUB_PASS`. -/
def hbmPassWrite (st : Nat) (v : Word) (s : State) : State :=
  let s := s.wf (HBM_SCRUB_PASS.MEM st) v.toNat
  let a := s.rf (HBM_SCRUB_START.LINE st)
  let b := s.rf (HBM_SCRUB_END.LINE st)
  if !bit v.toNat 5 then s
  else if s.rb (HBM_SCRUB_PASS.BUSY st) then s.hbmNote (HBM_ERR.CFG_IGNORED st) st
  else if b < a then
    (s.hbmNote (HBM_ERR.CFG_IGNORED st) st).noSummary (HBM_SCRUB_SUM_WORDS.w st) (HBM_SCRUB_SUM_ERRS.w st) (HBM_SCRUB_SUM_FIRST.w st)
      (HBM_SCRUB_SUM_LAST.w st)
  else
    let last := s.allRows * 32 - 1
    (s.withPasses (mset none s.passes (8 + st) (some ⟨s.rf (HBM_SCRUB_PASS.MEM st), a, min b last⟩))).wf (HBM_SCRUB_PASS.BUSY st) 1

/-- A line in error that a pass found: the line, its words in error and whether the retry succeeded. -/
abbrev BadLine := Nat × Nat × Bool

/-- Write the summary of a pass. -/
def State.summary (s : State) (w e f l words : Nat) (bad : List BadLine) : State :=
  let lines := bad.map (·.1)
  let place := fun (x : Option Nat) => match x with
    | some i => BitVec.ofNat 32 (i + 2 ^ 31)
    | none => 0
  let first := lines.foldl (fun a i => some (min i (a.getD i))) none
  let last := lines.foldl (fun a i => some (max i (a.getD i))) none
  let s := (s.setReg w (BitVec.ofNat 32 (min words (2 ^ 32 - 1)))).setReg e
    (BitVec.ofNat 32 (min (bad.map (·.2.1)).sum (2 ^ 32 - 1)))
  (s.setReg f (place first)).setReg l (place last)

/-- The pass of region `n` ends. The words of a line of memory 4 are a free value (the spec gives its line as an entry). -/
def regPassDone (n : Nat) (bad : List BadLine) (s : State) : State :=
  match mget none s.passes n with
  | none => s
  | some x =>
    let s := s.withPasses (mset none s.passes n none)
    let bad := bad.filter (fun b => decide (x.first ≤ b.1) && decide (b.1 ≤ x.last))
    let s := bad.foldl (fun s b => s.detect n x.mem (b.1 / rowLines x.mem) b.2.2) s
    let s := if bad.isEmpty then s else s.regErr (REG_ERR.SCRUB_PARITY n) n
    let per := if x.mem = 4 then s.freeBits 8 else 16
    let s := if x.mem = 4 then s.nextFree else s
    let s := s.summary (REG_SCRUB_SUM_WORDS.w n) (REG_SCRUB_SUM_ERRS.w n) (REG_SCRUB_SUM_FIRST.w n) (REG_SCRUB_SUM_LAST.w n)
      ((x.last + 1 - x.first) * per) bad
    let s := s.wf (REG_SCRUB_PASS.BUSY n) 0
    s.raise (regionSrc 0x372 n) (s.reg (REG_SCRUB_SUM_ERRS.w n)).toNat

/-- The pass of stack `st` ends. -/
def hbmPassDone (st : Nat) (bad : List BadLine) (s : State) : State :=
  match mget none s.passes (8 + st) with
  | none => s
  | some x =>
    let s := s.withPasses (mset none s.passes (8 + st) none)
    let bad := bad.filter (fun b => decide (x.first ≤ b.1) && decide (b.1 ≤ x.last))
    let loc := fun l => hbmLoc x.mem (s.hbmBank (l * 32)) (s.hbmRow (l * 32))
    let s := bad.foldl (fun s b =>
      let s := ((s.hbmErr (HBM_ERR.DATA_PARITY st) st (loc b.1) 0).addSat (HBM_CH_CNT.PARITY st (x.mem / 2)) 1).detect (8 + st) 0
        (loc b.1) b.2.2
      if b.2.2 then s else s.hbmErr (HBM_ERR.DATA_PARITY_FAIL st) st (loc b.1) 0) s
    let s := s.summary (HBM_SCRUB_SUM_WORDS.w st) (HBM_SCRUB_SUM_ERRS.w st) (HBM_SCRUB_SUM_FIRST.w st) (HBM_SCRUB_SUM_LAST.w st)
      ((x.last + 1 - x.first) * 8) bad
    let s := s.wf (HBM_SCRUB_PASS.BUSY st) 0
    s.raise (0xE13 + st * 0x40) (s.reg (HBM_SCRUB_SUM_ERRS.w st)).toNat

/-- A range pass ends. -/
def passDone (u : Nat) (bad : List BadLine) (s : State) : State := if u < 8 then regPassDone u bad s else hbmPassDone (u - 8) bad s

/-! ### Retirement of rows (R575 to R577) -/

/-- The valid retirement entries of region `n` for memory `m`. -/
def State.retired (s : State) (n m : Nat) : List Nat :=
  (List.range 256).filter (fun i => s.rb (REG_RETIRE.VALID n i) && decide (s.rf (REG_RETIRE.MEM n i) = m))

/-- Why a retirement is refused: LAST_RESULT of `REG_RETIRE_STATUS`, 0 when it is applied. -/
def State.retireResult (s : State) (n m row : Nat) : Nat :=
  if m = 5 || decide (7 ≤ m) then 2
  else if memRows m ≤ row then 3
  else if (s.retired n m).any (fun i => s.rf (REG_RETIRE.ROW n i) = row) then 2
  else if memSpares m ≤ (s.retired n m).length then 1
  else 0

/-- Words of one copy of the control store read 0 from now on; the copies are compared on every fetch (R312). -/
def State.clearStore (s : State) (e copy : Nat) : List Nat → State
  | [] => s
  | a :: l =>
    let w := s.storeWord e a
    let d := mget 0 s.pmp2 (e * 16384 + a)
    let s := if copy = 0 then { s.setReg (PMP_STORE.w e a) 0 with pmp2 := mset 0 s.pmp2 (e * 16384 + a) (w ^^^ d) }
      else s.withPmp2 (mset 0 s.pmp2 (e * 16384 + a) w)
    s.clearStore e copy l

/-- The contents of a row are discarded (Table EV-5); `objs` are the buffers with data in the row (memory 0) or its cached lines
(memory 1). -/
def State.retireRow (s : State) (n m row : Nat) (objs : List Nat) : State :=
  match m with
  | 0 => objs.foldl (fun s h => s.markBuf n h) s
  | 1 => objs.foldl (fun s i => s.loseLine n i) s
  | 2 => ((s.heldSlots n).filter (fun i => decide (i / 64 = row))).foldl (fun s i => s.forceUnit n i 0) s
  | 3 => ((s.routes.filter (fun p => decide (p.1 / 256 = n * 1024 + row))).map (fun p => p.1 % 2 ^ 18)).foldl
      (fun s u => s.forceUnit n (routeId u) 0) s
  | 4 =>
    let a := entryIx n (row / 512) (row % 512 * 64)
    (s.withTcam (outside a (a + 64) s.tcam)).withActions (outside a (a + 64) s.actions)
  | _ => s.clearStore n (row / 64) ((List.range 256).map (row % 64 * 256 + ·))

/-- The row holds contents that its retirement discards. -/
def State.rowHolds (s : State) (n m row : Nat) (objs : List Nat) : Bool :=
  match m with
  | 0 => objs.any (fun h => (s.bufx n h).count != 0)
  | 1 => objs.any (fun i => decide (i ∈ (s.eng n).dirty))
  | 2 => (s.heldSlots n).any (fun i => decide (i / 64 = row))
  | 3 => s.routes.any (fun p => decide (p.1 / 256 = n * 1024 + row))
  | 4 =>
    let a := entryIx n (row / 512) (row % 512 * 64)
    s.tcam.any (fun p => decide (a ≤ p.1) && decide (p.1 < a + 64)) || s.actions.any (fun p => decide (a ≤ p.1) && decide (p.1 < a + 64))
  | _ => (List.range 256).any (fun i =>
      let a := row % 64 * 256 + i
      (if row / 64 = 0 then s.storeWord n a else s.storeWord n a ^^^ mget 0 s.pmp2 (n * 16384 + a)) != 0)

/-- The buffers or cached lines of region `n` with data in a row of memory 0 or 1, by the layout that the spec leaves open. -/
def State.rowObjs (s : State) (n m row : Nat) : List Nat :=
  ((if m = 0 then (s.rx n).bufs.map (·.1) else if m = 1 then (s.eng n).cached else []).filter (Config.rowHolds n m row))

/-- A write of `REG_RETIRE[i]` (R576). -/
def retireWrite (n i : Nat) (v : Word) (objs : List Nat) (s : State) : State :=
  if s.rb (REG_RETIRE.VALID n i) then s
  else if !bit v.toNat 31 then s.setReg (REG_RETIRE.w n i) (BitVec.ofNat 32 (v.toNat % 2 ^ 24))
  else
    let m := bits v.toNat 20 4
    let row := bits v.toNat 0 20
    let r := s.retireResult n m row
    let s := s.wf (REG_RETIRE_STATUS.LAST_RESULT n) r
    if r != 0 then s.regErr (REG_ERR.RETIRE_REJECT n) n
    else
      let s := s.setReg (REG_RETIRE.w n i) (BitVec.ofNat 32 (v.toNat % 2 ^ 24 + 2 ^ 31))
      let s := s.wf (REG_RETIRE_STATUS.USED n) (s.rf (REG_RETIRE_STATUS.USED n) + 1)
      let s := if s.rowHolds n m row objs then s.detParity else s
      s.retireRow n m row objs

/-- Spare rows of pseudo-channel `q` that a retirement may take: in ascending address order, without the training row, those taken before and
those of the retired banks and of `banks` (R577). -/
def State.spareRows (s : State) (st q : Nat) (banks : List Nat) : List Nat :=
  let first := s.mainRows
  let gone := banks ++ s.retiredBanks st q
  ((List.range (s.allRows - first)).map (first + ·)).filter
    (fun r => r != first && !(r % s.hbmBanks ∈ gone) && !(s.hpc st q).moved.any (fun p => p.2 = r))

/-- Rows of other banks whose spare row lies in bank `bank`, which a retirement of the bank moves again (log entry 195). -/
def State.movedAgain (s : State) (st q bank : Nat) : List Nat :=
  let x := s.hpc st q
  (x.moved.filter (fun p => p.2 % s.hbmBanks = bank && x.served p.1 = p.2 && p.1 % s.hbmBanks != bank)).map (·.1)

/-- Spare rows that a retirement uses or removes: one for a row; for a bank one for each of its 12,288 rows and each row moved again, and its
own 4,096 of which bank 0 lacks the training row, less those used before (R577). -/
def State.spareNeed (s : State) (st q bank : Nat) (isBank : Bool) : Nat :=
  if isBank then
    12288 + (s.movedAgain st q bank).length +
      (4096 - b2n (bank = 0) - ((s.hpc st q).moved.filter (fun p => p.2 % s.hbmBanks = bank)).length)
  else 1

/-- Why an HBM retirement is refused. -/
def State.hbmRetireResult (s : State) (st q bank row : Nat) (isBank : Bool) : Nat :=
  let old := s.retiredIn st q
  if s.hbmBanks ≤ bank then 3
  else if bank ∈ s.retiredBanks st q then 2
  else if !isBank && decide (12288 ≤ row) then 2
  else if !isBank && old.any (fun i => !s.rb (HBM_RETIRE.KIND st i) && s.rf (HBM_RETIRE.BANK st i) = bank && s.rf (HBM_RETIRE.ROW st i) = row) then 2
  else if s.rf (HBM_SPARE_LEFT.ROWS st q) < s.spareNeed st q bank isBank then 1
  else 0

/-- Pseudo-channel address `a` lies in the retired row or bank. -/
def State.inRetired (s : State) (bank row : Nat) (isBank : Bool) (a : Nat) : Bool :=
  s.hbmBank a = bank && (isBank || s.hbmRow a = row)

/-- Records and sump frames of region `n` in a retired row or bank of pseudo-channel `q` are lost (R577). -/
def State.retireHbmIn (s : State) (n q bank row : Nat) (isBank : Bool) : State :=
  let mine := fun (k : Nat) => k / 2 ^ 26 = n && k % 2 ^ 26 / 4 % 32 = q && s.inRetired bank row isBank (s.bucketAddr n (k % 2 ^ 26 / 4))
  let lost := (s.slots.filter (fun p => mine p.1)).map (fun p => (p.1 % 2 ^ 26 / 4, p.1 % 4))
  let any := lost.any (fun p => (s.recAt n p.1 p.2).isSome)
  let s1 := lost.foldl (fun s p => s.loseRec n p.1 p.2 false) s
  let s1 := { s1 with slots := s1.slots.filter (fun p => !mine p.1) }
  let s1 := if any then (s1.feErr (FE_ERR.RECORD_LOST n) n).detParity else s1
  let pages := ((s.rx n).pages.filter (fun p => p % 32 = q && [0, 1, 2, 3].any (fun i => s.inRetired bank row isBank (s.pageAddr n p + i * 1024))))
  let s1 := pages.foldl (fun s p => s.markPage n p true) s1
  if pages.isEmpty then s1 else s1.detParity

/-- Rows are redirected to the next spare rows of their pseudo-channel (R478). -/
def State.moveRows (s : State) (st q : Nat) (banks rows : List Nat) : State :=
  let x := s.hpc st q
  s.setHpc st q { x with moved := rows.zip (s.spareRows st q banks) ++ x.moved }

/-- Retire a row or bank of pseudo-channel `q` of stack `st`: what it held is lost, and its rows are redirected. -/
def State.retireHbm (s : State) (st q bank row : Nat) (isBank : Bool) : State :=
  let lose := fun (s : State) (bank row : Nat) (isBank : Bool) =>
    (s.retireHbmIn (2 * st) q bank row isBank).retireHbmIn (2 * st + 1) q bank row isBank
  let banks := s.hbmBanks
  if isBank then
    let again := s.movedAgain st q bank
    let s := again.foldl (fun s r => lose s (r % banks) (r / banks) false) (lose s bank row true)
    s.moveRows st q [bank] ((List.range 12288).map (fun k => k * banks + bank) ++ again)
  else (lose s bank row false).moveRows st q [] [row * banks + bank]

/-- A write of `HBM_RETIRE[i]` of stack `st` (R577). -/
def hbmRetireWrite (st i : Nat) (v : Word) (s : State) : State :=
  if s.rb (HBM_RETIRE.VALID st i) then s
  else if !bit v.toNat 31 then s.setReg (HBM_RETIRE.w st i) (BitVec.ofNat 32 (v.toNat % 2 ^ 25))
  else
    let q := 2 * bits v.toNat 0 4 + bits v.toNat 4 1
    let bank := bits v.toNat 5 5
    let row := bits v.toNat 10 14
    let isBank := bit v.toNat 24
    let r := s.hbmRetireResult st q bank row isBank
    let uses := s.spareNeed st q bank isBank
    let s := s.wf (HBM_RETIRE_STATUS.LAST_RESULT st) r
    if r != 0 then s
    else
      let s := s.retireHbm st q bank row isBank
      let s := s.setReg (HBM_RETIRE.w st i) (BitVec.ofNat 32 (v.toNat % 2 ^ 25 + 2 ^ 31))
      let s := s.wf (HBM_RETIRE_STATUS.USED st) (s.rf (HBM_RETIRE_STATUS.USED st) + 1)
      s.wf (HBM_SPARE_LEFT.ROWS st q) (s.rf (HBM_SPARE_LEFT.ROWS st q) - uses)

/-! ### Meanings -/

def execHostHalt (v : Word) (s : State) : Host.Outcome State Fault Refusal :=
  .next (onWrite (haltCtrlWrite (BitVec.ofNat 32 (putBits v.toNat 0 1 1))) s)

def execErrLogClear (v : Word) (s : State) : Host.Outcome State Fault Refusal :=
  .next (onWrite (errLogWrite (BitVec.ofNat 32 (putBits v.toNat 16 1 1))) s)

def execWatermarkDeadlineMiss (n : Region) (s : State) : Host.Outcome State Fault Refusal := .next (deadlineMiss n s)

def execQuarantine (n : Region) (v : Word) (s : State) : Host.Outcome State Fault Refusal :=
  .next (onWrite (qCtrlWrite n (BitVec.ofNat 32 (putBits v.toNat 0 1 1))) s)

def execDrainComplete (n : Region) (s : State) : Host.Outcome State Fault Refusal := .next (if s.alive then drainComplete n s else s)

def execBistStart (n : Region) (v : Word) (s : State) : Host.Outcome State Fault Refusal :=
  .next (onWrite (qCtrlWrite n (BitVec.ofNat 32 (putBits v.toNat 1 1 1))) s)

def execRegionTestEnd (n : Region) (fails : TestFails) (s : State) : Host.Outcome State Fault Refusal :=
  .next (if s.alive then testEnd n (fails.rows.map (fun p => (p.1.val, p.2.toNat))) fails.logic s else s)

def execRejoin (n : Region) (v : Word) (s : State) : Host.Outcome State Fault Refusal :=
  .next (onWrite (qCtrlWrite n (BitVec.ofNat 32 (putBits v.toNat 2 1 1))) s)

def execRejoinStrokeReached (n : Region) (s : State) : Host.Outcome State Fault Refusal :=
  .next (if s.alive then rejoinReached n s else s)

def execScrubRead (u : Fin 13) (m : Oct) (kind : Oct) (k : BitVec 26) (chk : ReadCheck) (s : State) : Host.Outcome State Fault Refusal :=
  .next (scrubRead u m kind k.toNat chk s)

def execRegionRangePass (n : Region) (v : Word) (s : State) : Host.Outcome State Fault Refusal :=
  .next (onWrite (regPassWrite n (BitVec.ofNat 32 (putBits v.toNat 5 1 1))) s)

def execHbmRangePass (st : Stack) (v : Word) (s : State) : Host.Outcome State Fault Refusal :=
  .next (onWrite (hbmPassWrite st (BitVec.ofNat 32 (putBits v.toNat 5 1 1))) s)

def execRangePassDone (u : Fin 12) (bad : List (BitVec 24 × Fin 17 × Bool)) (s : State) : Host.Outcome State Fault Refusal :=
  .next (if s.alive then passDone u (bad.map (fun b => (b.1.toNat, b.2.1.val, b.2.2))) s else s)

def execRetirementWrite (n : Region) (i : Byte) (v : Word) (objs : List (BitVec 26)) (s : State) : Host.Outcome State Fault Refusal :=
  .next (onWrite (retireWrite n i.toNat v (objs.map (·.toNat))) s)

def execHbmRetireWrite (st : Stack) (i : BitVec 10) (v : Word) (s : State) : Host.Outcome State Fault Refusal :=
  .next (onWrite (hbmRetireWrite st i.toNat v) s)

end Sys2Proof.Machine
end

