-- ==== Sys2Proof/Machine/Pins.lean ====
section
/-! DEFINITION. The test access port (R646) and the levels of the outputs (R647). The pins' own levels are what the test equipment applies or what
Table PE-6 says of the outputs; the boundary register covers the CMOS signals of Table PE-5, bit 0 first: PCIE_PERST_N, PCIE_WAKE_N, REFCLK_AUX, SYS_RESET_N,
WARM_RESET_N, PAIR_HOLD_OUT, PAIR_HOLD_IN, PMB_SCL, PMB_SDA, STRAP0–7, PULSE_OUT0–3, CAPTURE_IN0–3 (log entry 133). -/

namespace Sys2Proof.Machine

/-- The registers an instruction can select: bypass, identity, boundary. -/
def tapBypass : Nat := 0
def tapIdentity : Nat := 1
def tapBoundary : Nat := 2

/-- The identity of R646. -/
def idCode : Nat := 1 + Config.manufacturer.toNat * 2 + 0x9100 * 2 ^ 12 + 2 * 2 ^ 28

/-- The test access port works while VDD_IO is present. -/
def State.tapOn (s : State) : Bool := s.chipState != stOff

def State.setTapx (s : State) (x : TapX) : State := if s.tapOn then s.withTapx x else s

/-- BYPASS. -/
def tapBypassLoad (s : State) : State := s.setTapx { s.tapx with instr := 0, sel := tapBypass, data := 0 }

/-- IDCODE. -/
def tapIdcode (s : State) : State := s.setTapx { s.tapx with instr := 1, sel := tapIdentity, data := idCode }

/-- SAMPLE/PRELOAD: the boundary register captures the pins, and what is shifted in is preloaded. -/
def tapSample (pins preload : Nat) (s : State) : State :=
  s.setTapx { instr := 2, sel := tapBoundary, data := pins, boundary := preload }

/-- EXTEST: it acts while SYS_RESET_N is asserted, and else as BYPASS until the reset is asserted. -/
def tapExtest (pins : Nat) (s : State) : State :=
  if s.chip.sysReset then s.setTapx { s.tapx with instr := 3, sel := tapBoundary, data := pins }
  else s.setTapx { s.tapx with instr := 3, sel := tapBypass, data := 0 }

/-- HIGHZ selects the bypass register; it floats the outputs while SYS_RESET_N is asserted. -/
def tapHighz (s : State) : State := s.setTapx { s.tapx with instr := 4, sel := tapBypass, data := 0 }

/-- The outputs are driven by the boundary register. -/
def State.extestDrives (s : State) : Bool := s.chip.sysReset && s.tapx.instr = 3

/-- The outputs float. -/
def State.highzFloats (s : State) : Bool := s.chip.sysReset && s.tapx.instr = 4

/-- SYS_RESET_N is asserted while EXTEST is loaded: control passes to the boundary register. -/
def State.extestTakes (s : State) : State :=
  if s.tapx.instr = 3 then s.withTapx { s.tapx with sel := tapBoundary } else s

/-- SYS_RESET_N is released: an EXTEST acts as BYPASS. -/
def State.extestEnds (s : State) : State :=
  if s.tapx.instr = 3 then s.withTapx { s.tapx with sel := tapBypass, data := 0 } else s

/-! ### The outputs (Table PE-6)

PAIR_HOLD_OUT and PCIE_WAKE_N are open drain: an output is driven, which is its asserted level, or it is not. What the lanes, the PCIe link, the PMBus and
the test data output carry are `State.outputs` and the access port's data. -/

/-- Past priming and not halted: the column of Configurable, Running and Quiesced. -/
def State.pinsLive (s : State) : Bool := s.configurable || s.running || s.chipState = stQuiesced

/-- PAIR_HOLD_OUT is driven while the device holds the line (R533). -/
def State.holdOutDriven (s : State) : Bool := s.pinsLive && s.rb PAIR_STATUS.HOLD_OUT

/-- PCIE_WAKE_N is driven by R77 and R78. -/
def State.wakeDriven (s : State) : Bool := s.pinsLive && s.cfg.wakeN

/-- PULSE_OUT i: undriven without VDD_IO, and else at its level, which is the inactive one until a pulse begins. A pulse that runs goes on through a warm
reset, as R610 has it (DEDUCED, log entry 223). -/
def State.pulsePin (s : State) (i : Nat) : Option Bool := if s.chipState = stOff then none else some (s.pulseOut i)

/-- What the output of bit `k` of the boundary register does: `own` is what the device itself does with it. HIGHZ and EXTEST act while SYS_RESET_N is
asserted (R646). -/
def State.outputPin (s : State) (k : Nat) (own : Option Bool) : Option Bool :=
  if s.highzFloats then none else if s.extestDrives then some (bit s.tapx.boundary k) else own

/-! ### Meanings -/

def execBypass (s : State) : Host.Outcome State Fault Refusal := .next (tapBypassLoad s)
def execIdcode (s : State) : Host.Outcome State Fault Refusal := .next (tapIdcode s)
def execSamplePreload (pins preload : BitVec 25) (s : State) : Host.Outcome State Fault Refusal :=
  .next (tapSample pins.toNat preload.toNat s)
def execExtest (pins : BitVec 25) (s : State) : Host.Outcome State Fault Refusal := .next (tapExtest pins.toNat s)
def execHighz (s : State) : Host.Outcome State Fault Refusal := .next (tapHighz s)

end Sys2Proof.Machine
end

