-- ==== Sys2Proof/Machine/Power.lean ====
section
/-! DEFINITION. Power (file 20): adaptive voltage and the PMBus, the thermal sensor and the rail monitors, and the load-step governor. -/

namespace Sys2Proof.Machine

/-- The governor, the PMBus and the sensors are clocked (Table BU-4). -/
def State.powered (s : State) : Bool := s.chipState != stOff && s.chipState != stStrap

/-! ### PMBus and adaptive voltage (R623 to R625)

Command codes are those of PMBus 1.3 (log entry 132). -/

def pmbVoutMode : Nat := 0x20
def pmbVoutCommand : Nat := 0x21
def pmbStatusWord : Nat := 0x79
def pmbReadIout : Nat := 0x8C

/-- The regulator's address (R623, Table BU-3). -/
def State.pmbAddr (s : State) : Nat := 0x40 + s.rf CHIP_STRAP.PMBUS_ADDR

/-- One transaction of which the first `fails` attempts are not acknowledged: at most three attempts (R625). -/
def State.pmbus (s : State) (code value : Nat) (fails : Nat) : State :=
  (List.range (min (fails + 1) 3)).foldl (fun s _ => s.emit (.pmbus s.pmbAddr code value)) s

/-- The third attempt failed. -/
def State.pmbusNack (s : State) (fails : Nat) : State := if fails < 3 then s else s.setErr PWR_ERR.PMBUS_NACK 0xF20

/-- The voltage in half-millivolts. -/
def State.setHalf (s : State) : Nat := s.rf PWR_AVS.SET_MV * 2 + b2n s.pwr.half

/-- The voltage one tick on: at most 2.5 mV nearer to the target, within 720 to 800 mV (R624). -/
def avsNext (cur target : Nat) : Nat := max 1440 (min 1600 (if cur < target then min target (cur + 5) else max target (cur - 5)))

/-- The exponent that VOUT_MODE gives, in two's complement. -/
def voutExponent (n : Nat) : Int := if n < 16 then n else (n : Int) - 32

/-- A voltage in half-millivolts in the regulator's linear format, volts × 2^−N for exponent N (R623). Which neighbour stands for a voltage between
two is free, and so is the value while VOUT_MODE has not been read (log entry 219). -/
def State.voutWord (s : State) (h : Nat) : Nat :=
  match s.pwr.voutExp with
  | none => s.freeBits 16
  | some n =>
    let num := h * 2 ^ (-n).toNat
    let den := 2000 * 2 ^ n.toNat
    if num % den = 0 then num / den else num / den + s.freeBits 1

/-- Command a voltage in half-millivolts; it stands once a command of it is acknowledged. -/
def State.vout (s : State) (h fails : Nat) : State :=
  let s := (s.pmbus pmbVoutCommand (s.voutWord h) fails).nextFree
  if fails < 3 then (s.withPwr { s.pwr with half := h % 2 = 1 }).wf PWR_AVS.SET_MV (h / 2) else s.pmbusNack fails

/-- The 100 µs tick of R624: with EN = 1 the device computes the target, `target`; with EN = 0 it commands 750 mV once. -/
def avsTick (target fails : Nat) (s : State) : State :=
  if !s.powered then s
  else
    if s.rb PWR_AVS.EN then
      let s := (s.wf PWR_AVS.TARGET_MV target).withPwr { s.pwr with fixed := false }
      let h := avsNext s.setHalf (2 * target)
      if h = s.setHalf then s else s.vout h fails
    else if s.pwr.fixed then s
    else
      let s := s.vout 1500 fails
      s.withPwr { s.pwr with fixed := decide (fails < 3) }

/-- The 1 ms poll of R625: READ_IOUT, then STATUS_WORD with a fault of the regulator or none. -/
def pmbusPoll (iout : Nat) (fault : Bool) (fails1 fails2 : Nat) (s : State) : State :=
  if !s.powered then s
  else
    let s := s.pmbus pmbReadIout 0 fails1
    let s := if fails1 < 3 then s.wf PWR_IOUT.IOUT_A iout else s.pmbusNack fails1
    let s := s.pmbus pmbStatusWord 0 fails2
    if fails2 < 3 then (if fault then s.haltDev 0x31 else s) else s.pmbusNack fails2

/-! ### Thermal and rails (R634, R635, R650) -/

/-- The hottest junction sensor reads `t` °C. -/
def thermalRead (t : Nat) (s : State) : State :=
  if !s.powered then s
  else
    let was := s.rf PWR_THERM.TEMP_C
    let warn := s.rf PWR_THERM.WARN_C
    let s := s.wf PWR_THERM.TEMP_C t
    let s := if was < warn ∧ warn ≤ t then (s.wf PWR_ERR.THERM_WARN 1).raise 0xF21 (s.reg PWR_THERM.w).toNat else s
    if s.rf PWR_THERM.TRIP_C ≤ t then s.haltDev 0x30 else s

/-- A rail stays below its minimum for 1 µs; before the islands step of priming that only delays priming (R650). -/
def railLow (s : State) : State :=
  if s.chipState = stPriming && decide (s.rf CHIP_PRIME_STATUS.STEP < 3) then s else s.haltDev 0x32

/-! ### The load-step governor (R627 to R631) -/

/-- A level step in mA, and the gap between steps of a region in ns (R629). -/
def stepMa : Nat := 12500
def stepGap : Nat := 250

def State.level (s : State) (n : Nat) : Nat := s.rf (PWR_STATUS.LEVEL n)
def State.setPwr (s : State) (x : PwrX) : State := s.withPwr x

/-- A frame waits in a cistern, or crosses the windlass, for region `n`. -/
def State.waitsFor (s : State) (n : Nat) : Bool :=
  (List.range 8).any (fun i => (s.rx i).voq.any (fun q => decide (q.1 / 1088 = n) && !q.2.ents.isEmpty)) ||
    s.wind.xfer.any (fun x => x.1 % 8 = n)

/-- A sweep step of region `n`'s tables, or a lap of its flow engine's walker, is due within IDLE_US (R628): a boundary not yet done is no later than
the stroke that the ordering source reaches then. Outside Running none takes place (R607). -/
def State.sweepSoon (s : State) (n : Nat) : Bool :=
  let t := (s.orderNs + 1000 * s.rf PWR_CFG.IDLE_US) / s.strokeLen % 2 ^ 48
  s.running && ((s.boundary n).any (fun b => strokeLe b t) || (s.flowBoundary n).any (fun b => strokeLe b t))

/-- R628: the gated islands of region `n` hold no work, none waits for them, and no sweep is due soon. -/
def State.idle (s : State) (n : Nat) : Bool :=
  !s.sweepSoon n &&
  [0, 1].all (fun p => (s.pipe n p).frames.isEmpty && (s.pipe n p).rob.isEmpty) && (s.recircx n).waiting.isEmpty &&
    (s.tbl n).sched.isEmpty && (s.tbl n).learns.isEmpty && (s.tbl n).removal.isNone &&
    (s.eng n).lookups.isEmpty && (s.eng n).passes.isEmpty && (s.eng n).sched.isEmpty && (s.eng n).snap.isNone &&
    !s.ctxs.any (fun c => c.1 / 256 = n) && (s.rx n).slots.isEmpty && (s.rx n).reqs.isEmpty &&
    (s.rx n).eq.all (fun q => q.2.ents.isEmpty) && !s.waitsFor n

/-- Region `n` is held at level 8: it is not in RUN, the chip is in Priming, or its near stack changes frequency (R628). -/
def State.heldFull (s : State) (n : Nat) : Bool :=
  !s.regionRuns n || s.chipState = stPriming || s.hbmBusy (n / 2)

/-- What region `n` waits for: 0 nothing, 1 a step down, 2 a step up. On a halt every region steps down (R634). -/
def State.wants (s : State) (n : Nat) : Nat :=
  if s.halted then (if s.level n = 0 then 0 else 1)
  else if s.heldFull n then (if s.level n = 8 then 0 else 2)
  else mget 0 s.pwr.want n

/-- Region `n` has been idle for IDLE_US. -/
def idleStepDown (n : Nat) (s : State) : State :=
  if s.alive && s.level n = 8 && bit (s.rf PWR_CFG.GATE_EN) n && !s.heldFull n && s.idle n then
    s.setPwr { s.pwr with want := mset 0 s.pwr.want n 1 }
  else s

/-- There is work for region `n`: it steps up, or stays at level 8. -/
def wakeStepUp (n : Nat) (s : State) : State :=
  s.setPwr { s.pwr with want := mset 0 s.pwr.want n (if s.level n = 8 then 0 else 2) }

/-- The budget refills at SLEW A/µs, which is SLEW mA in each ns, up to one step. -/
def State.refill (s : State) : State :=
  s.setPwr { s.pwr with
    budget := min stepMa (s.pwr.budget + (s.time.tick - s.pwr.budgetAt) * s.rf PWR_CFG.SLEW), budgetAt := s.time.tick }

/-- The region may step now: it waits for a step, and its last one is 250 ns old. -/
def State.stepReady (s : State) (n : Nat) : Bool :=
  s.wants n != 0 && (mget 0 s.pwr.stepAt n = 0 || decide (mget 0 s.pwr.stepAt n + stepGap ≤ s.time.tick + 1))

/-- Region `n` takes one step; at level 0 the clocks of its gated islands stop (R627), and with them the counters of their cycles. -/
def State.takeStep (s : State) (n : Nat) : State :=
  let up := s.wants n = 2
  let l := if up then s.level n + 1 else s.level n - 1
  let p := s.pwr
  let s := if l = 0 then (gatedUnits n).foldl (fun s u => s.showUnit u) s else s
  let s := s.setPwr { p with
    budget := p.budget - stepMa, ptr := (n + 1) % 8, stepAt := mset 0 p.stepAt n (s.time.tick + 1),
    want := if l = 8 ∨ l = 0 then mset 0 p.want n 0 else p.want,
    fullAt := if l = 8 then mset 0 p.fullAt n s.time.tick else p.fullAt }
  let s := s.wf (PWR_STATUS.LEVEL n) l
  if up then s.ev 137 0x11 none 1 s.strokeNow (s.strokeNow * 2 ^ 32) else s

/-- The governor grants a step, by a rotating pointer (R629). -/
def levelStepGrant (s : State) : State :=
  if !s.powered then s
  else
    let s := s.refill
    match ((List.range 8).map (fun k => (s.pwr.ptr + k) % 8)).find? s.stepReady with
    | none => s
    | some n => if s.pwr.budget < stepMa then s else s.takeStep n

/-! ### Meanings -/

def execAvsTick (target : BitVec 10) (fails : Fin 4) (s : State) : Host.Outcome State Fault Refusal := .next (avsTick target.toNat fails s)
def execPmbusPoll (iout : BitVec 11) (uv oc pgood : Bool) (fails1 fails2 : Fin 4) (s : State) : Host.Outcome State Fault Refusal :=
  .next (pmbusPoll iout.toNat (uv || oc || pgood) fails1 fails2 s)
def execThermalRead (t : Byte) (s : State) : Host.Outcome State Fault Refusal := .next (thermalRead t.toNat s)
def execIdleStepDown (n : Region) (s : State) : Host.Outcome State Fault Refusal := .next (idleStepDown n s)
def execWakeStepUp (n : Region) (s : State) : Host.Outcome State Fault Refusal := .next (if s.alive then wakeStepUp n s else s)
def execLevelStepGrant (s : State) : Host.Outcome State Fault Refusal := .next (levelStepGrant s)
def execRailLow (s : State) : Host.Outcome State Fault Refusal := .next (railLow s)

end Sys2Proof.Machine
end

