-- ==== Sys2Proof/Machine/Reset.lean ====
section
/-! DEFINITION. Resets, straps and priming, and the starting, quiescing and reconfiguring of the chip (file 19). -/

namespace Sys2Proof.Machine

/-! ### PCIe link, configuration space and MSI-X table -/

/-- The wellhead is ready for its link: after the islands step of a full priming (Table BU-4); a warm priming keeps it. -/
def State.linkReady (s : State) : Bool :=
  s.powered && (s.chipState != stPriming || s.rb CHIP_STATE.WARM || decide (4 ≤ s.rf CHIP_PRIME_STATUS.STEP))

/-- Registers outside [a, b) keep their values. -/
def State.resetRegs (s : State) (a b : Nat) : State := s.withRegs (outside a b s.regs)

/-- The PCIe link goes down, and the configuration space and the MSI-X table return to their reset values (R611). -/
def State.resetFunction (s : State) : State :=
  let s := (((s.wf HIF_STATUS.LINK_UP 0).wf HIF_STATUS.SPEED 0).wf HIF_STATUS.WIDTH 0).wf HIF_STATUS.FLIT 0
  let s := (s.resetRegs (MSIX_ADDR_LO.w 0) (MSIX_ADDR_LO.w 2048)).resetRegs (MSIX_PBA.w 0) (MSIX_PBA.w 64)
  s.withCfg { perst := s.cfg.perst, training := !s.cfg.perst && s.linkReady }

/-! ### Full reset (R609) -/

/-- Everything at its reset value and every memory clear, on entry to chip state `st`. What lies outside the device stays: host memory, what it has
sent, its pins and its fuses, the test access port, and the model's queue and counter of free values. -/
def State.fullReset (s : State) (st : Nat) : State :=
  let t : State := { State.reset with
    hostMem := s.hostMem, outputs := s.outputs, pending := s.pending, free := s.free, tapx := s.tapx,
    cfg := { perst := s.cfg.perst },
    chip := { sysReset := s.chip.sysReset, supplies := s.chip.supplies, straps := s.chip.straps },
    pairx := { heldIn := s.pairx.heldIn } }
  ((t.wf CHIP_ID.HBM_GIB (s.rf CHIP_ID.HBM_GIB)).wb PAIR_STATUS.HOLD_IN s.pairx.heldIn).enterState st

/-- The straps are latched and priming begins; with STRAP7 high the device stays in Strap (R612). -/
def State.leaveStrap (s : State) : State :=
  let s := s.setReg CHIP_STRAP.w (BitVec.ofNat 32 s.chip.straps)
  if bit s.chip.straps 7 then s else (s.wf CHIP_PRIME_STATUS.STEP 1).enterState stPriming

/-- The supplies are lost. -/
def supplyLoss (s : State) : State :=
  let s := s.fullReset stOff
  (s.withChip { s.chip with supplies := false }).withTapx {}

/-- SYS_RESET_N has been asserted for `us` µs; in Off, `valid` says that the supplies are valid. -/
def sysResetAssert (us : Nat) (valid : Bool) (s : State) : State :=
  if us < 10 then s
  else if s.chipState = stOff && !valid then s
  else
    let s := s.fullReset stStrap
    (s.withChip { s.chip with sysReset := true, supplies := true }).extestTakes

/-- SYS_RESET_N is deasserted with `straps` on the strap pins. -/
def sysResetDeassert (straps : Nat) (s : State) : State :=
  if s.chip.sysReset && s.chipState = stStrap then
    (s.withChip { s.chip with sysReset := false, straps := straps }).extestEnds.leaveStrap
  else s

/-- A register-triggered full reset, with its effect of a pulse on SYS_RESET_N (log entry 137). The straps are resampled: the levels of
STRAP0 to STRAP6 are free, and STRAP7 is tied low (R612; log entry 220). -/
def State.pulseReset (s : State) : State :=
  ((s.withChip { s.chip with straps := s.freeBits 7 }).nextFree.fullReset stStrap).leaveStrap

/-! ### Warm reset (R610) -/

/-- Registers that a warm reset keeps whole: CHIP_ID, CHIP_STRAP, the error log, HIF_STATUS and the MSI-X table, the time block's registers of
R610, the retirements and the spare rows that they leave. -/
def keptWarm (w : Nat) : Bool :=
  let within := fun a b => decide (a ≤ w) && decide (w < b)
  w = CHIP_ID.w || w = CHIP_STRAP.w || within (CHIP_ERR_LOG.w 0) (CHIP_ERR_LOG.w 64) || w = HIF_STATUS.w ||
    within (MSIX_ADDR_LO.w 0) (MSIX_ADDR_LO.w 2048) ||
    within (TIME_INCR.w 0) (TIME_INCR.w 0 + 2) || within (TIME_INCR.w 1) (TIME_INCR.w 1 + 2) ||
    (within (TIME_CELL_INCR.w 0) (TIME_CELL_INCR.w 512) && w % 4 = 0) ||
    within (TIME_PULSE_CTRL.w 0) (TIME_PULSE_CTRL.w 4) || within (TIME_CAPT_CFG.w 0) (TIME_CAPT_CFG.w 4) ||
    (List.range 8).any (fun n => within (REG_RETIRE.w n 0) (REG_RETIRE.w n 256)) ||
    (List.range 4).any (fun st => within (HBM_RETIRE.w st 0) (HBM_RETIRE.w st 1024) || within (HBM_SPARE_LEFT.w st 0) (HBM_SPARE_LEFT.w st 32))

/-- What stays of a channel's status: FENCED with its cause, or its lane repairs. -/
def State.keepChannel (t s : State) (st c : Nat) : State :=
  let t := (t.wf (HBM_CH_STATUS.REPAIRED_A st c) (s.rf (HBM_CH_STATUS.REPAIRED_A st c))).wf (HBM_CH_STATUS.REPAIRED_B st c)
    (s.rf (HBM_CH_STATUS.REPAIRED_B st c))
  if s.chState st c = hcFenced then
    (t.setChState st c hcFenced).wf (HBM_CH_STATUS.FENCE_CAUSE st c) (s.rf (HBM_CH_STATUS.FENCE_CAUSE st c))
  else t

/-- The time block after a warm reset: domains, pulses and captures run on; the cells take their domains at the next sync. -/
def TimeX.afterWarm (x : TimeX) : TimeX :=
  { tick := x.tick, domA := { x.domA with adj := 0 }, domB := { x.domB with adj := 0 }, pulses := x.pulses, capts := x.capts,
    cells := x.cells, stepA := true, stepB := true }

/-- A warm reset into Priming. -/
def State.warmReset (s : State) : State :=
  let t : State := { State.reset with
    regs := s.regs.filter (fun p => keptWarm p.1),
    hostMem := s.hostMem, outputs := s.outputs, pending := s.pending, free := s.free, tapx := s.tapx,
    cfg := s.cfg, chip := { supplies := s.chip.supplies, straps := s.chip.straps },
    hbmPc := (s.hbmPc.filter (fun p => p.2.moved != [])).map (fun p => (p.1, { moved := p.2.moved })),
    time := s.time.afterWarm, pairx := { heldIn := s.pairx.heldIn } }
  let t := t.wf CHIP_ERR_LOG_CTRL.VALID (s.rf CHIP_ERR_LOG_CTRL.VALID)
  let t := (List.range 64).foldl (fun t k => t.keepChannel s (k / 16) (k % 16)) t
  let t := (List.range 8).foldl (fun t n => t.wf (REG_RETIRE_STATUS.USED n) (s.rf (REG_RETIRE_STATUS.USED n))) t
  let t := (List.range 4).foldl (fun t st => t.wf (HBM_RETIRE_STATUS.USED st) (s.rf (HBM_RETIRE_STATUS.USED st))) t
  (((t.wf CHIP_STATE.WARM 1).wf CHIP_PRIME_STATUS.STEP 1).wb PAIR_STATUS.HOLD_IN s.pairx.heldIn).enterState stPriming

/-- A warm reset acts: not in Off or Strap, where the full reset holds; not while Halted (R473), nor in a failed priming (R614). -/
def State.warmOpen (s : State) : Bool :=
  s.powered && !s.halted && !s.chip.sysReset && !(s.chipState = stPriming && s.rb CHIP_PRIME_STATUS.FAIL)

/-- WARM_RESET_N has been asserted for `us` µs. -/
def warmResetPin (us : Nat) (s : State) : State := if 1 ≤ us && s.warmOpen then s.warmReset else s

/-- A write of `CHIP_RESET_CTRL` (R609): each reset has its key, and a write with any other is ignored. -/
def resetCtrlWrite (v : Nat) (s : State) : State :=
  if !s.answers then s
  else if bit v 0 && bits v 8 8 = 0xC3 then s.pulseReset
  else if bit v 1 && bits v 8 8 = 0x3C && s.warmOpen then s.warmReset
  else s

/-! ### Wellhead reset (R611) -/

/-- The completion of a command is lost. -/
def CmdX.lost (c : CmdX) : CmdX := { c with cq := lostCq }

/-- A ring returns to DISABLED. -/
def State.ringReset (s : State) (r : Nat) : State :=
  let s := ((s.wf (HIF_RING_CTRL.ENABLE r) 0).wf (HIF_RING_STATUS.STATE r) rsDisabled).wf (HIF_RING_STATUS.ARMED r) 0
  (((s.wf (HIF_RING_STATUS.OVERFLOW r) 0).wf (HIF_RING_STATUS.HELD r) 0).wf (HIF_RING_STATUS.CACHED r) 0).wf (HIF_RING_STATUS.SUSPENDED r) 0

/-- Outside Halted: DMA is abandoned and every ring returns to DISABLED; chains whose data has not been read are not sent, the others are sent
whole; commands already dispatched are applied; their completions, and event records not yet written, are lost. -/
def State.resetRings (s : State) : State :=
  let s := s.ringsUsed.foldl State.ringReset s
  let s := (s.withRings []).withEvts []
  let s := s.withTxs ((s.txs.filter (fun x => x.frags.isNone)).map (fun x => { x with cq := lostCq }))
  let s := s.withTbls (s.tbls.map (fun p => (p.1, { p.2 with sched := p.2.sched.map CmdX.lost })))
  s.withEngs (s.engs.map (fun p => (p.1, { p.2 with
    sched := p.2.sched.map CmdX.lost, snap := p.2.snap.map (fun x => { x with cmd := x.cmd.lost }) })))

/-- PCIE_PERST_N asserted (`perst`), a hot reset or DL_Down. -/
def wellheadReset (perst : Bool) (s : State) : State :=
  let s := if perst then s.withCfg { s.cfg with perst := true } else s
  if !s.powered then s
  else if s.halted then s.resetFunction
  else s.resetRings.resetFunction

/-- PCIE_PERST_N is deasserted: the wellhead may train its link (Table BU-4). -/
def perstDeassert (s : State) : State := s.withCfg { s.cfg with perst := false, training := s.linkReady }

/-! ### Priming (R487, R612 to R615) -/

/-- The rate of priming: 9.6 Gb/s, or 6.4 Gb/s with HBM_LOW. -/
def State.primeRate (s : State) : Nat := if s.rb CHIP_STRAP.HBM_LOW then 2 else 3

/-- Channel `c` of stack `st` ends its training well, with the lanes that a repair replaced in each pseudo-channel. -/
def State.trainedCh (s : State) (st c : Nat) : State :=
  (s.setChState st c hcActive).wf (HBM_STATUS.LIVE_CH st) (putBits (s.rf (HBM_STATUS.LIVE_CH st)) c 1 1)

/-- The spare rows that a full priming leaves to each pseudo-channel: all but the training row (R577). -/
def State.primeSpares (s : State) (st : Nat) : State :=
  (List.range 32).foldl (fun s q => s.wf (HBM_SPARE_LEFT.ROWS st q) (s.allRows - s.mainRows - 1)) s

/-- A time of `t` tenths of a ns in controller cycles at a rate of `HBM_STATUS.RATE` (R492, R499). -/
def hbmPeriods (rate t : Nat) : Nat := cdiv (t * 8 * rate) 100

/-- The timing words in use after priming: the nominal times at its rate, RL and WL longer by training (R499; log entry 221). -/
def State.primeTiming (s : State) (st rl wl : Nat) : State :=
  let n := hbmPeriods s.primeRate
  [(HBM_TIMING0.RL st, min 127 (n 200 + rl)), (HBM_TIMING0.WL st, min 127 (n 75 + wl)), (HBM_TIMING0.T_RCD st, n 140),
    (HBM_TIMING0.T_RP st, n 140), (HBM_TIMING1.T_RAS st, n 330), (HBM_TIMING1.T_RC st, n 475), (HBM_TIMING1.T_RRDS st, n 20),
    (HBM_TIMING1.T_RRDL st, n 40), (HBM_TIMING2.T_FAW st, n 160), (HBM_TIMING2.T_WR st, n 160), (HBM_TIMING2.T_RTP st, n 50),
    (HBM_TIMING2.T_CCDS st, 2), (HBM_TIMING2.T_CCDL st, 4), (HBM_TIMING3.T_REFI st, n 39000), (HBM_TIMING3.T_RFCPB st, n 1600)].foldl
      (fun s p => s.wf p.1 p.2) s

/-- HBM priming: every channel in training is trained, or after a warm reset checked, and those in `bad` are fenced. -/
def State.primeHbm (s : State) (bad : List (Nat × Nat)) (repairs : List (Nat × Nat × Nat)) : State :=
  let warm := s.rb CHIP_STATE.WARM
  let s := if warm then s else (List.range 4).foldl State.primeSpares s
  let s := if warm then s else repairs.foldl (fun s r =>
      (s.wf (HBM_CH_STATUS.REPAIRED_A r.1 r.2.1) r.2.2).wf (HBM_CH_STATUS.REPAIRED_B r.1 r.2.1) (r.2.2 / 4)) s
  let s := (List.range 64).foldl (fun s k =>
    if s.chState (k / 16) (k % 16) = hcTrain then s.trainedCh (k / 16) (k % 16) else s) s
  let s := (List.range 4).foldl (fun s st => (s.wf (HBM_STATUS.RATE st) s.primeRate).showLive st) s
  bad.foldl (fun s p =>
    if s.chState p.1 p.2 = hcFenced then s
    else (s.hbmErr (HBM_ERR.TRAIN_FAIL p.1) p.1 (hbmLoc (2 * p.2) 0 0) 2).fenceCh p.1 p.2 1) s

/-- The region tests of priming: failing rows enter the error log and the region reads BIST_FAIL, in RUN (R614). -/
def State.primeRegions (s : State) (fails : List (Nat × Nat × Nat)) (logic : Nat) : State :=
  let s := fails.foldl (fun s p => s.logError p.1 p.2.1 p.2.2 false) s
  (List.range 8).foldl (fun s n => s.bistResult n ((fails.filter (fun p => p.1 = n)).map (·.2.1)) (bit logic n)) s

/-- The step under way when a chip-level step of priming fails, by FAIL_STEP. -/
def failStep (f : Nat) : Nat := if f ≤ 2 then f else 4

/-- The governor reads VOUT_MODE once (R623, R625). -/
def State.readVoutMode (s : State) (exp fails : Nat) : State :=
  let s := s.pmbus pmbVoutMode 0 fails
  if fails < 3 then s.withPwr { s.pwr with voutExp := some (voutExponent exp) } else s.pmbusNack fails

/-- Every channel that is not fenced enters training, and the temperature of each stack is read (R487, R490). -/
def State.beginTraining (s : State) (temps : Vector Byte 4) : State :=
  let s := (List.range 4).foldl (fun s st => s.wf (HBM_TEMP.TEMP_C st) (temps.toList.getD st 0).toNat) s
  (List.range 64).foldl (fun s k => if s.chState (k / 16) (k % 16) = hcFenced then s else s.setChState (k / 16) (k % 16) hcTrain) s

/-- Step `k` is under way from now on (Table BU-4): the governor is clocked from step 2, the fuses are loaded before step 3, and from step 4 the
wellhead is ready for its link and HBM training runs beside the self-test. -/
def State.primeStep (s : State) (d : PrimeData) (k : Nat) : State :=
  let s := s.wf CHIP_PRIME_STATUS.STEP k
  if k = 2 then s.readVoutMode d.voutExp.toNat d.voutFails
  else if k = 3 then (if s.rb CHIP_STATE.WARM then s else s.wf CHIP_ID.HBM_GIB (if d.gib32 then 32 else 64))
  else if k = 4 then (s.withCfg { s.cfg with training := s.cfg.training || (!s.rb CHIP_STATE.WARM && !s.cfg.perst) }).beginTraining d.temps
  else s

/-- The steps up to `k` begin in turn. -/
def State.primeTo (s : State) (d : PrimeData) (k : Nat) : State :=
  (List.range (k + 1)).foldl (fun s i => if s.rf CHIP_PRIME_STATUS.STEP < i then s.primeStep d i else s) s

/-- Registers that the priming itself, the sensors and the governor have set by its end; the others hold what a reset leaves (R615). -/
def keptPrimed (w : Nat) : Bool :=
  let within := fun a b => decide (a ≤ w) && decide (w < b)
  keptWarm w || within CHIP_STATE.w (CHIP_STATE.w + 1) || w = CHIP_PRIME_STATUS.w || w = CHIP_ERR_LOG_CTRL.w || w = CHIP_DET_STATUS.w ||
    within (CHIP_EVT_PEND.w 0) (CHIP_EVT_PEND.w 128) || w = PWR_STATUS.w || w = PWR_ERR.w || w = PWR_IOUT.w ||
    (List.range 8).any (fun n => w = REG_RETIRE_STATUS.w n) ||
    (List.range 4).any (fun st => w = HBM_ERR.w st || w = HBM_ERR_LOC.w st || w = HBM_STATUS.w st || w = HBM_RETIRE_STATUS.w st ||
      (within (HBM_CH_STATUS.w st 0) (HBM_CH_STATUS.w st 16) && w % 4 = HBM_CH_STATUS.w st 0 % 4))

/-- Every memory is zero, and every register as a reset leaves it, but for what priming and the parts that run through it have set (R615). -/
def State.primed (s : State) : State :=
  let t : State := { State.reset with
    regs := s.regs.filter (fun p => keptPrimed p.1),
    hostMem := s.hostMem, outputs := s.outputs, pending := s.pending, free := s.free, tapx := s.tapx, cfg := s.cfg, chip := s.chip,
    evts := s.evts, hbmPc := (s.hbmPc.filter (fun p => p.2.moved != [])).map (fun p => (p.1, { moved := p.2.moved })),
    time := s.time, pairx := { heldIn := s.pairx.heldIn, chatter := s.pairx.chatter, released := s.pairx.released }, pwr := s.pwr }
  [PAIR_STATUS.HOLD_IN, PWR_AVS.TARGET_MV, PWR_AVS.SET_MV, PWR_THERM.TEMP_C, HBM_TEMP.TEMP_C 0, HBM_TEMP.TEMP_C 1, HBM_TEMP.TEMP_C 2, HBM_TEMP.TEMP_C 3].foldl
    (fun t f => t.wf f (s.rf f)) t

/-- Priming ends after `ms` ms: every step has passed. -/
def State.primingEnds (s : State) (ms : Nat) (rows : List (Nat × Nat × Nat)) (bad : List (Nat × Nat)) (repairs : List (Nat × Nat × Nat))
    (d : PrimeData) : State :=
  let s := (s.primeTo d 6).primed
  let s := (List.range 4).foldl (fun s st =>
    let x := d.longer.toList.getD st (0, 0)
    s.primeTiming st x.1.toNat x.2.toNat) s
  let s := (s.primeRegions rows d.logic.toNat).primeHbm bad repairs
  let s := (s.wf CHIP_PRIME_STATUS.STEP 7).wf CHIP_PRIME_STATUS.PRIME_MS ms
  (s.enterState stConfigurable).enableLink 8 0

/-- In Priming: a step begins, a chip-level step fails, or priming ends (R614, R615). With LBIST_SKIP there is no logic self-test to fail. -/
def primingComplete (e : PrimeEnd) (ms : Nat) (rows : List (Nat × Nat × Nat)) (bad : List (Nat × Nat)) (repairs : List (Nat × Nat × Nat))
    (d : PrimeData) (s : State) : State :=
  if s.chipState != stPriming || s.rb CHIP_PRIME_STATUS.FAIL then s else
  match e with
  | .step k => s.primeTo d (k + 2)
  | .failed f =>
    if f = 3 && s.rb CHIP_STRAP.LBIST_SKIP then s
    else ((s.primeTo d (failStep (f + 1))).wf CHIP_PRIME_STATUS.FAIL 1).wf CHIP_PRIME_STATUS.FAIL_STEP (f + 1)
  | .done => s.primingEnds ms rows bad repairs d

/-! ### Starting, quiescing and reconfiguring (R616 to R619) -/

/-- The result of a write to `CHIP_STATE_CTRL`; any but 0 raises event 0x010 with the register's offset. -/
def State.ctrlResult (s : State) (r : Nat) : State :=
  let s := s.wf CHIP_STATE.CTRL_RESULT r
  if r = 0 then s else s.raise 0x010 0x0C

/-- RUN: from Configurable or Quiesced, at a stroke at least 64 ahead. -/
def State.chipRun (s : State) : State :=
  let y := s.rf CHIP_RUN_STROKE.STROKE
  if !(s.configurable || s.chipState = stQuiesced) then s.ctrlResult 2
  else if !leadOk s.strokeNow y then s.ctrlResult 1
  else (s.withChip { s.chip with runAt := some y }).ctrlResult 0

/-- QUIESCE: in Running with no quiesce under way. -/
def State.chipQuiesce (s : State) : State :=
  let q := s.rf CHIP_QUIESCE_STROKE.STROKE
  if !s.running || s.chip.quiesceAt.isSome then s.ctrlResult 2
  else if !leadOk s.strokeNow q then s.ctrlResult 1
  else (s.withChip { s.chip with quiesceAt := some q }).ctrlResult 0

/-- CONFIG: in Quiesced. -/
def State.chipConfig (s : State) : State :=
  if s.chipState != stQuiesced then s.ctrlResult 2 else (s.ctrlResult 0).enterState stConfigurable

/-- A write of `CHIP_STATE_CTRL` (R616, R617, R619). -/
def stateCtrlWrite (v : Nat) (s : State) : State :=
  match bit v 0, bit v 1, bit v 2 with
  | true, false, false => s.chipRun
  | false, true, false => s.chipQuiesce
  | false, false, true => s.chipConfig
  | false, false, false => s
  | _, _, _ => s.ctrlResult 3

/-- The run begins at stroke `y`: no frame of an earlier stroke is to come, so the watermarks and the standpipe stand there (R616, R618). -/
def State.startAt (s : State) (y : Nat) : State :=
  let s := (List.range 8).foldl (fun s n => if s.regionRuns n then s.wf (SP_WM.STROKE n) y else s) s
  let s := s.wf SP_RELEASED.STROKE ((y + (2 ^ 48 - 1)) % 2 ^ 48)
  s.wf SP_STATUS.LOWEST s.lowest

/-- The ordering source reaches the start of the run stroke. -/
def runReached (s : State) : State :=
  match s.chip.runAt with
  | none => s
  | some y =>
    if (s.configurable || s.chipState = stQuiesced) && strokeLe y s.strokeNow then
      (((s.withChip { s.chip with
        runAt := none, runFrom := y, spanFrom := none, sweepFrom := if s.chip.spanFrom.isSome then s.chip.sweepFrom else y }).startAt y).enterState stRunning).pairStart
    else s

/-- Stroke Q is reached: from now on R607 applies, and the drain is under way. -/
def quiesceReached (s : State) : State :=
  match s.chip.quiesceAt with
  | none => s
  | some q =>
    if s.running && !s.chip.quiescing && strokeLe q s.strokeNow then
      ((s.withChip { s.chip with quiescing := true }).wf CHIP_STATE.DRAINING 1).pairStop
    else s

/-- The frames of the egress queues of region `n` are flushed and counted (R617). -/
def State.flushEgress (s : State) (n : Nat) : State :=
  (s.rx n).eq.foldl (fun s p =>
    p.2.ents.foldl (fun s e => (s.cisCount n 7 e.frame.key.stroke).loseEg n e.frame 14) (s.setEgEnts n p.1 [])) s

/-- 10 ms have passed since stroke Q with frames still queued. -/
def quiesceFlush (s : State) : State :=
  match s.chip.quiesceAt with
  | none => s
  | some q =>
    if s.running && s.chip.quiescing && decide (s.strokeTime q + 10000000 ≤ s.orderNs) then (List.range 8).foldl State.flushEgress s else s

/-- Every queue is empty: virtual output queues, crossings, egress queues and host channels. -/
def State.queuesEmpty (s : State) : Bool :=
  (List.range 8).all (fun n => (s.rx n).voq.all (fun q => q.2.ents.isEmpty) && (s.rx n).eq.all (fun q => q.2.ents.isEmpty)) &&
    s.wind.xfer.isEmpty && s.hostRx.isEmpty

/-- Every frame of strokes below Q is processed and every queue is empty: the chip enters Quiesced. -/
def quiesceDone (s : State) : State :=
  match s.chip.quiesceAt with
  | none => s
  | some q =>
    let last := (q + (2 ^ 48 - 1)) % 2 ^ 48
    if s.running && s.chip.quiescing && (List.range 8).all (fun n => !s.regionRuns n || s.wmPassed n last) && strokeLe last (s.rf SP_RELEASED.STROKE) &&
        s.queuesEmpty then
      ((s.withChip { s.chip with quiescing := false, quiesceAt := none, spanFrom := some q }).wf CHIP_STATE.DRAINING 0).enterState stQuiesced
    else s

/-! ### Meanings -/

def execSupplyLoss (s : State) : Host.Outcome State Fault Refusal := .next (supplyLoss s)
def execSysResetAssert (us : BitVec 16) (valid : Bool) (s : State) : Host.Outcome State Fault Refusal := .next (sysResetAssert us.toNat valid s)
def execSysResetDeassert (straps : Byte) (s : State) : Host.Outcome State Fault Refusal := .next (sysResetDeassert straps.toNat s)
def execWarmReset (us : BitVec 16) (s : State) : Host.Outcome State Fault Refusal := .next (warmResetPin us.toNat s)
/-- The write has FULL = 1; it acts while Halted and in a failed priming too (R437, R614). -/
def execResetCtrlFull (v : Word) (s : State) : Host.Outcome State Fault Refusal := .next (resetCtrlWrite (putBits v.toNat 0 1 1) s)
/-- The write has WARM = 1. -/
def execResetCtrlWarm (v : Word) (s : State) : Host.Outcome State Fault Refusal := .next (resetCtrlWrite (putBits v.toNat 1 1 1) s)
def execWellheadReset (perst : Bool) (s : State) : Host.Outcome State Fault Refusal := .next (wellheadReset perst s)
def execPciePerstNDeassert (s : State) : Host.Outcome State Fault Refusal := .next (perstDeassert s)
def execPrimingComplete (e : PrimeEnd) (ms : BitVec 16) (rows : List (Region × Oct × BitVec 20)) (bad : List (Stack × Channel))
    (repairs : List (Stack × Channel × BitVec 4)) (d : PrimeData) (s : State) : Host.Outcome State Fault Refusal :=
  .next (primingComplete e ms.toNat (rows.map (fun r => (r.1.val, r.2.1.val, r.2.2.toNat))) (bad.map (fun b => (b.1.val, b.2.val)))
    (repairs.map (fun r => (r.1.val, r.2.1.val, r.2.2.toNat))) d s)
/-- The write has RUN = 1. -/
def execChipRun (v : Word) (s : State) : Host.Outcome State Fault Refusal := .next (onWrite (stateCtrlWrite (putBits v.toNat 0 1 1)) s)
def execRunStrokeReached (s : State) : Host.Outcome State Fault Refusal := .next (runReached s)
/-- The write has QUIESCE = 1. -/
def execChipQuiesce (v : Word) (s : State) : Host.Outcome State Fault Refusal := .next (onWrite (stateCtrlWrite (putBits v.toNat 1 1 1)) s)
def execQuiesceStrokeReached (s : State) : Host.Outcome State Fault Refusal := .next (quiesceReached s)
def execQuiesceFlushTimeout (s : State) : Host.Outcome State Fault Refusal := .next (quiesceFlush s)
def execQuiesceDrainDone (s : State) : Host.Outcome State Fault Refusal := .next (quiesceDone s)
/-- The write has CONFIG = 1. -/
def execChipConfig (v : Word) (s : State) : Host.Outcome State Fault Refusal := .next (onWrite (stateCtrlWrite (putBits v.toNat 2 1 1)) s)

end Sys2Proof.Machine
end

