-- ==== Sys2Proof/Machine/Registers.lean ====
section
/-! DEFINITION. BAR accesses in general (R9 to R12, R43, R407, R598, R663): any read of BAR0, BAR2 and BAR4, and any write of BAR0. A write
of a register whose effect has a command of its own goes to that command's meaning. -/

namespace Sys2Proof.Machine

/-- Index `i` of the element of a repeated register. -/
def RegHit.ix (h : RegHit) (i : Nat) : Nat := h.idx.getD i 0

/-- The first word of the element that holds word `w`. -/
def RegHit.base (h : RegHit) (w : Nat) : Nat := w - h.word

/-- The lane group and lane of a lane register. -/
def RegHit.lane (h : RegHit) : Nat × Nat := match h.idx with
  | [l] => (8, l)
  | _ => (h.ix 0, h.ix 1)

/-- Words joined by R10: a 64-bit register, or the BASE of a gate list (R400). -/
def RegHit.joined (h : RegHit) : Bool := h.desc.wide || (h.desc.id = .tmGateCtrl && (h.word = 2 || h.word = 3))

/-- `k` words from word `w`, as one number. -/
def State.wordsAt (s : State) (w : Nat) : Nat → Nat
  | 0 => 0
  | k + 1 => (s.reg w).toNat + 2 ^ 32 * s.wordsAt (w + 1) k

/-- The register belongs to the register set of a lane that starts no port: it reads 0 and ignores writes (R665). -/
def State.portSetGone (s : State) (h : RegHit) : Bool :=
  (h.desc.id = .pbPortSet || h.desc.id = .pbPortCfg || h.desc.id = .pbViolCtrl) && s.portWidth (h.ix 0) (h.ix 1 * 8 + h.ix 2) = 0

/-! ### Unscheduled writes (R43) -/

/-- Rule-set bank `b` is in use by an ingress pipeline of the chip (R313). -/
def State.bankInUse (s : State) (b : Nat) : Bool := (List.range 16).any (fun i => s.bankUsed (i / 2) (i % 2) b)

/-- A control-store address of engine `n` lies in the range of a valid binding of a bank in use (R313). -/
def State.storeInUse (s : State) (n a : Nat) : Bool :=
  (List.range 512).any (fun k =>
    let b := k / 256
    let i := k % 256
    let e := s.rf (PMP_BIND.ENTRY n b i)
    s.rb (PMP_BIND.VALID n b i) && s.bankInUse b && decide (e ≤ a) && decide (a < min (e + s.rf (PMP_BIND.LEN n b i)) 16384))

/-- A node is met within `k` steps of a list of region `n` that starts at node `i` (R348). -/
def State.nodeReaches (s : State) (n node i : Nat) : Nat → Bool
  | 0 => false
  | k + 1 => i = node || (!s.rb (CIS_MC_NODE.LAST n i) && s.nodeReaches n node (s.rf (CIS_MC_NODE.NEXT n i)) k)

/-- Group bank `b` is in use: by a pipeline, or by copies in flight (R346, R349). -/
def State.groupBankUsed (s : State) (b : Nat) : Bool := s.bankInUse b || s.rf (WL_MC_INFLIGHT.COPIES b) != 0

/-- A node of region `n` is reachable from a group entry of a bank in use (R346). -/
def State.nodeInUse (s : State) (n node : Nat) : Bool :=
  (List.range 32768).any (fun k =>
    s.groupBankUsed (k / 16384) && s.rb (CIS_MC_GROUP.HEAD_VALID n (k / 16384) (k % 16384)) &&
      s.nodeReaches n node (s.rf (CIS_MC_GROUP.HEAD n (k / 16384) (k % 16384))) (s.rf (CIS_MC_CFG.MAX_COPIES n)))

/-- The register's fields fall under R43 as things stand. -/
def State.guarded (s : State) (h : RegHit) : Bool :=
  match h.desc.id with
  | .bankTable => s.bankUsed (h.ix 0) (h.ix 1) (h.ix 2)
  | .pmpBind => s.bankInUse (h.ix 1)
  | .pmpStore => s.storeInUse (h.ix 0) (h.ix 1)
  | .cisMcGroup => s.groupBankUsed (h.ix 1)
  | .cisMcNode => s.nodeInUse (h.ix 0) (h.ix 1)
  | _ => true

/-! ### Storing a write -/

/-- A write to a Configurable-only field that would have changed it is reported as the field's chapter says (R663). -/
def State.cfgIgnored (s : State) (h : RegHit) (w : Nat) : State :=
  let n := h.ix 0
  match h.desc.id with
  | .cisPoolCfg | .cisSumpCfg => s.cisErr (CIS_ERR.CFG_IGNORED n) n
  | .tblCfg | .tblHashSeed => s.tblErr (TBL_ERR.CFG_IGNORED n) n
  | .feHashSeed | .feHomeSeed | .fePartCfg => s.feErr (FE_ERR.CFG_IGNORED n) n
  | .pairCfg => s.pairErr PAIR_ERR.CFG_IGNORED
  | _ => s.raise 0x010 (4 * h.base w)

/-- The bits of `x` that are 0 in `m`. -/
def maskClear (x m : Nat) : Nat := x - (x &&& m)

/-- Write `nb` words of a register element's value back. -/
def State.putWords (s : State) (w x : Nat) : Nat → State
  | 0 => s
  | k + 1 => (s.setReg w (BitVec.ofNat 32 x)).putWords (w + 1) (x / 2 ^ 32) k

/-- Store `nb` words `v` at word `k` of a register by its field types (Table SC-3) and storing rules: RW fields take the value, RW1C bits
written 1 clear, all others ignore the write. An unscheduled write has its effect at once: R43 leaves undefined the stroke at which it does
(DESIGN CHOICE, log entry 167). -/
def State.storeReg (s : State) (h : RegHit) (w k nb v : Nat) : State :=
  let d := h.desc
  let b := h.base w
  let old := s.wordsAt b d.nw
  let here := (2 ^ (32 * nb) - 1) * 2 ^ (32 * k)
  let put := putBits old (32 * k) (32 * nb) v
  let rw := maskPut old (applyFixes d.fixes put) (d.rw &&& here)
  let new := maskClear rw (d.w1c &&& (v % 2 ^ (32 * nb) * 2 ^ (32 * k)))
  let held := !s.configurable && decide (new &&& d.cfg ≠ old &&& d.cfg)
  let s := if held then s.cfgIgnored h w else s
  let new := if held then maskPut new old d.cfg else new
  let s := if decide (new &&& d.r43 ≠ old &&& d.r43) && s.guarded h then s.unsched (some (h.ix 0)) else s
  s.putWords b new d.nw

/-! ### Registers whose fields act together -/

/-- Show the lags of R32 and R36; a configured recirculation lag below the computed one raises event 0x012. R32 gives the event no moment:
the model raises it at each write that Configurable accepts of `CHIP_STROKE_CFG` or `SP_CFG` (DESIGN CHOICE, log entry 158). -/
def State.showLags (s : State) : State :=
  let need := cdiv (s.rf SP_CFG.WINDOW_NS + 320) s.strokeLen
  let lag := s.rf CHIP_STROKE_CFG.RECIRC_LAG
  let s := (s.wf CHIP_STROKE_CFG.EFF_RECIRC_LAG (max lag need)).wf CHIP_STROKE_CFG.VERDICT_LAG s.verdictLag
  if lag < need then s.raise 0x012 (max lag need) else s

/-- A write of `CHIP_STROKE_CFG` (R44): one that LEN takes resets every port's last stroke (R619). -/
def State.strokeCfgWrite (s : State) (h : RegHit) (w v : Nat) : State :=
  let t := s.storeReg h w 0 1 v
  if s.configurable then ({ t with lastKey := [], time := { t.time with floor := none } }).showLags else t

/-- A write of `SP_CFG`. -/
def State.spCfgWrite (s : State) (h : RegHit) (w v : Nat) : State :=
  let t := s.storeReg h w 0 1 v
  if s.configurable then t.showLags else t

/-- A write of `CIS_POOL_CFG[k]`: refused when the pools would hold more than 64,512 units (R362). Outside Configurable COUNT takes no write at all
(R663), and one that would change it sets CFG_IGNORED alone, whatever the total (DEDUCED, log entry 199). -/
def State.poolCfgWrite (s : State) (h : RegHit) (w v : Nat) : State :=
  let n := h.ix 0
  let p := h.desc.sub
  let total := ((List.range 4).map (fun k => poolUnits k * (if k = p then v % 2 ^ 16 else s.rf (CIS_POOL_CFG.COUNT n k)))).sum
  if s.configurable && decide (64512 < total) then s.cisErr (CIS_ERR.CFG_REJECT n) n else s.storeReg h w 0 1 v

/-- A write of `CIS_SUMP_CFG`: a size above the maximum is stored as the maximum (R340), and the live pages follow it. -/
def State.sumpCfgWrite (s : State) (h : RegHit) (w v : Nat) : State :=
  let most := if s.rf CHIP_ID.HBM_GIB = 64 then 4096 else 2048
  (s.storeReg h w 0 1 (putBits v 0 13 (min most (v % 2 ^ 13)))).showLive (h.ix 0 / 2)

/-- A write of `WL_CFG`: PLANE_EN = 0 is ignored (R372). -/
def State.wlCfgWrite (s : State) (h : RegHit) (w v : Nat) : State :=
  if v % 32 = 0 then s else (s.storeReg h w 0 1 v).wf WL_STATUS.PLANES_ACTIVE v

/-- A write of `CIS_MIR[k]`: the session counts from 0 (R350). -/
def State.mirWrite (s : State) (h : RegHit) (w v : Nat) : State :=
  let n := h.ix 0
  let k := h.ix 1
  [0, 1].foldl (fun s p => s.setPipe n p { s.pipe n p with mir := outside (k * 1024) ((k + 1) * 1024) (s.pipe n p).mir }) (s.storeReg h w 0 2 v)

/-- A write of `TM_CLASS[q]` word 0: a class whose GROUP or STRICT changes takes the virtual time of its new group (R376). -/
def State.tmClassWrite (s : State) (h : RegHit) (w v : Nat) : State :=
  let n := h.ix 0
  let q := h.ix 1
  let t := s.storeReg h w 0 1 v
  if (s.reg w).toNat % 16 = (t.reg w).toNat % 16 then t
  else t.setEgq n q { t.egq n q with tag := (t.sgroup n (q / 16) (t.classGroup n q)).vt }

/-- A write of a gate entry: ignored in the active bank and in a pending one (R384); a rewritten entry is good again (R393). A host channel's
entries are registers that the device does not act on (R400). -/
def State.gateListWrite (s : State) (h : RegHit) (w v : Nat) : State :=
  let n := h.ix 0
  let l := h.ix 1
  let place := l * 512 + h.ix 2 * 256 + h.ix 3
  if 64 ≤ l then s.storeReg h w 0 1 v
  else if h.ix 2 = s.rf (TM_GATE_CTRL.ACTIVE n l) || s.rb (TM_GATE_CTRL.PENDING n l) then s.tmErr (TM_ERR.CFG_IGNORED n) n 2 place
  else
    let t := s.storeReg h w 0 1 v
    t.setRx n { t.rx n with gateBad := (t.rx n).gateBad.filter (fun k => k != place) }

/-- A write of a multicast entry: its next read is good (R556). -/
def State.mcWrite (s : State) (h : RegHit) (w nb v key : Nat) : State :=
  { s.storeReg h w 0 nb v with mcBad := s.mcBad.filter (fun p => p.1 != key) }

/-- A write of `PMP_STORE[a]` writes both copies (R310). -/
def State.storeWrite (s : State) (h : RegHit) (w v : Nat) : State :=
  { s.storeReg h w 0 1 v with pmp2 := mset 0 s.pmp2 (h.ix 0 * 16384 + h.ix 1) 0 }

/-- A write of `PMP_BIND[i]` writes both copies: an error of the entry ends once one of its words is written (R557, R312; that one word is enough is
a DESIGN CHOICE, log entry 177). -/
def State.bindWrite (s : State) (h : RegHit) (w k nb v : Nat) : State :=
  { s.storeReg h w k nb v with bindErr := mset 0 s.bindErr (h.ix 0 * 512 + h.ix 1 * 256 + h.ix 2) 0 }

/-- A write of `CHIP_EVT_PEND[k]`: the summary bit follows (Table EV-10). -/
def State.evtPendWrite (s : State) (h : RegHit) (w v : Nat) : State :=
  let k := h.ix 0
  let t := s.storeReg h w 0 1 v
  let u := CHIP_EVT_SUMMARY.w (k / 32)
  t.setReg u (BitVec.ofNat 32 (putBits (t.reg u).toNat (k % 32) 1 (b2n (t.reg w != 0))))

/-- A write of `TIME_PULSE_WIDTH` or `TIME_PULSE_PERIOD` stores the width within its bounds (R515). -/
def State.pulseStore (s : State) (h : RegHit) (w nb v : Nat) : State :=
  let i := h.ix 0
  let t := s.storeReg h w 0 nb v
  t.wf (TIME_PULSE_WIDTH.NS i) (fixWidth (t.rf (TIME_PULSE_PERIOD.NS i)) (t.rf (TIME_PULSE_WIDTH.NS i)))

/-- A write of a parser or classifier bank table; a parser entry in error is good again once one of its words is written (R158; that one word
is enough is a DESIGN CHOICE, log entry 177). -/
def State.bankTableWrite (s : State) (h : RegHit) (w k nb v : Nat) : State :=
  let n := h.ix 0
  let p := h.ix 1
  let s := s.storeReg h w k nb v
  if h.desc.sub = 0 then s
  else
    let ent := if h.desc.sub = 4 then h.desc.base - 4289536 + h.ix 3 else h.ix 3
    let x := s.pipe n p
    s.setPipe n p { x with badEnt := x.badEnt.filter (fun l => l != entLoc (h.desc.sub - 1) (h.ix 2) ent) }

/-- A write of `PB_FC_CFG` took MODE from `was`: TX_XOFF shows pause or PFC of no other mode (R96, log entry 170). -/
def State.modeLeft (s : State) (n l was : Nat) : State :=
  if s.rf (pbf PB_FC_CFG.MODE n l) = was then s else s.wf (pbf PB_PORT_STATUS.TX_XOFF n l) 0

/-- The hashed area has other bounds: its occupied slots are counted anew (R202, R233). -/
def State.recount (s : State) (n : Nat) : State :=
  let u := ((s.heldSlots n).filter (fun i => s.occUnit n i (s.ep n i))).length
  if s.rf (TBL_OCC.USED n) = u then s else s.wf (TBL_OCC.USED n) u

/-- A write changed N or the base of the table sweeps from what they were in `o`: once frames have run, the boundaries of the new grid count from
now on (DESIGN CHOICE, log entry 179: R43 leaves the stroke of the change undefined). -/
def State.newTblGrid (s : State) (n : Nat) (o : State) : State :=
  if (s.running || s.chip.spanFrom.isSome) &&
      (s.rf (TBL_AGE_CFG.N n) != o.rf (TBL_AGE_CFG.N n) || s.rf (TBL_AGE_BASE.STROKE n) != o.rf (TBL_AGE_BASE.STROKE n)) then
    s.setTbl n { s.tbl n with swept := some s.strokeNow }
  else s

/-- The same for the sweeps of a flow engine. -/
def State.newFlowGrid (s : State) (e : Nat) (o : State) : State :=
  if (s.running || s.chip.spanFrom.isSome) &&
      (s.rf (FE_SWEEP_CFG.N_F e) != o.rf (FE_SWEEP_CFG.N_F e) || s.rf (FE_SWEEP_BASE.STROKE e) != o.rf (FE_SWEEP_BASE.STROKE e)) then
    s.setEng e { s.eng e with swept := some s.strokeNow }
  else s

/-- Write `v`, `nb` words, at word `k` of the register at word offset `w` − `h.word`, whatever it does. -/
def State.writeHit (s : State) (h : RegHit) (w k nb v : Nat) : State :=
  let x := BitVec.ofNat 32 v
  let a := h.ix 0
  let b := h.ix 1
  let c := h.ix 2
  if s.portSetGone h then s
  else match h.desc.id with
    | .chipStateCtrl => stateCtrlWrite v s
    | .chipResetCtrl => resetCtrlWrite v s
    | .chipHaltCtrl => haltCtrlWrite x s
    | .chipErrLogCtrl => errLogWrite x s
    | .chipStrokeCfg => s.strokeCfgWrite h w v
    | .chipEvtPend => s.evtPendWrite h w v
    | .chipEvtSrc => if (exportOf a).isSome then s else s.storeReg h w k nb v
    | .pairCtrl => pairCtrlWrite x s
    | .pairCapCtrl => capWrite x s
    | .timeAdj => timeAdjWrite a v s
    | .timeLoadCtrl => if bit v 0 then timeLoadGo a s else s
    | .timeSnap => if bit v 0 then timeSnapGo s else s
    | .timeCfg => stampDomainWrite (v % 2) s
    | .timeOswCtrl => oswCtrlWrite v s
    | .timePulseCtrl => pulseCtrlWrite a v s
    | .timePulseStartNs | .timePulseStartSec => pulseRegWrite a (fun s => s.storeReg h w k nb v) s
    | .timePulsePeriod | .timePulseWidth => pulseRegWrite a (fun s => s.pulseStore h w nb v) s
    | .hifRingCtrl => ringCtrlWrite a x s
    | .hifRingCtx => ringCtxWrite a (fun s => s.storeReg h w k nb v) s
    | .hifRingInval => invalWrite x s
    | .msixCtrl => msixCtrlWrite a x s
    | .hbmFreqCtrl => freqCtrlWrite a x s
    | .hbmChCtrl => chCtrlWrite a b x s
    | .hbmScrubPass => hbmPassWrite a x s
    | .hbmRetire => hbmRetireWrite a b x s
    | .ctCtrl => ctCtrlWrite v s
    | .ctCnt => ctCntWrite a b v s
    | .ctSel => ctSelWrite a b (fun s => s.storeReg h w k nb v) s
    | .ctSample => if k = 0 then ctSampleWrite a v s else s
    | .regQCtrl => qCtrlWrite a x s
    | .regRetire => retireWrite a b x (s.rowObjs a (bits v 20 4) (bits v 0 20)) s
    | .regScrubPass => regPassWrite a x s
    | .pbShape => shapeWrite a b x s
    | .pbPortCfg => portCfgWrite a (b * 8 + c) x s
    | .pbViolCtrl => violCtrlWrite a (b * 8 + c) x s
    | .laneCfg => laneCfgWrite h.lane.1 h.lane.2 x s
    | .laneCtrl => laneCtrlWrite h.lane.1 h.lane.2 x s
    | .laneTxTaps => laneTapsWrite h.lane.1 h.lane.2 x s
    | .lanePrbsCfg => prbsCfgWrite h.lane.1 h.lane.2 x s
    | .ipParseCfg => parseCfgWrite a b v s
    | .ipClSwitchCtrl => switchCtrlWrite a b v s
    | .ipClSwitchStroke => switchStrokeWrite a b v s
    | .pmpTest => pumpTestWrite a v s
    | .pmpPool => poolWrite a v s
    | .pmpRtHistSel => rtHistCopy a v s
    | .pmpStore => s.storeWrite h w v
    | .pmpBind => s.bindWrite h w k nb v
    | .cisFreeLogCtrl => freeLogWrite a x s
    | .cisMir => s.mirWrite h w v
    | .cisPoolCfg => s.poolCfgWrite h w v
    | .cisSumpCfg => s.sumpCfgWrite h w v
    | .cisMcGroup => s.mcWrite h w 1 v (a * 2 ^ 17 + b * 2 ^ 14 + c)
    | .cisMcNode => s.mcWrite h w 2 v (a * 2 ^ 17 + 2 ^ 16 + b)
    | .spCfg => s.spCfgWrite h w v
    | .wlCfg => s.wlCfgWrite h w v
    | .tmGateCtrl => if k = 0 then gateCtrlWrite a b x s else s.storeReg h w k nb v
    | .tmGateList => s.gateListWrite h w v
    | .tmClass => if k = 0 then s.tmClassWrite h w v else s.storeReg h w k nb v
    | .tmDipSel => dipSelWrite a x s
    | .tmPolSchedCtrl => polSchedWrite a x s
    | .tmPolPeekIdx => polPeekWrite a x s
    | .pbPortSet => (s.storeReg h w k nb v).modeLeft a (b * 8 + c) (s.rf (pbf PB_FC_CFG.MODE a (b * 8 + c)))
    | .bankTable => s.bankTableWrite h w k nb v
    | .tblCfg => (s.storeReg h w k nb v).recount a
    | .tblAge => (s.storeReg h w k nb v).newTblGrid a s
    | .feSweep => (s.storeReg h w k nb v).newFlowGrid a s
    | .feErr => (s.storeReg h w k nb v).noteStall a
    | .cisInValve => (s.storeReg h w k nb v).portValves s a b
    | .cisPfcValve => (s.storeReg h w k nb v).classValve s a b
    | .cisSpillCfg => (s.storeReg h w k nb v).regionValve s a
    | .cisEqValve => (s.storeReg h w k nb v).egressValves s a b
    | .tmPort => (s.storeReg h w k nb v).gatesOff a b
    | .pairCfg | .chipDet => (s.showHealth.storeReg h w k nb v).showHealth
    | .chipStrokeNow | .ctCycle | .feHashSeed | .feHomeSeed | .fePartCfg | .pairStatus | .lanePrbsCnt | .plain | .ctUnitStatus
    | .tblStatus | .feStatus | .tblHashSeed | .timeCaptNs => s.storeReg h w k nb v

/-- The low word of a 64-bit value is held (R10); a write that its register ignores as things stand is ignored here (R431, R517, R665). The low word
of `IP_CL_SWITCH_STROKE` is held while a switch is pending, and the high word is then rejected (DEDUCED from R10 and R187, log entry 166). -/
def State.holdLow (s : State) (h : RegHit) (w v : Nat) : State :=
  let keep := fun s : State => s.withHold (mset none s.hold w (some (BitVec.ofNat 32 v)))
  if s.portSetGone h then s
  else if h.desc.id = .hifRingCtx then ringCtxWrite (h.ix 0) keep s
  else if h.desc.id = .timePulseStartSec then pulseRegWrite (h.ix 0) keep s
  else keep s

/-- A high-word write gives the register its full 64-bit value: it neither ignores nor rejects the write as things stand (R187, R431, R517, R663,
R665). -/
def State.takesFull (s : State) (h : RegHit) : Bool :=
  !s.portSetGone h && (s.configurable || h.desc.cfg = 0) &&
    (match h.desc.id with
      | .hifRingCtx => s.ringState (h.ix 0) = rsDisabled
      | .ipClSwitchStroke => !s.rb (IP_CL_STATUS.PENDING (h.ix 0) (h.ix 1))
      | .timePulseStartSec => !s.rb (TIME_PULSE_CTRL.EN (h.ix 0))
      | _ => true)

/-- A 32-bit write at word offset `w` (R10, R11): the low word of a 64-bit value is held, and the value takes effect at the write of its high
word, with the low word held or, where none is, the register's own. A low word stays held until the register takes a full value. -/
def State.writeWord (s : State) (w v : Nat) : State :=
  match findReg w with
  | none => s
  | some h =>
    if !h.joined then s.writeHit h w h.word 1 v
    else if h.desc.rw = 0 then s
    else if h.word % 2 = 0 then s.holdLow h w v
    else
      let lo := ((mget none s.hold (w - 1)).getD (s.reg (w - 1))).toNat
      (if s.takesFull h then s.withHold (mset none s.hold (w - 1) none) else s).writeHit h w (h.word - 1) 2 (lo + 2 ^ 32 * (v % 2 ^ 32))

/-! ### Reads -/

/-- What word `w` of a port's register set reads, `v` being what it holds: while the transmit gate is closed no pause is sent, and TX_XOFF reads 0
(R96, R533). -/
def State.portReads (s : State) (n l w v : Nat) : Nat :=
  if w = (pbf PB_PORT_STATUS.TX_XOFF n l).w && !s.rb PAIR_STATUS.GATE then putBits v 16 8 0 else v

/-- The chip runs, or ran when it halted: a status that follows the run keeps its value from the halt on (R472). -/
def State.ranOn (s : State) : Bool := s.running || (s.halted && s.chip.ranAtHalt)

/-- A sweeper's lap is in progress from when the step of its boundary may be applied until it is (DESIGN CHOICE, log entry 30). -/
def State.tblSweeping (s : State) (n : Nat) : Bool :=
  s.ranOn && s.regionRuns n && (match s.boundary n with
    | some b => s.sweepReady n b
    | none => false)

def State.flowSweeping (s : State) (e : Nat) : Bool :=
  s.ranOn && s.regionRuns e && (match s.flowBoundary e with
    | some b => s.flowSweepReady e b
    | none => false)

/-- What a register shows is brought up to date before it is read. -/
def State.showHit (s : State) (h : RegHit) (w : Nat) : State :=
  match h.desc.id with
  | .chipStrokeNow => s.putWords (h.base w) s.strokeNow 2
  | .pairStatus => if s.halted then s else s.showHealth
  | .ctCycle => if h.word = 0 then s.showCycle (h.ix 0) else s
  | .ctCnt => if h.word = 0 then s.showCount (h.ix 0) (h.ix 1) else s
  | .ctUnitStatus | .ctSample => (List.range 8).foldl (fun s k => s.showCount (h.ix 0) k) s
  | .lanePrbsCnt => if h.word = 0 then s.countPrbs h.lane.1 h.lane.2 none else s
  | .tblStatus => s.wb (TBL_STATUS.SWEEP_ACTIVE (h.ix 0)) (s.tblSweeping (h.ix 0))
  | .feStatus => s.wb (FE_STATUS.SWEEP_ACTIVE (h.ix 0)) (s.flowSweeping (h.ix 0))
  | _ => s

/-- A read of one register word: 64-bit values by R10, RC fields cleared (R12), the control store from the copy that READ_COPY selects. -/
def State.readHit (s : State) (h : RegHit) (w : Nat) : State × Nat :=
  let s := s.showHit h w
  let v := (s.reg w).toNat
  if h.joined then
    if h.word % 2 = 0 then (s.withLatch (mset 0 s.latch w (s.reg (w + 1))), v) else (s, (mget 0 s.latch (w - 1)).toNat)
  else if h.desc.id = .pmpStore then
    (s, if s.rb (PMP_CFG.READ_COPY (h.ix 0)) then v ^^^ mget 0 s.pmp2 (h.ix 0 * 16384 + h.ix 1) else v)
  else if h.desc.id = .pbPortSet && h.desc.rc = 0 then (s, s.portReads (h.ix 0) (h.ix 1 * 8 + h.ix 2) w v)
  else
    let m := h.desc.rc / 2 ^ (32 * h.word) % 2 ^ 32
    if m = 0 then (s, v) else (s.setReg w (BitVec.ofNat 32 (maskClear v m)), v)

/-- A 32-bit read at word offset `w`. -/
def State.readWord (s : State) (w : Nat) : State × Nat :=
  match findReg w with
  | none => (s, 0)
  | some h =>
    if s.portSetGone h || (h.desc.id = .chipEvtSrc && (exportOf (h.ix 0)).isSome) then (s, 0)
    else if h.desc.id = .timeCaptNs then
      let r := captureRead (h.ix 0) s
      (r.1, r.2.toNat)
    else s.readHit h w

/-- Reads of `k` words from word `w`, in ascending order; the words read, as bytes. -/
def State.readWords (s : State) (w : Nat) : Nat → State × List Byte
  | 0 => (s, [])
  | k + 1 =>
    let r := s.readWord (w % 2 ^ 24)
    let t := r.1.readWords (w + 1) k
    (t.1, bytesLE 4 r.2 ++ t.2)

/-- Bytes as the words that the bus returns, the first in the lowest bits. -/
def packWords (l : List Byte) : List Word :=
  (List.range (cdiv l.length 4)).map (fun i => BitVec.ofNat 32 (natLE ((l.drop (4 * i)).take 4)))

/-- A read of `size` bytes of BAR0 at byte offset `off`: every word it touches is read, and the addressed bytes return (R9). -/
def State.readBar0 (s : State) (off size : Nat) : State :=
  let r := s.readWords (off / 4) (cdiv (off % 4 + size) 4)
  r.1.withReadData (packWords ((r.2.drop (off % 4)).take size))

/-! ### Counter pages (R598, Table CT-4) -/

/-- The 8-byte value at offset `o` of page `g`, as the register field that holds it. -/
def State.pageField (s : State) (g o : Nat) : Option Fld :=
  let k := (o - 8) / 8
  let c := (o - 0x100) / 8
  if g = 255 then
    (if o = 0 then some CHIP_STROKE_NOW.STROKE else if o = 8 then some ⟨CT_STATUS.w, 0, 32⟩ else if o = 0x10 then some CT_FREEZE_STROKE.STROKE else none)
  else if counterUnits ≤ g then none
  else if o = 0 then some (CT_CYCLE.CYCLES g)
  else if o < 0x48 then some (CT_CNT.COUNT g k)
  else if o < 0x100 then none
  else if g < 64 then
    let p := (o - 0x100) / 0xC0
    let l := g % 8 * 8 + p
    if p < 8 ∧ s.portWidth (g / 8) l ≠ 0 then some (PB_PORT_CNT.COUNT (g / 8) (g % 8) p ((o - 0x100) % 0xC0 / 8)) else none
  else if g < 80 then (if c < 72 then some (IP_PARSE_EXIT_CNT.COUNT ((g - 64) / 2) (g % 2) c) else none)
  else if 104 ≤ g ∧ g < 112 then
    (if c < 9 then some (FE_CNT.COUNT (g - 104) c) else if 16 ≤ c ∧ c < 24 then some (PMP_CNT.COUNT (g - 104) (c - 16)) else none)
  else if 112 ≤ g ∧ g < 120 then (if c < 12 then some (CIS_CNT.COUNT (g - 112) c) else none)
  else if 120 ≤ g ∧ g < 128 then (if c < 8 then some (TM_CNT.COUNT (g - 120) c) else none)
  else if g = 128 then (if c < 8 then some (WL_CELLS.COUNT c) else none)
  else if g = 134 then (if c < 11 then some (HIF_CNT.COUNT c) else none)
  else if g = 136 then (if c < 6 then some (PAIR_CNT.COUNT c) else none)
  else none

/-- What a page shows is brought up to date. -/
def State.showPage (s : State) (g : Nat) : State :=
  if g = 255 then s.putWords CHIP_STROKE_NOW.w s.strokeNow 2
  else if g < counterUnits then s.showUnit g
  else s

/-- The byte at offset `o` of BAR4: 0 in a page that `CT_USER_ENABLE` does not enable. -/
def State.pageByte (s : State) (o : Nat) : Byte :=
  let g := o / 4096
  if bit (s.rf (CT_USER_ENABLE.EN (g / 32))) (g % 32) then
    match s.pageField g (o % 4096 / 8 * 8) with
    | some f => BitVec.ofNat 8 (s.rf f / 2 ^ (8 * (o % 8)))
    | none => 0
  else 0

/-- A read of BAR4 within one page. -/
def State.readBar4 (s : State) (off size : Nat) : State :=
  let s := s.showPage (off / 4096 % 256)
  s.withReadData (packWords ((List.range size).map (fun i => s.pageByte ((off + i) % 2 ^ 20))))

/-! ### Accesses -/

/-- A write of `size` bytes of BAR0 (R9): an aligned word, or two; anything else is discarded whole and reported. -/
def barWrite (off size v : Nat) (s : State) : State :=
  if size = 4 ∧ off % 4 = 0 then s.writeWord (off / 4) v
  else if size = 8 ∧ off % 8 = 0 then (s.writeWord (off / 4) v).writeWord (off / 4 + 1) (v / 2 ^ 32)
  else
    let s := s.accessErr 0 off
    s.raise 0x1F0 (s.reg HIF_ACCESS_ERR.w).toNat

/-- A write of `CHIP_RESET_CTRL`: of the word, or of the two words that begin with it (R9). -/
def writesResetCtrl (off size : Nat) : Bool := (size = 4 || size = 8) && off = 4 * CHIP_RESET_CTRL.w

/-- A write is discarded in the states that discard writes, but for one of `CHIP_RESET_CTRL` (R437, R614). -/
def registerWrite (off size v : Nat) (s : State) : State :=
  if s.hostOpen then barWrite off size v s
  else if writesResetCtrl off size then resetCtrlWrite v s
  else s

/-- A read of `size` bytes at offset `off` of a BAR: BAR0, BAR2 (which reads 0, R407) or BAR4. What lies past the end of BAR2 or BAR4 is no
access of the device's (Table HI-2). -/
def barRead (bar off size : Nat) (s : State) : State :=
  if !s.answers then s
  else if bar = 0 then s.readBar0 off size
  else if barSize bar < off + size then s
  else if bar = 1 then s.withReadData (packWords (List.replicate size 0))
  else s.readBar4 off size

/-! ### Meanings -/

def execRegisterWrite (off : BarOffset) (size : Fin 65) (v : BitVec 64) (s : State) : Host.Outcome State Fault Refusal :=
  .next (registerWrite off.toNat size v.toNat s)

def execRegisterReadClear (bar : Fin 3) (off : BarOffset) (size : Fin 65) (s : State) : Host.Outcome State Fault Refusal :=
  .next (barRead bar off.toNat size s)

/-- A 32-bit read of BAR0. -/
def execLowWordRead (w : BitVec 24) (s : State) : Host.Outcome State Fault Refusal := .next (if s.answers then s.readBar0 (4 * w.toNat) 4 else s)

end Sys2Proof.Machine
end

