-- ==== Sys2Proof/Machine/Dispatch.lean ====
section
/-! DEFINITION. One arm per command of spec/opcode_table.json: the command's effect on everything but the queue. -/

namespace Sys2Proof.Machine

/-- What a command does: one direct call of its meaning. -/
def exec (i : Instr) (s : State) : Host.Outcome State Fault Refusal :=
  match i with
  | .registerWrite off size v => Sys2Proof.Machine.execRegisterWrite off size v s
  | .registerReadClear bar off size => Sys2Proof.Machine.execRegisterReadClear bar off size s
  | .lowWordRead w => Sys2Proof.Machine.execLowWordRead w s
  | .strayWrite bar4 off => Sys2Proof.Machine.execStrayWrite bar4 off s
  | .frameReceive n l r => Sys2Proof.Machine.execFrameReceive n l r s
  | .pauseExpiry n l p => Sys2Proof.Machine.execPauseExpiry n l p s
  | .pfcRefresh n l p => Sys2Proof.Machine.execPfcRefresh n l p s
  | .stormWatchdogTrip n l p => Sys2Proof.Machine.execStormWatchdogTrip n l p s
  | .stormWatchdogRearm n l p => Sys2Proof.Machine.execStormWatchdogRearm n l p s
  | .pbShapeWrite n b v => Sys2Proof.Machine.execPbShapeWrite n b v s
  | .portCfgWrite n l v => Sys2Proof.Machine.execPortCfgWrite n l v s
  | .violLogClear n l v => Sys2Proof.Machine.execViolLogClear n l v s
  | .headerAccept n p => Sys2Proof.Machine.execHeaderAccept n p s
  | .parse n p e chk loc => Sys2Proof.Machine.execParse n p e chk loc s
  | .reorderRelease n p => Sys2Proof.Machine.execReorderRelease n p s
  | .parseCntClear n p v => Sys2Proof.Machine.execParseCntClear n p v s
  | .engineDisable n p v => Sys2Proof.Machine.execEngineDisable n p v s
  | .classify n p chk => Sys2Proof.Machine.execClassify n p chk s
  | .recirculationPass n => Sys2Proof.Machine.execRecirculationPass n s
  | .tcamParityCheck n p e bad => Sys2Proof.Machine.execTcamParityCheck n p e bad s
  | .ruleSetArm n p v => Sys2Proof.Machine.execRuleSetArm n p v s
  | .ruleSetCancel n p v => Sys2Proof.Machine.execRuleSetCancel n p v s
  | .switchStrokeWrite n p v => Sys2Proof.Machine.execSwitchStrokeWrite n p v s
  | .bankSwitch n p => Sys2Proof.Machine.execBankSwitch n p s
  | .drainEnd n p => Sys2Proof.Machine.execDrainEnd n p s
  | .forwardingLookup n p chk table ix => Sys2Proof.Machine.execForwardingLookup n p chk table ix s
  | .learnApply n => Sys2Proof.Machine.execLearnApply n s
  | .ageingSweep n => Sys2Proof.Machine.execAgeingSweep n s
  | .removalFinal n => Sys2Proof.Machine.execRemovalFinal n s
  | .write err => Sys2Proof.Machine.execWrite err s
  | .read err chk bad => Sys2Proof.Machine.execRead err chk bad s
  | .insert err => Sys2Proof.Machine.execInsert err s
  | .delete err => Sys2Proof.Machine.execDelete err s
  | .find err => Sys2Proof.Machine.execFind err s
  | .lock err => Sys2Proof.Machine.execLock err s
  | .unlock => Sys2Proof.Machine.execUnlock s
  | .scheduledCommandApply n flow err => Sys2Proof.Machine.execScheduledCommandApply n flow err s
  | .compareRead n dma => Sys2Proof.Machine.execCompareRead n dma s
  | .compareRecheck n dma => Sys2Proof.Machine.execCompareRecheck n dma s
  | .flowLookup n p chk => Sys2Proof.Machine.execFlowLookup n p chk s
  | .bucketReadReturn e iv chk dict second => Sys2Proof.Machine.execBucketReadReturn e iv chk dict second s
  | .verdictPass e => Sys2Proof.Machine.execVerdictPass e s
  | .watermarkAdvance n => Sys2Proof.Machine.execWatermarkAdvance n s
  | .standpipeRelease => Sys2Proof.Machine.execStandpipeRelease s
  | .watermarkDeadlineMiss n => Sys2Proof.Machine.execWatermarkDeadlineMiss n s
  | .commitPass e => Sys2Proof.Machine.execCommitPass e s
  | .bypassEnter e => Sys2Proof.Machine.execBypassEnter e s
  | .bypassExit e => Sys2Proof.Machine.execBypassExit e s
  | .flowSweep e => Sys2Proof.Machine.execFlowSweep e s
  | .flowFind err rd => Sys2Proof.Machine.execFlowFind err rd s
  | .flowInsert err => Sys2Proof.Machine.execFlowInsert err s
  | .flowDelete err => Sys2Proof.Machine.execFlowDelete err s
  | .flowRead err rd iv j => Sys2Proof.Machine.execFlowRead err rd iv j s
  | .flowSnapshot err => Sys2Proof.Machine.execFlowSnapshot err s
  | .flowFlush => Sys2Proof.Machine.execFlowFlush s
  | .snapshotCapture e err => Sys2Proof.Machine.execSnapshotCapture e err s
  | .passDispatch e rd => Sys2Proof.Machine.execPassDispatch e rd s
  | .add e p c x flt => Sys2Proof.Machine.execAdd e p c x flt s
  | .sub e p c x flt => Sys2Proof.Machine.execSub e p c x flt s
  | .and e p c x flt => Sys2Proof.Machine.execAnd e p c x flt s
  | .or e p c x flt => Sys2Proof.Machine.execOr e p c x flt s
  | .xor e p c x flt => Sys2Proof.Machine.execXor e p c x flt s
  | .shl e p c x flt => Sys2Proof.Machine.execShl e p c x flt s
  | .shr e p c x flt => Sys2Proof.Machine.execShr e p c x flt s
  | .sar e p c x flt => Sys2Proof.Machine.execSar e p c x flt s
  | .mul e p c x flt => Sys2Proof.Machine.execMul e p c x flt s
  | .minu e p c x flt => Sys2Proof.Machine.execMinu e p c x flt s
  | .maxu e p c x flt => Sys2Proof.Machine.execMaxu e p c x flt s
  | .sltu e p c x flt => Sys2Proof.Machine.execSltu e p c x flt s
  | .bswap e p c x flt => Sys2Proof.Machine.execBswap e p c x flt s
  | .addi e p c x flt => Sys2Proof.Machine.execAddi e p c x flt s
  | .andi e p c x flt => Sys2Proof.Machine.execAndi e p c x flt s
  | .ori e p c x flt => Sys2Proof.Machine.execOri e p c x flt s
  | .xori e p c x flt => Sys2Proof.Machine.execXori e p c x flt s
  | .lui e p c x flt => Sys2Proof.Machine.execLui e p c x flt s
  | .shli e p c x flt => Sys2Proof.Machine.execShli e p c x flt s
  | .shri e p c x flt => Sys2Proof.Machine.execShri e p c x flt s
  | .ext e p c x flt => Sys2Proof.Machine.execExt e p c x flt s
  | .ins e p c x flt => Sys2Proof.Machine.execIns e p c x flt s
  | .sltiu e p c x flt => Sys2Proof.Machine.execSltiu e p c x flt s
  | .li e p c x flt => Sys2Proof.Machine.execLi e p c x flt s
  | .beq e p c x flt => Sys2Proof.Machine.execBeq e p c x flt s
  | .bne e p c x flt => Sys2Proof.Machine.execBne e p c x flt s
  | .bltu e p c x flt => Sys2Proof.Machine.execBltu e p c x flt s
  | .bgeu e p c x flt => Sys2Proof.Machine.execBgeu e p c x flt s
  | .bbs e p c x flt => Sys2Proof.Machine.execBbs e p c x flt s
  | .bbc e p c x flt => Sys2Proof.Machine.execBbc e p c x flt s
  | .jmp e p c x flt => Sys2Proof.Machine.execJmp e p c x flt s
  | .jal e p c x flt => Sys2Proof.Machine.execJal e p c x flt s
  | .jr e p c x flt => Sys2Proof.Machine.execJr e p c x flt s
  | .ldr e p c x flt => Sys2Proof.Machine.execLdr e p c x flt s
  | .str e p c x flt => Sys2Proof.Machine.execStr e p c x flt s
  | .ldm e p c x flt => Sys2Proof.Machine.execLdm e p c x flt s
  | .ldf e p c x flt => Sys2Proof.Machine.execLdf e p c x flt s
  | .stf e p c x flt => Sys2Proof.Machine.execStf e p c x flt s
  | .hash e p c x flt => Sys2Proof.Machine.execHash e p c x flt s
  | .cadd e p c x flt => Sys2Proof.Machine.execCadd e p c x flt s
  | .hadd e p c x flt => Sys2Proof.Machine.execHadd e p c x flt s
  | .rwr e p c x flt => Sys2Proof.Machine.execRwr e p c x flt s
  | .emit e p c x flt => Sys2Proof.Machine.execEmit e p c x flt s
  | .verd e p c x flt => Sys2Proof.Machine.execVerd e p c x flt s
  | .wait e p c x flt => Sys2Proof.Machine.execWait e p c x flt s
  | .commit e p c x flt => Sys2Proof.Machine.execCommit e p c x flt s
  | .fail e p c x flt => Sys2Proof.Machine.execFail e p c x flt s
  | .nop e p c x flt => Sys2Proof.Machine.execNop e p c x flt s
  | .illegal e p c w flt => Sys2Proof.Machine.execIllegal e p c w flt s
  | .waitSatisfied e p c => Sys2Proof.Machine.execWaitSatisfied e p c s
  | .pmpPoolWrite e v => Sys2Proof.Machine.execPmpPoolWrite e v s
  | .pumpTestStart e v => Sys2Proof.Machine.execPumpTestStart e v s
  | .pumpTestEnd e pass => Sys2Proof.Machine.execPumpTestEnd e pass s
  | .sumpWrite n q => Sys2Proof.Machine.execSumpWrite n q s
  | .sumpReadback n q bad => Sys2Proof.Machine.execSumpReadback n q bad s
  | .windlassMatch flt => Sys2Proof.Machine.execWindlassMatch flt s
  | .cellReceive iv j flt => Sys2Proof.Machine.execCellReceive iv j flt s
  | .freeLogClear n v => Sys2Proof.Machine.execFreeLogClear n v s
  | .meterRequestSend n bad => Sys2Proof.Machine.execMeterRequestSend n bad s
  | .meterApply n chk => Sys2Proof.Machine.execMeterApply n chk s
  | .policerPush n v => Sys2Proof.Machine.execPolicerPush n v s
  | .policerChangeApply n => Sys2Proof.Machine.execPolicerChangeApply n s
  | .policerPeek n v => Sys2Proof.Machine.execPolicerPeek n v s
  | .portSelect n l cyc flt => Sys2Proof.Machine.execPortSelect n l cyc flt s
  | .wheelSlotDue n => Sys2Proof.Machine.execWheelSlotDue n s
  | .starvePromote n q => Sys2Proof.Machine.execStarvePromote n q s
  | .gateEntryChange n l bad => Sys2Proof.Machine.execGateEntryChange n l bad s
  | .gateSwitch n l v => Sys2Proof.Machine.execGateSwitch n l v s
  | .gateBankActivate n l => Sys2Proof.Machine.execGateBankActivate n l s
  | .dipstickSample n => Sys2Proof.Machine.execDipstickSample n s
  | .dipstickCopy n v => Sys2Proof.Machine.execDipstickCopy n v s
  | .hostReceive c bad => Sys2Proof.Machine.execHostReceive c bad s
  | .pmeRepeat => Sys2Proof.Machine.execPmeRepeat s
  | .anResolved g l r => Sys2Proof.Machine.execAnResolved g l r s
  | .anPageError g l => Sys2Proof.Machine.execAnPageError g l s
  | .anTimeout g l => Sys2Proof.Machine.execAnTimeout g l s
  | .coeffRequest g l r bad => Sys2Proof.Machine.execCoeffRequest g l r bad s
  | .coeffTimeout g l ber => Sys2Proof.Machine.execCoeffTimeout g l ber s
  | .trainComplete g l => Sys2Proof.Machine.execTrainComplete g l s
  | .trainTimeout g l ber => Sys2Proof.Machine.execTrainTimeout g l ber s
  | .alignComplete g l => Sys2Proof.Machine.execAlignComplete g l s
  | .alignTimeout g l => Sys2Proof.Machine.execAlignTimeout g l s
  | .holdExpiry g l => Sys2Proof.Machine.execHoldExpiry g l s
  | .laneRestart g l v => Sys2Proof.Machine.execLaneRestart g l v s
  | .laneClearFail g l v => Sys2Proof.Machine.execLaneClearFail g l v s
  | .prbsClear g l v => Sys2Proof.Machine.execPrbsClear g l v s
  | .prbsInject g l v => Sys2Proof.Machine.execPrbsInject g l v s
  | .prbsEnable g l v => Sys2Proof.Machine.execPrbsEnable g l v s
  | .prbsLock g l => Sys2Proof.Machine.execPrbsLock g l s
  | .prbsLockLoss g l n errs => Sys2Proof.Machine.execPrbsLockLoss g l n errs s
  | .lossOfSignal g l x wire => Sys2Proof.Machine.execLossOfSignal g l x wire s
  | .alignmentLockLoss g l wire => Sys2Proof.Machine.execAlignmentLockLoss g l wire s
  | .remoteFault g l wire => Sys2Proof.Machine.execRemoteFault g l wire s
  | .flapHoldExpiry n l => Sys2Proof.Machine.execFlapHoldExpiry n l s
  | .quietEnter g l => Sys2Proof.Machine.execQuietEnter g l s
  | .quietRefresh g l => Sys2Proof.Machine.execQuietRefresh g l s
  | .quietMarkerReceive g l => Sys2Proof.Machine.execQuietMarkerReceive g l s
  | .quietTimeout g l wire => Sys2Proof.Machine.execQuietTimeout g l wire s
  | .quietExit g l => Sys2Proof.Machine.execQuietExit g l s
  | .quietRelockTimeout g l wire => Sys2Proof.Machine.execQuietRelockTimeout g l wire s
  | .doorbell r v full => Sys2Proof.Machine.execDoorbell r v full s
  | .descriptorFetch r n err => Sys2Proof.Machine.execDescriptorFetch r n err s
  | .transmitChainBegin c mis => Sys2Proof.Machine.execTransmitChainBegin c mis s
  | .transmitDataReturn c err => Sys2Proof.Machine.execTransmitDataReturn c err s
  | .moderationTimer r => Sys2Proof.Machine.execModerationTimer r s
  | .vectorUnmask v x => Sys2Proof.Machine.execVectorUnmask v x s
  | .ringEnable r v => Sys2Proof.Machine.execRingEnable r v s
  | .ringDisable r v => Sys2Proof.Machine.execRingDisable r v s
  | .ringDisableComplete r => Sys2Proof.Machine.execRingDisableComplete r s
  | .ringInvalidate v => Sys2Proof.Machine.execRingInvalidate v s
  | .invalidationComplete => Sys2Proof.Machine.execInvalidationComplete s
  | .headWriteback r => Sys2Proof.Machine.execHeadWriteback r s
  | .eventRecordWrite r => Sys2Proof.Machine.execEventRecordWrite r s
  | .hbmCommandIssue st q ready w => Sys2Proof.Machine.execHbmCommandIssue st q ready w s
  | .hbmReadReturn st q iv bad => Sys2Proof.Machine.execHbmReadReturn st q iv bad s
  | .perBankRefresh st q post => Sys2Proof.Machine.execPerBankRefresh st q post s
  | .hbmTempRead st t => Sys2Proof.Machine.execHbmTempRead st t s
  | .refreshWindowStart st => Sys2Proof.Machine.execRefreshWindowStart st s
  | .neighbourRefresh st q bank => Sys2Proof.Machine.execNeighbourRefresh st q bank s
  | .retryRetire st q => Sys2Proof.Machine.execRetryRetire st q s
  | .cmdParityAlert st c passes staged => Sys2Proof.Machine.execCmdParityAlert st c passes staged s
  | .retrain st c v => Sys2Proof.Machine.execRetrain st c v s
  | .retrainSlice st c what => Sys2Proof.Machine.execRetrainSlice st c what s
  | .fence st c v => Sys2Proof.Machine.execFence st c v s
  | .freqChangeGo st v => Sys2Proof.Machine.execFreqChangeGo st v s
  | .freqChangeComplete st fail us => Sys2Proof.Machine.execFreqChangeComplete st fail us s
  | .timeAdjWrite d v => Sys2Proof.Machine.execTimeAdjWrite d v s
  | .timeLoad d => Sys2Proof.Machine.execTimeLoad d s
  | .timeSnap => Sys2Proof.Machine.execTimeSnap s
  | .cellSync cycles bad => Sys2Proof.Machine.execCellSync cycles bad s
  | .stampDomainWrite v => Sys2Proof.Machine.execStampDomainWrite v s
  | .oswArm v => Sys2Proof.Machine.execOswArm v s
  | .oswCancel v => Sys2Proof.Machine.execOswCancel v s
  | .orderingSourceSwitch => Sys2Proof.Machine.execOrderingSourceSwitch s
  | .pulseEnable iv v => Sys2Proof.Machine.execPulseEnable iv v s
  | .pulseDisable iv v => Sys2Proof.Machine.execPulseDisable iv v s
  | .pulseEdge iv => Sys2Proof.Machine.execPulseEdge iv s
  | .pulseWidthEnd iv => Sys2Proof.Machine.execPulseWidthEnd iv s
  | .captureEdge iv rising back => Sys2Proof.Machine.execCaptureEdge iv rising back s
  | .captureRead iv => Sys2Proof.Machine.execCaptureRead iv s
  | .helloSend => Sys2Proof.Machine.execHelloSend s
  | .helloReceive h => Sys2Proof.Machine.execHelloReceive h s
  | .pairLinkTimeout => Sys2Proof.Machine.execPairLinkTimeout s
  | .pairHoldInChange held => Sys2Proof.Machine.execPairHoldInChange held s
  | .releaseTimerExpiry => Sys2Proof.Machine.execReleaseTimerExpiry s
  | .pairClaim v => Sys2Proof.Machine.execPairClaim v s
  | .claimConfirm => Sys2Proof.Machine.execClaimConfirm s
  | .claimBackoffExpiry => Sys2Proof.Machine.execClaimBackoffExpiry s
  | .ledgerSend => Sys2Proof.Machine.execLedgerSend s
  | .ledgerReceive chk seq recs => Sys2Proof.Machine.execLedgerReceive chk seq recs s
  | .ledgerLagTimeout => Sys2Proof.Machine.execLedgerLagTimeout s
  | .digestSend => Sys2Proof.Machine.execDigestSend s
  | .digestReceive chk seq period sums => Sys2Proof.Machine.execDigestReceive chk seq period sums s
  | .digestTimeout => Sys2Proof.Machine.execDigestTimeout s
  | .pairJoin v => Sys2Proof.Machine.execPairJoin v s
  | .joinStrokeReached => Sys2Proof.Machine.execJoinStrokeReached s
  | .pairYield v => Sys2Proof.Machine.execPairYield v s
  | .yieldReq chk seq => Sys2Proof.Machine.execYieldReq chk seq s
  | .yieldAck chk seq h => Sys2Proof.Machine.execYieldAck chk seq h s
  | .handoverStroke => Sys2Proof.Machine.execHandoverStroke s
  | .revertTimeout => Sys2Proof.Machine.execRevertTimeout s
  | .holdoffExpiry => Sys2Proof.Machine.execHoldoffExpiry s
  | .holdStuck => Sys2Proof.Machine.execHoldStuck s
  | .holdChatter => Sys2Proof.Machine.execHoldChatter s
  | .pairCapArm v => Sys2Proof.Machine.execPairCapArm v s
  | .tableCapture err => Sys2Proof.Machine.execTableCapture err s
  | .hostHalt v => Sys2Proof.Machine.execHostHalt v s
  | .quarantine n v => Sys2Proof.Machine.execQuarantine n v s
  | .drainComplete n => Sys2Proof.Machine.execDrainComplete n s
  | .bistStart n v => Sys2Proof.Machine.execBistStart n v s
  | .regionTestEnd n fails => Sys2Proof.Machine.execRegionTestEnd n fails s
  | .rejoin n v => Sys2Proof.Machine.execRejoin n v s
  | .rejoinStrokeReached n => Sys2Proof.Machine.execRejoinStrokeReached n s
  | .scrubRead u m kind k chk => Sys2Proof.Machine.execScrubRead u m kind k chk s
  | .regionRangePass n v => Sys2Proof.Machine.execRegionRangePass n v s
  | .hbmRangePass st v => Sys2Proof.Machine.execHbmRangePass st v s
  | .rangePassDone u bad => Sys2Proof.Machine.execRangePassDone u bad s
  | .retirementWrite n iv v objs => Sys2Proof.Machine.execRetirementWrite n iv v objs s
  | .hbmRetireWrite st iv v => Sys2Proof.Machine.execHbmRetireWrite st iv v s
  | .errLogClear v => Sys2Proof.Machine.execErrLogClear v s
  | .freezeArm v => Sys2Proof.Machine.execFreezeArm v s
  | .thawArm v => Sys2Proof.Machine.execThawArm v s
  | .snapArm v => Sys2Proof.Machine.execSnapArm v s
  | .counterCancel v => Sys2Proof.Machine.execCounterCancel v s
  | .boundaryComplete kind => Sys2Proof.Machine.execBoundaryComplete kind s
  | .sampleFree u v => Sys2Proof.Machine.execSampleFree u v s
  | .routineHistCopy e v => Sys2Proof.Machine.execRoutineHistCopy e v s
  | .supplyLoss => Sys2Proof.Machine.execSupplyLoss s
  | .sysResetAssert us valid => Sys2Proof.Machine.execSysResetAssert us valid s
  | .sysResetDeassert straps => Sys2Proof.Machine.execSysResetDeassert straps s
  | .warmReset us => Sys2Proof.Machine.execWarmReset us s
  | .resetCtrlFull v => Sys2Proof.Machine.execResetCtrlFull v s
  | .resetCtrlWarm v => Sys2Proof.Machine.execResetCtrlWarm v s
  | .wellheadReset perst => Sys2Proof.Machine.execWellheadReset perst s
  | .primingComplete e ms rows bad repairs d => Sys2Proof.Machine.execPrimingComplete e ms rows bad repairs d s
  | .chipRun v => Sys2Proof.Machine.execChipRun v s
  | .runStrokeReached => Sys2Proof.Machine.execRunStrokeReached s
  | .chipQuiesce v => Sys2Proof.Machine.execChipQuiesce v s
  | .quiesceStrokeReached => Sys2Proof.Machine.execQuiesceStrokeReached s
  | .quiesceFlushTimeout => Sys2Proof.Machine.execQuiesceFlushTimeout s
  | .quiesceDrainDone => Sys2Proof.Machine.execQuiesceDrainDone s
  | .chipConfig v => Sys2Proof.Machine.execChipConfig v s
  | .avsTick target fails => Sys2Proof.Machine.execAvsTick target fails s
  | .pmbusPoll iout uv oc pgood fails1 fails2 => Sys2Proof.Machine.execPmbusPoll iout uv oc pgood fails1 fails2 s
  | .thermalRead t => Sys2Proof.Machine.execThermalRead t s
  | .idleStepDown n => Sys2Proof.Machine.execIdleStepDown n s
  | .wakeStepUp n => Sys2Proof.Machine.execWakeStepUp n s
  | .levelStepGrant => Sys2Proof.Machine.execLevelStepGrant s
  | .railLow => Sys2Proof.Machine.execRailLow s
  | .bypass => Sys2Proof.Machine.execBypass s
  | .idcode => Sys2Proof.Machine.execIdcode s
  | .samplePreload pins preload => Sys2Proof.Machine.execSamplePreload pins preload s
  | .extest pins => Sys2Proof.Machine.execExtest pins s
  | .highz => Sys2Proof.Machine.execHighz s
  | .pciePerstNDeassert => Sys2Proof.Machine.execPciePerstNDeassert s
  | .pcieLinkUp speed width flit => Sys2Proof.Machine.execPcieLinkUp speed width flit s
  | .configSpaceWrite power pmeEn pmeClear fnMask => Sys2Proof.Machine.execConfigSpaceWrite power pmeEn pmeClear fnMask s
  | .partnerAnRestart g l => Sys2Proof.Machine.execPartnerAnRestart g l s
  | .refreshBurstReceive g l => Sys2Proof.Machine.execRefreshBurstReceive g l s
  | .quietRelock g l => Sys2Proof.Machine.execQuietRelock g l s
  | .chatterHoldEnd => Sys2Proof.Machine.execChatterHoldEnd s
  | .domainCounterMismatch d => Sys2Proof.Machine.execDomainCounterMismatch d s

end Sys2Proof.Machine
end

