-- ==== Sys2Proof/Safety.lean ====
section
/-! DEFINITION. What counts as a well-kept state, and the vocabulary of frames: which words and which parts of the state a command may
change. -/

namespace Sys2Proof.Machine

/-! ### Canonical stores -/

/-- The register map is in canonical form: word offsets strictly rising, no word listed that holds its reset value. -/
def State.regsCanon (s : State) : Bool := scanon resetWord 0 s.regs

/-- Host memory is in canonical form: addresses strictly rising, no byte listed that holds 0. -/
def State.memCanon (s : State) : Bool := scanon (fun _ => 0) 0 s.hostMem

/-- A map with one default value is in canonical form. -/
def mapCanon {α : Type} [DecidableEq α] (d : α) (m : List (Nat × α)) : Bool := scanon (fun _ => d) 0 m

/-- A state whose register map and host memory are in canonical form. -/
def State.wf2 (s : State) : Bool := s.regsCanon && s.memCanon

/-- The maps of a region's cistern and traffic manager are in canonical form. -/
def RegX.canon (x : RegX) : Bool :=
  mapCanon 0 x.vseq && mapCanon {} x.voq && mapCanon {} x.bufs && mapCanon 0 x.portUnits && mapCanon 0 x.clsUnits && mapCanon 15 x.rrCls &&
    mapCanon {} x.eq && mapCanon 0 x.eqUnits && mapCanon {} x.groups && mapCanon {} x.ports && mapCanon {} x.gates && mapCanon {} x.pols &&
    mapCanon 0 x.dip && mapCanon 0 x.dipMax

/-- The maps of an HBM pseudo-channel are in canonical form. -/
def HbmPc.canon (x : HbmPc) : Bool := mapCanon none x.rows && mapCanon [] x.acts && mapCanon 0 x.postponed && mapCanon 0 x.used

/-- The maps of the whole device are in canonical form. -/
def State.mapsCanon (s : State) : Bool :=
  mapCanon 0 s.latch && mapCanon none s.hold && mapCanon {} s.rings && mapCanon (0, 0) s.lastKey && mapCanon {} s.pipes && mapCanon {} s.recirc &&
    mapCanon 0 s.tcam && mapCanon 0 s.actions && mapCanon 0 s.eps && mapCanon 0 s.routes && mapCanon 0 s.vlans && mapCanon {} s.tbls &&
    mapCanon 0 s.slots && mapCanon {} s.engs && mapCanon none s.ctxs && mapCanon 0 s.hists && mapCanon {} s.regx && mapCanon 0 s.digs &&
    mapCanon 0 s.pmp2 && mapCanon 0 s.bindErr && mapCanon 0 s.rtHist && mapCanon none s.hostRx && mapCanon 0 s.rrHost && mapCanon {} s.pports && mapCanon {} s.links &&
    mapCanon {} s.lanes && mapCanon {} s.hbmPc && mapCanon {} s.hbmx && mapCanon {} s.scrub && mapCanon none s.passes &&
    mapCanon 0 s.wind.g && mapCanon 0 s.wind.a && mapCanon {} s.time.cells && mapCanon {} s.time.pulses && mapCanon {} s.time.capts &&
    mapCanon 0 s.pwr.want && mapCanon 0 s.pwr.stepAt && mapCanon 0 s.pwr.fullAt &&
    s.regx.all (fun p => p.2.canon) && s.hbmPc.all (fun p => p.2.canon) && s.pipes.all (fun p => mapCanon [] p.2.inq && mapCanon 0 p.2.mir) &&
    s.recirc.all (fun p => mapCanon 0 p.2.seq) && s.pports.all (fun p => mapCanon 0 p.2.quanta)

/-- A state all of whose stores and maps are in canonical form: equal contents are equal data. -/
def State.canon (s : State) : Bool := s.wf2 && s.mapsCanon

/-! ### Fields -/

/-- The place of a field's lowest bit, counted from bit 0 of word 0. -/
def Fld.abs (f : Fld) : Nat := f.w * 32 + f.lo

/-- Two fields that share no bit. -/
def Fld.apart (f g : Fld) : Bool := decide (f.abs + f.width ≤ g.abs) || decide (g.abs + g.width ≤ f.abs)

/-- A field fits in two words. -/
def Fld.fits (f : Fld) : Bool := decide (f.lo % 32 + f.width ≤ 64)

/-! ### Frames -/

/-- The words that raising an event may change: the pending bits, their summary, the record losses and the merge counts (R578, R579). -/
def evtWord (w : Nat) : Bool :=
  (decide (128 ≤ w) && decide (w < 132)) || (decide (512 ≤ w) && decide (w < 640)) || decide (w = 27) ||
    (decide (16384 ≤ w) && decide (w < 20480))

/-- A field none of whose words an event may change. -/
def Fld.quiet (f : Fld) : Bool :=
  !evtWord (f.w + f.lo / 32) && (decide (f.lo % 32 + f.width ≤ 32) || !evtWord (f.w + f.lo / 32 + 1))

/-- `t` is `s` but for register words. -/
def SameButRegs (s t : State) : Prop := t = { s with regs := t.regs }

/-- `t` is `s` but for register words and event records raised and not yet written. -/
def SameButEvents (s t : State) : Prop := t = { s with regs := t.regs, evts := t.evts }

/-- Every field reads in `t` as in `s`, but for the fields of the list and what shares a bit with them. -/
def FieldsKept (s t : State) (fs : List Fld) : Prop :=
  ∀ g : Fld, g.fits = true → (∀ f ∈ fs, f.apart g = true) → t.rf g = s.rf g

/-- The same, but for the words that raising an event may change too. -/
def FieldsKeptEv (s t : State) (fs : List Fld) : Prop :=
  ∀ g : Fld, g.fits = true → g.quiet = true → (∀ f ∈ fs, f.apart g = true) → t.rf g = s.rf g

/-- The `n` whole words from word `w`, as fields. -/
def wordFields (w : Nat) : Nat → List Fld
  | 0 => []
  | n + 1 => ⟨w, 0, 32⟩ :: wordFields (w + 1) n

/-- The arbiter of command rings would dispatch the command `c` of opcode `op` now, and its entry is well-formed (R422, R469). -/
def State.fronts (s : State) (op : Nat) (c : CmdX) : Prop :=
  s.alive = true ∧ nextRing (mget 0 s.rrHost 16) (s.ringsUsed.filter s.cmdReady) = some c.ring ∧
    cmdFault ((s.ringX c.ring).entries.headD []) = none ∧ entOp ((s.ringX c.ring).entries.headD []) = op ∧ s.upsetIn c.ring 1 = none ∧
    c = s.cmdOf c.ring ((s.ringX c.ring).entries.headD [])

/-- The state once the arbiter has taken the entry of command `c` and owes its completion (R419, R422, R470). -/
def State.cmdTaken (s : State) (c : CmdX) : State :=
  let s := s.withRrHost (mset 0 s.rrHost 16 (c.ring + 1))
  ((s.consume c.ring 1).owe c.cq 1).pressure c.cq

/-! ### Pump contexts (file 09) -/

/-- The 32 general registers of a context hold 32-bit words. -/
def PumpCtx.words (k : PumpCtx) : Bool := k.g.length == 32 && k.g.all (fun v => decide (v < 2 ^ 32))

/-- Context `c` of pump `p` of engine `e` is `k`, does not wait, and passes every check of R307 to issue the word `w` at its program counter. -/
def State.issues (s : State) (e p c w : Nat) (k : PumpCtx) : Prop :=
  s.running = true ∧ s.regionOn e = true ∧ mapCanon none s.ctxs = true ∧ s.ctx e p c = some k ∧ k.wait = none ∧ k.words = true ∧
    s.inRange e k.look.frame k.pc = true ∧ s.storeWord e k.pc = w ∧ s.copiesDiffer e k.pc = false ∧ k.issued < s.rf (PMP_CFG.MAX_WORDS e)

/-- In the next state `t` the context is `k`; the other contexts, and everything but registers and event records, are as they were. -/
def State.ctxBecomes (s t : State) (e p c : Nat) (k : PumpCtx) : Prop :=
  t.ctx e p c = some k ∧ (∀ j, j ≠ (e * 32 + p) * 8 + c → mget none t.ctxs j = mget none s.ctxs j) ∧
    t = { s with regs := t.regs, evts := t.evts, ctxs := t.ctxs }

/-- The context after a word, at program counter `pc`. -/
def PumpCtx.goes (k : PumpCtx) (pc : Nat) : PumpCtx := { k with pc := pc, issued := k.issued + 1 }

/-- The context with a word in a general register. -/
def PumpCtx.put32 (k : PumpCtx) (i : Nat) (v : Word) : PumpCtx := { k with g := k.g.set i v.toNat }

/-- A general register as a word. -/
def PumpCtx.word (k : PumpCtx) (i : Nat) : Word := BitVec.ofNat 32 (k.r i)

/-- The 16-bit immediate of a microword. -/
def imm16 (x : BitVec 26) : BitVec 16 := x.extractLsb' 0 16

/-- The pending bit of an event source (R578). -/
def State.pendingBit (s : State) (src : Nat) : Bool := (s.reg (CHIP_EVT_PEND.w (src / 32))).toNat.testBit (src % 32)

/-! ### Kinds of commands -/

/-- The commands that are a write of the host, but for one of `CHIP_RESET_CTRL` (R437, R614). -/
def isHostWrite : Instr → Bool
  | .chipRun _ | .chipQuiesce _ | .chipConfig _ | .parseCntClear _ _ _ | .engineDisable _ _ _ | .freeLogClear _ _
  | .pmpPoolWrite _ _ | .pumpTestStart _ _ | .routineHistCopy _ _ | .doorbell _ _ _ | .strayWrite _ _ | .ringEnable _ _
  | .ringDisable _ _ | .ringInvalidate _ | .vectorUnmask _ _ | .timeAdjWrite _ _ | .timeLoad _ | .timeSnap | .stampDomainWrite _
  | .oswArm _ | .oswCancel _ | .pulseEnable _ _ | .pulseDisable _ _ | .gateSwitch _ _ _ | .dipstickCopy _ _ | .freezeArm _
  | .thawArm _ | .snapArm _ | .counterCancel _ | .sampleFree _ _ | .ruleSetArm _ _ _ | .ruleSetCancel _ _ _
  | .switchStrokeWrite _ _ _ | .policerPush _ _ | .policerPeek _ _ | .retrain _ _ _ | .fence _ _ _ | .freqChangeGo _ _
  | .hostHalt _ | .errLogClear _ | .quarantine _ _ | .bistStart _ _ | .rejoin _ _ | .regionRangePass _ _ | .hbmRangePass _ _
  | .retirementWrite _ _ _ _ | .hbmRetireWrite _ _ _ | .violLogClear _ _ _ | .prbsEnable _ _ _ | .laneRestart _ _ _
  | .laneClearFail _ _ _ | .prbsClear _ _ _ | .prbsInject _ _ _ | .portCfgWrite _ _ _ | .pbShapeWrite _ _ _ | .pairClaim _
  | .pairJoin _ | .pairYield _ | .pairCapArm _ => true
  | .registerWrite off size _ => !writesResetCtrl off.toNat size.val
  | _ => false

/-- The commands that can end a halt: a full reset (R473), whether by the supplies, by SYS_RESET_N or by a write of `CHIP_RESET_CTRL`. -/
def endsHalt : Instr → Bool
  | .supplyLoss | .sysResetAssert _ _ | .resetCtrlFull _ | .resetCtrlWarm _ => true
  | .registerWrite off size _ => writesResetCtrl off.toNat size.val
  | _ => false

end Sys2Proof.Machine
end

