-- ==== Sys2Proof/WellFormed.lean ====
section
/-! DEFINITION. Which commands the block can be sent: what the operand types of `Instr` do not already say. -/

namespace Sys2Proof

/-- Ports of a ledger record's list strictly ascending (Table RD-5). -/
def portsAscend : List (BitVec 10 × BitVec 16) → Bool
  | [] => true
  | [_] => true
  | a :: b :: l => decide (a.1.toNat < b.1.toNat) && portsAscend (b :: l)

/-- A ledger record lists counts other than 0 in ascending order of port (Table RD-5). -/
def LedgerRec.wellFormed (r : LedgerRec) : Bool := portsAscend r.counts && r.counts.all (fun c => c.2 != 0)

/-- A lane of a lane group: a region has 64 lanes, the pair link 8 (Table RI-13). -/
def laneWellFormed (g : LaneGroup) (l : LaneIx) : Bool := decide (g.val < 8) || decide (l.val < 8)

/-- The widths of the PCIe link (R403). -/
def pcieWidth (w : Nat) : Bool := w = 1 || w = 2 || w = 4 || w = 8 || w = 16

/-- A command that can be sent: its lane exists, a digest has 16 sums (R543), a ledger frame's records are in form (Table RD-5), a fetch
returns at least one descriptor (R417), a link comes up at a speed and a width (R403), an
access to BAR4 lies in its 1 MiB (Table HI-2), and a power state is D0, D3hot or D3cold (R77). -/
def Instr.wellFormed : Instr → Bool
  | .anResolved g l _ | .anPageError g l | .anTimeout g l | .coeffRequest g l _ _ | .coeffTimeout g l _
  | .trainTimeout g l _ | .alignComplete g l | .alignTimeout g l | .holdExpiry g l | .laneRestart g l _ | .laneClearFail g l _
  | .prbsClear g l _ | .prbsInject g l _ | .prbsEnable g l _ | .prbsLock g l | .prbsLockLoss g l _ _ | .lossOfSignal g l _ _
  | .alignmentLockLoss g l _ | .remoteFault g l _ | .quietEnter g l | .quietRefresh g l | .quietMarkerReceive g l
  | .quietTimeout g l _ | .quietExit g l | .quietRelockTimeout g l _ | .partnerAnRestart g l | .refreshBurstReceive g l
  | .quietRelock g l => laneWellFormed g l
  | .trainComplete g l => laneWellFormed g l.lane
  | .digestReceive _ _ _ sums => decide (sums.length = 16)
  | .ledgerReceive _ _ recs => recs.all LedgerRec.wellFormed
  | .descriptorFetch _ n _ => decide (0 < n.val)
  | .pcieLinkUp speed width flit => decide (0 < speed.val) && pcieWidth width.val && (speed.val != 6 || flit)
  | .registerReadClear bar off size => bar.val != 2 || decide (off.toNat + size.val ≤ 2 ^ 20)
  | .strayWrite bar4 off => !bar4 || decide (off.toNat < 2 ^ 20)
  | .configSpaceWrite power _ _ _ => power.val = 0 || power.val = 3 || power.val = 4
  | _ => true

end Sys2Proof
end

