-- ==== Sys2Proof/Certificates/Slice0/Obligations.lean ====
section
/-! DEFINITION. What is claimed of the TRJ9100's model. Every command answers a next state; each statement names the commands it is about,
says under which conditions on the state and the operands the command has its effect, what the next state then holds, and its frame: the
register fields and the parts of the state that stay as they were. -/

open Sys2Proof Sys2Proof.Machine

/-! ### Time (file 15) -/

/-- R503: a write of `TIME_ADJ` replaces the domain's remaining adjustment with the signed offset written, and every tick of the time block
(a step on an empty queue, log entry 1) slews in what R502 and PPM allow: no more than PPM × 10⁻⁶ ns (in units of 2⁻³² ns, rounded down,
log entry 5), in the direction of the adjustment, never past it, the increment held within the bounds of R502.
Completes: TIME_ADJ_WRITE. -/
def Obligations.TimeAdjustAndSlew : Prop :=
  (∀ (s : State) (d : DomIx) (v : Word), s.regsCanon = true → s.hostOpen = true →
    ∃ t, exec (.timeAdjWrite d v) s = .next t ∧ (t.dom d).adj = v.toInt * 2 ^ 32 ∧ (t.dom d).ns = (s.dom d).ns ∧
      (t.dom d).frac = (s.dom d).frac ∧ t.dom (1 - d) = s.dom (1 - d) ∧ t.rf (TIME_ADJ_REMAIN.NS d) = v.toNat ∧
      FieldsKept s t [TIME_ADJ.OFFSET_NS d, TIME_ADJ_REMAIN.NS d] ∧
      t = { s with regs := t.regs, time := { s.time with domA := t.time.domA, domB := t.time.domB } }) ∧
  (∀ (incr ppm : Nat) (x : Dom), x.frac < 2 ^ 32 → x.ns < 2 ^ 48 * 1000000000 →
    ∃ adv : Nat, incrMin ≤ adv ∧ adv ≤ incrMax ∧
      (domTick incr ppm x).ns * 2 ^ 32 + (domTick incr ppm x).frac =
        (x.ns * 2 ^ 32 + x.frac + adv) % (2 ^ 48 * 1000000000 * 2 ^ 32) ∧
      (0 ≤ x.adj → 0 ≤ (domTick incr ppm x).adj ∧ (domTick incr ppm x).adj ≤ x.adj) ∧
      (x.adj ≤ 0 → (domTick incr ppm x).adj ≤ 0 ∧ x.adj ≤ (domTick incr ppm x).adj) ∧
      (x.adj - (domTick incr ppm x).adj).natAbs ≤ ppm * 2 ^ 32 / 1000000)

/-- R504, R505, R510: an accepted load sets its domain to the time in the load registers with no fraction and no adjustment and shows it valid;
a refused one changes nothing but the error; a snapshot captures both domains and sets READY; a change of the stamping domain is stored at
once and takes effect at the second sync; the other domain is untouched.
R506, R507, R510: a sync of the cells remembers the time of both domains, ends the reload of loaded domains, and counts down to a change
of the stamping domain, which takes effect at the second sync; the domains themselves do not change.
Completes: TIME_LOAD, TIME_SNAP, STAMP_DOMAIN_WRITE, CELL_SYNC. -/
def Obligations.TimeLoadsSnapsAndCells : Prop :=
  (∀ (s : State) (d : DomIx), s.regsCanon = true → s.hostOpen = true → s.loadOk d = true →
    (∀ i < 4, s.rb (TIME_PULSE_CTRL.ARMED i) = false) →
    ∃ t, exec (.timeLoad d) s = .next t ∧
      t.dom d = { ns := s.rf (TIME_LOAD_SEC.SEC d) * 1000000000 + s.rf (TIME_LOAD_NS.NS d), frac := 0, adj := 0 } ∧
      t.dom (1 - d) = s.dom (1 - d) ∧ t.rf (TIME_ADJ_REMAIN.NS d) = 0 ∧ t.rf ⟨TIME_STATUS.w, 2 + d, 1⟩ = 0 ∧
      (s.configurable = true → t.lastKey = []) ∧ (s.configurable = false → t.lastKey = s.lastKey) ∧
      FieldsKept s t [TIME_ADJ_REMAIN.NS d, ⟨TIME_STATUS.w, 2 + d, 1⟩]) ∧
  (∀ (s : State) (d : DomIx), s.regsCanon = true → s.hostOpen = true → s.loadOk d = false →
    ∃ t, exec (.timeLoad d) s = .next t ∧ t.time = s.time ∧ t.rf TIME_ERR.LOAD_REFUSED = 1 ∧
      (s.rb TIME_ERR.LOAD_REFUSED = false → t.pendingBit 0xF00 = true) ∧
      FieldsKeptEv s t [TIME_ERR.LOAD_REFUSED, TIME_ERR_LOC.INDEX, TIME_ERR_LOC.KIND] ∧ SameButEvents s t) ∧
  (∀ (s : State), s.regsCanon = true → s.hostOpen = true →
    ∃ t, exec .timeSnap s = .next t ∧ t.rf TIME_SNAP.READY = 1 ∧
      (∀ d < 2, t.rf (TIME_SNAP_NS.NS d) = (s.dom d).ns % 1000000000 ∧ t.rf (TIME_SNAP_FRAC.FRAC d) = (s.dom d).frac % 2 ^ 32 ∧
        t.rf (TIME_SNAP_SEC.SEC d) = (s.dom d).ns / 1000000000 % 2 ^ 48) ∧
      FieldsKept s t [TIME_SNAP.READY, TIME_SNAP_NS.NS 0, TIME_SNAP_FRAC.FRAC 0, TIME_SNAP_SEC.SEC 0, TIME_SNAP_NS.NS 1,
        TIME_SNAP_FRAC.FRAC 1, TIME_SNAP_SEC.SEC 1] ∧ SameButRegs s t) ∧
  (∀ (s : State) (v : DomIx), s.regsCanon = true → s.hostOpen = true → s.rf TIME_STATUS.STAMP_ACTIVE ≠ v.val →
    ∃ t, exec (.stampDomainWrite v) s = .next t ∧ t.rf TIME_CFG.STAMP_DOMAIN = v.val ∧ t.time.stampIn = 2 ∧
      t.rf TIME_STATUS.STAMP_ACTIVE = s.rf TIME_STATUS.STAMP_ACTIVE ∧ FieldsKept s t [TIME_CFG.STAMP_DOMAIN] ∧
      t = { s with regs := t.regs, time := { s.time with stampIn := 2 } }) ∧
  (∀ (s : State) (cyc : BitVec 16) (bad : Option (Fin 1024)), s.regsCanon = true →
    ∃ t, exec (.cellSync cyc bad) s = .next t ∧ t.time.domA = s.time.domA ∧ t.time.domB = s.time.domB ∧
      t.time.stepA = false ∧ t.time.stepB = false ∧ t.time.syncA = s.time.domA.ns * 2 ^ 32 + s.time.domA.frac ∧
      t.time.syncB = s.time.domB.ns * 2 ^ 32 + s.time.domB.frac ∧ t.time.stampIn = s.time.stampIn - 1 ∧
      (s.time.stampIn = 1 → t.rf TIME_STATUS.STAMP_ACTIVE = s.rf TIME_CFG.STAMP_DOMAIN) ∧
      (s.time.stampIn ≠ 1 → t.rf TIME_STATUS.STAMP_ACTIVE = s.rf TIME_STATUS.STAMP_ACTIVE) ∧
      t.hostMem = s.hostMem ∧ t.pending = s.pending)

/-- R512, R513, Table TI-1: an ordering-source switch whose conditions hold is armed; a CANCEL ends it while it is far enough ahead and leaves it
else; when the old source has reached it, the lead decides: RESULT is 2 below 0, 1 up to MAX_LEAD strokes, and 3 beyond, ORDER_SRC changes for
RESULT 1 alone, every cell following the old source until its own copy reaches the switch's stroke, and event 0xF01 is raised.
Completes: OSW_ARM, OSW_CANCEL, ORDERING_SOURCE_SWITCH. -/
def Obligations.OrderingSourceSwitch : Prop :=
  (∀ (s : State) (v : Word), s.regsCanon = true → s.hostOpen = true → v.getLsbD 2 = false →
    s.rb TIME_OSW_CTRL.PENDING = false → (v.getLsbD 0).toNat ≠ s.rf TIME_STATUS.ORDER_SRC → s.rb CHIP_STROKE_CFG.SRC_LEDGER = false →
    leadOk s.strokeNow (s.rf TIME_OSW_STROKE.STROKE) = true →
    ∃ t, exec (.oswArm v) s = .next t ∧ t.rf TIME_OSW_CTRL.PENDING = 1 ∧ t.rf TIME_OSW_CTRL.TARGET = (v.getLsbD 0).toNat ∧
      t.time = { s.time with oswAt := s.rf TIME_OSW_STROKE.STROKE } ∧ t.rf TIME_STATUS.ORDER_SRC = s.rf TIME_STATUS.ORDER_SRC ∧
      FieldsKept s t [TIME_OSW_CTRL.PENDING, TIME_OSW_CTRL.TARGET, TIME_OSW_CTRL.MAX_LEAD] ∧
      t = { s with regs := t.regs, time := t.time }) ∧
  (∀ (s : State) (v : Word), s.regsCanon = true → s.hostOpen = true → v.getLsbD 1 = false → s.rb TIME_OSW_CTRL.PENDING = true →
    ∃ t, exec (.oswCancel v) s = .next t ∧
      t.rb TIME_OSW_CTRL.PENDING = !leadOk s.strokeNow s.time.oswAt ∧
      FieldsKept s t [TIME_OSW_CTRL.PENDING, TIME_OSW_CTRL.TARGET, TIME_OSW_CTRL.MAX_LEAD] ∧ SameButRegs s t) ∧
  (∀ (s : State), s.regsCanon = true → s.rb TIME_OSW_CTRL.PENDING = true → strokeLe s.time.oswAt s.strokeNow = true →
    ∃ t r, exec .orderingSourceSwitch s = .next t ∧ t.rb TIME_OSW_CTRL.PENDING = false ∧ t.rf TIME_OSW_CTRL.RESULT = r ∧
      r = (if s.oswLead < 0 then 2
        else if s.oswLead ≤ (s.rf TIME_OSW_CTRL.MAX_LEAD * s.strokeLen * 2 ^ 32 : Nat) then 1 else 3) ∧ t.pendingBit 0xF01 = true ∧
      t.rf TIME_STATUS.ORDER_SRC = (if r = 1 then s.rf TIME_OSW_CTRL.TARGET else s.rf TIME_STATUS.ORDER_SRC) ∧
      t.time = (if r = 1 then { s.time with floor := some s.time.oswAt, oswOld := some (s.rf TIME_STATUS.ORDER_SRC) } else s.time) ∧
      FieldsKeptEv s t [TIME_OSW_CTRL.PENDING, TIME_OSW_CTRL.RESULT, TIME_STATUS.ORDER_SRC] ∧
      t = { s with regs := t.regs, evts := t.evts, time := t.time }) ∧
  (∀ (s : State), s.rb TIME_OSW_CTRL.PENDING = false → exec .orderingSourceSwitch s = .next s)

/-- R515 to R517: enabling a pulse output arms it at its first edge at least 100 ns ahead; disabling stops its edges and lets a pulse that is
active complete; at an edge the output becomes active, and after its width inactive.
R518 to R520, R522: a selected edge that comes late enough after the last is stamped at the tail of its FIFO, and the FIFO's event is raised
when it was empty; a read removes the head; a domain counter whose copies differ is cleared while unused, and halts the device in use.
Completes: PULSE_ENABLE, PULSE_DISABLE, PULSE_EDGE, PULSE_WIDTH_END, CAPTURE_EDGE, CAPTURE_READ, DOMAIN_COUNTER_MISMATCH. -/
def Obligations.PulsesAndCaptures : Prop :=
  (∀ (s : State) (i : Fin 4) (v : Word) (e : Nat), s.regsCanon = true → s.hostOpen = true →
    nextEdge (s.pulseStart i) (s.rf (TIME_PULSE_PERIOD.NS i)) (s.dom (v.getLsbD 1).toNat).ceil = some e →
    scanon (fun _ => ({} : PulseX)) 0 s.time.pulses = true → (s.dom (v.getLsbD 1).toNat).frac < 2 ^ 32 →
    ∃ t, exec (.pulseEnable i v) s = .next t ∧ t.rf (TIME_PULSE_CTRL.EN i) = 1 ∧ t.rf (TIME_PULSE_CTRL.ARMED i) = 1 ∧
      t.rf (TIME_PULSE_CTRL.LATE i) = 0 ∧ t.pulse i = { s.pulse i with next := e } ∧
      (s.dom (v.getLsbD 1).toNat).ns * 2 ^ 32 + (s.dom (v.getLsbD 1).toNat).frac ≤ (e - 100) * 2 ^ 32 ∧
      FieldsKept s t [⟨TIME_PULSE_CTRL.w i, 0, 32⟩] ∧
      t = { s with regs := t.regs, time := { s.time with pulses := t.time.pulses } }) ∧
  (∀ (s : State) (i : Fin 4) (v : Word), s.regsCanon = true → s.hostOpen = true →
    ∃ t, exec (.pulseDisable i v) s = .next t ∧ t.rf (TIME_PULSE_CTRL.EN i) = 0 ∧ t.rf (TIME_PULSE_CTRL.ARMED i) = 0 ∧
      t.time = s.time ∧ FieldsKept s t [⟨TIME_PULSE_CTRL.w i, 0, 32⟩] ∧ SameButRegs s t) ∧
  (∀ (s : State) (i : Fin 4), s.regsCanon = true → scanon (fun _ => ({} : PulseX)) 0 s.time.pulses = true →
    s.rb (TIME_PULSE_CTRL.ARMED i) = true → (s.pulse i).next ≤ s.pulseNow i →
    ∃ t, exec (.pulseEdge i) s = .next t ∧ (t.pulse i).active = true ∧
      (t.pulse i).endAt = (s.pulse i).next + s.rf (TIME_PULSE_WIDTH.NS i) ∧ (t.pulse i).dom = s.rf (TIME_PULSE_CTRL.DOMAIN i) ∧
      t.pulseOut i = !s.rb (TIME_PULSE_CTRL.INVERT i) ∧
      (s.rf (TIME_PULSE_PERIOD.NS i) = 0 → t.rb (TIME_PULSE_CTRL.ARMED i) = false ∧ t.pendingBit (0xF04 + i) = true) ∧
      (s.rf (TIME_PULSE_PERIOD.NS i) ≠ 0 → t.regs = s.regs ∧ t.evts = s.evts ∧
        (t.pulse i).next = (s.pulse i).next + s.rf (TIME_PULSE_PERIOD.NS i)) ∧
      FieldsKeptEv s t [TIME_PULSE_CTRL.ARMED i] ∧
      t = { s with regs := t.regs, evts := t.evts, time := { s.time with pulses := t.time.pulses } }) ∧
  (∀ (s : State) (i : Fin 4), scanon (fun _ => ({} : PulseX)) 0 s.time.pulses = true → (s.pulse i).active = true →
    (s.pulse i).endAt ≤ (s.dom (s.pulse i).dom).ns →
    ∃ t, exec (.pulseWidthEnd i) s = .next t ∧ t.pulse i = { s.pulse i with active := false } ∧
      t.pulseOut i = s.rb (TIME_PULSE_CTRL.INVERT i) ∧
      t = { s with time := { s.time with pulses := t.time.pulses } }) ∧
  (∀ (s : State) (i : Fin 4) (rising : Bool) (back : BitVec 16), s.regsCanon = true →
    scanon (fun _ => ({} : CaptX)) 0 s.time.capts = true → s.rb (TIME_CAPT_CFG.EN i) = true →
    s.rf (TIME_CAPT_CFG.FILTER_NS i) ≤ back.toNat → s.captSelects i rising = true →
    s.captTooSoon i (s.time.tick - back.toNat) = false → (s.capt i).fifo.length < 16 →
    ∃ t, exec (.captureEdge i rising back) s = .next t ∧
      (t.capt i).fifo = (s.capt i).fifo ++ [⟨s.domBack (s.rf (TIME_CAPT_CFG.DOMAIN i)) back.toNat, s.rf (TIME_CAPT_CFG.DOMAIN i)⟩] ∧
      (t.capt i).last = some (s.time.tick - back.toNat) ∧
      ((s.capt i).fifo = [] → t.pendingBit (0xF08 + i) = true) ∧
      t.time.domA = s.time.domA ∧ t.time.domB = s.time.domB ∧ t.hostMem = s.hostMem ∧ t.pending = s.pending) ∧
  (∀ (s : State) (i : Fin 4) (c : CaptStamp) (l : List CaptStamp), s.regsCanon = true →
    scanon (fun _ => ({} : CaptX)) 0 s.time.capts = true → (s.capt i).fifo = c :: l → c.dom < 2 → l.length < 16 →
    ∃ t, exec (.captureRead i) s = .next t ∧ (t.capt i).fifo = l ∧
      t.readData = [BitVec.ofNat 32 (c.ns % 1000000000 + c.dom * 2 ^ 30 + 2 ^ 31)] ∧
      t.rf (TIME_CAPT_SEC_LO.SEC i) + 2 ^ 32 * t.rf (TIME_CAPT_SEC_HI.SEC i) = c.ns / 1000000000 % 2 ^ 48 ∧
      t.rf (TIME_CAPT_STATUS.COUNT i) = l.length ∧
      FieldsKept s t [TIME_CAPT_STATUS.COUNT i, TIME_CAPT_SEC_LO.SEC i, TIME_CAPT_SEC_HI.SEC i] ∧
      t = { s with regs := t.regs, readData := t.readData, time := { s.time with capts := t.time.capts } }) ∧
  (∀ (s : State) (d : DomIx), s.regsCanon = true → s.rf TIME_STATUS.ORDER_SRC ≠ d.val → s.rf TIME_STATUS.STAMP_ACTIVE ≠ d.val →
    ∃ t, exec (.domainCounterMismatch d) s = .next t ∧ t.dom d = {} ∧ t.dom (1 - d) = s.dom (1 - d) ∧
      t.rf ⟨TIME_STATUS.w, 2 + d, 1⟩ = 1 ∧ t.rf TIME_ERR.PARITY = 1 ∧ t.rf CHIP_DET_STATUS.PARITY = 1 ∧ t.chipState = s.chipState ∧
      t.hostMem = s.hostMem ∧ t.pending = s.pending) ∧
  (∀ (s : State) (d : DomIx), s.regsCanon = true → (s.rf TIME_STATUS.ORDER_SRC = d.val ∨ s.rf TIME_STATUS.STAMP_ACTIVE = d.val) →
    s.alive = true →
    ∃ t, exec (.domainCounterMismatch d) s = .next t ∧ t.halted = true ∧ t.rf CHIP_HALT_CAUSE.CAUSE = 0x20 ∧ t.time = s.time ∧
      t.hostMem = s.hostMem ∧ t.pending = s.pending)

/-! ### Ports (file 02) -/

/-- R52, R82, R616: a frame reaches a MAC that discards it, uncounted: no port starts at the lane, the device does not run, its region is
quarantined, or the link is down; a Standby-Cold unit counts it and nothing else (R535).
R52, R666: the code of a refused frame is that of the first condition that it meets, in the order 04 05 07 03 06 01 02; a frame that
meets none has no code. -/
def Obligations.ReceptionDiscardsAndCodes : Prop :=
  (∀ (s : State) (n : Region) (l : Fin 64) (r : RxFrame),
    (s.portWidth n l = 0 ∨ s.running = false ∨ s.regionRuns n = false ∨
      (s.rb (pbf PB_PORT_STATUS.LINK_UP n l) = false ∧ r.down = false)) →
    exec (.frameReceive n l r) s = .next s) ∧
  (∀ (s : State) (n : Region) (l : Fin 64) (r : RxFrame), s.regsCanon = true → s.portWidth n l ≠ 0 → s.running = true →
    s.regionRuns n = true → s.rb (pbf PB_PORT_STATUS.LINK_UP n l) = true → s.pairMode = 2 →
    ∃ t, exec (.frameReceive n l r) s = .next t ∧
      t.rf (PAIR_CNT.COUNT 3) = (if s.counts s.strokeNow then satAdd 48 (s.rf (PAIR_CNT.COUNT 3)) 1 else s.rf (PAIR_CNT.COUNT 3)) ∧
      FieldsKept s t [PAIR_CNT.COUNT 3] ∧ SameButRegs s t) ∧
  (∀ (mtu : Nat) (r : RxFrame), 64 ≤ mtu → mtu ≤ 10000 →
    (rxCode mtu r = some 4 ↔ r.preamble = false) ∧
    (rxCode mtu r = some 5 ↔ r.preamble = true ∧ r.sfd = false) ∧
    (rxCode mtu r = some 7 ↔ r.preamble = true ∧ r.sfd = true ∧ r.early = true) ∧
    (rxCode mtu r = some 3 ↔ r.preamble = true ∧ r.sfd = true ∧ r.early = false ∧ 16380 ≤ r.data.length) ∧
    (rxCode mtu r = some 6 ↔ r.preamble = true ∧ r.sfd = true ∧ r.early = false ∧ r.data.length < 16380 ∧ r.pcs = true) ∧
    (rxCode mtu r = some 1 ↔ r.preamble = true ∧ r.sfd = true ∧ r.early = false ∧ r.pcs = false ∧ r.data.length < 60) ∧
    (rxCode mtu r = some 2 ↔ r.preamble = true ∧ r.sfd = true ∧ r.early = false ∧ r.pcs = false ∧ mtu < r.data.length + 4 ∧
      r.data.length < 16380) ∧
    (rxCode mtu r = none ↔ r.preamble = true ∧ r.sfd = true ∧ r.early = false ∧ r.pcs = false ∧ 60 ≤ r.data.length ∧
      r.data.length + 4 ≤ mtu))

/-- R27, R29, R52, R55, R538: a frame with preamble and SFD at an admitting MAC takes its ordering key, whose stroke is never below the
port's last and whose SEQ counts the frames of one stroke; it is refused when its FCS, its link or a code of R666 says so and accepted
otherwise. A frame without preamble or SFD takes no key and is refused; one that meets a parity error in the MAC's buffer is discarded (R88);
behind the twin's ledger a frame waits for its record to be keyed (R539). A frame of a stroke that the MACs do not take is not received (R616,
R617); a port in near-end loopback receives the oldest frame that it sent, whatever is at its lanes (Table SL-10).
Completes: FRAME_RECEIVE. -/
def Obligations.ReceptionStamps : Prop :=
  (∀ (s : State) (n : Region) (l : Fin 64) (r : RxFrame) (t : Nat), s.regsCanon = true → s.portWidth n l ≠ 0 → s.running = true →
    s.regionRuns n = true → (s.rb (pbf PB_PORT_STATUS.LINK_UP n l) = true ∨ r.down = true) → s.pairMode ≠ 2 → s.nearPort n l = false →
    t = s.heldStroke (globalOf n l) (s.sfdCyc r) → s.fromLedger t = false →
    (s.admitsStroke t = false → exec (.frameReceive n l r) s = .next s) ∧
    (s.admitsStroke t = true → r.preamble = true → r.sfd = true → r.mac = false → r.fcs = true → r.down = false →
      rxCode (s.rf (pbf PB_PORT_CFG.MTU n l)) r = none →
      exec (.frameReceive n l r) s =
        .next (((s.stampKey (globalOf n l) t).1.ledCount (s.stampKey (globalOf n l) t).2).accept n l (s.stampKey (globalOf n l) t).2 r)) ∧
    (s.admitsStroke t = true → r.preamble = true → r.sfd = true → r.mac = false →
      (r.fcs = false ∨ r.down = true ∨ (rxCode (s.rf (pbf PB_PORT_CFG.MTU n l)) r).isSome = true) →
      exec (.frameReceive n l r) s =
        .next (((s.stampKey (globalOf n l) t).1.ledCount (s.stampKey (globalOf n l) t).2).refuse n l (s.stampKey (globalOf n l) t).2 r)) ∧
    (s.admitsStroke t = true → r.preamble = true → r.sfd = true → r.mac = true →
      exec (.frameReceive n l r) s = .next (((s.stampKey (globalOf n l) t).1.ledCount (s.stampKey (globalOf n l) t).2).macDiscard n l
        (s.stampKey (globalOf n l) t).2 true)) ∧
    (s.admitsStroke t = true → (r.preamble = false ∨ r.sfd = false) → r.mac = false →
      exec (.frameReceive n l r) s = .next (s.refuse n l ⟨t, globalOf n l, 0⟩ r)) ∧
    (s.admitsStroke t = true → (r.preamble = false ∨ r.sfd = false) → r.mac = true →
      exec (.frameReceive n l r) s = .next (s.macDiscard n l ⟨t, globalOf n l, 0⟩ false))) ∧
  (∀ (s : State) (n : Region) (l : Fin 64) (r : RxFrame) (t : Nat), s.regsCanon = true → s.portWidth n l ≠ 0 → s.running = true →
    s.regionRuns n = true → s.rb (pbf PB_PORT_STATUS.LINK_UP n l) = true → s.pairMode ≠ 2 → s.nearPort n l = false →
    t = s.heldStroke (globalOf n l) (s.sfdCyc r) → s.fromLedger t = true → s.admitsStroke t = true → r.preamble = true → r.sfd = true →
    r.mac = false → r.fcs = true → r.down = false → rxCode (s.rf (pbf PB_PORT_CFG.MTU n l)) r = none →
    exec (.frameReceive n l r) s = .next ((s.ledCount ⟨t, globalOf n l, 0⟩).accept n l ⟨t, globalOf n l, 0⟩ r)) ∧
  (∀ (s : State) (n : Region) (l : Fin 64) (r : RxFrame) (d : List Byte) (good : Bool) (rest : List (List Byte × Bool)),
    s.portWidth n l ≠ 0 → s.running = true → s.regionRuns n = true → s.rb (pbf PB_PORT_STATUS.LINK_UP n l) = true → s.pairMode ≠ 2 →
    s.nearPort n l = true →
    ((s.pport n l).loop = [] → exec (.frameReceive n l r) s = .next s) ∧
    ((s.pport n l).loop = (d, good) :: rest →
      exec (.frameReceive n l r) s = .next ((s.setPport n l { s.pport n l with loop := rest }).macReceive n l
        { r with data := d, preamble := true, sfd := true, early := false, pcs := false, fcs := good }))) ∧
  (∀ (s : State) (p t : Nat), s.regsCanon = true → mapCanon (0, 0) s.lastKey = true → (mget (0, 0) s.lastKey p).2 ≠ 0 →
    (s.stampKey p t).2.port = p ∧
    (strokeLt (raiseTo s.pairx.floor (raiseTo s.time.floor t)) (mget (0, 0) s.lastKey p).1 = true →
      (s.stampKey p t).2.stroke = (mget (0, 0) s.lastKey p).1 ∧ (s.stampKey p t).1.rf CHIP_DET_STATUS.ORDER_CLAMP = 1) ∧
    (strokeLt (raiseTo s.pairx.floor (raiseTo s.time.floor t)) (mget (0, 0) s.lastKey p).1 = false →
      (s.stampKey p t).2.stroke = raiseTo s.pairx.floor (raiseTo s.time.floor t) ∧ (s.stampKey p t).1.regs = s.regs) ∧
    ((s.stampKey p t).2.stroke = (mget (0, 0) s.lastKey p).1 → (s.stampKey p t).2.seq = (mget (0, 0) s.lastKey p).2 % 2 ^ 16) ∧
    ((s.stampKey p t).2.stroke ≠ (mget (0, 0) s.lastKey p).1 → (s.stampKey p t).2.seq = 0) ∧
    mget (0, 0) (s.stampKey p t).1.lastKey p = ((s.stampKey p t).2.stroke,
      if (s.stampKey p t).2.stroke = (mget (0, 0) s.lastKey p).1 then (mget (0, 0) s.lastKey p).2 + 1 else 1) ∧
    (s.stampKey p t).1 = { s with regs := (s.stampKey p t).1.regs, evts := (s.stampKey p t).1.evts,
                                  lastKey := (s.stampKey p t).1.lastKey })

/-- R59 to R64, R666: a received pause time pauses its priority for at most RX_QUANTA_MAX, and runs out; an asserted valve sends its frame
again at the refresh, with XOFF_QUANTA (from a port one of whose lanes is in far-end loopback no frame leaves, Table SL-10).
Completes: PAUSE_EXPIRY, PFC_REFRESH. -/
def Obligations.PauseTimes : Prop :=
  (∀ (s : State) (n : Region) (l : Fin 64) (p : Oct), mapCanon {} s.pports = true → mapCanon 0 (s.pport n l).quanta = true →
    ∃ t, exec (.pauseExpiry n l p) s = .next t ∧ mget 0 (t.pport n l).quanta p = 0 ∧
      (∀ q : Nat, q ≠ p → mget 0 (t.pport n l).quanta q = mget 0 (s.pport n l).quanta q) ∧
      t = { s with pports := t.pports, regx := t.regx }) ∧
  (∀ (s : State) (n l : Nat) (d : List Byte) (q : Nat), mapCanon {} s.pports = true → mapCanon 0 (s.pport n l).quanta = true →
    be16 d 14 = 1 →
    mget 0 ((s.pauseReceive n l d).pport n l).quanta 0 = min (s.rf (pbf PB_FC_CFG.RX_QUANTA_MAX n l)) (be16 d 16) ∧
    (q ≠ 0 → mget 0 ((s.pauseReceive n l d).pport n l).quanta q = mget 0 (s.pport n l).quanta q)) ∧
  (∀ (s : State) (n l : Nat) (d : List Byte) (p : Nat), mapCanon {} s.pports = true → mapCanon 0 (s.pport n l).quanta = true →
    be16 d 14 = 0x101 → p < 8 →
    mget 0 ((s.pauseReceive n l d).pport n l).quanta p =
      if bit (be16 d 16) p then min (s.rf (pbf PB_FC_CFG.RX_QUANTA_MAX n l)) (be16 d (18 + 2 * p)) else mget 0 (s.pport n l).quanta p) ∧
  (∀ (s : State) (n : Region) (l : Fin 64) (p : Oct), s.regsCanon = true → s.rf (pbf PB_FC_CFG.MODE n l) = 2 →
    (s.valve n (l * 16 + 2 * p) || s.valve n (l * 16 + 2 * p + 1)) = true → s.canSend n l = true →
    s.rb (LANE_PORT_STATUS.TX_QUIET n l) = false →
    ∃ t, exec (.pfcRefresh n l p) s = .next t ∧
      t.outputs = (if s.farLoop n l then s.outputs else .frame (globalOf n l) (ctlFrame (s.fcSa n l) true (2 ^ p.val)
        ((List.range 8).map (fun k => if k = p.val then s.rf (pbf PB_FC_TX.XOFF_QUANTA n l) else 0))) true :: s.outputs) ∧
      bit (t.rf (pbf PB_PORT_STATUS.TX_XOFF n l)) p = (s.rf (pbf PB_FC_TX.XOFF_QUANTA n l) != 0) ∧
      (s.nearPort n l = false → t.pports = s.pports) ∧
      t = { s with regs := t.regs, evts := t.evts, outputs := t.outputs, pports := t.pports }) ∧
  (∀ (s : State) (n : Region) (l : Fin 64), s.regsCanon = true → s.rf (pbf PB_FC_CFG.MODE n l) = 1 → s.valve n (2000 + l) = true →
    s.canSend n l = true → s.rb (LANE_PORT_STATUS.TX_QUIET n l) = false →
    ∃ t, exec (.pfcRefresh n l 0) s = .next t ∧
      t.outputs = (if s.farLoop n l then s.outputs
        else .frame (globalOf n l) (ctlFrame (s.fcSa n l) false 0 [s.rf (pbf PB_FC_TX.XOFF_QUANTA n l)]) true :: s.outputs) ∧
      (s.nearPort n l = false → t.pports = s.pports) ∧
      t = { s with regs := t.regs, evts := t.evts, outputs := t.outputs, pports := t.pports })

/-- R63, R80, R82, R83: the storm watchdog flushes what its priority holds up, marks the priority and logs it; it re-arms by clearing the mark;
the end of the flap hold flushes the port and drops later frames; the clear of a violation log empties it.
Completes: STORM_WATCHDOG_TRIP, STORM_WATCHDOG_REARM, FLAP_HOLD_EXPIRY, VIOL_LOG_CLEAR. -/
def Obligations.StormFlapAndLog : Prop :=
  (∀ (s : State) (n : Region) (l : Fin 64) (p : Oct), s.regsCanon = true →
    (s.rf (pbf PB_FC_CFG.MODE n l) = 2 ∨ (s.rf (pbf PB_FC_CFG.MODE n l) = 1 ∧ p.val = 0)) →
    s.rf (pbf PB_STORM_CFG.LIMIT_MS n l) ≠ 0 → mget 0 (s.pport n l).quanta p ≠ 0 →
    bit (s.rf (pbf PB_PORT_STATUS.STORM n l)) p = false →
    ∃ t, exec (.stormWatchdogTrip n l p) s = .next t ∧ bit (t.rf (pbf PB_PORT_STATUS.STORM n l)) p = true ∧
      t = ((((s.flushPort n l (s.pauseClasses n l p) 20).wf (pbf PB_PORT_STATUS.STORM n l)
        (putBits (s.rf (pbf PB_PORT_STATUS.STORM n l)) p 1 1)).fresh n l).viol n l 0x16 0)) ∧
  (∀ (s : State) (n : Region) (l : Fin 64) (p : Oct), s.regsCanon = true →
    ∃ t, exec (.stormWatchdogRearm n l p) s = .next t ∧ bit (t.rf (pbf PB_PORT_STATUS.STORM n l)) p = false ∧
      (∀ q < 8, q ≠ p.val → bit (t.rf (pbf PB_PORT_STATUS.STORM n l)) q = bit (s.rf (pbf PB_PORT_STATUS.STORM n l)) q) ∧
      FieldsKept s t [pbf PB_PORT_STATUS.STORM n l] ∧ t = { s with regs := t.regs, regx := t.regx }) ∧
  (∀ (s : State) (n : Region) (l : Fin 64), s.regsCanon = true → s.rb (pbf PB_PORT_STATUS.FROZEN n l) = true →
    s.rb (pbf PB_PORT_STATUS.LINK_UP n l) = false →
    exec (.flapHoldExpiry n l) s =
      .next (((s.wf (pbf PB_PORT_STATUS.FROZEN n l) 0).wf (pbf PB_PORT_STATUS.DOWN_DISCARD n l) 1).flushPort n l (List.range 16) 17)) ∧
  (∀ (s : State) (n : Region) (l : Fin 64), (s.rb (pbf PB_PORT_STATUS.FROZEN n l) = false ∨ s.rb (pbf PB_PORT_STATUS.LINK_UP n l) = true) →
    exec (.flapHoldExpiry n l) s = .next s) ∧
  (∀ (s : State) (n : Region) (l : Fin 64) (v : Word), s.regsCanon = true → s.hostOpen = true →
    ∃ t, exec (.violLogClear n l v) s = .next t ∧ t.rf (pbf PB_VIOL_CTRL.VALID n l) = 0 ∧
      FieldsKept s t [pbf PB_VIOL_CTRL.VALID n l] ∧ SameButRegs s t)

/-- R48, R49, R51, R53: a shape is taken only while its block's ports are disabled and only when it is allowed; a port takes its speed and FEC
only while it is disabled, its MTU within 64 to 10,000 at any time, and is enabled only with a row of Table PM-1; disabled, it is DISABLED.
Completes: PB_SHAPE_WRITE, PORT_CFG_WRITE. -/
def Obligations.PortConfiguration : Prop :=
  (∀ (s : State) (n : Region) (b : Oct) (v : Word), s.regsCanon = true → s.hostOpen = true →
    (∃ i < 8, s.rb (PB_PORT_CFG.ENABLE n b i) = true) → shapeOk (v.toNat % 2 ^ 24) = true →
    (s.reg (PB_SHAPE.w n b)).toNat ≠ v.toNat % 2 ^ 24 →
    ∃ t, exec (.pbShapeWrite n b v) s = .next t ∧ t.rf (PB_BLOCK_ERR.CFG_IGNORED n b) = 1 ∧
      FieldsKeptEv s t [PB_BLOCK_ERR.CFG_IGNORED n b] ∧ SameButEvents s t) ∧
  (∀ (s : State) (n : Region) (b : Oct) (v : Word), s.regsCanon = true → s.hostOpen = true →
    shapeOk (v.toNat % 2 ^ 24) = false →
    ∃ t, exec (.pbShapeWrite n b v) s = .next t ∧ t.rf (PB_BLOCK_ERR.SHAPE_REJECT n b) = 1 ∧
      FieldsKeptEv s t [PB_BLOCK_ERR.SHAPE_REJECT n b] ∧ SameButEvents s t) ∧
  (∀ (s : State) (n : Region) (b : Oct) (v : Word), s.regsCanon = true → s.hostOpen = true →
    (∀ i < 8, s.rb (PB_PORT_CFG.ENABLE n b i) = false) → shapeOk (v.toNat % 2 ^ 24) = true →
    ∃ t, exec (.pbShapeWrite n b v) s = .next t ∧ (∀ i < 8, t.portWidth n (b * 8 + i) = widthOf (bits v.toNat (3 * i) 3)) ∧
      t = { s with regs := t.regs, hold := t.hold, latch := t.latch, pports := t.pports, links := t.links, lanes := t.lanes, free := t.free }) ∧
  (∀ (s : State) (n : Region) (l : Fin 64) (v : Word), s.regsCanon = true → s.hostOpen = true → s.portWidth n l ≠ 0 →
    s.rb (pbf PB_PORT_CFG.ENABLE n l) = false → v.getLsbD 0 = false →
    ∃ t, exec (.portCfgWrite n l v) s = .next t ∧ t.rf (pbf PB_PORT_CFG.SPEED n l) = bits v.toNat 1 3 ∧
      t.rf (pbf PB_PORT_CFG.FEC n l) = bits v.toNat 4 2 ∧ t.rf (pbf PB_PORT_CFG.CUT_THROUGH n l) = bits v.toNat 6 1 ∧
      t.rf (pbf PB_PORT_CFG.MTU n l) = max 64 (min 10000 (bits v.toNat 8 14)) ∧ t.rf (pbf PB_PORT_CFG.ENABLE n l) = 0 ∧
      FieldsKept s t ([pbf PB_PORT_CFG.SPEED n l, pbf PB_PORT_CFG.FEC n l, pbf PB_PORT_CFG.CUT_THROUGH n l, pbf PB_PORT_CFG.MTU n l] ++
        (List.range (s.portWidth n l)).flatMap (fun k => [⟨LANE_TX_TAPS_NOW.w n (l + k), 0, 32⟩, LANE_PRBS_BITS.BITS n (l + k),
          LANE_PRBS_ERRS.ERRS n (l + k)])) ∧
      t = { s with regs := t.regs, lanes := t.lanes, free := t.free }) ∧
  (∀ (s : State) (n : Region) (l : Fin 64) (v : Word), s.regsCanon = true → mapCanon {} s.links = true → s.hostOpen = true →
    s.portWidth n l ≠ 0 → s.rb (pbf PB_PORT_CFG.ENABLE n l) = true → v.getLsbD 0 = false →
    ∃ t, exec (.portCfgWrite n l v) s = .next t ∧ t.rf (pbf PB_PORT_CFG.ENABLE n l) = 0 ∧ (t.link n l).state = lkDisabled ∧
      t.rf (pbf PB_PORT_CFG.SPEED n l) = s.rf (pbf PB_PORT_CFG.SPEED n l) ∧ t.rf (pbf PB_PORT_CFG.FEC n l) = s.rf (pbf PB_PORT_CFG.FEC n l)) ∧
  (∀ (s : State) (n : Region) (l : Fin 64) (v : Word), s.regsCanon = true → s.hostOpen = true → s.portWidth n l ≠ 0 →
    s.rb (pbf PB_PORT_CFG.ENABLE n l) = false → v.getLsbD 0 = true → shapeRow (bits v.toNat 1 3) (s.portWidth n l) = none →
    ∃ t, exec (.portCfgWrite n l v) s = .next t ∧ t.rf (pbf PB_PORT_CFG.ENABLE n l) = 0 ∧
      t.rf (PB_BLOCK_ERR.CFG_REJECT n (l / 8)) = 1) ∧
  (∀ (s : State) (n : Region) (l : Fin 64) (v : Word), s.regsCanon = true → s.hostOpen = true → s.portWidth n l ≠ 0 →
    s.rb (pbf PB_PORT_CFG.ENABLE n l) = true → v.getLsbD 0 = true →
    (bits v.toNat 1 3 ≠ s.rf (pbf PB_PORT_CFG.SPEED n l) ∨ bits v.toNat 4 2 ≠ s.rf (pbf PB_PORT_CFG.FEC n l)) →
    ∃ t, exec (.portCfgWrite n l v) s = .next t ∧ t.rf (PB_BLOCK_ERR.CFG_IGNORED n (l / 8)) = 1 ∧
      t.rf (pbf PB_PORT_CFG.SPEED n l) = s.rf (pbf PB_PORT_CFG.SPEED n l) ∧
      t.rf (pbf PB_PORT_CFG.MTU n l) = max 64 (min 10000 (bits v.toNat 8 14)) ∧
      FieldsKeptEv s t [PB_BLOCK_ERR.CFG_IGNORED n (l / 8), pbf PB_PORT_CFG.CUT_THROUGH n l, pbf PB_PORT_CFG.MTU n l] ∧
      SameButEvents s t) ∧
  (∀ (s : State) (n : Region) (l : Fin 64) (v : Word) (r : ShapeRow), s.regsCanon = true → s.hostOpen = true →
    s.rb (pbf PB_PORT_CFG.ENABLE n l) = false → v.getLsbD 0 = true → shapeRow (bits v.toNat 1 3) (s.portWidth n l) = some r →
    bits v.toNat 4 2 ∈ r.fecs →
    ∃ t, exec (.portCfgWrite n l v) s = .next t ∧ t.rf (pbf PB_PORT_CFG.ENABLE n l) = 1 ∧
      t.rf (pbf PB_PORT_CFG.SPEED n l) = bits v.toNat 1 3 ∧ t.rf (pbf PB_PORT_CFG.FEC n l) = bits v.toNat 4 2)

/-! ### Lanes (file 03) -/

/-- R108 to R113: a bring-up advances from AN through TRAIN and ALIGN to UP. Autonegotiation that resolves to a technology of the port with
its FEC leads on at that speed; training done leads to ALIGN with every lane in use trained and locked; alignment done leads to UP, with
the attempts and holds cleared and the width, speed and FEC in use shown, and the port block hears of it (R82).
Completes: AN_RESOLVED, TRAIN_COMPLETE, ALIGN_COMPLETE. -/
def Obligations.BringUpAdvances : Prop :=
  (∀ (s : State) (g : LaneGroup) (l : LaneIx) (r : AnResult) (c : Nat), s.regsCanon = true → mapCanon {} s.links = true →
    (s.link g l).state = lkAn → r.fec.val = s.cfgFec g l →
    (s.advTech g l).find? (fun c => bit r.tech.toNat c) = some c →
    ∃ t, exec (.anResolved g l r) s = .next t ∧
      (t.link g l) = { s.link g l with speed := c, state := if s.rb (LANE_CFG.TRAIN_EN g l) then lkTrain else lkAlign } ∧
      t.rf (LANE_PORT_STATUS.PARTNER_PAUSE g l) = r.pause.toNat ∧ t.rf (LANE_STATUS.SIGNAL g l) = 1 ∧
      t.rb (LANE_PORT_STATUS.QUIET_AGREED g l) = (s.rb (LANE_CFG.QUIET_EN g l) && askedQuiet r) ∧
      t = { s with regs := t.regs, links := t.links }) ∧
  (∀ (s : State) (g : LaneGroup) (l : LaneIx) (ber : BerEst), s.regsCanon = true → mapCanon {} s.links = true →
    (s.link g l).state = lkTrain → (∀ k < (s.link g l).width, s.rf (LANE_CFG.BER_EXP g l) ≤ bits ber.toNat (4 * k) 4) →
    ∃ t, exec (.trainComplete g ⟨l, ber⟩) s = .next t ∧ (t.link g l) = { s.link g l with state := lkAlign } ∧
      (∀ k < (s.link g l).width, t.rf (LANE_STATUS.TRAINED g (l + k)) = 1 ∧ t.rf (LANE_STATUS.SIGNAL g (l + k)) = 1 ∧
        t.rf (LANE_STATUS.CDR_LOCK g (l + k)) = 1) ∧
      t = { s with regs := t.regs, links := t.links }) ∧
  (∀ (s : State) (g : LaneGroup) (l : LaneIx), s.regsCanon = true → mapCanon {} s.links = true → (s.link g l).state = lkAlign →
    0 < s.cfgWidth g l →
    ∃ t, exec (.alignComplete g l) s = .next t ∧ (t.link g l) = { s.link g l with state := lkUp } ∧
      t.rf (LANE_STATUS.ATTEMPTS g l) = 0 ∧ t.rf (LANE_STATUS.HOLDS g l) = 0 ∧
      t.rf (LANE_PORT_STATUS.ACT_FEC g l) = s.cfgFec g l % 4 ∧
      t.rf (LANE_PORT_STATUS.ACT_SPEED g l) = (s.link g l).speed % 8 ∧
      (g.val ≠ 8 → t.rf (pbf PB_PORT_STATUS.LINK_UP g l) = 1 ∧ t.rf (pbf PB_PORT_STATUS.FROZEN g l) = 0 ∧
        t.rf (pbf PB_PORT_STATUS.DOWN_DISCARD g l) = 0 ∧ t.pendingBit (regionSrc 0x240 g + l) = true) ∧
      t = { s with regs := t.regs, evts := t.evts, links := t.links, regx := t.regx }) ∧
  (∀ (s : State) (g : LaneGroup) (l : LaneIx) (ber : BerEst), (s.link g l).state ≠ lkTrain → (s.link g l).state ≠ lkAlign →
    exec (.trainComplete g ⟨l, ber⟩) s = .next s ∧ exec (.alignComplete g l) s = .next s)

/-- R109, R112 to R114, Table SL-3: what ends an attempt in failure, with its code and the lane it is logged for: 0x20 when autonegotiation
fails, 0x21 when it resolves to nothing that the port has, 0x23 for the first lane that missed the training target, 0x33 when alignment is
not complete, no code when the partner restarts autonegotiation.
R112, R114, R118: a failed attempt leads to another while fewer than three of the sequence have failed; the third is logged with 0x22 and
leads to hold-down, unless lanes missed the training target in all three, which are marked failed before a sequence begins without them; a
mismatch with the partner leads to hold-down at once. Hold-down
shows HOLD, counts, and becomes FAILED in place of exceeding MAX_HOLDS; its end begins a sequence.
Completes: AN_PAGE_ERROR, AN_TIMEOUT, AN_RESOLVED, TRAIN_TIMEOUT, COEFF_TIMEOUT, ALIGN_TIMEOUT, PARTNER_AN_RESTART, HOLD_EXPIRY. -/
def Obligations.BringUpFailsAttemptsAndHolds : Prop :=
  (∀ (s : State) (g : LaneGroup) (l : LaneIx), (s.link g l).state = lkAn →
    exec (.anPageError g l) s = .next (s.attemptFail g l (some 0x20) 0 []) ∧
    exec (.anTimeout g l) s = .next (s.attemptFail g l (some 0x20) 0 [])) ∧
  (∀ (s : State) (g : LaneGroup) (l : LaneIx) (r : AnResult), s.regsCanon = true → (s.link g l).state = lkAn →
    (r.fec.val ≠ s.cfgFec g l ∨ (s.advTech g l).find? (fun c => bit r.tech.toNat c) = none) →
    exec (.anResolved g l r) s = .next (((s.wf (LANE_PORT_STATUS.PARTNER_PAUSE g l) r.pause.toNat).wf (LANE_STATUS.SIGNAL g l) 1).attemptFail
      g l (some 0x21) 0 [])) ∧
  (∀ (s : State) (g : LaneGroup) (l : LaneIx) (ber : BerEst) (k : Nat) (ks : List Nat), (s.link g l).state = lkTrain →
    s.lanesNot g l ber = k :: ks → exec (.trainTimeout g l ber) s = .next (s.trainFail g l k ber)) ∧
  (∀ (s : State) (g : LaneGroup) (m : LaneIx) (l : Nat) (ber : BerEst), s.portOfLane g m = some l → (s.link g l).state = lkTrain →
    m.val < l + (s.link g l).width → exec (.coeffTimeout g m ber) s = .next (s.trainFail g l (m - l) ber)) ∧
  (∀ (s : State) (g : LaneGroup) (l : LaneIx), (s.link g l).state = lkAlign →
    exec (.alignTimeout g l) s = .next (s.attemptFail g l (some 0x33) 0 [])) ∧
  (∀ (s : State) (g : LaneGroup) (l : LaneIx),
    ((s.link g l).state = lkAn ∨ (s.link g l).state = lkTrain ∨ (s.link g l).state = lkAlign) →
    exec (.partnerAnRestart g l) s = .next (s.attemptFail g l none 0 [])) ∧
  (∀ (s : State) (g : LaneGroup) (l : LaneIx), (s.link g l).state = lkUp →
    exec (.anPageError g l) s = .next s ∧ exec (.anTimeout g l) s = .next s ∧ exec (.alignTimeout g l) s = .next s ∧
    exec (.partnerAnRestart g l) s = .next s) ∧
  (∀ (s : State) (g l : Nat) (code : Option Nat) (lane : Nat) (miss : List Nat), code ≠ some 0x21 → code = none →
    s.rf (LANE_STATUS.ATTEMPTS g l) + 1 < 3 →
    s.attemptFail g l code lane miss =
      ((s.eachLane g l LANE_STATUS.ATTEMPTS (s.rf (LANE_STATUS.ATTEMPTS g l) + 1)).setLink g l
        { s.link g l with missed := some (missAll (s.link g l).missed miss) }).startAttempt g l) ∧
  (∀ (s u : State) (g l : Nat) (lane : Nat) (miss : List Nat), u = s.laneCode g l 0x21 lane → u.rf (LANE_STATUS.ATTEMPTS g l) + 1 < 3 →
    s.attemptFail g l (some 0x21) lane miss =
      ((u.eachLane g l LANE_STATUS.ATTEMPTS (u.rf (LANE_STATUS.ATTEMPTS g l) + 1)).setLink g l
        { u.link g l with missed := some (missAll (u.link g l).missed miss) }).holdDown g l) ∧
  (∀ (s : State) (g l : Nat) (lane : Nat) (miss : List Nat), 3 ≤ s.rf (LANE_STATUS.ATTEMPTS g l) + 1 →
    missAll (s.link g l).missed miss = [] →
    s.attemptFail g l none lane miss =
      (((s.eachLane g l LANE_STATUS.ATTEMPTS (s.rf (LANE_STATUS.ATTEMPTS g l) + 1)).setLink g l
        { s.link g l with missed := some [] }).laneCode g l 0x22 lane).holdDown g l) ∧
  (∀ (s : State) (g l : Nat) (lane k : Nat) (miss ks : List Nat), 3 ≤ s.rf (LANE_STATUS.ATTEMPTS g l) + 1 →
    missAll (s.link g l).missed miss = k :: ks →
    s.attemptFail g l none lane miss =
      ((k :: ks).foldl (fun s k => (s.setFailed g (l + k) true).laneEvent g (l + k))
        (((s.eachLane g l LANE_STATUS.ATTEMPTS (s.rf (LANE_STATUS.ATTEMPTS g l) + 1)).setLink g l
          { s.link g l with missed := some (k :: ks) }).laneCode g l 0x22 lane)).beginSeq g l) ∧
  (∀ (s : State) (g : LaneGroup) (l : LaneIx), s.regsCanon = true → mapCanon {} s.links = true → 0 < s.cfgWidth g l →
    s.cfgWidth g l ≤ 8 → s.rf (LANE_TIMER_CFG.MAX_HOLDS g) = 0 →
    ((s.holdDown g l).link g l) = { s.link g l with state := lkHold } ∧
      (s.holdDown g l).rf (LANE_STATUS.HOLDS g l) = min 15 (s.rf (LANE_STATUS.HOLDS g l) + 1) ∧
      (s.holdDown g l).rf (LANE_STATUS.ATTEMPTS g l) = 0 ∧
      s.holdDown g l = { s with regs := (s.holdDown g l).regs, evts := (s.holdDown g l).evts, links := (s.holdDown g l).links }) ∧
  (∀ (s : State) (g : LaneGroup) (l : LaneIx), s.regsCanon = true → mapCanon {} s.links = true → 0 < s.cfgWidth g l →
    s.cfgWidth g l ≤ 8 → s.rf (LANE_TIMER_CFG.MAX_HOLDS g) ≠ 0 → s.rf (LANE_TIMER_CFG.MAX_HOLDS g) < s.rf (LANE_STATUS.HOLDS g l) + 1 →
    ((s.holdDown g l).link g l) = { s.link g l with state := lkFailed } ∧
      (s.holdDown g l).rf (LANE_STATUS.HOLDS g l) = s.rf (LANE_STATUS.HOLDS g l)) ∧
  (∀ (s : State) (g : LaneGroup) (l : LaneIx), (s.link g l).state = lkHold → exec (.holdExpiry g l) s = .next (s.beginSeq g l)) ∧
  (∀ (s : State) (g : LaneGroup) (l : LaneIx), (s.link g l).state ≠ lkHold → exec (.holdExpiry g l) s = .next s)

/-- R113, Table SL-7: a partner's request moves its tap by one step while the tap is used, stays within its limits and keeps the sum of the
magnitudes within 64; otherwise the tap stays, the answer is "at limit" and 0x24 is logged once an attempt. An error of the lane control
state is detected and restarts the lane's port if it is enabled (Table SL-9); a request outside TRAIN does nothing.
Completes: COEFF_REQUEST. -/
def Obligations.CoefficientRequests : Prop :=
  (∀ (s : State) (g : LaneGroup) (m : LaneIx) (l : Nat) (k : Fin 5) (up : Bool), s.regsCanon = true → s.portOfLane g m = some l →
    (s.link g l).state = lkTrain → m.val < l + (s.link g l).width →
    tapUsed (s.laneRate g l) k = true → tapMin k ≤ s.tap (LANE_TX_TAPS_NOW.w g m) k + (if up then 1 else -1) →
    s.tap (LANE_TX_TAPS_NOW.w g m) k + (if up then 1 else -1) ≤ tapMax k →
    (s.wf (tapFld (LANE_TX_TAPS_NOW.w g m) k) (unsigned 6 (s.tap (LANE_TX_TAPS_NOW.w g m) k + (if up then 1 else -1)))).tapSum
      (LANE_TX_TAPS_NOW.w g m) ≤ 64 →
    ∃ t, exec (.coeffRequest g m (.step k up) false) s = .next t ∧
      t.tap (LANE_TX_TAPS_NOW.w g m) k = s.tap (LANE_TX_TAPS_NOW.w g m) k + (if up then 1 else -1) ∧
      t.outputs = .coeff g m false :: s.outputs ∧ t.rf (LANE_STATUS.SIGNAL g m) = 1 ∧ t.rf (LANE_STATUS.CDR_LOCK g m) = 1 ∧
      FieldsKept s t [tapFld (LANE_TX_TAPS_NOW.w g m) k, LANE_STATUS.SIGNAL g m, LANE_STATUS.CDR_LOCK g m] ∧
      t = { s with regs := t.regs, outputs := t.outputs }) ∧
  (∀ (s : State) (g : LaneGroup) (m : LaneIx) (l : Nat) (k : Fin 5) (up : Bool), s.regsCanon = true → mapCanon {} s.lanes = true →
    s.portOfLane g m = some l →
    (s.link g l).state = lkTrain → m.val < l + (s.link g l).width → l ≤ m → m.val < 64 → tapUsed (s.laneRate g l) k = false →
    (s.lanex g m).limit = false →
    ∃ t, exec (.coeffRequest g m (.step k up) false) s = .next t ∧ (t.lanex g m) = { s.lanex g m with limit := true } ∧
      t.rf (LANE_STATUS.LAST_CODE g m) = 0x24 ∧ t.outputs = .coeff g m true :: s.outputs ∧
      (∀ j < 5, t.tap (LANE_TX_TAPS_NOW.w g m) j = s.tap (LANE_TX_TAPS_NOW.w g m) j) ∧
      t = { s with regs := t.regs, evts := t.evts, lanes := t.lanes, outputs := t.outputs }) ∧
  (∀ (s : State) (g : LaneGroup) (m : LaneIx) (l : Nat) (r : CoeffReq), s.regsCanon = true → s.portOfLane g m = some l →
    (s.portEnabled g l = true → exec (.coeffRequest g m r true) s =
      .next (((s.detect (if g.val = 8 then 12 else g) 0 0 false).laneErr (LANE_ERR.PARITY g) g).enableLink g l)) ∧
    (s.portEnabled g l = false → exec (.coeffRequest g m r true) s =
      .next ((s.detect (if g.val = 8 then 12 else g) 0 0 false).laneErr (LANE_ERR.PARITY g) g))) ∧
  (∀ (s : State) (g : LaneGroup) (m : LaneIx) (r : CoeffReq), s.regsCanon = true → s.portOfLane g m = none →
    exec (.coeffRequest g m r true) s = .next ((s.detect (if g.val = 8 then 12 else g) 0 0 false).laneErr (LANE_ERR.PARITY g) g)) ∧
  (∀ (s : State) (g : LaneGroup) (m : LaneIx) (l : Nat) (r : CoeffReq), s.portOfLane g m = some l → (s.link g l).state ≠ lkTrain →
    exec (.coeffRequest g m r false) s = .next s)

/-- R120 to R123: quiet mode. An UP port that may and has nothing to send sends the quiet-enter marker and is quiet; in quiet it sends a refresh
burst every time one is due, and leaves with an exit burst, but for the ports of a region out of RUN, which send electrical idle (R565); its
receiver follows the partner's markers and bursts.
Completes: QUIET_ENTER, QUIET_REFRESH, QUIET_EXIT, QUIET_MARKER_RECEIVE, REFRESH_BURST_RECEIVE, QUIET_RELOCK. -/
def Obligations.QuietMode : Prop :=
  (∀ (s : State) (g : LaneGroup) (l : LaneIx), s.regsCanon = true → s.quietOk g l = true → s.rb (LANE_PORT_STATUS.TX_QUIET g l) = false →
    s.nothingToSend g l = true → s.regionIdle g = false →
    ∃ t, exec (.quietEnter g l) s = .next t ∧ t.outputs = .quiet (quietPort g l) 0 :: s.outputs ∧
      t.rf (LANE_PORT_STATUS.TX_QUIET g l) = 1 ∧ FieldsKept s t [LANE_PORT_STATUS.TX_QUIET g l] ∧
      t = { s with regs := t.regs, outputs := t.outputs }) ∧
  (∀ (s : State) (g : LaneGroup) (l : LaneIx), s.rb (LANE_PORT_STATUS.TX_QUIET g l) = true → s.regionIdle g = false →
    exec (.quietRefresh g l) s = .next { s with outputs := .quiet (quietPort g l) 1 :: s.outputs }) ∧
  (∀ (s : State) (g : LaneGroup) (l : LaneIx), s.regsCanon = true → s.rb (LANE_PORT_STATUS.TX_QUIET g l) = true → s.regionIdle g = false →
    ∃ t, exec (.quietExit g l) s = .next t ∧ t.outputs = .quiet (quietPort g l) 2 :: s.outputs ∧
      t.rf (LANE_PORT_STATUS.TX_QUIET g l) = 0 ∧ FieldsKept s t [LANE_PORT_STATUS.TX_QUIET g l] ∧
      t = { s with regs := t.regs, outputs := t.outputs }) ∧
  (∀ (s : State) (g : LaneGroup) (l : LaneIx), s.regsCanon = true → mapCanon {} s.links = true → s.quietOk g l = true →
    ∃ t, exec (.quietMarkerReceive g l) s = .next t ∧ t.rf (LANE_PORT_STATUS.RX_QUIET g l) = 1 ∧
      t.link g l = { s.link g l with burst := s.time.tick } ∧ FieldsKept s t [LANE_PORT_STATUS.RX_QUIET g l] ∧
      t = { s with regs := t.regs, links := t.links }) ∧
  (∀ (s : State) (g : LaneGroup) (l : LaneIx), mapCanon {} s.links = true → s.rb (LANE_PORT_STATUS.RX_QUIET g l) = true →
    ∃ t, exec (.refreshBurstReceive g l) s = .next t ∧ t.link g l = { s.link g l with burst := s.time.tick } ∧
      t = { s with links := t.links }) ∧
  (∀ (s : State) (g : LaneGroup) (l : LaneIx), s.regsCanon = true →
    ∃ t, exec (.quietRelock g l) s = .next t ∧ t.rf (LANE_PORT_STATUS.RX_QUIET g l) = 0 ∧
      FieldsKept s t [LANE_PORT_STATUS.RX_QUIET g l] ∧ SameButRegs s t) ∧
  (∀ (s : State) (g : LaneGroup) (l : LaneIx), (s.rb (LANE_PORT_STATUS.TX_QUIET g l) = false ∨ s.regionIdle g = true) →
    exec (.quietRefresh g l) s = .next s ∧
    exec (.quietExit g l) s = .next s)

/-- R117, R118, R122, R123: what takes the link of an UP port down, with its code: no signal (0x32 when the line is electrically idle), lost
alignment (0x33), remote fault (0x31), silence in quiet, no alignment after quiet (0x33). The port leaves UP, the port block hears of it,
and either too many losses within the window (0x30) lead to hold-down or a new sequence begins. A loss of signal shorter than the debounce
is counted only.
Completes: LOSS_OF_SIGNAL, ALIGNMENT_LOCK_LOSS, REMOTE_FAULT, QUIET_TIMEOUT, QUIET_RELOCK_TIMEOUT. -/
def Obligations.LinkLosses : Prop :=
  (∀ (s : State) (g : LaneGroup) (m : LaneIx) (l : Nat) (x : SignalLoss) (wire : Bool), s.portOfLane g m = some l →
    (s.link g l).state = lkUp → m.val < l + (s.link g l).width → s.rb (LANE_PORT_STATUS.RX_QUIET g l) = false →
    (s.rf (LANE_FLAP_CFG.DOWN_DEBOUNCE_US g) ≤ x.us.toNat →
      exec (.lossOfSignal g m x wire) s = .next (((s.wf (LANE_STATUS.SIGNAL g m) 0).wf (LANE_STATUS.CDR_LOCK g m) 0).linkLoss g l
        (if x.idle then some 0x32 else none) (m - l) wire)) ∧
    (x.us.toNat < s.rf (LANE_FLAP_CFG.DOWN_DEBOUNCE_US g) → mapCanon {} s.lanes = true →
      ∃ t, exec (.lossOfSignal g m x wire) s = .next t ∧ t.lanex g m = { s.lanex g m with shortLoss := (s.lanex g m).shortLoss + 1 } ∧
        t = { s with lanes := t.lanes })) ∧
  (∀ (s : State) (g : LaneGroup) (m : LaneIx) (l : Nat) (x : SignalLoss) (wire : Bool), s.regsCanon = true → s.portOfLane g m = some l →
    (s.link g l).state ≠ lkUp →
    ∃ t, exec (.lossOfSignal g m x wire) s = .next t ∧ t.rf (LANE_STATUS.SIGNAL g m) = 0 ∧ t.rf (LANE_STATUS.CDR_LOCK g m) = 0 ∧
      FieldsKept s t [LANE_STATUS.SIGNAL g m, LANE_STATUS.CDR_LOCK g m] ∧ SameButRegs s t) ∧
  (∀ (s : State) (g : LaneGroup) (m : LaneIx) (l : Nat) (wire : Bool), s.portOfLane g m = some l → (s.link g l).state = lkUp →
    m.val < l + (s.link g l).width →
    exec (.alignmentLockLoss g m wire) s = .next (s.linkLoss g l (some 0x33) (m - l) wire)) ∧
  (∀ (s : State) (g : LaneGroup) (l : LaneIx) (wire : Bool), (s.link g l).state = lkUp →
    exec (.remoteFault g l wire) s = .next (s.linkLoss g l (some 0x31) 0 wire)) ∧
  (∀ (s : State) (g : LaneGroup) (l : LaneIx) (wire : Bool), s.rb (LANE_PORT_STATUS.RX_QUIET g l) = true →
    (s.link g l).burst + 400000 ≤ s.time.tick → exec (.quietTimeout g l wire) s = .next (s.linkLoss g l none 0 wire)) ∧
  (∀ (s : State) (g : LaneGroup) (l : LaneIx) (wire : Bool), s.rb (LANE_PORT_STATUS.RX_QUIET g l) = true →
    exec (.quietRelockTimeout g l wire) s = .next (s.linkLoss g l (some 0x33) 0 wire)) ∧
  (∀ (s : State) (g l : Nat) (lane : Nat) (wire : Bool), (s.link g l).state = lkUp →
    s.linkLoss g l none lane wire =
      let t := s.linkGone g l wire
      let downs := t.time.tick :: (t.link g l).downs.filter
        (fun x => decide (t.time.tick < x + t.rf (LANE_FLAP_CFG.FLAP_WINDOW_MS g) * 1000000))
      let u := t.setLink g l { t.link g l with downs := downs, state := lkDisabled }
      if u.rf (LANE_TIMER_CFG.FLAP_LIMIT g) ≤ downs.length then (u.laneCode g l 0x30 0).holdDown g l else u.beginSeq g l) ∧
  (∀ (s : State) (g l : Nat) (code : Option Nat) (lane : Nat) (wire : Bool), (s.link g l).state ≠ lkUp →
    s.linkLoss g l code lane wire = s)

/-- R116, R119, R124 to R128: the host restarts a port's bring-up, clears a lane's mark, and runs the lane's PRBS generator and checker; a
checker locks and loses lock, counting bits and errors; an enable on a lane that carries a link is refused. Which bit INJECT inverts is a free
value (log entry 70).
Completes: LANE_RESTART, LANE_CLEAR_FAIL, PRBS_CLEAR, PRBS_INJECT, PRBS_ENABLE, PRBS_LOCK, PRBS_LOCK_LOSS. -/
def Obligations.LaneControlAndPrbs : Prop :=
  (∀ (s : State) (g : LaneGroup) (l : LaneIx), s.hostOpen = true → ¬ (g.val = 8 ∧ 8 ≤ l.val) → s.portOfLane g l = some l.val →
    (s.link g l).state ≠ lkDisabled → exec (.laneRestart g l 1) s = .next (s.enableLink g l)) ∧
  (∀ (s : State) (g : LaneGroup) (l : LaneIx), s.regsCanon = true → s.hostOpen = true → ¬ (g.val = 8 ∧ 8 ≤ l.val) →
    ∃ t, exec (.laneClearFail g l 0) s = .next t ∧ t.rf (LANE_STATUS.FAILED g l) = 0 ∧
      t.outputs = (if s.laneSource g l = t.laneSource g l then s.outputs else .lane g l (t.laneSource g l) :: s.outputs) ∧
      t = { s with regs := t.regs, outputs := t.outputs }) ∧
  (∀ (s : State) (g : LaneGroup) (l : LaneIx), s.regsCanon = true → s.hostOpen = true → ¬ (g.val = 8 ∧ 8 ≤ l.val) →
    ∃ t, exec (.prbsClear g l 0) s = .next t ∧ t.rf (LANE_PRBS_ERRS.ERRS g l) = 0 ∧ t.rf (LANE_PRBS_BITS.BITS g l) = 0 ∧
      t.rf (LANE_PRBS_STATUS.LOCK_LOSS g l) = 0 ∧
      FieldsKept s t [LANE_PRBS_ERRS.ERRS g l, LANE_PRBS_BITS.BITS g l, LANE_PRBS_STATUS.LOCK_LOSS g l] ∧
      t = { s with regs := t.regs, lanes := t.lanes }) ∧
  (∀ (s : State) (g : LaneGroup) (l : LaneIx), mapCanon {} s.lanes = true → s.hostOpen = true → ¬ (g.val = 8 ∧ 8 ≤ l.val) →
    s.rb (LANE_PRBS_CFG.GEN_EN g l) = true →
    ∃ t k, exec (.prbsInject g l 0) s = .next t ∧ s.genIndex g l ≤ k ∧ k < s.genIndex g l + 64 ∧
      t.lanex g l = { s.lanex g l with injAt := k :: (s.lanex g l).injAt } ∧ t = { s with lanes := t.lanes, free := t.free }) ∧
  (∀ (s : State) (g : LaneGroup) (l : LaneIx) (v : Word), s.regsCanon = true → s.hostOpen = true → ¬ (g.val = 8 ∧ 8 ≤ l.val) →
    s.testable g l = false → v.getLsbD 3 = true →
    ∃ t, exec (.prbsEnable g l v) s = .next t ∧ t.rf (LANE_ERR.PRBS_REJECT g) = 1 ∧
      FieldsKeptEv s t [LANE_ERR.PRBS_REJECT g] ∧ SameButEvents s t) ∧
  (∀ (s : State) (g : LaneGroup) (l : LaneIx) (v : Word), s.regsCanon = true → s.hostOpen = true → g.val < 8 →
    s.portOfLane g l = none → (v.getLsbD 3 = true ∨ v.getLsbD 7 = true) →
    ∃ t, exec (.prbsEnable g l v) s = .next t ∧ t.rf (LANE_PRBS_CFG.GEN_EN g l) = bits v.toNat 3 1 ∧
      t.rf (LANE_PRBS_CFG.CHK_EN g l) = bits v.toNat 7 1 ∧ t.rf (LANE_STATUS.STATE g l) = lkPrbs ∧
      FieldsKept s t [⟨LANE_PRBS_CFG.w g l, 0, 32⟩, LANE_PRBS_STATUS.LOCK g l, LANE_STATUS.STATE g l, LANE_PRBS_BITS.BITS g l,
        LANE_PRBS_ERRS.ERRS g l] ∧
      t = { s with regs := t.regs, lanes := t.lanes, free := t.free, outputs := t.outputs }) ∧
  (∀ (s : State) (g : LaneGroup) (l : LaneIx), s.regsCanon = true → s.rb (LANE_PRBS_CFG.CHK_EN g l) = true →
    s.rb (LANE_PRBS_STATUS.LOCK g l) = false → (s.nearLoop g l = false ∨ s.loopMatch g l = true) →
    ∃ t, exec (.prbsLock g l) s = .next t ∧ t.rf (LANE_PRBS_STATUS.LOCK g l) = 1 ∧ t.rf (LANE_STATUS.SIGNAL g l) = 1 ∧
      t.rf (LANE_STATUS.CDR_LOCK g l) = 1 ∧
      FieldsKept s t [LANE_PRBS_STATUS.LOCK g l, LANE_STATUS.SIGNAL g l, LANE_STATUS.CDR_LOCK g l] ∧
      t = { s with regs := t.regs, lanes := t.lanes }) ∧
  (∀ (s : State) (g : LaneGroup) (l : LaneIx) (n errs : BitVec 48), s.regsCanon = true → s.rb (LANE_PRBS_STATUS.LOCK g l) = true →
    ∃ t, exec (.prbsLockLoss g l n errs) s = .next t ∧ t.rf (LANE_PRBS_STATUS.LOCK g l) = 0 ∧
      t.rf (LANE_PRBS_BITS.BITS g l) = satAdd (LANE_PRBS_BITS.BITS g l).width (s.rf (LANE_PRBS_BITS.BITS g l)) n.toNat ∧
      t.rf (LANE_PRBS_ERRS.ERRS g l) = satAdd (LANE_PRBS_ERRS.ERRS g l).width (s.rf (LANE_PRBS_ERRS.ERRS g l)) errs.toNat ∧
      FieldsKeptEv s t [⟨LANE_PRBS_STATUS.w g l, 0, 32⟩, LANE_PRBS_BITS.BITS g l, LANE_PRBS_ERRS.ERRS g l] ∧
      t = { s with regs := t.regs, evts := t.evts, lanes := t.lanes })

/-! ### The ingress pipeline: parser and classifier (files 04 and 05) -/

/-- R155, R156: two headers a cycle are granted, each the head of the next non-empty input in rotation, to the next engine in rotation that
has room, in the next slot of the reorder buffer, with the bank, epoch and zone of its stroke on its first pass (R186). Nothing moves in a device
that does not run, or in a region that is quarantined or whose clocks are stopped (R627).
R143, R151, R152, R154: every parse ends, with one of the 72 exit codes and a header vector of 512 bytes; it changes nothing of the frame
but its header vector, its flow key and whether its exit drops it; the flow key is built of the vector before KEY[7] is set.
R156 to R158, R165: an engine parses the oldest header of its queue and counts its exit; a failed retry discards the frame; slots leave the
reorder buffer strictly in order, to the classifier or dropped; the exit counters clear; a write that would disable every engine is refused. A table
entry whose retry failed is in error from then on: every parse that reads it discards its frame.
Completes: HEADER_ACCEPT, PARSE, REORDER_RELEASE, PARSE_CNT_CLEAR, ENGINE_DISABLE. -/
def Obligations.ParserStages : Prop :=
  (∀ (s : State) (n : Region) (p : Pipe), s.running = true → s.regionOn n = true →
    exec (.headerAccept n p) s = .next ((s.grantHeader n p).grantHeader n p)) ∧
  (∀ (s : State) (n : Region) (p : Pipe) (i e : Nat) (f : Frame) (rest : List Frame), s.running = true → s.regionOn n = true →
    mapCanon {} s.pipes = true → mapCanon [] (s.pipe n p).inq = true → (s.pipe n p).rob.length < 256 →
    rrPick 6 (s.pipe n p).rrIn (fun i => !(mget [] (s.pipe n p).inq i).isEmpty) = some i → mget [] (s.pipe n p).inq i = f :: rest →
    rrPick 8 (s.pipe n p).rrEng (fun e => s.engineTakes n p e) = some e →
    ∃ t r l, exec (.headerAccept n p) s = .next t ∧ (t.pipe n p).rob = (s.pipe n p).rob ++ r :: l ∧ l.length ≤ 1 ∧
      r.slot = (s.pipe n p).nextSlot ∧ r.eng = e ∧ r.done = false ∧ r.frame.key = f.key ∧ r.frame.data = f.data ∧
      (t.pipe n p).cls = (s.pipe n p).cls ∧ t = { s with regs := t.regs, evts := t.evts, pipes := t.pipes }) ∧
  (∀ (s : State) (n : Region) (p : Pipe), (s.running = false ∨ s.regionOn n = false) →
    exec (.headerAccept n p) s = .next s ∧ exec (.reorderRelease n p) s = .next s ∧
    ∀ e chk loc, exec (.parse n p e chk loc) s = .next s) ∧
  (∀ (s : State) (n : Region) (p : Pipe) (i e : Nat) (f : Frame) (rest : List Frame), s.regsCanon = true → mapCanon {} s.pipes = true →
    mapCanon [] (s.pipe n p).inq = true → (s.pipe n p).rob.length < 256 →
    rrPick 6 (s.pipe n p).rrIn (fun i => !(mget [] (s.pipe n p).inq i).isEmpty) = some i → mget [] (s.pipe n p).inq i = f :: rest →
    rrPick 8 (s.pipe n p).rrEng (fun e => s.engineTakes n p e) = some e →
    mget [] ((s.grantHeader n p).pipe n p).inq i = rest ∧
    ((s.grantHeader n p).pipe n p).rrIn = (i + 1) % 6 ∧ ((s.grantHeader n p).pipe n p).rrEng = (e + 1) % 8 ∧
    ((s.grantHeader n p).pipe n p).nextSlot = ((s.pipe n p).nextSlot + 1) % 256 ∧
    ((s.grantHeader n p).pipe n p).rob = (s.pipe n p).rob ++ [{ slot := (s.pipe n p).nextSlot, eng := e, frame :=
      if f.pass = 0 then { f with bank := (s.bankOf n p f.key.stroke).1, epoch := (s.bankOf n p f.key.stroke).2,
                                  zone := s.zoneOf n p (s.bankOf n p f.key.stroke).1 f.key.port } else f }] ∧
    s.grantHeader n p = { s with regs := (s.grantHeader n p).regs, evts := (s.grantHeader n p).evts,
                                 pipes := (s.grantHeader n p).pipes }) ∧
  (∀ (s : State) (f : Frame), (s.parseFrame f).2 < 72 ∧ (s.parseFrame f).1.hv.length = 512 ∧
    (s.parseFrame f).1 = { f with hv := (s.parseFrame f).1.hv, fkey := (s.parseFrame f).1.fkey, dropCode := (s.parseFrame f).1.dropCode } ∧
    (s.parseFrame f).1.dropCode = s.exitDrops f.region f.pipe f.bank (s.parseFrame f).2 ∧
    (s.parseFrame f).1.hv.getD 14 0 = BitVec.ofNat 8 (s.parseFrame f).2 ∧
    (∀ k, (s.parseWalk f).2.key = some k → (s.parseFrame f).1.dropCode = false →
      hvKeyed (s.parseFrame f).1.hv = true ∧
      (s.parseFrame f).1.fkey = s.flowKey f.region f.pipe f.bank k (overwrite (s.parseWalk f).2.hv 14
        [BitVec.ofNat 8 (s.parseFrame f).2, BitVec.ofNat 8 (s.parseWalk f).2.steps])) ∧
    ((s.parseWalk f).2.key = none → (s.parseFrame f).1.fkey = [])) ∧
  (∀ (s : State) (n : Region) (p : Pipe) (e : Oct) (r : RobSlot) (loc : BitVec 13), s.regsCanon = true → mapCanon {} s.pipes = true →
    s.running = true → s.regionOn n = true →
    (s.pipe n p).rob.find? (fun r => r.eng = e.val && !r.done) = some r → s.badRead n p r.frame = none →
    ∃ t, exec (.parse n p e .good loc) s = .next t ∧
      (t.pipe n p).rob = (s.pipe n p).rob.map
        (fun y => if y.slot = r.slot then { y with done := true, frame := (s.parseFrame r.frame).1 } else y) ∧
      t.pipe n p = { s.pipe n p with rob := (t.pipe n p).rob } ∧
      t.rf (IP_PARSE_EXIT_CNT.COUNT n p (s.parseFrame r.frame).2) =
        (if s.counts r.frame.key.stroke then satAdd 48 (s.rf (IP_PARSE_EXIT_CNT.COUNT n p (s.parseFrame r.frame).2)) 1
          else s.rf (IP_PARSE_EXIT_CNT.COUNT n p (s.parseFrame r.frame).2)) ∧
      t = { s with regs := t.regs, evts := t.evts, pipes := t.pipes }) ∧
  (∀ (s : State) (n : Region) (p : Pipe) (e : Oct) (r : RobSlot) (loc : BitVec 13) (m : BitVec 18), s.regsCanon = true →
    mapCanon {} s.pipes = true → s.running = true → s.regionOn n = true →
    (s.pipe n p).rob.find? (fun r => r.eng = e.val && !r.done) = some r →
    ∃ t, exec (.parse n p e (.failed m) loc) s = .next t ∧
      (t.pipe n p).rob = (s.pipe n p).rob.map
        (fun y => if y.slot = r.slot then { y with done := true, frame := { r.frame with dropCode := true } } else y) ∧
      t.rf (IP_PARSE_ERR.PARITY n p) = 1 ∧ t.rf (IP_PARSE_ERR.PARITY_FAIL n p) = 1 ∧
      t.rf (IP_PARSE_STATUS.PARITY_DISCARDS n p) = satAdd 8 (s.rf (IP_PARSE_STATUS.PARITY_DISCARDS n p)) 1 ∧
      (s.badRead n p r.frame = none → loc.toNat ∈ (t.pipe n p).badEnt) ∧ (∀ l ∈ (s.pipe n p).badEnt, l ∈ (t.pipe n p).badEnt) ∧
      t = { s with regs := t.regs, evts := t.evts, pipes := t.pipes }) ∧
  (∀ (s : State) (n : Region) (p : Pipe) (e : Oct) (r : RobSlot) (chk : ReadCheck) (loc : BitVec 13) (l : Nat), s.regsCanon = true →
    mapCanon {} s.pipes = true → s.running = true → s.regionOn n = true →
    (s.pipe n p).rob.find? (fun r => r.eng = e.val && !r.done) = some r → s.badRead n p r.frame = some l →
    ∃ t, exec (.parse n p e chk loc) s = .next t ∧
      (t.pipe n p).rob = (s.pipe n p).rob.map
        (fun y => if y.slot = r.slot then { y with done := true, frame := { r.frame with dropCode := true } } else y) ∧
      t.pipe n p = { s.pipe n p with rob := (t.pipe n p).rob } ∧
      t.rf (IP_PARSE_ERR.PARITY_FAIL n p) = 1 ∧
      t.rf (IP_PARSE_STATUS.PARITY_DISCARDS n p) = satAdd 8 (s.rf (IP_PARSE_STATUS.PARITY_DISCARDS n p)) 1) ∧
  (∀ (s : State) (n : Region) (p : Pipe) (e : Oct) (chk : ReadCheck) (loc : BitVec 13),
    (s.pipe n p).rob.find? (fun r => r.eng = e.val && !r.done) = none → exec (.parse n p e chk loc) s = .next s) ∧
  (∀ (s : State) (n : Region) (p : Pipe) (r : RobSlot) (rest : List RobSlot), s.regsCanon = true → mapCanon {} s.pipes = true →
    s.running = true → s.regionOn n = true →
    (s.pipe n p).rob = r :: rest → r.done = true → r.frame.dropCode = false → (∀ y ∈ rest.head?, y.done = false) →
    ∃ t, exec (.reorderRelease n p) s = .next t ∧
      t.pipe n p = { s.pipe n p with rob := rest, cls := (s.pipe n p).cls ++ [r.frame] } ∧
      FieldsKept s t [IP_PARSE_STATUS.ENGINE_IDLE n p, IP_PARSE_STATUS.ROB_OCC n p] ∧
      t = { s with regs := t.regs, pipes := t.pipes }) ∧
  (∀ (s : State) (n : Region) (p : Pipe) (r : RobSlot) (rest : List RobSlot), s.running = true → s.regionOn n = true →
    (s.pipe n p).rob = r :: rest → r.done = true →
    r.frame.dropCode = true → (∀ y ∈ rest.head?, y.done = false) → mapCanon {} s.pipes = true →
    exec (.reorderRelease n p) s = .next (((s.setPipe n p { s.pipe n p with rob := rest }).dropIn r.frame).parseStatus n p)) ∧
  (∀ (s : State) (n : Region) (p : Pipe) (r : RobSlot) (rest : List RobSlot), s.running = true → s.regionOn n = true →
    (s.pipe n p).rob = r :: rest → r.done = true →
    exec (.reorderRelease n p) s = .next ((s.releaseSlot n p).releaseSlot n p)) ∧
  (∀ (s : State) (n : Region) (p : Pipe) (r : RobSlot) (rest : List RobSlot), (s.pipe n p).rob = r :: rest → r.done = false →
    exec (.reorderRelease n p) s = .next s) ∧
  (∀ (s : State) (n : Region) (p : Pipe) (v : Word), s.regsCanon = true → s.hostOpen = true → bits v.toNat 0 8 ≠ 255 →
    ∃ t, exec (.parseCntClear n p v) s = .next t ∧ t.rf (IP_PARSE_CFG.ENGINE_DIS n p) = bits v.toNat 0 8 ∧
      (∀ k < 72, t.rf (IP_PARSE_EXIT_CNT.COUNT n p k) = 0) ∧
      FieldsKept s t (IP_PARSE_CFG.ENGINE_DIS n p :: (List.range 72).map (fun k => IP_PARSE_EXIT_CNT.COUNT n p k)) ∧ SameButRegs s t) ∧
  (∀ (s : State) (n : Region) (p : Pipe) (v : Word), s.regsCanon = true → s.hostOpen = true → bits v.toNat 0 8 ≠ 255 →
    ∃ t, exec (.engineDisable n p v) s = .next t ∧ t.rf (IP_PARSE_CFG.ENGINE_DIS n p) = bits v.toNat 0 8 ∧
      (∀ k < 72, t.rf (IP_PARSE_EXIT_CNT.COUNT n p k) = if v.getLsbD 8 then 0 else s.rf (IP_PARSE_EXIT_CNT.COUNT n p k)) ∧
      FieldsKept s t (IP_PARSE_CFG.ENGINE_DIS n p :: (List.range 72).map (fun k => IP_PARSE_EXIT_CNT.COUNT n p k)) ∧ SameButRegs s t) ∧
  (∀ (s : State) (n : Region) (p : Pipe) (v : Word), s.regsCanon = true → s.hostOpen = true → bits v.toNat 0 8 = 255 →
    (∃ t, exec (.engineDisable n p v) s = .next t ∧ t.rf (IP_PARSE_ERR.CFG_REJECT n p) = 1 ∧
      FieldsKeptEv s t [IP_PARSE_ERR.CFG_REJECT n p] ∧ SameButEvents s t) ∧
    (∃ t, exec (.parseCntClear n p v) s = .next t ∧ t.rf (IP_PARSE_ERR.CFG_REJECT n p) = 1 ∧
      FieldsKeptEv s t [IP_PARSE_ERR.CFG_REJECT n p] ∧ SameButEvents s t))

/-- R173 to R175: a search hits the lowest-numbered entry that is valid, a member of the frame's bank and equal to the key under its mask; the
action set is that of the entry hit, and the bank's miss action else.
R171, R183, R192, R31: the classifier takes the oldest parsed frame and hands it on with its hit and its action set, FLOW_EN of which is cleared
where the parse built no flow key; an entry found bad by the TCAM's check is invalidated and reported. A frame whose action read fails is
discarded (R193); one with POL_EN opens its meter slot (R385) and waits while the region holds 4,096. The frame of least key that waits to
recirculate re-enters its pipeline when a buffer takes it, with the key of its next pass: the stroke EFF_RECIRC_LAG on, the recirculation port,
and the next SEQ of that stroke. Nothing moves in a device that does not run, or in a region that is quarantined or whose clocks are stopped
(R627).
Completes: CLASSIFY, RECIRCULATION_PASS, TCAM_PARITY_CHECK. -/
def Obligations.ClassificationStages : Prop :=
  (∀ (s : State) (n : Region) (p : Pipe) (b key e : Nat), mapCanon 0 s.tcam = true →
    (s.tcamFind n p b key = some e ↔
      e < 32768 ∧ tcMember (mget 0 s.tcam (entryIx n p e)) b = true ∧
        (key &&& tcMask (mget 0 s.tcam (entryIx n p e))) =
          (tcValue (mget 0 s.tcam (entryIx n p e)) &&& tcMask (mget 0 s.tcam (entryIx n p e))) ∧
        ∀ k < e, ¬ (tcMember (mget 0 s.tcam (entryIx n p k)) b = true ∧
          (key &&& tcMask (mget 0 s.tcam (entryIx n p k))) =
            (tcValue (mget 0 s.tcam (entryIx n p k)) &&& tcMask (mget 0 s.tcam (entryIx n p k)))))) ∧
  (∀ (s : State) (f : Frame), s.classifyFrame f = { f with
    tcam := (s.classifyFrame f).tcam,
    act := match (s.classifyFrame f).tcam with
      | some e => mget 0 s.actions (entryIx f.region f.pipe e)
      | none => s.missAct f.region f.pipe f.bank }) ∧
  (∀ (s : State) (n : Region) (p : Pipe) (f : Frame) (rest : List Frame), mapCanon {} s.pipes = true → s.running = true → s.regionOn n = true →
    s.switchDue n p = false → (s.pipe n p).cls = f :: rest → actPolEn (s.classifyFrame f).act = false →
    ∃ t, exec (.classify n p .good) s = .next t ∧ (t.pipe n p).cls = rest ∧ (t.pipe n p).tbl = (s.pipe n p).tbl ++
      [{ s.classifyFrame f with
        act := if actFlowEn (s.classifyFrame f).act && !hvKeyed f.hv then putBits (s.classifyFrame f).act 64 1 0 else (s.classifyFrame f).act,
        trapMade := actTrap (s.classifyFrame f).act }] ∧
      t.slots = s.slots ∧ t.tcam = s.tcam ∧ t.time = s.time) ∧
  (∀ (s : State) (n : Region) (p : Pipe) (f : Frame) (rest : List Frame), mapCanon {} s.pipes = true → mapCanon {} s.regx = true →
    s.running = true → s.regionOn n = true → s.switchDue n p = false → (s.pipe n p).cls = f :: rest →
    actPolEn (s.classifyFrame f).act = true →
    (s.rf (TM_STATUS.METER_OPEN n) < 4096 →
      ∃ t, exec (.classify n p .good) s = .next t ∧ (t.pipe n p).cls = rest ∧ (t.pipe n p).tbl = (s.pipe n p).tbl ++
        [{ s.classifyFrame f with
          act := if actFlowEn (s.classifyFrame f).act && !hvKeyed f.hv then putBits (s.classifyFrame f).act 64 1 0 else (s.classifyFrame f).act,
          trapMade := actTrap (s.classifyFrame f).act }] ∧
        (t.rx f.region).slots = insertSlot { key := f.key } (s.rx f.region).slots) ∧
    (4096 ≤ s.rf (TM_STATUS.METER_OPEN n) → exec (.classify n p .good) s = .next s)) ∧
  (∀ (s : State) (n : Region) (p : Pipe) (f : Frame) (rest : List Frame) (e : Nat) (m : BitVec 18), s.regsCanon = true →
    mapCanon {} s.pipes = true → s.running = true → s.regionOn n = true → s.switchDue n p = false → (s.pipe n p).cls = f :: rest →
    (s.classifyFrame f).tcam = some e →
    ∃ t, exec (.classify n p (.failed m)) s = .next t ∧ (t.pipe n p).cls = rest ∧ (t.pipe n p).tbl = (s.pipe n p).tbl ∧
      t.rf (IP_CL_ERR.ACT_PARITY n p) = 1 ∧ t.rf (IP_CL_ERR.ACT_PARITY_FAIL n p) = 1 ∧ t.tcam = s.tcam ∧ t.time = s.time) ∧
  (∀ (s : State) (n : Region) (p : Pipe), (s.running = false ∨ s.regionOn n = false) →
    (∀ chk, exec (.classify n p chk) s = .next s) ∧ exec (.recirculationPass n) s = .next s) ∧
  (∀ (s : State) (n : Region) (p : Pipe) (e : BitVec 15), s.regsCanon = true → mapCanon 0 s.tcam = true → s.alive = true →
    s.rf (PWR_STATUS.LEVEL n) = 8 → s.rb (IP_CL_CFG.PAR_CHECK_EN n p) = true →
    ∃ t, exec (.tcamParityCheck n p e true) s = .next t ∧ tcValid (mget 0 t.tcam (entryIx n p e.toNat)) = false ∧
      (∀ k < 32768, k ≠ e.toNat → mget 0 t.tcam (entryIx n p k) = mget 0 s.tcam (entryIx n p k)) ∧
      t.rf (IP_CL_ERR.TCAM_PARITY n p) = 1 ∧ t.rf CHIP_DET_STATUS.PARITY = 1 ∧
      t = { s with regs := t.regs, evts := t.evts, tcam := t.tcam }) ∧
  (∀ (s : State) (n : Region) (p : Pipe) (e : BitVec 15), exec (.tcamParityCheck n p e false) s = .next s) ∧
  (∀ (s u : State) (n : Region) (f : Frame) (k : FKey), mapCanon {} s.recirc = true → mapCanon 0 (s.recircx n).seq = true →
    mapCanon {} s.pipes = true → mapCanon [] (s.pipe n f.pipe).inq = true → s.running = true →
    s.regionOn n = true → leastKey (s.recircx n).waiting = some f → s.wmPassed n f.key.stroke = true →
    (s.onRecircPath n).any (fun g => keyLt g.key f.key) = false → (s.undecided n).any (fun g => keyLt g.key f.key) = false →
    k = ⟨(f.key.stroke + s.effLag) % 2 ^ 48, 528 + n, mget 0 (s.recircx n).seq (s.nextStroke f) % 65536⟩ →
    u = (s.setRecircx n { waiting := (s.recircx n).waiting.filter (fun g => g.key != f.key),
                          seq := mset 0 (s.recircx n).seq k.stroke (mget 0 (s.recircx n).seq k.stroke + 1) }).freeCopy n f.buf 14 true →
    ∃ t, exec (.recirculationPass n) s = .next t ∧
      (t.recircx n).waiting = (s.recircx n).waiting.filter (fun g => g.key != f.key) ∧
      mget 0 (t.recircx n).seq (s.nextStroke f) = mget 0 (s.recircx n).seq (s.nextStroke f) + 1 ∧
      (∀ b, (u.takeIn n 66 (padTo 60 f.data) k.stroke k.num).2 = some b →
        mget [] (t.pipe n f.pipe).inq 5 = mget [] (s.pipe n f.pipe).inq 5 ++
          [{ key := k, data := padTo 60 f.data, region := n, pipe := f.pipe, pass := f.pass + 1, bank := f.bank, epoch := f.epoch,
             zone := f.zone, stamp := f.stamp, stampDom := f.stampDom, stamped := false, tx := f.tx, buf := b, origLen := f.origLen }]) ∧
      ((u.takeIn n 66 (padTo 60 f.data) k.stroke k.num).2 = none → t.pipes = s.pipes) ∧
      t.slots = s.slots ∧ t.tcam = s.tcam ∧ t.time = s.time) ∧
  (∀ (s : State) (n : Region), (s.recircx n).waiting = [] → exec (.recirculationPass n) s = .next s)

/-- R187 to R190, R664: a rule-set switch is armed only when none is pending or draining and its stroke leads enough, cancelled only while it
still does; when due it changes bank and epoch and drains in one step; draining ends when the watermark passes the retire stroke. A write with ARM
and CANCEL cancels first. A write of the switch stroke that is taken uses up a held low word; one while a switch is pending is refused, and its
low word stays held (R10, log entry 166).
Completes: RULE_SET_ARM, RULE_SET_CANCEL, SWITCH_STROKE_WRITE, BANK_SWITCH, DRAIN_END. -/
def Obligations.RuleSetSwitch : Prop :=
  (∀ (s : State) (n : Region) (p : Pipe) (v : Word), s.regsCanon = true → s.hostOpen = true →
    (s.rb (IP_CL_STATUS.PENDING n p) = false ∨ v.getLsbD 1 = true) →
    s.rb (IP_CL_STATUS.DRAINING n p) = false → leadOk s.strokeNow (s.rf (IP_CL_SWITCH_STROKE.STROKE n p)) = true →
    ∃ t, exec (.ruleSetArm n p v) s = .next t ∧ t.rf (IP_CL_STATUS.ARM_RESULT n p) = 0 ∧ t.rf (IP_CL_STATUS.PENDING n p) = 1 ∧
      FieldsKept s t [IP_CL_STATUS.ARM_RESULT n p, IP_CL_STATUS.PENDING n p] ∧ SameButRegs s t) ∧
  (∀ (s : State) (n : Region) (p : Pipe) (v : Word) (r : Nat), s.regsCanon = true → s.hostOpen = true →
    (s.rb (IP_CL_STATUS.PENDING n p) = false ∨ v.getLsbD 1 = false) →
    r = (if s.rb (IP_CL_STATUS.PENDING n p) then 2 else if s.rb (IP_CL_STATUS.DRAINING n p) then 3
      else if leadOk s.strokeNow (s.rf (IP_CL_SWITCH_STROKE.STROKE n p)) then 0 else 1) → r ≠ 0 →
    ∃ t, exec (.ruleSetArm n p v) s = .next t ∧ t.rf (IP_CL_STATUS.ARM_RESULT n p) = r ∧ t.rf (IP_CL_ERR.ARM_REJECT n p) = 1 ∧
      FieldsKeptEv s t [IP_CL_STATUS.ARM_RESULT n p, IP_CL_ERR.ARM_REJECT n p] ∧ SameButEvents s t) ∧
  (∀ (s : State) (n : Region) (p : Pipe) (v : Word), s.regsCanon = true → s.hostOpen = true → s.rb (IP_CL_STATUS.PENDING n p) = true →
    leadOk s.strokeNow (s.rf (IP_CL_SWITCH_STROKE.STROKE n p)) = true → v.getLsbD 0 = false →
    ∃ t, exec (.ruleSetCancel n p v) s = .next t ∧ t.rf (IP_CL_STATUS.PENDING n p) = 0 ∧ t.rf (IP_CL_STATUS.ARM_RESULT n p) = 0 ∧
      FieldsKept s t [IP_CL_STATUS.ARM_RESULT n p, IP_CL_STATUS.PENDING n p] ∧ SameButRegs s t) ∧
  (∀ (s : State) (n : Region) (p : Pipe) (v : Word), s.regsCanon = true → s.hostOpen = true → s.rb (IP_CL_STATUS.PENDING n p) = true →
    leadOk s.strokeNow (s.rf (IP_CL_SWITCH_STROKE.STROKE n p)) = false → v.getLsbD 0 = false →
    ∃ t, exec (.ruleSetCancel n p v) s = .next t ∧ t.rf (IP_CL_STATUS.PENDING n p) = 1 ∧ t.rf (IP_CL_STATUS.ARM_RESULT n p) = 1 ∧
      t.rf (IP_CL_ERR.ARM_REJECT n p) = 1 ∧
      FieldsKeptEv s t [IP_CL_STATUS.ARM_RESULT n p, IP_CL_ERR.ARM_REJECT n p] ∧ SameButEvents s t) ∧
  (∀ (s : State) (n : Region) (p : Pipe) (v : BitVec 48), s.regsCanon = true → s.hostOpen = true →
    s.rb (IP_CL_STATUS.PENDING n p) = false →
    ∃ t, exec (.switchStrokeWrite n p v) s = .next t ∧ t.rf (IP_CL_SWITCH_STROKE.STROKE n p) = v.toNat ∧
      FieldsKept s t [IP_CL_SWITCH_STROKE.STROKE n p] ∧
      (mapCanon none s.hold = true → mget none t.hold (IP_CL_SWITCH_STROKE.w n p) = none) ∧
      t = { s with regs := t.regs, hold := t.hold }) ∧
  (∀ (s : State) (n : Region) (p : Pipe) (v : BitVec 48), s.regsCanon = true → s.hostOpen = true →
    s.rb (IP_CL_STATUS.PENDING n p) = true →
    ∃ t, exec (.switchStrokeWrite n p v) s = .next t ∧ t.rf (IP_CL_ERR.ARM_REJECT n p) = 1 ∧
      FieldsKeptEv s t [IP_CL_ERR.ARM_REJECT n p] ∧
      (mapCanon none s.hold = true → mget none t.hold (IP_CL_SWITCH_STROKE.w n p) = some (v.truncate 32)) ∧
      t = { s with regs := t.regs, evts := t.evts, hold := t.hold }) ∧
  (∀ (s : State) (n : Region) (p : Pipe), s.regsCanon = true → mapCanon {} s.pipes = true → s.switchDue n p = true →
    ∃ t, exec (.bankSwitch n p) s = .next t ∧ t.rf (IP_CL_STATUS.ACTIVE_BANK n p) = 1 - s.rf (IP_CL_STATUS.ACTIVE_BANK n p) ∧
      t.rf (IP_CL_STATUS.EPOCH n p) = (s.rf (IP_CL_STATUS.EPOCH n p) + 1) % 65536 ∧ t.rb (IP_CL_STATUS.DRAINING n p) = s.regionRuns n ∧
      t.rf (IP_CL_STATUS.PENDING n p) = 0 ∧
      t.rf (IP_CL_RETIRE_STROKE.STROKE n p) = (s.rf (IP_CL_SWITCH_STROKE.STROKE n p) + 3 * s.effLag + (2 ^ 48 - 1)) % 2 ^ 48 ∧
      FieldsKept s t [IP_CL_STATUS.ACTIVE_BANK n p, IP_CL_STATUS.EPOCH n p, IP_CL_STATUS.DRAINING n p, IP_CL_STATUS.PENDING n p,
        IP_CL_RETIRE_STROKE.STROKE n p] ∧
      t.pipe n p = { s.pipe n p with lastSwitch := some (s.rf (IP_CL_SWITCH_STROKE.STROKE n p)) } ∧
      t = { s with regs := t.regs, pipes := t.pipes }) ∧
  (∀ (s : State) (n : Region) (p : Pipe), s.switchDue n p = false → exec (.bankSwitch n p) s = .next s) ∧
  (∀ (s : State) (n : Region) (p : Pipe), s.regsCanon = true → mapCanon {} s.pipes = true → s.rb (IP_CL_STATUS.DRAINING n p) = true →
    (s.wmPassed n (s.rf (IP_CL_RETIRE_STROKE.STROKE n p)) = true ∨ s.regionRuns n = false) →
    ∃ t, exec (.drainEnd n p) s = .next t ∧ t.rf (IP_CL_STATUS.DRAINING n p) = 0 ∧ (t.pipe n p).lastSwitch = none ∧
      FieldsKept s t [IP_CL_STATUS.DRAINING n p] ∧ t = { s with regs := t.regs, pipes := t.pipes })

/-! ### Command rings, tables (file 06) and flow commands (file 07) -/

/-- R419, R422, R469, R470: the command that the arbiter of command rings reaches is consumed, its completion owed, and it has the effect of
its opcode; a malformed entry halts the device with the cause of Table DS-17 and the ring and index of the entry; the rings of a device
that is not Configurable, Running or Quiesced do nothing.
R223, R224, R226, R567, Table FT-12: a modifying command with SCHED is refused with status 3 when its stroke leads too little or too
far, with status 4 when the queue has no room, and else queued unapplied; a lock is taken once and returned once; FIND of an absent key
completes with status 1; nothing but OK changes a table. An entry whose cache copies differ is not dispatched (R436).
R221, R222, R226, R258 to R262: a WRITE stores what a READ of the same entries returns; an INSERT stores its entry at the key's slot, a DELETE
empties it; LOCK and UNLOCK set and clear LOCK; READ, FIND, FLOW_FIND and FLOW_READ write what they read; FLOW_SNAPSHOT arms a snapshot; FLOW_FLUSH
leaves no dirty line.
Completes: WRITE, READ, INSERT, DELETE, FIND, LOCK, UNLOCK, FLOW_FIND, FLOW_INSERT, FLOW_DELETE, FLOW_READ, FLOW_SNAPSHOT, FLOW_FLUSH. -/
def Obligations.CommandDispatchAndStatus : Prop :=
  (∀ (s : State) (c : CmdX) (err : Bool) (chk : ReadCheck) (rd : RecRead) (k : Fin 64) (j : Fin 4),
    (s.fronts 0x10 c → exec (.write err) s = .next (modifyCmd err c (s.cmdTaken c))) ∧
    (s.fronts 0x11 c → exec (.read err chk k) s = .next (readCmd err chk k.val c (s.cmdTaken c))) ∧
    (s.fronts 0x12 c → exec (.insert err) s = .next (modifyCmd err c (s.cmdTaken c))) ∧
    (s.fronts 0x13 c → exec (.delete err) s = .next (modifyCmd err c (s.cmdTaken c))) ∧
    (s.fronts 0x14 c → exec (.find err) s = .next (findCmd err c (s.cmdTaken c))) ∧
    (s.fronts 0x15 c → exec (.lock err) s = .next (modifyCmd err c (s.cmdTaken c))) ∧
    (s.fronts 0x16 c → exec .unlock s = .next (modifyCmd false c (s.cmdTaken c))) ∧
    (s.fronts 0x40 c → exec (.flowFind err rd) s = .next (flowFind err rd c (s.cmdTaken c))) ∧
    (s.fronts 0x41 c → exec (.flowInsert err) s = .next (s.orWait (flowModify err c (s.cmdTaken c)))) ∧
    (s.fronts 0x42 c → exec (.flowDelete err) s = .next (s.orWait (flowModify err c (s.cmdTaken c)))) ∧
    (s.fronts 0x43 c → exec (.flowRead err rd k j) s = .next (flowRead err rd k.val j.val c (s.cmdTaken c))) ∧
    (s.fronts 0x44 c → exec (.flowSnapshot err) s = .next (flowSnapshot err c (s.cmdTaken c))) ∧
    (s.fronts 0x45 c → exec .flowFlush s = .next (flowFlush c (s.cmdTaken c)))) ∧
  (∀ (s : State) (r code : Nat) (err : Bool) (chk : ReadCheck) (rd : RecRead) (k : Fin 64) (j : Fin 4), s.alive = true →
    nextRing (mget 0 s.rrHost 16) (s.ringsUsed.filter s.cmdReady) = some r → s.upsetIn r 1 = none →
    cmdFault ((s.ringX r).entries.headD []) = some code →
    (∀ i ∈ ([.write err, .read err chk k, .insert err, .delete err, .find err, .lock err, .unlock, .flowFind err rd, .flowRead err rd k j,
      .flowSnapshot err, .flowFlush] : List Instr), exec i s = .next (s.haltItem code r (s.ringHead r))) ∧
    exec (.flowInsert err) s = .next (s.orWait (s.haltItem code r (s.ringHead r))) ∧
    exec (.flowDelete err) s = .next (s.orWait (s.haltItem code r (s.ringHead r)))) ∧
  (∀ (s : State) (r u : Nat) (err : Bool) (chk : ReadCheck) (rd : RecRead) (k : Fin 64) (j : Fin 4), s.alive = true →
    nextRing (mget 0 s.rrHost 16) (s.ringsUsed.filter s.cmdReady) = some r → s.upsetIn r 1 = some u →
    (∀ i ∈ ([.write err, .read err chk k, .insert err, .delete err, .find err, .lock err, .unlock, .flowFind err rd, .flowRead err rd k j,
      .flowSnapshot err, .flowFlush] : List Instr), exec i s = .next (s.cacheMismatch r u)) ∧
    exec (.flowInsert err) s = .next (s.orWait (s.cacheMismatch r u)) ∧ exec (.flowDelete err) s = .next (s.orWait (s.cacheMismatch r u))) ∧
  (∀ (s : State) (err : Bool) (chk : ReadCheck) (rd : RecRead) (k : Fin 64) (j : Fin 4), s.alive = false →
    ∀ i ∈ ([.write err, .read err chk k, .insert err, .delete err, .find err, .lock err, .unlock, .flowFind err rd, .flowInsert err,
      .flowDelete err, .flowRead err rd k j, .flowSnapshot err, .flowFlush] : List Instr), exec i s = .next s) ∧
  (∀ (s : State) (c : CmdX) (err : Bool), c.sched = true → s.appliesNow c.region c = false → leadOk s.strokeNow c.stroke = false →
    s.modifyTable c err = s.cmdNow c 3) ∧
  (∀ (s : State) (c : CmdX) (err : Bool), c.sched = true → s.appliesNow c.region c = false → leadOk s.strokeNow c.stroke = true →
    16384 < schedEntries (s.tbl c.region).sched + c.count → s.modifyTable c err = s.cmdNow c 4) ∧
  (∀ (s : State) (c : CmdX) (err : Bool), s.regsCanon = true → mapCanon {} s.tbls = true → c.region < 8 → c.sched = true →
    s.appliesNow c.region c = false → leadOk s.strokeNow c.stroke = true →
    schedEntries (s.tbl c.region).sched + c.count ≤ 16384 → schedUnits c.stroke ((s.tbl c.region).sched ++ [c]) ≤ 1024 →
    ((s.modifyTable c err).tbl c.region) = { s.tbl c.region with sched := (s.tbl c.region).sched ++ [c] } ∧
    (s.modifyTable c err).rf (TBL_STATUS.SCHED_QUEUED c.region) = schedEntries (s.tbl c.region).sched + c.count ∧
    FieldsKept s (s.modifyTable c err) [TBL_STATUS.SCHED_QUEUED c.region] ∧
    s.modifyTable c err = { s with regs := (s.modifyTable c err).regs, tbls := (s.modifyTable c err).tbls }) ∧
  (∀ (s : State) (c : CmdX) (x : Option Nat), mapCanon 0 s.eps = true → c.index < 2 ^ 20 → pairSecond (s.ep c.region) c.index = false →
    (epLock (s.ep c.region c.index) = false →
      (s.lockSlot c x false).2 = 0 ∧ epLock ((s.lockSlot c x false).1.ep c.region c.index) = true ∧
      epType ((s.lockSlot c x false).1.ep c.region c.index) = epType (s.ep c.region c.index)) ∧
    (epLock (s.ep c.region c.index) = true → s.lockSlot c x false = (s, 6) ∧
      (s.unlockSlot c x).2 = 0 ∧ epLock ((s.unlockSlot c x).1.ep c.region c.index) = false) ∧
    (epLock (s.ep c.region c.index) = false → s.unlockSlot c x = (s, 6))) ∧
  (∀ (s : State) (c : CmdX) (x : Option Nat) (err : Bool), (s.applyTable c x err).2 ≠ 0 → (s.applyTable c x err).1 = s) ∧
  (∀ (s u v : State) (c d : CmdX) (k : EpKey), u = s.settleHits c.region → d = { c with payload := u.hostRead c.addr (u.tablePayload c) } →
    v = u.dmaRead (u.tablePayload c) c.item → d.payloadReserved = false → v.region c.region ≠ rgDrain → d.key = some k →
    v.findIn c.region (v.ep c.region) k = none → findCmd false c s = v.cmdNow d 1) ∧
  (∀ (s u v : State) (c d : CmdX), s.fronts 0x10 c → u = (s.cmdTaken c).settleHits c.region →
    d = { c with payload := u.hostRead c.addr (u.tablePayload c) } → v = u.dmaRead (u.tablePayload c) c.item → d.payloadReserved = false →
    v.region c.region ≠ rgDrain → v.tableRange d = false → (c.sched = false ∨ v.appliesNow c.region c = true) → mapCanon 0 s.eps = true →
    mapCanon 0 s.routes = true → mapCanon 0 s.vlans = true → mapCanon 0 s.tcam = true → mapCanon 0 s.actions = true →
    ∃ t, exec (.write false) s = .next t ∧ ∀ i < c.count, t.readEntry d false i =
      if c.table = 0 then bytesLE 16 (bits (d.entry i 16) 0 96) else bytesLE (entrySize c.table) (d.entry i (entrySize c.table))) ∧
  (∀ (s u : State) (c : CmdX) (k : Fin 64), s.fronts 0x11 c → u = (s.cmdTaken c).settleHits c.region →
    (s.cmdTaken c).region c.region ≠ rgDrain → (s.cmdTaken c).tableRange c = false →
    exec (.read false .good k) s =
      .next ((u.results c 0 ((List.range c.count).flatMap (fun i => u.readEntry c false i))).cmdNow c 0)) ∧
  (∀ (s u v : State) (c d : CmdX) (k : EpKey) (i : Nat), s.fronts 0x12 c → u = (s.cmdTaken c).settleHits c.region →
    d = { c with payload := u.hostRead c.addr (u.tablePayload c) } → v = u.dmaRead (u.tablePayload c) c.item → d.payloadReserved = false →
    v.region c.region ≠ rgDrain → d.key = some k → (c.sched = false ∨ v.appliesNow c.region c = true) → mapCanon 0 s.eps = true →
    (v.findIn c.region (v.ep c.region) k = some i ∨ (v.findIn c.region (v.ep c.region) k = none ∧
      (v.place c.region k (v.cmdStroke none) true).map (·.1) = some i)) → i < 2 ^ 20 →
    ∃ t, exec (.insert false) s = .next t ∧ bits (t.ep c.region i) 0 86 = bits (d.entry 0 16) 0 86) ∧
  (∀ (s u v : State) (c d : CmdX) (k : EpKey) (i : Nat), s.fronts 0x13 c → u = (s.cmdTaken c).settleHits c.region →
    d = { c with payload := u.hostRead c.addr (u.tablePayload c) } → v = u.dmaRead (u.tablePayload c) c.item → d.payloadReserved = false →
    v.region c.region ≠ rgDrain → d.key = some k → (c.sched = false ∨ v.appliesNow c.region c = true) → mapCanon 0 s.eps = true →
    v.findIn c.region (v.ep c.region) k = some i → i < 2 ^ 20 →
    ∃ t, exec (.delete false) s = .next t ∧ ∀ j ∈ occupant (v.ep c.region) i, t.ep c.region j = 0) ∧
  (∀ (s u v : State) (c d : CmdX) (k : EpKey) (i : Nat), s.fronts 0x14 c → u = (s.cmdTaken c).settleHits c.region →
    d = { c with payload := u.hostRead c.addr (u.tablePayload c) } → v = u.dmaRead (u.tablePayload c) c.item → d.payloadReserved = false →
    v.region c.region ≠ rgDrain → d.key = some k → v.findIn c.region (v.ep c.region) k = some i →
    exec (.find false) s = .next ((v.results d 0 (bytesLE 16 (bits (v.ep c.region i) 0 96 + i * 2 ^ 96) ++
      (if pairFirst (v.ep c.region) i then bytesLE 16 (bits (v.ep c.region (i + 1)) 0 96) else []))).cmdNow d 0)) ∧
  (∀ (s u : State) (c : CmdX), u = (s.cmdTaken c).settleHits c.region → u.region c.region ≠ rgDrain → u.tableRange c = false →
    (c.sched = false ∨ u.appliesNow c.region c = true) → mapCanon 0 s.eps = true →
    (s.fronts 0x15 c → epLock (u.ep c.region c.index) = false →
      ∃ t, exec (.lock false) s = .next t ∧ epLock (t.ep c.region c.index) = true ∧
        epType (t.ep c.region c.index) = epType (u.ep c.region c.index)) ∧
    (s.fronts 0x16 c → epLock (u.ep c.region c.index) = true →
      ∃ t, exec .unlock s = .next t ∧ epLock (t.ep c.region c.index) = false ∧
        epType (t.ep c.region c.index) = epType (u.ep c.region c.index))) ∧
  (∀ (s u v : State) (c d : CmdX) (e b j : Nat) (k r : List Byte) (l : List (Nat × List Byte)) (h1 second : Bool), s.fronts 0x40 c →
    d = { c with payload := (s.cmdTaken c).hostRead c.addr 40 } → u = (s.cmdTaken c).dmaRead 40 c.item → u.flowDrains d = false →
    u.flowItems d = (e, k) :: l → v = u.readKey e c.table k → v.findRec e c.table k = some (h1, b, j) → v.recAt e b j = some r →
    exec (.flowFind false ⟨.good, .good, second⟩) s = .next (((v.results d 40 (bytesLE 4 ((v.homeBucket e b r).1 + j * 2 ^ 24 + b2n h1 * 2 ^ 26))).results d 64
      (bytesAt r 0 64)).cmdNow d 0)) ∧
  (∀ (s v : State) (c d : CmdX) (es : List Nat), d = { c with payload := (s.cmdTaken c).hostRead c.addr (flowPayload c) } →
    v = (s.cmdTaken c).dmaRead (flowPayload c) c.item → es = ((v.flowItems d).map (·.1)).eraseDups → v.flowDrains d = false →
    (c.sched = false ∨ es.any (fun e => v.appliesNow e d) = true) → (v.applyEngines d none es).2 = 0 →
    (s.fronts 0x41 c → (List.range c.count).any (fun i => recReserved (bytesAt d.payload (64 * i) 64)) = false →
      (v.flowItems d).any (fun p => recRange c.table p.2) = false →
      exec (.flowInsert false) s = .next (s.orWait ((es.foldl (fun s e => s.unsched (some e)) (v.applyEngines d none es).1.nextFree).cmdNow d 0))) ∧
    (s.fronts 0x42 c →
      exec (.flowDelete false) s = .next (s.orWait ((es.foldl (fun s e => s.unsched (some e)) (v.applyEngines d none es).1.nextFree).cmdNow d 0)))) ∧
  (∀ (s u : State) (c : CmdX) (i : Fin 64) (j : Fin 4) (second : Bool), s.fronts 0x43 c → (s.cmdTaken c).flowDrains c = false →
    c.index + c.count ≤ (s.cmdTaken c).nb →
    u = (List.range c.count).foldl (fun s i => s.readBucket c.region (s.fold c.region (c.index + i))) (s.cmdTaken c) →
    exec (.flowRead false ⟨.good, .good, second⟩ i j) s =
      .next ((u.results c 0 ((List.range c.count).flatMap (fun i => u.bucketBytes c.region (c.index + i)))).cmdNow c 0)) ∧
  (∀ (s u : State) (c : CmdX) (d : List Byte), s.fronts 0x44 c → d = (s.cmdTaken c).hostRead c.addr 32 →
    u = (s.cmdTaken c).dmaRead 32 c.item → snapFault d = none → u.flowDrains c = false → (u.eng c.region).snap = none → s.regsCanon = true →
    mapCanon {} s.engs = true → (c.sched = true → leadOk u.strokeNow c.stroke = true) →
    ∃ t, exec (.flowSnapshot false) s = .next t ∧ t.rf (FE_STATUS.SNAP_ACTIVE c.region) = 1 ∧ t.eng c.region =
      { u.eng c.region with snap := some { cmd := c, stroke := u.snapStroke c,
                                           out := natLE (bytesAt d 0 8), len := natLE (bytesAt d 8 8), mask := natLE (bytesAt d 16 2) } }) ∧
  (∀ (s : State) (c : CmdX), s.fronts 0x45 c → mapCanon {} s.engs = true → (s.cmdTaken c).flowDrains c = false →
    ∃ t, exec .flowFlush s = .next t ∧ (t.eng c.region).dirty = [] ∧ t.slots = s.slots ∧ t.eps = s.eps)

/-- R221, R222: what a WRITE stores, a READ of the same entries returns, for every table; the units beside them keep what they held, but that
a WRITE to the second slot of an IPv6 host entry ends the removal that is pending of the entry (R203, R218): its first slot's flags change. -/
def Obligations.TableReadAfterWrite : Prop :=
  ∀ (s : State) (c : CmdX) (x : Option Nat) (err : Bool), mapCanon 0 s.eps = true → mapCanon 0 s.routes = true →
    mapCanon 0 s.vlans = true → mapCanon 0 s.tcam = true → mapCanon 0 s.actions = true → c.op = 0x10 →
    c.table ∈ [0, 2, 3, 4, 0x20, 0x21] → c.region < 8 → c.index + entryUnits c.table * c.count ≤ tableSize c.table →
    s.writeRange c = false →
    (s.applyTable c x err).2 = 0 ∧
    (∀ i < c.count, (s.applyTable c x err).1.readEntry c false i =
      if c.table = 0 then bytesLE 16 (bits (c.entry i 16) 0 96)
      else bytesLE (entrySize c.table) (c.entry i (entrySize c.table))) ∧
    (∀ id, (∀ i < c.count, id ≠ (if c.table = 0 then c.index + i else if c.table = 4 then vlanId (c.index + i)
        else if c.table = 2 then routeId (c.index + i) else routeId (c.index + 2 * i)) ∧
        (c.table = 3 → id ≠ routeId (c.index + 2 * i + 1))) →
      (s.applyTable c x err).1.unit c.region id =
        if c.table = 0 ∧ 0 < c.count ∧ id + 1 = c.index ∧ pairSecond (s.ep c.region) c.index = true then s.aborted c.region id (s.unit c.region id)
        else s.unit c.region id)

/-- R210 to R212, R225, R228: the table block answers the first frame of a pipeline that it can, with the decision of Table FT-6 when its
action asks for one, and hands it to the flow engine, or decides its verdict; a failed retry discards the frame; a scheduled command is applied, in
order, once everything before it is, and a flow command once every part of it may be. Nothing moves in a region whose clocks are stopped (R627).
R227: the compare walker stops when it is disabled, switches itself off when the shadow cannot be read, notes a difference for its recheck,
and reports one that the recheck still finds and no command has written.
Completes: FORWARDING_LOOKUP, SCHEDULED_COMMAND_APPLY, COMPARE_READ, COMPARE_RECHECK. -/
def Obligations.LookupsSchedulesAndCompare : Prop :=
  (∀ (s u v : State) (n : Region) (p : Pipe) (f g : Frame) (chk tab : ReadCheck) (table : Fin 4) (ix : BitVec 20), mapCanon {} s.pipes = true →
    s.running = true → s.regionOn n = true → u = s.countWaits n p →
    (u.pipe n p).tbl.find? (fun f => u.lookupReady n f.key.stroke) = some f → tab = (if table = 3 then .good else chk) →
    v = (u.setPipe n p { u.pipe n p with tbl := (u.pipe n p).tbl.filter (fun g => g.key != f.key) }).tblParity n table ix.toNat tab →
    g = { f with dec := if actFwd f.act = 0 then
      (if hvValid f.hv (v.rf (TBL_LKP_SEL0.L2_HDR n)) then v.decide6 f else { dest := .drop, noL2 := true }) else {} } →
    (isFailed tab = true → exec (.forwardingLookup n p chk table ix) s = .next ((v.addSat (TBL_CNT.PARITY_DISCARDS n) 1).dropFrame f)) ∧
    (isFailed tab = false → actFlowEn f.act = true →
      ∃ t, exec (.forwardingLookup n p chk table ix) s = .next t ∧ t.pipe n p = { v.pipe n p with flow := (v.pipe n p).flow ++ [g] } ∧
        t = { v with regs := t.regs, evts := t.evts, pipes := t.pipes, tbls := t.tbls }) ∧
    (isFailed tab = false → actFlowEn f.act = false →
      ∃ w : State, exec (.forwardingLookup n p chk table ix) s = .next ((w.groupCheck g (if table = 3 then chk else .good)).verdict g) ∧
        w = { v with regs := w.regs, evts := w.evts, tbls := w.tbls })) ∧
  (∀ (s : State) (n : Region) (p : Pipe) (chk : ReadCheck) (table : Fin 4) (ix : BitVec 20), s.running = true → s.regionOn n = true →
    ((s.countWaits n p).pipe n p).tbl.find? (fun f => (s.countWaits n p).lookupReady n f.key.stroke) = none →
    exec (.forwardingLookup n p chk table ix) s = .next (s.countWaits n p)) ∧
  (∀ (s : State) (n : Region) (p : Pipe) (chk : ReadCheck) (table : Fin 4) (ix : BitVec 20),
    (s.running = false ∨ s.regionOn n = false ∨ (s.pipe n p).tbl = []) → exec (.forwardingLookup n p chk table ix) s = .next s) ∧
  (∀ (s u : State) (n : Region) (err : Bool) (c : CmdX), s.alive = true → s.rf (PWR_STATUS.LEVEL n) ≠ 0 →
    firstCmd (s.tbl n).sched = some c → s.tableDue n c = true → u = s.applyHits n (fun k => strokeLt k.stroke c.stroke) →
    exec (.scheduledCommandApply n false err) s =
      .next (((u.setSched n ((u.tbl n).sched.filter (fun d => !sameCmd c d))).applyTable c (some c.stroke) err).1.cmdDone c
        ((u.setSched n ((u.tbl n).sched.filter (fun d => !sameCmd c d))).applyTable c (some c.stroke) err).2 c.stroke)) ∧
  (∀ (s : State) (n : Region) (err : Bool), (s.alive = false ∨ s.rf (PWR_STATUS.LEVEL n) = 0 ∨ (s.tbl n).sched = [] ∨
      ∃ c, firstCmd (s.tbl n).sched = some c ∧ s.tableDue n c = false) → exec (.scheduledCommandApply n false err) s = .next s) ∧
  (∀ (s : State) (n : Region) (err : Bool) (c : CmdX) (r : State × Nat), s.alive = true → s.rf (PWR_STATUS.LEVEL n) ≠ 0 →
    firstCmd (s.flowDue n) = some c → r = (s.unqueueFlow c).applyEngines c (some c.stroke) (s.holders c) →
    exec (.scheduledCommandApply n true err) s = .next (s.orWait (r.1.cmdDone c r.2 c.stroke))) ∧
  (∀ (s : State) (n : Region) (err : Bool), (s.alive = false ∨ s.rf (PWR_STATUS.LEVEL n) = 0 ∨ s.flowDue n = []) →
    exec (.scheduledCommandApply n true err) s = .next s) ∧
  (∀ (s : State) (n : Region) (r : CmpRead), (s.alive = false ∨ s.rf (PWR_STATUS.LEVEL n) = 0) →
    exec (.compareRead n r) s = .next s ∧ exec (.compareRecheck n r) s = .next s) ∧
  (∀ (s : State) (n : Region) (r : CmpRead), s.regsCanon = true → s.alive = true → s.rf (PWR_STATUS.LEVEL n) ≠ 0 →
    s.rb (TBL_CMP_CFG.EN n) = false →
    ∃ t, exec (.compareRead n r) s = .next t ∧ t.rf (TBL_CMP_STATUS.RUNNING n) = 0 ∧
      FieldsKept s t [TBL_CMP_STATUS.RUNNING n] ∧ SameButRegs s t) ∧
  (∀ (s : State) (n : Region) (r : CmpRead), s.regsCanon = true → s.alive = true → s.rf (PWR_STATUS.LEVEL n) ≠ 0 →
    s.rb (TBL_CMP_CFG.EN n) = true → r.dma = false →
    ∃ t, exec (.compareRead n r) s = .next t ∧ t.rf (TBL_CMP_CFG.EN n) = 0 ∧ t.rf (TBL_CMP_STATUS.RUNNING n) = 0 ∧
      t.rf (TBL_ERR.CMP_DMA n) = 1 ∧
      FieldsKeptEv s t [TBL_CMP_CFG.EN n, TBL_CMP_STATUS.RUNNING n, TBL_ERR.CMP_DMA n] ∧ SameButEvents s t) ∧
  (∀ (s : State) (n : Region), s.regsCanon = true → mapCanon {} s.tbls = true → s.alive = true → s.rf (PWR_STATUS.LEVEL n) ≠ 0 →
    s.rb (TBL_CMP_CFG.EN n) = true →
    s.cmpOn n (s.tbl n).cmpAt.1 = true → (s.tbl n).cmpAt.2 + 1 < cmpSize (s.tbl n).cmpAt.1 →
    ∃ t, exec (.compareRead n ⟨true, .good⟩) s = .next t ∧ t.rf (TBL_CMP_STATUS.RUNNING n) = 1 ∧
      (t.tbl n).cmpAt = ((s.tbl n).cmpAt.1, (s.tbl n).cmpAt.2 + 1) ∧
      (t.tbl n).cmpDiff = (s.tbl n).cmpDiff ++
        (if s.cmpDiffers n (s.tbl n).cmpAt.1 (s.tbl n).cmpAt.2 then [⟨(s.tbl n).cmpAt.1, (s.tbl n).cmpAt.2, false⟩] else []) ∧
      FieldsKept s t [TBL_CMP_STATUS.RUNNING n] ∧ t = { s with regs := t.regs, tbls := t.tbls }) ∧
  (∀ (s : State) (n : Region) (chk : ReadCheck), s.regsCanon = true → mapCanon {} s.tbls = true → s.alive = true →
    s.rf (PWR_STATUS.LEVEL n) ≠ 0 → s.rb (TBL_CMP_CFG.EN n) = true → (∀ k < 3, s.cmpOn n k = false) → (s.tbl n).cmpAt.1 < 3 →
    ∃ t, exec (.compareRead n ⟨true, chk⟩) s = .next t ∧ t.tbl n = { s.tbl n with cmpAt := (0, 0) } ∧
      FieldsKept s t [TBL_CMP_STATUS.RUNNING n, TBL_CMP_STATUS.LAPS n] ∧ t = { s with regs := t.regs, tbls := t.tbls }) ∧
  (∀ (s : State) (n : Region) (c : CmpX) (rest : List CmpX), s.regsCanon = true → mapCanon {} s.tbls = true → s.alive = true →
    s.rf (PWR_STATUS.LEVEL n) ≠ 0 → (s.tbl n).cmpDiff = c :: rest → s.cmpDiffers n c.table c.unit = true → c.written = false →
    ∃ t, exec (.compareRecheck n ⟨true, .good⟩) s = .next t ∧ (t.tbl n) = { s.tbl n with cmpDiff := rest } ∧
      t.rf (TBL_ERR.CMP_MISMATCH n) = 1 ∧
      t.rf (TBL_CMP_STATUS.MISMATCHES n) = satAdd (TBL_CMP_STATUS.MISMATCHES n).width (s.rf (TBL_CMP_STATUS.MISMATCHES n)) 1 ∧
      t.pendingBit (regionSrc 0x331 n) = true ∧
      FieldsKeptEv s t [TBL_ERR.CMP_MISMATCH n, TBL_CMP_STATUS.MISMATCHES n, TBL_ERR_LOC.TABLE n, TBL_ERR_LOC.INDEX n] ∧
      t = { s with regs := t.regs, evts := t.evts, tbls := t.tbls }) ∧
  (∀ (s : State) (n : Region) (c : CmpX) (rest : List CmpX), mapCanon {} s.tbls = true → s.alive = true →
    s.rf (PWR_STATUS.LEVEL n) ≠ 0 → (s.tbl n).cmpDiff = c :: rest → (s.cmpDiffers n c.table c.unit = false ∨ c.written = true) →
    ∃ t, exec (.compareRecheck n ⟨true, .good⟩) s = .next t ∧ (t.tbl n) = { s.tbl n with cmpDiff := rest } ∧ t = { s with tbls := t.tbls }) ∧
  (∀ (s : State) (n : Region) (c : CmpX) (rest : List CmpX) (chk : ReadCheck), s.regsCanon = true → s.alive = true →
    s.rf (PWR_STATUS.LEVEL n) ≠ 0 → (s.tbl n).cmpDiff = c :: rest →
    ∃ t, exec (.compareRecheck n ⟨false, chk⟩) s = .next t ∧ t.rf (TBL_CMP_CFG.EN n) = 0 ∧ t.rf (TBL_CMP_STATUS.RUNNING n) = 0 ∧
      t.rf (TBL_ERR.CMP_DMA n) = 1 ∧
      FieldsKeptEv s t [TBL_CMP_CFG.EN n, TBL_CMP_STATUS.RUNNING n, TBL_ERR.CMP_DMA n] ∧ SameButEvents s t)

/-- R215 to R219, Tables FT-7 and FT-9: a learn request refreshes the entry of a station on its own port, is refused by a static or locked
entry, and creates an entry of an unknown station where there is room; a sweep steps every entry that ages, and names those whose removal is
pending; final removals empty theirs and no other. A hit of a frame takes effect before the first of these that follows its key (R212).
A Standby-Cold learns and ages nothing (R536), and nothing moves in a region that is quarantined or whose clocks are stopped (R627).
Completes: LEARN_APPLY, AGEING_SWEEP, REMOVAL_FINAL. -/
def Obligations.LearningAndAgeing : Prop :=
  (∀ (s : State) (n : Region) (q : LearnReq) (i : Nat), mapCanon {} s.tbls = true → mapCanon 0 s.eps = true → s.running = true →
    s.regionOn n = true → s.pairChanges q.key.stroke = true → leastLearn (s.tbl n).learns = some q → s.wmPassed n q.key.stroke = true →
    s.sweptTo n q.key.stroke = true → s.schedBefore n q.key.stroke = false → s.removalBefore n q.key.stroke = false →
    s.hitsHeld n q.key.stroke = false → (s.tbl n).hits = [] →
    (s.tbl n).limitN = 0 → s.findIn n (s.ep n) (.mac q.vid q.mac) = some i → epPort (s.ep n i) = q.key.port →
    ∃ t, exec (.learnApply n) s = .next t ∧ (t.tbl n) = { s.tbl n with learns := (s.tbl n).learns.filter (fun r => r != q),
                                                                       aging := (s.tbl n).aging.filter (fun j => j != i) } ∧
      t.ep n i = s.refreshed n q.key.stroke i (s.ep n i) ∧ (∀ j < 2 ^ 20, j ≠ i → t.ep n j = s.ep n j) ∧
      t = { s with tbls := t.tbls, eps := t.eps }) ∧
  (∀ (s : State) (n : Region) (q : LearnReq) (i : Nat), s.regsCanon = true → s.running = true →
    s.regionOn n = true → s.pairChanges q.key.stroke = true → leastLearn (s.tbl n).learns = some q → s.wmPassed n q.key.stroke = true →
    s.sweptTo n q.key.stroke = true → s.schedBefore n q.key.stroke = false → s.removalBefore n q.key.stroke = false →
    mapCanon {} s.tbls = true → s.hitsHeld n q.key.stroke = false → (s.tbl n).hits = [] → (s.tbl n).limitN = 0 →
    s.findIn n (s.ep n) (.mac q.vid q.mac) = some i → epPort (s.ep n i) ≠ q.key.port →
    (epStatic (s.ep n i) = true ∨ epLock (s.ep n i) = true) →
    ∃ t, exec (.learnApply n) s = .next t ∧ t.eps = s.eps ∧
      t.rf (TBL_CNT.STATIC_REFUSED n) = satAdd (TBL_CNT.STATIC_REFUSED n).width (s.rf (TBL_CNT.STATIC_REFUSED n)) 1 ∧
      FieldsKept s t [TBL_CNT.STATIC_REFUSED n] ∧ t = { s with regs := t.regs, tbls := t.tbls }) ∧
  (∀ (s : State) (n : Region) (q : LearnReq) (i : Nat), mapCanon {} s.tbls = true → mapCanon 0 s.eps = true → s.running = true →
    s.regionOn n = true → s.pairChanges q.key.stroke = true → leastLearn (s.tbl n).learns = some q → s.wmPassed n q.key.stroke = true →
    s.sweptTo n q.key.stroke = true → s.schedBefore n q.key.stroke = false → s.removalBefore n q.key.stroke = false →
    s.hitsHeld n q.key.stroke = false → (s.tbl n).hits = [] →
    (s.tbl n).limitN = 0 → s.findIn n (s.ep n) (.mac q.vid q.mac) = none → q.mac < 2 ^ 48 → q.vid < 2 ^ 12 → q.key.port < 2 ^ 10 →
    s.place n (.mac q.vid q.mac) q.key.stroke (s.rb (TBL_CFG.LEARN_EVICT n)) = some (i, []) → i < 2 ^ 20 →
    (if (s.tbl n).learnAt = q.key.stroke then (s.tbl n).learnN else 0) + 1 ≤ s.learnMax n →
    ∃ t, exec (.learnApply n) s = .next t ∧ epType (t.ep n i) = 1 ∧ epPort (t.ep n i) = q.key.port ∧
      bits (t.ep n i) 0 48 = q.mac ∧ bits (t.ep n i) 48 12 = q.vid ∧ epAgeEn (t.ep n i) = true ∧ epLock (t.ep n i) = false ∧
      epStatic (t.ep n i) = false ∧ (∀ j < 2 ^ 20, j ≠ i → t.ep n j = s.ep n j) ∧ t.hostMem = s.hostMem ∧ t.time = s.time) ∧
  (∀ (s : State) (n : Region) (b : Nat), s.regsCanon = true → mapCanon {} s.tbls = true → mapCanon 0 s.eps = true → s.running = true →
    s.regionOn n = true → s.pairChanges b = true → s.boundary n = some b → strokeLe b s.strokeNow = true → s.inSpan b = false → s.wmPassed n ((b + (2 ^ 48 - 1)) % 2 ^ 48) = true →
    (s.tbl n).removal = none → (s.tbl n).learns = [] → (s.tbl n).sched = [] → s.hitsHeld n ((b + (2 ^ 48 - 1)) % 2 ^ 48) = false →
    (s.tbl n).hits = [] →
    ∃ t, exec (.ageingSweep ⟨n, []⟩) s = .next t ∧ (t.tbl n).swept = some b ∧
      (∀ i < 2 ^ 20, i ∈ (t.tbl n).aging ↔ ages (s.ep n) i = true ∧ s.ep n i ≠ 0 ∧
        sweepsOut ((strokeDiff (s.rf (TBL_AGE_BASE.STROKE n)) b / s.rf (TBL_AGE_CFG.N n) - 1) % 2) (s.ep n i) = true) ∧
      (∀ i < 2 ^ 20, t.ep n i = if ages (s.ep n) i && s.ep n i != 0 then
        sweepEntry ((strokeDiff (s.rf (TBL_AGE_BASE.STROKE n)) b / s.rf (TBL_AGE_CFG.N n) - 1) % 2) (s.ep n i) else s.ep n i) ∧
      t.rb (TBL_STATUS.REMOVALS_PENDING n) = !(t.tbl n).aging.isEmpty ∧ FieldsKept s t [TBL_STATUS.REMOVALS_PENDING n] ∧
      t = { s with regs := t.regs, tbls := t.tbls, eps := t.eps }) ∧
  (∀ (s : State) (r : SweepReads) (b : Nat), s.running = true → s.regionOn r.region = true → s.boundary r.region = some b →
    s.sweepReady r.region b = true → exec (.ageingSweep r) s =
      .next (((r.bad.map (fun x => (x.1.toNat, x.2))).foldl (fun s x => s.tblParity r.region 0 x.1 x.2) s).sweepAt r.region b)) ∧
  (∀ (s : State) (r : SweepReads), (s.running = false ∨ s.regionOn r.region = false ∨ s.boundary r.region = none ∨
      ∃ b, s.boundary r.region = some b ∧ s.sweepReady r.region b = false) → exec (.ageingSweep r) s = .next s) ∧
  (∀ (s : State) (n : Region) (b : Nat), s.pairChanges b = false → s.sweepAt n b = s.setTbl n { s.tbl n with swept := some b }) ∧
  (∀ (s : State) (n : Region), (s.running = false ∨ s.regionOn n = false) →
    exec (.learnApply n) s = .next s ∧ exec (.removalFinal n) s = .next s) ∧
  (∀ (s : State) (n : Region) (q : LearnReq), mapCanon {} s.tbls = true → s.running = true → s.regionOn n = true →
    s.pairChanges q.key.stroke = false → leastLearn (s.tbl n).learns = some q → s.wmPassed n q.key.stroke = true →
    s.sweptTo n q.key.stroke = true → s.schedBefore n q.key.stroke = false → s.removalBefore n q.key.stroke = false →
    s.hitsHeld n q.key.stroke = false → (s.tbl n).hits = [] → (s.tbl n).limitN = 0 →
    exec (.learnApply n) s = .next (s.setTbl n { s.tbl n with learns := (s.tbl n).learns.filter (fun r => r != q) })) ∧
  (∀ (s : State) (n : Region) (b : Nat), mapCanon {} s.tbls = true → mapCanon 0 s.eps = true → s.regsCanon = true → s.running = true →
    s.regionOn n = true → s.pairChanges b = true → (s.tbl n).removal = some b → s.hitsHeld n ((b + s.verdictLag + (2 ^ 48 - 1)) % 2 ^ 48) = false →
    (s.tbl n).hits = [] →
    s.wmPassed n ((b + s.verdictLag + (2 ^ 48 - 1)) % 2 ^ 48) = true → (s.tbl n).sched = [] → (s.tbl n).learns = [] →
    ∃ t, exec (.removalFinal n) s = .next t ∧ (t.tbl n).removal = none ∧ (t.tbl n).aging = [] ∧ t.rf (TBL_STATUS.REMOVALS_PENDING n) = 0 ∧
      (∀ i ∈ (s.tbl n).aging, i < 2 ^ 20 → t.ep n i = 0) ∧
      (∀ j < 2 ^ 20, (∀ i ∈ (s.tbl n).aging, j ∉ occupant (s.ep n) i) → t.ep n j = s.ep n j) ∧ t.hostMem = s.hostMem ∧ t.time = s.time) ∧
  (∀ (s : State) (n : Nat) (h : HitReq), mapCanon {} s.tbls = true → mapCanon 0 s.eps = true → h.slot < 2 ^ 20 →
    (ages (s.ep n) h.slot = true → (slotKey (s.ep n) h.slot).bytes = h.who →
      (s.applyHit n h).ep n h.slot = s.aborted n h.slot (putBits (s.ep n h.slot) (s.hitBit n h.key.stroke) 1 1) ∧
      h.slot ∉ ((s.applyHit n h).tbl n).aging ∧ (∀ j < 2 ^ 20, j ≠ h.slot → (s.applyHit n h).ep n j = s.ep n j)) ∧
    ((slotKey (s.ep n) h.slot).bytes ≠ h.who → s.applyHit n h = s))

/-! ### The flow engines (files 07 and 08) -/

/-- R236, R237, R239, R246, R252: the lookup of a frame whose record is not in the cache waits in its home engine with the frame's normalised
key; while the engine is in bypass, or its region quarantined, the frame is answered by its partition's bypass action; a partition that
is not valid answers it without a record. A lookup whose record is in the cache is ready at once; the others are once their buckets are read, and
wait while the cache set of a record is fully pinned (R245). The data of a bucket read may show errors that lose records first (R263, R285, R481).
Completes: FLOW_LOOKUP, BUCKET_READ_RETURN. -/
def Obligations.FlowLookups : Prop :=
  (∀ (s : State) (n : Region) (p : Pipe) (f : Frame) (rest : List Frame) (chk : ReadCheck), s.running = true → s.regionOn n = true →
    (s.pipe n p).flow = f :: rest → s.rb (FE_PART_CFG.VALID n (actPart f.act)) = false →
    exec (.flowLookup n p chk) s =
      .next (((s.setPipe n p { s.pipe n p with flow := rest }).count (FE_CNT.COUNT n 8) f.key.stroke).verdict f)) ∧
  (∀ (s : State) (n : Region) (p : Pipe) (f : Frame) (rest : List Frame) (chk : ReadCheck) (k : List Byte) (dir e : Nat),
    s.regsCanon = true → mapCanon {} s.pipes = true → mapCanon {} s.engs = true → s.running = true → s.regionOn n = true →
    (s.pipe n p).flow = f :: rest → s.rb (FE_PART_CFG.VALID n (actPart f.act)) = true →
    normalise (s.rb (FE_PART_CFG.NORM n (actPart f.act))) f.fkey = (k, dir) → s.homeOf n (actPart f.act) k = e → e < 8 →
    s.regionRuns e = true → (s.eng e).lookups.length < 65536 →
    (∀ h1 b j, s.findRec e (actPart f.act) k = some (h1, b, j) → b * 4 + j ∉ (s.eng e).cached) → s.rb (FE_STATUS.BYPASS e) = false →
    ∃ t, exec (.flowLookup n p chk) s = .next t ∧ t.pipe n p = { s.pipe n p with flow := rest } ∧
      (t.eng e).lookups = (s.eng e).lookups ++
        [{ frame := f, part := actPart f.act, key := k, dir := dir, at_ := s.orderNs, ready := false, released := false,
           inPass := false, held := false }] ∧
      t.rf (FE_STATUS.LOOKUP_OCC e) = (s.eng e).lookups.length + 1 ∧ t.slots = s.slots ∧
      t = { s with regs := t.regs, evts := t.evts, pipes := t.pipes, engs := t.engs }) ∧
  (∀ (s : State) (n : Region) (p : Pipe) (f : Frame) (rest : List Frame) (k : List Byte) (dir e b j : Nat) (h1 : Bool),
    s.regsCanon = true → mapCanon {} s.pipes = true → mapCanon {} s.engs = true → s.running = true → s.regionOn n = true →
    (s.pipe n p).flow = f :: rest → s.rb (FE_PART_CFG.VALID n (actPart f.act)) = true →
    normalise (s.rb (FE_PART_CFG.NORM n (actPart f.act))) f.fkey = (k, dir) → s.homeOf n (actPart f.act) k = e → e < 8 →
    s.regionRuns e = true → (s.eng e).lookups.length < 65536 → s.findRec e (actPart f.act) k = some (h1, b, j) →
    b * 4 + j ∈ (s.eng e).cached → s.badRefs e b j = false →
    ∃ t, exec (.flowLookup n p .good) s = .next t ∧ t.pipe n p = { s.pipe n p with flow := rest } ∧
      (t.eng e).lookups = (s.eng e).lookups ++
        [{ frame := f, part := actPart f.act, key := k, dir := dir, at_ := s.orderNs, ready := true, released := false,
           inPass := false, held := false }] ∧ t.slots = s.slots) ∧
  (∀ (s u : State) (n : Region) (p : Pipe) (f : Frame) (rest : List Frame) (chk : ReadCheck) (k : List Byte) (dir e : Nat),
    s.running = true → s.regionOn n = true → (s.pipe n p).flow = f :: rest → s.rb (FE_PART_CFG.VALID n (actPart f.act)) = true →
    normalise (s.rb (FE_PART_CFG.NORM n (actPart f.act))) f.fkey = (k, dir) → s.homeOf n (actPart f.act) k = e →
    u = (s.setPipe n p { s.pipe n p with flow := rest }).ev (64 + 2 * n + p) 0x16 none 1 f.key.stroke f.key.num →
    (s.regionRuns e = false →
      exec (.flowLookup n p chk) s = .next ((u.count (FE_CNT.COUNT n 2) f.key.stroke).bypassAct e f)) ∧
    (s.regionRuns e = true → (s.eng e).lookups.length < 65536 →
      (∀ h1 b j, s.findRec e (actPart f.act) k = some (h1, b, j) → b * 4 + j ∉ (s.eng e).cached) → s.rb (FE_STATUS.BYPASS e) = true →
      exec (.flowLookup n p chk) s = .next ((u.count (FE_CNT.COUNT e 2) f.key.stroke).bypassAct e f)) ∧
    (s.regionRuns e = true → 65536 ≤ (s.eng e).lookups.length → exec (.flowLookup n p chk) s = .next s)) ∧
  (∀ (s : State) (n : Region) (p : Pipe) (chk : ReadCheck),
    (s.running = false ∨ s.regionOn n = false ∨ (s.pipe n p).flow = []) → exec (.flowLookup n p chk) s = .next s) ∧
  (∀ (s v w u : State) (e : Region) (i : BitVec 16) (rd : BucketRead) (dict : ReadCheck) (second : Bool) (l : Lookup), s.running = true →
    s.regionOn e = true → s.hbmBusy (e / 2) = false → ((s.eng e).lookups.filter (fun l => !l.ready))[i.toNat]? = some l →
    v = s.ev (104 + e) 0x12 none 1 l.frame.key.stroke l.frame.key.num →
    (v.readSlot e l.part l.key rd.slot = none → w = v) →
    (∀ b j, v.readSlot e l.part l.key rd.slot = some (b, j) → w = (v.recParity e b j false rd.chk).dictParity e b j second dict) →
    u = w.readKey e l.part l.key →
    (u.findRec e l.part l.key = none →
      exec (.bucketReadReturn e i rd dict second) s = .next (u.mapLookup e l.frame.key (fun l => { l with ready := true }))) ∧
    (∀ h1 b j, u.findRec e l.part l.key = some (h1, b, j) → (u.cacheUse e b j false).2 = true →
      exec (.bucketReadReturn e i rd dict second) s =
        .next ((u.cacheUse e b j false).1.mapLookup e l.frame.key (fun l => { l with ready := true }))) ∧
    (∀ h1 b j, u.findRec e l.part l.key = some (h1, b, j) → (u.cacheUse e b j false).2 = false →
      exec (.bucketReadReturn e i rd dict second) s = .next s)) ∧
  (∀ (s : State) (e : Nat) (k : FKey) (f : Lookup → Lookup), mapCanon {} s.engs = true →
    ((s.mapLookup e k f).eng e).lookups = (s.eng e).lookups.map (fun m => if m.frame.key = k then f m else m) ∧
    s.mapLookup e k f = { s with regs := (s.mapLookup e k f).regs, engs := (s.mapLookup e k f).engs }) ∧
  (∀ (s : State) (e : Region) (i : BitVec 16) (rd : BucketRead) (dict : ReadCheck) (second : Bool),
    (s.running = false ∨ s.regionOn e = false ∨ s.hbmBusy (e / 2) = true ∨
      ((s.eng e).lookups.filter (fun l => !l.ready))[i.toNat]? = none) → exec (.bucketReadReturn e i rd dict second) s = .next s)

/-- R34, R247, R248, R306: an engine's decision on a lookup whose stable view is complete is a verdict pass when the view is verdict-stable and
a hold otherwise; commit passes go by least ordering key among the frames whose stroke may commit; a frame whose routine is not bound runs
no pass, and is released with no verdict of the pump unless it was released before; its release is no cut-through (R57; log entry 210).
Completes: VERDICT_PASS, COMMIT_PASS. -/
def Obligations.VerdictAndCommitPasses : Prop :=
  (∀ (s u : State) (e : Region) (l : Lookup), s.running = true → s.regionOn e = true →
    (s.eng e).lookups.find? (fun l => l.ready && !l.released && !l.held && !l.inPass &&
      s.updatesDone e l (s.viewStroke l)) = some l → u = s.readRec e l.part l.key →
    (u.bound e l.frame = false → exec (.verdictPass e) s = .next (u.unbound e l)) ∧
    (u.bound e l.frame = true → ∀ c st, u.viewAt e l.part l.key (u.viewStroke l) = some (c, st) →
      exec (.verdictPass e) s = .next (if bit c 8 then u.askPass e l true else u.holdFrame e l.frame)) ∧
    (u.bound e l.frame = true → u.viewAt e l.part l.key (u.viewStroke l) = none →
      exec (.verdictPass e) s = .next (u.holdFrame e l.frame))) ∧
  (∀ (s : State) (e : Region), (s.running = false ∨ s.regionOn e = false ∨ (s.eng e).lookups = []) →
    exec (.verdictPass e) s = .next s ∧ exec (.commitPass e) s = .next s) ∧
  (∀ (s : State) (e : Nat) (l : Lookup), s.unbound e l =
    (if l.released then (s.count (PMP_CNT.COUNT e 5) l.frame.key.stroke).dropLookup e l.frame.key
    else ((s.count (PMP_CNT.COUNT e 5) l.frame.key.stroke).dropLookup e l.frame.key).verdict { l.frame with cut := false })) ∧
  (∀ (s : State) (e : Region) (l : Lookup), s.running = true → s.regionOn e = true →
    leastLookup ((s.eng e).lookups.filter (s.commitDue e)) = some l →
    exec (.commitPass e) s = .next (if s.bound e l.frame then s.askPass e l false else s.unbound e l)) ∧
  (∀ (s : State) (e : Nat) (l : Lookup) (v : Bool), mapCanon {} s.engs = true →
    ((s.askPass e l v).eng e).passes = (s.eng e).passes ++
      [{ look := { l with inPass := true }, verdict := v, restarts := 0, since := none, latency := 0, md := [] }] ∧
    ((s.askPass e l v).eng e).lookups =
      (s.eng e).lookups.map (fun m => if m.frame.key = l.frame.key then { m with inPass := true } else m) ∧
    s.askPass e l v = { s with regs := (s.askPass e l v).regs, engs := (s.askPass e l v).engs })

/-- R33, R34, R35, R250: a region's watermark advances to the lowest stroke that a frame may still belong to and never falls back; the
standpipe releases every stroke that the watermarks of all counted regions have passed; neither moves in a device that does not run. A watermark that lets a digest period close has the digests of the pair that wait for it compared
(R544).
R252: an engine enters bypass when its lookup table fills past 57,344 entries or its oldest entry has waited BYPASS_US, with the error
bit, the determinism bit and the event; it leaves it below 16,384 entries with its oldest entry younger than half of BYPASS_US.
Completes: WATERMARK_ADVANCE, STANDPIPE_RELEASE, WATERMARK_DEADLINE_MISS, BYPASS_ENTER, BYPASS_EXIT. -/
def Obligations.WatermarksStandpipeAndBypass : Prop :=
  (∀ (s : State) (n : Region), s.regsCanon = true → s.running = true → s.pairx.peerDigs = [] →
    strokeLt (s.wm n) (strokeMin (s.wmLimit n) (s.pipeStrokes n)) = true → strokeMin (s.wmLimit n) (s.pipeStrokes n) < 2 ^ 48 →
    ∃ t, exec (.watermarkAdvance n) s = .next t ∧ t.wm n = strokeMin (s.wmLimit n) (s.pipeStrokes n) ∧
      (∀ m < 8, m ≠ n.val → t.wm m = s.wm m) ∧ t.rf SP_STATUS.LOWEST = t.lowest ∧
      FieldsKept s t [SP_WM.STROKE n, SP_STATUS.LOWEST] ∧ t = { s with regs := t.regs, tbls := t.tbls, engs := t.engs }) ∧
  (∀ (s : State) (n : Region), (s.running = false ∨ (s.pairx.peerDigs = [] ∧
      strokeLt (s.wm n) (strokeMin (s.wmLimit n) (s.pipeStrokes n)) = false)) → exec (.watermarkAdvance n) s = .next s) ∧
  (∀ (s : State) (n : Region), s.running = true → exec (.watermarkAdvance n) s = .next (watermarkAdvance n s).digReady) ∧
  (∀ s : State, s.running = false → exec .standpipeRelease s = .next s) ∧
  (∀ (s : State) (n : Nat) (l : List Nat) (w : Nat), s.regsCanon = true → s.running = true →
    (List.range 8).filter (fun n => !bit (s.rf SP_STATUS.QUARANTINED) n) = n :: l → strokeMin (s.wm n) (l.map s.wm) = w →
    strokeLt (s.rf SP_RELEASED.STROKE) ((w + (2 ^ 48 - 1)) % 2 ^ 48) = true →
    ∃ t, exec .standpipeRelease s = .next t ∧ t.rf SP_RELEASED.STROKE = (w + (2 ^ 48 - 1)) % 2 ^ 48 ∧
      (∀ m < 8, t.wm m = s.wm m) ∧ t.hostMem = s.hostMem ∧ t = { s with regs := t.regs, evts := t.evts }) ∧
  (∀ (s : State) (n : Region), s.running = true → s.regionRuns n = true → s.lateWm n = true →
    exec (.watermarkDeadlineMiss n) s = .next (((((s.addSat SP_LATE.MISSES 1).wf SP_LATE.LAST_REGION n).raise 0x018 n).ev 129 0x11 (some n.val) 1
      ((s.addSat SP_LATE.MISSES 1).wf SP_LATE.LAST_REGION n |>.raise 0x018 n).strokeNow
      (((s.addSat SP_LATE.MISSES 1).wf SP_LATE.LAST_REGION n |>.raise 0x018 n).strokeNow * 2 ^ 32)).quarantine n 1)) ∧
  (∀ (s : State) (n : Region), (s.running = false ∨ s.regionRuns n = false ∨ s.lateWm n = false) →
    exec (.watermarkDeadlineMiss n) s = .next s) ∧
  (∀ (s : State) (e : Region), s.regsCanon = true → s.running = true → s.regionOn e = true → s.rb (FE_STATUS.BYPASS e) = false →
    (57344 < (s.eng e).lookups.length ∨ ((s.eng e).lookups ≠ [] ∧ s.rf (FE_CFG.BYPASS_US e) * 1000 ≤ s.oldest e)) →
    ∃ t, exec (.bypassEnter e) s = .next t ∧ t.rf (FE_STATUS.BYPASS e) = 1 ∧ t.rf (FE_ERR.BYPASS e) = 1 ∧
      t.rf CHIP_DET_STATUS.BYPASS = 1 ∧ t.pendingBit (regionSrc 0x343 e) = true ∧
      FieldsKeptEv s t [FE_STATUS.BYPASS e, FE_ERR.BYPASS e, CHIP_DET_STATUS.BYPASS, CHIP_DET_STROKE.STROKE] ∧ SameButEvents s t) ∧
  (∀ (s : State) (e : Region), s.regsCanon = true → s.running = true → s.regionOn e = true → s.rb (FE_STATUS.BYPASS e) = true →
    (s.eng e).lookups.length < 16384 → s.oldest e < s.rf (FE_CFG.BYPASS_US e) * 500 →
    ∃ t, exec (.bypassExit e) s = .next t ∧ t.rf (FE_STATUS.BYPASS e) = 0 ∧ t.rf (FE_ERR.BYPASS e) = s.rf (FE_ERR.BYPASS e) ∧
      t.pendingBit (regionSrc 0x343 e) = true ∧ FieldsKeptEv s t [FE_STATUS.BYPASS e] ∧ SameButEvents s t) ∧
  (∀ (s : State) (e : Region), (s.running = false ∨ s.regionOn e = false) →
    exec (.bypassEnter e) s = .next s ∧ exec (.bypassExit e) s = .next s) ∧
  (∀ (s : State) (e : Region), s.rb (FE_STATUS.BYPASS e) = true → exec (.bypassEnter e) s = .next s) ∧
  (∀ (s : State) (e : Region), s.rb (FE_STATUS.BYPASS e) = false → exec (.bypassExit e) s = .next s)

/-- R249, R254, R255, R262: a due sweep, once everything before its boundary is done, removes the aged records and is done, and stalls while the
report queue is full; a snapshot waits for its boundary, then completes, its image cut to the buffer; a flush leaves no dirty line.
Completes: FLOW_SWEEP, SNAPSHOT_CAPTURE. -/
def Obligations.FlowSweepsAndSnapshots : Prop :=
  (∀ (s u v : State) (e : Region) (b : Nat) (done : Bool), s.running = true → s.regionOn e = true → s.flowBoundary e = some b →
    s.flowSweepReady e b = true → u = (s.snapFix e ((b + (2 ^ 48 - 1)) % 2 ^ 48) true []).readAll e →
    u.ageOut e b ((u.records e).filter (fun q => u.agedOut e b q.2.2)) = (v, done) →
    exec (.flowSweep e) s = .next (if done then v.setEng e { v.eng e with swept := some b } else v)) ∧
  (∀ (s : State) (e : Region) (b : Nat), mapCanon {} s.engs = true → s.running = true → s.regionOn e = true → s.flowBoundary e = some b →
    s.inSpan b = false →
    s.wmPassed e ((b + (2 ^ 48 - 1)) % 2 ^ 48) = true → strokeLe ((b + (2 ^ 48 - 1)) % 2 ^ 48) (s.rf SP_RELEASED.STROKE) = true →
    (s.eng e).lookups = [] → (s.eng e).sched = [] → (s.eng e).snap = none → s.heldBuckets e = [] →
    ∃ t, exec (.flowSweep e) s = .next t ∧ t.eng e = { s.eng e with swept := some b } ∧ t = { s with engs := t.engs }) ∧
  (∀ (s : State) (e b : Nat) (q : Nat × Nat × List Byte) (l : List (Nat × Nat × List Byte)), s.evtHeld 4 e < (s.ageRec e b true q).evtHeld 4 e →
    1024 < (s.ageRec e b true q).evtHeld 4 e → s.ageOut e b (q :: l) = (s.orWait (s.ageRec e b true q), false)) ∧
  (∀ (s : State) (e b : Nat) (q : Nat × Nat × List Byte) (l : List (Nat × Nat × List Byte)),
    (s.ageRec e b true q).evtHeld 4 e ≤ s.evtHeld 4 e ∨ (s.ageRec e b true q).evtHeld 4 e ≤ 1024 → (s.ageRec e b true q).stageFull e = false →
    s.ageOut e b (q :: l) = (s.ageRec e b true q).ageOut e b l) ∧
  (∀ (s t : State) (e : Region), s.regsCanon = true → s.evtHeld 4 e < t.evtHeld 4 e → 1024 < t.evtHeld 4 e →
    (s.orWait t).rb (FE_ERR.REPORT_STALL e) = true ∧ SameButEvents s (s.orWait t)) ∧
  (∀ (s : State) (e : Region), (s.running = false ∨ s.regionOn e = false ∨ s.flowBoundary e = none ∨
      ∃ b, s.flowBoundary e = some b ∧ s.flowSweepReady e b = false) →
    exec (.flowSweep e) s = .next s) ∧
  (∀ (s : State) (e : Region) (err : Bool) (c : SnapX), (s.eng e).snap = some c → c.taken = false →
    (s.atBoundary e c.stroke = false ∨ (s.eng e).sched.any (fun d => strokeLe d.stroke c.stroke) = true) →
    exec (.snapshotCapture e err) s = .next s) ∧
  (∀ (s : State) (e : Region) (err : Bool), (s.alive = false ∨ s.rf (PWR_STATUS.LEVEL e) = 0 ∨ (s.eng e).snap = none) →
    exec (.snapshotCapture e err) s = .next s) ∧
  (∀ (s : State) (e : Region) (c : SnapX), mapCanon {} s.engs = true → s.alive = true → s.rf (PWR_STATUS.LEVEL e) ≠ 0 →
    (s.eng e).snap = some c → c.taken = true →
    exec (.snapshotCapture e true) s = .next
      (((s.setEng e { s.eng e with snap := none }).wf (FE_STATUS.SNAP_ACTIVE e) 0).cmdDone c.cmd 8 c.stroke)) ∧
  (∀ (s u v : State) (e : Region) (a c : SnapX) (recs d : List Byte) (k : Nat), s.alive = true → s.rf (PWR_STATUS.LEVEL e) ≠ 0 →
    (s.eng e).snap = some a →
    (a.taken = true ∨ (s.atBoundary e a.stroke = true ∧ (s.eng e).sched.any (fun d => strokeLe d.stroke a.stroke) = false)) →
    u = s.snapFix e a.stroke true [] → (u.eng e).snap = some c → k = min c.image.length (c.len / 64 - 1) →
    recs = (c.image.take k).flatMap (·.2) →
    v = (u.setEng e { u.eng e with snap := none }).wf (FE_STATUS.SNAP_ACTIVE e) 0 →
    d = recs ++ snapTrailer e c.mask c.stroke k recs →
    exec (.snapshotCapture e false) s =
      .next (((v.dmaWrite d.length c.cmd.item).hostWrite c.out d).cmdDone c.cmd (if k < c.image.length then 5 else 0) c.stroke)) ∧
  (∀ (s : State) (c : CmdX), s.regsCanon = true → mapCanon {} s.engs = true → c.region < 8 → s.flowDrains c = false →
    ∃ u : State, flowFlush c s = u.cmdNow c 0 ∧ u.eng c.region = { s.eng c.region with dirty := [] } ∧ u.rf (FE_STATUS.DIRTY c.region) = 0 ∧
      u = { s with regs := u.regs, evts := u.evts, engs := u.engs })

/-- R239: both directions of a flow have one normalised key: the key with its endpoints exchanged normalises to the same bytes, and the two
directions differ unless the endpoints are equal.
R274, R275: a sum in exponent form stands for a count that is off by less than one unit of its exponent, whatever the key. -/
def Obligations.FlowKeysAndCounts : Prop :=
  (∀ k : List Byte, k.length = 40 →
    (normalise true k).1.length = 40 ∧ byteAt (normalise true k).1 37 = 0 ∧
    (normalise true k).1 = (normalise true (bytesAt k 16 16 ++ bytesAt k 0 16 ++ bytesAt k 34 2 ++ bytesAt k 32 2 ++ bytesAt k 36 4)).1 ∧
    normalise true (normalise true k).1 = ((normalise true k).1, 0) ∧
    (endpointNum k false ≠ endpointNum k true →
      (normalise true k).2 + (normalise true (bytesAt k 16 16 ++ bytesAt k 0 16 ++ bytesAt k 34 2 ++ bytesAt k 32 2 ++ bytesAt k 36 4)).2 = 1)) ∧
  (∀ emin n crc : Nat, 2 ^ (emin + 24) ≤ n → n < 2 ^ 279 →
    n < expValue (expForm emin n crc) + 2 ^ (Nat.log2 n - 24) ∧ expValue (expForm emin n crc) < n + 2 ^ (Nat.log2 n - 24) ∧
    expForm emin n crc < 2 ^ 32)

/-- R278 to R283, Tables FR-5, FR-7, FR-8: a record that fits the C4 form, and one that fits the C6 form beside its dictionary entries, is read
back from its slot bit for bit; the slot names the entries it was packed with. -/
def Obligations.RecordForms : Prop :=
  (∀ r : List Byte, r.length = 64 → byteAt r 37 = 0 → bit (recWord r 10) 11 = false → fitsC4 r = true →
    (packC4 r).length = 32 ∧ unpackC4 (packC4 r) = r ∧ byteAt (packC4 r) 5 % 4 = 1) ∧
  (∀ (r : List Byte) (a b : Nat), r.length = 64 → byteAt r 37 = 0 → bit (recWord r 10) 11 = false → fitsC6 r = true → a < 4096 → b < 4096 →
    (packC6 r a b).length = 32 ∧ c6Entries (packC6 r a b) = (a, b) ∧ byteAt (packC6 r a b) 5 % 4 = 2 ∧
    unpackC6 (packC6 r a b) (prefixOf r 0) (prefixOf r 16) = r)

/-! ### Pumps (file 09) -/

/-- R295 to R298, Table PU-3: the arithmetic and logic microwords. A word that passes the checks of R307 and whose reserved bits are 0 puts its
result, a 32-bit word, into gD and goes on to the next address; every other context, register and memory of the pump keeps what it held.
D, A and B are bits [25:21], [20:16] and [15:11] of the word.
R295, R298, R307, Table PU-3: the branches, jumps and NOP. A branch goes to its 14-bit target when its condition holds of gD and gA (or bit
A of gD), else to the next address; JAL leaves the next address in gD; JR goes to the low 14 bits of gA. A word with a reserved bit set is
a fault of cause 2, an address outside the binding a fault of cause 3, an unassigned opcode a fault of cause 1: the pass is abandoned, and starts
again at its ENTRY while it has restarts left; so it is for a parity error of its context (cause 0x11), which a context that waits can meet too.
Completes: ADD, SUB, AND, OR, XOR, SHL, SHR, SAR, MUL, MINU, MAXU, SLTU, BSWAP, ADDI, ANDI, ORI, XORI, LUI, SHLI, SHRI, EXT, INS, SLTIU, LI, BEQ, BNE,
BLTU, BGEU, BBS, BBC, JMP, JAL, JR, NOP, ILLEGAL. -/
def Obligations.PumpWords : Prop :=
  (∀ (s : State) (e : Region) (p : Fin 32) (c : Oct) (x : BitVec 26) (k : PumpCtx) (D A B : Nat), D = bits x.toNat 21 5 → A = bits x.toNat 16 5 →
    B = bits x.toNat 11 5 →
    (bits x.toNat 0 11 = 0 →
      (s.issues e p c (word 0x01 x.toNat) k → (∃ t, exec (.add e p c x 0) s = .next t ∧
        s.ctxBecomes t e p c ((k.put32 D (k.word A + k.word B)).goes (k.pc + 1)))) ∧
      (s.issues e p c (word 0x02 x.toNat) k → (∃ t, exec (.sub e p c x 0) s = .next t ∧
        s.ctxBecomes t e p c ((k.put32 D (k.word A - k.word B)).goes (k.pc + 1)))) ∧
      (s.issues e p c (word 0x03 x.toNat) k → (∃ t, exec (.and e p c x 0) s = .next t ∧
        s.ctxBecomes t e p c ((k.put32 D (k.word A &&& k.word B)).goes (k.pc + 1)))) ∧
      (s.issues e p c (word 0x04 x.toNat) k → (∃ t, exec (.or e p c x 0) s = .next t ∧
        s.ctxBecomes t e p c ((k.put32 D (k.word A ||| k.word B)).goes (k.pc + 1)))) ∧
      (s.issues e p c (word 0x05 x.toNat) k → (∃ t, exec (.xor e p c x 0) s = .next t ∧
        s.ctxBecomes t e p c ((k.put32 D (k.word A ^^^ k.word B)).goes (k.pc + 1)))) ∧
      (s.issues e p c (word 0x06 x.toNat) k → (∃ t, exec (.shl e p c x 0) s = .next t ∧
        s.ctxBecomes t e p c ((k.put32 D (k.word A <<< ((k.word B).toNat % 32))).goes (k.pc + 1)))) ∧
      (s.issues e p c (word 0x07 x.toNat) k → (∃ t, exec (.shr e p c x 0) s = .next t ∧
        s.ctxBecomes t e p c ((k.put32 D (k.word A >>> ((k.word B).toNat % 32))).goes (k.pc + 1)))) ∧
      (s.issues e p c (word 0x08 x.toNat) k → (∃ t, exec (.sar e p c x 0) s = .next t ∧
        s.ctxBecomes t e p c ((k.put32 D ((k.word A).sshiftRight ((k.word B).toNat % 32))).goes (k.pc + 1)))) ∧
      (s.issues e p c (word 0x09 x.toNat) k → (∃ t, exec (.mul e p c x 0) s = .next t ∧
        s.ctxBecomes t e p c ((k.put32 D (k.word A * k.word B)).goes (k.pc + 1)))) ∧
      (s.issues e p c (word 0x0A x.toNat) k → (∃ t, exec (.minu e p c x 0) s = .next t ∧
        s.ctxBecomes t e p c ((k.put32 D (if k.word A < k.word B then k.word A else k.word B)).goes (k.pc + 1)))) ∧
      (s.issues e p c (word 0x0B x.toNat) k → (∃ t, exec (.maxu e p c x 0) s = .next t ∧
        s.ctxBecomes t e p c ((k.put32 D (if k.word A < k.word B then k.word B else k.word A)).goes (k.pc + 1)))) ∧
      (s.issues e p c (word 0x0C x.toNat) k → (∃ t, exec (.sltu e p c x 0) s = .next t ∧
        s.ctxBecomes t e p c ((k.put32 D (if k.word A < k.word B then 1 else 0)).goes (k.pc + 1)))) ∧
      (s.issues e p c (word 0x0D x.toNat) k → B = 0 → (∃ t, exec (.bswap e p c x 0) s = .next t ∧ s.ctxBecomes t e p c ((k.put32 D
        ((k.word A).extractLsb' 0 8 ++ (k.word A).extractLsb' 8 8 ++ (k.word A).extractLsb' 16 8 ++ (k.word A).extractLsb' 24 8)).goes
        (k.pc + 1))))) ∧
    (s.issues e p c (word 0x10 x.toNat) k → (∃ t, exec (.addi e p c x 0) s = .next t ∧
      s.ctxBecomes t e p c ((k.put32 D (k.word A + (imm16 x).signExtend 32)).goes (k.pc + 1)))) ∧
    (s.issues e p c (word 0x11 x.toNat) k → (∃ t, exec (.andi e p c x 0) s = .next t ∧
      s.ctxBecomes t e p c ((k.put32 D (k.word A &&& (imm16 x).setWidth 32)).goes (k.pc + 1)))) ∧
    (s.issues e p c (word 0x12 x.toNat) k → (∃ t, exec (.ori e p c x 0) s = .next t ∧
      s.ctxBecomes t e p c ((k.put32 D (k.word A ||| (imm16 x).setWidth 32)).goes (k.pc + 1)))) ∧
    (s.issues e p c (word 0x13 x.toNat) k → (∃ t, exec (.xori e p c x 0) s = .next t ∧
      s.ctxBecomes t e p c ((k.put32 D (k.word A ^^^ (imm16 x).setWidth 32)).goes (k.pc + 1)))) ∧
    (s.issues e p c (word 0x19 x.toNat) k → (∃ t, exec (.sltiu e p c x 0) s = .next t ∧
      s.ctxBecomes t e p c ((k.put32 D (if k.word A < (imm16 x).setWidth 32 then 1 else 0)).goes (k.pc + 1)))) ∧
    (s.issues e p c (word 0x14 x.toNat) k → A = 0 → (∃ t, exec (.lui e p c x 0) s = .next t ∧
      s.ctxBecomes t e p c ((k.put32 D (imm16 x ++ 0#16)).goes (k.pc + 1)))) ∧
    (s.issues e p c (word 0x1A x.toNat) k → A = 0 →
      (∃ t, exec (.li e p c x 0) s = .next t ∧ s.ctxBecomes t e p c ((k.put32 D ((imm16 x).signExtend 32)).goes (k.pc + 1)))) ∧
    (s.issues e p c (word 0x15 x.toNat) k → bits x.toNat 5 11 = 0 →
      (∃ t, exec (.shli e p c x 0) s = .next t ∧ s.ctxBecomes t e p c ((k.put32 D (k.word A <<< bits x.toNat 0 5)).goes (k.pc + 1)))) ∧
    (s.issues e p c (word 0x16 x.toNat) k → bits x.toNat 5 11 = 0 →
      (∃ t, exec (.shri e p c x 0) s = .next t ∧ s.ctxBecomes t e p c ((k.put32 D (k.word A >>> bits x.toNat 0 5)).goes (k.pc + 1)))) ∧
    (s.issues e p c (word 0x17 x.toNat) k → bits x.toNat 10 6 = 0 → (∃ t, exec (.ext e p c x 0) s = .next t ∧ s.ctxBecomes t e p c ((k.put32 D
      ((k.word A >>> bits x.toNat 5 5) &&& BitVec.ofNat 32 (2 ^ (bits x.toNat 0 5 + 1) - 1))).goes (k.pc + 1)))) ∧
    (s.issues e p c (word 0x18 x.toNat) k →
      ∃ v : Word, (∃ t, exec (.ins e p c x 0) s = .next t ∧ s.ctxBecomes t e p c ((k.put32 D v).goes (k.pc + 1))) ∧
        ∀ j < 32, v.getLsbD j = if bits x.toNat 5 5 ≤ j ∧ j < bits x.toNat 5 5 + bits x.toNat 0 5 + 1
          then (k.word A).getLsbD (j - bits x.toNat 5 5) else (k.word D).getLsbD j)) ∧
  (∀ (s : State) (e : Region) (p : Fin 32) (c : Oct) (x : BitVec 26) (k : PumpCtx) (D A T : Nat), D = bits x.toNat 21 5 → A = bits x.toNat 16 5 →
    T = bits x.toNat 0 14 →
    (bits x.toNat 14 2 = 0 →
      (s.issues e p c (word 0x20 x.toNat) k → (∃ t, exec (.beq e p c x 0) s = .next t ∧
        s.ctxBecomes t e p c (k.goes (if k.word D = k.word A then T else k.pc + 1)))) ∧
      (s.issues e p c (word 0x21 x.toNat) k → (∃ t, exec (.bne e p c x 0) s = .next t ∧
        s.ctxBecomes t e p c (k.goes (if k.word D ≠ k.word A then T else k.pc + 1)))) ∧
      (s.issues e p c (word 0x22 x.toNat) k → (∃ t, exec (.bltu e p c x 0) s = .next t ∧
        s.ctxBecomes t e p c (k.goes (if k.word D < k.word A then T else k.pc + 1)))) ∧
      (s.issues e p c (word 0x23 x.toNat) k → (∃ t, exec (.bgeu e p c x 0) s = .next t ∧
        s.ctxBecomes t e p c (k.goes (if k.word A ≤ k.word D then T else k.pc + 1)))) ∧
      (s.issues e p c (word 0x24 x.toNat) k → (∃ t, exec (.bbs e p c x 0) s = .next t ∧
        s.ctxBecomes t e p c (k.goes (if (k.word D).getLsbD A = true then T else k.pc + 1)))) ∧
      (s.issues e p c (word 0x25 x.toNat) k → (∃ t, exec (.bbc e p c x 0) s = .next t ∧
        s.ctxBecomes t e p c (k.goes (if (k.word D).getLsbD A = false then T else k.pc + 1))))) ∧
    (s.issues e p c (word 0x26 x.toNat) k → bits x.toNat 14 12 = 0 → (∃ t, exec (.jmp e p c x 0) s = .next t ∧ s.ctxBecomes t e p c (k.goes T))) ∧
    (s.issues e p c (word 0x27 x.toNat) k → bits x.toNat 14 7 = 0 → k.pc < 2 ^ 14 →
      (∃ t, exec (.jal e p c x 0) s = .next t ∧ s.ctxBecomes t e p c ((k.put32 D (BitVec.ofNat 32 (k.pc + 1))).goes T))) ∧
    (s.issues e p c (word 0x28 x.toNat) k → D = 0 → bits x.toNat 0 16 = 0 →
      (∃ t, exec (.jr e p c x 0) s = .next t ∧ s.ctxBecomes t e p c (k.goes ((k.word A).toNat % 2 ^ 14)))) ∧
    (s.issues e p c (word 0x3A x.toNat) k → x = 0 → (∃ t, exec (.nop e p c x 0) s = .next t ∧ s.ctxBecomes t e p c (k.goes (k.pc + 1)))) ∧
    (s.issues e p c (word 0x01 x.toNat) k → bits x.toNat 0 11 ≠ 0 → exec (.add e p c x 0) s = .next (s.abandon e p c k 2)) ∧
    (s.issues e p c (word 0x20 x.toNat) k → bits x.toNat 14 2 ≠ 0 → exec (.beq e p c x 0) s = .next (s.abandon e p c k 2)) ∧
    (s.issues e p c (word 0x3A x.toNat) k → x ≠ 0 → exec (.nop e p c x 0) s = .next (s.abandon e p c k 2))) ∧
  (∀ (s : State) (e : Region) (p : Fin 32) (c : Oct) (w : Word) (k : PumpCtx), s.issues e p c w.toNat k → assigned (w.toNat / 2 ^ 26) = false →
    exec (.illegal e p c w 0) s = .next (s.abandon e p c k 1)) ∧
  (∀ (s : State) (e : Region) (p : Fin 32) (c : Oct) (x : BitVec 26) (flt : Fin 3) (k : PumpCtx), s.running = true → s.regionOn e = true →
    s.ctx e p c = some k → k.wait = none → s.inRange e k.look.frame k.pc = false → flt ≠ 2 →
    exec (.add e p c x flt) s = .next (s.abandon e p c k 3)) ∧
  (∀ (s : State) (e : Region) (p : Fin 32) (c : Oct) (x : BitVec 26) (k : PumpCtx), s.running = true → s.regionOn e = true →
    s.ctx e p c = some k → (k.wait.isSome = true ∨ s.storeWord e k.pc = word 0x01 x.toNat) →
    exec (.add e p c x 2) s = .next (s.abandon e p c k 0x11)) ∧
  (∀ (s : State) (e : Region) (p : Fin 32) (c : Oct) (x : BitVec 26) (flt : Fin 3),
    (s.running = false ∨ s.regionOn e = false ∨ s.ctx e p c = none) →
    exec (.add e p c x flt) s = .next s ∧ exec (.jr e p c x flt) s = .next s) ∧
  (∀ (s : State) (e : Region) (p : Fin 32) (c : Oct) (k : PumpCtx) (cause : Nat), s.regsCanon = true → mapCanon none s.ctxs = true →
    k.restarts < s.rf (PMP_CFG.MAX_RESTARTS e) → s.bindBad e k.look.frame = none →
    ∃ k', (s.abandon e p c k cause).ctx e p c = some k' ∧ k'.look = k.look ∧ k'.restarts = k.restarts + 1 ∧
      k'.pc = s.bindEntry e k.look.frame ∧ k'.g = List.replicate 32 0 ∧ k'.issued = 0 ∧ k'.exps = [] ∧ k'.wait = none ∧
      k'.latency = k.latency ∧ k'.since = k.since)

/-- R291, R292, R298 to R302, Table PU-3: the microwords of the windows and of the buffered outputs. LDR, LDM and LDF read the record and
metadata windows; STR and STF write the record window outside the words that R292 keeps; HASH is CRC-32C over its registers; CADD and HADD
add to the record's counters and histogram; RWR, EMIT and VERD buffer their effects until COMMIT. A word that needs the record waits for it; a
fifth HADD and a ninth RWR or EMIT are faults of cause 6, HASH past g31 and EMIT of two words from g31 of cause 7.
Completes: LDR, STR, LDM, LDF, STF, HASH, CADD, HADD, RWR, EMIT, VERD. -/
def Obligations.PumpWindowsAndOutputs : Prop :=
  ∀ (s : State) (e : Region) (p : Fin 32) (c : Oct) (x : BitVec 26) (k : PumpCtx) (D A W : Nat), D = bits x.toNat 21 5 → A = bits x.toNat 16 5 →
    W = bits x.toNat 17 4 →
    (s.issues e p c (word 0x2C x.toNat) k → bits x.toNat 0 17 = 0 → k.winOk = true →
      (∃ t, exec (.ldr e p c x 0) s = .next t ∧ s.ctxBecomes t e p c ((k.put32 D (BitVec.ofNat 32 (recWord k.win W))).goes (k.pc + 1)))) ∧
    (s.issues e p c (word 0x2C x.toNat) k → bits x.toNat 0 17 = 0 → k.winOk = false →
      (∃ t, exec (.ldr e p c x 0) s = .next t ∧ s.ctxBecomes t e p c { k with wait := some (0, 0) })) ∧
    (s.issues e p c (word 0x2D x.toNat) k → bits x.toNat 0 17 = 0 → k.winOk = true → W = 15 → k.win.length = 64 →
      ∃ win, (∃ t, exec (.str e p c x 0) s = .next t ∧
        s.ctxBecomes t e p c ({ k with win := win }.goes (k.pc + 1))) ∧ recWord win 15 = (k.word D).toNat ∧
        ∀ j < 15, recWord win j = recWord k.win j) ∧
    (s.issues e p c (word 0x2D x.toNat) k → bits x.toNat 0 17 = 0 → k.winOk = true → W = 10 → k.win.length = 64 →
      ∃ win, (∃ t, exec (.str e p c x 0) s = .next t ∧ s.ctxBecomes t e p c ({ k with win := win }.goes (k.pc + 1))) ∧
        recWord win 10 = putBits (putBits (recWord k.win 10) 4 5 ((k.word D).toNat / 2 ^ 4)) 12 12 ((k.word D).toNat / 2 ^ 12) ∧
        ∀ j < 16, j ≠ 10 → recWord win j = recWord k.win j) ∧
    (s.issues e p c (word 0x2D x.toNat) k → bits x.toNat 0 17 = 0 → k.winOk = true → (W < 10 ∨ (11 ≤ W ∧ W ≤ 14)) →
      exec (.str e p c x 0) s = .next (s.abandon e p c k 5)) ∧
    (s.issues e p c (word 0x2E x.toNat) k → bits x.toNat 0 17 = 0 → (k.winOk = true ∨ W ≠ 2) →
      (∃ t, exec (.ldm e p c x 0) s = .next t ∧ s.ctxBecomes t e p c ((k.put32 D (BitVec.ofNat 32 (k.md.getD W 0))).goes (k.pc + 1)))) ∧
    (s.issues e p c (word 0x2F x.toNat) k → bits x.toNat 0 7 = 0 → k.winOk = true →
      (∃ t, exec (.ldf e p c x 0) s = .next t ∧ s.ctxBecomes t e p c
        ((k.put32 D (BitVec.ofNat 32 (bits (recWord k.win W) (bits x.toNat 12 5) (bits x.toNat 7 5 + 1)))).goes (k.pc + 1)))) ∧
    (s.issues e p c (word 0x2F x.toNat) k → bits x.toNat 0 6 = 0 → bit x.toNat 6 = true → (k.winOk = true ∨ W ≠ 2) →
      (∃ t, exec (.ldf e p c x 0) s = .next t ∧ s.ctxBecomes t e p c
        ((k.put32 D (BitVec.ofNat 32 (bits (k.md.getD W 0) (bits x.toNat 12 5) (bits x.toNat 7 5 + 1)))).goes (k.pc + 1)))) ∧
    (s.issues e p c (word 0x30 x.toNat) k → bits x.toNat 0 7 = 0 → k.winOk = true → W = 15 → k.win.length = 64 →
      ∃ win, (∃ t, exec (.stf e p c x 0) s = .next t ∧ s.ctxBecomes t e p c ({ k with win := win }.goes (k.pc + 1))) ∧
        recWord win 15 = putBits (recWord k.win 15) (bits x.toNat 12 5) (bits x.toNat 7 5 + 1) (k.word D).toNat % 2 ^ 32 ∧
        ∀ j < 15, recWord win j = recWord k.win j) ∧
    (s.issues e p c (word 0x31 x.toNat) k → bits x.toNat 3 13 = 0 → A + bits x.toNat 0 3 + 1 ≤ 32 →
      (∃ t, exec (.hash e p c x 0) s = .next t ∧ s.ctxBecomes t e p c ((k.put32 D (BitVec.ofNat 32
        (crc32c ((List.range (bits x.toNat 0 3 + 1)).flatMap (fun i => bytesLE 4 (k.r (A + i))))))).goes (k.pc + 1)))) ∧
    (s.issues e p c (word 0x31 x.toNat) k → bits x.toNat 3 13 = 0 → 32 < A + bits x.toNat 0 3 + 1 →
      exec (.hash e p c x 0) s = .next (s.abandon e p c k 7)) ∧
    (s.issues e p c (word 0x32 x.toNat) k → D = 0 → bits x.toNat 1 15 = 0 → k.winOk = true →
      (∃ t, exec (.cadd e p c x 0) s = .next t ∧ s.ctxBecomes t e p c
        ({ k with win := (counterAdd k.win (bit x.toNat 0) (k.r A) k.look.frame.key.bytes).1 }.goes (k.pc + 1)))) ∧
    (s.issues e p c (word 0x33 x.toNat) k → D = 0 → bits x.toNat 1 15 = 0 → k.winOk = true → k.hadds < 4 → recHist k.win ≠ 0 →
      (∃ t, exec (.hadd e p c x 0) s = .next t ∧ s.ctxBecomes t e p c ({ k with hadds := k.hadds + 1, hist := k.hist ++
        [(recHist k.win, histBin (if bit x.toNat 0 then k.latency else k.r A))] }.goes (k.pc + 1)))) ∧
    (s.issues e p c (word 0x33 x.toNat) k → D = 0 → bits x.toNat 1 15 = 0 → k.winOk = true → k.hadds < 4 → recHist k.win = 0 →
      (∃ t, exec (.hadd e p c x 0) s = .next t ∧ s.ctxBecomes t e p c ({ k with hadds := k.hadds + 1 }.goes (k.pc + 1)))) ∧
    (s.issues e p c (word 0x33 x.toNat) k → D = 0 → bits x.toNat 1 15 = 0 → 4 ≤ k.hadds →
      exec (.hadd e p c x 0) s = .next (s.abandon e p c k 6)) ∧
    (s.issues e p c (word 0x34 x.toNat) k → bits x.toNat 0 8 = 0 → 8 ≤ k.rwr.length →
      exec (.rwr e p c x 0) s = .next (s.abandon e p c k 6)) ∧
    (s.issues e p c (word 0x34 x.toNat) k → bits x.toNat 0 8 = 0 → k.rwr.length < 8 →
      (∃ t, exec (.rwr e p c x 0) s = .next t ∧ s.ctxBecomes t e p c ({ k with rwr := k.rwr ++
        [Rwr.mk (bits x.toNat 18 3) (bits x.toNat 10 8) (bytesBE (bits x.toNat 8 2 + 1) (k.r D))] }.goes (k.pc + 1)))) ∧
    (s.issues e p c (word 0x35 x.toNat) k → bits x.toNat 21 3 = 0 → bits x.toNat 1 15 = 0 → bit x.toNat 0 = false → k.exps.length < 8 →
      (∃ t, exec (.emit e p c x 0) s = .next t ∧
        s.ctxBecomes t e p c ({ k with exps := k.exps ++ [ExpEnt.mk (bits x.toNat 24 2) [k.r A]] }.goes (k.pc + 1)))) ∧
    (s.issues e p c (word 0x35 x.toNat) k → bits x.toNat 21 3 = 0 → bits x.toNat 1 15 = 0 → bit x.toNat 0 = true → A ≠ 31 → k.exps.length < 8 →
      (∃ t, exec (.emit e p c x 0) s = .next t ∧
        s.ctxBecomes t e p c ({ k with exps := k.exps ++ [ExpEnt.mk (bits x.toNat 24 2) [k.r A, k.r (A + 1)]] }.goes (k.pc + 1)))) ∧
    (s.issues e p c (word 0x35 x.toNat) k → bits x.toNat 21 3 = 0 → bits x.toNat 1 15 = 0 →
      (8 ≤ k.exps.length → exec (.emit e p c x 0) s = .next (s.abandon e p c k 6)) ∧
      (k.exps.length < 8 → bit x.toNat 0 = true → A = 31 → exec (.emit e p c x 0) s = .next (s.abandon e p c k 7))) ∧
    (s.issues e p c (word 0x36 x.toNat) k → bits x.toNat 21 3 = 0 → bits x.toNat 0 16 = 0 →
      (∃ t, exec (.verd e p c x 0) s = .next t ∧ s.ctxBecomes t e p c
        ({ k with verd := (if bits x.toNat 24 2 = 0 then none else some (bits x.toNat 24 2, k.r A % 2 ^ 10)) }.goes (k.pc + 1))))

/-- R285, R289, R303 to R305, R307, R308, R557: a pass is given to the lowest free context of the next pump of the pool and starts at its binding's ENTRY;
one whose binding entry is read in error is abandoned, again on every start while the error lasts; WAIT
holds a context until its condition is true (WAIT COMMIT ends a verdict pass with its frame held); COMMIT waits for the record and for export
credit, then ends its pass with what it buffered, with a parity error of its context found in the same cycle recorded beside it; FAIL ends it as failed.
Completes: PASS_DISPATCH, WAIT, WAIT_SATISFIED, COMMIT, FAIL. -/
def Obligations.PumpPasses : Prop :=
  (∀ (s : State) (e : Region) (q : PassReq) (rest : List PassReq) (p c : Nat), s.regsCanon = true → mapCanon {} s.engs = true →
    mapCanon none s.ctxs = true → s.running = true → s.regionOn e = true → (s.eng e).passes = q :: rest → s.nextPump e = some (p, c) →
    (∀ h1 b j, s.findRec e q.look.part q.look.key = some (h1, b, j) → s.badRefs e b j = false) →
    s.bindBad e q.look.frame = none →
    ∃ t k, exec (.passDispatch e .good) s = .next t ∧ t.ctx e p c = some k ∧ k.look = q.look ∧ k.verdict = q.verdict ∧
      k.pc = s.bindEntry e q.look.frame ∧ k.issued = 0 ∧ k.g = List.replicate 32 0 ∧ (t.eng e).passes = rest ∧ (t.eng e).rrPump = p ∧
      t = { s with regs := t.regs, evts := t.evts, engs := t.engs, ctxs := t.ctxs } ∧
      ∀ l : BitVec 18, exec (.passDispatch e (.once l)) s = .next (t.abandon e p c k 0x10 (some l.toNat)) ∧
        exec (.passDispatch e (.stuck l)) s =
          .next ((t.withBindErr (mset 0 s.bindErr (bindIx e q.look.frame) (l.toNat + 1))).rebind e p c (s.maxStarts e))) ∧
  (∀ (s : State) (e p c n : Nat) (k : PumpCtx) (l : Nat), s.ctx e p c = some k → s.bindBad e k.look.frame = some l →
    s.rebind e p c (n + 1) = (s.abandonOnce e p c k 0x10 (some l)).rebind e p c n) ∧
  (∀ (s : State) (e : Region) (rd : BindRead), (s.running = false ∨ s.regionOn e = false ∨ (s.eng e).passes = [] ∨ s.nextPump e = none) →
    exec (.passDispatch e rd) s = .next s) ∧
  (∀ (s : State) (e : Region) (p : Fin 32) (c : Oct) (x : BitVec 26) (k : PumpCtx), s.issues e p c (word 0x37 x.toNat) k →
    bits x.toNat 21 1 = 0 → bits x.toNat 2 14 = 0 →
    (bits x.toNat 22 4 = 0 → k.winOk = true → (∃ t, exec (.wait e p c x 0) s = .next t ∧ s.ctxBecomes t e p c (k.goes (k.pc + 1)))) ∧
    (bits x.toNat 22 4 = 0 → k.winOk = false → (∃ t, exec (.wait e p c x 0) s = .next t ∧
      s.ctxBecomes t e p c ({ k with wait := some (0, 0) }.goes (k.pc + 1)))) ∧
    (bits x.toNat 22 4 = 1 → k.verdict = false → (∃ t, exec (.wait e p c x 0) s = .next t ∧ s.ctxBecomes t e p c (k.goes (k.pc + 1)))) ∧
    (bits x.toNat 22 4 = 1 → k.verdict = true →
      ∃ t, exec (.wait e p c x 0) s = .next t ∧ t.ctx e p c = none ∧ t.slots = s.slots ∧ t.eps = s.eps) ∧
    (bits x.toNat 22 4 = 2 → s.credit e k (bits x.toNat 0 2) = true → (∃ t, exec (.wait e p c x 0) s = .next t ∧
      s.ctxBecomes t e p c (k.goes (k.pc + 1)))) ∧
    (bits x.toNat 22 4 = 2 → s.credit e k (bits x.toNat 0 2) = false →
      (∃ t, exec (.wait e p c x 0) s = .next t ∧ s.ctxBecomes t e p c ({ k with wait := some (2, bits x.toNat 0 2) }.goes (k.pc + 1)))) ∧
    (bits x.toNat 22 4 = 3 → k.r (bits x.toNat 16 5) = 0 → (∃ t, exec (.wait e p c x 0) s = .next t ∧ s.ctxBecomes t e p c (k.goes (k.pc + 1)))) ∧
    (bits x.toNat 22 4 = 3 → k.r (bits x.toNat 16 5) ≠ 0 →
      (∃ t, exec (.wait e p c x 0) s = .next t ∧ s.ctxBecomes t e p c ({ k with wait := some (3, 0) }.goes (k.pc + 1))))) ∧
  (∀ (s : State) (e : Region) (p : Fin 32) (c : Oct) (k : PumpCtx) (y : Nat), s.running = true → s.regionOn e = true →
    mapCanon none s.ctxs = true → s.ctx e p c = some k → k.wait = some (3, y) →
    (∃ t, exec (.waitSatisfied e p c) s = .next t ∧ s.ctxBecomes t e p c { k with wait := none })) ∧
  (∀ (s u : State) (e : Region) (p : Fin 32) (c : Oct) (k : PumpCtx) (y : Nat), s.running = true → s.regionOn e = true →
    mapCanon none s.ctxs = true → s.ctx e p c = some k → k.wait = some (0, y) → u = s.readFor e k.look k.verdict →
    ((u.loadWin e k).winOk = true → (∃ t, exec (.waitSatisfied e p c) s = .next t ∧ u.ctxBecomes t e p c { u.loadWin e k with wait := none })) ∧
    ((u.loadWin e k).winOk = false → exec (.waitSatisfied e p c) s = .next u)) ∧
  (∀ (s : State) (e : Region) (p : Fin 32) (c : Oct) (k : PumpCtx) (st : Nat), s.running = true → s.regionOn e = true →
    mapCanon none s.ctxs = true → s.ctx e p c = some k → k.wait = some (2, st) →
    (s.credit e k st = true → (∃ t, exec (.waitSatisfied e p c) s = .next t ∧ s.ctxBecomes t e p c { k with wait := none })) ∧
    (s.credit e k st = false → exec (.waitSatisfied e p c) s = .next s)) ∧
  (∀ (s : State) (e : Region) (p : Fin 32) (c : Oct) (k : PumpCtx), s.ctx e p c = some k → k.wait = none →
    exec (.waitSatisfied e p c) s = .next s) ∧
  (∀ (s : State) (e : Region) (p : Fin 32) (c : Oct) (x : BitVec 26) (flt : Fin 5) (k : PumpCtx), s.issues e p c (word 0x38 x.toNat) k →
    bits x.toNat 2 24 = 0 → bits x.toNat 0 2 ≠ 3 → s.commitTurn e k = true → s.commitReady e k = true →
    (flt ≠ 1 → flt ≠ 2 → exec (.commit e p c x flt) s = .next (s.orWait (s.commitPassNow e p c k (bits x.toNat 0 2) flt))) ∧
    (s.mayChange (s.commitPassNow e p c k (bits x.toNat 0 2) 2) = true →
      exec (.commit e p c x 2) s = .next ((s.commitPassNow e p c k (bits x.toNat 0 2) 2).noteCause e p c k 0x11 none)) ∧
    (s.mayChange (s.commitPassNow e p c k (bits x.toNat 0 2) 2) = false →
      exec (.commit e p c x 2) s = .next ((s.orWait (s.commitPassNow e p c k (bits x.toNat 0 2) 2)).abandon e p c k 0x11)) ∧
    exec (.commit e p c x 1) s = .next (s.abandon e p c k 0x10)) ∧
  (∀ (s : State) (e : Region) (p : Fin 32) (c : Oct) (x : BitVec 26) (k : PumpCtx), s.issues e p c (word 0x38 x.toNat) k →
    bits x.toNat 2 24 = 0 → bits x.toNat 0 2 ≠ 3 → k.winOk = true → s.commitTurn e k = true → s.commitReady e k = false →
    s.regsCanon = true →
    ∃ t, exec (.commit e p c x 0) s = .next t ∧ t.ctx e p c = some { k with wait := some (7, 0) } ∧ t.rf (PMP_ERR.EXPORT_STALL e) = 1 ∧
      t = { s with regs := t.regs, evts := t.evts, ctxs := t.ctxs }) ∧
  (∀ (s : State) (e : Region) (p : Fin 32) (c : Oct) (x : BitVec 26) (k : PumpCtx), s.issues e p c (word 0x38 x.toNat) k →
    bits x.toNat 2 24 = 0 → bits x.toNat 0 2 ≠ 3 → (k.winOk = false ∨ s.commitTurn e k = false) →
    (∃ t, exec (.commit e p c x 0) s = .next t ∧ s.ctxBecomes t e p c { k with wait := some (4, 0) })) ∧
  (∀ (s : State) (e : Region) (p : Fin 32) (c : Oct) (x : BitVec 26) (k : PumpCtx), s.issues e p c (word 0x39 x.toNat) k →
    bits x.toNat 8 18 = 0 → 0x80 ≤ bits x.toNat 0 8 →
    exec (.fail e p c x 0) s = .next (((s.countWord e p c k 1).count (PMP_CNT.COUNT e 4) k.look.frame.key.stroke).failPass e p c k
      (bits x.toNat 0 8)))

/-- R317, R318, R601: the pool keeps at least one pump and none under test, and takes the passes of a pump that leaves it back to the dispatcher;
a pump outside the pool is tested and the test's result reported; a routine's histogram is copied to its window and cleared in one step.
Completes: PMP_POOL_WRITE, PUMP_TEST_START, PUMP_TEST_END, ROUTINE_HIST_COPY. -/
def Obligations.PumpPoolAndTest : Prop :=
  (∀ (s : State) (e : Region), s.regsCanon = true → s.hostOpen = true →
    ∃ t, exec (.pmpPoolWrite e 0) s = .next t ∧ t.rf (PMP_ERR.CFG_REJECT e) = 1 ∧ FieldsKeptEv s t [PMP_ERR.CFG_REJECT e] ∧
      SameButEvents s t) ∧
  (∀ (s : State) (e : Region) (v : Word), s.regsCanon = true → s.hostOpen = true → v ≠ 0 → s.rb (PMP_TEST_STATUS.BUSY e) = false →
    ∃ t, exec (.pmpPoolWrite e v) s = .next t ∧ t.rf (PMP_POOL.IN_POOL e) = v.toNat ∧
      t = { s with regs := t.regs, ctxs := t.ctxs, engs := t.engs }) ∧
  (∀ (s : State) (e : Region) (v : Word), s.regsCanon = true → s.hostOpen = true → bit (s.rf (PMP_POOL.IN_POOL e)) (v.toNat % 32) = false →
    s.rb (PMP_TEST_STATUS.BUSY e) = false →
    ∃ t, exec (.pumpTestStart e v) s = .next t ∧ t.rf (PMP_TEST_STATUS.BUSY e) = 1 ∧ t.rf (PMP_TEST_STATUS.PUMP e) = v.toNat % 32 ∧
      t.rf (PMP_TEST.PUMP e) = v.toNat % 32 ∧
      FieldsKept s t [PMP_TEST_STATUS.BUSY e, PMP_TEST_STATUS.PUMP e, PMP_TEST.PUMP e] ∧ SameButRegs s t) ∧
  (∀ (s : State) (e : Region) (pass : Bool), s.regsCanon = true → s.alive = true → s.rb (PMP_TEST_STATUS.BUSY e) = true →
    ∃ t, exec (.pumpTestEnd e pass) s = .next t ∧ t.rb (PMP_TEST_STATUS.BUSY e) = false ∧ t.rb (PMP_TEST_STATUS.PASS e) = pass ∧
      t.rb (PMP_TEST_STATUS.FAIL e) = !pass ∧ t.pendingBit (regionSrc 0x345 e) = true ∧
      FieldsKeptEv s t [PMP_TEST_STATUS.BUSY e, PMP_TEST_STATUS.PASS e, PMP_TEST_STATUS.FAIL e] ∧ SameButEvents s t) ∧
  (∀ (s : State) (e : Region) (r : BitVec 8) (clear : Bool), s.regsCanon = true → mapCanon 0 s.rtHist = true → s.hostOpen = true →
    ∃ t, exec (.routineHistCopy e (BitVec.ofNat 32 (r.toNat + 256 * b2n clear))) s = .next t ∧ t.rf (PMP_RT_HIST_SEL.READY e) = 1 ∧
      (∀ b < 64, t.rf (PMP_RT_HIST_BIN.COUNT e b) = mget 0 s.rtHist (e * 2 ^ 15 + r.toNat * 128 + b) % 2 ^ 32) ∧
      (∀ b < 128, mget 0 t.rtHist (e * 2 ^ 15 + r.toNat * 128 + b) =
        if clear then 0 else mget 0 s.rtHist (e * 2 ^ 15 + r.toNat * 128 + b)) ∧
      t = { s with regs := t.regs, rtHist := t.rtHist })


/-! ### The switch core and the policers (files 10 and 11) -/

/-- R344, R345, R355, R357: an output's grant goes to its recirculation request, else to the first requesting input at or after its pointer. One
cycle sends one cell of the only frame in progress on the first plane in use and moves that plane's pointers past the match. The
destination counts the cells as they come, and a frame with a cell in error once; the last one enqueues a good frame at its port or replicates
it to its group, and discards one with a cell in error.
Completes: WINDLASS_MATCH, CELL_RECEIVE. -/
def Obligations.WindlassAndCells : Prop :=
  (∀ (g j : Nat) (req : Nat → Bool), g < 8 → j < 8 → grantOf g true req j = some j ∧
    ∀ k, grantOf g false req j = some k ↔ (k < 8 ∧ req k = true ∧ ∀ m < 8, req m = true → (k + 8 - g) % 8 ≤ (m + 8 - g) % 8)) ∧
  (∀ (s : State) (i j : Region) (x : XferX) (p : Nat), s.running = true → s.canon = true → (∀ k, (s.rx k).voq = []) →
    s.wind.xfer = [(i.val * 8 + j.val, x)] → isRecirc i x.ent.frame = false → x.sent + 1 < x.total →
    (List.range 5).find? (bit (s.rf WL_STATUS.PLANES_ACTIVE)) = some p →
    ∃ t, exec (.windlassMatch .none) s = .next t ∧ t.xfer i j = some { x with sent := x.sent + 1 } ∧
      t.rf (WL_CELLS.COUNT i) = (if s.counts x.ent.frame.key.stroke then satAdd (WL_CELLS.COUNT i).width (s.rf (WL_CELLS.COUNT i)) 1
        else s.rf (WL_CELLS.COUNT i)) ∧
      mget 0 t.wind.g (p * 8 + j) = (i + 1) % 8 ∧ mget 0 t.wind.a (p * 8 + i) = (j + 1) % 8 ∧
      t = { s with regs := t.regs, evts := t.evts, wind := t.wind }) ∧
  (∀ (s : State) (i j : Region) (x : XferX), s.regsCanon = true → s.running = true → s.regionRuns j = true → s.xfer i j = some x →
    x.got < x.sent →
    let u := s.ev (112 + j) 0x14 none 1 x.ent.frame.key.stroke x.ent.frame.key.num
    let f := { x.ent.frame with buf := x.buf }
    (x.got + 1 < x.total →
      ∃ t, exec (.cellReceive i j .none) s = .next t ∧ t.xfer i j = some { x with got := x.got + 1 } ∧
        (∀ a b : Region, a * 8 + b ≠ i * 8 + j → t.xfer a b = s.xfer a b) ∧ t = { s with regs := t.regs, evts := t.evts, wind := t.wind }) ∧
    (x.got + 1 < x.total →
      ∃ t, exec (.cellReceive i j .header) s = .next t ∧ t.xfer i j = some { x with got := x.got + 1, bad := true } ∧
        t.rb WL_ERR.CELL_PARITY = true ∧ t.rb CHIP_DET_STATUS.PARITY = true ∧
        t.rf (CIS_CNT.COUNT j 10) = (if !x.bad && s.counts x.ent.frame.key.stroke then satAdd 48 (s.rf (CIS_CNT.COUNT j 10)) 1
          else s.rf (CIS_CNT.COUNT j 10)) ∧
        t = { s with regs := t.regs, evts := t.evts, wind := t.wind, free := t.free }) ∧
    (∀ loc : BitVec 18, x.got + 1 < x.total →
      ∃ t, exec (.cellReceive i j (.data loc)) s = .next t ∧ t.xfer i j = some { x with got := x.got + 1, bad := true } ∧
        t.rb (CIS_ERR.DATA_PARITY j) = true ∧ t.rb CHIP_DET_STATUS.PARITY = true ∧
        t.rf (CIS_CNT.COUNT j 10) = (if !x.bad && s.counts x.ent.frame.key.stroke then satAdd 48 (s.rf (CIS_CNT.COUNT j 10)) 1
          else s.rf (CIS_CNT.COUNT j 10)) ∧
        t = { s with regs := t.regs, evts := t.evts, wind := t.wind }) ∧
    (x.total ≤ x.got + 1 → x.bad = false → ∀ q, f.dest = .port q → q ≠ 528 + j →
      exec (.cellReceive i j .none) s = .next ((u.setXfer i j none).egressFrame j q x.cls f none)) ∧
    (x.total ≤ x.got + 1 → x.bad = false → ∀ g, f.dest = .group g →
      exec (.cellReceive i j .none) s = .next ((u.setXfer i j none).replicate j x.cls g f .none)) ∧
    (x.total ≤ x.got + 1 → x.bad = true →
      exec (.cellReceive i j .none) s = .next (((u.setXfer i j none).copyDone f).loseEg j f 11))) ∧
  (∀ (s : State) (i j : Region) (flt : CellFault), (s.running = false ∨ s.regionRuns j = false ∨ s.xfer i j = none) →
    exec (.cellReceive i j flt) s = .next s) ∧
  (∀ (s : State) (flt : WindlassFault), s.running = false → exec (.windlassMatch flt) s = .next s)

/-- R329, R330, R352 to R354, R367: a buffer of several copies loses one of them; a free of a buffer whose count is 0 is ignored and logged with
handle, requester and reason, and CLEAR empties that log. A frame that no valve, flush or RED holds back joins the end of its egress class
queue, whose average moves towards its depth. RED never acts below MIN and always acts from MAX on.
R338 to R343, R477: a frame released into a queue in spill goes to the sump; the sump writer moves the first waiting frame of a queue into
free live pages and frees its buffer, drops the frame when the pages do not suffice, and discards one whose data is in error (R355); the
reader returns the first sump frame to staging in order, as long as PREFETCH allows, and frees its pages, and discards a flushed one from its
header alone (R337) and one whose data failed. Neither works while the stack changes its rate.
Completes: FREE_LOG_CLEAR, SUMP_WRITE, SUMP_READBACK. -/
def Obligations.BuffersQueuesAndSump : Prop :=
  (∀ (s : State) (n : Region) (h rq : Nat) (b : BufX) (eg : Bool), s.mapsCanon = true → s.bufx n h = b →
    (1 < b.count → b.egress = eg → (s.freeCopy n h rq eg).bufx n h = { b with count := b.count - 1 } ∧
      s.freeCopy n h rq eg = { s with regx := (s.freeCopy n h rq eg).regx }) ∧
    (b.count = 0 → s.regsCanon = true → s.rf (CIS_FREE_LOG_CTRL.VALID n) = 0 → h < 2 ^ 18 → rq < 16 →
      (s.freeCopy n h rq eg).regx = s.regx ∧ (s.freeCopy n h rq eg).rf (CIS_FREE_LOG_CTRL.VALID n) = 1 ∧
      (s.freeCopy n h rq eg).rb (CIS_ERR.FREE_VIOL n) = true ∧
      (s.freeCopy n h rq eg).rf ⟨CIS_FREE_LOG.w n 0, 0, 24⟩ = h + rq * 2 ^ 18 ∧
      (s.freeCopy n h rq eg).pendingBit (regionSrc 0x351 n) = true)) ∧
  (∀ (s : State) (n : Region) (v : Word), s.regsCanon = true → s.hostOpen = true →
    ∃ t, exec (.freeLogClear n v) s = .next t ∧ t.rf (CIS_FREE_LOG_CTRL.VALID n) = 0 ∧ FieldsKept s t [CIS_FREE_LOG_CTRL.VALID n] ∧
      SameButRegs s t) ∧
  (∀ (s : State) (n : Region) (p c : Nat) (f : Frame) (d : List Byte) (q : Nat), q = localOf p * 16 + c → localOf p < 66 → c < 16 →
    s.mapsCanon = true → s.regsCanon = true → (localOf p < 64 → s.rb (pbf PB_PORT_STATUS.DOWN_DISCARD n (localOf p)) = false) → q ∉ (s.rx n).dropV →
    s.rb (CIS_RED_MAP.EN n q) = false → f.bad = false →
    ∃ e, ((s.egressEnqueue n p c f d).egq n q).ents = (s.egq n q).ents ++ [e] ∧ e.frame.data = d ∧ e.frame.key = f.key ∧ e.at_ = s.orderNs ∧
      ((s.egressEnqueue n p c f d).egq n q).avg = redAvg (s.egq n q).avg (mget 0 (s.rx n).eqUnits q) (s.rf (CIS_RED_MAP.WEIGHT n q)) ∧
      bit ((s.egressEnqueue n p c f d).rf (TM_PORT.BACKLOG n (localOf p))) c = true ∧
      s.egressEnqueue n p c f d = { s with regs := (s.egressEnqueue n p c f d).regs, regx := (s.egressEnqueue n p c f d).regx }) ∧
  (∀ (s : State) (n prof avg port : Nat) (k : FKey), (avg < s.rf (CIS_RED_PROF.MIN n prof) * 256 → s.redAct n prof avg port k = false) ∧
    (s.rf (CIS_RED_PROF.MIN n prof) * 256 ≤ avg → s.rf (CIS_RED_PROF.MAX n prof) * 256 ≤ avg → s.redAct n prof avg port k = true)) ∧
  (∀ avg depth w : Nat, min avg (depth * 256) ≤ redAvg avg depth w ∧ redAvg avg depth w ≤ max avg (depth * 256) ∧
    (w = 0 → redAvg avg depth w = depth * 256)) ∧
  (∀ (s : State) (n : Region) (q : BitVec 14) (pre post : List QEnt) (e : QEnt) (room : Nat) (got : List Nat), s.running = true →
    s.regionRuns n = true → s.hbmBusy (n / 2) = false → s.mapsCanon = true →
    (s.queue n q.toNat).ents = pre ++ e :: post → (∀ y ∈ pre, y.place ≠ .toSump) → e.place = .toSump → e.waitCol = false →
    (s.badBuf e = true → s.regsCanon = true → e.frame.buf < 2 ^ 18 → e.frame.bank < 2 → (s.bufx n e.frame.buf).port < 66 →
      (s.bufx n e.frame.buf).cls < 16 →
      ∃ t, exec (.sumpWrite n q) s = .next t ∧ (t.queue n q.toNat).ents = pre ++ post ∧ (t.rx n).pages = (s.rx n).pages ∧
        t.rb (CIS_ERR.DATA_PARITY n) = true ∧ t.rb CHIP_DET_STATUS.PARITY = true) ∧
    (s.badBuf e = false →
    room = (if (s.queue n q.toNat).page.isSome then 4096 - (s.queue n q.toNat).fill else 0) →
    s.pickPages n (s.rx n).pages 0 (s.rf (CIS_SUMP_CFG.SIZE_MIB n) * 256) (cdiv (sumpBytes e.frame - room) 4096) = got →
    (cdiv (sumpBytes e.frame - room) 4096 ≤ got.length →
      ∃ t, exec (.sumpWrite n q) s = .next t ∧
        (∀ ps, ps = (if room = 0 then [] else (s.queue n q.toNat).page.toList) ++ got →
          (t.queue n q.toNat).ents = pre ++
            { e with place := .sump, pages := ps, off := if room = 0 then 0 else (s.queue n q.toNat).fill } :: post) ∧
        (t.rx n).pages = got ++ (s.rx n).pages ∧ (∀ y ∈ got, y ∉ (s.rx n).pages ∧ s.pageLive n y = true) ∧
        ((s.bufx n e.frame.buf).count = 1 → (s.bufx n e.frame.buf).egress = false → t.bufx n e.frame.buf = {}) ∧
        t = { s with regs := t.regs, evts := t.evts, regx := t.regx, outputs := t.outputs, pports := t.pports, hbmPc := t.hbmPc }) ∧
    (got.length < cdiv (sumpBytes e.frame - room) 4096 → s.regsCanon = true → e.frame.buf < 2 ^ 18 → e.frame.bank < 2 →
      (s.bufx n e.frame.buf).port < 66 → (s.bufx n e.frame.buf).cls < 16 →
      ∃ t, exec (.sumpWrite n q) s = .next t ∧ (t.queue n q.toNat).ents = pre ++ post ∧ (t.rx n).pages = (s.rx n).pages ∧
        t.rb (CIS_ERR.SUMP_EXHAUST n) = true ∧ t.rb CHIP_DET_STATUS.SUMP_EXHAUST = true))) ∧
  (∀ (s : State) (n : Region) (q : BitVec 14) (pre post : List QEnt) (e : QEnt), s.running = true → s.regionRuns n = true →
    s.hbmBusy (n / 2) = false → s.mapsCanon = true → (s.queue n q.toNat).ents = pre ++ e :: post → (∀ y ∈ pre, inSump y = false) →
    e.place = .sump → e.lost = false → e.corrupt = false → e.marked = false → e.dropRed = none → s.regionRuns (q.toNat / 68 / 16) = true →
    s.dataFlagged n e = false →
    (pre.filter (fun e => e.place = .cistern)).length < s.rf (CIS_SUMP_CFG.PREFETCH n) →
    (pre.filter (fun e => e.place = .staging)).length < s.rf (CIS_SUMP_CFG.PREFETCH n) →
    ((s.rx n).voq.map (fun p => stagedUnits p.2)).sum + bufUnits e.frame ≤ 1024 →
    (∃ t, exec (.sumpReadback n q false) s = .next t ∧ (t.queue n q.toNat).ents = pre ++ { e with place := .staging } :: post ∧
      (∀ y ∈ (t.rx n).pages, y ∈ (s.rx n).pages) ∧
      (post.any inSump = false → (t.queue n q.toNat).spill = false) ∧ (post.any inSump = true → (t.queue n q.toNat).spill = (s.queue n q.toNat).spill) ∧
      t = { s with regs := t.regs, evts := t.evts, regx := t.regx }) ∧
    (s.regsCanon = true → e.frame.bank < 2 → ∃ t, exec (.sumpReadback n q true) s = .next t ∧ (t.queue n q.toNat).ents = pre ++ post ∧
      t.rb (CIS_ERR.DATA_PARITY n) = true ∧ t.rb CHIP_DET_STATUS.PARITY = true)) ∧
  (∀ (s : State) (n : Region) (q : BitVec 14) (pre post : List QEnt) (e : QEnt) (bad : Bool), s.running = true → s.regionRuns n = true →
    s.hbmBusy (n / 2) = false → s.canon = true → (s.queue n q.toNat).ents = pre ++ e :: post → (∀ y ∈ pre, inSump y = false) →
    e.place = .sump → e.lost = false → e.marked = true → e.frame.bank < 2 →
    ∃ t, exec (.sumpReadback n q bad) s = .next t ∧ (t.queue n q.toNat).ents = pre ++ post ∧
      t.rf (CIS_CNT.COUNT n 7) = (if s.counts e.frame.key.stroke then satAdd 48 (s.rf (CIS_CNT.COUNT n 7)) 1 else s.rf (CIS_CNT.COUNT n 7)) ∧
      t.rb CHIP_DET_STATUS.PARITY = s.rb CHIP_DET_STATUS.PARITY ∧ t.hbmPc = s.hbmPc) ∧
  (∀ (s : State) (n : Region) (q : BitVec 14) (bad : Bool),
    (s.hbmBusy (n / 2) = true ∨ s.running = false ∨ (s.queue n q.toNat).ents.all (fun e => !inSump e) = true) →
    exec (.sumpWrite n q) s = .next s ∧ exec (.sumpReadback n q bad) s = .next s) ∧
  (∀ (s : State) (f : Frame) (d c l : Nat), s.mapsCanon = true → d < 8 → c < 16 → l < 68 → (s.queue f.region (qIndex d c l)).spill = true →
    s.sumpFree f.region = true →
    ∃ e, ((s.enqueue f d c l false).queue f.region (qIndex d c l)).ents = (s.queue f.region (qIndex d c l)).ents ++ [e] ∧ e.place = .toSump ∧
      e.frame.key = f.key ∧ ((s.enqueue f d c l false).queue f.region (qIndex d c l)).spill = true)

/-- R386, R387, R390, R397: a region sends its completed meter slots in key order up to the first open one; a policer region applies its requests
in key order once every region's meter watermark has passed their stroke, after the changes due before them; the algorithm never leaves
more tokens than the bursts, and spends the frame's bytes from the bucket of its colour; a scheduled change is accepted only with its lead
and a free place, and one whose stroke lies in the span of a quiesce waits (R618); a peek captures the buckets.
Completes: METER_REQUEST_SEND, METER_APPLY, POLICER_PUSH, POLICER_CHANGE_APPLY, POLICER_PEEK. -/
def Obligations.PolicerRules : Prop :=
  (∀ (p : Profile) (x : PolX) (len pre t : Nat), pre < 3 →
    let r := meterFrame p x len pre t
    r.1 < 3 ∧ r.2.last = t ∧ r.2.used = true ∧ (x.tc ≤ p.cbs → r.2.tc ≤ p.cbs) ∧ (x.te ≤ p.epbs → r.2.te ≤ p.epbs) ∧
    (p.aware = true → pre ≤ r.1) ∧
    (p.two = false → t ≤ x.last → x.tc ≤ p.cbs → x.te ≤ p.epbs →
      (r.1 = 0 → len * 8000 ≤ x.tc ∧ r.2.tc = x.tc - len * 8000 ∧ r.2.te = x.te) ∧
      (r.1 = 1 → len * 8000 ≤ x.te ∧ r.2.tc = x.tc ∧ r.2.te = x.te - len * 8000) ∧
      (r.1 = 2 → r.2.tc = x.tc ∧ r.2.te = x.te)) ∧
    (p.two = true → t ≤ x.last → x.tc ≤ p.cbs → x.te ≤ p.epbs →
      (r.1 = 0 → r.2.tc = x.tc - len * 8000 ∧ r.2.te = x.te - len * 8000) ∧
      (r.1 = 1 → r.2.tc = x.tc ∧ r.2.te = x.te - len * 8000) ∧ (r.1 = 2 → r.2.tc = x.tc ∧ r.2.te = x.te) ∧
      (x.te < len * 8000 → r.1 = 2))) ∧
  (∀ (s : State) (n j : Region) (k : FKey) (x : MeterSlot) (rest : List MeterSlot) (pol len pre : Nat), s.running = true → s.regionOn n = true →
    s.regionRuns j = true → s.mapsCanon = true → (s.rx n).slots = { key := k, done := true, req := some (j.val, pol, len, pre) } :: x :: rest →
    x.done = false →
    ∃ t, exec (.meterRequestSend n none) s = .next t ∧ (t.rx n).slots = x :: rest ∧ (t.rx n).meterWm = x.key.stroke ∧
      (t.rx j).reqs = insertReq ⟨n, k, pol, len, pre⟩ (s.rx j).reqs ∧ SameButRegs s { t with regx := s.regx }) ∧
  (∀ (s : State) (n : Region) (r : MeterReq) (rest : List MeterReq), s.running = true → s.regionOn n = true → s.mapsCanon = true →
    (s.rx n).reqs = r :: rest → r.pol < 65536 → s.metersPast r.key.stroke true = true → s.rb (TM_POL.EN n r.pol) = false →
    (∀ x ∈ (s.rx n).pushes, strokeLe x.stroke r.key.stroke = false) →
    ∃ t, exec (.meterApply n (.policer .good)) s = .next t ∧ (t.rx n).reqs = rest ∧ (t.rx n).pols = (s.rx n).pols ∧
      (t.rx n).pushes = (s.rx n).pushes ∧
      t = { s with regs := t.regs, evts := t.evts, regx := t.regx }) ∧
  (∀ (s : State) (n : Region) (r : MeterReq) (rest : List MeterReq) (prof : Profile), s.running = true → s.regionOn n = true →
    s.mapsCanon = true → (s.rx n).reqs = r :: rest → r.pol < 65536 → (∀ x ∈ (s.rx n).pushes, strokeLe x.stroke r.key.stroke = false) → s.metersPast r.key.stroke true = true →
    s.rb (TM_POL.EN n r.pol) = true → s.profile n (s.rf (TM_POL.PROFILE n r.pol)) = prof →
    ∃ t, exec (.meterApply n (.policer .good)) s = .next t ∧ (t.rx n).reqs = rest ∧
      mget {} (t.rx n).pols r.pol =
        (meterFrame prof (s.polState n r.pol prof) (r.len + prof.overhead) r.pre (s.strokeTime r.key.stroke)).2 ∧
      (∀ i, i ≠ r.pol → mget {} (t.rx n).pols i = mget {} (s.rx n).pols i) ∧
      t = { s with regs := t.regs, evts := t.evts, regx := t.regx }) ∧
  (∀ (s : State) (n : Region) (r : MeterReq) (rest : List MeterReq), s.regsCanon = true → s.running = true → s.regionOn n = true →
    s.mapsCanon = true → (s.rx n).reqs = r :: rest → (∀ x ∈ (s.rx n).pushes, strokeLe x.stroke r.key.stroke = false) → s.metersPast r.key.stroke true = true →
    ∃ t, exec (.meterApply n .request) s = .next t ∧ (t.rx n).reqs = rest ∧ (t.rx n).pols = (s.rx n).pols ∧
      t.rb (TM_ERR.SLOT_PARITY n) = true ∧ t.rb CHIP_DET_STATUS.PARITY = true ∧ t = { s with regs := t.regs, evts := t.evts, regx := t.regx }) ∧
  (∀ (s : State) (n : Region) (flt : MeterFault), ((s.rx n).reqs = [] ∨ s.running = false ∨ s.regionOn n = false) →
    exec (.meterApply n flt) s = .next s) ∧
  (∀ (s : State) (n : Region) (r : MeterReq) (rest : List MeterReq) (chk : ReadCheck), s.running = true → s.regionOn n = true →
    (s.rx n).reqs = r :: rest →
    (s.metersPast r.key.stroke true = true → exec (.meterApply n (.policer chk)) s =
      .next (((s.pushesTo n r.key.stroke (s.rx n).pushes).setReqs n rest).meterOne n r chk)) ∧
    (s.metersPast r.key.stroke true = false → exec (.meterApply n (.policer chk)) s = .next s)) ∧
  (∀ (s : State) (n : Region) (v : Word), s.regsCanon = true → s.hostOpen = true →
    (leadOk s.strokeNow (s.rf (TM_POL_SCHED_STROKE.STROKE n)) = false →
      ∃ t, exec (.policerPush n v) s = .next t ∧ t.rf (TM_POL_SCHED_STATUS.LAST_RESULT n) = 1 ∧ FieldsKept s t [TM_POL_SCHED_STATUS.LAST_RESULT n] ∧
        SameButRegs s t) ∧
    (leadOk s.strokeNow (s.rf (TM_POL_SCHED_STROKE.STROKE n)) = true → 64 ≤ (s.rx n).pushes.length →
      ∃ t, exec (.policerPush n v) s = .next t ∧ t.rf (TM_POL_SCHED_STATUS.LAST_RESULT n) = 2 ∧ FieldsKept s t [TM_POL_SCHED_STATUS.LAST_RESULT n] ∧
        SameButRegs s t) ∧
    (leadOk s.strokeNow (s.rf (TM_POL_SCHED_STROKE.STROKE n)) = true → (s.rx n).pushes.length < 64 → s.mapsCanon = true →
      ∃ t, exec (.policerPush n v) s = .next t ∧ t.rf (TM_POL_SCHED_STATUS.LAST_RESULT n) = 0 ∧
        t.rf (TM_POL_SCHED_STATUS.QUEUED n) = (s.rx n).pushes.length + 1 ∧
        (t.rx n).pushes = insertPush ⟨s.rf (TM_POL_SCHED_STROKE.STROKE n), s.rf (TM_POL_SCHED_IDX.INDEX n), s.rf (TM_POL_SCHED_IDX.EN n),
          s.rf (TM_POL_SCHED_IDX.PROFILE n)⟩ (s.rx n).pushes ∧ t = { s with regs := t.regs, regx := t.regx })) ∧
  (∀ (s : State) (n : Region) (x : PolPush) (rest : List PolPush), s.regsCanon = true → s.running = true → s.mapsCanon = true → (s.rx n).pushes = x :: rest →
    (s.rx n).reqs = [] → s.inSpan x.stroke = false → s.metersPast x.stroke false = true → strokeLe x.stroke s.strokeNow = true → x.en < 2 → x.prof < 1024 → x.pol < 65536 →
    ∃ t, exec (.policerChangeApply n) s = .next t ∧ (t.rx n).pushes = rest ∧ t.rf (TM_POL.EN n x.pol) = x.en ∧
      t.rf (TM_POL.PROFILE n x.pol) = x.prof ∧
      mget {} (t.rx n).pols x.pol = fullPol (s.profile n x.prof) (s.strokeTime x.stroke) ∧
      FieldsKept s t [TM_POL.EN n x.pol, TM_POL.PROFILE n x.pol, TM_POL_SCHED_STATUS.QUEUED n] ∧ t = { s with regs := t.regs, regx := t.regx }) ∧
  (∀ (s : State) (n : Region) (v : Word) (p : Profile) (x : PolX), s.regsCanon = true → s.hostOpen = true → v.toNat < 65536 →
    s.profile n (s.rf (TM_POL.PROFILE n v.toNat)) = p → s.polState n v.toNat p = x →
    ∃ t, exec (.policerPeek n v) s = .next t ∧ t.rf (TM_POL_PEEK_IDX.INDEX n) = v.toNat ∧
      t.rf (TM_POL_PEEK_TC.BYTES n) = min (x.tc / 8000) (2 ^ 32 - 1) ∧ t.rf (TM_POL_PEEK_TE.BYTES n) = min (x.te / 8000) (2 ^ 32 - 1) ∧
      t.rf (TM_POL_PEEK_LAST.TIME n) = x.last % 2 ^ 32 ∧
      FieldsKept s t [TM_POL_PEEK_IDX.INDEX n, TM_POL_PEEK_TC.BYTES n, TM_POL_PEEK_TE.BYTES n, TM_POL_PEEK_LAST.TIME n] ∧ SameButRegs s t)

/-! ### The traffic manager (file 11) -/

/-- R374, R375, R377, R421, R55, R56: a port serves promoted classes first, then its highest strict class, then by tags, and only an eligible class. The
frame served leaves its queue; a front-panel port sends it, padded to 60 bytes, and frees its buffer; a host channel takes it over for
delivery. A port whose MAC accepts no frame serves none. A class that has been eligible and not selected for STARVE_US is promoted and counted.
R380 to R384, R391, R393: shapers and gate waits leave the wheel at their slot's time and not before. A switch of gate banks is pending until the
first cycle start at least 1 µs ahead, when the bank, its unit, length and cycle become active; a switch that is not allowed is ignored
and marked; the longest windows are computed when a bank becomes active (R383). An entry read in error closes every gate until it is rewritten.
The dipstick visits the 1,056 queues in order, and a copy shows one queue's bins.
Completes: PORT_SELECT, WHEEL_SLOT_DUE, STARVE_PROMOTE, GATE_ENTRY_CHANGE, GATE_SWITCH, GATE_BANK_ACTIVATE, DIPSTICK_SAMPLE, DIPSTICK_COPY. -/
def Obligations.SelectionShapersAndGates : Prop :=
  (∀ (s : State) (n l c st : Nat), s.choose n l = some (c, st) → s.classElig n l c = true) ∧
  (∀ (s : State) (n l q : Nat) (rest : List Nat), (s.rx n).promoted = q :: rest → q / 16 = l → s.classElig n l (q % 16) = true →
    s.choose n l = some (q % 16, 1)) ∧
  (∀ (s : State) (n l c : Nat), (s.rx n).promoted = [] → c < 16 → s.rb (TM_CLASS.STRICT n (l * 16 + c)) = true → s.classElig n l c = true →
    (∀ k, c < k → k < 16 → s.rb (TM_CLASS.STRICT n (l * 16 + k)) = false) → s.choose n l = some (c, 2)) ∧
  (∀ (s : State) (n : Region) (l : Fin 66) (c q : Nat) (cyc : BitVec 11) (e : EgEnt), s.running = true → s.regionOn n = true → s.canon = true →
    c < 16 → q = l * 16 + c → (s.egq n q).ents = [e] → (∀ k < 16, k ≠ c → (s.egq n (l * 16 + k)).ents = []) → s.gated n l = false →
    s.rf (TM_CLASS.RATE n q) = 0 → s.rf (TM_GROUP.RATE n l (s.classGroup n q)) = 0 → s.rf (TM_PORT.RATE n l) = 0 → (s.egq n q).gateWait = none →
    s.portServes n l = true → s.paused n l c = false → s.macReady n l = true → (s.bufx n e.frame.buf).corrupt = false → e.frame.buf < 2 ^ 18 →
    (64 ≤ l.val →
      ∃ t, exec (.portSelect n l cyc .none) s = .next t ∧ (t.egq n q).ents = [] ∧ mget none t.hostRx (2 * n + (l - 64)) = some (e.frame, c) ∧
        bit (t.rf (TM_PORT.BACKLOG n l)) c = false ∧ t = { s with regs := t.regs, evts := t.evts, regx := t.regx, hostRx := t.hostRx }) ∧
    (l.val < 64 → s.lockstep = false → s.tooOld n l e.frame = false → ptpAt e.frame.data = none → e.frame.bad = false → e.frame.tx = none →
      ∃ t, exec (.portSelect n l cyc .none) s = .next t ∧ (t.egq n q).ents = [] ∧
        t.outputs = (if s.farLoop n l then s.outputs else .frame (globalOf n l) (padTo 60 e.frame.data) true :: s.outputs) ∧
        ((s.bufx n e.frame.buf).count = 1 → (s.bufx n e.frame.buf).egress = true → t.bufx n e.frame.buf = {}) ∧
        bit (t.rf (TM_PORT.BACKLOG n l)) c = false ∧ t = { s with regs := t.regs, evts := t.evts, regx := t.regx, outputs := t.outputs, pports := t.pports })) ∧
  (∀ (s : State) (n : Region) (l : Fin 66) (cyc : BitVec 11), s.running = true → s.regionOn n = true → s.gated n l = false →
    s.macReady n l = false → exec (.portSelect n l cyc .none) s = .next (s.fresh n l)) ∧
  (∀ (s : State) (n : Region) (l : Fin 66) (cyc : BitVec 11) (flt : SelectFault), (s.running = false ∨ s.regionOn n = false) →
    exec (.portSelect n l cyc flt) s = .next s) ∧
  (∀ (s : State) (n : Region) (q : BitVec 11), s.regsCanon = true → s.running = true → s.regionOn n = true → s.mapsCanon = true → q.toNat < 1056 →
    s.rf (TM_CLASS.STARVE_US n q.toNat) ≠ 0 → s.classElig n (q.toNat / 16) (q.toNat % 16) = true → (s.egq n q.toNat).wasElig = true →
    (∃ at_, (s.egq n q.toNat).since = some at_ ∧ at_ + s.rf (TM_CLASS.STARVE_US n q.toNat) * 1000 ≤ s.orderNs) → q.toNat ∉ (s.rx n).promoted →
    ∃ t, exec (.starvePromote n q) s = .next t ∧ (t.rx n).promoted = (s.rx n).promoted ++ [q.toNat] ∧ t.rb (TM_CLASS.PROMOTED n q.toNat) = true ∧
      bit (t.rf (TM_PORT.URGENT n (q.toNat / 16))) (q.toNat % 16) = true ∧
      t.rf (TM_CNT.COUNT n 5) = (if s.counts s.strokeNow then satAdd 48 (s.rf (TM_CNT.COUNT n 5)) 1 else s.rf (TM_CNT.COUNT n 5)) ∧
      FieldsKept s t [TM_CLASS.PROMOTED n q.toNat, TM_PORT.URGENT n (q.toNat / 16), TM_CNT.COUNT n 5] ∧ t = { s with regs := t.regs, regx := t.regx }) ∧
  (∀ (s : State) (n : Region) (q : BitVec 11), s.running = true → s.regionOn n = true → s.mapsCanon = true → q.toNat < 1056 →
    (s.classElig n (q.toNat / 16) (q.toNat % 16) = false → exec (.starvePromote n q) s = .next (s.freshClass n (q.toNat / 16) (q.toNat % 16))) ∧
    ((s.egq n q.toNat).wasElig = true → s.starved n q.toNat = false →
      exec (.starvePromote n q) s = .next (s.freshClass n (q.toNat / 16) (q.toNat % 16)))) ∧
  (∀ (s : State) (n : Region) (at_ : Nat), s.running = true → s.regionOn n = true → s.mapsCanon = true → earliest (s.wheelSlots n) = some at_ →
    (at_ ≤ s.orderNs → ∃ t, exec (.wheelSlotDue n) s = .next t ∧ at_ ∉ t.wheelSlots n ∧
      (∀ x, x ≠ at_ → (x ∈ t.wheelSlots n ↔ x ∈ s.wheelSlots n)) ∧ t = { s with regx := t.regx }) ∧
    (s.orderNs < at_ → exec (.wheelSlotDue n) s = .next s)) ∧
  (∀ (b : Bucket) (rate burst len t : Nat), 0 < rate → b.last ≤ t → b.tok ≤ ((burst * 8000 : Nat) : Int) →
    let r := b.spend rate burst len t
    r.tok ≤ ((burst * 8000 : Nat) : Int) ∧ r.last = t ∧ (r.next = none ↔ 0 ≤ r.tok) ∧
    (∀ at_, r.next = some at_ → at_ % 8 = 0 ∧ t < at_ ∧ 0 ≤ r.tok + ((rate * (at_ - t) : Nat) : Int)) ∧
    b.spend 0 burst len t = b) ∧
  (∀ now base cycle : Nat, 0 < cycle → now + 1000 ≤ gateInstant now base cycle ∧ base ≤ gateInstant now base cycle ∧
    (gateInstant now base cycle - base) % cycle = 0 ∧ (gateInstant now base cycle = base ∨ gateInstant now base cycle < now + 1000 + cycle)) ∧
  (∀ (s : State) (n : Region) (l : Fin 66) (v : Word), s.regsCanon = true → s.hostOpen = true →
    (l.val < 64 → s.mapsCanon = true → s.rb (TM_GATE_CTRL.PENDING n l) = false → s.rf (TM_GATE_CTRL.CYCLE_NS n l) ≠ 0 → v.toNat % 512 ≠ 0 →
      ∃ t, exec (.gateSwitch n l v) s = .next t ∧ t.rb (TM_GATE_CTRL.PENDING n l) = true ∧
        (t.gate n l).pendAt = some (gateInstant s.orderNs (s.rf (TM_GATE_CTRL.BASE n l)) (s.rf (TM_GATE_CTRL.CYCLE_NS n l))) ∧
        (t.gate n l).len = min 256 (v.toNat % 512) ∧ (t.gate n l).unit = bits v.toNat 9 2 ∧ (t.gate n l).actBase = (s.gate n l).actBase ∧
        FieldsKept s t [TM_GATE_CTRL.PENDING n l, TM_GATE_CTRL.ADMIN_LEN n l, TM_GATE_CTRL.UNIT n l] ∧ t = { s with regs := t.regs, regx := t.regx }) ∧
    (l.val < 64 → (s.rb (TM_GATE_CTRL.PENDING n l) = true ∨ s.rf (TM_GATE_CTRL.CYCLE_NS n l) = 0 ∨ v.toNat % 512 = 0) →
      ∃ t, exec (.gateSwitch n l v) s = .next t ∧ t.rb (TM_ERR.CFG_IGNORED n) = true ∧ t.regx = s.regx ∧ SameButEvents s t) ∧
    (64 ≤ l.val → ∃ t, exec (.gateSwitch n l v) s = .next t ∧ FieldsKept s t [TM_GATE_CTRL.ADMIN_LEN n l, TM_GATE_CTRL.UNIT n l] ∧ SameButRegs s t)) ∧
  (∀ (s : State) (n : Region) (l : Fin 64) (x : GateX) (at_ : Nat), s.alive = true → s.canon = true → s.gate n l = x → x.pendAt = some at_ →
    (at_ ≤ s.orderNs → x.len ≤ 256 → x.unit < 4 → x.cycle < 2 ^ 32 → (∀ c < 16, (s.egq n (l * 16 + c)).ents = []) →
      ∃ t, exec (.gateBankActivate n l) s = .next t ∧ t.rb (TM_GATE_CTRL.PENDING n l) = false ∧
        t.rf (TM_GATE_CTRL.ACTIVE n l) = 1 - s.rf (TM_GATE_CTRL.ACTIVE n l) ∧ t.rf (TM_GATE_CTRL.ACT_LEN n l) = x.len ∧
        t.rf (TM_GATE_CTRL.ACT_UNIT n l) = x.unit ∧ t.rf (TM_GATE_CTRL.ACT_CYCLE_NS n l) = x.cycle ∧
        (t.gate n l).pendAt = none ∧ (t.gate n l).actBase = x.base ∧
        (t.gate n l).longest = (List.range 16).map (fun c => longestOpen (t.gateSegs n l c)) ∧ t.pendingBit (regionSrc 0x361 n) = true ∧
        FieldsKeptEv s t [TM_GATE_CTRL.PENDING n l, TM_GATE_CTRL.ACTIVE n l, TM_GATE_CTRL.ACT_LEN n l, TM_GATE_CTRL.ACT_UNIT n l,
          TM_GATE_CTRL.ACT_CYCLE_NS n l] ∧
        t = { s with regs := t.regs, evts := t.evts, regx := t.regx }) ∧
    (s.orderNs < at_ → exec (.gateBankActivate n l) s = .next s)) ∧
  (∀ (s : State) (n : Region) (l : Fin 64), (s.gate n l).pendAt = none → exec (.gateBankActivate n l) s = .next s) ∧
  (∀ (s : State) (n : Region) (l : Fin 64), s.regsCanon = true → s.gated n l = true → s.running = true → s.regionOn n = true →
    exec (.gateEntryChange n l none) s = .next (((s.gateDrops n l).fresh n l).gateWaits n l) ∧
    (∀ i : Fin 256, s.mapsCanon = true → (∀ c < 16, (s.egq n (l * 16 + c)).ents = []) →
      ∃ t, exec (.gateEntryChange n l (some i)) s = .next t ∧ l * 512 + s.rf (TM_GATE_CTRL.ACTIVE n l) * 256 + i ∈ (t.rx n).gateBad ∧
        t.rb (TM_ERR.GATE_PARITY n) = true ∧ t.rb CHIP_DET_STATUS.PARITY = true ∧ t = { s with regs := t.regs, evts := t.evts, regx := t.regx })) ∧
  (∀ (s : State) (n : Region) (l : Fin 64) (bad : Option (Fin 256)), s.gated n l = false → exec (.gateEntryChange n l bad) s = .next s) ∧
  (∀ (s : State) (n : Region) (q b : Nat), s.running = true → s.regionOn n = true → s.mapsCanon = true → (s.rx n).dipAt = q →
    histBin (mget 0 (s.rx n).eqUnits q) = b →
    ∃ t, exec (.dipstickSample n) s = .next t ∧ (t.rx n).dipAt = (q + 1) % 1056 ∧ t = { s with regx := t.regx } ∧
      (s.rb (TM_CFG.DIP_EN n) = true → s.counts s.strokeNow = true →
        mget 0 (t.rx n).dip (q * 128 + b) = satAdd 32 (mget 0 (s.rx n).dip (q * 128 + b)) 1 ∧
        (∀ i, i ≠ q * 128 + b → mget 0 (t.rx n).dip i = mget 0 (s.rx n).dip i)) ∧
      ((s.rb (TM_CFG.DIP_EN n) = false ∨ s.counts s.strokeNow = false) → (t.rx n).dip = (s.rx n).dip ∧ (t.rx n).dipMax = (s.rx n).dipMax)) ∧
  (∀ (s : State) (n : Region) (v : Word) (q : Nat), s.regsCanon = true → s.hostOpen = true → s.mapsCanon = true → q = v.toNat % 2048 →
    ∃ t, exec (.dipstickCopy n v) s = .next t ∧ (∀ b < 128, t.rf (TM_DIP_BIN.COUNT n b) = mget 0 (s.rx n).dip (q * 128 + b) % 2 ^ 32) ∧
      t.rf (TM_DIP_MAX.DEPTH n) = mget 0 (s.rx n).dipMax (q * 2) % 2 ^ 17 ∧
      t.rf (TM_DIP_MAX_DELAY.NS n) = mget 0 (s.rx n).dipMax (q * 2 + 1) % 2 ^ 32 ∧ t.rb (TM_DIP_SEL.READY n) = true ∧
      t.rf (TM_DIP_SEL.QUEUE n) = q ∧
      (v.getLsbD 11 = true → ∀ i, mget 0 (t.rx n).dip i = if i / 128 = q then 0 else mget 0 (s.rx n).dip i) ∧
      (v.getLsbD 11 = false → t.regx = s.regx) ∧
      FieldsKept s t ([TM_DIP_SEL.QUEUE n, TM_DIP_SEL.CLEAR n, TM_DIP_SEL.READY n, TM_DIP_MAX.DEPTH n, TM_DIP_MAX_DELAY.NS n] ++
        (List.range 128).map (fun b => TM_DIP_BIN.COUNT n b)) ∧ t = { s with regs := t.regs, regx := t.regx })


/-! ### The wellhead (files 12 and 13) -/

/-- R409 to R415, R443, R469, R472: a doorbell moves the tail of a fetched ring or the head of a written ring to its index; one at a ring that is not
enabled is discarded and marked; a malformed one halts the device with its cause, ring and index. A stray write is discarded, counted and recorded.
R418, R430 to R434: a ring whose context is valid becomes ACTIVE with head and tail at its start index, and one whose context is not stays
DISABLED and is marked; a disable empties a fetched ring's cache and lasts until its begun work is done, and is refused for a written ring still
needed; its other fields are stored while the ring is DISABLED, and a write that would change them in another state is marked; an invalidation,
once complete, has emptied its ring's cache, suspends its fetching and reports where it resumes; a published head is written to host memory.
Completes: DOORBELL, STRAY_WRITE, RING_ENABLE, RING_DISABLE, RING_DISABLE_COMPLETE, RING_INVALIDATE, INVALIDATION_COMPLETE, HEAD_WRITEBACK. -/
def Obligations.DoorbellsAndRings : Prop :=
  (∀ (s : State) (r : RingIx) (v : Word), s.regsCanon = true → s.hostOpen = true →
    (s.ringState r = rsActive ∨ s.ringState r = rsBackpressure) → s.doorbellFault r v.toNat true = none →
    (fetched (s.ringType r) = true →
      ∃ t, exec (.doorbell r v true) s = .next t ∧ t.ringTail r = v.toNat % 2 ^ 17 ∧ t.ringHead r = s.ringHead r ∧
        t.rb (HIF_RING_STATUS.SUSPENDED r) = false ∧ t = { s with regs := t.regs, evts := t.evts }) ∧
    (fetched (s.ringType r) = false → s.canon = true →
      ∃ t, exec (.doorbell r v true) s = .next t ∧ t.ringHead r = v.toNat % 2 ^ 17 ∧
        (s.ringType r ≠ 2 → t.ringTail r = s.ringTail r ∧ t.hostMem = s.hostMem))) ∧
  (∀ (s : State) (r : RingIx) (v : Word) (full : Bool), s.regsCanon = true → s.hostOpen = true →
    (s.ringState r = rsDisabled ∨ s.ringState r = rsDisabling ∨ s.ringState r = rsFault) →
    ∃ t, exec (.doorbell r v full) s = .next t ∧ t.rb HIF_ERR.DB_DISCARD = true ∧ t.ringTail r = s.ringTail r ∧ t.ringHead r = s.ringHead r ∧
      t.pendingBit 0x104 = true ∧ SameButEvents s t) ∧
  (∀ (s : State) (r : RingIx) (v : Word) (full : Bool) (c : Nat), s.regsCanon = true → s.alive = true →
    (s.ringState r = rsActive ∨ s.ringState r = rsBackpressure) → s.doorbellFault r v.toNat full = some c →
    ∃ t, exec (.doorbell r v full) s = .next t ∧ t.halted = true ∧ t.rf CHIP_HALT_CAUSE.CAUSE = c ∧ t.rf HIF_HALT_INFO.RING = r ∧
      t.rf HIF_HALT_INFO.INDEX = v.toNat % 2 ^ 17 ∧ t.rb HIF_HALT_INFO.VALID = true ∧ t.ringTail r = s.ringTail r ∧ t.ringHead r = s.ringHead r) ∧
  (∀ (s : State) (r v : Nat), s.doorbellFault r v false = some 0x14 ∧
    (fetched (s.ringType r) = true → ixDiff (s.ringHead r) (v % 2 ^ 17) < s.ringUsed r → s.doorbellFault r v true = some 0x10) ∧
    (fetched (s.ringType r) = true → s.ringUsed r ≤ s.ringSize r → s.ringSize r < ixDiff (s.ringHead r) (v % 2 ^ 17) →
      s.doorbellFault r v true = some 0x11) ∧
    (fetched (s.ringType r) = false → s.ringUsed r < ixDiff (s.ringHead r) (v % 2 ^ 17) → s.doorbellFault r v true = some 0x12)) ∧
  (∀ (s : State) (bar4 : Bool) (off : BarOffset), s.regsCanon = true → s.hostOpen = true →
    ∃ t, exec (.strayWrite bar4 off) s = .next t ∧ t.rb HIF_ERR.STRAY_WRITE = true ∧ t.pendingBit 0x1F1 = true ∧ t.rb HIF_ACCESS_ERR.VALID = true ∧
      (s.rb HIF_ACCESS_ERR.VALID = false → t.rf HIF_ACCESS_ERR.BAR = (if bar4 then 2 else 1) ∧
        t.rf HIF_ACCESS_ERR.OFFSET = off.toNat % 2 ^ HIF_ACCESS_ERR.OFFSET.width) ∧
      (s.rb HIF_ACCESS_ERR.VALID = true → t.rf HIF_ACCESS_ERR.OFFSET = s.rf HIF_ACCESS_ERR.OFFSET) ∧
      (s.reg CT_STATUS.w = 0 → t.rf (HIF_CNT.COUNT 10) = satAdd 48 (s.rf (HIF_CNT.COUNT 10)) 1) ∧ SameButEvents s t) ∧
  (∀ (s : State) (r : RingIx) (v : Word), s.regsCanon = true → s.hostOpen = true → s.ringState r = rsDisabled →
    (bits v.toNat 1 3 ≤ 4 → bits v.toNat 4 4 ≤ 10 → (fetched (bits v.toNat 1 3) = true → s.ringIs (s.rf (HIF_RING_BIND.CQ r)) 2 = true) →
      s.mapsCanon = true →
      ∃ t, exec (.ringEnable r v) s = .next t ∧ t.ringState r = rsActive ∧ t.ringHead r = s.rf (HIF_RING_START.INDEX r) ∧
        t.ringTail r = s.rf (HIF_RING_START.INDEX r) ∧ t.ringType r = bits v.toNat 1 3 ∧ t.rf (HIF_RING_CTRL.LOG_SIZE r) = bits v.toNat 4 4 ∧
        t.rf (HIF_RING_CTRL.HWB_EN r) = bits v.toNat 8 1 ∧ t.rb (HIF_RING_CTRL.ENABLE r) = true ∧ t.rb (HIF_RING_STATUS.ARMED r) = false ∧
        (∀ q, q ≠ r.val → t.ringX q = s.ringX q) ∧
        FieldsKept s t [HIF_RING_CTRL.ENABLE r, HIF_RING_CTRL.TYPE r, HIF_RING_CTRL.LOG_SIZE r, HIF_RING_CTRL.HWB_EN r, HIF_RING_HEAD.HEAD r,
          HIF_RING_TAIL.TAIL r, HIF_RING_STATUS.STATE r, HIF_RING_STATUS.ARMED r] ∧ t = { s with regs := t.regs, rings := t.rings }) ∧
    ((4 < bits v.toNat 1 3 ∨ 10 < bits v.toNat 4 4 ∨ (fetched (bits v.toNat 1 3) = true ∧ s.ringIs (s.rf (HIF_RING_BIND.CQ r)) 2 = false)) →
      ∃ t, exec (.ringEnable r v) s = .next t ∧ t.ringState r = rsDisabled ∧ t.rb HIF_ERR.CTX_REJECT = true ∧ SameButEvents s t)) ∧
  (∀ (s : State) (r : RingIx) (v : Word), s.regsCanon = true → s.hostOpen = true → s.ringState r ≠ rsDisabled →
    (bits v.toNat 1 8 ≠ bits (s.reg (HIF_RING_CTRL.w r)).toNat 1 8 →
      ∃ t, exec (.ringEnable r v) s = .next t ∧ t.ringState r = s.ringState r ∧ t.rb HIF_ERR.CTX_IGNORED = true ∧ SameButEvents s t) ∧
    (bits v.toNat 1 8 = bits (s.reg (HIF_RING_CTRL.w r)).toNat 1 8 → s.ringState r ≠ rsDisabling → exec (.ringEnable r v) s = .next s)) ∧
  (∀ (s : State) (r : RingIx) (v : Word), s.regsCanon = true → s.hostOpen = true →
    ((s.ringState r = rsActive ∨ s.ringState r = rsBackpressure ∨ s.ringState r = rsFault) → fetched (s.ringType r) = true → s.mapsCanon = true →
      ∃ t, exec (.ringDisable r v) s = .next t ∧ t.ringState r = rsDisabling ∧ t.rb (HIF_RING_CTRL.ENABLE r) = false ∧
        (t.ringX r).entries = [] ∧ t.ringHead r = s.ringHead r ∧ t.ringTail r = s.ringTail r ∧ (∀ q, q ≠ r.val → t.ringX q = s.ringX q) ∧
        (bits v.toNat 1 8 ≠ bits (s.reg (HIF_RING_CTRL.w r)).toNat 1 8 → t.rb HIF_ERR.CTX_IGNORED = true) ∧
        t = { s with regs := t.regs, evts := t.evts, rings := t.rings }) ∧
    (s.ringState r = rsActive → fetched (s.ringType r) = false →
      (s.ringNeeded r = false → ∃ t, exec (.ringDisable r v) s = .next t ∧ t.ringState r = rsDisabled ∧
        t.rb (HIF_RING_CTRL.ENABLE r) = false ∧ t.pendingBit 0x103 = true ∧ (∀ q, q ≠ r.val → t.ringX q = s.ringX q) ∧
        t = { s with regs := t.regs, evts := t.evts, rings := t.rings }) ∧
      (s.ringNeeded r = true → ∃ t, exec (.ringDisable r v) s = .next t ∧ t.ringState r = rsActive ∧ t.rb HIF_ERR.CTX_REJECT = true ∧
        SameButEvents s t)) ∧
    (s.ringState r = rsDisabling →
      (bits v.toNat 1 8 = bits (s.reg (HIF_RING_CTRL.w r)).toNat 1 8 → exec (.ringDisable r v) s = .next s) ∧
      (bits v.toNat 1 8 ≠ bits (s.reg (HIF_RING_CTRL.w r)).toNat 1 8 → ∃ t, exec (.ringDisable r v) s = .next t ∧ t.ringState r = rsDisabling ∧
        t.rb HIF_ERR.CTX_IGNORED = true ∧ SameButEvents s t)) ∧
    (s.ringState r = rsDisabled →
      ∃ t, exec (.ringDisable r v) s = .next t ∧ t.rf (HIF_RING_CTRL.TYPE r) = bits v.toNat 1 3 ∧
        t.rf (HIF_RING_CTRL.LOG_SIZE r) = bits v.toNat 4 4 ∧ t.rf (HIF_RING_CTRL.HWB_EN r) = bits v.toNat 8 1 ∧
        FieldsKept s t [HIF_RING_CTRL.TYPE r, HIF_RING_CTRL.LOG_SIZE r, HIF_RING_CTRL.HWB_EN r] ∧ SameButRegs s t)) ∧
  (∀ (s : State) (r : RingIx), s.canon = true → s.alive = true → s.ringState r = rsDisabling →
    ((s.ringX r).begun = 0 → ∃ t, exec (.ringDisableComplete r) s = .next t ∧ t.ringState r = rsDisabled ∧
      t.rb (HIF_RING_STATUS.SUSPENDED r) = false ∧ t.pendingBit 0x103 = true ∧
      (s.rb (HIF_RING_CTRL.HWB_EN r) = true → natLE (t.hostRead (s.rf (HIF_RING_HWB.ADDR r) * 8) 4) = s.ringHead r) ∧
      (s.rb (HIF_RING_CTRL.HWB_EN r) = false → t.hostMem = s.hostMem) ∧ (∀ q, q ≠ r.val → t.ringX q = s.ringX q) ∧
      t = { s with regs := t.regs, evts := t.evts, rings := t.rings, hostMem := t.hostMem }) ∧
    ((s.ringX r).begun ≠ 0 → exec (.ringDisableComplete r) s = .next s)) ∧
  (∀ (s : State) (v : Word) (r : Nat), s.regsCanon = true → s.hostOpen = true → r = bits v.toNat 0 14 →
    (s.rb HIF_RING_INVAL.BUSY = false → fetched (s.ringType r) = true → (s.ringState r = rsActive ∨ s.ringState r = rsBackpressure) →
      ∃ t, exec (.ringInvalidate v) s = .next t ∧ t.rb HIF_RING_INVAL.BUSY = true ∧ t.rb HIF_RING_INVAL.REFUSED = false ∧
        t.rf HIF_RING_INVAL.RING = r ∧ (t.ringX r).inval = true ∧ (∀ q, q ≠ r → t.ringX q = s.ringX q) ∧
        FieldsKept s t [HIF_RING_INVAL.BUSY, HIF_RING_INVAL.REFUSED, HIF_RING_INVAL.RING] ∧ t = { s with regs := t.regs, rings := t.rings }) ∧
    ((s.rb HIF_RING_INVAL.BUSY = true ∨ fetched (s.ringType r) = false ∨ (s.ringState r ≠ rsActive ∧ s.ringState r ≠ rsBackpressure)) →
      ∃ t, exec (.ringInvalidate v) s = .next t ∧ t.rb HIF_RING_INVAL.REFUSED = true ∧ t.rb HIF_ERR.INVAL_REFUSED = true ∧
        t.rb HIF_RING_INVAL.BUSY = s.rb HIF_RING_INVAL.BUSY ∧ t.rf HIF_RING_INVAL.RING = s.rf HIF_RING_INVAL.RING ∧
        t.rf (HIF_RING_STATUS.SUSPENDED r) = s.rf (HIF_RING_STATUS.SUSPENDED r) ∧ SameButEvents s t)) ∧
  (∀ (s : State) (r : Nat), s.regsCanon = true → s.alive = true → s.rb HIF_RING_INVAL.BUSY = true → r = s.invalRing → r < 2 ^ 14 →
    (s.ringX r).inval = true → fetched (s.ringType r) = true → (s.ringState r = rsActive ∨ s.ringState r = rsBackpressure) → s.mapsCanon = true →
    ∃ t, exec .invalidationComplete s = .next t ∧ (t.ringX r).entries = [] ∧ (t.ringX r).inval = false ∧ (∀ q, q ≠ r → t.ringX q = s.ringX q) ∧
      t.rf (HIF_RING_STATUS.CACHED r) = 0 ∧
      t.rf HIF_INVAL_FROM.INDEX = s.ringHead r ∧ t.rb HIF_RING_INVAL.BUSY = false ∧ t.rb (HIF_RING_STATUS.SUSPENDED r) = true ∧
      FieldsKept s t [HIF_RING_STATUS.CACHED r, HIF_RING_STATUS.SUSPENDED r, HIF_INVAL_FROM.INDEX, HIF_RING_INVAL.BUSY] ∧
      t = { s with regs := t.regs, rings := t.rings }) ∧
  (∀ s : State, s.rb HIF_RING_INVAL.BUSY = false → exec .invalidationComplete s = .next s) ∧
  (∀ (s : State) (r : RingIx), s.alive = true → s.canon = true →
    ((s.ringX r).hwbDue = true → s.rb (HIF_RING_CTRL.HWB_EN r) = true →
      ∃ t, exec (.headWriteback r) s = .next t ∧ natLE (t.hostRead (s.rf (HIF_RING_HWB.ADDR r) * 8) 4) = s.ringHead r ∧
        (t.ringX r).hwbDue = false ∧ (∀ a, a < s.rf (HIF_RING_HWB.ADDR r) * 8 ∨ s.rf (HIF_RING_HWB.ADDR r) * 8 + 4 ≤ a → t.hostByte a = s.hostByte a) ∧
        (∀ q, q ≠ r.val → t.ringX q = s.ringX q) ∧ t = { s with regs := t.regs, evts := t.evts, hostMem := t.hostMem, rings := t.rings }) ∧
    (((s.ringX r).hwbDue = false ∨ s.rb (HIF_RING_CTRL.HWB_EN r) = false) → exec (.headWriteback r) s = .next s))

/-- R417, R419, R420, R435, R436, R449 to R451: a fetch appends to the ring's entries the descriptors that host memory holds behind them, as many as were
asked for and there is room for; a failed one puts the ring into FAULT, also one outstanding when the ring entered BACKPRESSURE (R433). A well-formed
chain that the arbiter grants is consumed and its completion owed; a malformed chain halts the device. Cache copies that differ on use
are reported and discard the cache (R436); differing again at the same entry, the ring enters FAULT. The data of the oldest chain read is presented to the pipeline, or completes with STATUS 2 when
its read failed; without checksum requests the data is sent as it stands.
Completes: DESCRIPTOR_FETCH, TRANSMIT_CHAIN_BEGIN, TRANSMIT_DATA_RETURN. -/
def Obligations.DescriptorsAndChains : Prop :=
  (∀ (s : State) (r : RingIx) (n : Fin 33) (k : Nat) (c new : List (List Nat)), s.regsCanon = true → s.alive = true → s.mapsCanon = true → s.mayFetch r = true →
    k = min n.val (s.fetchable r) → k ≠ 0 → (s.ringX r).entries = c →
    new = (List.range k).map (fun i => s.hostWords (s.ringAddr r (s.ringHead r + c.length + i) 32) 8) →
    ((s.ringType r ≠ 0 ∨ chainFault 0 0 (c ++ new) = none) →
      ∃ t, exec (.descriptorFetch r n .good) s = .next t ∧ (t.ringX r).entries = c ++ new ∧ t.ringHead r = s.ringHead r ∧
        t.rf (HIF_RING_STATUS.CACHED r) = (c ++ new).length - s.frontLen r ∧ (∀ q, q ≠ r.val → t.ringX q = s.ringX q) ∧
        t = { s with regs := t.regs, evts := t.evts, rings := t.rings }) ∧
    (∀ i : Fin 32, i.val < k → (s.ringType r ≠ 0 ∨ chainFault 0 0 (c ++ new) = none) →
      ∃ t, exec (.descriptorFetch r n (.upset i)) s = .next t ∧ (t.ringX r).entries = c ++ new ∧
        (t.ringX r).upset = (s.ringHead r + c.length + i) % 2 ^ 17 :: (s.ringX r).upset ∧ t = { s with regs := t.regs, evts := t.evts, rings := t.rings }) ∧
    (∀ code i, s.ringType r = 0 → chainFault 0 0 (c ++ new) = some (code, i) → code < 256 →
      ∃ t, exec (.descriptorFetch r n .good) s = .next t ∧ t.halted = true ∧ t.rf CHIP_HALT_CAUSE.CAUSE = code ∧
        t.rf HIF_HALT_INFO.RING = r ∧ t.rf HIF_HALT_INFO.INDEX = (s.ringHead r + i) % 2 ^ 17) ∧
    (∃ t, exec (.descriptorFetch r n .failed) s = .next t ∧ t.ringState r = rsFault ∧ t.rb HIF_ERR.FETCH_ERR = true ∧ t.pendingBit 0x102 = true ∧
      t.rings = s.rings ∧ SameButEvents s t)) ∧
  (∀ (s : State) (r : RingIx) (n : Fin 33), s.regsCanon = true → s.alive = true → s.ringState r = rsBackpressure → fetched (s.ringType r) = true →
    n ≠ 0 → s.fetchable r ≠ 0 →
    ∃ t, exec (.descriptorFetch r n .failed) s = .next t ∧ t.ringState r = rsFault ∧ t.rb HIF_ERR.FETCH_ERR = true ∧ t.pendingBit 0x102 = true ∧
      SameButEvents s t) ∧
  (∀ (s : State) (r : RingIx) (n : Fin 33) (res : FetchResult),
    (s.alive = false ∨ n = 0 ∨ s.fetchable r = 0 ∨
      (s.mayFetch r = false ∧ (s.ringState r ≠ rsBackpressure ∨ fetched (s.ringType r) = false ∨ res ≠ .failed))) →
    exec (.descriptorFetch r n res) s = .next s) ∧
  (∀ (s : State) (c : HostCh) (r : Nat) (l : List (List Nat)), s.regsCanon = true → s.running = true → s.chip.quiescing = false → s.mapsCanon = true →
    nextRing (mget 0 s.rrHost c) (s.ringsUsed.filter (fun r => s.chainReady c r)) = some r → chainOf (s.ringX r).entries = some l →
    (s.upsetIn r l.length = none → chainBad l = none →
      ∃ t x, exec (.transmitChainBegin c none) s = .next t ∧ t.txs = s.txs ++ [x] ∧ x.ring = r ∧ x.index = s.ringHead r ∧ x.len = chainLen l ∧
        x.chan = c.val ∧ x.cq = s.rf (HIF_RING_BIND.CQ r) ∧ x.frags = some (l.map (fun e => (entAddr e 2, bits (e.getD 1 0) 0 14))) ∧
        t.ringHead r = (s.ringHead r + l.length) % 2 ^ 17 ∧ (t.ringX r).entries = (s.ringX r).entries.drop l.length ∧
        (t.ringX r).begun = (s.ringX r).begun + 1 ∧ (t.ringX x.cq).owed = (s.ringX x.cq).owed + 1 ∧ mget 0 t.rrHost c = r + 1 ∧
        t = { s with regs := t.regs, rings := t.rings, txs := t.txs, rrHost := t.rrHost }) ∧
    (∀ code i, s.upsetIn r l.length = none → chainBad l = some (code, i) →
      exec (.transmitChainBegin c none) s = .next (s.haltItem code r ((s.ringHead r + i) % 2 ^ 17))) ∧
    (∀ i : Fin 64, i.val < l.length → exec (.transmitChainBegin c (some i)) s = .next (s.cacheMismatch r ((s.ringHead r + i) % 2 ^ 17))) ∧
    (∀ u, s.upsetIn r l.length = some u → exec (.transmitChainBegin c none) s = .next (s.cacheMismatch r u))) ∧
  (∀ (s : State) (r : RingIx) (h : Nat), s.canon = true →
    (h ∉ (s.ringX r).misAt → ((s.cacheMismatch r h).ringX r).entries = [] ∧ ((s.cacheMismatch r h).ringX r).misAt = h :: (s.ringX r).misAt ∧
      (s.cacheMismatch r h).ringState r = s.ringState r) ∧
    (h ∈ (s.ringX r).misAt → (s.cacheMismatch r h).ringState r = rsFault ∧ (s.cacheMismatch r h).rb HIF_ERR.CACHE_FAIL = true ∧
      (s.cacheMismatch r h).pendingBit 0x102 = true ∧ (s.cacheMismatch r h).rings = s.rings) ∧
    (s.cacheMismatch r h).rb HIF_ERR.CACHE_PARITY = true ∧ (s.cacheMismatch r h).rb CHIP_DET_STATUS.PARITY = true ∧
    (s.cacheMismatch r h).ringHead r = s.ringHead r) ∧
  (∀ (s : State) (c : HostCh) (mis : Option (Fin 64)), (s.running = false ∨ s.chip.quiescing = true ∨ s.ringsUsed.filter (fun r => s.chainReady c r) = []) →
    exec (.transmitChainBegin c mis) s = .next s) ∧
  (∀ (s : State) (c : HostCh) (x : TxX) (d : List Byte) (flags : Nat), s.alive = true →
    s.txs.find? (fun x => x.chan = c.val && x.frags.isSome) = some x →
    txChecksums x.csumIp x.csumL4 ((x.frags.getD []).flatMap (fun a => s.hostRead a.1 a.2)) = (d, flags) →
    exec (.transmitDataReturn c false) s = .next (((s.dmaRead x.len (x.ring + x.index * 2 ^ 14)).txMap ⟨x.ring, x.index, x.tsReq⟩
      (fun z => { z with frags := none, flags := flags })).presentHost x d) ∧
    exec (.transmitDataReturn c true) s = .next (((s.dmaRead x.len (x.ring + x.index * 2 ^ 14)).hifErr HIF_ERR.DATA_ERR x.ring).txMap
      ⟨x.ring, x.index, x.tsReq⟩ (fun y => { y with frags := none }.finish 2 0 0))) ∧
  (∀ (s : State) (c : HostCh) (err : Bool), s.txs.all (fun x => x.chan != c.val || x.frags.isNone) = true →
    exec (.transmitDataReturn c err) s = .next s) ∧
  (∀ (s : State) (x : TxX) (d : List Byte), x.chan < 16 → (s.running = false ∨ s.regionRuns (x.chan / 2) = false ∨ s.chip.quiescing = true) →
    ∃ f : Frame, f.data = d ∧ f.key.port = 512 + x.chan ∧ f.region = x.chan / 2 ∧
      s.presentHost x d = (s.count (HIF_CNT.COUNT 4) s.strokeNow).txRefused f) ∧
  (∀ d : List Byte, txChecksums false false d = (d, 0)) ∧
  (∀ (x : TxX) (w2 w3 st : Nat), (x.cpl = none → (x.finish st w2 w3).cpl = some [x.ring + st * 2 ^ 16 + x.flags, x.index, w2, x.len + w3]) ∧
    (x.cpl.isSome = true → x.finish st w2 w3 = x))

/-- R72, R74 to R78, R421, R428, R429, R458, R461, R462: a frame that a host channel has taken is discarded and counted when a filter turns it away, and else
is checked against the wake patterns and delivered to its ring; without a buffer or room for its completions it is counted and dropped, and a failed read of the descriptors
it needs puts its ring into FAULT. A message of a vector that is
masked waits in its pending bit until the vector and the function are unmasked; an armed, non-empty ring whose timer expires sends
one and disarms. A record takes the entries behind its ring's tail. PM_PME is sent again 100 ms after the last one while PME_Status stays 1.
Completes: HOST_RECEIVE, MODERATION_TIMER, VECTOR_UNMASK, EVENT_RECORD_WRITE, PME_REPEAT. -/
def Obligations.HostDeliveryAndMessages : Prop :=
  (∀ (s : State) (ch : HostCh) (f : Frame) (c n k : Nat), s.regsCanon = true → s.alive = true → s.mapsCanon = true → mget none s.hostRx ch = some (f, c) →
    n = ch / 2 → k = ch % 2 →
    (∀ flt, flt ≠ .data → (s.rb (PB_HOST_FILT_CFG.PROMISC n k) = true ∨ (s.vlanPass n k f.data = true ∧ s.addrPass n k f.data = true)) →
      exec (.hostReceive ch flt) s = .next
        (((((s.withHostRx (mset none s.hostRx ch none)).count (PB_HOST_CNT.COUNT n k 0) s.strokeNow).wakeCheck n k f.data).receiveTo ch c f flt).dropEg
          n f 15)) ∧
    (∀ flt, flt ≠ .data → s.rb (PB_HOST_FILT_CFG.PROMISC n k) = false → (s.vlanPass n k f.data = false ∨ s.addrPass n k f.data = false) →
      exec (.hostReceive ch flt) s = .next ((((s.withHostRx (mset none s.hostRx ch none)).count
        (PB_HOST_CNT.COUNT n k (if s.vlanPass n k f.data then 2 else 1)) s.strokeNow).mirrorLost n f).dropEg n f 15)) ∧
    (f.buf < 2 ^ 18 → ∃ t, exec (.hostReceive ch .data) s = .next t ∧ mget none t.hostRx ch = none ∧ t.rb (CIS_ERR.DATA_PARITY n) = true ∧
      t.rb CHIP_DET_STATUS.PARITY = true)) ∧
  (∀ (s : State) (ch : HostCh) (flt : HostRxFault), (mget none s.hostRx ch = none ∨ s.alive = false) → exec (.hostReceive ch flt) s = .next s) ∧
  (∀ (s : State) (ch c r : Nat) (f : Frame), s.steer ch c f = r →
    (∀ flt, s.takesFrames ch r = false → s.receiveTo ch c f flt = (s.count (HIF_CNT.COUNT 8) s.strokeNow).mirrorLost (ch / 2) f) ∧
    (s.takesFrames ch r = true → (s.ringX r).upset = [] → takeBufs f.data.length (s.posted r 64) = none →
      s.receiveTo ch c f .good = (s.fetchPosted r (s.posted r 64).length).noBuf r f (ch / 2)) ∧
    (∀ l, s.takesFrames ch r = true → (s.ringX r).upset = [] → takeBufs f.data.length (s.posted r 64) = some l →
      (s.fetchPosted r l.length).cqFree (s.rf (HIF_RING_BIND.CQ r)) < (l.length : Int) →
      s.receiveTo ch c f .good = (s.fetchPosted r l.length).noCq r f (ch / 2)) ∧
    (s.regsCanon = true → ch < 16 → s.takesFrames ch r = true → (s.ringX r).upset = [] →
      (s.ringX r).entries.length < ((takeBufs f.data.length (s.posted r 64)).map (·.length)).getD (s.posted r 64).length →
      (s.receiveTo ch c f .fetch).ringState r = rsFault ∧ (s.receiveTo ch c f .fetch).rb HIF_ERR.FETCH_ERR = true ∧
        (s.receiveTo ch c f .fetch).hostMem = s.hostMem ∧ (s.receiveTo ch c f .fetch).rings = s.rings)) ∧
  (∀ (s : State) (r : RingIx) (f : Frame) (n : Region), s.regsCanon = true → s.reg CT_STATUS.w = 0 →
    ((s.noBuf r f n).rf (HIF_RING_DROPS.NO_BUF r) = satAdd 16 (s.rf (HIF_RING_DROPS.NO_BUF r)) 1 ∧
      (s.noBuf r f n).rf (HIF_CNT.COUNT 6) = satAdd 48 (s.rf (HIF_CNT.COUNT 6)) 1 ∧ SameButRegs s (s.noBuf r f n)) ∧
    ((s.noCq r f n).rf (HIF_RING_DROPS.NO_CQ r) = satAdd 16 (s.rf (HIF_RING_DROPS.NO_CQ r)) 1 ∧
      (s.noCq r f n).rf (HIF_CNT.COUNT 7) = satAdd 48 (s.rf (HIF_CNT.COUNT 7)) 1 ∧ SameButRegs s (s.noCq r f n))) ∧
  (∀ (len : Nat) (es : List (List Nat)) (l : List (List Nat × Nat)), takeBufs len es = some l →
    (l.map (·.2)).sum = len ∧ l.map (·.1) = es.take l.length ∧ ∀ p ∈ l, p.2 ≤ bits (p.1.getD 1 0) 0 14) ∧
  (∀ (s : State) (r : RingIx) (v : Nat), s.regsCanon = true → s.alive = true → s.mapsCanon = true → (s.ringX r).timer = true → s.rb (HIF_RING_STATUS.ARMED r) = true →
    1 ≤ s.ringUsed r → s.rf (HIF_RING_BIND.VECTOR r) = v →
    ∃ t, exec (.moderationTimer r) s = .next t ∧ (t.ringX r).timer = false ∧ t.rb (HIF_RING_STATUS.ARMED r) = false ∧
      (s.rb (MSIX_CTRL.MASK v) = false → s.cfg.fnMask = false →
        t.outputs = .msi (s.rf (MSIX_ADDR_LO.ADDR v) * 4 + 2 ^ 32 * s.rf (MSIX_ADDR_HI.ADDR v)) (s.rf (MSIX_DATA.DATA v)) :: s.outputs) ∧
      ((s.rb (MSIX_CTRL.MASK v) = true ∨ s.cfg.fnMask = true) →
        (t.reg (MSIX_PBA.w (v / 32))).getLsbD (v % 32) = true ∧ t.outputs = s.outputs) ∧
      t = { s with regs := t.regs, evts := t.evts, rings := t.rings, outputs := t.outputs }) ∧
  (∀ (s : State) (r : RingIx), ((s.ringX r).timer = false ∨ s.alive = false) → exec (.moderationTimer r) s = .next s) ∧
  (∀ (s : State) (v : BitVec 11) (x : Word), s.regsCanon = true → s.hostOpen = true → s.cfg.fnMask = false →
    ((s.reg (MSIX_PBA.w (v.toNat / 32))).getLsbD (v.toNat % 32) = true →
      ∃ t, exec (.vectorUnmask v x) s = .next t ∧ t.rb (MSIX_CTRL.MASK v.toNat) = false ∧
        (t.reg (MSIX_PBA.w (v.toNat / 32))).getLsbD (v.toNat % 32) = false ∧
        t.outputs = .msi (s.rf (MSIX_ADDR_LO.ADDR v.toNat) * 4 + 2 ^ 32 * s.rf (MSIX_ADDR_HI.ADDR v.toNat)) (s.rf (MSIX_DATA.DATA v.toNat)) :: s.outputs ∧
        t = { s with regs := t.regs, evts := t.evts, outputs := t.outputs }) ∧
    ((s.reg (MSIX_PBA.w (v.toNat / 32))).getLsbD (v.toNat % 32) = false →
      ∃ t, exec (.vectorUnmask v x) s = .next t ∧ t.rb (MSIX_CTRL.MASK v.toNat) = false ∧ FieldsKept s t [MSIX_CTRL.MASK v.toNat] ∧ SameButRegs s t)) ∧
  (∀ (s : State) (v : BitVec 11) (x : Word), s.regsCanon = true → s.hostOpen = true → s.cfg.fnMask = true →
    ∃ t, exec (.vectorUnmask v x) s = .next t ∧ t.rb (MSIX_CTRL.MASK v.toNat) = false ∧ FieldsKept s t [MSIX_CTRL.MASK v.toNat] ∧ SameButRegs s t) ∧
  (∀ (s : State) (r : RingIx) (e : EvtRec) (rest : List EvtRec) (i : Nat), s.canon = true → s.alive = true → s.ringIs r 4 = true →
    takeRec (fun e => s.evtRing e.src = some r.val) s.evts = some (e, rest) → e.payload = [] → 1 ≤ s.ringFree r → i = s.ringTail r →
    e.src < 4096 → e.kind < 16 → e.w1 < 2 ^ 32 → e.w2 < 2 ^ 32 → e.w3 < 2 ^ 31 →
    ∃ t, exec (.eventRecordWrite r) s = .next t ∧
      ((∀ k < 8, s.rb (CT_SEL.EN 134 k) = false) → (∀ n < 8, (s.eng n).losses = []) → t.evts = rest ∧ t.engs = s.engs) ∧ t.ringTail r = (i + 1) % 2 ^ 17 ∧
      t.hostWords (s.ringAddr r i 16) 4 = [e.src + e.kind * 2 ^ 16, e.w1, e.w2, e.w3 + s.ringGen r i * 2 ^ 31] ∧
      t = { s with regs := t.regs, evts := t.evts, rings := t.rings, hostMem := t.hostMem, outputs := t.outputs, engs := t.engs }) ∧
  (∀ (s : State) (r : RingIx), (s.ringIs r 4 = false ∨ takeRec (fun e => s.evtRing e.src = some r.val) s.evts = none) →
    exec (.eventRecordWrite r) s = .next s) ∧
  (∀ s : State, (∀ a, s.cfg.pmeStatus = true → s.cfg.pmeAt = some a → a + 100000000 ≤ s.time.tick → s.cfg.power ≠ 4 →
      exec .pmeRepeat s = .next { s with cfg := { s.cfg with pmeAt := some s.time.tick }, outputs := .pme :: s.outputs }) ∧
    ((s.cfg.pmeStatus = false ∨ s.cfg.pmeAt = none ∨ s.cfg.power = 4 ∨ ∃ a, s.cfg.pmeAt = some a ∧ s.time.tick < a + 100000000) → exec .pmeRepeat s = .next s))

/-! ### The HBM controllers (file 14) -/

/-- R479 to R481, R485: requests join their pseudo-channel's queue. A command is issued only while its channel is in service, no rate change is under way
and the retry buffer has room, by the lowest requester that has one ready, but for the scrubber's slot of every 256 in a
range pass, and only when it is legal for the open rows; it enters the retry
buffer, from which the oldest leaves 40 ns after its issue. Maintenance and replay go on while the device is halted (R472). A read whose data is
good leaves the outstanding reads; one whose data fails is reissued once, before the other requests, and logged when it fails again.
R482 to R484, R495, R497: a due refresh of a bank may be postponed while requests wait for it and fewer than the limit are owed, and is else queued
with those owed; the 1 ms reading sets the refresh rate and the hot error; a refresh window empties the activate tables and takes
`HBM_CFG` over; a row that reached its threshold has the rows next to it activated and counts from 0 again.
Completes: HBM_COMMAND_ISSUE, HBM_READ_RETURN, PER_BANK_REFRESH, HBM_TEMP_READ, REFRESH_WINDOW_START, NEIGHBOUR_REFRESH, RETRY_RETIRE. -/
def Obligations.HbmCommandsReadsAndRefresh : Prop :=
  (∀ (s : State) (st : Stack) (q : PseudoCh) (l : List HbmAsk), s.alive = true → s.mapsCanon = true → hcActive ≤ s.chState st (q / 2) →
    s.chState st (q / 2) ≠ hcFenced →
    ((s.takeAsks st q l).hpc st q).queue = (s.hpc st q).queue ++
      (l.filter s.validAsk).map (fun a => { ask := a, left := if a.bucket then 4 else 1 }) ∧
    s.takeAsks st q l = { s with hbmPc := (s.takeAsks st q l).hbmPc }) ∧
  (∀ (s u : State) (st : Stack) (q : PseudoCh) (ready : BitVec 7) (w : HbmSlot) (x : HbmPc) (k : Nat) (l : List HbmReq) (req : Option HbmReq),
    s.alive = true → s.mapsCanon = true → s.takeAsks st q w.asks = u → u.hpc st q = x → s.chState st (q / 2) = hcActive → s.hbmBusy st = false →
    x.retry.length < 64 → 2 ≤ k → k < 7 → ready.getLsbD k = true →
    (((∀ j < k, ready.getLsbD j = false) ∧ (k = 6 ∨ s.passOn st q = false ∨ x.denied < 255 ∨ ready.getLsbD 6 = false)) ∨
      (k = 6 ∧ s.passOn st q = true ∧ 255 ≤ x.denied)) → x.legal w.cmd = true →
    u.hbmServes st q k w.cmd = some (l, req) →
    ∃ t, exec (.hbmCommandIssue st q ready w) s = .next t ∧ (t.hpc st q).retry = x.retry ++ [{ cmd := w.cmd, req := req }] ∧
      (t.hpc st q).queue = l ∧ (w.cmd.op = .act → (t.hpc st q).openRow w.cmd.bank.toNat = some w.cmd.row.toNat) ∧
      (w.cmd.op = .pre → (t.hpc st q).openRow w.cmd.bank.toNat = none) ∧
      (∀ b, b ≠ w.cmd.bank.toNat → (t.hpc st q).openRow b = x.openRow b) ∧
      (t.hpc st q).reads = (if w.cmd.op = .rd then x.reads ++ [(w.cmd, req)] else x.reads) ∧
      t.outputs = .hbm st q (hbmOpNum w.cmd.op) w.cmd.bank.toNat w.cmd.row.toNat :: s.outputs ∧
      (∀ r p : Nat, r * 32 + p ≠ st * 32 + q → t.hpc r p = s.hpc r p) ∧
      t = { s with regs := t.regs, evts := t.evts, hbmPc := t.hbmPc, outputs := t.outputs }) ∧
  (∀ (s : State) (st : Stack) (q : PseudoCh) (ready : BitVec 7) (w : HbmSlot) (m : HbmCmd × Bool) (rest : List (HbmCmd × Bool)),
    (s.alive = true ∨ s.halted = true) → s.mapsCanon = true → s.chState st (q / 2) = hcActive → s.hbmBusy st = false →
    (s.hpc st q).retry.length < 64 → (s.hpc st q).maint = m :: rest →
    (s.passOn st q = false ∨ (s.hpc st q).denied < 255 ∨ ready.getLsbD 6 = false) → ready.getLsbD 0 = true → (s.hpc st q).legal m.1 = true →
    ∃ t, exec (.hbmCommandIssue st q ready w) s = .next t ∧ (t.hpc st q).maint = rest ∧
      (t.hpc st q).retry = (s.hpc st q).retry ++ [{ cmd := m.1, nbr := m.2 }] ∧
      t.outputs = .hbm st q (hbmOpNum m.1.op) m.1.bank.toNat m.1.row.toNat :: s.outputs ∧
      t = { s with regs := t.regs, evts := t.evts, hbmPc := t.hbmPc, outputs := t.outputs }) ∧
  (∀ (s : State) (st : Stack) (q : PseudoCh) (ready : BitVec 7) (w : HbmSlot) (r : RetryEnt) (rest : List RetryEnt), s.regsCanon = true →
    (s.alive = true ∨ s.halted = true) → s.mapsCanon = true → s.chState st (q / 2) = hcReplay → s.hbmBusy st = false →
    (s.hpc st q).retry.length < 64 → (s.hpc st q).replay = r :: rest → ready.getLsbD 1 = true → (s.hpc st q).legal r.cmd = true →
    ∃ t, exec (.hbmCommandIssue st q ready w) s = .next t ∧ (t.hpc st q).replay = rest ∧ (t.hpc st q).retry = (s.hpc st q).retry ++ [r] ∧
      t.outputs = .hbm st q (hbmOpNum r.cmd.op) r.cmd.bank.toNat r.cmd.row.toNat :: s.outputs ∧
      (rest ≠ [] → t.chState st (q / 2) = hcReplay) ∧
      (rest = [] → (∀ p : PseudoCh, p.val / 2 = q.val / 2 → p ≠ q → (s.hpc st p).replay = []) → t.chState st (q / 2) = hcActive)) ∧
  (∀ (s : State) (st : Stack) (q : PseudoCh) (ready : BitVec 7) (w : HbmSlot),
    ((s.alive = false ∧ s.halted = false) ∨ s.hbmBusy st = true ∨ 64 ≤ (s.hpc st q).retry.length ∨
      (s.chState st (q / 2) ≠ hcActive ∧ s.chState st (q / 2) ≠ hcReplay) ∨ ready = 0) →
    exec (.hbmCommandIssue st q ready w) s = .next (s.takeAsks st q w.asks)) ∧
  (∀ (x : HbmPc) (c : HbmCmd), x.legal c = true → (c.op = .rd ∨ c.op = .wr → x.openRow c.bank.toNat = some c.row.toNat) ∧
    (c.op = .act ∨ c.op = .ref → x.openRow c.bank.toNat = none)) ∧
  (∀ (s : State) (st : Stack) (q : PseudoCh), (s.alive = true ∨ s.halted = true) → s.mapsCanon = true →
    ∃ t, exec (.retryRetire st q) s = .next t ∧ (t.hpc st q).retry = (s.hpc st q).retry.drop 1 ∧ (t.hpc st q).rows = (s.hpc st q).rows ∧
      (t.hpc st q).reads = (s.hpc st q).reads ∧ (∀ r p : Nat, r * 32 + p ≠ st * 32 + q → t.hpc r p = s.hpc r p) ∧
      t = { s with hbmPc := t.hbmPc }) ∧
  (∀ (s : State) (st : Stack) (q : PseudoCh) (i : BitVec 8) (c : HbmCmd) (req : Option HbmReq), s.regsCanon = true →
    (s.alive = true ∨ s.halted = true) → s.mapsCanon = true → (s.hpc st q).reads[i.toNat]? = some (c, req) →
    (∃ t, exec (.hbmReadReturn st q i false) s = .next t ∧ (t.hpc st q).reads = (s.hpc st q).reads.eraseIdx i.toNat ∧
      s.hbmColumn c ∉ (t.hpc st q).bad ∧ (req.any (·.again) = false → t = { s with hbmPc := t.hbmPc }) ∧ (req.any (·.again) = true → t.rb CHIP_DET_STATUS.PARITY = true)) ∧
    (req.any (·.again) = false → ∃ t, exec (.hbmReadReturn st q i true) s = .next t ∧
      (t.hpc st q).reads = (s.hpc st q).reads.eraseIdx i.toNat ∧
      (t.hpc st q).queue = (req.map (fun r => { r with again := true })).toList ++ (s.hpc st q).queue ∧
      t.rb (HBM_ERR.DATA_PARITY st) = true ∧ t.rb CHIP_DET_STATUS.PARITY = true ∧
      t.rf (HBM_CH_CNT.PARITY st (q / 2)) = satAdd (HBM_CH_CNT.PARITY st (q / 2)).width (s.rf (HBM_CH_CNT.PARITY st (q / 2))) 1) ∧
    (req.any (·.again) = true → ∃ t, exec (.hbmReadReturn st q i true) s = .next t ∧
      (t.hpc st q).reads = (s.hpc st q).reads.eraseIdx i.toNat ∧ (t.hpc st q).queue = (s.hpc st q).queue ∧
      (req.any (fun r => decide (r.ask.who.val < 6)) = true → s.hbmColumn c ∈ (t.hpc st q).bad) ∧
      t.rb (HBM_ERR.DATA_PARITY_FAIL st) = true ∧ t.rb CHIP_DET_STATUS.PARITY = true)) ∧
  (∀ (s : State) (st : Stack) (q : PseudoCh) (i : BitVec 8) (bad : Bool), (s.hpc st q).reads.length ≤ i.toNat →
    exec (.hbmReadReturn st q i bad) s = .next s) ∧
  (∀ (s : State) (st : Stack) (q : PseudoCh) (post : Bool) (x : HbmPc) (b : Nat), (s.alive = true ∨ s.halted = true) → s.mapsCanon = true →
    s.hpc st q = x → s.chState st (q / 2) = hcActive → b = x.refBank % s.hbmBanks →
    (post = true → (∃ r ∈ x.queue, (s.hbmTarget st q r.ask).1 = b) → mget 0 x.postponed b < bits (s.hctl st).cfg 17 4 →
      ∃ t, exec (.perBankRefresh st q post) s = .next t ∧ mget 0 (t.hpc st q).postponed b = mget 0 x.postponed b + 1 ∧
        (t.hpc st q).maint = x.maint ∧ (t.hpc st q).refBank = (b + 1) % s.hbmBanks ∧ t = { s with hbmPc := t.hbmPc }) ∧
    ((post = false ∨ (∀ r ∈ x.queue, (s.hbmTarget st q r.ask).1 ≠ b) ∨ bits (s.hctl st).cfg 17 4 ≤ mget 0 x.postponed b) →
      ∃ t, exec (.perBankRefresh st q post) s = .next t ∧ mget 0 (t.hpc st q).postponed b = 0 ∧
        (t.hpc st q).maint = x.maint ++ (if (x.openRow b).isSome then [(⟨.pre, BitVec.ofNat 5 b, 0, 0⟩, false)] else []) ++
          List.replicate (mget 0 x.postponed b + 1) (⟨.ref, BitVec.ofNat 5 b, 0, 0⟩, false) ∧
        (t.hpc st q).refBank = (b + 1) % s.hbmBanks ∧ t = { s with hbmPc := t.hbmPc })) ∧
  (∀ (s : State) (st : Stack) (q : PseudoCh) (post : Bool), s.chState st (q / 2) ≠ hcActive →
    exec (.perBankRefresh st q post) s = .next s) ∧
  (∀ (s : State) (st : Stack) (v : Byte), s.regsCanon = true → (s.alive = true ∨ s.halted = true) →
    ∃ t, exec (.hbmTempRead st v) s = .next t ∧ t.rf (HBM_TEMP.TEMP_C st) = v.toNat ∧ t.rb (HBM_TEMP.DOUBLE st) = decide (85 ≤ v.toNat) ∧
      (s.rf (HBM_TEMP.HOT_C st) ≤ v.toNat → t.rb (HBM_ERR.HOT st) = true) ∧
      (s.rf (HBM_TEMP.HOT_C st) ≤ v.toNat → s.rf (HBM_TEMP.TEMP_C st) < s.rf (HBM_TEMP.HOT_C st) → t.pendingBit (0xE12 + st * 0x40) = true) ∧
      (v.toNat < s.rf (HBM_TEMP.HOT_C st) → FieldsKept s t [HBM_TEMP.TEMP_C st, HBM_TEMP.DOUBLE st] ∧ SameButRegs s t) ∧
      t = { s with regs := t.regs, evts := t.evts, free := t.free }) ∧
  (∀ (s : State) (st : Stack), (s.alive = true ∨ s.halted = true) → s.mapsCanon = true →
    ∃ t, exec (.refreshWindowStart st) s = .next t ∧ (∀ q : PseudoCh, t.hpc st q = { s.hpc st q with acts := [] }) ∧
      (∀ (r : Stack) (q : PseudoCh), r ≠ st → t.hpc r q = s.hpc r q) ∧ (t.hctl st).cfg = (s.reg (HBM_CFG.w st)).toNat ∧
      t = { s with hbmPc := t.hbmPc, hbmx := t.hbmx }) ∧
  (∀ (s : State) (st : Stack) (q : PseudoCh) (bank : BitVec 5) (i r k : Nat), s.regsCanon = true → (s.alive = true ∨ s.halted = true) → s.mapsCanon = true →
    findIdx (fun p => decide (bits (s.hctl st).cfg 0 16 ≤ p.2)) (mget [] (s.hpc st q).acts bank.toNat) = some i →
    (mget [] (s.hpc st q).acts bank.toNat)[i]? = some (r, k) → r < 16384 →
    ∃ t, exec (.neighbourRefresh st q bank) s = .next t ∧ (mget [] (t.hpc st q).acts bank.toNat)[i]? = some (r, 0) ∧
      (0 < r → ((⟨.act, bank, BitVec.ofNat 14 (r - 1), 0⟩ : HbmCmd), true) ∈ (t.hpc st q).maint) ∧
      (r + 1 < 16384 → ((⟨.act, bank, BitVec.ofNat 14 (r + 1), 0⟩ : HbmCmd), true) ∈ (t.hpc st q).maint) ∧
      t.rf (HBM_CH_NBR.COUNT st (q / 2)) = satAdd (HBM_CH_NBR.COUNT st (q / 2)).width (s.rf (HBM_CH_NBR.COUNT st (q / 2))) 1 ∧
      t = { s with regs := t.regs, evts := t.evts, hbmPc := t.hbmPc }) ∧
  (∀ (s : State) (st : Stack) (q : PseudoCh) (bank : BitVec 5),
    (∀ p ∈ mget [] (s.hpc st q).acts bank.toNat, p.2 < bits (s.hctl st).cfg 0 16) → exec (.neighbourRefresh st q bank) s = .next s)

/-- R485 to R493, R242, R343, R477: a command-parity alert marks what the retry buffers hold for replay, precharges every bank and puts the channel into
replay, and fences it when a command is marked a third time. A retrain is a series of slices; it ends in service or fenced. A fence takes the
channel out of the live set of both regions of the stack and loses the records and the spare rows in it. A rate change puts the live channels into
self-refresh, all banks precharged and refreshed before (Table HB-1), and ends with the new rate and timing; a channel whose retraining fails in it is fenced.
Completes: CMD_PARITY_ALERT, RETRAIN, RETRAIN_SLICE, FENCE, FREQ_CHANGE_GO, FREQ_CHANGE_COMPLETE. -/
def Obligations.ReplayRetrainFenceFrequency : Prop :=
  (∀ (s : State) (st : Stack) (c : Channel) (a b : HbmPc), s.regsCanon = true → s.alive = true → s.mapsCanon = true → s.hpc st (2 * c) = a →
    s.hpc st (2 * c + 1) = b → (s.chState st c = hcActive ∨ s.chState st c = hcSlice ∨ s.chState st c = hcReplay) →
    (∀ r ∈ a.retry ++ b.retry, r.alerts < 2) →
    ∃ t, exec (.cmdParityAlert st c [] []) s = .next t ∧
      (t.hpc st (2 * c)).replay = replayFrom [] (a.retry.map (fun r => { r with alerts := r.alerts + 1 }) ++ a.replay) ∧
      (t.hpc st (2 * c + 1)).replay = replayFrom [] (b.retry.map (fun r => { r with alerts := r.alerts + 1 }) ++ b.replay) ∧
      (t.hpc st (2 * c)).retry = [preAll] ∧ (t.hpc st (2 * c)).rows = [] ∧ (t.hpc st (2 * c + 1)).retry = [preAll] ∧
      (t.hpc st (2 * c + 1)).rows = [] ∧
      t.chState st c = (if (t.hpc st (2 * c)).replay = [] ∧ (t.hpc st (2 * c + 1)).replay = [] then hcActive else hcReplay) ∧
      t.rb (HBM_ERR.CMD_PARITY st) = true ∧ t.rb CHIP_DET_STATUS.PARITY = true ∧
      t.rf (HBM_CH_CNT.REPLAYS st c) = satAdd (HBM_CH_CNT.REPLAYS st c).width (s.rf (HBM_CH_CNT.REPLAYS st c)) 1 ∧
      t.outputs = .hbm st (2 * c + 1) 6 0 0 :: .hbm st (2 * c) 6 0 0 :: s.outputs ∧
      t = { s with regs := t.regs, evts := t.evts, hbmPc := t.hbmPc, outputs := t.outputs }) ∧
  (∀ (s : State) (st : Stack) (c : Channel) (r : RetryEnt), s.regsCanon = true → s.alive = true → s.mapsCanon = true →
    (s.chState st c = hcActive ∨ s.chState st c = hcSlice ∨ s.chState st c = hcReplay) → (r ∈ (s.hpc st (2 * c)).retry ∨ r ∈ (s.hpc st (2 * c + 1)).retry) →
    2 ≤ r.alerts →
    ∃ t, exec (.cmdParityAlert st c [] []) s = .next t ∧ t.chState st c = hcFenced ∧ t.rf (HBM_CH_STATUS.FENCE_CAUSE st c) = 2) ∧
  (∀ (s : State) (st : Stack) (c : Channel) (passes : List (Bool × Fin 32 × Oct))
    (staged : List (Bool × BitVec 14 × BitVec 48 × BitVec 10 × BitVec 16)), (s.chState st c ≠ hcActive ∧ s.chState st c ≠ hcSlice ∧ s.chState st c ≠ hcReplay) →
    exec (.cmdParityAlert st c passes staged) s = .next s) ∧
  (∀ (s : State) (st : Stack) (c : Channel) (v : Word), s.regsCanon = true → s.hostOpen = true → v.getLsbD 1 = false →
    (s.chState st c = hcActive → s.rb (HBM_CH_STATUS.RETRAINING st c) = false →
      ∃ t, exec (.retrain st c v) s = .next t ∧ t.rb (HBM_CH_STATUS.RETRAINING st c) = true ∧ t.rf (HBM_CH_STATUS.SLICES st c) = 0 ∧
        FieldsKept s t [HBM_CH_STATUS.RETRAINING st c, HBM_CH_STATUS.SLICES st c] ∧ SameButRegs s t) ∧
    ((s.chState st c ≠ hcActive ∨ s.rb (HBM_CH_STATUS.RETRAINING st c) = true) →
      ∃ t, exec (.retrain st c v) s = .next t ∧ t.rb (HBM_ERR.CFG_IGNORED st) = true ∧
        (s.reg (HBM_ERR.w st) = 0 → bits (t.reg (HBM_ERR_LOC.w st)).toNat 0 4 = c) ∧
        FieldsKeptEv s t [HBM_ERR.CFG_IGNORED st, ⟨HBM_ERR_LOC.w st, 0, 32⟩] ∧ t = { s with regs := t.regs, evts := t.evts, free := t.free })) ∧
  (∀ (s : State) (st : Stack) (c : Channel), s.regsCanon = true → (s.alive = true ∨ s.halted = true) →
    (s.rb (HBM_CH_STATUS.RETRAINING st c) = true → s.chState st c = hcActive → s.hbmBusy st = false →
      ∃ t, exec (.retrainSlice st c 0) s = .next t ∧ t.chState st c = hcSlice ∧
        t.rf (HBM_CH_STATUS.SLICES st c) = satAdd 8 (s.rf (HBM_CH_STATUS.SLICES st c)) 1 ∧
        FieldsKept s t [HBM_CH_STATUS.STATE st c, HBM_CH_STATUS.SLICES st c] ∧ SameButRegs s t) ∧
    (s.rb (HBM_CH_STATUS.RETRAINING st c) = true → s.chState st c = hcSlice →
      (∃ t, exec (.retrainSlice st c 1) s = .next t ∧ t.chState st c = hcActive ∧ t.rb (HBM_CH_STATUS.RETRAINING st c) = true ∧
        FieldsKept s t [HBM_CH_STATUS.STATE st c] ∧ SameButRegs s t) ∧
      (∃ t, exec (.retrainSlice st c 2) s = .next t ∧ t.chState st c = hcActive ∧ t.rb (HBM_CH_STATUS.RETRAINING st c) = false ∧
        t.pendingBit (0xE00 + st * 0x40 + c) = true ∧ SameButEvents s t) ∧
      (∃ t, exec (.retrainSlice st c 3) s = .next t ∧ t.chState st c = hcFenced ∧ t.rf (HBM_CH_STATUS.FENCE_CAUSE st c) = 1 ∧
        t.rb (HBM_CH_STATUS.RETRAINING st c) = false)) ∧
    (s.rb (HBM_CH_STATUS.RETRAINING st c) = false → ∀ w, exec (.retrainSlice st c w) s = .next s)) ∧
  (∀ (s : State) (st : Stack) (c : Channel) (v : Word), s.regsCanon = true → s.hostOpen = true → v.getLsbD 0 = false →
    (s.chState st c ≠ 0 → s.chState st c ≠ hcFenced → s.mapsCanon = true →
      ∃ t, exec (.fence st c v) s = .next t ∧ t.chState st c = hcFenced ∧ t.rf (HBM_CH_STATUS.FENCE_CAUSE st c) = 3 ∧
        t.hpc st (2 * c) = {} ∧ t.hpc st (2 * c + 1) = {} ∧ t.rf (HBM_SPARE_LEFT.ROWS st (2 * c)) = 0 ∧
        t.rf (HBM_SPARE_LEFT.ROWS st (2 * c + 1)) = 0 ∧ bit (t.rf (HBM_STATUS.LIVE_CH st)) c = false ∧
        (∀ n : Region, n / 2 = st.val → t.rf (FE_PC_LIVE.LIVE n) = pcsOf (t.rf (HBM_STATUS.LIVE_CH st))) ∧
        (∀ k, (slotIn (2 * st) c k = true ∨ slotIn (2 * st + 1) c k = true) → mget 0 t.slots k = 0) ∧
        t.rb (HBM_ERR.FENCED st) = true ∧ t.pendingBit (0xE00 + st * 0x40 + c) = true) ∧
    ((s.chState st c = 0 ∨ s.chState st c = hcFenced) → exec (.fence st c v) s = .next s)) ∧
  (∀ (s : State) (st : Stack) (v : Word), s.regsCanon = true → s.hostOpen = true →
    (s.hbmBusy st = false → (∀ c < 16, s.chState st c ≠ hcSlice) → bits v.toNat 0 2 ≠ 0 → s.mapsCanon = true →
      ∃ t, exec (.freqChangeGo st v) s = .next t ∧ t.hbmBusy st = true ∧ t.rf (HBM_FREQ_CTRL.TARGET st) = bits v.toNat 0 2 ∧
        (t.hctl st).rateTo = bits v.toNat 0 2 ∧
        (∀ c : Channel, bit (s.rf (HBM_STATUS.LIVE_CH st)) c = true → t.chState st c = hcSelfref ∧ (t.hpc st (2 * c)).rows = [] ∧
          (t.hpc st (2 * c)).retry = []) ∧
        (∀ c : Channel, bit (s.rf (HBM_STATUS.LIVE_CH st)) c = false → t.chState st c = s.chState st c) ∧
        t = { s with regs := t.regs, evts := t.evts, hbmPc := t.hbmPc, hbmx := t.hbmx, outputs := t.outputs }) ∧
    ((s.hbmBusy st = true ∨ (∃ c : Channel, s.chState st c = hcSlice) ∨ bits v.toNat 0 2 = 0) →
      ∃ t, exec (.freqChangeGo st v) s = .next t ∧ t.rf (HBM_FREQ_CTRL.RESULT st) = 1 ∧ t.rb (HBM_ERR.CFG_IGNORED st) = true ∧
        t.hbmBusy st = s.hbmBusy st ∧ t = { s with regs := t.regs, evts := t.evts, free := t.free })) ∧
  (∀ (s : State) (st : Stack) (fail : BitVec 16) (us : Byte), s.regsCanon = true → s.alive = true → s.hbmBusy st = true →
    (∀ c : Channel, s.chState st c = hcSelfref → fail.getLsbD c = false) → (s.hctl st).rateTo < 4 →
    ∃ t, exec (.freqChangeComplete st fail us) s = .next t ∧ t.hbmBusy st = false ∧ t.rf (HBM_STATUS.RATE st) = (s.hctl st).rateTo ∧
      t.rf (HBM_FREQ_CTRL.RESULT st) = 0 ∧ t.rf (HBM_FREQ_CTRL.STAY_US st) = us.toNat ∧ t.reg (HBM_TIMING0.w st) = s.reg (HBM_TIMING_SHADOW0.w st) ∧
      t.reg (HBM_TIMING3.w st) = s.reg (HBM_TIMING_SHADOW3.w st) ∧
      (∀ c : Channel, t.chState st c = (if s.chState st c = hcSelfref then
          (if (s.hpc st (2 * c)).replay = [] ∧ (s.hpc st (2 * c + 1)).replay = [] then hcActive else hcReplay) else s.chState st c)) ∧
      t.pendingBit (0xE11 + st * 0x40) = true ∧ SameButEvents s t) ∧
  (∀ (s : State) (st : Stack) (fail : BitVec 16) (us : Byte) (c : Channel), s.canon = true → s.alive = true → s.hbmBusy st = true →
    s.chState st c = hcSelfref → fail.getLsbD c = true →
    ∃ t, exec (.freqChangeComplete st fail us) s = .next t ∧ t.hbmBusy st = false ∧ t.chState st c = hcFenced ∧
      t.rf (HBM_CH_STATUS.FENCE_CAUSE st c) = 1 ∧ t.rf (HBM_FREQ_CTRL.RESULT st) = 2) ∧
  (∀ (s : State) (st : Stack) (fail : BitVec 16) (us : Byte), s.hbmBusy st = false → exec (.freqChangeComplete st fail us) s = .next s)

/-! ### The redundancy pair (file 16) -/

/-- R532 to R536, R546, R547, R549: a line that becomes held closes the transmit gate at once, which ends the frames in progress, and puts an Active
device into standby; a release opens a standalone device's gate and may start a claim; a claim drives the line, takes a lockstep standby off the
ledger, and is confirmed or withdrawn with a back-off 1 µs later. A stuck or chattering line is marked, and chatter is treated as held until it
ends. While the device is halted, only the level of the line is noted.
Completes: PAIR_HOLD_IN_CHANGE, RELEASE_TIMER_EXPIRY, PAIR_CLAIM, CLAIM_CONFIRM, CLAIM_BACKOFF_EXPIRY, HOLD_STUCK, HOLD_CHATTER, CHATTER_HOLD_END. -/
def Obligations.PairInterlock : Prop :=
  (∀ s : State, s.regsCanon = true → s.halted = false → s.pairx.heldIn = false →
    (s.pairRuns = true → s.pairState = 1 →
      ∃ t, exec (.pairHoldInChange true) s = .next t ∧ t.pairx.heldIn = true ∧ t.rb PAIR_STATUS.HOLD_IN = true ∧ t.rb PAIR_STATUS.GATE = false ∧
        t.rb PAIR_STATUS.HOLD_OUT = false ∧ t.pairState = 2 ∧ t.rb PAIR_ERR.CONFLICT = true ∧ t.pairx.yieldAt = none ∧ t.pendingBit 0xF10 = true ∧
        t.outputs = (if s.rb PAIR_STATUS.GATE then .gateClosed :: s.outputs else s.outputs) ∧
        t = { s with regs := t.regs, evts := t.evts, pairx := t.pairx, outputs := t.outputs }) ∧
    ((s.pairRuns = false ∨ s.pairState ≠ 1) →
      ∃ t, exec (.pairHoldInChange true) s = .next t ∧ t.rb PAIR_STATUS.HOLD_IN = true ∧ t.rb PAIR_STATUS.GATE = false ∧
        FieldsKept s t [PAIR_STATUS.HOLD_IN, PAIR_STATUS.GATE] ∧
        t = { s with regs := t.regs, pairx := { s.pairx with heldIn := true, released := false },
                     outputs := (if s.rb PAIR_STATUS.GATE then .gateClosed :: s.outputs else s.outputs) })) ∧
  (∀ s : State, s.regsCanon = true → s.halted = false → s.pairx.heldIn = true →
    ∃ t, exec (.pairHoldInChange false) s = .next t ∧ t.rb PAIR_STATUS.HOLD_IN = s.pairx.chatter ∧ FieldsKept s t [PAIR_STATUS.HOLD_IN] ∧
      t = { s with regs := t.regs, pairx := { s.pairx with heldIn := false } }) ∧
  (∀ (s : State) (h : Bool), s.halted = true → s.pairx.heldIn ≠ h →
    exec (.pairHoldInChange h) s = .next { s with pairx := { s.pairx with heldIn := h, released := s.pairx.released && !h } }) ∧
  (∀ (s : State) (h : Bool), s.pairx.heldIn = h → exec (.pairHoldInChange h) s = .next s) ∧
  (∀ s : State, s.regsCanon = true → s.halted = false → s.lineHeld = false →
    (s.pairRuns = true → s.pairState = 0 → s.rb PAIR_STATUS.HOLD_OUT = true → s.pairx.claiming = false →
      ∃ t, exec .releaseTimerExpiry s = .next t ∧ t.rb PAIR_STATUS.GATE = true ∧ FieldsKept s t [PAIR_STATUS.GATE] ∧
        t = { s with regs := t.regs, pairx := { s.pairx with released := true } }) ∧
    (s.pairRuns = true → s.pairState = 2 → s.rb PAIR_STATUS.HOLD_OUT = false → (s.rb PAIR_STATUS.LINK = false ∨ s.pairx.peerHolding = false) →
      s.pairx.claiming = false → s.pairx.backoff = false → s.pairx.acked = false → s.rb CHIP_STROKE_CFG.SRC_LEDGER = false →
      ∃ t, exec .releaseTimerExpiry s = .next t ∧ t.rb PAIR_STATUS.HOLD_OUT = s.rb PAIR_CFG.AUTO_TAKEOVER ∧ FieldsKept s t [PAIR_STATUS.HOLD_OUT] ∧
        t = { s with regs := t.regs, pairx := { s.pairx with released := true, claiming := s.rb PAIR_CFG.AUTO_TAKEOVER } }) ∧
    (s.pairRuns = false → exec .releaseTimerExpiry s = .next { s with pairx := { s.pairx with released := true } })) ∧
  (∀ s : State, (s.halted = true ∨ s.lineHeld = true) → exec .releaseTimerExpiry s = .next s) ∧
  (∀ (s : State) (v : Word), s.regsCanon = true → s.hostOpen = true → bits v.toNat 1 2 = 0 →
    (s.mayClaim = true → s.pairState = 2 → s.rb CHIP_STROKE_CFG.SRC_LEDGER = false →
      ∃ t, exec (.pairClaim v) s = .next t ∧ t.rb PAIR_STATUS.HOLD_OUT = true ∧ FieldsKept s t [PAIR_STATUS.HOLD_OUT] ∧
        t = { s with regs := t.regs, pairx := { s.pairx with claiming := true } }) ∧
    (s.mayClaim = true → s.pairState = 3 → s.rb CHIP_STROKE_CFG.SRC_LEDGER = true → s.pairx.yieldAt = none → s.pairx.held = [] →
      ∃ t, exec (.pairClaim v) s = .next t ∧ t.rb PAIR_STATUS.HOLD_OUT = true ∧ t.rb CHIP_STROKE_CFG.SRC_LEDGER = false ∧
        FieldsKept s t [PAIR_STATUS.HOLD_OUT, CHIP_STROKE_CFG.SRC_LEDGER] ∧
        t = { s with regs := t.regs, pairx := { s.pairx with claiming := true, recs := [], floor := some s.ownFrom, ledNext := some s.ownFrom,
                                                             ownSince := some s.time.tick } }) ∧
    ((s.mayClaim = false ∨ s.pairState = 0) → exec (.pairClaim v) s = .next s)) ∧
  (∀ s : State, s.regsCanon = true → s.pairRuns = true → s.pairx.claiming = true →
    (s.lineHeld = false → s.pairState = 0 → ∃ t, exec .claimConfirm s = .next t ∧ t.rb PAIR_STATUS.GATE = true ∧
      FieldsKept s t [PAIR_STATUS.GATE] ∧ t = { s with regs := t.regs, pairx := { s.pairx with claiming := false } }) ∧
    (s.lineHeld = false → s.pairState ≠ 0 → ∃ t, exec .claimConfirm s = .next t ∧ t.rb PAIR_STATUS.GATE = true ∧ t.pairState = 1 ∧
      t.rb CHIP_STROKE_CFG.SRC_LEDGER = (s.rb CHIP_STROKE_CFG.SRC_LEDGER && s.pairx.yieldAt.isSome) ∧ t.pairx.claiming = false ∧
      t.pairx.recs = (if s.rb CHIP_STROKE_CFG.SRC_LEDGER then s.pairx.recs else []) ∧ t.pendingBit 0xF10 = true ∧
      t = { s with regs := t.regs, evts := t.evts, pairx := t.pairx }) ∧
    (s.lineHeld = true → ∃ t, exec .claimConfirm s = .next t ∧ t.rb PAIR_STATUS.GATE = false ∧ t.rb PAIR_STATUS.HOLD_OUT = false ∧
      t.rb PAIR_ERR.CLAIM_FAIL = true ∧ t.pairState = s.pairState ∧ t.rb CHIP_STROKE_CFG.SRC_LEDGER = decide (s.pairMode = 3) ∧
      t = { s with regs := t.regs, evts := t.evts, pairx := { s.pairx with claiming := false, backoff := true },
                   outputs := (if s.rb PAIR_STATUS.GATE then .gateClosed :: s.outputs else s.outputs) })) ∧
  (∀ s : State, (s.pairRuns = false ∨ s.pairx.claiming = false) → exec .claimConfirm s = .next s) ∧
  (∀ s : State, s.pairRuns = true → s.pairx.backoff = true → s.pairState = 2 → s.pairx.acked = false → s.rb PAIR_CFG.AUTO_TAKEOVER = false →
    exec .claimBackoffExpiry s = .next { s with pairx := { s.pairx with backoff := false } }) ∧
  (∀ s : State, (s.pairRuns = false ∨ s.pairx.backoff = false) → exec .claimBackoffExpiry s = .next s) ∧
  (∀ s : State, s.regsCanon = true → (s.pairRuns = true → s.pairx.heldIn = true → s.rb PAIR_STATUS.LINK = true → s.pairx.peerHolding = false →
      ∃ t, exec .holdStuck s = .next t ∧ t.rb PAIR_ERR.HOLD_STUCK = true ∧ FieldsKeptEv s t [PAIR_ERR.HOLD_STUCK] ∧ SameButEvents s t) ∧
    ((s.pairRuns = false ∨ s.pairx.heldIn = false ∨ s.rb PAIR_STATUS.LINK = false ∨ s.pairx.peerHolding = true) → exec .holdStuck s = .next s)) ∧
  (∀ s : State, s.regsCanon = true → (s.pairRuns = true → ∃ t, exec .holdChatter s = .next t ∧ t.pairx.chatter = true ∧
      t.rb PAIR_STATUS.HOLD_IN = true ∧ t.rb PAIR_STATUS.GATE = false ∧ t.rb PAIR_ERR.HOLD_CHATTER = true ∧ (s.pairState = 1 → t.pairState = 2) ∧
      t.outputs = (if s.rb PAIR_STATUS.GATE then .gateClosed :: s.outputs else s.outputs) ∧
      t = { s with regs := t.regs, evts := t.evts, pairx := t.pairx, outputs := t.outputs }) ∧
    (s.pairRuns = false → exec .holdChatter s = .next s)) ∧
  (∀ s : State, s.regsCanon = true → (s.pairx.chatter = true → s.halted = false → ∃ t, exec .chatterHoldEnd s = .next t ∧
      t.rb PAIR_STATUS.HOLD_IN = s.pairx.heldIn ∧ FieldsKept s t [PAIR_STATUS.HOLD_IN] ∧
      t = { s with regs := t.regs, pairx := { s.pairx with chatter := false } }) ∧
    ((s.pairx.chatter = false ∨ s.halted = true) → exec .chatterHoldEnd s = .next s))

/-- R530, R531, R538, R539, R541, R542: a HELLO carries the pair state, the line, preference, health, stroke and fingerprint under the next SEQ; one that
is received brings the link up and shows the peer's state, and a differing fingerprint is a mismatch. A frame with another EtherType is no pair
frame, and one with a bad FCS is dropped. The active sends the record of each stroke that every port's stamping has passed; a lockstep standby
takes the records of consecutive strokes, and loses lockstep at a gap, at a lost link and when a held frame has waited LEDGER_LAG_US. A pair
link in quiet leaves it before it sends (R123). The little-endian bodies are the model's choice (log entry 222).
Completes: HELLO_SEND, HELLO_RECEIVE, PAIR_LINK_TIMEOUT, LEDGER_SEND, LEDGER_RECEIVE, LEDGER_LAG_TIMEOUT. -/
def Obligations.PairHelloAndLedger : Prop :=
  (∀ s : State, s.regsCanon = true → s.pairRuns = true → s.pairLanes = true →
    s.rb (LANE_PORT_STATUS.TX_QUIET 8 0) = false → s.farLoop 8 0 = false →
    ∃ t, exec .helloSend s = .next t ∧ t.outputs = .pair (pairFrame 1 s.pairx.txSeq (bytesLE 1 (s.pairState + 8 * s.rf PAIR_STATUS.HOLD_OUT +
        16 * s.rf PAIR_CFG.PREFERRED + 32 * b2n s.isHealthy) ++ bytesLE 6 s.strokeNow ++ bytesLE 4 s.fprint)) :: s.outputs ∧
      t.pairx.txSeq = (s.pairx.txSeq + 1) % 2 ^ 32 ∧ t.rb PAIR_STATUS.HEALTHY = s.isHealthy ∧
      FieldsKept s t [PAIR_STATUS.HEALTHY, PAIR_STATUS.HOLDOFF_LEFT] ∧ t = { s with regs := t.regs, pairx := t.pairx, outputs := t.outputs }) ∧
  (∀ s : State, s.pairRuns = false → exec .helloSend s = .next s) ∧
  (∀ (s : State) (kind : Nat) (body : List Byte), s.regsCanon = true → s.pairLanes = true →
    (s.rb (LANE_PORT_STATUS.TX_QUIET 8 0) = true → s.farLoop 8 0 = false →
      (s.sendPair kind body).outputs = .pair (pairFrame kind s.pairx.txSeq body) :: .quiet 1024 2 :: s.outputs ∧
      (s.sendPair kind body).rb (LANE_PORT_STATUS.TX_QUIET 8 0) = false) ∧
    (s.rb (LANE_PORT_STATUS.TX_QUIET 8 0) = false → s.farLoop 8 0 = true → (s.sendPair kind body).outputs = s.outputs)) ∧
  (∀ (s : State) (h : HelloRx), s.regsCanon = true → s.pairRuns = true → s.pairLanes = true → h.check.etherType = 0x88B5 →
    (h.check.fcs = true → s.pairx.held = [] →
      ∃ t, exec (.helloReceive h) s = .next t ∧ t.rb PAIR_STATUS.LINK = true ∧ t.rf PAIR_STATUS.PEER_STATE = h.state.toNat ∧
        t.pairx.peerStroke = h.stroke.toNat ∧ t.pairx.peerPrint = h.fprint.toNat ∧ t.pairx.peerHolding = h.holding ∧
        (h.fprint.toNat ≠ s.fprint → t.rb PAIR_ERR.CFG_MISMATCH = true) ∧
        ((∀ q, s.pairx.rxSeq = some q → (q + 1) % 2 ^ 32 = h.seq.toNat) →
          t.pairx.rxSeq = (if h.fprint.toNat ≠ s.fprint ∧ s.pairMode = 3 then none else some h.seq.toNat) ∧
          (h.fprint.toNat ≠ s.fprint → s.pairMode = 3 → t.rb PAIR_ERR.LS_LOST = true ∧ t.pairState = 2 ∧
            (s.reg PAIR_ERR.w = 0 → t.rf PAIR_ERR_LOC.CAUSE = 5))) ∧
        (∀ q, s.pairx.rxSeq = some q → (q + 1) % 2 ^ 32 ≠ h.seq.toNat → s.pairMode = 3 → t.rb PAIR_ERR.LS_LOST = true ∧ t.pairState = 2 ∧
          (s.reg PAIR_ERR.w = 0 → t.rf PAIR_ERR_LOC.CAUSE = 1))) ∧
    (h.check.fcs = false → exec (.helloReceive h) s = .next (s.ev 136 0x12 none 1 s.strokeNow (s.strokeNow * 2 ^ 32)))) ∧
  (∀ (s : State) (h : HelloRx), (s.pairRuns = false ∨ s.pairLanes = false ∨ h.check.etherType ≠ 0x88B5) → exec (.helloReceive h) s = .next s) ∧
  (∀ s : State, s.regsCanon = true → s.pairRuns = true → s.rb PAIR_STATUS.LINK = true → s.pairx.held = [] →
    ∃ t, exec .pairLinkTimeout s = .next t ∧ t.rb PAIR_STATUS.LINK = false ∧ t.pairx.hello = false ∧ t.pairx.rxSeq = none ∧
      (s.pairMode = 3 → t.pairState = 2 ∧ t.rb PAIR_ERR.LS_LOST = true)) ∧
  (∀ s : State, (s.pairRuns = false ∨ s.rb PAIR_STATUS.LINK = false) → exec .pairLinkTimeout s = .next s) ∧
  (∀ (s : State) (k : Nat), s.pairx.ledNext = some k →
    (s.pairRuns = true → s.sendsLedger = true → s.rb CHIP_STROKE_CFG.SRC_LEDGER = false → s.pairLanes = true → s.stampsDone k = true →
      s.rb (LANE_PORT_STATUS.TX_QUIET 8 0) = false → s.farLoop 8 0 = false →
      ∃ t, exec .ledgerSend s = .next t ∧
        t.outputs = .pair (pairFrame 2 s.pairx.txSeq (ledgerBytes (ledOf k s.pairx.led))) :: s.outputs ∧
        t.pairx.ledNext = some ((k + 1) % 2 ^ 48) ∧ (∀ y ∈ t.pairx.led, y ∈ s.pairx.led ∧ y.stroke ≠ k) ∧
        t = { s with regs := t.regs, evts := t.evts, pairx := t.pairx, outputs := t.outputs }) ∧
    ((s.pairRuns = false ∨ s.sendsLedger = false ∨ s.rb CHIP_STROKE_CFG.SRC_LEDGER = true ∨ s.pairLanes = false ∨ s.stampsDone k = false) →
      exec .ledgerSend s = .next s)) ∧
  (∀ (s : State) (k p : Nat), s.stampsDone k = true → strokeLt k s.strokeNow = true ∧
    (p < 512 → s.regionRuns (p / 64) = true → s.portWidth (p / 64) (p % 64) ≠ 0 → strokeLt k (s.heldStroke p s.cellCycles) = true)) ∧
  (∀ (s : State) (seq : BitVec 32) (r : LedgerRec), s.regsCanon = true → s.pairRuns = true → s.pairLanes = true →
    (∀ q, s.pairx.rxSeq = some q → (q + 1) % 2 ^ 32 = seq.toNat) → s.pairx.joinAt = none →
    (s.rb CHIP_STROKE_CFG.SRC_LEDGER = true → r.stroke.toNat = (s.rf PAIR_LAST_LEDGER.STROKE + 1) % 2 ^ 48 → r.lossy = false →
      s.pairx.held = [] → s.pairx.recs = [] → ledgerSlots r ≠ [] →
      ∃ t, exec (.ledgerReceive {} seq [r]) s = .next t ∧ t.rf PAIR_LAST_LEDGER.STROKE = r.stroke.toNat ∧
        t.pairx.rxSeq = some seq.toNat ∧ t.pairx.recs = [⟨r.stroke.toNat, r.fcsd.toNat, 0xFFFFFFFF, ledgerSlots r⟩] ∧
        t.pairx.arrived = s.pairx.arrived.filter (fun p => (List.range 8).any (fun n => s.regionRuns n && strokeLe (s.wm n) p.1)) ++
          [(r.stroke.toNat, s.time.tick)] ∧
        t.pairx = { s.pairx with rxSeq := t.pairx.rxSeq, recs := t.pairx.recs, arrived := t.pairx.arrived } ∧
        t = { s with regs := t.regs, evts := t.evts, pairx := t.pairx }) ∧
    (s.rb CHIP_STROKE_CFG.SRC_LEDGER = true → (r.stroke.toNat ≠ (s.rf PAIR_LAST_LEDGER.STROKE + 1) % 2 ^ 48 ∨ r.lossy = true) → s.pairState ≠ 1 →
      ∃ t, exec (.ledgerReceive {} seq [r]) s = .next t ∧ t.pairState = 2 ∧ t.rb PAIR_ERR.LS_LOST = true ∧ t.pairx.held = [] ∧ t.pairx.recs = [] ∧
        (s.reg PAIR_ERR.w = 0 →
          t.rf PAIR_ERR_LOC.CAUSE = (if r.stroke.toNat = (s.rf PAIR_LAST_LEDGER.STROKE + 1) % 2 ^ 48 then 3 else 1)) ∧ t.pendingBit 0xF12 = true) ∧
    (s.rb CHIP_STROKE_CFG.SRC_LEDGER = false →
      ∃ t, exec (.ledgerReceive {} seq [r]) s = .next t ∧ t.rf PAIR_LAST_LEDGER.STROKE = s.rf PAIR_LAST_LEDGER.STROKE ∧
        t = { s with regs := t.regs, evts := t.evts, pairx := { s.pairx with rxSeq := some seq.toNat } })) ∧
  (∀ s : State, s.regsCanon = true → (∀ h, s.pairRuns = true → s.rb CHIP_STROKE_CFG.SRC_LEDGER = true → s.pairState ≠ 1 → h ∈ s.pairx.held →
      h.at_ + 1000 * s.rf PAIR_TIMER_CFG.LEDGER_LAG_US ≤ s.time.tick →
      ∃ t, exec .ledgerLagTimeout s = .next t ∧ t.pairState = 2 ∧ t.rb PAIR_ERR.LS_LOST = true ∧ t.pairx.held = [] ∧
        t.pairx.ownSince = some s.time.tick ∧ t.pairx.coldFrom = some s.incomplete ∧
        (s.reg PAIR_ERR.w = 0 → t.rf PAIR_ERR_LOC.CAUSE = 4)) ∧
    ((s.pairRuns = false ∨ s.rb CHIP_STROKE_CFG.SRC_LEDGER = false ∨
        ∀ h ∈ s.pairx.held, s.time.tick < h.at_ + 1000 * s.rf PAIR_TIMER_CFG.LEDGER_LAG_US) → exec .ledgerLagTimeout s = .next s))

/-- R543 to R548, R553: the active sends the sums of each closed digest period; a standby compares them with its own and loses lockstep at a difference
from the enforced stroke on. A join, a yield and their strokes change the pair states as Table RD-4 says; a reversion waits for its hold-off and
its acknowledgement. A table capture writes every endpoint slot of every running region at the stroke it was armed for.
Completes: DIGEST_SEND, DIGEST_RECEIVE, DIGEST_TIMEOUT, PAIR_JOIN, JOIN_STROKE_REACHED, PAIR_YIELD, YIELD_REQ, YIELD_ACK, HANDOVER_STROKE,
REVERT_TIMEOUT, HOLDOFF_EXPIRY, PAIR_CAP_ARM, TABLE_CAPTURE. -/
def Obligations.PairDigestsJoinAndHandover : Prop :=
  (∀ (s : State) (k : Nat), s.pairx.digNext = some k →
    (s.pairRuns = true → s.sendsLedger = true → s.pairLanes = true → s.digClosed k = true →
      s.rb (LANE_PORT_STATUS.TX_QUIET 8 0) = false → s.farLoop 8 0 = false →
      ∃ t, exec .digestSend s = .next t ∧
        t.outputs = .pair (pairFrame 3 s.pairx.txSeq (bytesLE 6 k ++ (s.digSums k).flatMap (bytesLE 8))) :: s.outputs ∧
        t.pairx.digNext = some ((k + 1) % 2 ^ 38) ∧ (∀ p ∈ t.digs, p ∈ s.digs ∧ strokeLt (1024 * k) (1024 * (p.1 / 16)) = true) ∧
        t = { s with pairx := t.pairx, outputs := t.outputs, digs := t.digs }) ∧
    ((s.pairRuns = false ∨ s.sendsLedger = false ∨ s.pairLanes = false ∨ s.digClosed k = false) → exec .digestSend s = .next s)) ∧
  (∀ (s : State) (seq : BitVec 32) (period : BitVec 48) (sums : List (BitVec 64)), s.pairRuns = true → s.pairLanes = true →
    (∀ q, s.pairx.rxSeq = some q → (q + 1) % 2 ^ 32 = seq.toNat) →
    (s.pairMode = 3 → s.pairx.peerDigs = [] → s.digClosed period.toNat = false →
      exec (.digestReceive {} seq period sums) s = .next
        { s with pairx := { s.pairx with rxSeq := some seq.toNat, peerDigs := [(period.toNat, sums.map (·.toNat))] } }) ∧
    (s.pairMode = 3 → s.pairx.peerDigs = [] → s.digClosed period.toNat = true →
      exec (.digestReceive {} seq period sums) s = .next
        (({ s with pairx := { s.pairx with rxSeq := some seq.toNat } } : State).digCompare period.toNat (sums.map (·.toNat)) false)) ∧
    (s.pairMode ≠ 3 → exec (.digestReceive {} seq period sums) s = .next { s with pairx := { s.pairx with rxSeq := some seq.toNat } })) ∧
  (∀ (s : State) (k : Nat) (sums : List Nat) (rest : List (Nat × List Nat)), s.regsCanon = true → s.pairRuns = true → s.pairMode = 3 →
    s.pairx.peerDigs = (k, sums) :: rest →
    (s.digClosed k = true → sums = s.digSums k →
      ∃ t, exec .digestTimeout s = .next t ∧ t.pairx = { s.pairx with peerDigs := rest } ∧
        t.rf PAIR_DIGEST_CNT.PERIODS = (s.rf PAIR_DIGEST_CNT.PERIODS + 1) % 2 ^ PAIR_DIGEST_CNT.PERIODS.width ∧
        FieldsKept s t [PAIR_DIGEST_CNT.PERIODS] ∧ t = { s with regs := t.regs, pairx := t.pairx, digs := t.digs }) ∧
    ((s.digClosed k = false ∨ ∃ i, i < 16 ∧ (s.digSums k).getD i 0 ≠ sums.getD i 0) →
      (strokeLe s.pairx.enforce (1024 * k % 2 ^ 48) = true → ∃ t, exec .digestTimeout s = .next t ∧ t.pairState = 2 ∧
        t.rb PAIR_ERR.LS_LOST = true ∧ (s.reg PAIR_ERR.w = 0 → t.rf PAIR_ERR_LOC.CAUSE = 7)) ∧
      (strokeLe s.pairx.enforce (1024 * k % 2 ^ 48) = false → ∃ t, exec .digestTimeout s = .next t ∧ t.pairState = s.pairState ∧
        t.rf PAIR_DIGEST_CNT.MISMATCHES = satAdd PAIR_DIGEST_CNT.MISMATCHES.width (s.rf PAIR_DIGEST_CNT.MISMATCHES) 1))) ∧
  (∀ s : State, (s.pairx.peerDigs = [] ∨ s.pairRuns = false ∨ s.pairMode ≠ 3) → exec .digestTimeout s = .next s) ∧
  (∀ (s : State) (v : Word), s.regsCanon = true → s.hostOpen = true → bits v.toNat 0 2 = 0 →
    (s.pairRuns = true → s.pairState = 2 → s.rf PAIR_CFG.MODE = 2 → s.rb PAIR_STATUS.LINK = true → s.pairx.peerPrint = s.fprint →
      s.rf PAIR_STATUS.PEER_STATE = 1 → leadOk s.pairx.peerStroke (s.rf PAIR_JOIN_STROKE.STROKE) = true →
      exec (.pairJoin v) s = .next { s with pairx := { s.pairx with joinAt := some (s.rf PAIR_JOIN_STROKE.STROKE) } }) ∧
    ((s.pairRuns = false ∨ s.pairState ≠ 2 ∨ s.rf PAIR_CFG.MODE ≠ 2 ∨ s.rb PAIR_STATUS.LINK = false ∨ s.pairx.peerPrint ≠ s.fprint ∨
        s.rf PAIR_STATUS.PEER_STATE ≠ 1 ∨ leadOk s.pairx.peerStroke (s.rf PAIR_JOIN_STROKE.STROKE) = false) →
      ∃ t, exec (.pairJoin v) s = .next t ∧ t.rb PAIR_ERR.JOIN_REJECT = true ∧ FieldsKeptEv s t [PAIR_ERR.JOIN_REJECT] ∧ SameButEvents s t)) ∧
  (∀ (s : State) (y : Nat), s.regsCanon = true → s.pairRuns = true → s.pairx.joinAt = some y → s.pairState = 2 → y < 2 ^ 48 →
    (s.rf PAIR_CFG.MODE = 2 → s.rb PAIR_STATUS.LINK = true → s.pairx.peerPrint = s.fprint → strokeLe y s.strokeNow = true →
      ∃ t, exec .joinStrokeReached s = .next t ∧ t.pairState = 3 ∧ t.rb CHIP_STROKE_CFG.SRC_LEDGER = true ∧
        (t.rf PAIR_LAST_LEDGER.STROKE + 1) % 2 ^ 48 = y ∧ t.pairx.joinAt = none ∧ t.digs = [] ∧
        t.pairx.enforce = (y + s.rf PAIR_CONVERGE.STROKES) % 2 ^ 48 ∧
        t.pairx.arrived = [((y + (2 ^ 48 - 1)) % 2 ^ 48, s.time.tick)] ∧ t.pairx.ownSince = none ∧
        t = { s with regs := t.regs, evts := t.evts, pairx := t.pairx, digs := t.digs }) ∧
    ((s.rf PAIR_CFG.MODE ≠ 2 ∨ s.rb PAIR_STATUS.LINK = false ∨ s.pairx.peerPrint ≠ s.fprint) → strokeLe y s.strokeNow = true →
      ∃ t, exec .joinStrokeReached s = .next t ∧ t.pairState = 2 ∧ t.rb PAIR_ERR.JOIN_REJECT = true ∧ t.pairx.joinAt = none)) ∧
  (∀ s : State, (s.pairRuns = false ∨ ∀ y, s.pairx.joinAt = some y → strokeLe y s.strokeNow = false) → exec .joinStrokeReached s = .next s) ∧
  (∀ (s : State) (v : Word) (seq : BitVec 32) (peer : Nat), s.regsCanon = true → s.pairState = 1 → s.pairRuns = true → s.rb PAIR_STATUS.LINK = true →
    s.pairLanes = true → s.rb (LANE_PORT_STATUS.TX_QUIET 8 0) = false → s.farLoop 8 0 = false → s.pairx.yieldAt = none →
    (∀ q, s.pairx.rxSeq = some q → (q + 1) % 2 ^ 32 = seq.toNat) → bits v.toNat 0 1 = 0 → bits v.toNat 2 1 = 0 →
    peer = (if s.rf PAIR_STATUS.PEER_STATE = 4 then s.pairx.peerBase else s.rf PAIR_STATUS.PEER_STATE) →
    (peer = 3 →
      (∃ t, exec (.pairYield v) s = .next t ∧ t.pairx.yieldAt = some ((s.strokeNow + 64) % 2 ^ 48) ∧
        t.outputs = .pair (pairFrame 5 s.pairx.txSeq (bytesLE 6 ((s.strokeNow + 64) % 2 ^ 48))) :: s.outputs ∧
        t = { s with pairx := t.pairx, outputs := t.outputs }) ∧
      (∃ t, exec (.yieldReq {} seq) s = .next t ∧ t.pairx.yieldAt = some ((s.strokeNow + 64) % 2 ^ 48) ∧
        t.outputs = .pair (pairFrame 5 s.pairx.txSeq (bytesLE 6 ((s.strokeNow + 64) % 2 ^ 48))) :: s.outputs ∧
        t = { s with pairx := t.pairx, outputs := t.outputs })) ∧
    (peer = 2 →
      (∃ t, exec (.pairYield v) s = .next t ∧ t.pairState = 2 ∧ t.rb PAIR_STATUS.HOLD_OUT = false ∧ t.rb PAIR_STATUS.GATE = false ∧
        t.outputs = (if s.rb PAIR_STATUS.GATE then [.gateClosed] else []) ++ .pair (pairFrame 5 s.pairx.txSeq (bytesLE 6 0)) :: s.outputs) ∧
      (∃ t, exec (.yieldReq {} seq) s = .next t ∧ t.pairState = 2 ∧ t.rb PAIR_STATUS.HOLD_OUT = false ∧ t.rb PAIR_STATUS.GATE = false ∧
        t.outputs = (if s.rb PAIR_STATUS.GATE then [.gateClosed] else []) ++ .pair (pairFrame 5 s.pairx.txSeq (bytesLE 6 0)) :: s.outputs))) ∧
  (∀ (s : State) (v : Word), s.regsCanon = true → s.hostOpen = true → bits v.toNat 0 1 = 0 → bits v.toNat 2 1 = 0 →
    (s.pairRuns = false ∨ s.pairState ≠ 1 ∨ s.rb PAIR_STATUS.LINK = false) →
    ∃ t, exec (.pairYield v) s = .next t ∧ t.rb PAIR_ERR.CFG_IGNORED = true ∧ FieldsKeptEv s t [PAIR_ERR.CFG_IGNORED] ∧ SameButEvents s t) ∧
  (∀ (s : State) (seq : BitVec 32) (h : BitVec 48), s.pairRuns = true → s.pairLanes = true → s.pairState ≠ 0 → s.pairState ≠ 1 → s.mayClaim = false →
    (∀ q, s.pairx.rxSeq = some q → (q + 1) % 2 ^ 32 = seq.toNat) →
    exec (.yieldAck {} seq h) s = .next
      { s with pairx := { s.pairx with rxSeq := some seq.toNat, acked := true, yieldAt := if s.pairMode = 3 then some h.toNat else none } }) ∧
  (∀ (s : State) (h : Nat), s.regsCanon = true → s.pairRuns = true → s.pairx.yieldAt = some h → s.pairState = 1 →
    s.rb CHIP_STROKE_CFG.SRC_LEDGER = false → strokeLe h s.strokeNow = true →
    (s.sendsLedger = false ∨ ∃ k, s.pairx.ledNext = some k ∧ strokeLe h k = true) → h < 2 ^ 48 →
    (s.rf PAIR_CFG.MODE = 2 → s.pairx.peerPrint = s.fprint →
      ∃ t, exec .handoverStroke s = .next t ∧ t.pairState = 3 ∧ t.rb PAIR_STATUS.HOLD_OUT = false ∧ t.rb PAIR_STATUS.GATE = false ∧
        t.rb CHIP_STROKE_CFG.SRC_LEDGER = true ∧ (t.rf PAIR_LAST_LEDGER.STROKE + 1) % 2 ^ 48 = h ∧ t.pairx.yieldAt = none ∧
        t = { s with regs := t.regs, evts := t.evts, pairx := t.pairx,
                     outputs := if s.rb PAIR_STATUS.GATE then .gateClosed :: s.outputs else s.outputs }) ∧
    ((s.rf PAIR_CFG.MODE ≠ 2 ∨ s.pairx.peerPrint ≠ s.fprint) → s.pairx.held = [] →
      ∃ t, exec .handoverStroke s = .next t ∧ t.pairState = 2 ∧ t.rb PAIR_STATUS.HOLD_OUT = false ∧ t.rb PAIR_STATUS.GATE = false ∧
        t.pairx.yieldAt = none ∧ t = { s with regs := t.regs, evts := t.evts, pairx := t.pairx,
                                              outputs := if s.rb PAIR_STATUS.GATE then .gateClosed :: s.outputs else s.outputs })) ∧
  (∀ (s : State) (h : Nat), s.regsCanon = true → s.pairRuns = true → s.pairx.yieldAt = some h →
    s.rb CHIP_STROKE_CFG.SRC_LEDGER = true → s.pairx.recs = [] → s.pairx.held = [] → (s.rf PAIR_LAST_LEDGER.STROKE + 1) % 2 ^ 48 = h →
    ∃ t, exec .handoverStroke s = .next t ∧ t.rb CHIP_STROKE_CFG.SRC_LEDGER = false ∧ t.rf PAIR_HANDOVER_STROKE.STROKE = h ∧
      t.pairx = { s.pairx with floor := some h, ledNext := some h, ownSince := some s.time.tick,
                               yieldAt := if s.pairState = 1 then none else s.pairx.yieldAt } ∧
      FieldsKept s t [CHIP_STROKE_CFG.SRC_LEDGER, PAIR_HANDOVER_STROKE.STROKE] ∧ t = { s with regs := t.regs, pairx := t.pairx }) ∧
  (∀ s : State, (s.pairRuns = false ∨ s.pairx.yieldAt = none) → exec .handoverStroke s = .next s) ∧
  (∀ s : State, s.regsCanon = true → (s.pairRuns = true → s.pairState = 4 → s.pairx.acked = false → s.pairx.back < 4 →
      ∃ t, exec .revertTimeout s = .next t ∧ t.pairState = s.pairx.back ∧ t.rb PAIR_ERR.REVERT_FAIL = true ∧
        t = { s with regs := t.regs, evts := t.evts, pairx := { s.pairx with holdoff := t.pairx.holdoff } }) ∧
    ((s.pairRuns = false ∨ s.pairState ≠ 4 ∨ s.pairx.acked = true) → exec .revertTimeout s = .next s)) ∧
  (∀ s : State, s.regsCanon = true →
    (∀ a, s.mayRevert = true → s.pairx.holdoff = some a → a + 10 ^ 9 * s.rf PAIR_CFG.HOLDOFF_S ≤ s.time.tick →
      ∃ t, exec .holdoffExpiry s = .next t ∧ t.pairState = 4 ∧ t.pairx.back = s.pairState ∧ t.pairx.acked = false ∧
        (s.pairLanes = true → s.farLoop 8 0 = false → .pair (pairFrame 4 s.pairx.txSeq []) ∈ t.outputs) ∧ t.pendingBit 0xF10 = true) ∧
    ((s.mayRevert = false ∨ ∀ a, s.pairx.holdoff = some a → s.time.tick < a + 10 ^ 9 * s.rf PAIR_CFG.HOLDOFF_S) →
      ∃ t, exec .holdoffExpiry s = .next t ∧ t.pairState = s.pairState ∧ t.rb PAIR_STATUS.HEALTHY = s.isHealthy ∧
        t.rf PAIR_STATUS.HOLDOFF_LEFT = (if s.mayRevert then
          s.rf PAIR_CFG.HOLDOFF_S - (s.time.tick - s.pairx.holdoff.getD s.time.tick) / 10 ^ 9 else 0) ∧
        FieldsKept s t [PAIR_STATUS.HEALTHY, PAIR_STATUS.HOLDOFF_LEFT] ∧
        t = { s with regs := t.regs, pairx := { s.pairx with holdoff := if s.mayRevert then some (s.pairx.holdoff.getD s.time.tick) else none } })) ∧
  (∀ (s : State) (v : Word), s.regsCanon = true → s.hostOpen = true →
    (s.rb PAIR_CAP_CTRL.BUSY = false → leadOk s.strokeNow (s.rf PAIR_CAP_STROKE.STROKE) = true →
      ∃ t, exec (.pairCapArm v) s = .next t ∧ t.rb PAIR_CAP_CTRL.BUSY = true ∧
        t.pairx = { s.pairx with cap := some ⟨s.rf PAIR_CAP_STROKE.STROKE, s.rf PAIR_CAP_BASE.ADDR * 2 ^ 12⟩ } ∧
        FieldsKept s t [PAIR_CAP_CTRL.BUSY] ∧ t = { s with regs := t.regs, pairx := t.pairx }) ∧
    ((s.rb PAIR_CAP_CTRL.BUSY = true ∨ leadOk s.strokeNow (s.rf PAIR_CAP_STROKE.STROKE) = false) →
      ∃ t, exec (.pairCapArm v) s = .next t ∧ t.rf PAIR_CAP_CTRL.RESULT = 1 ∧ FieldsKept s t [PAIR_CAP_CTRL.RESULT] ∧ SameButRegs s t)) ∧
  (∀ (s : State) (c : CapX) (err : Bool), s.alive = true → s.canon = true → s.pairx.cap = some c → strokeLe c.stroke s.strokeNow = true →
    (∀ n < 8, s.capReached n c.stroke = true) → (∀ n < 8, (s.tbl n).hits = []) → c.base + 2 ^ 27 ≤ 2 ^ 64 →
    ∃ t, exec (.tableCapture err) s = .next t ∧ t.rb PAIR_CAP_CTRL.BUSY = false ∧ t.pairx = { s.pairx with cap := none } ∧
      t.rf PAIR_CAP_CTRL.RESULT = (if err then 2 else if (List.range 8).any (fun n => !s.regionRuns n) then 3 else 0) ∧
      (∀ (n : Region) (i : Nat), i < 2 ^ 20 → s.regionRuns n = true → (s.tbl n).log = [] → s.ep n i < 2 ^ 128 →
        natLE (t.hostRead (c.base + n * 2 ^ 24 + 16 * i) 16) = s.ep n i) ∧
      (∀ a, a < c.base ∨ c.base + 2 ^ 27 ≤ a → t.hostByte a = s.hostByte a) ∧ t.pendingBit 0xF13 = true ∧
      t = { s with regs := t.regs, evts := t.evts, hostMem := t.hostMem, pairx := t.pairx }) ∧
  (∀ (s : State) (err : Bool), s.pairx.cap = none → exec (.tableCapture err) s = .next s)

/-! ### Errors, quarantine, scrubbing and retirement (file 17) -/

/-- R472, R559, R561 to R563, R558: HALT with its key halts a device that is not halted, whatever its state once writes are taken, with cause 0x01: the transmit gate closes
and the pair line is released; another key is ignored. An error in chip-global state halts it with its cause of Table EV-2 or 0x33, and leaves the
first halt's cause. Frames being sent end with an inverted FCS. CLEAR empties the error log.

Completes: HOST_HALT, ERR_LOG_CLEAR. -/
def Obligations.HaltsAndErrorLog : Prop :=
  (∀ (s : State) (v : Word), s.regsCanon = true → s.hostOpen = true →
    (bits v.toNat 8 8 = 0x5A →
      ∃ t, exec (.hostHalt v) s = .next t ∧ t.halted = true ∧ t.rf CHIP_HALT_CAUSE.CAUSE = 0x01 ∧ t.rb HIF_STATUS.HALTED = true ∧
        t.rb PAIR_STATUS.GATE = false ∧ t.rb PAIR_STATUS.HOLD_OUT = false ∧ t.pendingBit 0x001 = true ∧
        (s.rb HIF_CFG.HALT_MSI_EN = false → FieldsKeptEv s t [CHIP_HALT_CAUSE.CAUSE, CHIP_STATE.STATE, HIF_STATUS.HALTED, PAIR_STATUS.GATE,
          PAIR_STATUS.HOLD_OUT] ∧
          t = { s with regs := t.regs, evts := t.evts, outputs := .halt :: s.outputs, chip := { s.chip with ranAtHalt := s.running } })) ∧
    (bits v.toNat 8 8 ≠ 0x5A → exec (.hostHalt v) s = .next s)) ∧
  (∀ (s : State) (m kind : Oct) (k : BitVec 26) (chk : ReadCheck), s.regsCanon = true → s.chipState ≠ stOff → s.chipState ≠ stStrap → s.halted = false → isBad chk = true →
    ∃ t, exec (.scrubRead 12 m kind k chk) s = .next t ∧ t.halted = true ∧
      t.rf CHIP_HALT_CAUSE.CAUSE = [0x22, 0x23, 0x24].getD kind.val 0x33 ∧ t.rb CHIP_DET_STATUS.PARITY = true ∧
      (kind.val = 3 → t.rb PWR_ERR.PARITY = true) ∧ t.rb PAIR_STATUS.GATE = false ∧
      ((kind.val = 1 ∨ kind.val = 2) → s.rf CHIP_ERR_LOG_CTRL.VALID = 0 →
        t.rf CHIP_ERR_LOG_CTRL.VALID = 1 ∧ t.rf (CHIP_ERR_LOG.UNIT 0) = 12 ∧ t.rf (CHIP_ERR_LOG.LOC 0) = k.toNat % 2 ^ 18 ∧
        t.rb (CHIP_ERR_LOG.RETRY_OK 0) = false ∧ t.rf (CHIP_ERR_LOG.STROKE 0) = s.strokeNow % 2 ^ 32 ∧ t.pendingBit 0x040 = true)) ∧
  (∀ (s : State) (m kind : Oct) (k : BitVec 26) (chk : ReadCheck),
    (s.chipState = stOff ∨ s.chipState = stStrap ∨ s.halted = true ∨ isBad chk = false) → exec (.scrubRead 12 m kind k chk) s = .next s) ∧
  (∀ (s : State) (v : Word), s.regsCanon = true → s.hostOpen = true →
    ∃ t, exec (.errLogClear v) s = .next t ∧ t.rf CHIP_ERR_LOG_CTRL.VALID = 0 ∧ FieldsKept s t [CHIP_ERR_LOG_CTRL.VALID] ∧ SameButRegs s t)

/-- R564 to R569: QUARANTINE drains a region in RUN unless two others are quarantined, cancels a rejoin, and is ignored otherwise; BIST_START and
REJOIN act in ISOLATED alone. A drained region transmits electrical idle and ends ISOLATED; a test leaves its memories zero, its retirements kept, and shows
its result; a rejoining region takes the bank and epoch of the lowest running region at stroke X, and starts its watermark and its sweeps there.

Completes: QUARANTINE, DRAIN_COMPLETE, BIST_START, REGION_TEST_END, REJOIN, REJOIN_STROKE_REACHED. -/
def Obligations.QuarantineTestAndRejoin : Prop :=
  (∀ (s : State) (n : Region) (v : Word), s.regsCanon = true → s.hostOpen = true → bits v.toNat 1 2 = 0 →
    (s.region n = rgRun → s.quarantinedBut n < 2 → exec (.quarantine n v) s = .next (s.drain n 4)) ∧
    (s.region n = rgRun → s.quarantinedBut n < 2 → s.pipes = [] → s.engs = [] → s.ctxs = [] → s.tbls = [] → s.regx = [] → s.recirc = [] → s.hostRx = [] →
      s.txs = [] → s.wind.xfer = [] →
      ∃ t, exec (.quarantine n v) s = .next t ∧ t.region n = rgDrain ∧ t.rf (REG_Q_STATUS.CAUSE n) = 4 ∧ t.rf (REG_Q_STROKE.STROKE n) = s.strokeNow ∧
        (t.rf SP_STATUS.QUARANTINED).testBit n = true ∧ t.rb CHIP_DET_STATUS.QUARANTINE = true ∧ t.rb (REG_ERR.QUARANTINED n) = true ∧
        t.pendingBit (regionSrc 0x371 n) = true ∧ t.rf (TBL_STATUS.SCHED_QUEUED n) = 0 ∧ t.rb (FE_STATUS.SNAP_ACTIVE n) = false ∧
        (∀ p, p < 2 → t.rb (IP_CL_STATUS.DRAINING n p) = false ∧ t.rf (IP_PARSE_STATUS.ENGINE_IDLE n p) = 255 ∧ t.rf (IP_PARSE_STATUS.ROB_OCC n p) = 0) ∧
        FieldsKeptEv s t (([0, 1].flatMap (fun p => [IP_CL_STATUS.DRAINING n p, IP_PARSE_STATUS.ENGINE_IDLE n p, IP_PARSE_STATUS.ROB_OCC n p])) ++
          ((List.range 8).flatMap (fun e => [FE_STATUS.LOOKUP_OCC e, PMP_STATUS.CTX_BUSY e, PMP_STATUS.CREDIT_WAIT e])) ++ [REG_Q_STATUS.CAUSE n, REG_Q_STATUS.STATE n, REG_Q_STROKE.STROKE n, SP_STATUS.QUARANTINED, SP_STATUS.LOWEST, CHIP_DET_STATUS.QUARANTINE,
          CHIP_DET_STROKE.STROKE, REG_ERR.QUARANTINED n, TBL_STATUS.SCHED_QUEUED n, FE_STATUS.SNAP_ACTIVE n, FE_STATUS.DIRTY n, TM_STATUS.METER_QUEUED n,
          TM_STATUS.METER_OPEN n, CIS_SUMP_QUEUES.SPILLING n]) ∧
        (∀ m < 64, s.rb (LANE_PRBS_CFG.GEN_EN n m) = false → s.rb (LANE_STATUS.FAILED n m) = false → .lane n m 10 ∈ t.outputs) ∧
        t = { s with regs := t.regs, evts := t.evts, outputs := t.outputs }) ∧
    (s.region n = rgRun → 2 ≤ s.quarantinedBut n →
      ∃ t, exec (.quarantine n v) s = .next t ∧ t.rb (REG_ERR.CFG_REJECT n) = true ∧ FieldsKeptEv s t [REG_ERR.CFG_REJECT n] ∧ SameButEvents s t) ∧
    (s.region n = rgRejoin → ∃ t, exec (.quarantine n v) s = .next t ∧ t.region n = rgIsolated ∧ t.pendingBit (regionSrc 0x371 n) = true ∧
      FieldsKeptEv s t [REG_Q_STATUS.STATE n] ∧ SameButEvents s t) ∧
    (s.region n ≠ rgRun → s.region n ≠ rgRejoin →
      ∃ t, exec (.quarantine n v) s = .next t ∧ t.rb (REG_ERR.CFG_IGNORED n) = true ∧ FieldsKeptEv s t [REG_ERR.CFG_IGNORED n] ∧ SameButEvents s t)) ∧
  (∀ (s : State) (n : Region), s.regsCanon = true → s.alive = true →
    (s.region n = rgDrain → ∃ t, exec (.drainComplete n) s = .next t ∧ t.region n = rgIsolated ∧ t.pendingBit (regionSrc 0x371 n) = true ∧
      FieldsKeptEv s t [REG_Q_STATUS.STATE n] ∧ SameButEvents s t) ∧
    (s.region n ≠ rgDrain → exec (.drainComplete n) s = .next s)) ∧
  (∀ (s : State) (n : Region) (v : Word), s.regsCanon = true → s.hostOpen = true → bits v.toNat 0 1 = 0 → bits v.toNat 2 1 = 0 →
    (s.region n = rgIsolated → ∃ t, exec (.bistStart n v) s = .next t ∧ t.region n = rgTest ∧ t.pendingBit (regionSrc 0x371 n) = true ∧
      FieldsKeptEv s t [REG_Q_STATUS.STATE n] ∧ SameButEvents s t) ∧
    (s.region n ≠ rgIsolated → ∃ t, exec (.bistStart n v) s = .next t ∧ t.rb (REG_ERR.CFG_IGNORED n) = true ∧
      FieldsKeptEv s t [REG_ERR.CFG_IGNORED n] ∧ SameButEvents s t)) ∧
  (∀ (s : State) (n : Region) (fails : TestFails), s.canon = true → s.alive = true →
    (s.region n = rgTest →
      ∃ t, exec (.regionTestEnd n fails) s = .next t ∧ t.region n = rgIsolated ∧ t.rb (REG_Q_STATUS.BIST_PASS n) = (fails.rows.isEmpty && !fails.logic) ∧
        t.rb (REG_Q_STATUS.BIST_FAIL n) = (!fails.rows.isEmpty || fails.logic) ∧
        (∀ p ∈ fails.rows, t.rf (REG_Q_STATUS.BIST_FAIL_MEM n) ≤ p.1.val) ∧
        (fails.rows ≠ [] → ∃ p ∈ fails.rows, t.rf (REG_Q_STATUS.BIST_FAIL_MEM n) = p.1.val) ∧
        ((fails.rows ≠ [] ∨ fails.logic = true) → t.rb (REG_ERR.BIST_FAIL n) = true) ∧
        t.eps = outside (n * 2 ^ 20) ((n + 1) * 2 ^ 20) s.eps ∧ t.routes = outside (n * 2 ^ 18) ((n + 1) * 2 ^ 18) s.routes ∧
        t.vlans = outside (n * 2 ^ 12) ((n + 1) * 2 ^ 12) s.vlans ∧ t.tcam = outside (n * 65536) ((n + 1) * 65536) s.tcam ∧
        t.actions = outside (n * 65536) ((n + 1) * 65536) s.actions ∧ t.rx n = {} ∧ t.eng n = {} ∧ t.tbl n = {} ∧ t.slots = s.slots ∧
        (∀ i, i < 16384 → t.storeWord n i = 0 ∧ t.reg (FE_DICT.w n 0 + i) = 0) ∧
        (∀ p i, p < 2 → i < 4096 → t.reg (IP_PARSE_NODE.w n p 0 0 + i) = 0) ∧
        (∀ i, i < 4224 → t.reg (TM_CLASS.w n 0 + i) = 0) ∧ (∀ i, i < 24 → t.reg (CIS_CNT.w n 0 + i) = 0) ∧ (∀ i, i < 256 → t.reg (REG_RETIRE.w n i) = s.reg (REG_RETIRE.w n i)) ∧
        t.pendingBit (regionSrc 0x371 n) = true) ∧
    (s.region n ≠ rgTest → exec (.regionTestEnd n fails) s = .next s)) ∧
  (∀ (s : State) (n : Region) (v : Word), s.regsCanon = true → s.hostOpen = true → bits v.toNat 0 2 = 0 →
    (s.region n = rgIsolated → leadOk s.strokeNow (s.rf (REG_REJOIN_STROKE.STROKE n)) = true → s.switching = false →
      ∃ t, exec (.rejoin n v) s = .next t ∧ t.region n = rgRejoin ∧ t.pendingBit (regionSrc 0x371 n) = true ∧
        FieldsKeptEv s t [REG_Q_STATUS.STATE n] ∧ SameButEvents s t) ∧
    (s.region n = rgIsolated → (leadOk s.strokeNow (s.rf (REG_REJOIN_STROKE.STROKE n)) = false ∨ s.switching = true) →
      ∃ t, exec (.rejoin n v) s = .next t ∧ t.rb (REG_ERR.CFG_REJECT n) = true ∧ FieldsKeptEv s t [REG_ERR.CFG_REJECT n] ∧ SameButEvents s t) ∧
    (s.region n ≠ rgIsolated → ∃ t, exec (.rejoin n v) s = .next t ∧ t.rb (REG_ERR.CFG_IGNORED n) = true ∧
      FieldsKeptEv s t [REG_ERR.CFG_IGNORED n] ∧ SameButEvents s t)) ∧
  (∀ (s : State) (n : Region), s.regsCanon = true → s.alive = true →
    (s.region n = rgRejoin → strokeLe (s.rf (REG_REJOIN_STROKE.STROKE n)) s.strokeNow = true →
      ∃ t, exec (.rejoinStrokeReached n) s = .next t ∧ t.region n = rgRun ∧ t.wm n = s.rf (REG_REJOIN_STROKE.STROKE n) ∧
        (t.rf SP_STATUS.QUARANTINED).testBit n = false ∧
        (∀ k, k < 8 → s.regionRuns k = true → (∀ j, j < k → s.regionRuns j = false) → ∀ p, p < 2 →
          t.rf (IP_CL_STATUS.ACTIVE_BANK n p) = s.rf (IP_CL_STATUS.ACTIVE_BANK k 0) ∧ t.rf (IP_CL_STATUS.EPOCH n p) = s.rf (IP_CL_STATUS.EPOCH k 0)) ∧
        t.pendingBit (regionSrc 0x371 n) = true ∧
        (∀ m < 64, s.rb (LANE_PRBS_CFG.GEN_EN n m) = false → s.rb (LANE_STATUS.FAILED n m) = false → s.rf (LANE_CFG.LOOPBACK n m) = 0 →
          .lane n m 8 ∈ t.outputs) ∧
        (s.enabledPorts n = [] → FieldsKeptEv s t ([0, 1].flatMap (fun p => [IP_CL_STATUS.ACTIVE_BANK n p, IP_CL_STATUS.EPOCH n p]) ++
          [PAIR_STATUS.HEALTHY, PAIR_STATUS.HOLDOFF_LEFT, SP_WM.STROKE n, SP_STATUS.QUARANTINED, SP_STATUS.LOWEST, REG_Q_STATUS.STATE n]) ∧
          (mapCanon {} s.tbls = true → mapCanon {} s.engs = true → ∀ x, x = some ((s.rf (REG_REJOIN_STROKE.STROKE n) + (2 ^ 48 - 1)) % 2 ^ 48) →
            t.tbl n = { s.tbl n with swept := x } ∧ t.eng n = { s.eng n with swept := x }) ∧
          (∀ k, k ≠ n.val → t.tbl k = s.tbl k ∧ t.eng k = s.eng k) ∧
          t = { s with regs := t.regs, evts := t.evts, tbls := t.tbls, engs := t.engs, outputs := t.outputs,
                       pairx := { s.pairx with holdoff := t.pairx.holdoff } })) ∧
    ((s.region n ≠ rgRejoin ∨ strokeLe (s.rf (REG_REJOIN_STROKE.STROKE n)) s.strokeNow = false) → exec (.rejoinStrokeReached n) s = .next s))

/-- R571 to R577: a scrubber reads the next line of its memory, ends a lap at the last one and shows its length, marks a lap that has run past its
limit at the read that finds it so, and applies the store's rule to a line
in error. A range pass runs from START to END, is ignored while one runs and refused with START above END, and its summary counts the words it
read and those in error. A retirement is refused with its cause, or uses a spare row and discards the row's contents; a retired HBM row is
redirected to the next spare row of its pseudo-channel.

Completes: SCRUB_READ, REGION_RANGE_PASS, HBM_RANGE_PASS, RANGE_PASS_DONE, RETIREMENT_WRITE, HBM_RETIRE_WRITE. -/
def Obligations.ScrubPassesAndRetirement : Prop :=
  (∀ (s : State) (n m kind : Oct) (k : BitVec 26) (u : Fin 13) (x : ScrubX) (limit : Nat), s.regsCanon = true → u.val = n.val → s.alive = true →
    x = (s.scrubx n m).begun s.time.tick → limit = s.rf (REG_SCRUB_CFG.LAP_LIMIT_MS n) →
    (bit (s.rf (REG_SCRUB_CFG.EN n)) m = true → s.region n ≠ rgTest → s.rf (PWR_STATUS.LEVEL n) = 8 →
      (x.line + 1 < memLines m → (limit = 0 ∨ s.time.tick - x.start ≤ limit * 1000000) → exec (.scrubRead u m kind k .good) s = .next
        (s.setScrubx n m { x with line := x.line + 1 })) ∧
      (x.line + 1 < memLines m → limit ≠ 0 → limit * 1000000 < s.time.tick - x.start →
        ∃ t, exec (.scrubRead u m kind k .good) s = .next t ∧ t.scrubx n m = { x with line := x.line + 1, late := true } ∧
          (x.late = false → t.rb (REG_ERR.LAP_OVERDUE n) = true) ∧ FieldsKeptEv s t [REG_ERR.LAP_OVERDUE n] ∧
          t = { s with regs := t.regs, evts := t.evts, scrub := t.scrub }) ∧
      (memLines m ≤ x.line + 1 → s.mapsCanon = true →
        ∃ t, exec (.scrubRead u m kind k .good) s = .next t ∧ t.scrubx n m = {} ∧
          t.rf (REG_SCRUB_LAP.LAP_US n m) = min ((s.time.tick - x.start) / 1000) (2 ^ 24 - 1) ∧
          t.rf (REG_SCRUB_LAP.LAPS n m) = (s.rf (REG_SCRUB_LAP.LAPS n m) + 1) % 256 ∧
          (limit ≠ 0 → limit * 1000000 < s.time.tick - x.start → x.late = false → t.rb (REG_ERR.LAP_OVERDUE n) = true) ∧
          FieldsKeptEv s t [REG_SCRUB_LAP.LAP_US n m, REG_SCRUB_LAP.LAPS n m, REG_ERR.LAP_OVERDUE n] ∧
          t = { s with regs := t.regs, evts := t.evts, scrub := t.scrub }) ∧
      (∀ loc, kind.val = 7 → (m.val = 5 ∨ m.val = 7) → x.line + 1 < memLines m → s.rf CHIP_ERR_LOG_CTRL.VALID = 0 →
        ∃ t, exec (.scrubRead u m kind k (.failed loc)) s = .next t ∧ t.rb CHIP_DET_STATUS.PARITY = true ∧ t.rb (REG_ERR.SCRUB_PARITY n) = true ∧
          t.rf CHIP_ERR_LOG_CTRL.VALID = 1 ∧ t.rf (CHIP_ERR_LOG.UNIT 0) = n ∧ t.rf (CHIP_ERR_LOG.MEM 0) = m ∧ t.rb (CHIP_ERR_LOG.RETRY_OK 0) = false ∧
          t.rf (CHIP_ERR_LOG.LOC 0) = x.line / rowLines m % 2 ^ 18 ∧ (t.scrubx n m).line = x.line + 1 ∧
          t = { s with regs := t.regs, evts := t.evts, scrub := t.scrub })) ∧
    ((bit (s.rf (REG_SCRUB_CFG.EN n)) m = false ∨ s.region n = rgTest ∨ s.rf (PWR_STATUS.LEVEL n) ≠ 8) →
      ∀ chk, exec (.scrubRead u m kind k chk) s = .next s)) ∧
  (∀ (s : State) (st : Stack) (m kind : Oct) (k : BitVec 26) (u : Fin 13) (x : ScrubX) (limit : Nat), s.canon = true → u.val = 8 + st.val →
    s.alive = true → x = (s.scrubx (8 + st.val) 0).begun s.time.tick → limit = s.rf (HBM_SCRUB_CFG.LAP_LIMIT_MS st) →
    (bit (s.rf (HBM_SCRUB_CFG.EN st)) 0 = true → s.hbmBusy st = false →
      (∀ l, s.hbmNext st x.line = some l → (limit = 0 ∨ s.time.tick - x.start ≤ limit * 1000000) →
        exec (.scrubRead u m kind k .good) s = .next (s.setScrubx (8 + st.val) 0 { x with line := l })) ∧
      (∀ l, s.hbmNext st x.line = some l → limit ≠ 0 → limit * 1000000 < s.time.tick - x.start → x.late = false →
        ∃ t, exec (.scrubRead u m kind k .good) s = .next t ∧ t.scrubx (8 + st.val) 0 = { x with line := l, late := true } ∧
          t.pendingBit (0xE14 + st * 0x40) = true ∧ t = { s with regs := t.regs, evts := t.evts, scrub := t.scrub }) ∧
      (s.hbmNext st x.line = none →
        ∃ t, exec (.scrubRead u m kind k .good) s = .next t ∧ t.scrubx (8 + st.val) 0 = {} ∧
          t.rf (HBM_SCRUB_LAP.LAP_US st) = min ((s.time.tick - x.start) / 1000) (2 ^ 24 - 1) ∧
          t.rf (HBM_SCRUB_LAP.LAPS st) = (s.rf (HBM_SCRUB_LAP.LAPS st) + 1) % 256 ∧
          t = { s with regs := t.regs, evts := t.evts, scrub := t.scrub })) ∧
    ((bit (s.rf (HBM_SCRUB_CFG.EN st)) 0 = false ∨ s.hbmBusy st = true) → ∀ chk, exec (.scrubRead u m kind k chk) s = .next s)) ∧
  (∀ (s : State) (n : Region) (v : Word), s.regsCanon = true → s.hostOpen = true →
    (s.rb (REG_SCRUB_PASS.BUSY n) = false → s.rf (REG_SCRUB_START.LINE n) ≤ s.rf (REG_SCRUB_END.LINE n) → v.toNat % 32 < 8 →
      ∃ t, exec (.regionRangePass n v) s = .next t ∧ t.rb (REG_SCRUB_PASS.BUSY n) = true ∧ t.rf (REG_SCRUB_PASS.MEM n) = v.toNat % 32 ∧
        mget none t.passes n = some ⟨v.toNat % 32, s.rf (REG_SCRUB_START.LINE n), min (s.rf (REG_SCRUB_END.LINE n)) (memLines (v.toNat % 32) - 1)⟩ ∧
        FieldsKept s t [REG_SCRUB_PASS.BUSY n, REG_SCRUB_PASS.MEM n] ∧ t = { s with regs := t.regs, passes := t.passes }) ∧
    (s.rb (REG_SCRUB_PASS.BUSY n) = true → ∃ t, exec (.regionRangePass n v) s = .next t ∧ t.rb (REG_ERR.CFG_IGNORED n) = true ∧
      FieldsKeptEv s t [REG_SCRUB_PASS.MEM n, REG_ERR.CFG_IGNORED n] ∧ SameButEvents s t) ∧
    (s.rb (REG_SCRUB_PASS.BUSY n) = false → (s.rf (REG_SCRUB_END.LINE n) < s.rf (REG_SCRUB_START.LINE n) ∨ 8 ≤ v.toNat % 32) →
      ∃ t, exec (.regionRangePass n v) s = .next t ∧ t.rb (REG_ERR.CFG_REJECT n) = true ∧ t.reg (REG_SCRUB_SUM_WORDS.w n) = 0 ∧
        t.reg (REG_SCRUB_SUM_ERRS.w n) = 0 ∧ t.reg (REG_SCRUB_SUM_FIRST.w n) = 0 ∧ t.reg (REG_SCRUB_SUM_LAST.w n) = 0 ∧
        FieldsKeptEv s t ([REG_SCRUB_PASS.MEM n, REG_ERR.CFG_REJECT n] ++ wordFields (REG_SCRUB_SUM_WORDS.w n) 4) ∧ SameButEvents s t)) ∧
  (∀ (s : State) (st : Stack) (v : Word), s.regsCanon = true → s.hostOpen = true →
    (s.rb (HBM_SCRUB_PASS.BUSY st) = false → s.rf (HBM_SCRUB_START.LINE st) ≤ s.rf (HBM_SCRUB_END.LINE st) →
      ∃ t, exec (.hbmRangePass st v) s = .next t ∧ t.rb (HBM_SCRUB_PASS.BUSY st) = true ∧ t.rf (HBM_SCRUB_PASS.MEM st) = v.toNat % 32 ∧
        mget none t.passes (8 + st.val) = some ⟨v.toNat % 32, s.rf (HBM_SCRUB_START.LINE st), min (s.rf (HBM_SCRUB_END.LINE st)) (s.allRows * 32 - 1)⟩ ∧
        FieldsKept s t [HBM_SCRUB_PASS.BUSY st, HBM_SCRUB_PASS.MEM st] ∧ t = { s with regs := t.regs, passes := t.passes }) ∧
    ((s.rb (HBM_SCRUB_PASS.BUSY st) = true ∨ s.rf (HBM_SCRUB_END.LINE st) < s.rf (HBM_SCRUB_START.LINE st)) →
      ∃ t, exec (.hbmRangePass st v) s = .next t ∧ t.rb (HBM_ERR.CFG_IGNORED st) = true ∧
        (s.rb (HBM_SCRUB_PASS.BUSY st) = false → t.reg (HBM_SCRUB_SUM_WORDS.w st) = 0 ∧ t.reg (HBM_SCRUB_SUM_ERRS.w st) = 0 ∧
          t.reg (HBM_SCRUB_SUM_FIRST.w st) = 0 ∧ t.reg (HBM_SCRUB_SUM_LAST.w st) = 0) ∧
        t = { s with regs := t.regs, evts := t.evts, free := t.free })) ∧
  (∀ (s : State) (u : Fin 12) (bad : List (BitVec 24 × Fin 17 × Bool)), s.regsCanon = true → s.alive = true →
    (mget none s.passes u = none → exec (.rangePassDone u bad) s = .next s) ∧
    (∀ m a b, mget none s.passes u = some ⟨m, a, b⟩ → b < 2 ^ 24 → m < 32 →
      (u.val < 8 → m < 8 → m ≠ 4 → ∃ t, exec (.rangePassDone u []) s = .next t ∧ mget none t.passes u = none ∧ t.rb (REG_SCRUB_PASS.BUSY u) = false ∧
        t.rf (REG_SCRUB_SUM_WORDS.COUNT u) = min ((b + 1 - a) * 16) (2 ^ 32 - 1) ∧ t.rf (REG_SCRUB_SUM_ERRS.COUNT u) = 0 ∧
        t.rb (REG_SCRUB_SUM_FIRST.VALID u) = false ∧ t.pendingBit (regionSrc 0x372 u) = true ∧
        FieldsKeptEv s t (REG_SCRUB_PASS.BUSY u :: wordFields (REG_SCRUB_SUM_WORDS.w u) 4) ∧
        t = { s with regs := t.regs, evts := t.evts, passes := t.passes }) ∧
      (u.val < 8 → m < 8 → m ≠ 4 → ∀ (l : BitVec 24) (w : Fin 17) (ok : Bool), a ≤ l.toNat → l.toNat ≤ b → s.rf CHIP_ERR_LOG_CTRL.VALID = 0 →
        ∃ t, exec (.rangePassDone u [(l, w, ok)]) s = .next t ∧ t.rf (REG_SCRUB_SUM_ERRS.COUNT u) = w.val ∧ t.rb (REG_SCRUB_SUM_FIRST.VALID u) = true ∧
          t.rf (REG_SCRUB_SUM_FIRST.LINE u) = l.toNat ∧ t.rf (REG_SCRUB_SUM_LAST.LINE u) = l.toNat ∧ t.rb (REG_ERR.SCRUB_PARITY u) = true ∧
          t.rf (CHIP_ERR_LOG.LOC 0) = l.toNat / rowLines m ∧ t.rb (CHIP_ERR_LOG.RETRY_OK 0) = ok ∧ t.rb (REG_SCRUB_PASS.BUSY u) = false ∧
          t = { s with regs := t.regs, evts := t.evts, passes := t.passes }) ∧
      (8 ≤ u.val → ∃ t, exec (.rangePassDone u []) s = .next t ∧ mget none t.passes u = none ∧ t.rb (HBM_SCRUB_PASS.BUSY (u - 8)) = false ∧
        t.rf (HBM_SCRUB_SUM_WORDS.COUNT (u - 8)) = min ((b + 1 - a) * 8) (2 ^ 32 - 1) ∧ t.pendingBit (0xE13 + (u.val - 8) * 0x40) = true ∧
        t = { s with regs := t.regs, evts := t.evts, passes := t.passes }) ∧
      (8 ≤ u.val → ∀ (l : BitVec 24) (w : Fin 17) (ok : Bool), a ≤ l.toNat → l.toNat ≤ b →
        ∃ t, exec (.rangePassDone u [(l, w, ok)]) s = .next t ∧ t.rb (HBM_SCRUB_PASS.BUSY (u - 8)) = false ∧ t.rb CHIP_DET_STATUS.PARITY = true ∧
          t.rf (HBM_SCRUB_SUM_ERRS.COUNT (u - 8)) = w.val ∧ t.rf (HBM_SCRUB_SUM_FIRST.LINE (u - 8)) = l.toNat ∧
          t.rb (HBM_ERR.DATA_PARITY (u - 8)) = true ∧ (ok = false → t.rb (HBM_ERR.DATA_PARITY_FAIL (u - 8)) = true) ∧
          t = { s with regs := t.regs, evts := t.evts, passes := t.passes }))) ∧
  (∀ (s : State) (n : Region) (i : Byte) (v : Word) (objs : List (BitVec 26)), s.regsCanon = true → s.hostOpen = true →
    (s.rb (REG_RETIRE.VALID n i.toNat) = true → exec (.retirementWrite n i v objs) s = .next s) ∧
    (s.rb (REG_RETIRE.VALID n i.toNat) = false → bit v.toNat 31 = false →
      exec (.retirementWrite n i v objs) s = .next (s.setReg (REG_RETIRE.w n i.toNat) (BitVec.ofNat 32 (v.toNat % 2 ^ 24)))) ∧
    (s.rb (REG_RETIRE.VALID n i.toNat) = false → bit v.toNat 31 = true →
      (s.retireResult n (bits v.toNat 20 4) (bits v.toNat 0 20) ≠ 0 →
        ∃ t, exec (.retirementWrite n i v objs) s = .next t ∧ t.rb (REG_ERR.RETIRE_REJECT n) = true ∧
          t.rf (REG_RETIRE_STATUS.LAST_RESULT n) = s.retireResult n (bits v.toNat 20 4) (bits v.toNat 0 20) ∧
          FieldsKeptEv s t [REG_ERR.RETIRE_REJECT n, REG_RETIRE_STATUS.LAST_RESULT n] ∧ SameButEvents s t) ∧
      (s.retireResult n (bits v.toNat 20 4) (bits v.toNat 0 20) = 0 →
        ∃ t, exec (.retirementWrite n i v objs) s = .next t ∧
          (bits v.toNat 20 4 = 4 → t.rb (REG_RETIRE.VALID n i.toNat) = true ∧ t.rf (REG_RETIRE.MEM n i.toNat) = 4 ∧
            t.rf (REG_RETIRE.ROW n i.toNat) = bits v.toNat 0 20 ∧ t.rf (REG_RETIRE_STATUS.LAST_RESULT n) = 0 ∧
            t.rf (REG_RETIRE_STATUS.USED n) = (s.rf (REG_RETIRE_STATUS.USED n) + 1) % 512 ∧
            (let a := entryIx n (bits v.toNat 0 20 / 512) (bits v.toNat 0 20 % 512 * 64)
             t = { s with regs := t.regs, evts := t.evts, tcam := outside a (a + 64) s.tcam, actions := outside a (a + 64) s.actions })) ∧
          (bits v.toNat 20 4 = 2 → s.mapsCanon = true → ∀ b, b < 64 → t.ep n (bits v.toNat 0 20 * 64 + b) = 0)))) ∧
  (∀ (s : State) (n row : Nat), s.retireResult n 5 row = 2 ∧ s.retireResult n 7 row = 2 ∧ s.retireResult n 9 row = 2 ∧ s.retireResult n 2 (16384 + row) = 3) ∧
  (∀ (s : State) (st : Stack) (i : BitVec 10) (v : Word), s.regsCanon = true → s.hostOpen = true →
    (s.rb (HBM_RETIRE.VALID st i.toNat) = true → exec (.hbmRetireWrite st i v) s = .next s) ∧
    (s.rb (HBM_RETIRE.VALID st i.toNat) = false → bit v.toNat 31 = false →
      exec (.hbmRetireWrite st i v) s = .next (s.setReg (HBM_RETIRE.w st i.toNat) (BitVec.ofNat 32 (v.toNat % 2 ^ 25)))) ∧
    (s.rb (HBM_RETIRE.VALID st i.toNat) = false → bit v.toNat 31 = true → ∀ q, q = 2 * bits v.toNat 0 4 + bits v.toNat 4 1 →
      (s.hbmRetireResult st q (bits v.toNat 5 5) (bits v.toNat 10 14) (bit v.toNat 24) ≠ 0 → exec (.hbmRetireWrite st i v) s = .next
        (s.wf (HBM_RETIRE_STATUS.LAST_RESULT st) (s.hbmRetireResult st q (bits v.toNat 5 5) (bits v.toNat 10 14) (bit v.toNat 24)))) ∧
      (s.hbmRetireResult st q (bits v.toNat 5 5) (bits v.toNat 10 14) (bit v.toNat 24) = 0 → s.slots = [] →
        (s.rx (2 * st.val)).pages = [] → (s.rx (2 * st.val + 1)).pages = [] →
        ∃ t, exec (.hbmRetireWrite st i v) s = .next t ∧ t.reg (HBM_RETIRE.w st i.toNat) = BitVec.ofNat 32 (v.toNat % 2 ^ 25 + 2 ^ 31) ∧
          t.rf (HBM_RETIRE_STATUS.USED st) = (s.rf (HBM_RETIRE_STATUS.USED st) + 1) % 2 ^ 11 ∧
          t.rf (HBM_SPARE_LEFT.ROWS st q) = s.rf (HBM_SPARE_LEFT.ROWS st q) - s.spareNeed st q (bits v.toNat 5 5) (bit v.toNat 24) ∧
          (bit v.toNat 24 = false → t.hbmPc = (s.moveRows st q [] [bits v.toNat 10 14 * s.hbmBanks + bits v.toNat 5 5]).hbmPc) ∧
          (bit v.toNat 24 = true → t.hbmPc = (s.moveRows st q [bits v.toNat 5 5]
            ((List.range 12288).map (fun k => k * s.hbmBanks + bits v.toNat 5 5) ++ s.movedAgain st q (bits v.toNat 5 5))).hbmPc) ∧
          FieldsKept s t [⟨HBM_RETIRE.w st i.toNat, 0, 32⟩, HBM_RETIRE_STATUS.USED st, HBM_RETIRE_STATUS.LAST_RESULT st, HBM_SPARE_LEFT.ROWS st q] ∧
          t = { s with regs := t.regs, hbmPc := t.hbmPc })))

/-! ### Counters (file 18) -/

/-- R590 to R597, R664: an arm's result is 2 while one of its kind is pending, 3 where the frozen state does not suit, 1 where the lead rule fails, else 0,
and then the arm is pending; CANCEL clears the arms whose stroke is at least 64 ahead. A boundary that every unit has passed freezes, thaws or
completes the snapshot; the counters of cycles that run hold from a freeze on one (free) value each, and those
whose clock is stopped keep theirs. Counters wrap modulo 2^48, and count what their selection names.

Completes: FREEZE_ARM, THAW_ARM, SNAP_ARM, COUNTER_CANCEL, BOUNDARY_COMPLETE, SAMPLE_FREE. -/
def Obligations.CounterBoundaries : Prop :=
  (∀ (s : State) (v : Word), s.regsCanon = true → s.hostOpen = true → bits v.toNat 1 3 = 0 →
    ∃ t, exec (.freezeArm v) s = .next t ∧ t.rf CT_STATUS.ARM_RESULT = (if s.rb CT_STATUS.FREEZE_PEND then 2 else if s.rb CT_STATUS.FROZEN then 3
        else if leadOk s.strokeNow (s.rf CT_FREEZE_STROKE.STROKE) then 0 else 1) ∧
      (t.rf CT_STATUS.ARM_RESULT = 0 → t.rb CT_STATUS.FREEZE_PEND = true ∧ t.countx = { s.countx with freezeAt := s.rf CT_FREEZE_STROKE.STROKE }) ∧
      (t.rf CT_STATUS.ARM_RESULT ≠ 0 → t.rb CT_STATUS.FREEZE_PEND = s.rb CT_STATUS.FREEZE_PEND ∧ t.countx = s.countx) ∧
      FieldsKept s t [CT_STATUS.ARM_RESULT, CT_STATUS.FREEZE_PEND] ∧ t = { s with regs := t.regs, countx := t.countx }) ∧
  (∀ (s : State) (v : Word), s.regsCanon = true → s.hostOpen = true → bits v.toNat 0 1 = 0 → bits v.toNat 2 2 = 0 →
    ∃ t, exec (.thawArm v) s = .next t ∧ t.rf CT_STATUS.ARM_RESULT = (if s.rb CT_STATUS.THAW_PEND then 2
        else if (if s.rb CT_STATUS.FREEZE_PEND then strokeLt s.countx.freezeAt (s.rf CT_THAW_STROKE.STROKE) else s.rb CT_STATUS.FROZEN) = false then 3
        else if leadOk s.strokeNow (s.rf CT_THAW_STROKE.STROKE) then 0 else 1) ∧
      (t.rf CT_STATUS.ARM_RESULT = 0 → t.rb CT_STATUS.THAW_PEND = true ∧ t.countx = { s.countx with thawAt := s.rf CT_THAW_STROKE.STROKE }) ∧
      (t.rf CT_STATUS.ARM_RESULT ≠ 0 → t.rb CT_STATUS.THAW_PEND = s.rb CT_STATUS.THAW_PEND ∧ t.countx = s.countx) ∧
      FieldsKept s t [CT_STATUS.ARM_RESULT, CT_STATUS.THAW_PEND] ∧ t = { s with regs := t.regs, countx := t.countx }) ∧
  (∀ (s : State) (v : Word), s.hostOpen = true → bits v.toNat 0 2 = 0 → bits v.toNat 3 1 = 0 → s.regsCanon = true →
    ∃ t, exec (.snapArm v) s = .next t ∧ t.rf CT_STATUS.ARM_RESULT = (if s.rb CT_STATUS.SNAP_PEND then 2
        else if leadOk s.strokeNow (s.rf CT_SNAP_STROKE.STROKE) then 0 else 1) ∧
      (t.rf CT_STATUS.ARM_RESULT = 0 → t.rb CT_STATUS.SNAP_PEND = true ∧ t.rb CT_STATUS.SNAP_READY = false ∧
        t.countx = { s.countx with snapAt := s.rf CT_SNAP_STROKE.STROKE } ∧
        ∀ u k, u < 138 → k < 8 → t.rf (CT_SNAP_BANK.COUNT u (k + 1)) = s.rf ⟨CT_CNT.w u k, 0, 64⟩) ∧
      (t.rf CT_STATUS.ARM_RESULT ≠ 0 → t.countx = s.countx ∧ FieldsKept s t [CT_STATUS.ARM_RESULT]) ∧
      FieldsKept s t ([CT_STATUS.ARM_RESULT, CT_STATUS.SNAP_PEND, CT_STATUS.SNAP_READY] ++
        (List.range 138).flatMap (fun u => wordFields (CT_SNAP_BANK.w u 0) 64)) ∧
      t = { s with regs := t.regs, countx := t.countx }) ∧
  (∀ (s : State) (v : Word), s.regsCanon = true → s.hostOpen = true → bits v.toNat 0 3 = 0 →
    ∃ t, exec (.counterCancel v) s = .next t ∧
      t.rb CT_STATUS.FREEZE_PEND = (s.rb CT_STATUS.FREEZE_PEND && !leadOk s.strokeNow s.countx.freezeAt) ∧
      t.rb CT_STATUS.THAW_PEND = (s.rb CT_STATUS.THAW_PEND && !leadOk s.strokeNow s.countx.thawAt) ∧
      t.rb CT_STATUS.SNAP_PEND = (s.rb CT_STATUS.SNAP_PEND && !leadOk s.strokeNow s.countx.snapAt) ∧
      FieldsKept s t [CT_STATUS.FREEZE_PEND, CT_STATUS.THAW_PEND, CT_STATUS.SNAP_PEND] ∧ SameButRegs s t) ∧
  (∀ s : State, s.regsCanon = true →
    (s.rb CT_STATUS.FREEZE_PEND = true → s.boundaryPassed s.countx.freezeAt = true →
      ∃ t, exec (.boundaryComplete 0) s = .next t ∧ t.rb CT_STATUS.FROZEN = true ∧ t.rb CT_STATUS.FREEZE_PEND = false ∧ t.pendingBit 0x050 = true ∧
        (∀ u < 138, s.cycling u = false → t.rf (CT_CYCLE.CYCLES u) = s.rf (CT_CYCLE.CYCLES u)) ∧
        (∀ u k, u < 138 → k < 8 → s.countsCycles u k = false → t.rf (CT_CNT.COUNT u k) = s.rf (CT_CNT.COUNT u k)) ∧
        ((∀ u k, u < 138 → k < 8 → s.countsCycles u k = false) →
          FieldsKeptEv s t ([CT_STATUS.FROZEN, CT_STATUS.FREEZE_PEND] ++ (List.range 138).flatMap (fun u => wordFields (CT_CYCLE.w u) 2))) ∧
        t = { s with regs := t.regs, evts := t.evts, free := t.free }) ∧
    ((s.rb CT_STATUS.FREEZE_PEND = false ∨ s.boundaryPassed s.countx.freezeAt = false) → exec (.boundaryComplete 0) s = .next s) ∧
    (s.rb CT_STATUS.THAW_PEND = true → s.rb CT_STATUS.FROZEN = true → s.boundaryPassed s.countx.thawAt = true → s.rb CT_STATUS.SNAP_PEND = false →
      ∃ t, exec (.boundaryComplete 1) s = .next t ∧ t.rb CT_STATUS.FROZEN = false ∧ t.rb CT_STATUS.THAW_PEND = false ∧ t.pendingBit 0x050 = true ∧
        FieldsKeptEv s t [CT_STATUS.FROZEN, CT_STATUS.THAW_PEND] ∧ t = { s with regs := t.regs, evts := t.evts }) ∧
    ((s.rb CT_STATUS.THAW_PEND = false ∨ s.rb CT_STATUS.FROZEN = false ∨ s.boundaryPassed s.countx.thawAt = false) →
      exec (.boundaryComplete 1) s = .next s) ∧
    (s.rb CT_STATUS.SNAP_PEND = true → s.boundaryPassed s.countx.snapAt = true → s.rb CT_STATUS.FREEZE_PEND = false →
      ∃ t, exec (.boundaryComplete 2) s = .next t ∧ t.rb CT_STATUS.SNAP_PEND = false ∧ t.rb CT_STATUS.SNAP_READY = true ∧ t.pendingBit 0x050 = true ∧
        (s.rb CT_STATUS.FROZEN = true → t.free = s.free ∧ ∀ u, u < 138 →
          t.reg (CT_SNAP_BANK.w u 0) = s.reg (CT_CYCLE.w u) ∧ t.reg (CT_SNAP_BANK.w u 0 + 1) = s.reg (CT_CYCLE.w u + 1)) ∧
        (∀ u k, u < 138 → k < 8 → s.countsCycles u k = false → t.rf (CT_SNAP_BANK.COUNT u (k + 1)) = s.rf (CT_SNAP_BANK.COUNT u (k + 1))) ∧
        FieldsKeptEv s t ([CT_STATUS.SNAP_PEND, CT_STATUS.SNAP_READY] ++ (List.range 138).flatMap (fun u => wordFields (CT_SNAP_BANK.w u 0) 18)) ∧
        t = { s with regs := t.regs, evts := t.evts, free := t.free }) ∧
    ((s.rb CT_STATUS.SNAP_PEND = false ∨ s.boundaryPassed s.countx.snapAt = false) → exec (.boundaryComplete 2) s = .next s)) ∧
  (∀ (s : State) (u : Fin 138) (v : Word), s.regsCanon = true → s.hostOpen = true →
    ∃ t, exec (.sampleFree u v) s = .next t ∧ t.rb (CT_SAMPLE.VALID u) = false ∧ FieldsKept s t [CT_SAMPLE.VALID u] ∧ SameButRegs s t) ∧
  (∀ (s : State) (u k code n at' item : Nat) (q : Option Nat), s.regsCanon = true → u < 138 → k < 8 →
    (s.rb (CT_SEL.EN u k) = true → s.rf (CT_SEL.EVENT u k) = code → s.rf (CT_SEL.QUAL u k) = 255 → s.counts at' = true →
      (s.evOne u code q n at' item k).rf (CT_CNT.COUNT u k) = (s.rf (CT_CNT.COUNT u k) + n) % 2 ^ 48 ∧
      (2 ^ 48 ≤ s.rf (CT_CNT.COUNT u k) + n → bit ((s.evOne u code q n at' item k).rf (CT_UNIT_STATUS.OVF u)) k = true)) ∧
    ((s.rb (CT_SEL.EN u k) = false ∨ s.rf (CT_SEL.EVENT u k) ≠ code ∨ s.counts at' = false ∨
        ∃ j, q = some j ∧ s.rf (CT_SEL.QUAL u k) ≠ 255 ∧ s.rf (CT_SEL.QUAL u k) ≠ j) → s.evOne u code q n at' item k = s))

/-! ### Power, pins and the PCIe function (files 20, 21, 12) -/

/-- R623 to R625: each 100 µs with EN = 1 a target is computed and the voltage moves at most 2.5 mV towards it within 720 to 800 mV; with EN = 0 one command
of 750 mV is sent. A transaction that is not acknowledged is retried, and one not acknowledged three times sets PMBUS_NACK and changes no voltage. Each
goes to address 0x40 plus the strapped one, with the voltage as volts in the linear format of VOUT_MODE's exponent (log entry 219). The poll reads the
current, and a regulator fault halts the device with cause 0x31. The limit and step are counted in half-millivolts. R634, R635, R650: the warning is the crossing of WARN_C, TRIP_C halts with cause 0x30, a low
rail with cause 0x32 but before the islands step of priming and without supplies or in Strap.
R627 to R629: an idle region at level 8 whose gating is enabled asks to step down, work asks it to step up, and a grant moves one region by one level
when the refilled budget holds a step and its last step is 250 ns old, in rotation; a region's counters of cycles end with its level 0.

Completes: AVS_TICK, PMBUS_POLL, THERMAL_READ, RAIL_LOW, IDLE_STEP_DOWN, WAKE_STEP_UP, LEVEL_STEP_GRANT. -/
def Obligations.PowerAndGovernor : Prop :=
  (∀ (s : State) (target : BitVec 10) (fails : Fin 4), s.regsCanon = true → s.powered = true →
    (s.rb PWR_AVS.EN = true → fails.val < 3 → ∃ t, exec (.avsTick target fails) s = .next t ∧ t.rf PWR_AVS.TARGET_MV = target.toNat ∧
      (1440 ≤ s.setHalf → s.setHalf ≤ 1600 → 720 ≤ target.toNat → target.toNat ≤ 800 →
        t.setHalf = (if s.setHalf < 2 * target.toNat then min (2 * target.toNat) (s.setHalf + 5) else max (2 * target.toNat) (s.setHalf - 5))) ∧
      1440 ≤ t.setHalf ∧ t.setHalf ≤ 1600 ∧
      (t.setHalf ≠ s.setHalf → t.outputs = List.replicate (fails + 1) (.pmbus (0x40 + s.rf CHIP_STRAP.PMBUS_ADDR) pmbVoutCommand (s.voutWord t.setHalf)) ++
        s.outputs) ∧
      (t.setHalf = s.setHalf → t.outputs = s.outputs) ∧ t.pwr = { s.pwr with fixed := false, half := t.pwr.half } ∧
      FieldsKept s t [PWR_AVS.TARGET_MV, PWR_AVS.SET_MV] ∧ t = { s with regs := t.regs, pwr := t.pwr, outputs := t.outputs, free := t.free }) ∧
    (s.rb PWR_AVS.EN = true → fails.val = 3 → ∃ t, exec (.avsTick target fails) s = .next t ∧ t.rf PWR_AVS.TARGET_MV = target.toNat ∧
      t.pwr = { s.pwr with fixed := false } ∧ FieldsKeptEv s t [PWR_AVS.TARGET_MV, PWR_ERR.PMBUS_NACK] ∧
      (avsNext s.setHalf (2 * target.toNat) ≠ s.setHalf → t.rb PWR_ERR.PMBUS_NACK = true ∧
        t.outputs = List.replicate 3 (.pmbus s.pmbAddr pmbVoutCommand (s.voutWord (avsNext s.setHalf (2 * target.toNat)))) ++ s.outputs) ∧
      (avsNext s.setHalf (2 * target.toNat) = s.setHalf → t.rb PWR_ERR.PMBUS_NACK = s.rb PWR_ERR.PMBUS_NACK ∧ t.outputs = s.outputs) ∧
      t = { s with regs := t.regs, pwr := t.pwr, outputs := t.outputs, free := t.free, evts := t.evts }) ∧
    (s.rb PWR_AVS.EN = false → s.pwr.fixed = false → fails.val < 3 → ∃ t, exec (.avsTick target fails) s = .next t ∧ t.setHalf = 1500 ∧
      t.pwr = { s.pwr with fixed := true, half := false } ∧ t.outputs = List.replicate (fails + 1) (.pmbus s.pmbAddr pmbVoutCommand (s.voutWord 1500)) ++ s.outputs ∧
      FieldsKept s t [PWR_AVS.SET_MV] ∧ t = { s with regs := t.regs, pwr := t.pwr, outputs := t.outputs, free := t.free }) ∧
    (s.rb PWR_AVS.EN = false → s.pwr.fixed = true → exec (.avsTick target fails) s = .next s) ∧
    (s.rb PWR_AVS.EN = false → s.pwr.fixed = false → fails.val = 3 → ∃ t, exec (.avsTick target fails) s = .next t ∧ t.rb PWR_ERR.PMBUS_NACK = true ∧
      FieldsKeptEv s t [PWR_ERR.PMBUS_NACK] ∧
      t.outputs = List.replicate 3 (.pmbus s.pmbAddr pmbVoutCommand (s.voutWord 1500)) ++ s.outputs ∧
      t = { s with regs := t.regs, outputs := t.outputs, free := t.free, evts := t.evts })) ∧
  (∀ (s : State) (h n : Nat), s.pwr.voutExp = some (-(n : Int)) → s.voutWord h * 2000 < h * 2 ^ n + 2000 ∧ h * 2 ^ n < s.voutWord h * 2000 + 2000) ∧
  (∀ (s : State) (target : BitVec 10) (fails : Fin 4), s.powered = false → exec (.avsTick target fails) s = .next s) ∧
  (∀ (s : State) (iout : BitVec 11) (uv oc pgood : Bool) (f1 f2 : Fin 4), s.regsCanon = true → s.powered = true →
    (f1.val < 3 → f2.val < 3 → (uv || oc || pgood) = false → ∃ t, exec (.pmbusPoll iout uv oc pgood f1 f2) s = .next t ∧
      t.rf PWR_IOUT.IOUT_A = iout.toNat ∧ FieldsKept s t [PWR_IOUT.IOUT_A] ∧
      t.outputs = List.replicate (f2 + 1) (.pmbus s.pmbAddr pmbStatusWord 0) ++ List.replicate (f1 + 1) (.pmbus s.pmbAddr pmbReadIout 0) ++ s.outputs ∧
      t = { s with regs := t.regs, outputs := t.outputs }) ∧
    (f2.val < 3 → s.halted = false → (uv || oc || pgood) = true → ∃ t, exec (.pmbusPoll iout uv oc pgood f1 f2) s = .next t ∧ t.halted = true ∧
      t.rf CHIP_HALT_CAUSE.CAUSE = 0x31) ∧
    ((f1.val = 3 ∨ f2.val = 3) → (f2.val = 3 ∨ (uv || oc || pgood) = false) →
      ∃ t, exec (.pmbusPoll iout uv oc pgood f1 f2) s = .next t ∧ t.rb PWR_ERR.PMBUS_NACK = true ∧
        t.rf PWR_IOUT.IOUT_A = (if f1.val = 3 then s.rf PWR_IOUT.IOUT_A else iout.toNat) ∧ FieldsKeptEv s t [PWR_IOUT.IOUT_A, PWR_ERR.PMBUS_NACK] ∧
        t = { s with regs := t.regs, outputs := t.outputs, evts := t.evts })) ∧
  (∀ (s : State) (iout : BitVec 11) (uv oc pgood : Bool) (f1 f2 : Fin 4) (t' : Byte), s.powered = false →
    exec (.pmbusPoll iout uv oc pgood f1 f2) s = .next s ∧ exec (.thermalRead t') s = .next s) ∧
  (∀ (s : State) (t' : Byte), s.regsCanon = true → s.powered = true →
    (t'.toNat < s.rf PWR_THERM.WARN_C → t'.toNat < s.rf PWR_THERM.TRIP_C → ∃ t, exec (.thermalRead t') s = .next t ∧ t.rf PWR_THERM.TEMP_C = t'.toNat ∧
      FieldsKept s t [PWR_THERM.TEMP_C] ∧ SameButRegs s t) ∧
    (s.rf PWR_THERM.TEMP_C < s.rf PWR_THERM.WARN_C → s.rf PWR_THERM.WARN_C ≤ t'.toNat → t'.toNat < s.rf PWR_THERM.TRIP_C →
      ∃ t, exec (.thermalRead t') s = .next t ∧ t.rf PWR_THERM.TEMP_C = t'.toNat ∧ t.rb PWR_ERR.THERM_WARN = true ∧ t.pendingBit 0xF21 = true ∧
        FieldsKeptEv s t [PWR_THERM.TEMP_C, PWR_ERR.THERM_WARN] ∧ SameButEvents s t) ∧
    (s.rf PWR_THERM.WARN_C ≤ s.rf PWR_THERM.TEMP_C → t'.toNat < s.rf PWR_THERM.TRIP_C →
      exec (.thermalRead t') s = .next (s.wf PWR_THERM.TEMP_C t'.toNat)) ∧
    (s.rf PWR_THERM.TRIP_C ≤ t'.toNat → s.halted = false → ∃ t, exec (.thermalRead t') s = .next t ∧ t.halted = true ∧
      t.rf CHIP_HALT_CAUSE.CAUSE = 0x30 ∧ t.rf PWR_THERM.TEMP_C = t'.toNat)) ∧
  (∀ s : State, s.regsCanon = true → ((s.chipState = stOff ∨ s.chipState = stStrap ∨ s.halted = true ∨ (s.chipState = stPriming ∧ s.rf CHIP_PRIME_STATUS.STEP < 3)) →
      exec .railLow s = .next s) ∧
    (s.powered = true → s.halted = false → ¬(s.chipState = stPriming ∧ s.rf CHIP_PRIME_STATUS.STEP < 3) →
      ∃ t, exec .railLow s = .next t ∧ t.halted = true ∧ t.rf CHIP_HALT_CAUSE.CAUSE = 0x32)) ∧
  (∀ (s : State) (n : Region),
    (s.alive = true → s.level n = 8 → bit (s.rf (PWR_CFG.GATE_EN)) n = true → s.heldFull n = false → s.idle n = true →
      ∃ t, exec (.idleStepDown n) s = .next t ∧ t.wants n = 1 ∧ (∀ m, m ≠ n.val → t.wants m = s.wants m) ∧ t = { s with pwr := t.pwr }) ∧
    ((s.alive = false ∨ s.level n ≠ 8 ∨ bit (s.rf (PWR_CFG.GATE_EN)) n = false ∨ s.heldFull n = true ∨ s.idle n = false) →
      exec (.idleStepDown n) s = .next s)) ∧
  (∀ (s : State) (n : Region),
    (s.alive = true → ∃ t, exec (.wakeStepUp n) s = .next t ∧
      t = { s with pwr := { s.pwr with want := mset 0 s.pwr.want n (if s.level n = 8 then 0 else 2) } } ∧
      (mapCanon 0 s.pwr.want = true → s.heldFull n = false → t.wants n = (if s.level n = 8 then 0 else 2)) ∧ (∀ m, m ≠ n.val → t.wants m = s.wants m)) ∧
    (s.alive = false → exec (.wakeStepUp n) s = .next s)) ∧
  (∀ (s : State) (n : Region) (k : Nat), s.regsCanon = true → s.powered = true → k < 8 → (s.pwr.ptr + k) % 8 = n →
    (∀ j, j < k → s.stepReady ((s.pwr.ptr + j) % 8) = false) → s.wants n = 1 → s.stepReady n = true →
    stepMa ≤ s.refill.pwr.budget → s.level n ≠ 0 →
    ∃ t, exec .levelStepGrant s = .next t ∧ t.level n = s.level n - 1 ∧ t.pwr.budget = s.refill.pwr.budget - stepMa ∧ t.pwr.ptr = (n + 1) % 8 ∧
      t.stepReady n = false ∧ (∀ m, m < 8 → m ≠ n.val → t.level m = s.level m) ∧
      (s.level n ≠ 1 → FieldsKept s t [PWR_STATUS.LEVEL n] ∧ t = { s with regs := t.regs, pwr := t.pwr }) ∧
      (s.level n = 1 → t = { s with regs := t.regs, pwr := t.pwr, evts := t.evts, free := t.free })) ∧
  (∀ (s : State) (n : Region) (k : Nat), s.regsCanon = true → mapCanon 0 s.pwr.want = true → mapCanon 0 s.pwr.fullAt = true → s.powered = true →
    k < 8 → (s.pwr.ptr + k) % 8 = n → (∀ j, j < k → s.stepReady ((s.pwr.ptr + j) % 8) = false) → s.wants n = 2 → s.stepReady n = true → stepMa ≤ s.refill.pwr.budget → s.level n < 8 →
    ∃ t, exec .levelStepGrant s = .next t ∧ t.level n = s.level n + 1 ∧ t.pwr.budget = s.refill.pwr.budget - stepMa ∧ t.pwr.ptr = (n + 1) % 8 ∧ t.stepReady n = false ∧
      (s.level n = 7 → t.wants n = 0 ∧ mget 0 t.pwr.fullAt n = s.time.tick) ∧ (∀ m, m < 8 → m ≠ n.val → t.level m = s.level m) ∧
      t = { s with regs := t.regs, pwr := t.pwr, evts := t.evts }) ∧
  (∀ s : State, s.powered = true → ((∀ n, n < 8 → s.stepReady n = false) ∨ s.refill.pwr.budget < stepMa) →
    ∃ t, exec .levelStepGrant s = .next t ∧ t.pwr.budget = min stepMa (s.pwr.budget + (s.time.tick - s.pwr.budgetAt) * s.rf PWR_CFG.SLEW) ∧
      t = { s with pwr := { s.pwr with budget := t.pwr.budget, budgetAt := s.time.tick } }) ∧
  (∀ s : State, s.powered = false → exec .levelStepGrant s = .next s)

/-- R646, R609, R611, R612, R403, R77, R78, R428, R614: the test access port's instructions select their registers, EXTEST drives the outputs from the boundary
register and HIGHZ floats them while SYS_RESET_N is asserted, and none works without supplies. PCIE_PERST_N lets the link train once the wellhead is ready for it; a link that comes up runs at the fastest rate of its
partner that PCIE_MAX allows, shows its speed, width and mode and releases the wake pin; a configuration write takes the power state, PME_En and the
function mask, and sends the messages that the mask held back; one answered with the retry status does nothing.

Completes: BYPASS, IDCODE, SAMPLE_PRELOAD, EXTEST, HIGHZ, PCIE_PERST_N_DEASSERT, PCIE_LINK_UP, CONFIG_SPACE_WRITE. -/
def Obligations.PinsAndFunction : Prop :=
  (∀ s : State, s.chipState ≠ stOff →
    exec .bypass s = .next { s with tapx := { s.tapx with instr := 0, sel := tapBypass, data := 0 } } ∧
    exec .idcode s = .next { s with tapx := { s.tapx with instr := 1, sel := tapIdentity, data := idCode } } ∧
    (∀ pins preload : BitVec 25, exec (.samplePreload pins preload) s = .next { s with tapx := ⟨2, tapBoundary, pins.toNat, preload.toNat⟩ }) ∧
    (∀ pins : BitVec 25, s.chip.sysReset = true →
      ∃ t, exec (.extest pins) s = .next t ∧ t.tapx = { s.tapx with instr := 3, sel := tapBoundary, data := pins.toNat } ∧ t.extestDrives = true ∧
        (∀ k own, t.outputPin k own = some (bit s.tapx.boundary k)) ∧ t = { s with tapx := t.tapx }) ∧
    (∀ pins : BitVec 25, s.chip.sysReset = false →
      ∃ t, exec (.extest pins) s = .next t ∧ t.tapx = { s.tapx with instr := 3, sel := tapBypass, data := 0 } ∧ t.extestDrives = false ∧
        (∀ k own, t.outputPin k own = own) ∧ t = { s with tapx := t.tapx }) ∧
    (∃ t, exec .highz s = .next t ∧ t.tapx = { s.tapx with instr := 4, sel := tapBypass, data := 0 } ∧ t.highzFloats = s.chip.sysReset ∧
      (∀ k own, t.outputPin k own = if s.chip.sysReset then none else own) ∧ t = { s with tapx := t.tapx })) ∧
  (idCode % 2 = 1 ∧ idCode / 2 % 2 ^ 11 = Config.manufacturer.toNat ∧ idCode / 2 ^ 12 % 2 ^ 16 = 0x9100 ∧ idCode / 2 ^ 28 = 2) ∧
  (∀ s : State, s.chipState = stOff → exec .bypass s = .next s ∧ exec .idcode s = .next s ∧ (∀ a b, exec (.samplePreload a b) s = .next s) ∧
    (∀ a, s.chip.sysReset = false → exec (.extest a) s = .next s) ∧ exec .highz s = .next s) ∧
  (∀ s : State, exec .pciePerstNDeassert s = .next { s with cfg := { s.cfg with perst := false, training := s.linkReady } }) ∧
  (∀ (s : State) (speed : Fin 7) (width : Fin 17) (flit : Bool), s.regsCanon = true → (Instr.pcieLinkUp speed width flit).wellFormed = true →
    (s.cfg.training = true → ∃ t, exec (.pcieLinkUp speed width flit) s = .next t ∧ t.rb HIF_STATUS.LINK_UP = true ∧ t.rf HIF_STATUS.SPEED = min speed.val (6 - s.rf CHIP_STRAP.PCIE_MAX) ∧
      t.rf HIF_STATUS.WIDTH = width.val ∧ t.rb HIF_STATUS.FLIT = (flit || decide (t.rf HIF_STATUS.SPEED = 6)) ∧
      FieldsKept s t [HIF_STATUS.LINK_UP, HIF_STATUS.SPEED, HIF_STATUS.WIDTH, HIF_STATUS.FLIT] ∧
      t.wakeDriven = false ∧ t = { s with regs := t.regs, cfg := { s.cfg with wakeN := false } }) ∧
    (s.cfg.training = false → exec (.pcieLinkUp speed width flit) s = .next s)) ∧
  (∀ (s : State) (power : Fin 5) (pmeEn pmeClear fnMask : Bool), s.answers = false → exec (.configSpaceWrite power pmeEn pmeClear fnMask) s = .next s) ∧
  (∀ (s : State) (power : Fin 5) (pmeEn pmeClear fnMask : Bool), (Instr.configSpaceWrite power pmeEn pmeClear fnMask).wellFormed = true → s.answers = true →
    (fnMask = true ∨ s.cfg.fnMask = false ∨ (∀ w, w < 64 → s.reg (MSIX_PBA.w w) = 0)) →
    exec (.configSpaceWrite power pmeEn pmeClear fnMask) s = .next { s with
      cfg := { s.cfg with power := power, pmeEn := pmeEn, pmeStatus := s.cfg.pmeStatus && !pmeClear, fnMask := fnMask } }) ∧
  (∀ (s : State) (power : Fin 5) (pmeEn pmeClear : Bool) (v : Nat), s.regsCanon = true → s.answers = true → v < 2048 → s.cfg.fnMask = true → s.rb (MSIX_CTRL.MASK v) = false →
    (∀ w, w < 64 → s.reg (MSIX_PBA.w w) = if w = v / 32 then BitVec.ofNat 32 (2 ^ (v % 32)) else 0) →
    ∃ t, exec (.configSpaceWrite power pmeEn pmeClear false) s = .next t ∧ t.reg (MSIX_PBA.w (v / 32)) = 0 ∧
      t.outputs = .msi (s.rf (MSIX_ADDR_LO.ADDR v) * 4 + 2 ^ 32 * s.rf (MSIX_ADDR_HI.ADDR v)) (s.rf (MSIX_DATA.DATA v)) :: s.outputs ∧
      t = { s with regs := t.regs, outputs := t.outputs, cfg := t.cfg, evts := t.evts })

/-! ### Reset, priming, running and quiescing (file 19) -/

/-- R606, R609 to R612: a full reset leaves every register at its reset value but for CHIP_ID's fused size, the chip state and its event, and the level of
PAIR_HOLD_IN, and every memory and queue empty, in Strap or past it; it needs 10 µs of SYS_RESET_N, or its key, which works while the wellhead answers. The
straps are latched as the reset ends; STRAP7 high keeps the device in Strap. A reset by its key resamples them: the levels of STRAP0 to STRAP6 are then
free (log entry 220). A warm reset keeps what R610 lists and is ignored while Halted or after a failed priming. A wellhead reset returns the PCIe function
to its reset values and every ring to DISABLED.

Completes: SUPPLY_LOSS, SYS_RESET_ASSERT, SYS_RESET_DEASSERT, WARM_RESET, RESET_CTRL_WARM, RESET_CTRL_FULL, WELLHEAD_RESET. -/
def Obligations.Resets : Prop :=
  (∀ s : State, ∃ t, exec .supplyLoss s = .next t ∧ t.chipState = stOff ∧
    FieldsKept State.reset t [CHIP_STATE.STATE, CHIP_ID.HBM_GIB, PAIR_STATUS.HOLD_IN, ⟨CHIP_EVT_PEND.w 0, 1, 1⟩, ⟨CHIP_EVT_SUMMARY.w 0, 0, 1⟩] ∧
    t.rf CHIP_ID.HBM_GIB = s.rf CHIP_ID.HBM_GIB ∧ t.rb PAIR_STATUS.HOLD_IN = s.pairx.heldIn ∧ t.pendingBit 0x001 = true ∧
    t = { State.reset with
      regs := t.regs, hostMem := s.hostMem, outputs := s.outputs, pending := s.pending, free := s.free, cfg := { perst := s.cfg.perst },
      chip := { sysReset := s.chip.sysReset, supplies := false, straps := s.chip.straps }, pairx := { heldIn := s.pairx.heldIn } }) ∧
  (∀ (s : State) (us : BitVec 16) (valid : Bool),
    (10 ≤ us.toNat → (s.chipState ≠ stOff ∨ valid = true) →
      ∃ t, exec (.sysResetAssert us valid) s = .next t ∧ t.chipState = stStrap ∧
        FieldsKept State.reset t [CHIP_STATE.STATE, CHIP_ID.HBM_GIB, PAIR_STATUS.HOLD_IN, ⟨CHIP_EVT_PEND.w 0, 1, 1⟩, ⟨CHIP_EVT_SUMMARY.w 0, 0, 1⟩] ∧
        t.rf CHIP_ID.HBM_GIB = s.rf CHIP_ID.HBM_GIB ∧ t.rb PAIR_STATUS.HOLD_IN = s.pairx.heldIn ∧ t.pendingBit 0x001 = true ∧
        t = { State.reset with
          regs := t.regs, hostMem := s.hostMem, outputs := s.outputs, pending := s.pending, free := s.free, cfg := { perst := s.cfg.perst },
          chip := { sysReset := true, supplies := true, straps := s.chip.straps },
          tapx := if s.tapx.instr = 3 then { s.tapx with sel := tapBoundary } else s.tapx, pairx := { heldIn := s.pairx.heldIn } }) ∧
    ((us.toNat < 10 ∨ (s.chipState = stOff ∧ valid = false)) → exec (.sysResetAssert us valid) s = .next s)) ∧
  (∀ (s : State) (straps : Byte), s.regsCanon = true →
    (s.chip.sysReset = true → s.chipState = stStrap → ∃ t, exec (.sysResetDeassert straps) s = .next t ∧
      t.reg CHIP_STRAP.w = BitVec.ofNat 32 straps.toNat ∧
      (bit straps.toNat 7 = false → t.chipState = stPriming ∧ t.rf CHIP_PRIME_STATUS.STEP = 1 ∧ t.pendingBit 0x001 = true ∧
        FieldsKeptEv s t [CHIP_STATE.STATE, CHIP_PRIME_STATUS.STEP, ⟨CHIP_STRAP.w, 0, 32⟩]) ∧
      (bit straps.toNat 7 = true → t.chipState = stStrap ∧ t.evts = s.evts ∧ FieldsKept s t [⟨CHIP_STRAP.w, 0, 32⟩]) ∧
      t = { s with
        regs := t.regs, evts := t.evts, chip := { s.chip with sysReset := false, straps := straps.toNat },
        tapx := if s.tapx.instr = 3 then { s.tapx with sel := tapBypass, data := 0 } else s.tapx }) ∧
    ((s.chip.sysReset = false ∨ s.chipState ≠ stStrap) → exec (.sysResetDeassert straps) s = .next s)) ∧
  (∀ (s : State) (us : BitVec 16) (v : Word), s.regsCanon = true →
    (s.warmOpen = true → 1 ≤ us.toNat → ∃ t, exec (.warmReset us) s = .next t ∧
      (s.answers = true → bits v.toNat 8 8 = 0x3C → exec (.resetCtrlWarm v) s = .next t) ∧
      t.chipState = stPriming ∧ t.rb CHIP_STATE.WARM = true ∧ t.rf CHIP_PRIME_STATUS.STEP = 1 ∧ t.rb PAIR_STATUS.HOLD_IN = s.pairx.heldIn ∧
      t.pendingBit 0x001 = true ∧ (∀ w, keptWarm w = true → t.reg w = s.reg w) ∧
      (∀ w, keptWarm w = false →
        w ∉ [CHIP_ERR_LOG_CTRL.w, CHIP_STATE.w, CHIP_PRIME_STATUS.w, PAIR_STATUS.w, CHIP_EVT_PEND.w 0, CHIP_EVT_SUMMARY.w 0] →
        (∀ st c, st < 4 → c < 16 → w ≠ HBM_CH_STATUS.w st c) → (∀ st, st < 4 → w ≠ HBM_RETIRE_STATUS.w st) →
        (∀ n, n < 8 → w ≠ REG_RETIRE_STATUS.w n) → t.reg w = resetWord w) ∧
      t.rf CHIP_ERR_LOG_CTRL.VALID = s.rf CHIP_ERR_LOG_CTRL.VALID ∧
      (∀ st c, st < 4 → c < 16 → (t.chState st c = hcFenced ↔ s.chState st c = hcFenced) ∧
        t.rf (HBM_CH_STATUS.REPAIRED_A st c) = s.rf (HBM_CH_STATUS.REPAIRED_A st c) ∧
        t.rf (HBM_CH_STATUS.REPAIRED_B st c) = s.rf (HBM_CH_STATUS.REPAIRED_B st c)) ∧
      (∀ st, st < 4 → t.rf (HBM_RETIRE_STATUS.USED st) = s.rf (HBM_RETIRE_STATUS.USED st)) ∧
      (∀ n, n < 8 → t.rf (REG_RETIRE_STATUS.USED n) = s.rf (REG_RETIRE_STATUS.USED n) ∧ t.region n = rgRun) ∧
      (mapCanon {} s.hbmPc = true → ∀ st q, t.hpc st q = { moved := (s.hpc st q).moved }) ∧
      t = { State.reset with
        regs := t.regs, hostMem := s.hostMem, outputs := s.outputs, pending := s.pending, free := s.free, tapx := s.tapx, cfg := s.cfg,
        chip := { supplies := s.chip.supplies, straps := s.chip.straps }, hbmPc := t.hbmPc, time := s.time.afterWarm,
        pairx := { heldIn := s.pairx.heldIn } }) ∧
    ((s.warmOpen = false ∨ us.toNat = 0) → exec (.warmReset us) s = .next s) ∧
    ((bit v.toNat 0 = false ∨ bits v.toNat 8 8 ≠ 0xC3) → (s.warmOpen = false ∨ s.answers = false ∨ bits v.toNat 8 8 ≠ 0x3C) →
      exec (.resetCtrlWarm v) s = .next s) ∧
    (bit v.toNat 0 = true → bits v.toNat 8 8 = 0xC3 → exec (.resetCtrlWarm v) s = exec (.resetCtrlFull v) s)) ∧
  (∀ (s : State) (v : Word),
    (s.answers = true → bits v.toNat 8 8 = 0xC3 → ∃ t, exec (.resetCtrlFull v) s = .next t ∧ t.chipState = stPriming ∧ t.rf CHIP_PRIME_STATUS.STEP = 1 ∧
      t.reg CHIP_STRAP.w = BitVec.ofNat 32 t.chip.straps ∧ t.chip.straps < 128 ∧ t.rf CHIP_ID.HBM_GIB = s.rf CHIP_ID.HBM_GIB ∧
      t.rb PAIR_STATUS.HOLD_IN = s.pairx.heldIn ∧ t.pendingBit 0x001 = true ∧
      FieldsKept State.reset t [CHIP_STATE.STATE, CHIP_ID.HBM_GIB, PAIR_STATUS.HOLD_IN, ⟨CHIP_EVT_PEND.w 0, 1, 1⟩, ⟨CHIP_EVT_SUMMARY.w 0, 0, 1⟩,
        CHIP_PRIME_STATUS.STEP, ⟨CHIP_STRAP.w, 0, 32⟩] ∧
      t = { State.reset with
        regs := t.regs, hostMem := s.hostMem, outputs := s.outputs, pending := s.pending, free := s.free + 1, tapx := s.tapx,
        cfg := { perst := s.cfg.perst }, chip := { sysReset := s.chip.sysReset, supplies := s.chip.supplies, straps := t.chip.straps },
        pairx := { heldIn := s.pairx.heldIn } }) ∧
    (bits v.toNat 8 8 = 0x3C → exec (.resetCtrlFull v) s = if bit v.toNat 1 then exec (.resetCtrlWarm v) s else .next s) ∧
    ((s.answers = false ∨ (bits v.toNat 8 8 ≠ 0xC3 ∧ bits v.toNat 8 8 ≠ 0x3C)) → exec (.resetCtrlFull v) s = .next s)) ∧
  (∀ (s : State) (perst : Bool),
    (s.powered = true → s.regsCanon = true → ∃ t, exec (.wellheadReset perst) s = .next t ∧ t.rb HIF_STATUS.LINK_UP = false ∧
      t.rf HIF_STATUS.SPEED = 0 ∧ t.rf HIF_STATUS.WIDTH = 0 ∧ t.rb HIF_STATUS.FLIT = false ∧
      (∀ v, v < 2048 → t.rb (MSIX_CTRL.MASK v) = true ∧ t.reg (MSIX_ADDR_LO.w v) = 0 ∧ t.reg (MSIX_ADDR_HI.w v) = 0 ∧ t.reg (MSIX_DATA.w v) = 0 ∧
        t.reg (MSIX_PBA.w (v / 32)) = 0) ∧
      t.cfg = { perst := perst || s.cfg.perst, training := !(perst || s.cfg.perst) && s.linkReady } ∧
      (s.halted = false → (∀ r, r ∈ s.ringsUsed → t.rb (HIF_RING_CTRL.ENABLE r) = false ∧ t.rf (HIF_RING_STATUS.STATE r) = rsDisabled) ∧
        (∀ x ∈ t.txs, x.frags = none ∧ x.cq = lostCq) ∧
        t = { s with regs := t.regs, rings := [], evts := [], txs := t.txs, tbls := t.tbls, engs := t.engs, cfg := t.cfg }) ∧
      (s.halted = true → t = { s with regs := t.regs, cfg := t.cfg })) ∧
    (s.powered = false → exec (.wellheadReset perst) s = .next (s.withCfg (if perst then { s.cfg with perst := true } else s.cfg))))

/-- R487, R490, R498, R499, R612 to R615, R623, R625: STEP shows the step under way as each begins; VOUT_MODE is read as the second begins, the fuses before the
third, and with the fourth the wellhead may train its link, the temperatures are read and every channel that is not fenced trains. Priming that ends well
makes the device Configurable, shows the time it took and the size of its HBM, clears every memory, brings every channel in training up with the timing of
the primed rate and leaves each region's test result; a failing row or a region's logic leaves it in RUN with BIST_FAIL, a failing channel is fenced,
located, and left no spare rows; a failing chip-level step stops it. With LBIST_SKIP no logic self-test can fail.

Completes: PRIMING_COMPLETE. -/
def Obligations.Priming : Prop :=
  (∀ (s : State) (ms : BitVec 16) (rows : List (Region × Oct × BitVec 20)) (bad : List (Stack × Channel)) (repairs : List (Stack × Channel × BitVec 4))
    (d : PrimeData), s.regsCanon = true → s.chipState = stPriming → s.rb CHIP_PRIME_STATUS.FAIL = false →
    (s.rf CHIP_PRIME_STATUS.STEP = 1 → ∃ t, exec (.primingComplete (.step 0) ms rows bad repairs d) s = .next t ∧ t.rf CHIP_PRIME_STATUS.STEP = 2 ∧
      t.outputs = List.replicate (min (d.voutFails + 1) 3) (.pmbus (0x40 + s.rf CHIP_STRAP.PMBUS_ADDR) pmbVoutMode 0) ++ s.outputs ∧
      (d.voutFails.val < 3 → t.pwr = { s.pwr with voutExp := some (voutExponent d.voutExp.toNat) } ∧ FieldsKept s t [CHIP_PRIME_STATUS.STEP] ∧ t.evts = s.evts) ∧
      (d.voutFails.val = 3 → t.pwr = s.pwr ∧ t.rb PWR_ERR.PMBUS_NACK = true ∧ FieldsKeptEv s t [CHIP_PRIME_STATUS.STEP, PWR_ERR.PMBUS_NACK]) ∧
      t = { s with regs := t.regs, evts := t.evts, outputs := t.outputs, pwr := t.pwr }) ∧
    (s.rf CHIP_PRIME_STATUS.STEP = 2 → ∃ t, exec (.primingComplete (.step 1) ms rows bad repairs d) s = .next t ∧ t.rf CHIP_PRIME_STATUS.STEP = 3 ∧
      t.rf CHIP_ID.HBM_GIB = (if s.rb CHIP_STATE.WARM then s.rf CHIP_ID.HBM_GIB else if d.gib32 then 32 else 64) ∧
      FieldsKept s t [CHIP_PRIME_STATUS.STEP, CHIP_ID.HBM_GIB] ∧ SameButRegs s t) ∧
    (s.rf CHIP_PRIME_STATUS.STEP = 3 → ∃ t, exec (.primingComplete (.step 2) ms rows bad repairs d) s = .next t ∧ t.rf CHIP_PRIME_STATUS.STEP = 4 ∧
      t.cfg = { s.cfg with training := s.cfg.training || (!s.rb CHIP_STATE.WARM && !s.cfg.perst) } ∧
      (∀ st : Fin 4, t.rf (HBM_TEMP.TEMP_C st) = d.temps[st].toNat) ∧
      (∀ st c, st < 4 → c < 16 → t.chState st c = (if s.chState st c = hcFenced then hcFenced else hcTrain)) ∧
      t = { s with regs := t.regs, cfg := t.cfg }) ∧
    (∀ k : Fin 5, 3 ≤ k.val → s.rf CHIP_PRIME_STATUS.STEP = k + 1 → ∃ t, exec (.primingComplete (.step k) ms rows bad repairs d) s = .next t ∧
      t.rf CHIP_PRIME_STATUS.STEP = k + 2 ∧ FieldsKept s t [CHIP_PRIME_STATUS.STEP] ∧ SameButRegs s t) ∧
    (∀ k : Fin 5, k + 2 ≤ s.rf CHIP_PRIME_STATUS.STEP → exec (.primingComplete (.step k) ms rows bad repairs d) s = .next s) ∧
    (∀ (j k : Fin 5) (u : State), j.val < k.val → exec (.primingComplete (.step j) ms rows bad repairs d) s = .next u →
      exec (.primingComplete (.step k) ms rows bad repairs d) s = exec (.primingComplete (.step k) ms rows bad repairs d) u) ∧
    (∀ f : Fin 4, (f.val < 3 ∨ s.rb CHIP_STRAP.LBIST_SKIP = false) → failStep (f + 1) ≤ s.rf CHIP_PRIME_STATUS.STEP →
      ∃ t, exec (.primingComplete (.failed f) ms rows bad repairs d) s = .next t ∧ t.rb CHIP_PRIME_STATUS.FAIL = true ∧
        t.rf CHIP_PRIME_STATUS.FAIL_STEP = f + 1 ∧ t.chipState = stPriming ∧ t.hostOpen = false ∧
        FieldsKept s t [CHIP_PRIME_STATUS.FAIL, CHIP_PRIME_STATUS.FAIL_STEP] ∧ SameButRegs s t) ∧
    (∀ (f : Fin 4) (k : Fin 5) (u : State), k + 2 = failStep (f + 1) → exec (.primingComplete (.step k) ms rows bad repairs d) s = .next u →
      (f.val < 3 ∨ s.rb CHIP_STRAP.LBIST_SKIP = false) →
      exec (.primingComplete (.failed f) ms rows bad repairs d) s = exec (.primingComplete (.failed f) ms rows bad repairs d) u) ∧
    (s.rb CHIP_STRAP.LBIST_SKIP = true → exec (.primingComplete (.failed 3) ms rows bad repairs d) s = .next s)) ∧
  (∀ (s : State) (ms : BitVec 16) (d : PrimeData), s.regsCanon = true → s.chipState = stPriming → s.rb CHIP_PRIME_STATUS.FAIL = false → d.logic = 0 →
    ∃ t, exec (.primingComplete .done ms [] [] [] d) s = .next t ∧ t.configurable = true ∧ t.rf CHIP_PRIME_STATUS.STEP = 7 ∧
      t.rf CHIP_PRIME_STATUS.PRIME_MS = ms.toNat ∧ t.pendingBit 0x001 = true ∧ (∀ n, n < 8 → t.rb (REG_Q_STATUS.BIST_PASS n) = true ∧ t.region n = rgRun) ∧
      (∀ st c, st < 4 → c < 16 → ((s.rf CHIP_PRIME_STATUS.STEP < 4 ∧ s.chState st c ≠ hcFenced) ∨ s.chState st c = hcTrain) →
        t.chState st c = hcActive ∧ bit (t.rf (HBM_STATUS.LIVE_CH st)) c = true) ∧
      (∀ st c, st < 4 → c < 16 → s.chState st c = hcFenced → t.chState st c = hcFenced) ∧
      (∀ st : Fin 4, t.rf (HBM_STATUS.RATE st) = s.primeRate ∧ t.rf (HBM_TIMING0.RL st) = min 127 (cdiv (200 * 8 * s.primeRate) 100 + d.longer[st].1.toNat) ∧
        t.rf (HBM_TIMING0.WL st) = min 127 (cdiv (75 * 8 * s.primeRate) 100 + d.longer[st].2.toNat) ∧ t.rf (HBM_TIMING0.T_RCD st) = cdiv (140 * 8 * s.primeRate) 100) ∧
      (s.rf CHIP_PRIME_STATUS.STEP < 2 → .pmbus (0x40 + s.rf CHIP_STRAP.PMBUS_ADDR) pmbVoutMode 0 ∈ t.outputs) ∧
      (∀ n a, n < 8 → a < 16384 → t.reg (PMP_STORE.w n a) = 0) ∧ (∀ src, src < 4096 → t.rb (CHIP_EVT_SRC.EN src) = false) ∧
      t.eps = [] ∧ t.tcam = [] ∧ t.tbls = [] ∧ t.engs = [] ∧ t.slots = [] ∧ t.ctxs = [] ∧ t.pmp2 = [] ∧ t.bindErr = [] ∧ t.rings = [] ∧
      t.hostMem = s.hostMem ∧ t.pending = s.pending ∧ t.time = s.time ∧ t.chip = s.chip ∧
      (s.rb CHIP_STATE.WARM = false → s.rf CHIP_PRIME_STATUS.STEP < 3 → t.rf CHIP_ID.HBM_GIB = (if d.gib32 then 32 else 64) ∧
        (∀ st q, st < 4 → q < 32 → t.rf (HBM_SPARE_LEFT.ROWS st q) = (if d.gib32 then 65535 else 131071))) ∧
      (s.rb CHIP_STATE.WARM = true → t.rf CHIP_ID.HBM_GIB = s.rf CHIP_ID.HBM_GIB ∧
        (∀ st q, st < 4 → q < 32 → t.rf (HBM_SPARE_LEFT.ROWS st q) = s.rf (HBM_SPARE_LEFT.ROWS st q)))) ∧
  (∀ (s : State) (ms : BitVec 16) (d : PrimeData) (rows : List (Region × Oct × BitVec 20)) (n : Region), s.regsCanon = true → s.chipState = stPriming →
    s.rb CHIP_PRIME_STATUS.FAIL = false → s.rf CHIP_ERR_LOG_CTRL.VALID ≤ 64 →
    ∃ t, exec (.primingComplete .done ms rows [] [] d) s = .next t ∧ t.configurable = true ∧ t.region n = rgRun ∧
      ((bit d.logic.toNat n = true ∨ ∃ p ∈ rows, p.1 = n) → t.rb (REG_Q_STATUS.BIST_FAIL n) = true ∧ t.rb (REG_ERR.BIST_FAIL n) = true ∧
        ∀ p ∈ rows, p.1 = n → t.rf (REG_Q_STATUS.BIST_FAIL_MEM n) ≤ p.2.1.val) ∧
      (bit d.logic.toNat n = false → (∀ p ∈ rows, p.1 ≠ n) → t.rb (REG_Q_STATUS.BIST_PASS n) = true)) ∧
  (∀ (s : State) (ms : BitVec 16) (d : PrimeData) (st : Stack) (c : Channel), s.regsCanon = true → s.chipState = stPriming →
    s.rb CHIP_PRIME_STATUS.FAIL = false → s.chState st c ≠ hcFenced →
    ∃ t, exec (.primingComplete .done ms [] [(st, c)] [] d) s = .next t ∧ t.configurable = true ∧ t.chState st c = hcFenced ∧
      t.rf (HBM_CH_STATUS.FENCE_CAUSE st c) = 1 ∧ t.rb (HBM_ERR.TRAIN_FAIL st) = true ∧ t.rb (HBM_ERR.FENCED st) = true ∧
      bit (t.rf (HBM_STATUS.LIVE_CH st)) c = false ∧
      (s.reg (HBM_ERR.w st) = 0 → t.rf (HBM_ERR_LOC.KIND st) = 2 ∧ t.rf (HBM_ERR_LOC.CH st) = c.val) ∧ t.rf (HBM_SPARE_LEFT.ROWS st (2 * c.val)) = 0 ∧
      t.rf (HBM_SPARE_LEFT.ROWS st (2 * c.val + 1)) = 0) ∧
  (∀ (s : State) (ms : BitVec 16) (d : PrimeData) (st : Stack) (c : Channel) (x : BitVec 4), s.regsCanon = true → s.chipState = stPriming →
    s.rb CHIP_PRIME_STATUS.FAIL = false → s.rb CHIP_STATE.WARM = false →
    ∃ t, exec (.primingComplete .done ms [] [] [(st, c, x)] d) s = .next t ∧ t.configurable = true ∧
      t.rf (HBM_CH_STATUS.REPAIRED_A st c) = x.toNat % 4 ∧ t.rf (HBM_CH_STATUS.REPAIRED_B st c) = x.toNat / 4) ∧
  (∀ (s : State) (e : PrimeEnd) (ms : BitVec 16) (rows : List (Region × Oct × BitVec 20)) (bad : List (Stack × Channel))
    (repairs : List (Stack × Channel × BitVec 4)) (d : PrimeData), (s.chipState ≠ stPriming ∨ s.rb CHIP_PRIME_STATUS.FAIL = true) →
    exec (.primingComplete e ms rows bad repairs d) s = .next s)

/-- R616 to R619: RUN and QUIESCE take effect at a stroke at least 64 ahead, in their states; a write's result is shown and a refusal raises event 0x010.
At the run stroke the chip runs, its watermarks stand there and its pair logic starts, which may claim at once; at stroke Q the pair logic stops, the
transmit gate closes with the frames in progress ended, and the drain begins; frames still queued 10 ms later
are flushed, and once all is empty the chip is Quiesced, from which CONFIG leads back to Configurable. What was due in the span of a quiesce waits
for the run to resume.

Completes: CHIP_RUN, RUN_STROKE_REACHED, CHIP_QUIESCE, QUIESCE_STROKE_REACHED, QUIESCE_FLUSH_TIMEOUT, QUIESCE_DRAIN_DONE, CHIP_CONFIG. -/
def Obligations.RunAndQuiesce : Prop :=
  (∀ (s : State) (v : Word), s.regsCanon = true → s.hostOpen = true → bits v.toNat 1 2 = 0 →
    ∃ t, exec (.chipRun v) s = .next t ∧ t.rf CHIP_STATE.CTRL_RESULT = (if !(s.configurable || s.chipState = stQuiesced) then 2
        else if leadOk s.strokeNow (s.rf CHIP_RUN_STROKE.STROKE) then 0 else 1) ∧
      (t.rf CHIP_STATE.CTRL_RESULT = 0 → t.chip.runAt = some (s.rf CHIP_RUN_STROKE.STROKE) ∧ t = { s with regs := t.regs, chip := t.chip }) ∧
      (t.rf CHIP_STATE.CTRL_RESULT ≠ 0 → t.pendingBit 0x010 = true ∧ SameButEvents s t) ∧ FieldsKeptEv s t [CHIP_STATE.CTRL_RESULT]) ∧
  (∀ (s : State) (v : Word), s.regsCanon = true → s.hostOpen = true → bits v.toNat 0 1 = 0 → bits v.toNat 2 1 = 0 →
    ∃ t, exec (.chipQuiesce v) s = .next t ∧ t.rf CHIP_STATE.CTRL_RESULT = (if !s.running || s.chip.quiesceAt.isSome then 2
        else if leadOk s.strokeNow (s.rf CHIP_QUIESCE_STROKE.STROKE) then 0 else 1) ∧
      (t.rf CHIP_STATE.CTRL_RESULT = 0 → t.chip.quiesceAt = some (s.rf CHIP_QUIESCE_STROKE.STROKE) ∧ t = { s with regs := t.regs, chip := t.chip }) ∧
      (t.rf CHIP_STATE.CTRL_RESULT ≠ 0 → t.pendingBit 0x010 = true ∧ SameButEvents s t) ∧ FieldsKeptEv s t [CHIP_STATE.CTRL_RESULT]) ∧
  (∀ (s : State) (v : Word), s.regsCanon = true → s.hostOpen = true → bits v.toNat 0 2 = 0 →
    (s.chipState = stQuiesced → ∃ t, exec (.chipConfig v) s = .next t ∧ t.configurable = true ∧ t.rf CHIP_STATE.CTRL_RESULT = 0 ∧ t.pendingBit 0x001 = true ∧
      FieldsKeptEv s t [CHIP_STATE.STATE, CHIP_STATE.CTRL_RESULT] ∧ SameButEvents s t) ∧
    (s.chipState ≠ stQuiesced → ∃ t, exec (.chipConfig v) s = .next t ∧ t.rf CHIP_STATE.CTRL_RESULT = 2 ∧ t.pendingBit 0x010 = true ∧
      FieldsKeptEv s t [CHIP_STATE.CTRL_RESULT] ∧ SameButEvents s t)) ∧
  (∀ (s : State) (v : Word), s.regsCanon = true → s.hostOpen = true → bits v.toNat 0 2 = 3 → ∃ t, exec (.chipConfig v) s = .next t ∧ t.rf CHIP_STATE.CTRL_RESULT = 3 ∧
    t.chipState = s.chipState ∧ t.pendingBit 0x010 = true) ∧
  (∀ (s : State) (y : Nat), s.regsCanon = true → s.chip.runAt = some y → y < 2 ^ 48 → (s.configurable = true ∨ s.chipState = stQuiesced) → strokeLe y s.strokeNow = true →
    ∃ t, exec .runStrokeReached s = .next t ∧ t.running = true ∧ t.pendingBit 0x001 = true ∧
      t.chip = { s.chip with runAt := none, runFrom := y, spanFrom := none, sweepFrom := if s.chip.spanFrom.isSome then s.chip.sweepFrom else y } ∧
      (∀ n, n < 8 → s.regionRuns n = true → t.wm n = y) ∧ t.rf SP_RELEASED.STROKE = (y + (2 ^ 48 - 1)) % 2 ^ 48 ∧
      t.rb CHIP_STROKE_CFG.SRC_LEDGER = false ∧ t.pairState = (if s.pairCfg = 0 then 0 else 2) ∧
      t.rb PAIR_STATUS.HOLD_IN = s.lineHeld ∧ t.pairx.held = [] ∧ t.pairx.recs = [] ∧
      (t.rb PAIR_STATUS.HOLD_OUT = true → s.rb PAIR_STATUS.HOLD_OUT = true ∨ (s.pairx.released = true ∧ s.lineHeld = false ∧ t.pairx.claiming = true)) ∧
      t = { s with regs := t.regs, evts := t.evts, chip := t.chip, pairx := t.pairx }) ∧
  (∀ s : State, (s.chip.runAt = none ∨ (s.configurable = false ∧ s.chipState ≠ stQuiesced) ∨ ∃ y, s.chip.runAt = some y ∧ strokeLe y s.strokeNow = false) →
    exec .runStrokeReached s = .next s) ∧
  (∀ (s : State) (q : Nat), s.regsCanon = true → s.chip.quiesceAt = some q →
    (s.running = true → s.chip.quiescing = false → strokeLe q s.strokeNow = true →
      ∃ t, exec .quiesceStrokeReached s = .next t ∧ t.rb CHIP_STATE.DRAINING = true ∧ t.rb PAIR_STATUS.GATE = false ∧ t.rb PAIR_STATUS.HOLD_OUT = false ∧
        t.chip = { s.chip with quiescing := true } ∧ t.pairx = { s.pairx with claiming := false, backoff := false, held := [] } ∧
        (s.rb PAIR_STATUS.GATE = true → .gateClosed ∈ t.outputs) ∧
        (s.pairx.held = [] → FieldsKept s t [CHIP_STATE.DRAINING, PAIR_STATUS.GATE, PAIR_STATUS.HOLD_OUT] ∧
          t.outputs = (if s.rb PAIR_STATUS.GATE then .gateClosed :: s.outputs else s.outputs) ∧
          t = { s with regs := t.regs, chip := t.chip, pairx := t.pairx, outputs := t.outputs })) ∧
    ((s.running = false ∨ s.chip.quiescing = true ∨ strokeLe q s.strokeNow = false) → exec .quiesceStrokeReached s = .next s) ∧
    (s.running = true → s.chip.quiescing = true → s.strokeTime q + 10000000 ≤ s.orderNs → exec .quiesceFlushTimeout s = .next ((List.range 8).foldl State.flushEgress s)) ∧
    ((s.running = false ∨ s.chip.quiescing = false ∨ s.orderNs < s.strokeTime q + 10000000) → exec .quiesceFlushTimeout s = .next s) ∧
    (s.running = true → s.chip.quiescing = true → (∀ n, n < 8 → s.regionRuns n = true → s.wmPassed n ((q + (2 ^ 48 - 1)) % 2 ^ 48) = true) →
      strokeLe ((q + (2 ^ 48 - 1)) % 2 ^ 48) (s.rf SP_RELEASED.STROKE) = true → s.queuesEmpty = true →
      ∃ t, exec .quiesceDrainDone s = .next t ∧ t.chipState = stQuiesced ∧ t.rb CHIP_STATE.DRAINING = false ∧ t.pendingBit 0x001 = true ∧
        t.chip = { s.chip with quiescing := false, quiesceAt := none, spanFrom := some q } ∧ FieldsKeptEv s t [CHIP_STATE.STATE, CHIP_STATE.DRAINING] ∧
        t = { s with regs := t.regs, evts := t.evts, chip := t.chip }) ∧
    ((s.running = false ∨ s.chip.quiescing = false ∨ s.queuesEmpty = false) → exec .quiesceDrainDone s = .next s)) ∧
  (∀ s : State, s.chip.quiesceAt = none → exec .quiesceStrokeReached s = .next s ∧ exec .quiesceFlushTimeout s = .next s ∧ exec .quiesceDrainDone s = .next s)

/-! ### Registers (files 00, 22) -/

/-- R9 to R12, R407, R437, R598: a 32-bit read returns the word, RC fields are cleared by it, the low word of a 64-bit value latches the high one, and offsets
that hold no register read 0; BAR2 reads 0, and BAR4 shows the counters of enabled pages; nothing is read past the end of BAR2 or BAR4, nor while the
wellhead does not answer.
R9 to R12, R43, R437, R663: a 32-bit write stores RW fields and clears the RW1C bits written 1, and nothing else; a 64-bit value takes effect at the
write of its high word, with the low word held until the register takes a full value; an access of another size or misaligned is discarded whole and reported. Configurable-only fields keep
their value elsewhere, reported where they would have changed, and an unscheduled write of R43 is noted; of a control-store word it is noted where
a binding of a bank in use covers the word (R313).

Completes: REGISTER_WRITE, REGISTER_READ_CLEAR, LOW_WORD_READ. -/
def Obligations.RegisterAccesses : Prop :=
  (∀ (s : State) (w : BitVec 24) (h : RegHit), s.regsCanon = true → s.answers = true → findReg w.toNat = some h → h.desc.id = .plain → h.joined = false →
    (h.desc.rc / 2 ^ (32 * h.word) % 2 ^ 32 = 0 → exec (.lowWordRead w) s = .next { s with readData := [s.reg w.toNat] }) ∧
    (∀ m : Word, m.toNat = h.desc.rc / 2 ^ (32 * h.word) % 2 ^ 32 →
      ∃ t, exec (.lowWordRead w) s = .next t ∧ t.readData = [s.reg w.toNat] ∧ t.reg w.toNat = (s.reg w.toNat &&& ~~~m) ∧
        FieldsKept s t [⟨w.toNat, 0, 32⟩] ∧ t = { s with regs := t.regs, readData := t.readData })) ∧
  (∀ (s : State) (w : BitVec 24) (h : RegHit), mapCanon 0 s.latch = true → s.answers = true → findReg w.toNat = some h → h.desc.id = .plain → h.joined = true →
    (h.word % 2 = 0 → ∃ t, exec (.lowWordRead w) s = .next t ∧ t.readData = [s.reg w.toNat] ∧ mget 0 t.latch w.toNat = s.reg (w.toNat + 1) ∧
      t = { s with readData := t.readData, latch := t.latch }) ∧
    (h.word % 2 = 1 → exec (.lowWordRead w) s = .next { s with readData := [mget 0 s.latch (w.toNat - 1)] })) ∧
  (∀ (s : State) (w : BitVec 24), s.answers = true → findReg w.toNat = none → exec (.lowWordRead w) s = .next { s with readData := [0] }) ∧
  (∀ (s : State) (w : BitVec 24) (bar : Fin 3) (off : BarOffset) (size : Fin 65), s.answers = false →
    exec (.lowWordRead w) s = .next s ∧ exec (.registerReadClear bar off size) s = .next s) ∧
  (∀ (s : State) (off : BarOffset) (size : Fin 65), s.answers = true →
    (off.toNat % 4 = 0 → size.val = 4 → ∀ w : BitVec 24, 4 * w.toNat = off.toNat → exec (.registerReadClear 0 off size) s = exec (.lowWordRead w) s) ∧
    (off.toNat + size.val ≤ 2 ^ 26 → exec (.registerReadClear 1 off size) s = .next { s with readData := List.replicate ((size.val + 3) / 4) 0 }) ∧
    (2 ^ 26 < off.toNat + size.val → exec (.registerReadClear 1 off size) s = .next s) ∧
    (2 ^ 20 < off.toNat + size.val → exec (.registerReadClear 2 off size) s = .next s)) ∧
  (∀ (s : State) (off : BarOffset) (f : Fld), s.answers = true → s.rb CT_STATUS.FROZEN = true → off.toNat < 2 ^ 20 → off.toNat % 8 = 0 → off.toNat / 4096 < 138 →
    s.pageField (off.toNat / 4096) (off.toNat % 4096) = some f →
    (bit (s.rf (CT_USER_ENABLE.EN (off.toNat / 4096 / 32))) (off.toNat / 4096 % 32) = true →
      exec (.registerReadClear 2 off 8) s = .next { s with readData := [BitVec.ofNat 32 (s.rf f), BitVec.ofNat 32 (s.rf f / 2 ^ 32)] }) ∧
    (bit (s.rf (CT_USER_ENABLE.EN (off.toNat / 4096 / 32))) (off.toNat / 4096 % 32) = false →
      exec (.registerReadClear 2 off 8) s = .next { s with readData := [0, 0] })) ∧
  (∀ (s : State) (n : Region) (c : Nat), c < 9 → s.pageField (104 + n.val) (0x100 + 8 * c) = some (FE_CNT.COUNT n c)) ∧
  (∀ (s : State) (off : BarOffset) (w : Nat) (h : RegHit) (v : BitVec 64) (rw w1c : Word), s.regsCanon = true → s.hostOpen = true → off.toNat = 4 * w → findReg w = some h →
    h.desc.id = .plain → h.joined = false → h.desc.fixes = [] → rw.toNat = h.desc.rw / 2 ^ (32 * h.word) % 2 ^ 32 →
    w1c.toNat = h.desc.w1c / 2 ^ (32 * h.word) % 2 ^ 32 → h.desc.cfg = 0 → h.desc.r43 = 0 →
    ∃ t, exec (.registerWrite off 4 v) s = .next t ∧
      t.reg w = (((s.reg w &&& ~~~rw) ||| (v.setWidth 32 &&& rw)) &&& ~~~(w1c &&& v.setWidth 32)) ∧
      FieldsKept s t [⟨w, 0, 32⟩] ∧ SameButRegs s t) ∧
  (∀ (s : State) (off : BarOffset) (w : Nat) (h : RegHit) (v : BitVec 64) (rw : Word), s.regsCanon = true → s.hostOpen = true → off.toNat = 4 * w → findReg w = some h →
    h.desc.id = .plain → h.desc.nw = 1 → h.desc.fixes = [] → rw.toNat = h.desc.rw % 2 ^ 32 → h.desc.w1c = 0 →
    (h.desc.cfg = 0 → h.desc.r43 = h.desc.rw → s.configurable = false → s.regionFree (h.ix 0) = false → s.reg w &&& rw ≠ v.setWidth 32 &&& rw →
      ∃ t, exec (.registerWrite off 4 v) s = .next t ∧ t.reg w = ((s.reg w &&& ~~~rw) ||| (v.setWidth 32 &&& rw)) ∧
        t.rb CHIP_DET_STATUS.UNSCHED_WRITE = true ∧ FieldsKeptEv s t [⟨w, 0, 32⟩, CHIP_DET_STATUS.UNSCHED_WRITE, CHIP_DET_STROKE.STROKE] ∧
        SameButEvents s t)) ∧
  (∀ (s : State) (n : Region) (off : BarOffset) (v : BitVec 64), s.regsCanon = true → s.hostOpen = true → s.configurable = false →
    (off.toNat = 4 * SP_CFG.w → 64 ≤ v.toNat % 2 ^ 11 → v.toNat % 2 ^ 11 ≤ 1024 → v.toNat % 2 ^ 11 ≠ s.rf SP_CFG.WINDOW_NS →
      ∃ t, exec (.registerWrite off 4 v) s = .next t ∧ t.pendingBit 0x010 = true ∧ FieldsKeptEv s t [] ∧ SameButEvents s t) ∧
    (off.toNat = 4 * FE_HASH_SEED.w n → v.toNat % 2 ^ 32 ≠ (s.reg (FE_HASH_SEED.w n)).toNat →
      ∃ t, exec (.registerWrite off 4 v) s = .next t ∧ t.rb (FE_ERR.CFG_IGNORED n) = true ∧ FieldsKeptEv s t [FE_ERR.CFG_IGNORED n] ∧ SameButEvents s t) ∧
    (off.toNat = 4 * TBL_HASH_SEED.w n → v.toNat % 2 ^ 32 ≠ (s.reg (TBL_HASH_SEED.w n)).toNat →
      ∃ t, exec (.registerWrite off 4 v) s = .next t ∧ t.rb (TBL_ERR.CFG_IGNORED n) = true ∧ FieldsKeptEv s t [TBL_ERR.CFG_IGNORED n] ∧ SameButEvents s t)) ∧
  (∀ (s : State) (n : Region) (a : BitVec 14) (off : BarOffset) (v : BitVec 64), s.regsCanon = true → mapCanon 0 s.pmp2 = true → s.hostOpen = true →
    s.configurable = false → s.regionFree n = false → off.toNat = 4 * PMP_STORE.w n a.toNat → v.setWidth 32 ≠ s.reg (PMP_STORE.w n a.toNat) →
    ∃ t, exec (.registerWrite off 4 v) s = .next t ∧ t.reg (PMP_STORE.w n a.toNat) = v.setWidth 32 ∧ t.copiesDiffer n a.toNat = false ∧
      t.rb CHIP_DET_STATUS.UNSCHED_WRITE = (s.rb CHIP_DET_STATUS.UNSCHED_WRITE || s.storeInUse n a.toNat) ∧
      FieldsKeptEv s t [⟨PMP_STORE.w n a.toNat, 0, 32⟩, CHIP_DET_STATUS.UNSCHED_WRITE, CHIP_DET_STROKE.STROKE] ∧
      t = { s with regs := t.regs, evts := t.evts, pmp2 := t.pmp2 }) ∧
  (∀ (s : State) (n : Region) (lo hi v : BitVec 64) (a b : BarOffset), s.regsCanon = true → mapCanon none s.hold = true → s.hostOpen = true → a.toNat = 4 * REG_REJOIN_STROKE.w n → b.toNat = a.toNat + 4 →
    (∃ t t', exec (.registerWrite a 4 lo) s = .next t ∧ t.regs = s.regs ∧ exec (.registerWrite b 4 hi) t = .next t' ∧
      t'.rf (REG_REJOIN_STROKE.STROKE n) = (lo.toNat % 2 ^ 32 + 2 ^ 32 * hi.toNat) % 2 ^ 48 ∧ FieldsKept s t' [REG_REJOIN_STROKE.STROKE n] ∧
      t' = { s with regs := t'.regs, hold := t'.hold } ∧ mget none t'.hold (REG_REJOIN_STROKE.w n) = none) ∧
    (∃ t, exec (.registerWrite a 8 v) s = .next t ∧ t.rf (REG_REJOIN_STROKE.STROKE n) = v.toNat % 2 ^ 48 ∧
      FieldsKept s t [REG_REJOIN_STROKE.STROKE n] ∧ t = { s with regs := t.regs, hold := t.hold })) ∧
  (∀ (s : State) (n : Region) (p : Fin 2) (off : BarOffset) (v : BitVec 64), s.hostOpen = true → off.toNat = 4 * IP_CL_SWITCH_STROKE.w n p + 4 →
    s.rb (IP_CL_STATUS.PENDING n p) = true → ∃ t, exec (.registerWrite off 4 v) s = .next t ∧ t.hold = s.hold ∧
      t.rf (IP_CL_SWITCH_STROKE.STROKE n p) = s.rf (IP_CL_SWITCH_STROKE.STROKE n p)) ∧
  (∀ (s : State) (off : BarOffset) (size : Fin 65) (v : BitVec 64), s.regsCanon = true → s.hostOpen = true → ¬(size.val = 4 ∧ off.toNat % 4 = 0) →
    ¬(size.val = 8 ∧ off.toNat % 8 = 0) →
    ∃ t, exec (.registerWrite off size v) s = .next t ∧ t.rb HIF_ACCESS_ERR.VALID = true ∧
      (s.rb HIF_ACCESS_ERR.VALID = false → t.rf HIF_ACCESS_ERR.OFFSET = off.toNat % 2 ^ HIF_ACCESS_ERR.OFFSET.width ∧ t.rf HIF_ACCESS_ERR.BAR = 0) ∧
      t.pendingBit 0x1F0 = true ∧ FieldsKeptEv s t [HIF_ACCESS_ERR.OFFSET, HIF_ACCESS_ERR.BAR, HIF_ACCESS_ERR.VALID] ∧ SameButEvents s t) ∧
  (∀ (s : State) (off : BarOffset) (v : BitVec 64), s.hostOpen = true → off.toNat % 4 = 0 → findReg (off.toNat / 4) = none →
    exec (.registerWrite off 4 v) s = .next s) ∧
  (∀ (s : State) (off : BarOffset) (size : Fin 65) (v : BitVec 64), s.hostOpen = false → writesResetCtrl off.toNat size.val = false →
    exec (.registerWrite off size v) s = .next s) ∧
  (∀ (s : State) (off : BarOffset) (v : BitVec 64), s.hostOpen = false → off.toNat = 4 * CHIP_RESET_CTRL.w → bit v.toNat 0 = true →
    exec (.registerWrite off 8 v) s = exec (.resetCtrlFull (v.setWidth 32)) s) ∧
  (∀ (s : State) (off : BarOffset) (v : BitVec 32), off.toNat = 4 * CHIP_RESET_CTRL.w → bit v.toNat 0 = true →
    exec (.registerWrite off 4 (v.setWidth 64)) s = exec (.resetCtrlFull v) s)


/-! ### The whole machine -/

/-- The block takes the command at the front of its queue and carries it out on everything but the queue, whose rest stays. With no
command waiting, its time block ticks once where its clock runs: both domains advance, what remains of their adjustments is shown, and nothing else
changes (log entry 1: the model's choice); without supplies or clock it idles. -/
def Obligations.StepRunsTheFrontCommand : Prop :=
  (∀ (s : State) (c : Instr) (l : List Instr), step { s with pending := c :: l } = exec c { s with pending := l }) ∧
  (∀ s : State, s.pending = [] → (s.chipState = stOff ∨ s.chipState = stStrap) → step s = .next s) ∧
  (∀ s : State, s.pending = [] → s.regsCanon = true → s.chipState ≠ stOff → s.chipState ≠ stStrap →
    ∃ t, step s = .next t ∧ t.time.tick = s.time.tick + 1 ∧
      (∀ d : DomIx, t.dom d = domTick (s.timeIncr d) (s.rf (TIME_ADJ_CFG.PPM d)) (s.dom d)) ∧
      FieldsKept s t [TIME_ADJ_REMAIN.NS 0, TIME_ADJ_REMAIN.NS 1] ∧
      t = { s with regs := t.regs, time := { s.time with tick := t.time.tick, domA := t.time.domA, domB := t.time.domB } })

/-- R606, R608, R615: after a full reset's release the device is in Priming, no region is quarantined, no ring is enabled, every channel and every lane is
untrained, every event source is disabled and not pending, and no memory or queue holds anything. What stands here for registers is their Reset column. -/
def Obligations.ResetState : Prop :=
  State.reset.chipState = stPriming ∧ State.reset.rf CHIP_ID.STEPPING = 0x21 ∧ State.reset.rf CHIP_ID.PART = 0x9100 ∧
  (∀ n : Fin 8, State.reset.region n = rgRun ∧ State.reset.rf (SP_WM.STROKE n) = 0) ∧ State.reset.ringsUsed = [] ∧ State.reset.regs = [] ∧
  State.reset.reg CHIP_DET_STATUS.w = 0 ∧ State.reset.reg CHIP_ERR_LOG_CTRL.w = 0 ∧ (∀ k : Fin 128, State.reset.reg (CHIP_EVT_PEND.w k) = 0) ∧
  State.reset.hostMem = [] ∧ State.reset.eps = [] ∧ State.reset.tcam = [] ∧ State.reset.slots = [] ∧ State.reset.pending = [] ∧ State.reset.outputs = [] ∧
  State.reset.canon = true

/-- Whatever command is taken, a state all of whose stores and maps are in canonical form is followed by one of the same kind: the register map lists no word
that holds its reset value, host memory no byte that holds 0, and every table, cache, queue and timer map keeps its keys in order, without entries equal to
what an absent one reads as. -/
def Obligations.StepKeepsCanonical : Prop := ∀ s t : State, s.canon = true → step s = .next t → t.canon = true

/-- No command touches the queue of commands: a step takes the first and leaves the rest as it stands. -/
def Obligations.CommandsKeepTheQueue : Prop :=
  (∀ (c : Instr) (s t : State), exec c s = .next t → t.pending = s.pending) ∧
  (∀ (s t : State), step s = .next t → t.pending = s.pending.tail)

/-- R437, R614: while the device is Halted or stands in a failed priming, and without power, no write of the host but one of CHIP_RESET_CTRL changes anything. -/
def Obligations.HostWritesDiscarded : Prop :=
  ∀ (c : Instr) (s : State), isHostWrite c = true → s.hostOpen = false → exec c s = .next s

/-- R561, R607, R473: a halted device stays halted until a full reset: no command but a full reset, the loss of the supplies or a write that carries the reset's key
takes it out of the state, and the cause of the halt stays. -/
def Obligations.HaltedUntilReset : Prop :=
  ∀ (c : Instr) (s t : State), s.halted = true → endsHalt c = false → exec c s = .next t →
    t.halted = true ∧ t.rf CHIP_HALT_CAUSE.CAUSE = s.rf CHIP_HALT_CAUSE.CAUSE
end

