-- ==== Sys2Proof/Laws/Bits.lean ====
section
/-! SUPPORT. The laws of bit fields: a field read after it was put, and every other field left alone. -/

namespace Sys2Proof.Machine

theorem bits_lt (v lo w : Nat) : bits v lo w < 2 ^ w := Nat.mod_lt _ (Nat.two_pow_pos w)

/-- A number is its bits above a field, the field, and the bits below it. -/
theorem bits_split (v lo w : Nat) : v = v / 2 ^ (lo + w) * 2 ^ (lo + w) + bits v lo w * 2 ^ lo + v % 2 ^ lo := by
  have h1 := Nat.div_add_mod v (2 ^ lo)
  have h2 := Nat.div_add_mod (v / 2 ^ lo) (2 ^ w)
  rw [Nat.div_div_eq_div_mul, ← Nat.pow_add] at h2
  unfold bits
  have h3 : 2 ^ (lo + w) = 2 ^ lo * 2 ^ w := Nat.pow_add ..
  generalize v / 2 ^ (lo + w) = hi at *
  generalize hm : v / 2 ^ lo % 2 ^ w = mid at *
  rw [h3]
  rw [← h2] at h1
  calc v = 2 ^ lo * (2 ^ w * hi + mid) + v % 2 ^ lo := h1.symm
    _ = _ := by ring

/-- Putting a field replaces it and keeps the rest. -/
theorem putBits_eq (v lo w x : Nat) :
    putBits v lo w x = v / 2 ^ (lo + w) * 2 ^ (lo + w) + x % 2 ^ w * 2 ^ lo + v % 2 ^ lo := by
  have h := bits_split v lo w
  unfold putBits
  generalize bits v lo w * 2 ^ lo = m at *
  generalize v / 2 ^ (lo + w) * 2 ^ (lo + w) = hi at *
  generalize v % 2 ^ lo = r at *
  omega

theorem putBits_low (v lo w x : Nat) : putBits v lo w x % 2 ^ lo = v % 2 ^ lo := by
  rw [putBits_eq, Nat.pow_add]
  have : v / (2 ^ lo * 2 ^ w) * (2 ^ lo * 2 ^ w) + x % 2 ^ w * 2 ^ lo + v % 2 ^ lo =
      v % 2 ^ lo + 2 ^ lo * (v / (2 ^ lo * 2 ^ w) * 2 ^ w + x % 2 ^ w) := by ring
  rw [this, Nat.add_mul_mod_self_left, Nat.mod_mod]

theorem putBits_div (v lo w x : Nat) : putBits v lo w x / 2 ^ lo = v / 2 ^ (lo + w) * 2 ^ w + x % 2 ^ w := by
  rw [putBits_eq, Nat.pow_add]
  have : v / (2 ^ lo * 2 ^ w) * (2 ^ lo * 2 ^ w) + x % 2 ^ w * 2 ^ lo + v % 2 ^ lo =
      v % 2 ^ lo + 2 ^ lo * (v / (2 ^ lo * 2 ^ w) * 2 ^ w + x % 2 ^ w) := by ring
  rw [this, Nat.add_mul_div_left _ _ (Nat.two_pow_pos lo), Nat.div_eq_of_lt (Nat.mod_lt _ (Nat.two_pow_pos lo)), Nat.zero_add]

theorem putBits_high (v lo w x : Nat) : putBits v lo w x / 2 ^ (lo + w) = v / 2 ^ (lo + w) := by
  rw [Nat.pow_add, ← Nat.div_div_eq_div_mul, putBits_div, Nat.mul_comm _ (2 ^ w), Nat.mul_add_div (Nat.two_pow_pos w),
    Nat.div_eq_of_lt (Nat.mod_lt _ (Nat.two_pow_pos w)), Nat.add_zero, Nat.pow_add]

/-- A field reads what was put into it. -/
theorem bits_putBits_same (v lo w x : Nat) : bits (putBits v lo w x) lo w = x % 2 ^ w := by
  unfold bits
  rw [putBits_div, Nat.mul_comm, Nat.mul_add_mod, Nat.mod_mod]

/-- A field below is left alone. -/
theorem bits_putBits_below (v lo w x lo' w' : Nat) (h : lo' + w' ≤ lo) : bits (putBits v lo w x) lo' w' = bits v lo' w' := by
  have key : ∀ y, bits y lo' w' = bits (y % 2 ^ lo) lo' w' := by
    intro y
    unfold bits
    obtain ⟨k, rfl⟩ := Nat.exists_eq_add_of_le h
    have h1 : 2 ^ (lo' + w' + k) = 2 ^ lo' * (2 ^ w' * 2 ^ k) := by rw [Nat.pow_add, Nat.pow_add, Nat.mul_assoc]
    rw [h1, Nat.mod_mul_right_div_self, Nat.mod_mul_right_mod]
  rw [key, putBits_low, ← key]

/-- A field above is left alone. -/
theorem bits_putBits_above (v lo w x lo' w' : Nat) (h : lo + w ≤ lo') : bits (putBits v lo w x) lo' w' = bits v lo' w' := by
  obtain ⟨k, rfl⟩ := Nat.exists_eq_add_of_le h
  have key : ∀ y, y / 2 ^ (lo + w + k) = y / 2 ^ (lo + w) / 2 ^ k := fun y => by
    rw [Nat.pow_add (m := lo + w), Nat.div_div_eq_div_mul]
  unfold bits
  rw [key, key, putBits_high]

/-- Putting a field does not leave the word. -/
theorem putBits_lt {v lo w x n : Nat} (h : v < 2 ^ n) (hw : lo + w ≤ n) : putBits v lo w x < 2 ^ n := by
  obtain ⟨k, rfl⟩ := Nat.exists_eq_add_of_le hw
  have h1 : v / 2 ^ (lo + w) < 2 ^ k := by
    rw [Nat.div_lt_iff_lt_mul (Nat.two_pow_pos _), ← Nat.pow_add, Nat.add_comm k]; exact h
  have h2 : putBits v lo w x / 2 ^ (lo + w) < 2 ^ k := by rw [putBits_high]; exact h1
  rw [Nat.div_lt_iff_lt_mul (Nat.two_pow_pos _), ← Nat.pow_add, Nat.add_comm k] at h2
  exact h2

/-- Putting back what a field holds changes nothing. -/
theorem putBits_bits (v lo w : Nat) : putBits v lo w (bits v lo w) = v := by
  rw [putBits_eq, Nat.mod_eq_of_lt (bits_lt v lo w)]
  exact (bits_split v lo w).symm

end Sys2Proof.Machine
end

