-- ==== Sys2Proof/Laws/Maps.lean ====
section
/-! SUPPORT. The laws of sparse maps (a read after a write, the canonical form kept, equal maps are equal data) and of bit fields. -/

namespace Sys2Proof.Machine

section Maps

variable {α : Type} [DecidableEq α] {d : Nat → α} {m : List (Nat × α)} {lo k j : Nat} {v : α}

/-- A canonical map lists no key below its bound. -/
theorem sget_below (h : scanon d lo m = true) (hk : k < lo) : sget d m k = d k := by
  induction m generalizing lo with
  | nil => rfl
  | cons p m ih =>
    obtain ⟨k', v'⟩ := p
    simp only [scanon, Bool.and_eq_true, decide_eq_true_eq] at h
    simp only [sget]
    rw [if_neg (by omega)]
    exact ih h.2 (by omega)

/-- A read after a write to the same key gives the value written. -/
theorem sget_sset_same (h : scanon d lo m = true) : sget d (sset d m k v) k = v := by
  induction m generalizing lo with
  | nil => by_cases hv : v = d k <;> simp [sset, sget, hv]
  | cons p m ih =>
    obtain ⟨k', v'⟩ := p
    simp only [scanon, Bool.and_eq_true, decide_eq_true_eq] at h
    obtain ⟨⟨h1, h2⟩, h3⟩ := h
    simp only [sset]
    split
    · next hk =>
      split
      · next hv => rw [sget, if_neg (by omega), sget_below h3 (by omega), hv]
      · simp [sget]
    · split
      · next hk => 
        split
        · next hv => subst hk; rw [sget_below h3 (by omega), hv]
        · simp [sget]
      · next hk => rw [sget, if_neg hk]; exact ih h3

/-- A write leaves every other key alone. -/
theorem sget_sset_ne (hk : j ≠ k) : sget d (sset d m k v) j = sget d m j := by
  induction m with
  | nil => by_cases hv : v = d k <;> simp [sset, sget, hv, hk]
  | cons p m ih =>
    obtain ⟨k', v'⟩ := p
    simp only [sset]
    split
    · split
      · rfl
      · simp [sget, hk]
    · split
      · next hk' =>
        split
        · rw [sget, if_neg (by omega)]
        · simp [sget, hk' ▸ hk, hk]
      · simp only [sget]; split
        · rfl
        · exact ih

/-- A write keeps the canonical form. -/
theorem scanon_sset (h : scanon d lo m = true) (hk : lo ≤ k) : scanon d lo (sset d m k v) = true := by
  induction m generalizing lo with
  | nil => by_cases hv : v = d k <;> simp [sset, scanon, hv, hk]
  | cons p m ih =>
    obtain ⟨k', v'⟩ := p
    have h0 := h
    simp only [scanon, Bool.and_eq_true, decide_eq_true_eq] at h
    obtain ⟨⟨h1, h2⟩, h3⟩ := h
    simp only [sset]
    split
    · next hlt =>
      split
      · exact h0
      · next hv =>
        simp only [scanon, Bool.and_eq_true, decide_eq_true_eq]
        exact ⟨⟨hk, hv⟩, ⟨by omega, h2⟩, h3⟩
    · split
      · next hk' =>
        split
        · cases m with
          | nil => rfl
          | cons q m =>
            obtain ⟨k2, v2⟩ := q
            simp only [scanon, Bool.and_eq_true, decide_eq_true_eq] at h3 ⊢
            exact ⟨⟨by omega, h3.1.2⟩, h3.2⟩
        · next hv =>
          simp only [scanon, Bool.and_eq_true, decide_eq_true_eq]
          exact ⟨⟨hk, hv⟩, by subst hk'; exact h3⟩
      · simp only [scanon, Bool.and_eq_true, decide_eq_true_eq]
        exact ⟨⟨h1, h2⟩, ih h3 (by omega)⟩

/-- Two canonical maps that read the same everywhere are the same data. -/
theorem scanon_ext {m' : List (Nat × α)} (h : scanon d lo m = true) (h' : scanon d lo m' = true)
    (he : ∀ k, sget d m k = sget d m' k) : m = m' := by
  induction m generalizing lo m' with
  | nil =>
    cases m' with
    | nil => rfl
    | cons q m' =>
      obtain ⟨k', v'⟩ := q
      simp only [scanon, Bool.and_eq_true, decide_eq_true_eq] at h'
      have := he k'
      simp only [sget, if_true] at this
      exact absurd this.symm h'.1.2
  | cons p m ih =>
    obtain ⟨k, v⟩ := p
    simp only [scanon, Bool.and_eq_true, decide_eq_true_eq] at h
    cases m' with
    | nil =>
      have := he k
      simp only [sget, if_true] at this
      exact absurd this h.1.2
    | cons q m' =>
      obtain ⟨k', v'⟩ := q
      simp only [scanon, Bool.and_eq_true, decide_eq_true_eq] at h'
      have e1 := he k
      have e2 := he k'
      simp only [sget, if_true] at e1 e2
      have hk : k = k' := by
        rcases Nat.lt_trichotomy k k' with hlt | heq | hgt
        · rw [if_neg (by omega), sget_below h'.2 (by omega)] at e1
          exact absurd e1 h.1.2
        · exact heq
        · rw [if_neg (by omega), sget_below h.2 (by omega)] at e2
          exact absurd e2.symm h'.1.2
      subst hk
      simp only [if_true] at e1
      subst e1
      congr 1
      refine ih h.2 h'.2 fun x => ?_
      by_cases hx : x = k
      · subst hx; rw [sget_below h.2 (by omega), sget_below h'.2 (by omega)]
      · have := he x
        simpa [sget, hx] using this

/-- Writing what a key already holds changes nothing. -/
theorem sset_sget (h : scanon d 0 m = true) : sset d m k (sget d m k) = m := by
  refine scanon_ext (lo := 0) (scanon_sset h (Nat.zero_le _)) h fun x => ?_
  by_cases hx : x = k
  · subst hx; exact sget_sset_same h
  · exact sget_sset_ne hx

end Maps

section OneDefault

variable {α : Type} [DecidableEq α] {d : α} {m : List (Nat × α)} {k j : Nat} {v : α}

theorem mget_mset_same (h : scanon (fun _ => d) 0 m = true) : mget d (mset d m k v) k = v := sget_sset_same h

theorem mget_mset_ne (hk : j ≠ k) : mget d (mset d m k v) j = mget d m j := sget_sset_ne hk

theorem mset_canon (h : scanon (fun _ => d) 0 m = true) : scanon (fun _ => d) 0 (mset d m k v) = true :=
  scanon_sset h (Nat.zero_le _)

@[simp] theorem mget_nil : mget d [] k = d := rfl

end OneDefault

end Sys2Proof.Machine
end

