-- ==== Sys2Proof/Laws/Registers.lean ====
section
/-! SUPPORT. The laws of register words and fields: a read after a write, and what a write leaves alone. -/

namespace Sys2Proof.Machine

variable {s : State} {w a : Nat} {x : Word} {f g : Fld} {v : Nat}

theorem reg_setReg_same (h : s.regsCanon = true) : (s.setReg w x).reg w = x := sget_sset_same h

theorem reg_setReg_ne (h : a ≠ w) : (s.setReg w x).reg a = s.reg a := sget_sset_ne h

theorem regsCanon_setReg (h : s.regsCanon = true) : (s.setReg w x).regsCanon = true := scanon_sset h (Nat.zero_le _)

/-- Writing back what a word holds changes nothing. -/
theorem setReg_reg (h : s.regsCanon = true) : s.setReg w (s.reg w) = s := by
  unfold State.setReg State.reg
  rw [sset_sget h]; rfl

theorem regsCanon_wf (h : s.regsCanon = true) : (s.wf f v).regsCanon = true := by
  unfold State.wf
  dsimp only
  split
  · exact regsCanon_setReg h
  · exact regsCanon_setReg (regsCanon_setReg h)

/-- A field's update changes nothing but the words the field lies in. -/
theorem reg_wf_ne (h : a ≠ f.w + f.lo / 32) (h' : a ≠ f.w + f.lo / 32 + 1) : (s.wf f v).reg a = s.reg a := by
  unfold State.wf
  dsimp only
  split
  · exact reg_setReg_ne h
  · rw [reg_setReg_ne h', reg_setReg_ne h]

/-- A field within one word changes that word alone. -/
theorem reg_wf_ne_one (h1 : f.lo % 32 + f.width ≤ 32) (h : a ≠ f.w + f.lo / 32) : (s.wf f v).reg a = s.reg a := by
  unfold State.wf
  dsimp only
  rw [if_pos h1]
  exact reg_setReg_ne h

theorem testBit_bits (y lo n i : Nat) : (bits y lo n).testBit i = (decide (i < n) && y.testBit (lo + i)) := by
  unfold bits
  rw [Nat.testBit_mod_two_pow, Nat.testBit_div_two_pow, Nat.add_comm]

theorem testBit_eq_bits (y i : Nat) : y.testBit i = decide (bits y i 1 = 1) := by
  rw [Nat.testBit_eq_decide_div_mod_eq]
  simp [bits]

theorem testBit_putBits (y lo n z i : Nat) :
    (putBits y lo n z).testBit i = if lo ≤ i ∧ i < lo + n then z.testBit (i - lo) else y.testBit i := by
  split
  · next h =>
    have h1 := congrArg (fun t => Nat.testBit t (i - lo)) (bits_putBits_same y lo n z)
    simp only [testBit_bits, Nat.testBit_mod_two_pow] at h1
    rw [show lo + (i - lo) = i by omega, show decide (i - lo < n) = true by simp; omega] at h1
    simpa using h1
  · next h =>
    rw [testBit_eq_bits, testBit_eq_bits]
    by_cases h1 : i < lo
    · rw [bits_putBits_below _ _ _ _ _ _ (by omega)]
    · rw [bits_putBits_above _ _ _ _ _ _ (by omega)]

/-- Bit `i` of the register space, counted from bit 0 of word 0. -/
def State.abit (s : State) (i : Nat) : Bool := (s.reg (i / 32)).toNat.testBit (i % 32)

theorem abit_setReg (h : s.regsCanon = true) (i : Nat) :
    (s.setReg w x).abit i = if i / 32 = w then x.toNat.testBit (i % 32) else s.abit i := by
  unfold State.abit
  split
  · next h1 => rw [h1, reg_setReg_same h]
  · next h1 => rw [reg_setReg_ne h1]

theorem two_words_testBit (lo hi : Word) (i : Nat) (_h : i < 64) :
    (lo.toNat + 2 ^ 32 * hi.toNat).testBit i = if i < 32 then lo.toNat.testBit i else hi.toNat.testBit (i - 32) := by
  have := lo.isLt
  rw [Nat.add_comm, Nat.testBit_two_pow_mul_add _ this]

/-- The bits of a field's value are the register bits of its place. -/
theorem testBit_rf (hf : f.fits = true) (i : Nat) : (s.rf f).testBit i = (decide (i < f.width) && s.abit (f.abs + i)) := by
  simp only [Fld.fits, decide_eq_true_eq] at hf
  unfold State.rf State.abit Fld.abs
  split
  · next h =>
    rw [testBit_bits]
    by_cases hi : i < f.width
    · rw [show (f.w * 32 + f.lo + i) / 32 = f.w + f.lo / 32 by omega, show (f.w * 32 + f.lo + i) % 32 = f.lo % 32 + i by omega]
    · simp [hi]
  · next h =>
    rw [testBit_bits]
    by_cases hi : i < f.width
    · rw [two_words_testBit _ _ _ (by omega)]
      split
      · next h2 =>
        rw [show (f.w * 32 + f.lo + i) / 32 = f.w + f.lo / 32 by omega, show (f.w * 32 + f.lo + i) % 32 = f.lo % 32 + i by omega]
      · next h2 =>
        rw [show (f.w * 32 + f.lo + i) / 32 = f.w + f.lo / 32 + 1 by omega,
          show (f.w * 32 + f.lo + i) % 32 = f.lo % 32 + i - 32 by omega]
    · simp [hi]

/-- The register bits after a field's update. -/
theorem abit_wf (h : s.regsCanon = true) (hf : f.fits = true) (i : Nat) :
    (s.wf f v).abit i = if f.abs ≤ i ∧ i < f.abs + f.width then v.testBit (i - f.abs) else s.abit i := by
  simp only [Fld.fits, decide_eq_true_eq] at hf
  unfold State.wf
  dsimp only
  split
  · next h1 =>
    rw [abit_setReg h, BitVec.toNat_ofNat, Nat.mod_eq_of_lt (putBits_lt (s.reg _).isLt h1), testBit_putBits]
    unfold Fld.abs
    by_cases hw : i / 32 = f.w + f.lo / 32
    · rw [if_pos hw]
      by_cases hr : f.lo % 32 ≤ i % 32 ∧ i % 32 < f.lo % 32 + f.width
      · rw [if_pos hr, if_pos (by omega), show i % 32 - f.lo % 32 = i - (f.w * 32 + f.lo) by omega]
      · rw [if_neg hr, if_neg (by omega)]
        unfold State.abit
        rw [hw]
    · rw [if_neg hw, if_neg (by omega)]
  · next h1 =>
    rw [abit_setReg (regsCanon_setReg h), abit_setReg h]
    have hx : putBits ((s.reg (f.w + f.lo / 32)).toNat + 2 ^ 32 * (s.reg (f.w + f.lo / 32 + 1)).toNat) (f.lo % 32) f.width v < 2 ^ 64 := by
      apply putBits_lt _ hf
      have h2 := (s.reg (f.w + f.lo / 32)).isLt
      have h3 := (s.reg (f.w + f.lo / 32 + 1)).isLt
      omega
    have tb := testBit_putBits ((s.reg (f.w + f.lo / 32)).toNat + 2 ^ 32 * (s.reg (f.w + f.lo / 32 + 1)).toNat) (f.lo % 32) f.width v
    generalize putBits ((s.reg (f.w + f.lo / 32)).toNat + 2 ^ 32 * (s.reg (f.w + f.lo / 32 + 1)).toNat) (f.lo % 32) f.width v = y at *
    unfold Fld.abs
    by_cases hw1 : i / 32 = f.w + f.lo / 32 + 1
    · rw [if_pos hw1, BitVec.toNat_ofNat, Nat.testBit_mod_two_pow, Nat.testBit_div_two_pow, tb]
      rw [show decide (i % 32 < 32) = true by simp; omega, Bool.true_and]
      by_cases hr : f.lo % 32 ≤ i % 32 + 32 ∧ i % 32 + 32 < f.lo % 32 + f.width
      · rw [if_pos hr, if_pos (by omega), show i % 32 + 32 - f.lo % 32 = i - (f.w * 32 + f.lo) by omega]
      · rw [if_neg hr, if_neg (by omega), two_words_testBit _ _ _ (by omega), if_neg (by omega)]
        unfold State.abit
        rw [hw1, show i % 32 + 32 - 32 = i % 32 by omega]
    · rw [if_neg hw1]
      by_cases hw : i / 32 = f.w + f.lo / 32
      · rw [if_pos hw, BitVec.toNat_ofNat, Nat.testBit_mod_two_pow, tb]
        rw [show decide (i % 32 < 32) = true by simp; omega, Bool.true_and]
        by_cases hr : f.lo % 32 ≤ i % 32 ∧ i % 32 < f.lo % 32 + f.width
        · rw [if_pos hr, if_pos (by omega), show i % 32 - f.lo % 32 = i - (f.w * 32 + f.lo) by omega]
        · rw [if_neg hr, if_neg (by omega), two_words_testBit _ _ _ (by omega), if_pos (by omega)]
          unfold State.abit
          rw [hw]
      · rw [if_neg hw, if_neg (by omega)]

/-- A field reads, modulo its width, what was put into it. -/
theorem rf_wf_same (h : s.regsCanon = true) (hf : f.fits = true) : (s.wf f v).rf f = v % 2 ^ f.width := by
  apply Nat.eq_of_testBit_eq
  intro i
  rw [testBit_rf hf, abit_wf h hf, Nat.testBit_mod_two_pow]
  by_cases hi : i < f.width
  · rw [if_pos (by omega), Nat.add_sub_cancel_left]
  · simp [hi]

/-- A field's update leaves every field alone that shares no bit with it. -/
theorem rf_wf_apart (h : s.regsCanon = true) (hf : f.fits = true) (hg : g.fits = true) (ha : f.apart g = true) :
    (s.wf f v).rf g = s.rf g := by
  apply Nat.eq_of_testBit_eq
  intro i
  rw [testBit_rf hg, testBit_rf hg, abit_wf h hf]
  simp only [Fld.apart, Bool.or_eq_true, decide_eq_true_eq] at ha
  by_cases hi : i < g.width
  · rw [if_neg (by omega)]
  · simp [hi]

theorem rf_lt (f : Fld) : s.rf f < 2 ^ f.width := by
  unfold State.rf
  split <;> exact bits_lt ..

/-- A field reads the same in two states whose words agree where it lies. -/
theorem rf_congr {t : State} (h1 : t.reg (f.w + f.lo / 32) = s.reg (f.w + f.lo / 32))
    (h2 : t.reg (f.w + f.lo / 32 + 1) = s.reg (f.w + f.lo / 32 + 1)) : t.rf f = s.rf f := by
  unfold State.rf
  rw [h1, h2]

theorem rb_wb_same (h : s.regsCanon = true) (hf : f.fits = true) (hw : f.width = 1) (b : Bool) : (s.wb f b).rb f = b := by
  unfold State.rb State.wb
  rw [rf_wf_same h hf, hw]
  cases b <;> rfl

end Sys2Proof.Machine
end

