-- ==== Sys2Proof/Laws/Events.lean ====
section
/-! SUPPORT. Everything that raising an event can do (R578, R579): its pending and summary bits, the loss, merge and unrouted counts, and
the records raised and not yet written; nothing else of the state. -/

namespace Sys2Proof.Machine

variable {s t u : State} {w a src data : Nat} {f g : Fld} {v n : Nat} {e : EvtRec} {b : Bool}

/-! ### Frames compose -/

theorem SameButRegs.refl (s : State) : SameButRegs s s := rfl

theorem SameButRegs.trans (h1 : SameButRegs s t) (h2 : SameButRegs t u) : SameButRegs s u := by
  unfold SameButRegs at *; rw [h2, h1]

theorem SameButEvents.refl (s : State) : SameButEvents s s := rfl

theorem SameButEvents.trans (h1 : SameButEvents s t) (h2 : SameButEvents t u) : SameButEvents s u := by
  unfold SameButEvents at *; rw [h2, h1]

theorem SameButRegs.events (h : SameButRegs s t) : SameButEvents s t := by
  unfold SameButRegs at h; unfold SameButEvents; rw [h]

theorem sameButRegs_setReg (s : State) (w : Nat) (x : Word) : SameButRegs s (s.setReg w x) := rfl

theorem sameButRegs_wf (s : State) (f : Fld) (v : Nat) : SameButRegs s (s.wf f v) := by
  unfold State.wf; dsimp only; split <;> rfl

theorem sameButRegs_addSat (s : State) (f : Fld) (n : Nat) : SameButRegs s (s.addSat f n) := sameButRegs_wf ..

theorem regsCanon_addSat (h : s.regsCanon = true) : (s.addSat f n).regsCanon = true := regsCanon_wf h

/-! ### Raising -/

/-- What a part of raising keeps: the rest of the state, the canonical form, and every word outside the event words. -/
structure EvtStep (s t : State) : Prop where
  same : SameButEvents s t
  canon : s.regsCanon = true → t.regsCanon = true
  words : ∀ a, evtWord a = false → t.reg a = s.reg a

theorem EvtStep.refl (s : State) : EvtStep s s := ⟨.refl s, id, fun _ _ => rfl⟩

theorem EvtStep.trans (h1 : EvtStep s t) (h2 : EvtStep t u) : EvtStep s u :=
  ⟨h1.same.trans h2.same, fun h => h2.canon (h1.canon h), fun a h => (h2.words a h).trans (h1.words a h)⟩

theorem evtStep_setReg (x : Word) (h : evtWord w = true) : EvtStep s (s.setReg w x) :=
  ⟨(sameButRegs_setReg ..).events, regsCanon_setReg, fun a ha => reg_setReg_ne (by rintro rfl; simp [h] at ha)⟩

theorem evtStep_wf (h1 : f.lo % 32 + f.width ≤ 32) (h : evtWord (f.w + f.lo / 32) = true) : EvtStep s (s.wf f v) :=
  ⟨(sameButRegs_wf ..).events, regsCanon_wf, fun a ha => reg_wf_ne_one h1 (by rintro rfl; simp [h] at ha)⟩

theorem evtStep_addSat (f : Fld) (n : Nat) (h1 : f.lo % 32 + f.width ≤ 32) (h : evtWord (f.w + f.lo / 32) = true) :
    EvtStep s (s.addSat f n) := evtStep_wf h1 h

theorem evtStep_evts (l : List EvtRec) : EvtStep s { s with evts := l } := ⟨rfl, id, fun _ _ => rfl⟩

theorem evtStep_pend (h : src < 4096) : EvtStep s (s.pend src) := by
  unfold State.pend
  refine .trans (evtStep_setReg _ ?_) (evtStep_setReg _ ?_)
  · simp [evtWord, CHIP_EVT_PEND.w]; omega
  · simp [evtWord, CHIP_EVT_SUMMARY.w]; omega

theorem evtStep_queueRec (r : Nat) (h : e.src < 4096) : EvtStep s (s.queueRec r e).1 := by
  unfold State.queueRec
  split
  · split
    · split
      · exact (evtStep_evts _).trans (evtStep_addSat (CHIP_EVT_SRC.MERGED e.src) 1 (by simp [CHIP_EVT_SRC.MERGED]) (by simp [evtWord, CHIP_EVT_SRC.MERGED, CHIP_EVT_SRC.w]; omega))
      · exact evtStep_evts _
    · split
      · exact evtStep_addSat CHIP_EVT_STATUS.LOST 1 (by simp [CHIP_EVT_STATUS.LOST]) (by simp [evtWord, CHIP_EVT_STATUS.LOST, CHIP_EVT_STATUS.w])
      · exact evtStep_evts _
  · exact evtStep_evts _

theorem evtStep_raiseOnce (h : e.src < 4096) : EvtStep s (s.raiseOnce e).1 := by
  unfold State.raiseOnce
  dsimp only
  refine (evtStep_pend h).trans ?_
  split
  · exact .refl _
  · split
    · exact .refl _
    · split
      · exact evtStep_queueRec _ h
      · exact evtStep_addSat CHIP_EVT_STATUS.UNROUTED 1 (by simp [CHIP_EVT_STATUS.UNROUTED]) (by simp [evtWord, CHIP_EVT_STATUS.UNROUTED, CHIP_EVT_STATUS.w])

theorem evtStep_raiseRec (h : e.src < 4096) : EvtStep s (s.raiseRec e) := by
  have h1 := evtStep_raiseOnce (s := s) h
  unfold State.raiseRec
  split
  · next hs => rw [hs] at h1; exact h1
  · next hs => rw [hs] at h1; exact h1.trans (evtStep_raiseOnce (by show 0x041 < 4096; omega))

theorem evtStep_raise (h : src < 4096) : EvtStep s (s.raise src data) := evtStep_raiseRec h

theorem EvtStep.rf (hs : EvtStep s t) (hq : f.quiet = true) : t.rf f = s.rf f := by
  simp only [Fld.quiet, Bool.and_eq_true, Bool.not_eq_true', Bool.or_eq_true, decide_eq_true_eq] at hq
  unfold State.rf
  split
  · rw [hs.words _ hq.1]
  · next h => rw [hs.words _ hq.1, hs.words _ (hq.2.resolve_left h)]

theorem fieldsKeptEv_raise (h : src < 4096) : FieldsKeptEv s (s.raise src data) [] := fun _ _ hq _ => (evtStep_raise h).rf hq

theorem sameButEvents_raise (h : src < 4096) : SameButEvents s (s.raise src data) := (evtStep_raise h).same

theorem regsCanon_raise (hs : s.regsCanon = true) (h : src < 4096) : (s.raise src data).regsCanon = true := (evtStep_raise h).canon hs

theorem reg_raise (h : src < 4096) (ha : evtWord a = false) : (s.raise src data).reg a = s.reg a := (evtStep_raise h).words a ha

theorem rf_raise (h : src < 4096) (hq : f.quiet = true) : (s.raise src data).rf f = s.rf f := (evtStep_raise h).rf hq

/-! ### The pending bit -/

theorem pending_pend (hs : s.regsCanon = true) (h : src < 4096) : (s.pend src).pendingBit src = true := by
  unfold State.pendingBit State.pend
  dsimp only
  rw [reg_setReg_ne (by simp [CHIP_EVT_PEND.w, CHIP_EVT_SUMMARY.w]; omega), reg_setReg_same hs, BitVec.toNat_or, Nat.testBit_or]
  simp only [Bool.or_eq_true]
  refine .inr ?_
  rw [BitVec.toNat_ofNat, Nat.testBit_mod_two_pow, Nat.testBit_two_pow_self]
  simp; omega

theorem pending_keep_pend (hs : s.regsCanon = true) {src' : Nat} (h : src < 4096) (h' : src' < 4096)
    (hp : s.pendingBit src = true) : (s.pend src').pendingBit src = true := by
  unfold State.pendingBit State.pend at *
  dsimp only
  rw [reg_setReg_ne (by simp [CHIP_EVT_PEND.w, CHIP_EVT_SUMMARY.w]; omega)]
  by_cases hw : CHIP_EVT_PEND.w (src / 32) = CHIP_EVT_PEND.w (src' / 32)
  · rw [hw, reg_setReg_same hs, BitVec.toNat_or, Nat.testBit_or, ← hw, hp]; rfl
  · rw [reg_setReg_ne hw]; exact hp

theorem pendWord_queueRec (r : Nat) (h : e.src < 4096) (k : Nat) (hk : k < 128) :
    (s.queueRec r e).1.reg (CHIP_EVT_PEND.w k) = s.reg (CHIP_EVT_PEND.w k) := by
  unfold State.queueRec
  split
  · split
    · split
      · exact reg_wf_ne_one (by simp [CHIP_EVT_SRC.MERGED]) (by simp [CHIP_EVT_PEND.w, CHIP_EVT_SRC.MERGED, CHIP_EVT_SRC.w]; omega)
      · rfl
    · split
      · exact reg_wf_ne_one (by simp [CHIP_EVT_STATUS.LOST]) (by simp [CHIP_EVT_PEND.w, CHIP_EVT_STATUS.LOST, CHIP_EVT_STATUS.w]; omega)
      · rfl
  · rfl

theorem pendWord_raiseOnce (h : e.src < 4096) (k : Nat) (hk : k < 128) :
    (s.raiseOnce e).1.reg (CHIP_EVT_PEND.w k) = (s.pend e.src).reg (CHIP_EVT_PEND.w k) := by
  unfold State.raiseOnce
  dsimp only
  split
  · rfl
  · split
    · rfl
    · split
      · exact pendWord_queueRec _ h k hk
      · exact reg_wf_ne_one (by simp [CHIP_EVT_STATUS.UNROUTED]) (by simp [CHIP_EVT_PEND.w, CHIP_EVT_STATUS.UNROUTED, CHIP_EVT_STATUS.w]; omega)

/-- An event raised has its pending bit set (R578). -/
theorem pending_raiseRec (hs : s.regsCanon = true) (h : e.src < 4096) : (s.raiseRec e).pendingBit e.src = true := by
  have hk : e.src / 32 < 128 := by omega
  have h1 : (s.raiseOnce e).1.pendingBit e.src = true := by
    unfold State.pendingBit
    rw [pendWord_raiseOnce h _ hk]
    exact pending_pend hs h
  have hc := (evtStep_raiseOnce (s := s) h).canon hs
  unfold State.raiseRec
  split
  · next hs' => rw [hs'] at h1; exact h1
  · next s' hs' =>
    rw [hs'] at h1 hc
    unfold State.pendingBit
    rw [pendWord_raiseOnce (by show 0x041 < 4096; omega) _ hk]
    exact pending_keep_pend hc h (by show 0x041 < 4096; omega) h1

theorem pending_raise (hs : s.regsCanon = true) (h : src < 4096) : (s.raise src data).pendingBit src = true :=
  pending_raiseRec hs h

/-! ### Error bits (R464) -/

theorem evtStep_rest_setErr (h : src < 4096) : SameButEvents s (s.setErr f src) := by
  unfold State.setErr
  split
  · exact .refl _
  · exact ((sameButRegs_wf ..).events).trans (sameButEvents_raise h)

theorem regsCanon_setErr (hs : s.regsCanon = true) (h : src < 4096) : (s.setErr f src).regsCanon = true := by
  unfold State.setErr
  split
  · exact hs
  · exact regsCanon_raise (regsCanon_wf hs) h

theorem rf_setErr_same (hs : s.regsCanon = true) (h : src < 4096) (hf : f.fits = true) (hw : f.width = 1) (hq : f.quiet = true) :
    (s.setErr f src).rf f = 1 := by
  unfold State.setErr
  split
  · next hb =>
    have h1 := rf_lt (s := s) f
    rw [hw] at h1
    simp only [State.rb, bne_iff_ne, ne_eq] at hb
    omega
  · rw [rf_raise h hq, rf_wf_same hs hf, hw]; rfl

theorem rf_setErr_apart (hs : s.regsCanon = true) (h : src < 4096) (hf : f.fits = true) (hg : g.fits = true) (ha : f.apart g = true)
    (hq : g.quiet = true) : (s.setErr f src).rf g = s.rf g := by
  unfold State.setErr
  split
  · rfl
  · rw [rf_raise h hq, rf_wf_apart hs hf hg ha]

theorem reg_setErr_ne (h : src < 4096) (h1 : f.lo % 32 + f.width ≤ 32) (ha : a ≠ f.w + f.lo / 32) (hq : evtWord a = false) :
    (s.setErr f src).reg a = s.reg a := by
  unfold State.setErr
  split
  · rfl
  · rw [reg_raise h hq, reg_wf_ne_one h1 ha]

end Sys2Proof.Machine
end

