-- ==== Sys2Proof/Laws/Frames.lean ====
section
/-! SUPPORT. Frames over register fields compose: what a chain of field updates and raised events leaves alone. -/

namespace Sys2Proof.Machine

variable {s t u : State} {f g : Fld} {v n src data : Nat} {fs gs : List Fld}

theorem FieldsKept.refl (s : State) : FieldsKept s s [] := fun _ _ _ => rfl

theorem FieldsKept.trans (h1 : FieldsKept s t fs) (h2 : FieldsKept t u gs) : FieldsKept s u (fs ++ gs) := fun g hg ha =>
  (h2 g hg fun f hf => ha f (List.mem_append_right _ hf)).trans (h1 g hg fun f hf => ha f (List.mem_append_left _ hf))

theorem FieldsKept.mono (h : FieldsKept s t fs) (hs : fs ⊆ gs) : FieldsKept s t gs := fun g hg ha => h g hg fun f hf => ha f (hs hf)

theorem FieldsKept.ev (h : FieldsKept s t fs) : FieldsKeptEv s t fs := fun g hg _ ha => h g hg ha

theorem FieldsKeptEv.trans (h1 : FieldsKeptEv s t fs) (h2 : FieldsKeptEv t u gs) : FieldsKeptEv s u (fs ++ gs) := fun g hg hq ha =>
  (h2 g hg hq fun f hf => ha f (List.mem_append_right _ hf)).trans (h1 g hg hq fun f hf => ha f (List.mem_append_left _ hf))

theorem FieldsKeptEv.mono (h : FieldsKeptEv s t fs) (hs : fs ⊆ gs) : FieldsKeptEv s t gs :=
  fun g hg hq ha => h g hg hq fun f hf => ha f (hs hf)

/-- A field's update keeps every other field. -/
theorem fieldsKept_wf (h : s.regsCanon = true) (hf : f.fits = true) : FieldsKept s (s.wf f v) [f] := fun _ hg ha =>
  rf_wf_apart h hf hg (ha f (List.mem_singleton.2 rfl))

/-- A word is its field of 32 bits. -/
theorem setReg_eq_wf (s : State) (w : Nat) (x : Word) : s.setReg w x = s.wf ⟨w, 0, 32⟩ x.toNat := by
  have h1 : putBits (s.reg w).toNat 0 32 x.toNat = x.toNat := by
    have h2 := (s.reg w).isLt
    have h3 := x.isLt
    rw [putBits_eq]
    omega
  unfold State.wf
  simp [h1]

theorem fieldsKept_setReg (h : s.regsCanon = true) (w : Nat) (x : Word) : FieldsKept s (s.setReg w x) [⟨w, 0, 32⟩] := by
  rw [setReg_eq_wf]; exact fieldsKept_wf h rfl

theorem fieldsKept_addSat (h : s.regsCanon = true) (hf : f.fits = true) : FieldsKept s (s.addSat f n) [f] := fieldsKept_wf h hf

theorem fieldsKeptEv_setErr (h : s.regsCanon = true) (hf : f.fits = true) (hs : src < 4096) : FieldsKeptEv s (s.setErr f src) [f] :=
  fun _ hg hq ha => rf_setErr_apart h hs hf hg (ha f (List.mem_singleton.2 rfl)) hq

end Sys2Proof.Machine
end

