-- ==== Sys2Proof/Laws/State.lean ====
section
/-! SUPPORT. One lemma per field of the state per basic update, so that no proof unfolds a record update. -/

namespace Sys2Proof.Machine

variable (s : State)

@[simp] theorem withRegs_regs (x : List (Nat × Word)) : (s.withRegs x).regs = x := rfl

@[simp] theorem withLatch_latch (x : List (Nat × Word)) : (s.withLatch x).latch = x := rfl

@[simp] theorem withHold_hold (x : List (Nat × Option Word)) : (s.withHold x).hold = x := rfl

@[simp] theorem withReadData_readData (x : List Word) : (s.withReadData x).readData = x := rfl

@[simp] theorem withHostMem_hostMem (x : List (Nat × Byte)) : (s.withHostMem x).hostMem = x := rfl

@[simp] theorem withEvts_evts (x : List EvtRec) : (s.withEvts x).evts = x := rfl

@[simp] theorem withRings_rings (x : List (Nat × RingX)) : (s.withRings x).rings = x := rfl

@[simp] theorem withCfg_cfg (x : CfgSpace) : (s.withCfg x).cfg = x := rfl

@[simp] theorem withTime_time (x : TimeX) : (s.withTime x).time = x := rfl

@[simp] theorem withChip_chip (x : ChipX) : (s.withChip x).chip = x := rfl

@[simp] theorem withLastKey_lastKey (x : List (Nat × (Nat × Nat))) : (s.withLastKey x).lastKey = x := rfl

@[simp] theorem withTcam_tcam (x : List (Nat × Nat)) : (s.withTcam x).tcam = x := rfl

@[simp] theorem withBindErr_bindErr (x : List (Nat × Nat)) : (s.withBindErr x).bindErr = x := rfl

@[simp] theorem withActions_actions (x : List (Nat × Nat)) : (s.withActions x).actions = x := rfl

@[simp] theorem withEps_eps (x : List (Nat × Nat)) : (s.withEps x).eps = x := rfl

@[simp] theorem withRoutes_routes (x : List (Nat × Nat)) : (s.withRoutes x).routes = x := rfl

@[simp] theorem withVlans_vlans (x : List (Nat × Nat)) : (s.withVlans x).vlans = x := rfl

@[simp] theorem withTbls_tbls (x : List (Nat × TblX)) : (s.withTbls x).tbls = x := rfl

@[simp] theorem withSlots_slots (x : List (Nat × Nat)) : (s.withSlots x).slots = x := rfl

@[simp] theorem withEngs_engs (x : List (Nat × EngX)) : (s.withEngs x).engs = x := rfl

@[simp] theorem withCtxs_ctxs (x : List (Nat × Option PumpCtx)) : (s.withCtxs x).ctxs = x := rfl

@[simp] theorem withHists_hists (x : List (Nat × Nat)) : (s.withHists x).hists = x := rfl

@[simp] theorem withWind_wind (x : WindX) : (s.withWind x).wind = x := rfl

@[simp] theorem withDiscards_discards (x : Nat) : (s.withDiscards x).discards = x := rfl

@[simp] theorem withDigs_digs (x : List (Nat × Nat)) : (s.withDigs x).digs = x := rfl

@[simp] theorem withPmp2_pmp2 (x : List (Nat × Nat)) : (s.withPmp2 x).pmp2 = x := rfl

@[simp] theorem withRtHist_rtHist (x : List (Nat × Nat)) : (s.withRtHist x).rtHist = x := rfl

@[simp] theorem withTxs_txs (x : List TxX) : (s.withTxs x).txs = x := rfl

@[simp] theorem withHostRx_hostRx (x : List (Nat × Option (Frame × Nat))) : (s.withHostRx x).hostRx = x := rfl

@[simp] theorem withRrHost_rrHost (x : List (Nat × Nat)) : (s.withRrHost x).rrHost = x := rfl

@[simp] theorem withMcBad_mcBad (x : List Nat) : (s.withMcBad x).mcBad = x := rfl

@[simp] theorem withPasses_passes (x : List (Nat × Option PassX)) : (s.withPasses x).passes = x := rfl

@[simp] theorem withPwr_pwr (x : PwrX) : (s.withPwr x).pwr = x := rfl

@[simp] theorem withTapx_tapx (x : TapX) : (s.withTapx x).tapx = x := rfl

@[simp] theorem withCountx_countx (x : CountX) : (s.withCountx x).countx = x := rfl

@[simp] theorem withPending_pending (x : List Instr) : (s.withPending x).pending = x := rfl

/-! `setReg` -/

@[simp] theorem setReg_latch (w : Nat) (x : Word) : (s.setReg w x).latch = s.latch := rfl
@[simp] theorem setReg_hold (w : Nat) (x : Word) : (s.setReg w x).hold = s.hold := rfl
@[simp] theorem setReg_readData (w : Nat) (x : Word) : (s.setReg w x).readData = s.readData := rfl
@[simp] theorem setReg_hostMem (w : Nat) (x : Word) : (s.setReg w x).hostMem = s.hostMem := rfl
@[simp] theorem setReg_outputs (w : Nat) (x : Word) : (s.setReg w x).outputs = s.outputs := rfl
@[simp] theorem setReg_evts (w : Nat) (x : Word) : (s.setReg w x).evts = s.evts := rfl
@[simp] theorem setReg_rings (w : Nat) (x : Word) : (s.setReg w x).rings = s.rings := rfl
@[simp] theorem setReg_cfg (w : Nat) (x : Word) : (s.setReg w x).cfg = s.cfg := rfl
@[simp] theorem setReg_time (w : Nat) (x : Word) : (s.setReg w x).time = s.time := rfl
@[simp] theorem setReg_chip (w : Nat) (x : Word) : (s.setReg w x).chip = s.chip := rfl
@[simp] theorem setReg_lastKey (w : Nat) (x : Word) : (s.setReg w x).lastKey = s.lastKey := rfl
@[simp] theorem setReg_pipes (w : Nat) (x : Word) : (s.setReg w x).pipes = s.pipes := rfl
@[simp] theorem setReg_recirc (w : Nat) (x : Word) : (s.setReg w x).recirc = s.recirc := rfl
@[simp] theorem setReg_tcam (w : Nat) (x : Word) : (s.setReg w x).tcam = s.tcam := rfl
@[simp] theorem setReg_actions (w : Nat) (x : Word) : (s.setReg w x).actions = s.actions := rfl
@[simp] theorem setReg_eps (w : Nat) (x : Word) : (s.setReg w x).eps = s.eps := rfl
@[simp] theorem setReg_routes (w : Nat) (x : Word) : (s.setReg w x).routes = s.routes := rfl
@[simp] theorem setReg_vlans (w : Nat) (x : Word) : (s.setReg w x).vlans = s.vlans := rfl
@[simp] theorem setReg_tbls (w : Nat) (x : Word) : (s.setReg w x).tbls = s.tbls := rfl
@[simp] theorem setReg_slots (w : Nat) (x : Word) : (s.setReg w x).slots = s.slots := rfl
@[simp] theorem setReg_engs (w : Nat) (x : Word) : (s.setReg w x).engs = s.engs := rfl
@[simp] theorem setReg_ctxs (w : Nat) (x : Word) : (s.setReg w x).ctxs = s.ctxs := rfl
@[simp] theorem setReg_hists (w : Nat) (x : Word) : (s.setReg w x).hists = s.hists := rfl
@[simp] theorem setReg_regx (w : Nat) (x : Word) : (s.setReg w x).regx = s.regx := rfl
@[simp] theorem setReg_wind (w : Nat) (x : Word) : (s.setReg w x).wind = s.wind := rfl
@[simp] theorem setReg_discards (w : Nat) (x : Word) : (s.setReg w x).discards = s.discards := rfl
@[simp] theorem setReg_bindErr (w : Nat) (x : Word) : (s.setReg w x).bindErr = s.bindErr := rfl
@[simp] theorem setReg_digs (w : Nat) (x : Word) : (s.setReg w x).digs = s.digs := rfl
@[simp] theorem setReg_pmp2 (w : Nat) (x : Word) : (s.setReg w x).pmp2 = s.pmp2 := rfl
@[simp] theorem setReg_rtHist (w : Nat) (x : Word) : (s.setReg w x).rtHist = s.rtHist := rfl
@[simp] theorem setReg_txs (w : Nat) (x : Word) : (s.setReg w x).txs = s.txs := rfl
@[simp] theorem setReg_hostRx (w : Nat) (x : Word) : (s.setReg w x).hostRx = s.hostRx := rfl
@[simp] theorem setReg_rrHost (w : Nat) (x : Word) : (s.setReg w x).rrHost = s.rrHost := rfl
@[simp] theorem setReg_pports (w : Nat) (x : Word) : (s.setReg w x).pports = s.pports := rfl
@[simp] theorem setReg_links (w : Nat) (x : Word) : (s.setReg w x).links = s.links := rfl
@[simp] theorem setReg_lanes (w : Nat) (x : Word) : (s.setReg w x).lanes = s.lanes := rfl
@[simp] theorem setReg_mcBad (w : Nat) (x : Word) : (s.setReg w x).mcBad = s.mcBad := rfl
@[simp] theorem setReg_pairx (w : Nat) (x : Word) : (s.setReg w x).pairx = s.pairx := rfl
@[simp] theorem setReg_hbmPc (w : Nat) (x : Word) : (s.setReg w x).hbmPc = s.hbmPc := rfl
@[simp] theorem setReg_hbmx (w : Nat) (x : Word) : (s.setReg w x).hbmx = s.hbmx := rfl
@[simp] theorem setReg_scrub (w : Nat) (x : Word) : (s.setReg w x).scrub = s.scrub := rfl
@[simp] theorem setReg_passes (w : Nat) (x : Word) : (s.setReg w x).passes = s.passes := rfl
@[simp] theorem setReg_pwr (w : Nat) (x : Word) : (s.setReg w x).pwr = s.pwr := rfl
@[simp] theorem setReg_tapx (w : Nat) (x : Word) : (s.setReg w x).tapx = s.tapx := rfl
@[simp] theorem setReg_countx (w : Nat) (x : Word) : (s.setReg w x).countx = s.countx := rfl
@[simp] theorem setReg_free (w : Nat) (x : Word) : (s.setReg w x).free = s.free := rfl
@[simp] theorem setReg_pending (w : Nat) (x : Word) : (s.setReg w x).pending = s.pending := rfl

/-! `wf` -/

@[simp] theorem wf_latch (f : Fld) (v : Nat) : (s.wf f v).latch = s.latch := by unfold State.wf; dsimp only; split <;> rfl
@[simp] theorem wf_hold (f : Fld) (v : Nat) : (s.wf f v).hold = s.hold := by unfold State.wf; dsimp only; split <;> rfl
@[simp] theorem wf_readData (f : Fld) (v : Nat) : (s.wf f v).readData = s.readData := by unfold State.wf; dsimp only; split <;> rfl
@[simp] theorem wf_hostMem (f : Fld) (v : Nat) : (s.wf f v).hostMem = s.hostMem := by unfold State.wf; dsimp only; split <;> rfl
@[simp] theorem wf_outputs (f : Fld) (v : Nat) : (s.wf f v).outputs = s.outputs := by unfold State.wf; dsimp only; split <;> rfl
@[simp] theorem wf_evts (f : Fld) (v : Nat) : (s.wf f v).evts = s.evts := by unfold State.wf; dsimp only; split <;> rfl
@[simp] theorem wf_rings (f : Fld) (v : Nat) : (s.wf f v).rings = s.rings := by unfold State.wf; dsimp only; split <;> rfl
@[simp] theorem wf_cfg (f : Fld) (v : Nat) : (s.wf f v).cfg = s.cfg := by unfold State.wf; dsimp only; split <;> rfl
@[simp] theorem wf_time (f : Fld) (v : Nat) : (s.wf f v).time = s.time := by unfold State.wf; dsimp only; split <;> rfl
@[simp] theorem wf_chip (f : Fld) (v : Nat) : (s.wf f v).chip = s.chip := by unfold State.wf; dsimp only; split <;> rfl
@[simp] theorem wf_lastKey (f : Fld) (v : Nat) : (s.wf f v).lastKey = s.lastKey := by unfold State.wf; dsimp only; split <;> rfl
@[simp] theorem wf_pipes (f : Fld) (v : Nat) : (s.wf f v).pipes = s.pipes := by unfold State.wf; dsimp only; split <;> rfl
@[simp] theorem wf_recirc (f : Fld) (v : Nat) : (s.wf f v).recirc = s.recirc := by unfold State.wf; dsimp only; split <;> rfl
@[simp] theorem wf_tcam (f : Fld) (v : Nat) : (s.wf f v).tcam = s.tcam := by unfold State.wf; dsimp only; split <;> rfl
@[simp] theorem wf_actions (f : Fld) (v : Nat) : (s.wf f v).actions = s.actions := by unfold State.wf; dsimp only; split <;> rfl
@[simp] theorem wf_eps (f : Fld) (v : Nat) : (s.wf f v).eps = s.eps := by unfold State.wf; dsimp only; split <;> rfl
@[simp] theorem wf_routes (f : Fld) (v : Nat) : (s.wf f v).routes = s.routes := by unfold State.wf; dsimp only; split <;> rfl
@[simp] theorem wf_vlans (f : Fld) (v : Nat) : (s.wf f v).vlans = s.vlans := by unfold State.wf; dsimp only; split <;> rfl
@[simp] theorem wf_tbls (f : Fld) (v : Nat) : (s.wf f v).tbls = s.tbls := by unfold State.wf; dsimp only; split <;> rfl
@[simp] theorem wf_slots (f : Fld) (v : Nat) : (s.wf f v).slots = s.slots := by unfold State.wf; dsimp only; split <;> rfl
@[simp] theorem wf_engs (f : Fld) (v : Nat) : (s.wf f v).engs = s.engs := by unfold State.wf; dsimp only; split <;> rfl
@[simp] theorem wf_ctxs (f : Fld) (v : Nat) : (s.wf f v).ctxs = s.ctxs := by unfold State.wf; dsimp only; split <;> rfl
@[simp] theorem wf_hists (f : Fld) (v : Nat) : (s.wf f v).hists = s.hists := by unfold State.wf; dsimp only; split <;> rfl
@[simp] theorem wf_regx (f : Fld) (v : Nat) : (s.wf f v).regx = s.regx := by unfold State.wf; dsimp only; split <;> rfl
@[simp] theorem wf_wind (f : Fld) (v : Nat) : (s.wf f v).wind = s.wind := by unfold State.wf; dsimp only; split <;> rfl
@[simp] theorem wf_discards (f : Fld) (v : Nat) : (s.wf f v).discards = s.discards := by unfold State.wf; dsimp only; split <;> rfl
@[simp] theorem wf_bindErr (f : Fld) (v : Nat) : (s.wf f v).bindErr = s.bindErr := by unfold State.wf; dsimp only; split <;> rfl
@[simp] theorem wf_digs (f : Fld) (v : Nat) : (s.wf f v).digs = s.digs := by unfold State.wf; dsimp only; split <;> rfl
@[simp] theorem wf_pmp2 (f : Fld) (v : Nat) : (s.wf f v).pmp2 = s.pmp2 := by unfold State.wf; dsimp only; split <;> rfl
@[simp] theorem wf_rtHist (f : Fld) (v : Nat) : (s.wf f v).rtHist = s.rtHist := by unfold State.wf; dsimp only; split <;> rfl
@[simp] theorem wf_txs (f : Fld) (v : Nat) : (s.wf f v).txs = s.txs := by unfold State.wf; dsimp only; split <;> rfl
@[simp] theorem wf_hostRx (f : Fld) (v : Nat) : (s.wf f v).hostRx = s.hostRx := by unfold State.wf; dsimp only; split <;> rfl
@[simp] theorem wf_rrHost (f : Fld) (v : Nat) : (s.wf f v).rrHost = s.rrHost := by unfold State.wf; dsimp only; split <;> rfl
@[simp] theorem wf_pports (f : Fld) (v : Nat) : (s.wf f v).pports = s.pports := by unfold State.wf; dsimp only; split <;> rfl
@[simp] theorem wf_links (f : Fld) (v : Nat) : (s.wf f v).links = s.links := by unfold State.wf; dsimp only; split <;> rfl
@[simp] theorem wf_lanes (f : Fld) (v : Nat) : (s.wf f v).lanes = s.lanes := by unfold State.wf; dsimp only; split <;> rfl
@[simp] theorem wf_mcBad (f : Fld) (v : Nat) : (s.wf f v).mcBad = s.mcBad := by unfold State.wf; dsimp only; split <;> rfl
@[simp] theorem wf_pairx (f : Fld) (v : Nat) : (s.wf f v).pairx = s.pairx := by unfold State.wf; dsimp only; split <;> rfl
@[simp] theorem wf_hbmPc (f : Fld) (v : Nat) : (s.wf f v).hbmPc = s.hbmPc := by unfold State.wf; dsimp only; split <;> rfl
@[simp] theorem wf_hbmx (f : Fld) (v : Nat) : (s.wf f v).hbmx = s.hbmx := by unfold State.wf; dsimp only; split <;> rfl
@[simp] theorem wf_scrub (f : Fld) (v : Nat) : (s.wf f v).scrub = s.scrub := by unfold State.wf; dsimp only; split <;> rfl
@[simp] theorem wf_passes (f : Fld) (v : Nat) : (s.wf f v).passes = s.passes := by unfold State.wf; dsimp only; split <;> rfl
@[simp] theorem wf_pwr (f : Fld) (v : Nat) : (s.wf f v).pwr = s.pwr := by unfold State.wf; dsimp only; split <;> rfl
@[simp] theorem wf_tapx (f : Fld) (v : Nat) : (s.wf f v).tapx = s.tapx := by unfold State.wf; dsimp only; split <;> rfl
@[simp] theorem wf_countx (f : Fld) (v : Nat) : (s.wf f v).countx = s.countx := by unfold State.wf; dsimp only; split <;> rfl
@[simp] theorem wf_free (f : Fld) (v : Nat) : (s.wf f v).free = s.free := by unfold State.wf; dsimp only; split <;> rfl
@[simp] theorem wf_pending (f : Fld) (v : Nat) : (s.wf f v).pending = s.pending := by unfold State.wf; dsimp only; split <;> rfl

/-! `emit` -/

@[simp] theorem emit_regs (o : Output) : (s.emit o).regs = s.regs := rfl
@[simp] theorem emit_latch (o : Output) : (s.emit o).latch = s.latch := rfl
@[simp] theorem emit_hold (o : Output) : (s.emit o).hold = s.hold := rfl
@[simp] theorem emit_readData (o : Output) : (s.emit o).readData = s.readData := rfl
@[simp] theorem emit_hostMem (o : Output) : (s.emit o).hostMem = s.hostMem := rfl
@[simp] theorem emit_evts (o : Output) : (s.emit o).evts = s.evts := rfl
@[simp] theorem emit_rings (o : Output) : (s.emit o).rings = s.rings := rfl
@[simp] theorem emit_cfg (o : Output) : (s.emit o).cfg = s.cfg := rfl
@[simp] theorem emit_time (o : Output) : (s.emit o).time = s.time := rfl
@[simp] theorem emit_chip (o : Output) : (s.emit o).chip = s.chip := rfl
@[simp] theorem emit_lastKey (o : Output) : (s.emit o).lastKey = s.lastKey := rfl
@[simp] theorem emit_pipes (o : Output) : (s.emit o).pipes = s.pipes := rfl
@[simp] theorem emit_recirc (o : Output) : (s.emit o).recirc = s.recirc := rfl
@[simp] theorem emit_tcam (o : Output) : (s.emit o).tcam = s.tcam := rfl
@[simp] theorem emit_actions (o : Output) : (s.emit o).actions = s.actions := rfl
@[simp] theorem emit_eps (o : Output) : (s.emit o).eps = s.eps := rfl
@[simp] theorem emit_routes (o : Output) : (s.emit o).routes = s.routes := rfl
@[simp] theorem emit_vlans (o : Output) : (s.emit o).vlans = s.vlans := rfl
@[simp] theorem emit_tbls (o : Output) : (s.emit o).tbls = s.tbls := rfl
@[simp] theorem emit_slots (o : Output) : (s.emit o).slots = s.slots := rfl
@[simp] theorem emit_engs (o : Output) : (s.emit o).engs = s.engs := rfl
@[simp] theorem emit_ctxs (o : Output) : (s.emit o).ctxs = s.ctxs := rfl
@[simp] theorem emit_hists (o : Output) : (s.emit o).hists = s.hists := rfl
@[simp] theorem emit_regx (o : Output) : (s.emit o).regx = s.regx := rfl
@[simp] theorem emit_wind (o : Output) : (s.emit o).wind = s.wind := rfl
@[simp] theorem emit_discards (o : Output) : (s.emit o).discards = s.discards := rfl
@[simp] theorem emit_bindErr (o : Output) : (s.emit o).bindErr = s.bindErr := rfl
@[simp] theorem emit_digs (o : Output) : (s.emit o).digs = s.digs := rfl
@[simp] theorem emit_pmp2 (o : Output) : (s.emit o).pmp2 = s.pmp2 := rfl
@[simp] theorem emit_rtHist (o : Output) : (s.emit o).rtHist = s.rtHist := rfl
@[simp] theorem emit_txs (o : Output) : (s.emit o).txs = s.txs := rfl
@[simp] theorem emit_hostRx (o : Output) : (s.emit o).hostRx = s.hostRx := rfl
@[simp] theorem emit_rrHost (o : Output) : (s.emit o).rrHost = s.rrHost := rfl
@[simp] theorem emit_pports (o : Output) : (s.emit o).pports = s.pports := rfl
@[simp] theorem emit_links (o : Output) : (s.emit o).links = s.links := rfl
@[simp] theorem emit_lanes (o : Output) : (s.emit o).lanes = s.lanes := rfl
@[simp] theorem emit_mcBad (o : Output) : (s.emit o).mcBad = s.mcBad := rfl
@[simp] theorem emit_pairx (o : Output) : (s.emit o).pairx = s.pairx := rfl
@[simp] theorem emit_hbmPc (o : Output) : (s.emit o).hbmPc = s.hbmPc := rfl
@[simp] theorem emit_hbmx (o : Output) : (s.emit o).hbmx = s.hbmx := rfl
@[simp] theorem emit_scrub (o : Output) : (s.emit o).scrub = s.scrub := rfl
@[simp] theorem emit_passes (o : Output) : (s.emit o).passes = s.passes := rfl
@[simp] theorem emit_pwr (o : Output) : (s.emit o).pwr = s.pwr := rfl
@[simp] theorem emit_tapx (o : Output) : (s.emit o).tapx = s.tapx := rfl
@[simp] theorem emit_countx (o : Output) : (s.emit o).countx = s.countx := rfl
@[simp] theorem emit_free (o : Output) : (s.emit o).free = s.free := rfl
@[simp] theorem emit_pending (o : Output) : (s.emit o).pending = s.pending := rfl
@[simp] theorem reg_emit (o : Output) (k : Nat) : (s.emit o).reg k = s.reg k := rfl
@[simp] theorem rf_emit (o : Output) (h : Fld) : (s.emit o).rf h = s.rf h := rfl
@[simp] theorem rb_emit (o : Output) (h : Fld) : (s.emit o).rb h = s.rb h := rfl
@[simp] theorem regsCanon_emit (o : Output) : (s.emit o).regsCanon = s.regsCanon := rfl

/-! `nextFree` -/

@[simp] theorem nextFree_regs : (s.nextFree).regs = s.regs := rfl
@[simp] theorem nextFree_latch : (s.nextFree).latch = s.latch := rfl
@[simp] theorem nextFree_hold : (s.nextFree).hold = s.hold := rfl
@[simp] theorem nextFree_readData : (s.nextFree).readData = s.readData := rfl
@[simp] theorem nextFree_hostMem : (s.nextFree).hostMem = s.hostMem := rfl
@[simp] theorem nextFree_outputs : (s.nextFree).outputs = s.outputs := rfl
@[simp] theorem nextFree_evts : (s.nextFree).evts = s.evts := rfl
@[simp] theorem nextFree_rings : (s.nextFree).rings = s.rings := rfl
@[simp] theorem nextFree_cfg : (s.nextFree).cfg = s.cfg := rfl
@[simp] theorem nextFree_time : (s.nextFree).time = s.time := rfl
@[simp] theorem nextFree_chip : (s.nextFree).chip = s.chip := rfl
@[simp] theorem nextFree_lastKey : (s.nextFree).lastKey = s.lastKey := rfl
@[simp] theorem nextFree_pipes : (s.nextFree).pipes = s.pipes := rfl
@[simp] theorem nextFree_recirc : (s.nextFree).recirc = s.recirc := rfl
@[simp] theorem nextFree_tcam : (s.nextFree).tcam = s.tcam := rfl
@[simp] theorem nextFree_actions : (s.nextFree).actions = s.actions := rfl
@[simp] theorem nextFree_eps : (s.nextFree).eps = s.eps := rfl
@[simp] theorem nextFree_routes : (s.nextFree).routes = s.routes := rfl
@[simp] theorem nextFree_vlans : (s.nextFree).vlans = s.vlans := rfl
@[simp] theorem nextFree_tbls : (s.nextFree).tbls = s.tbls := rfl
@[simp] theorem nextFree_slots : (s.nextFree).slots = s.slots := rfl
@[simp] theorem nextFree_engs : (s.nextFree).engs = s.engs := rfl
@[simp] theorem nextFree_ctxs : (s.nextFree).ctxs = s.ctxs := rfl
@[simp] theorem nextFree_hists : (s.nextFree).hists = s.hists := rfl
@[simp] theorem nextFree_regx : (s.nextFree).regx = s.regx := rfl
@[simp] theorem nextFree_wind : (s.nextFree).wind = s.wind := rfl
@[simp] theorem nextFree_discards : (s.nextFree).discards = s.discards := rfl
@[simp] theorem nextFree_bindErr : (s.nextFree).bindErr = s.bindErr := rfl
@[simp] theorem nextFree_digs : (s.nextFree).digs = s.digs := rfl
@[simp] theorem nextFree_pmp2 : (s.nextFree).pmp2 = s.pmp2 := rfl
@[simp] theorem nextFree_rtHist : (s.nextFree).rtHist = s.rtHist := rfl
@[simp] theorem nextFree_txs : (s.nextFree).txs = s.txs := rfl
@[simp] theorem nextFree_hostRx : (s.nextFree).hostRx = s.hostRx := rfl
@[simp] theorem nextFree_rrHost : (s.nextFree).rrHost = s.rrHost := rfl
@[simp] theorem nextFree_pports : (s.nextFree).pports = s.pports := rfl
@[simp] theorem nextFree_links : (s.nextFree).links = s.links := rfl
@[simp] theorem nextFree_lanes : (s.nextFree).lanes = s.lanes := rfl
@[simp] theorem nextFree_mcBad : (s.nextFree).mcBad = s.mcBad := rfl
@[simp] theorem nextFree_pairx : (s.nextFree).pairx = s.pairx := rfl
@[simp] theorem nextFree_hbmPc : (s.nextFree).hbmPc = s.hbmPc := rfl
@[simp] theorem nextFree_hbmx : (s.nextFree).hbmx = s.hbmx := rfl
@[simp] theorem nextFree_scrub : (s.nextFree).scrub = s.scrub := rfl
@[simp] theorem nextFree_passes : (s.nextFree).passes = s.passes := rfl
@[simp] theorem nextFree_pwr : (s.nextFree).pwr = s.pwr := rfl
@[simp] theorem nextFree_tapx : (s.nextFree).tapx = s.tapx := rfl
@[simp] theorem nextFree_countx : (s.nextFree).countx = s.countx := rfl
@[simp] theorem nextFree_pending : (s.nextFree).pending = s.pending := rfl
@[simp] theorem reg_nextFree  (k : Nat) : (s.nextFree).reg k = s.reg k := rfl
@[simp] theorem rf_nextFree  (h : Fld) : (s.nextFree).rf h = s.rf h := rfl
@[simp] theorem rb_nextFree  (h : Fld) : (s.nextFree).rb h = s.rb h := rfl
@[simp] theorem regsCanon_nextFree  : (s.nextFree).regsCanon = s.regsCanon := rfl

/-! `setRingX` -/

@[simp] theorem setRingX_regs (r : Nat) (x : RingX) : (s.setRingX r x).regs = s.regs := rfl
@[simp] theorem setRingX_latch (r : Nat) (x : RingX) : (s.setRingX r x).latch = s.latch := rfl
@[simp] theorem setRingX_hold (r : Nat) (x : RingX) : (s.setRingX r x).hold = s.hold := rfl
@[simp] theorem setRingX_readData (r : Nat) (x : RingX) : (s.setRingX r x).readData = s.readData := rfl
@[simp] theorem setRingX_hostMem (r : Nat) (x : RingX) : (s.setRingX r x).hostMem = s.hostMem := rfl
@[simp] theorem setRingX_outputs (r : Nat) (x : RingX) : (s.setRingX r x).outputs = s.outputs := rfl
@[simp] theorem setRingX_evts (r : Nat) (x : RingX) : (s.setRingX r x).evts = s.evts := rfl
@[simp] theorem setRingX_cfg (r : Nat) (x : RingX) : (s.setRingX r x).cfg = s.cfg := rfl
@[simp] theorem setRingX_time (r : Nat) (x : RingX) : (s.setRingX r x).time = s.time := rfl
@[simp] theorem setRingX_chip (r : Nat) (x : RingX) : (s.setRingX r x).chip = s.chip := rfl
@[simp] theorem setRingX_lastKey (r : Nat) (x : RingX) : (s.setRingX r x).lastKey = s.lastKey := rfl
@[simp] theorem setRingX_pipes (r : Nat) (x : RingX) : (s.setRingX r x).pipes = s.pipes := rfl
@[simp] theorem setRingX_recirc (r : Nat) (x : RingX) : (s.setRingX r x).recirc = s.recirc := rfl
@[simp] theorem setRingX_tcam (r : Nat) (x : RingX) : (s.setRingX r x).tcam = s.tcam := rfl
@[simp] theorem setRingX_actions (r : Nat) (x : RingX) : (s.setRingX r x).actions = s.actions := rfl
@[simp] theorem setRingX_eps (r : Nat) (x : RingX) : (s.setRingX r x).eps = s.eps := rfl
@[simp] theorem setRingX_routes (r : Nat) (x : RingX) : (s.setRingX r x).routes = s.routes := rfl
@[simp] theorem setRingX_vlans (r : Nat) (x : RingX) : (s.setRingX r x).vlans = s.vlans := rfl
@[simp] theorem setRingX_tbls (r : Nat) (x : RingX) : (s.setRingX r x).tbls = s.tbls := rfl
@[simp] theorem setRingX_slots (r : Nat) (x : RingX) : (s.setRingX r x).slots = s.slots := rfl
@[simp] theorem setRingX_engs (r : Nat) (x : RingX) : (s.setRingX r x).engs = s.engs := rfl
@[simp] theorem setRingX_ctxs (r : Nat) (x : RingX) : (s.setRingX r x).ctxs = s.ctxs := rfl
@[simp] theorem setRingX_hists (r : Nat) (x : RingX) : (s.setRingX r x).hists = s.hists := rfl
@[simp] theorem setRingX_regx (r : Nat) (x : RingX) : (s.setRingX r x).regx = s.regx := rfl
@[simp] theorem setRingX_wind (r : Nat) (x : RingX) : (s.setRingX r x).wind = s.wind := rfl
@[simp] theorem setRingX_discards (r : Nat) (x : RingX) : (s.setRingX r x).discards = s.discards := rfl
@[simp] theorem setRingX_bindErr (r : Nat) (x : RingX) : (s.setRingX r x).bindErr = s.bindErr := rfl
@[simp] theorem setRingX_digs (r : Nat) (x : RingX) : (s.setRingX r x).digs = s.digs := rfl
@[simp] theorem setRingX_pmp2 (r : Nat) (x : RingX) : (s.setRingX r x).pmp2 = s.pmp2 := rfl
@[simp] theorem setRingX_rtHist (r : Nat) (x : RingX) : (s.setRingX r x).rtHist = s.rtHist := rfl
@[simp] theorem setRingX_txs (r : Nat) (x : RingX) : (s.setRingX r x).txs = s.txs := rfl
@[simp] theorem setRingX_hostRx (r : Nat) (x : RingX) : (s.setRingX r x).hostRx = s.hostRx := rfl
@[simp] theorem setRingX_rrHost (r : Nat) (x : RingX) : (s.setRingX r x).rrHost = s.rrHost := rfl
@[simp] theorem setRingX_pports (r : Nat) (x : RingX) : (s.setRingX r x).pports = s.pports := rfl
@[simp] theorem setRingX_links (r : Nat) (x : RingX) : (s.setRingX r x).links = s.links := rfl
@[simp] theorem setRingX_lanes (r : Nat) (x : RingX) : (s.setRingX r x).lanes = s.lanes := rfl
@[simp] theorem setRingX_mcBad (r : Nat) (x : RingX) : (s.setRingX r x).mcBad = s.mcBad := rfl
@[simp] theorem setRingX_pairx (r : Nat) (x : RingX) : (s.setRingX r x).pairx = s.pairx := rfl
@[simp] theorem setRingX_hbmPc (r : Nat) (x : RingX) : (s.setRingX r x).hbmPc = s.hbmPc := rfl
@[simp] theorem setRingX_hbmx (r : Nat) (x : RingX) : (s.setRingX r x).hbmx = s.hbmx := rfl
@[simp] theorem setRingX_scrub (r : Nat) (x : RingX) : (s.setRingX r x).scrub = s.scrub := rfl
@[simp] theorem setRingX_passes (r : Nat) (x : RingX) : (s.setRingX r x).passes = s.passes := rfl
@[simp] theorem setRingX_pwr (r : Nat) (x : RingX) : (s.setRingX r x).pwr = s.pwr := rfl
@[simp] theorem setRingX_tapx (r : Nat) (x : RingX) : (s.setRingX r x).tapx = s.tapx := rfl
@[simp] theorem setRingX_countx (r : Nat) (x : RingX) : (s.setRingX r x).countx = s.countx := rfl
@[simp] theorem setRingX_free (r : Nat) (x : RingX) : (s.setRingX r x).free = s.free := rfl
@[simp] theorem setRingX_pending (r : Nat) (x : RingX) : (s.setRingX r x).pending = s.pending := rfl
@[simp] theorem reg_setRingX (r : Nat) (x : RingX) (k : Nat) : (s.setRingX r x).reg k = s.reg k := rfl
@[simp] theorem rf_setRingX (r : Nat) (x : RingX) (h : Fld) : (s.setRingX r x).rf h = s.rf h := rfl
@[simp] theorem rb_setRingX (r : Nat) (x : RingX) (h : Fld) : (s.setRingX r x).rb h = s.rb h := rfl
@[simp] theorem regsCanon_setRingX (r : Nat) (x : RingX) : (s.setRingX r x).regsCanon = s.regsCanon := rfl

/-! `setDom` -/

@[simp] theorem setDom_regs (d : Nat) (x : Dom) : (s.setDom d x).regs = s.regs := by unfold State.setDom; split <;> rfl
@[simp] theorem setDom_latch (d : Nat) (x : Dom) : (s.setDom d x).latch = s.latch := by unfold State.setDom; split <;> rfl
@[simp] theorem setDom_hold (d : Nat) (x : Dom) : (s.setDom d x).hold = s.hold := by unfold State.setDom; split <;> rfl
@[simp] theorem setDom_readData (d : Nat) (x : Dom) : (s.setDom d x).readData = s.readData := by unfold State.setDom; split <;> rfl
@[simp] theorem setDom_hostMem (d : Nat) (x : Dom) : (s.setDom d x).hostMem = s.hostMem := by unfold State.setDom; split <;> rfl
@[simp] theorem setDom_outputs (d : Nat) (x : Dom) : (s.setDom d x).outputs = s.outputs := by unfold State.setDom; split <;> rfl
@[simp] theorem setDom_evts (d : Nat) (x : Dom) : (s.setDom d x).evts = s.evts := by unfold State.setDom; split <;> rfl
@[simp] theorem setDom_rings (d : Nat) (x : Dom) : (s.setDom d x).rings = s.rings := by unfold State.setDom; split <;> rfl
@[simp] theorem setDom_cfg (d : Nat) (x : Dom) : (s.setDom d x).cfg = s.cfg := by unfold State.setDom; split <;> rfl
@[simp] theorem setDom_chip (d : Nat) (x : Dom) : (s.setDom d x).chip = s.chip := by unfold State.setDom; split <;> rfl
@[simp] theorem setDom_lastKey (d : Nat) (x : Dom) : (s.setDom d x).lastKey = s.lastKey := by unfold State.setDom; split <;> rfl
@[simp] theorem setDom_pipes (d : Nat) (x : Dom) : (s.setDom d x).pipes = s.pipes := by unfold State.setDom; split <;> rfl
@[simp] theorem setDom_recirc (d : Nat) (x : Dom) : (s.setDom d x).recirc = s.recirc := by unfold State.setDom; split <;> rfl
@[simp] theorem setDom_tcam (d : Nat) (x : Dom) : (s.setDom d x).tcam = s.tcam := by unfold State.setDom; split <;> rfl
@[simp] theorem setDom_actions (d : Nat) (x : Dom) : (s.setDom d x).actions = s.actions := by unfold State.setDom; split <;> rfl
@[simp] theorem setDom_eps (d : Nat) (x : Dom) : (s.setDom d x).eps = s.eps := by unfold State.setDom; split <;> rfl
@[simp] theorem setDom_routes (d : Nat) (x : Dom) : (s.setDom d x).routes = s.routes := by unfold State.setDom; split <;> rfl
@[simp] theorem setDom_vlans (d : Nat) (x : Dom) : (s.setDom d x).vlans = s.vlans := by unfold State.setDom; split <;> rfl
@[simp] theorem setDom_tbls (d : Nat) (x : Dom) : (s.setDom d x).tbls = s.tbls := by unfold State.setDom; split <;> rfl
@[simp] theorem setDom_slots (d : Nat) (x : Dom) : (s.setDom d x).slots = s.slots := by unfold State.setDom; split <;> rfl
@[simp] theorem setDom_engs (d : Nat) (x : Dom) : (s.setDom d x).engs = s.engs := by unfold State.setDom; split <;> rfl
@[simp] theorem setDom_ctxs (d : Nat) (x : Dom) : (s.setDom d x).ctxs = s.ctxs := by unfold State.setDom; split <;> rfl
@[simp] theorem setDom_hists (d : Nat) (x : Dom) : (s.setDom d x).hists = s.hists := by unfold State.setDom; split <;> rfl
@[simp] theorem setDom_regx (d : Nat) (x : Dom) : (s.setDom d x).regx = s.regx := by unfold State.setDom; split <;> rfl
@[simp] theorem setDom_wind (d : Nat) (x : Dom) : (s.setDom d x).wind = s.wind := by unfold State.setDom; split <;> rfl
@[simp] theorem setDom_discards (d : Nat) (x : Dom) : (s.setDom d x).discards = s.discards := by unfold State.setDom; split <;> rfl
@[simp] theorem setDom_bindErr (d : Nat) (x : Dom) : (s.setDom d x).bindErr = s.bindErr := by unfold State.setDom; split <;> rfl
@[simp] theorem setDom_digs (d : Nat) (x : Dom) : (s.setDom d x).digs = s.digs := by unfold State.setDom; split <;> rfl
@[simp] theorem setDom_pmp2 (d : Nat) (x : Dom) : (s.setDom d x).pmp2 = s.pmp2 := by unfold State.setDom; split <;> rfl
@[simp] theorem setDom_rtHist (d : Nat) (x : Dom) : (s.setDom d x).rtHist = s.rtHist := by unfold State.setDom; split <;> rfl
@[simp] theorem setDom_txs (d : Nat) (x : Dom) : (s.setDom d x).txs = s.txs := by unfold State.setDom; split <;> rfl
@[simp] theorem setDom_hostRx (d : Nat) (x : Dom) : (s.setDom d x).hostRx = s.hostRx := by unfold State.setDom; split <;> rfl
@[simp] theorem setDom_rrHost (d : Nat) (x : Dom) : (s.setDom d x).rrHost = s.rrHost := by unfold State.setDom; split <;> rfl
@[simp] theorem setDom_pports (d : Nat) (x : Dom) : (s.setDom d x).pports = s.pports := by unfold State.setDom; split <;> rfl
@[simp] theorem setDom_links (d : Nat) (x : Dom) : (s.setDom d x).links = s.links := by unfold State.setDom; split <;> rfl
@[simp] theorem setDom_lanes (d : Nat) (x : Dom) : (s.setDom d x).lanes = s.lanes := by unfold State.setDom; split <;> rfl
@[simp] theorem setDom_mcBad (d : Nat) (x : Dom) : (s.setDom d x).mcBad = s.mcBad := by unfold State.setDom; split <;> rfl
@[simp] theorem setDom_pairx (d : Nat) (x : Dom) : (s.setDom d x).pairx = s.pairx := by unfold State.setDom; split <;> rfl
@[simp] theorem setDom_hbmPc (d : Nat) (x : Dom) : (s.setDom d x).hbmPc = s.hbmPc := by unfold State.setDom; split <;> rfl
@[simp] theorem setDom_hbmx (d : Nat) (x : Dom) : (s.setDom d x).hbmx = s.hbmx := by unfold State.setDom; split <;> rfl
@[simp] theorem setDom_scrub (d : Nat) (x : Dom) : (s.setDom d x).scrub = s.scrub := by unfold State.setDom; split <;> rfl
@[simp] theorem setDom_passes (d : Nat) (x : Dom) : (s.setDom d x).passes = s.passes := by unfold State.setDom; split <;> rfl
@[simp] theorem setDom_pwr (d : Nat) (x : Dom) : (s.setDom d x).pwr = s.pwr := by unfold State.setDom; split <;> rfl
@[simp] theorem setDom_tapx (d : Nat) (x : Dom) : (s.setDom d x).tapx = s.tapx := by unfold State.setDom; split <;> rfl
@[simp] theorem setDom_countx (d : Nat) (x : Dom) : (s.setDom d x).countx = s.countx := by unfold State.setDom; split <;> rfl
@[simp] theorem setDom_free (d : Nat) (x : Dom) : (s.setDom d x).free = s.free := by unfold State.setDom; split <;> rfl
@[simp] theorem setDom_pending (d : Nat) (x : Dom) : (s.setDom d x).pending = s.pending := by unfold State.setDom; split <;> rfl
@[simp] theorem reg_setDom (d : Nat) (x : Dom) (k : Nat) : (s.setDom d x).reg k = s.reg k := by unfold State.setDom; split <;> rfl
@[simp] theorem rf_setDom (d : Nat) (x : Dom) (h : Fld) : (s.setDom d x).rf h = s.rf h := by unfold State.setDom; split <;> rfl
@[simp] theorem rb_setDom (d : Nat) (x : Dom) (h : Fld) : (s.setDom d x).rb h = s.rb h := by unfold State.setDom; split <;> rfl
@[simp] theorem regsCanon_setDom (d : Nat) (x : Dom) : (s.setDom d x).regsCanon = s.regsCanon := by unfold State.setDom; split <;> rfl

/-! `setPulse` -/

@[simp] theorem setPulse_regs (i : Nat) (x : PulseX) : (s.setPulse i x).regs = s.regs := rfl
@[simp] theorem setPulse_latch (i : Nat) (x : PulseX) : (s.setPulse i x).latch = s.latch := rfl
@[simp] theorem setPulse_hold (i : Nat) (x : PulseX) : (s.setPulse i x).hold = s.hold := rfl
@[simp] theorem setPulse_readData (i : Nat) (x : PulseX) : (s.setPulse i x).readData = s.readData := rfl
@[simp] theorem setPulse_hostMem (i : Nat) (x : PulseX) : (s.setPulse i x).hostMem = s.hostMem := rfl
@[simp] theorem setPulse_outputs (i : Nat) (x : PulseX) : (s.setPulse i x).outputs = s.outputs := rfl
@[simp] theorem setPulse_evts (i : Nat) (x : PulseX) : (s.setPulse i x).evts = s.evts := rfl
@[simp] theorem setPulse_rings (i : Nat) (x : PulseX) : (s.setPulse i x).rings = s.rings := rfl
@[simp] theorem setPulse_cfg (i : Nat) (x : PulseX) : (s.setPulse i x).cfg = s.cfg := rfl
@[simp] theorem setPulse_chip (i : Nat) (x : PulseX) : (s.setPulse i x).chip = s.chip := rfl
@[simp] theorem setPulse_lastKey (i : Nat) (x : PulseX) : (s.setPulse i x).lastKey = s.lastKey := rfl
@[simp] theorem setPulse_pipes (i : Nat) (x : PulseX) : (s.setPulse i x).pipes = s.pipes := rfl
@[simp] theorem setPulse_recirc (i : Nat) (x : PulseX) : (s.setPulse i x).recirc = s.recirc := rfl
@[simp] theorem setPulse_tcam (i : Nat) (x : PulseX) : (s.setPulse i x).tcam = s.tcam := rfl
@[simp] theorem setPulse_actions (i : Nat) (x : PulseX) : (s.setPulse i x).actions = s.actions := rfl
@[simp] theorem setPulse_eps (i : Nat) (x : PulseX) : (s.setPulse i x).eps = s.eps := rfl
@[simp] theorem setPulse_routes (i : Nat) (x : PulseX) : (s.setPulse i x).routes = s.routes := rfl
@[simp] theorem setPulse_vlans (i : Nat) (x : PulseX) : (s.setPulse i x).vlans = s.vlans := rfl
@[simp] theorem setPulse_tbls (i : Nat) (x : PulseX) : (s.setPulse i x).tbls = s.tbls := rfl
@[simp] theorem setPulse_slots (i : Nat) (x : PulseX) : (s.setPulse i x).slots = s.slots := rfl
@[simp] theorem setPulse_engs (i : Nat) (x : PulseX) : (s.setPulse i x).engs = s.engs := rfl
@[simp] theorem setPulse_ctxs (i : Nat) (x : PulseX) : (s.setPulse i x).ctxs = s.ctxs := rfl
@[simp] theorem setPulse_hists (i : Nat) (x : PulseX) : (s.setPulse i x).hists = s.hists := rfl
@[simp] theorem setPulse_regx (i : Nat) (x : PulseX) : (s.setPulse i x).regx = s.regx := rfl
@[simp] theorem setPulse_wind (i : Nat) (x : PulseX) : (s.setPulse i x).wind = s.wind := rfl
@[simp] theorem setPulse_discards (i : Nat) (x : PulseX) : (s.setPulse i x).discards = s.discards := rfl
@[simp] theorem setPulse_bindErr (i : Nat) (x : PulseX) : (s.setPulse i x).bindErr = s.bindErr := rfl
@[simp] theorem setPulse_digs (i : Nat) (x : PulseX) : (s.setPulse i x).digs = s.digs := rfl
@[simp] theorem setPulse_pmp2 (i : Nat) (x : PulseX) : (s.setPulse i x).pmp2 = s.pmp2 := rfl
@[simp] theorem setPulse_rtHist (i : Nat) (x : PulseX) : (s.setPulse i x).rtHist = s.rtHist := rfl
@[simp] theorem setPulse_txs (i : Nat) (x : PulseX) : (s.setPulse i x).txs = s.txs := rfl
@[simp] theorem setPulse_hostRx (i : Nat) (x : PulseX) : (s.setPulse i x).hostRx = s.hostRx := rfl
@[simp] theorem setPulse_rrHost (i : Nat) (x : PulseX) : (s.setPulse i x).rrHost = s.rrHost := rfl
@[simp] theorem setPulse_pports (i : Nat) (x : PulseX) : (s.setPulse i x).pports = s.pports := rfl
@[simp] theorem setPulse_links (i : Nat) (x : PulseX) : (s.setPulse i x).links = s.links := rfl
@[simp] theorem setPulse_lanes (i : Nat) (x : PulseX) : (s.setPulse i x).lanes = s.lanes := rfl
@[simp] theorem setPulse_mcBad (i : Nat) (x : PulseX) : (s.setPulse i x).mcBad = s.mcBad := rfl
@[simp] theorem setPulse_pairx (i : Nat) (x : PulseX) : (s.setPulse i x).pairx = s.pairx := rfl
@[simp] theorem setPulse_hbmPc (i : Nat) (x : PulseX) : (s.setPulse i x).hbmPc = s.hbmPc := rfl
@[simp] theorem setPulse_hbmx (i : Nat) (x : PulseX) : (s.setPulse i x).hbmx = s.hbmx := rfl
@[simp] theorem setPulse_scrub (i : Nat) (x : PulseX) : (s.setPulse i x).scrub = s.scrub := rfl
@[simp] theorem setPulse_passes (i : Nat) (x : PulseX) : (s.setPulse i x).passes = s.passes := rfl
@[simp] theorem setPulse_pwr (i : Nat) (x : PulseX) : (s.setPulse i x).pwr = s.pwr := rfl
@[simp] theorem setPulse_tapx (i : Nat) (x : PulseX) : (s.setPulse i x).tapx = s.tapx := rfl
@[simp] theorem setPulse_countx (i : Nat) (x : PulseX) : (s.setPulse i x).countx = s.countx := rfl
@[simp] theorem setPulse_free (i : Nat) (x : PulseX) : (s.setPulse i x).free = s.free := rfl
@[simp] theorem setPulse_pending (i : Nat) (x : PulseX) : (s.setPulse i x).pending = s.pending := rfl
@[simp] theorem reg_setPulse (i : Nat) (x : PulseX) (k : Nat) : (s.setPulse i x).reg k = s.reg k := rfl
@[simp] theorem rf_setPulse (i : Nat) (x : PulseX) (h : Fld) : (s.setPulse i x).rf h = s.rf h := rfl
@[simp] theorem rb_setPulse (i : Nat) (x : PulseX) (h : Fld) : (s.setPulse i x).rb h = s.rb h := rfl
@[simp] theorem regsCanon_setPulse (i : Nat) (x : PulseX) : (s.setPulse i x).regsCanon = s.regsCanon := rfl

/-! `setCell` -/

@[simp] theorem setCell_regs (c : Nat) (x : CellX) : (s.setCell c x).regs = s.regs := rfl
@[simp] theorem setCell_latch (c : Nat) (x : CellX) : (s.setCell c x).latch = s.latch := rfl
@[simp] theorem setCell_hold (c : Nat) (x : CellX) : (s.setCell c x).hold = s.hold := rfl
@[simp] theorem setCell_readData (c : Nat) (x : CellX) : (s.setCell c x).readData = s.readData := rfl
@[simp] theorem setCell_hostMem (c : Nat) (x : CellX) : (s.setCell c x).hostMem = s.hostMem := rfl
@[simp] theorem setCell_outputs (c : Nat) (x : CellX) : (s.setCell c x).outputs = s.outputs := rfl
@[simp] theorem setCell_evts (c : Nat) (x : CellX) : (s.setCell c x).evts = s.evts := rfl
@[simp] theorem setCell_rings (c : Nat) (x : CellX) : (s.setCell c x).rings = s.rings := rfl
@[simp] theorem setCell_cfg (c : Nat) (x : CellX) : (s.setCell c x).cfg = s.cfg := rfl
@[simp] theorem setCell_chip (c : Nat) (x : CellX) : (s.setCell c x).chip = s.chip := rfl
@[simp] theorem setCell_lastKey (c : Nat) (x : CellX) : (s.setCell c x).lastKey = s.lastKey := rfl
@[simp] theorem setCell_pipes (c : Nat) (x : CellX) : (s.setCell c x).pipes = s.pipes := rfl
@[simp] theorem setCell_recirc (c : Nat) (x : CellX) : (s.setCell c x).recirc = s.recirc := rfl
@[simp] theorem setCell_tcam (c : Nat) (x : CellX) : (s.setCell c x).tcam = s.tcam := rfl
@[simp] theorem setCell_actions (c : Nat) (x : CellX) : (s.setCell c x).actions = s.actions := rfl
@[simp] theorem setCell_eps (c : Nat) (x : CellX) : (s.setCell c x).eps = s.eps := rfl
@[simp] theorem setCell_routes (c : Nat) (x : CellX) : (s.setCell c x).routes = s.routes := rfl
@[simp] theorem setCell_vlans (c : Nat) (x : CellX) : (s.setCell c x).vlans = s.vlans := rfl
@[simp] theorem setCell_tbls (c : Nat) (x : CellX) : (s.setCell c x).tbls = s.tbls := rfl
@[simp] theorem setCell_slots (c : Nat) (x : CellX) : (s.setCell c x).slots = s.slots := rfl
@[simp] theorem setCell_engs (c : Nat) (x : CellX) : (s.setCell c x).engs = s.engs := rfl
@[simp] theorem setCell_ctxs (c : Nat) (x : CellX) : (s.setCell c x).ctxs = s.ctxs := rfl
@[simp] theorem setCell_hists (c : Nat) (x : CellX) : (s.setCell c x).hists = s.hists := rfl
@[simp] theorem setCell_regx (c : Nat) (x : CellX) : (s.setCell c x).regx = s.regx := rfl
@[simp] theorem setCell_wind (c : Nat) (x : CellX) : (s.setCell c x).wind = s.wind := rfl
@[simp] theorem setCell_discards (c : Nat) (x : CellX) : (s.setCell c x).discards = s.discards := rfl
@[simp] theorem setCell_bindErr (c : Nat) (x : CellX) : (s.setCell c x).bindErr = s.bindErr := rfl
@[simp] theorem setCell_digs (c : Nat) (x : CellX) : (s.setCell c x).digs = s.digs := rfl
@[simp] theorem setCell_pmp2 (c : Nat) (x : CellX) : (s.setCell c x).pmp2 = s.pmp2 := rfl
@[simp] theorem setCell_rtHist (c : Nat) (x : CellX) : (s.setCell c x).rtHist = s.rtHist := rfl
@[simp] theorem setCell_txs (c : Nat) (x : CellX) : (s.setCell c x).txs = s.txs := rfl
@[simp] theorem setCell_hostRx (c : Nat) (x : CellX) : (s.setCell c x).hostRx = s.hostRx := rfl
@[simp] theorem setCell_rrHost (c : Nat) (x : CellX) : (s.setCell c x).rrHost = s.rrHost := rfl
@[simp] theorem setCell_pports (c : Nat) (x : CellX) : (s.setCell c x).pports = s.pports := rfl
@[simp] theorem setCell_links (c : Nat) (x : CellX) : (s.setCell c x).links = s.links := rfl
@[simp] theorem setCell_lanes (c : Nat) (x : CellX) : (s.setCell c x).lanes = s.lanes := rfl
@[simp] theorem setCell_mcBad (c : Nat) (x : CellX) : (s.setCell c x).mcBad = s.mcBad := rfl
@[simp] theorem setCell_pairx (c : Nat) (x : CellX) : (s.setCell c x).pairx = s.pairx := rfl
@[simp] theorem setCell_hbmPc (c : Nat) (x : CellX) : (s.setCell c x).hbmPc = s.hbmPc := rfl
@[simp] theorem setCell_hbmx (c : Nat) (x : CellX) : (s.setCell c x).hbmx = s.hbmx := rfl
@[simp] theorem setCell_scrub (c : Nat) (x : CellX) : (s.setCell c x).scrub = s.scrub := rfl
@[simp] theorem setCell_passes (c : Nat) (x : CellX) : (s.setCell c x).passes = s.passes := rfl
@[simp] theorem setCell_pwr (c : Nat) (x : CellX) : (s.setCell c x).pwr = s.pwr := rfl
@[simp] theorem setCell_tapx (c : Nat) (x : CellX) : (s.setCell c x).tapx = s.tapx := rfl
@[simp] theorem setCell_countx (c : Nat) (x : CellX) : (s.setCell c x).countx = s.countx := rfl
@[simp] theorem setCell_free (c : Nat) (x : CellX) : (s.setCell c x).free = s.free := rfl
@[simp] theorem setCell_pending (c : Nat) (x : CellX) : (s.setCell c x).pending = s.pending := rfl
@[simp] theorem reg_setCell (c : Nat) (x : CellX) (k : Nat) : (s.setCell c x).reg k = s.reg k := rfl
@[simp] theorem rf_setCell (c : Nat) (x : CellX) (h : Fld) : (s.setCell c x).rf h = s.rf h := rfl
@[simp] theorem rb_setCell (c : Nat) (x : CellX) (h : Fld) : (s.setCell c x).rb h = s.rb h := rfl
@[simp] theorem regsCanon_setCell (c : Nat) (x : CellX) : (s.setCell c x).regsCanon = s.regsCanon := rfl

/-! `setPipe` -/

@[simp] theorem setPipe_regs (n p : Nat) (x : PipeX) : (s.setPipe n p x).regs = s.regs := rfl
@[simp] theorem setPipe_latch (n p : Nat) (x : PipeX) : (s.setPipe n p x).latch = s.latch := rfl
@[simp] theorem setPipe_hold (n p : Nat) (x : PipeX) : (s.setPipe n p x).hold = s.hold := rfl
@[simp] theorem setPipe_readData (n p : Nat) (x : PipeX) : (s.setPipe n p x).readData = s.readData := rfl
@[simp] theorem setPipe_hostMem (n p : Nat) (x : PipeX) : (s.setPipe n p x).hostMem = s.hostMem := rfl
@[simp] theorem setPipe_outputs (n p : Nat) (x : PipeX) : (s.setPipe n p x).outputs = s.outputs := rfl
@[simp] theorem setPipe_evts (n p : Nat) (x : PipeX) : (s.setPipe n p x).evts = s.evts := rfl
@[simp] theorem setPipe_rings (n p : Nat) (x : PipeX) : (s.setPipe n p x).rings = s.rings := rfl
@[simp] theorem setPipe_cfg (n p : Nat) (x : PipeX) : (s.setPipe n p x).cfg = s.cfg := rfl
@[simp] theorem setPipe_time (n p : Nat) (x : PipeX) : (s.setPipe n p x).time = s.time := rfl
@[simp] theorem setPipe_chip (n p : Nat) (x : PipeX) : (s.setPipe n p x).chip = s.chip := rfl
@[simp] theorem setPipe_lastKey (n p : Nat) (x : PipeX) : (s.setPipe n p x).lastKey = s.lastKey := rfl
@[simp] theorem setPipe_recirc (n p : Nat) (x : PipeX) : (s.setPipe n p x).recirc = s.recirc := rfl
@[simp] theorem setPipe_tcam (n p : Nat) (x : PipeX) : (s.setPipe n p x).tcam = s.tcam := rfl
@[simp] theorem setPipe_actions (n p : Nat) (x : PipeX) : (s.setPipe n p x).actions = s.actions := rfl
@[simp] theorem setPipe_eps (n p : Nat) (x : PipeX) : (s.setPipe n p x).eps = s.eps := rfl
@[simp] theorem setPipe_routes (n p : Nat) (x : PipeX) : (s.setPipe n p x).routes = s.routes := rfl
@[simp] theorem setPipe_vlans (n p : Nat) (x : PipeX) : (s.setPipe n p x).vlans = s.vlans := rfl
@[simp] theorem setPipe_tbls (n p : Nat) (x : PipeX) : (s.setPipe n p x).tbls = s.tbls := rfl
@[simp] theorem setPipe_slots (n p : Nat) (x : PipeX) : (s.setPipe n p x).slots = s.slots := rfl
@[simp] theorem setPipe_engs (n p : Nat) (x : PipeX) : (s.setPipe n p x).engs = s.engs := rfl
@[simp] theorem setPipe_ctxs (n p : Nat) (x : PipeX) : (s.setPipe n p x).ctxs = s.ctxs := rfl
@[simp] theorem setPipe_hists (n p : Nat) (x : PipeX) : (s.setPipe n p x).hists = s.hists := rfl
@[simp] theorem setPipe_regx (n p : Nat) (x : PipeX) : (s.setPipe n p x).regx = s.regx := rfl
@[simp] theorem setPipe_wind (n p : Nat) (x : PipeX) : (s.setPipe n p x).wind = s.wind := rfl
@[simp] theorem setPipe_discards (n p : Nat) (x : PipeX) : (s.setPipe n p x).discards = s.discards := rfl
@[simp] theorem setPipe_bindErr (n p : Nat) (x : PipeX) : (s.setPipe n p x).bindErr = s.bindErr := rfl
@[simp] theorem setPipe_digs (n p : Nat) (x : PipeX) : (s.setPipe n p x).digs = s.digs := rfl
@[simp] theorem setPipe_pmp2 (n p : Nat) (x : PipeX) : (s.setPipe n p x).pmp2 = s.pmp2 := rfl
@[simp] theorem setPipe_rtHist (n p : Nat) (x : PipeX) : (s.setPipe n p x).rtHist = s.rtHist := rfl
@[simp] theorem setPipe_txs (n p : Nat) (x : PipeX) : (s.setPipe n p x).txs = s.txs := rfl
@[simp] theorem setPipe_hostRx (n p : Nat) (x : PipeX) : (s.setPipe n p x).hostRx = s.hostRx := rfl
@[simp] theorem setPipe_rrHost (n p : Nat) (x : PipeX) : (s.setPipe n p x).rrHost = s.rrHost := rfl
@[simp] theorem setPipe_pports (n p : Nat) (x : PipeX) : (s.setPipe n p x).pports = s.pports := rfl
@[simp] theorem setPipe_links (n p : Nat) (x : PipeX) : (s.setPipe n p x).links = s.links := rfl
@[simp] theorem setPipe_lanes (n p : Nat) (x : PipeX) : (s.setPipe n p x).lanes = s.lanes := rfl
@[simp] theorem setPipe_mcBad (n p : Nat) (x : PipeX) : (s.setPipe n p x).mcBad = s.mcBad := rfl
@[simp] theorem setPipe_pairx (n p : Nat) (x : PipeX) : (s.setPipe n p x).pairx = s.pairx := rfl
@[simp] theorem setPipe_hbmPc (n p : Nat) (x : PipeX) : (s.setPipe n p x).hbmPc = s.hbmPc := rfl
@[simp] theorem setPipe_hbmx (n p : Nat) (x : PipeX) : (s.setPipe n p x).hbmx = s.hbmx := rfl
@[simp] theorem setPipe_scrub (n p : Nat) (x : PipeX) : (s.setPipe n p x).scrub = s.scrub := rfl
@[simp] theorem setPipe_passes (n p : Nat) (x : PipeX) : (s.setPipe n p x).passes = s.passes := rfl
@[simp] theorem setPipe_pwr (n p : Nat) (x : PipeX) : (s.setPipe n p x).pwr = s.pwr := rfl
@[simp] theorem setPipe_tapx (n p : Nat) (x : PipeX) : (s.setPipe n p x).tapx = s.tapx := rfl
@[simp] theorem setPipe_countx (n p : Nat) (x : PipeX) : (s.setPipe n p x).countx = s.countx := rfl
@[simp] theorem setPipe_free (n p : Nat) (x : PipeX) : (s.setPipe n p x).free = s.free := rfl
@[simp] theorem setPipe_pending (n p : Nat) (x : PipeX) : (s.setPipe n p x).pending = s.pending := rfl
@[simp] theorem reg_setPipe (n p : Nat) (x : PipeX) (k : Nat) : (s.setPipe n p x).reg k = s.reg k := rfl
@[simp] theorem rf_setPipe (n p : Nat) (x : PipeX) (h : Fld) : (s.setPipe n p x).rf h = s.rf h := rfl
@[simp] theorem rb_setPipe (n p : Nat) (x : PipeX) (h : Fld) : (s.setPipe n p x).rb h = s.rb h := rfl
@[simp] theorem regsCanon_setPipe (n p : Nat) (x : PipeX) : (s.setPipe n p x).regsCanon = s.regsCanon := rfl

/-! `setRecircx` -/

@[simp] theorem setRecircx_regs (n : Nat) (x : RecircX) : (s.setRecircx n x).regs = s.regs := rfl
@[simp] theorem setRecircx_latch (n : Nat) (x : RecircX) : (s.setRecircx n x).latch = s.latch := rfl
@[simp] theorem setRecircx_hold (n : Nat) (x : RecircX) : (s.setRecircx n x).hold = s.hold := rfl
@[simp] theorem setRecircx_readData (n : Nat) (x : RecircX) : (s.setRecircx n x).readData = s.readData := rfl
@[simp] theorem setRecircx_hostMem (n : Nat) (x : RecircX) : (s.setRecircx n x).hostMem = s.hostMem := rfl
@[simp] theorem setRecircx_outputs (n : Nat) (x : RecircX) : (s.setRecircx n x).outputs = s.outputs := rfl
@[simp] theorem setRecircx_evts (n : Nat) (x : RecircX) : (s.setRecircx n x).evts = s.evts := rfl
@[simp] theorem setRecircx_rings (n : Nat) (x : RecircX) : (s.setRecircx n x).rings = s.rings := rfl
@[simp] theorem setRecircx_cfg (n : Nat) (x : RecircX) : (s.setRecircx n x).cfg = s.cfg := rfl
@[simp] theorem setRecircx_time (n : Nat) (x : RecircX) : (s.setRecircx n x).time = s.time := rfl
@[simp] theorem setRecircx_chip (n : Nat) (x : RecircX) : (s.setRecircx n x).chip = s.chip := rfl
@[simp] theorem setRecircx_lastKey (n : Nat) (x : RecircX) : (s.setRecircx n x).lastKey = s.lastKey := rfl
@[simp] theorem setRecircx_pipes (n : Nat) (x : RecircX) : (s.setRecircx n x).pipes = s.pipes := rfl
@[simp] theorem setRecircx_tcam (n : Nat) (x : RecircX) : (s.setRecircx n x).tcam = s.tcam := rfl
@[simp] theorem setRecircx_actions (n : Nat) (x : RecircX) : (s.setRecircx n x).actions = s.actions := rfl
@[simp] theorem setRecircx_eps (n : Nat) (x : RecircX) : (s.setRecircx n x).eps = s.eps := rfl
@[simp] theorem setRecircx_routes (n : Nat) (x : RecircX) : (s.setRecircx n x).routes = s.routes := rfl
@[simp] theorem setRecircx_vlans (n : Nat) (x : RecircX) : (s.setRecircx n x).vlans = s.vlans := rfl
@[simp] theorem setRecircx_tbls (n : Nat) (x : RecircX) : (s.setRecircx n x).tbls = s.tbls := rfl
@[simp] theorem setRecircx_slots (n : Nat) (x : RecircX) : (s.setRecircx n x).slots = s.slots := rfl
@[simp] theorem setRecircx_engs (n : Nat) (x : RecircX) : (s.setRecircx n x).engs = s.engs := rfl
@[simp] theorem setRecircx_ctxs (n : Nat) (x : RecircX) : (s.setRecircx n x).ctxs = s.ctxs := rfl
@[simp] theorem setRecircx_hists (n : Nat) (x : RecircX) : (s.setRecircx n x).hists = s.hists := rfl
@[simp] theorem setRecircx_regx (n : Nat) (x : RecircX) : (s.setRecircx n x).regx = s.regx := rfl
@[simp] theorem setRecircx_wind (n : Nat) (x : RecircX) : (s.setRecircx n x).wind = s.wind := rfl
@[simp] theorem setRecircx_discards (n : Nat) (x : RecircX) : (s.setRecircx n x).discards = s.discards := rfl
@[simp] theorem setRecircx_bindErr (n : Nat) (x : RecircX) : (s.setRecircx n x).bindErr = s.bindErr := rfl
@[simp] theorem setRecircx_digs (n : Nat) (x : RecircX) : (s.setRecircx n x).digs = s.digs := rfl
@[simp] theorem setRecircx_pmp2 (n : Nat) (x : RecircX) : (s.setRecircx n x).pmp2 = s.pmp2 := rfl
@[simp] theorem setRecircx_rtHist (n : Nat) (x : RecircX) : (s.setRecircx n x).rtHist = s.rtHist := rfl
@[simp] theorem setRecircx_txs (n : Nat) (x : RecircX) : (s.setRecircx n x).txs = s.txs := rfl
@[simp] theorem setRecircx_hostRx (n : Nat) (x : RecircX) : (s.setRecircx n x).hostRx = s.hostRx := rfl
@[simp] theorem setRecircx_rrHost (n : Nat) (x : RecircX) : (s.setRecircx n x).rrHost = s.rrHost := rfl
@[simp] theorem setRecircx_pports (n : Nat) (x : RecircX) : (s.setRecircx n x).pports = s.pports := rfl
@[simp] theorem setRecircx_links (n : Nat) (x : RecircX) : (s.setRecircx n x).links = s.links := rfl
@[simp] theorem setRecircx_lanes (n : Nat) (x : RecircX) : (s.setRecircx n x).lanes = s.lanes := rfl
@[simp] theorem setRecircx_mcBad (n : Nat) (x : RecircX) : (s.setRecircx n x).mcBad = s.mcBad := rfl
@[simp] theorem setRecircx_pairx (n : Nat) (x : RecircX) : (s.setRecircx n x).pairx = s.pairx := rfl
@[simp] theorem setRecircx_hbmPc (n : Nat) (x : RecircX) : (s.setRecircx n x).hbmPc = s.hbmPc := rfl
@[simp] theorem setRecircx_hbmx (n : Nat) (x : RecircX) : (s.setRecircx n x).hbmx = s.hbmx := rfl
@[simp] theorem setRecircx_scrub (n : Nat) (x : RecircX) : (s.setRecircx n x).scrub = s.scrub := rfl
@[simp] theorem setRecircx_passes (n : Nat) (x : RecircX) : (s.setRecircx n x).passes = s.passes := rfl
@[simp] theorem setRecircx_pwr (n : Nat) (x : RecircX) : (s.setRecircx n x).pwr = s.pwr := rfl
@[simp] theorem setRecircx_tapx (n : Nat) (x : RecircX) : (s.setRecircx n x).tapx = s.tapx := rfl
@[simp] theorem setRecircx_countx (n : Nat) (x : RecircX) : (s.setRecircx n x).countx = s.countx := rfl
@[simp] theorem setRecircx_free (n : Nat) (x : RecircX) : (s.setRecircx n x).free = s.free := rfl
@[simp] theorem setRecircx_pending (n : Nat) (x : RecircX) : (s.setRecircx n x).pending = s.pending := rfl
@[simp] theorem reg_setRecircx (n : Nat) (x : RecircX) (k : Nat) : (s.setRecircx n x).reg k = s.reg k := rfl
@[simp] theorem rf_setRecircx (n : Nat) (x : RecircX) (h : Fld) : (s.setRecircx n x).rf h = s.rf h := rfl
@[simp] theorem rb_setRecircx (n : Nat) (x : RecircX) (h : Fld) : (s.setRecircx n x).rb h = s.rb h := rfl
@[simp] theorem regsCanon_setRecircx (n : Nat) (x : RecircX) : (s.setRecircx n x).regsCanon = s.regsCanon := rfl

/-! `setTbl` -/

@[simp] theorem setTbl_regs (n : Nat) (x : TblX) : (s.setTbl n x).regs = s.regs := rfl
@[simp] theorem setTbl_latch (n : Nat) (x : TblX) : (s.setTbl n x).latch = s.latch := rfl
@[simp] theorem setTbl_hold (n : Nat) (x : TblX) : (s.setTbl n x).hold = s.hold := rfl
@[simp] theorem setTbl_readData (n : Nat) (x : TblX) : (s.setTbl n x).readData = s.readData := rfl
@[simp] theorem setTbl_hostMem (n : Nat) (x : TblX) : (s.setTbl n x).hostMem = s.hostMem := rfl
@[simp] theorem setTbl_outputs (n : Nat) (x : TblX) : (s.setTbl n x).outputs = s.outputs := rfl
@[simp] theorem setTbl_evts (n : Nat) (x : TblX) : (s.setTbl n x).evts = s.evts := rfl
@[simp] theorem setTbl_rings (n : Nat) (x : TblX) : (s.setTbl n x).rings = s.rings := rfl
@[simp] theorem setTbl_cfg (n : Nat) (x : TblX) : (s.setTbl n x).cfg = s.cfg := rfl
@[simp] theorem setTbl_time (n : Nat) (x : TblX) : (s.setTbl n x).time = s.time := rfl
@[simp] theorem setTbl_chip (n : Nat) (x : TblX) : (s.setTbl n x).chip = s.chip := rfl
@[simp] theorem setTbl_lastKey (n : Nat) (x : TblX) : (s.setTbl n x).lastKey = s.lastKey := rfl
@[simp] theorem setTbl_pipes (n : Nat) (x : TblX) : (s.setTbl n x).pipes = s.pipes := rfl
@[simp] theorem setTbl_recirc (n : Nat) (x : TblX) : (s.setTbl n x).recirc = s.recirc := rfl
@[simp] theorem setTbl_tcam (n : Nat) (x : TblX) : (s.setTbl n x).tcam = s.tcam := rfl
@[simp] theorem setTbl_actions (n : Nat) (x : TblX) : (s.setTbl n x).actions = s.actions := rfl
@[simp] theorem setTbl_eps (n : Nat) (x : TblX) : (s.setTbl n x).eps = s.eps := rfl
@[simp] theorem setTbl_routes (n : Nat) (x : TblX) : (s.setTbl n x).routes = s.routes := rfl
@[simp] theorem setTbl_vlans (n : Nat) (x : TblX) : (s.setTbl n x).vlans = s.vlans := rfl
@[simp] theorem setTbl_slots (n : Nat) (x : TblX) : (s.setTbl n x).slots = s.slots := rfl
@[simp] theorem setTbl_engs (n : Nat) (x : TblX) : (s.setTbl n x).engs = s.engs := rfl
@[simp] theorem setTbl_ctxs (n : Nat) (x : TblX) : (s.setTbl n x).ctxs = s.ctxs := rfl
@[simp] theorem setTbl_hists (n : Nat) (x : TblX) : (s.setTbl n x).hists = s.hists := rfl
@[simp] theorem setTbl_regx (n : Nat) (x : TblX) : (s.setTbl n x).regx = s.regx := rfl
@[simp] theorem setTbl_wind (n : Nat) (x : TblX) : (s.setTbl n x).wind = s.wind := rfl
@[simp] theorem setTbl_discards (n : Nat) (x : TblX) : (s.setTbl n x).discards = s.discards := rfl
@[simp] theorem setTbl_bindErr (n : Nat) (x : TblX) : (s.setTbl n x).bindErr = s.bindErr := rfl
@[simp] theorem setTbl_digs (n : Nat) (x : TblX) : (s.setTbl n x).digs = s.digs := rfl
@[simp] theorem setTbl_pmp2 (n : Nat) (x : TblX) : (s.setTbl n x).pmp2 = s.pmp2 := rfl
@[simp] theorem setTbl_rtHist (n : Nat) (x : TblX) : (s.setTbl n x).rtHist = s.rtHist := rfl
@[simp] theorem setTbl_txs (n : Nat) (x : TblX) : (s.setTbl n x).txs = s.txs := rfl
@[simp] theorem setTbl_hostRx (n : Nat) (x : TblX) : (s.setTbl n x).hostRx = s.hostRx := rfl
@[simp] theorem setTbl_rrHost (n : Nat) (x : TblX) : (s.setTbl n x).rrHost = s.rrHost := rfl
@[simp] theorem setTbl_pports (n : Nat) (x : TblX) : (s.setTbl n x).pports = s.pports := rfl
@[simp] theorem setTbl_links (n : Nat) (x : TblX) : (s.setTbl n x).links = s.links := rfl
@[simp] theorem setTbl_lanes (n : Nat) (x : TblX) : (s.setTbl n x).lanes = s.lanes := rfl
@[simp] theorem setTbl_mcBad (n : Nat) (x : TblX) : (s.setTbl n x).mcBad = s.mcBad := rfl
@[simp] theorem setTbl_pairx (n : Nat) (x : TblX) : (s.setTbl n x).pairx = s.pairx := rfl
@[simp] theorem setTbl_hbmPc (n : Nat) (x : TblX) : (s.setTbl n x).hbmPc = s.hbmPc := rfl
@[simp] theorem setTbl_hbmx (n : Nat) (x : TblX) : (s.setTbl n x).hbmx = s.hbmx := rfl
@[simp] theorem setTbl_scrub (n : Nat) (x : TblX) : (s.setTbl n x).scrub = s.scrub := rfl
@[simp] theorem setTbl_passes (n : Nat) (x : TblX) : (s.setTbl n x).passes = s.passes := rfl
@[simp] theorem setTbl_pwr (n : Nat) (x : TblX) : (s.setTbl n x).pwr = s.pwr := rfl
@[simp] theorem setTbl_tapx (n : Nat) (x : TblX) : (s.setTbl n x).tapx = s.tapx := rfl
@[simp] theorem setTbl_countx (n : Nat) (x : TblX) : (s.setTbl n x).countx = s.countx := rfl
@[simp] theorem setTbl_free (n : Nat) (x : TblX) : (s.setTbl n x).free = s.free := rfl
@[simp] theorem setTbl_pending (n : Nat) (x : TblX) : (s.setTbl n x).pending = s.pending := rfl
@[simp] theorem reg_setTbl (n : Nat) (x : TblX) (k : Nat) : (s.setTbl n x).reg k = s.reg k := rfl
@[simp] theorem rf_setTbl (n : Nat) (x : TblX) (h : Fld) : (s.setTbl n x).rf h = s.rf h := rfl
@[simp] theorem rb_setTbl (n : Nat) (x : TblX) (h : Fld) : (s.setTbl n x).rb h = s.rb h := rfl
@[simp] theorem regsCanon_setTbl (n : Nat) (x : TblX) : (s.setTbl n x).regsCanon = s.regsCanon := rfl

/-! `setEng` -/

@[simp] theorem setEng_regs (e : Nat) (x : EngX) : (s.setEng e x).regs = s.regs := rfl
@[simp] theorem setEng_latch (e : Nat) (x : EngX) : (s.setEng e x).latch = s.latch := rfl
@[simp] theorem setEng_hold (e : Nat) (x : EngX) : (s.setEng e x).hold = s.hold := rfl
@[simp] theorem setEng_readData (e : Nat) (x : EngX) : (s.setEng e x).readData = s.readData := rfl
@[simp] theorem setEng_hostMem (e : Nat) (x : EngX) : (s.setEng e x).hostMem = s.hostMem := rfl
@[simp] theorem setEng_outputs (e : Nat) (x : EngX) : (s.setEng e x).outputs = s.outputs := rfl
@[simp] theorem setEng_evts (e : Nat) (x : EngX) : (s.setEng e x).evts = s.evts := rfl
@[simp] theorem setEng_rings (e : Nat) (x : EngX) : (s.setEng e x).rings = s.rings := rfl
@[simp] theorem setEng_cfg (e : Nat) (x : EngX) : (s.setEng e x).cfg = s.cfg := rfl
@[simp] theorem setEng_time (e : Nat) (x : EngX) : (s.setEng e x).time = s.time := rfl
@[simp] theorem setEng_chip (e : Nat) (x : EngX) : (s.setEng e x).chip = s.chip := rfl
@[simp] theorem setEng_lastKey (e : Nat) (x : EngX) : (s.setEng e x).lastKey = s.lastKey := rfl
@[simp] theorem setEng_pipes (e : Nat) (x : EngX) : (s.setEng e x).pipes = s.pipes := rfl
@[simp] theorem setEng_recirc (e : Nat) (x : EngX) : (s.setEng e x).recirc = s.recirc := rfl
@[simp] theorem setEng_tcam (e : Nat) (x : EngX) : (s.setEng e x).tcam = s.tcam := rfl
@[simp] theorem setEng_actions (e : Nat) (x : EngX) : (s.setEng e x).actions = s.actions := rfl
@[simp] theorem setEng_eps (e : Nat) (x : EngX) : (s.setEng e x).eps = s.eps := rfl
@[simp] theorem setEng_routes (e : Nat) (x : EngX) : (s.setEng e x).routes = s.routes := rfl
@[simp] theorem setEng_vlans (e : Nat) (x : EngX) : (s.setEng e x).vlans = s.vlans := rfl
@[simp] theorem setEng_tbls (e : Nat) (x : EngX) : (s.setEng e x).tbls = s.tbls := rfl
@[simp] theorem setEng_slots (e : Nat) (x : EngX) : (s.setEng e x).slots = s.slots := rfl
@[simp] theorem setEng_ctxs (e : Nat) (x : EngX) : (s.setEng e x).ctxs = s.ctxs := rfl
@[simp] theorem setEng_hists (e : Nat) (x : EngX) : (s.setEng e x).hists = s.hists := rfl
@[simp] theorem setEng_regx (e : Nat) (x : EngX) : (s.setEng e x).regx = s.regx := rfl
@[simp] theorem setEng_wind (e : Nat) (x : EngX) : (s.setEng e x).wind = s.wind := rfl
@[simp] theorem setEng_discards (e : Nat) (x : EngX) : (s.setEng e x).discards = s.discards := rfl
@[simp] theorem setEng_bindErr (e : Nat) (x : EngX) : (s.setEng e x).bindErr = s.bindErr := rfl
@[simp] theorem setEng_digs (e : Nat) (x : EngX) : (s.setEng e x).digs = s.digs := rfl
@[simp] theorem setEng_pmp2 (e : Nat) (x : EngX) : (s.setEng e x).pmp2 = s.pmp2 := rfl
@[simp] theorem setEng_rtHist (e : Nat) (x : EngX) : (s.setEng e x).rtHist = s.rtHist := rfl
@[simp] theorem setEng_txs (e : Nat) (x : EngX) : (s.setEng e x).txs = s.txs := rfl
@[simp] theorem setEng_hostRx (e : Nat) (x : EngX) : (s.setEng e x).hostRx = s.hostRx := rfl
@[simp] theorem setEng_rrHost (e : Nat) (x : EngX) : (s.setEng e x).rrHost = s.rrHost := rfl
@[simp] theorem setEng_pports (e : Nat) (x : EngX) : (s.setEng e x).pports = s.pports := rfl
@[simp] theorem setEng_links (e : Nat) (x : EngX) : (s.setEng e x).links = s.links := rfl
@[simp] theorem setEng_lanes (e : Nat) (x : EngX) : (s.setEng e x).lanes = s.lanes := rfl
@[simp] theorem setEng_mcBad (e : Nat) (x : EngX) : (s.setEng e x).mcBad = s.mcBad := rfl
@[simp] theorem setEng_pairx (e : Nat) (x : EngX) : (s.setEng e x).pairx = s.pairx := rfl
@[simp] theorem setEng_hbmPc (e : Nat) (x : EngX) : (s.setEng e x).hbmPc = s.hbmPc := rfl
@[simp] theorem setEng_hbmx (e : Nat) (x : EngX) : (s.setEng e x).hbmx = s.hbmx := rfl
@[simp] theorem setEng_scrub (e : Nat) (x : EngX) : (s.setEng e x).scrub = s.scrub := rfl
@[simp] theorem setEng_passes (e : Nat) (x : EngX) : (s.setEng e x).passes = s.passes := rfl
@[simp] theorem setEng_pwr (e : Nat) (x : EngX) : (s.setEng e x).pwr = s.pwr := rfl
@[simp] theorem setEng_tapx (e : Nat) (x : EngX) : (s.setEng e x).tapx = s.tapx := rfl
@[simp] theorem setEng_countx (e : Nat) (x : EngX) : (s.setEng e x).countx = s.countx := rfl
@[simp] theorem setEng_free (e : Nat) (x : EngX) : (s.setEng e x).free = s.free := rfl
@[simp] theorem setEng_pending (e : Nat) (x : EngX) : (s.setEng e x).pending = s.pending := rfl
@[simp] theorem reg_setEng (e : Nat) (x : EngX) (k : Nat) : (s.setEng e x).reg k = s.reg k := rfl
@[simp] theorem rf_setEng (e : Nat) (x : EngX) (h : Fld) : (s.setEng e x).rf h = s.rf h := rfl
@[simp] theorem rb_setEng (e : Nat) (x : EngX) (h : Fld) : (s.setEng e x).rb h = s.rb h := rfl
@[simp] theorem regsCanon_setEng (e : Nat) (x : EngX) : (s.setEng e x).regsCanon = s.regsCanon := rfl

/-! `setRx` -/

@[simp] theorem setRx_regs (n : Nat) (x : RegX) : (s.setRx n x).regs = s.regs := rfl
@[simp] theorem setRx_latch (n : Nat) (x : RegX) : (s.setRx n x).latch = s.latch := rfl
@[simp] theorem setRx_hold (n : Nat) (x : RegX) : (s.setRx n x).hold = s.hold := rfl
@[simp] theorem setRx_readData (n : Nat) (x : RegX) : (s.setRx n x).readData = s.readData := rfl
@[simp] theorem setRx_hostMem (n : Nat) (x : RegX) : (s.setRx n x).hostMem = s.hostMem := rfl
@[simp] theorem setRx_outputs (n : Nat) (x : RegX) : (s.setRx n x).outputs = s.outputs := rfl
@[simp] theorem setRx_evts (n : Nat) (x : RegX) : (s.setRx n x).evts = s.evts := rfl
@[simp] theorem setRx_rings (n : Nat) (x : RegX) : (s.setRx n x).rings = s.rings := rfl
@[simp] theorem setRx_cfg (n : Nat) (x : RegX) : (s.setRx n x).cfg = s.cfg := rfl
@[simp] theorem setRx_time (n : Nat) (x : RegX) : (s.setRx n x).time = s.time := rfl
@[simp] theorem setRx_chip (n : Nat) (x : RegX) : (s.setRx n x).chip = s.chip := rfl
@[simp] theorem setRx_lastKey (n : Nat) (x : RegX) : (s.setRx n x).lastKey = s.lastKey := rfl
@[simp] theorem setRx_pipes (n : Nat) (x : RegX) : (s.setRx n x).pipes = s.pipes := rfl
@[simp] theorem setRx_recirc (n : Nat) (x : RegX) : (s.setRx n x).recirc = s.recirc := rfl
@[simp] theorem setRx_tcam (n : Nat) (x : RegX) : (s.setRx n x).tcam = s.tcam := rfl
@[simp] theorem setRx_actions (n : Nat) (x : RegX) : (s.setRx n x).actions = s.actions := rfl
@[simp] theorem setRx_eps (n : Nat) (x : RegX) : (s.setRx n x).eps = s.eps := rfl
@[simp] theorem setRx_routes (n : Nat) (x : RegX) : (s.setRx n x).routes = s.routes := rfl
@[simp] theorem setRx_vlans (n : Nat) (x : RegX) : (s.setRx n x).vlans = s.vlans := rfl
@[simp] theorem setRx_tbls (n : Nat) (x : RegX) : (s.setRx n x).tbls = s.tbls := rfl
@[simp] theorem setRx_slots (n : Nat) (x : RegX) : (s.setRx n x).slots = s.slots := rfl
@[simp] theorem setRx_engs (n : Nat) (x : RegX) : (s.setRx n x).engs = s.engs := rfl
@[simp] theorem setRx_ctxs (n : Nat) (x : RegX) : (s.setRx n x).ctxs = s.ctxs := rfl
@[simp] theorem setRx_hists (n : Nat) (x : RegX) : (s.setRx n x).hists = s.hists := rfl
@[simp] theorem setRx_wind (n : Nat) (x : RegX) : (s.setRx n x).wind = s.wind := rfl
@[simp] theorem setRx_discards (n : Nat) (x : RegX) : (s.setRx n x).discards = s.discards := rfl
@[simp] theorem setRx_bindErr (n : Nat) (x : RegX) : (s.setRx n x).bindErr = s.bindErr := rfl
@[simp] theorem setRx_digs (n : Nat) (x : RegX) : (s.setRx n x).digs = s.digs := rfl
@[simp] theorem setRx_pmp2 (n : Nat) (x : RegX) : (s.setRx n x).pmp2 = s.pmp2 := rfl
@[simp] theorem setRx_rtHist (n : Nat) (x : RegX) : (s.setRx n x).rtHist = s.rtHist := rfl
@[simp] theorem setRx_txs (n : Nat) (x : RegX) : (s.setRx n x).txs = s.txs := rfl
@[simp] theorem setRx_hostRx (n : Nat) (x : RegX) : (s.setRx n x).hostRx = s.hostRx := rfl
@[simp] theorem setRx_rrHost (n : Nat) (x : RegX) : (s.setRx n x).rrHost = s.rrHost := rfl
@[simp] theorem setRx_pports (n : Nat) (x : RegX) : (s.setRx n x).pports = s.pports := rfl
@[simp] theorem setRx_links (n : Nat) (x : RegX) : (s.setRx n x).links = s.links := rfl
@[simp] theorem setRx_lanes (n : Nat) (x : RegX) : (s.setRx n x).lanes = s.lanes := rfl
@[simp] theorem setRx_mcBad (n : Nat) (x : RegX) : (s.setRx n x).mcBad = s.mcBad := rfl
@[simp] theorem setRx_pairx (n : Nat) (x : RegX) : (s.setRx n x).pairx = s.pairx := rfl
@[simp] theorem setRx_hbmPc (n : Nat) (x : RegX) : (s.setRx n x).hbmPc = s.hbmPc := rfl
@[simp] theorem setRx_hbmx (n : Nat) (x : RegX) : (s.setRx n x).hbmx = s.hbmx := rfl
@[simp] theorem setRx_scrub (n : Nat) (x : RegX) : (s.setRx n x).scrub = s.scrub := rfl
@[simp] theorem setRx_passes (n : Nat) (x : RegX) : (s.setRx n x).passes = s.passes := rfl
@[simp] theorem setRx_pwr (n : Nat) (x : RegX) : (s.setRx n x).pwr = s.pwr := rfl
@[simp] theorem setRx_tapx (n : Nat) (x : RegX) : (s.setRx n x).tapx = s.tapx := rfl
@[simp] theorem setRx_countx (n : Nat) (x : RegX) : (s.setRx n x).countx = s.countx := rfl
@[simp] theorem setRx_free (n : Nat) (x : RegX) : (s.setRx n x).free = s.free := rfl
@[simp] theorem setRx_pending (n : Nat) (x : RegX) : (s.setRx n x).pending = s.pending := rfl
@[simp] theorem reg_setRx (n : Nat) (x : RegX) (k : Nat) : (s.setRx n x).reg k = s.reg k := rfl
@[simp] theorem rf_setRx (n : Nat) (x : RegX) (h : Fld) : (s.setRx n x).rf h = s.rf h := rfl
@[simp] theorem rb_setRx (n : Nat) (x : RegX) (h : Fld) : (s.setRx n x).rb h = s.rb h := rfl
@[simp] theorem regsCanon_setRx (n : Nat) (x : RegX) : (s.setRx n x).regsCanon = s.regsCanon := rfl

/-! `setLink` -/

@[simp] theorem setLink_regs (g l : Nat) (x : LinkX) : (s.setLink g l x).regs = s.regs := rfl
@[simp] theorem setLink_latch (g l : Nat) (x : LinkX) : (s.setLink g l x).latch = s.latch := rfl
@[simp] theorem setLink_hold (g l : Nat) (x : LinkX) : (s.setLink g l x).hold = s.hold := rfl
@[simp] theorem setLink_readData (g l : Nat) (x : LinkX) : (s.setLink g l x).readData = s.readData := rfl
@[simp] theorem setLink_hostMem (g l : Nat) (x : LinkX) : (s.setLink g l x).hostMem = s.hostMem := rfl
@[simp] theorem setLink_outputs (g l : Nat) (x : LinkX) : (s.setLink g l x).outputs = s.outputs := rfl
@[simp] theorem setLink_evts (g l : Nat) (x : LinkX) : (s.setLink g l x).evts = s.evts := rfl
@[simp] theorem setLink_rings (g l : Nat) (x : LinkX) : (s.setLink g l x).rings = s.rings := rfl
@[simp] theorem setLink_cfg (g l : Nat) (x : LinkX) : (s.setLink g l x).cfg = s.cfg := rfl
@[simp] theorem setLink_time (g l : Nat) (x : LinkX) : (s.setLink g l x).time = s.time := rfl
@[simp] theorem setLink_chip (g l : Nat) (x : LinkX) : (s.setLink g l x).chip = s.chip := rfl
@[simp] theorem setLink_lastKey (g l : Nat) (x : LinkX) : (s.setLink g l x).lastKey = s.lastKey := rfl
@[simp] theorem setLink_pipes (g l : Nat) (x : LinkX) : (s.setLink g l x).pipes = s.pipes := rfl
@[simp] theorem setLink_recirc (g l : Nat) (x : LinkX) : (s.setLink g l x).recirc = s.recirc := rfl
@[simp] theorem setLink_tcam (g l : Nat) (x : LinkX) : (s.setLink g l x).tcam = s.tcam := rfl
@[simp] theorem setLink_actions (g l : Nat) (x : LinkX) : (s.setLink g l x).actions = s.actions := rfl
@[simp] theorem setLink_eps (g l : Nat) (x : LinkX) : (s.setLink g l x).eps = s.eps := rfl
@[simp] theorem setLink_routes (g l : Nat) (x : LinkX) : (s.setLink g l x).routes = s.routes := rfl
@[simp] theorem setLink_vlans (g l : Nat) (x : LinkX) : (s.setLink g l x).vlans = s.vlans := rfl
@[simp] theorem setLink_tbls (g l : Nat) (x : LinkX) : (s.setLink g l x).tbls = s.tbls := rfl
@[simp] theorem setLink_slots (g l : Nat) (x : LinkX) : (s.setLink g l x).slots = s.slots := rfl
@[simp] theorem setLink_engs (g l : Nat) (x : LinkX) : (s.setLink g l x).engs = s.engs := rfl
@[simp] theorem setLink_ctxs (g l : Nat) (x : LinkX) : (s.setLink g l x).ctxs = s.ctxs := rfl
@[simp] theorem setLink_hists (g l : Nat) (x : LinkX) : (s.setLink g l x).hists = s.hists := rfl
@[simp] theorem setLink_regx (g l : Nat) (x : LinkX) : (s.setLink g l x).regx = s.regx := rfl
@[simp] theorem setLink_wind (g l : Nat) (x : LinkX) : (s.setLink g l x).wind = s.wind := rfl
@[simp] theorem setLink_discards (g l : Nat) (x : LinkX) : (s.setLink g l x).discards = s.discards := rfl
@[simp] theorem setLink_bindErr (g l : Nat) (x : LinkX) : (s.setLink g l x).bindErr = s.bindErr := rfl
@[simp] theorem setLink_digs (g l : Nat) (x : LinkX) : (s.setLink g l x).digs = s.digs := rfl
@[simp] theorem setLink_pmp2 (g l : Nat) (x : LinkX) : (s.setLink g l x).pmp2 = s.pmp2 := rfl
@[simp] theorem setLink_rtHist (g l : Nat) (x : LinkX) : (s.setLink g l x).rtHist = s.rtHist := rfl
@[simp] theorem setLink_txs (g l : Nat) (x : LinkX) : (s.setLink g l x).txs = s.txs := rfl
@[simp] theorem setLink_hostRx (g l : Nat) (x : LinkX) : (s.setLink g l x).hostRx = s.hostRx := rfl
@[simp] theorem setLink_rrHost (g l : Nat) (x : LinkX) : (s.setLink g l x).rrHost = s.rrHost := rfl
@[simp] theorem setLink_pports (g l : Nat) (x : LinkX) : (s.setLink g l x).pports = s.pports := rfl
@[simp] theorem setLink_lanes (g l : Nat) (x : LinkX) : (s.setLink g l x).lanes = s.lanes := rfl
@[simp] theorem setLink_mcBad (g l : Nat) (x : LinkX) : (s.setLink g l x).mcBad = s.mcBad := rfl
@[simp] theorem setLink_pairx (g l : Nat) (x : LinkX) : (s.setLink g l x).pairx = s.pairx := rfl
@[simp] theorem setLink_hbmPc (g l : Nat) (x : LinkX) : (s.setLink g l x).hbmPc = s.hbmPc := rfl
@[simp] theorem setLink_hbmx (g l : Nat) (x : LinkX) : (s.setLink g l x).hbmx = s.hbmx := rfl
@[simp] theorem setLink_scrub (g l : Nat) (x : LinkX) : (s.setLink g l x).scrub = s.scrub := rfl
@[simp] theorem setLink_passes (g l : Nat) (x : LinkX) : (s.setLink g l x).passes = s.passes := rfl
@[simp] theorem setLink_pwr (g l : Nat) (x : LinkX) : (s.setLink g l x).pwr = s.pwr := rfl
@[simp] theorem setLink_tapx (g l : Nat) (x : LinkX) : (s.setLink g l x).tapx = s.tapx := rfl
@[simp] theorem setLink_countx (g l : Nat) (x : LinkX) : (s.setLink g l x).countx = s.countx := rfl
@[simp] theorem setLink_free (g l : Nat) (x : LinkX) : (s.setLink g l x).free = s.free := rfl
@[simp] theorem setLink_pending (g l : Nat) (x : LinkX) : (s.setLink g l x).pending = s.pending := rfl
@[simp] theorem reg_setLink (g l : Nat) (x : LinkX) (k : Nat) : (s.setLink g l x).reg k = s.reg k := rfl
@[simp] theorem rf_setLink (g l : Nat) (x : LinkX) (h : Fld) : (s.setLink g l x).rf h = s.rf h := rfl
@[simp] theorem rb_setLink (g l : Nat) (x : LinkX) (h : Fld) : (s.setLink g l x).rb h = s.rb h := rfl
@[simp] theorem regsCanon_setLink (g l : Nat) (x : LinkX) : (s.setLink g l x).regsCanon = s.regsCanon := rfl

/-! `setLanex` -/

@[simp] theorem setLanex_regs (g l : Nat) (x : LaneX) : (s.setLanex g l x).regs = s.regs := rfl
@[simp] theorem setLanex_latch (g l : Nat) (x : LaneX) : (s.setLanex g l x).latch = s.latch := rfl
@[simp] theorem setLanex_hold (g l : Nat) (x : LaneX) : (s.setLanex g l x).hold = s.hold := rfl
@[simp] theorem setLanex_readData (g l : Nat) (x : LaneX) : (s.setLanex g l x).readData = s.readData := rfl
@[simp] theorem setLanex_hostMem (g l : Nat) (x : LaneX) : (s.setLanex g l x).hostMem = s.hostMem := rfl
@[simp] theorem setLanex_outputs (g l : Nat) (x : LaneX) : (s.setLanex g l x).outputs = s.outputs := rfl
@[simp] theorem setLanex_evts (g l : Nat) (x : LaneX) : (s.setLanex g l x).evts = s.evts := rfl
@[simp] theorem setLanex_rings (g l : Nat) (x : LaneX) : (s.setLanex g l x).rings = s.rings := rfl
@[simp] theorem setLanex_cfg (g l : Nat) (x : LaneX) : (s.setLanex g l x).cfg = s.cfg := rfl
@[simp] theorem setLanex_time (g l : Nat) (x : LaneX) : (s.setLanex g l x).time = s.time := rfl
@[simp] theorem setLanex_chip (g l : Nat) (x : LaneX) : (s.setLanex g l x).chip = s.chip := rfl
@[simp] theorem setLanex_lastKey (g l : Nat) (x : LaneX) : (s.setLanex g l x).lastKey = s.lastKey := rfl
@[simp] theorem setLanex_pipes (g l : Nat) (x : LaneX) : (s.setLanex g l x).pipes = s.pipes := rfl
@[simp] theorem setLanex_recirc (g l : Nat) (x : LaneX) : (s.setLanex g l x).recirc = s.recirc := rfl
@[simp] theorem setLanex_tcam (g l : Nat) (x : LaneX) : (s.setLanex g l x).tcam = s.tcam := rfl
@[simp] theorem setLanex_actions (g l : Nat) (x : LaneX) : (s.setLanex g l x).actions = s.actions := rfl
@[simp] theorem setLanex_eps (g l : Nat) (x : LaneX) : (s.setLanex g l x).eps = s.eps := rfl
@[simp] theorem setLanex_routes (g l : Nat) (x : LaneX) : (s.setLanex g l x).routes = s.routes := rfl
@[simp] theorem setLanex_vlans (g l : Nat) (x : LaneX) : (s.setLanex g l x).vlans = s.vlans := rfl
@[simp] theorem setLanex_tbls (g l : Nat) (x : LaneX) : (s.setLanex g l x).tbls = s.tbls := rfl
@[simp] theorem setLanex_slots (g l : Nat) (x : LaneX) : (s.setLanex g l x).slots = s.slots := rfl
@[simp] theorem setLanex_engs (g l : Nat) (x : LaneX) : (s.setLanex g l x).engs = s.engs := rfl
@[simp] theorem setLanex_ctxs (g l : Nat) (x : LaneX) : (s.setLanex g l x).ctxs = s.ctxs := rfl
@[simp] theorem setLanex_hists (g l : Nat) (x : LaneX) : (s.setLanex g l x).hists = s.hists := rfl
@[simp] theorem setLanex_regx (g l : Nat) (x : LaneX) : (s.setLanex g l x).regx = s.regx := rfl
@[simp] theorem setLanex_wind (g l : Nat) (x : LaneX) : (s.setLanex g l x).wind = s.wind := rfl
@[simp] theorem setLanex_discards (g l : Nat) (x : LaneX) : (s.setLanex g l x).discards = s.discards := rfl
@[simp] theorem setLanex_bindErr (g l : Nat) (x : LaneX) : (s.setLanex g l x).bindErr = s.bindErr := rfl
@[simp] theorem setLanex_digs (g l : Nat) (x : LaneX) : (s.setLanex g l x).digs = s.digs := rfl
@[simp] theorem setLanex_pmp2 (g l : Nat) (x : LaneX) : (s.setLanex g l x).pmp2 = s.pmp2 := rfl
@[simp] theorem setLanex_rtHist (g l : Nat) (x : LaneX) : (s.setLanex g l x).rtHist = s.rtHist := rfl
@[simp] theorem setLanex_txs (g l : Nat) (x : LaneX) : (s.setLanex g l x).txs = s.txs := rfl
@[simp] theorem setLanex_hostRx (g l : Nat) (x : LaneX) : (s.setLanex g l x).hostRx = s.hostRx := rfl
@[simp] theorem setLanex_rrHost (g l : Nat) (x : LaneX) : (s.setLanex g l x).rrHost = s.rrHost := rfl
@[simp] theorem setLanex_pports (g l : Nat) (x : LaneX) : (s.setLanex g l x).pports = s.pports := rfl
@[simp] theorem setLanex_links (g l : Nat) (x : LaneX) : (s.setLanex g l x).links = s.links := rfl
@[simp] theorem setLanex_mcBad (g l : Nat) (x : LaneX) : (s.setLanex g l x).mcBad = s.mcBad := rfl
@[simp] theorem setLanex_pairx (g l : Nat) (x : LaneX) : (s.setLanex g l x).pairx = s.pairx := rfl
@[simp] theorem setLanex_hbmPc (g l : Nat) (x : LaneX) : (s.setLanex g l x).hbmPc = s.hbmPc := rfl
@[simp] theorem setLanex_hbmx (g l : Nat) (x : LaneX) : (s.setLanex g l x).hbmx = s.hbmx := rfl
@[simp] theorem setLanex_scrub (g l : Nat) (x : LaneX) : (s.setLanex g l x).scrub = s.scrub := rfl
@[simp] theorem setLanex_passes (g l : Nat) (x : LaneX) : (s.setLanex g l x).passes = s.passes := rfl
@[simp] theorem setLanex_pwr (g l : Nat) (x : LaneX) : (s.setLanex g l x).pwr = s.pwr := rfl
@[simp] theorem setLanex_tapx (g l : Nat) (x : LaneX) : (s.setLanex g l x).tapx = s.tapx := rfl
@[simp] theorem setLanex_countx (g l : Nat) (x : LaneX) : (s.setLanex g l x).countx = s.countx := rfl
@[simp] theorem setLanex_free (g l : Nat) (x : LaneX) : (s.setLanex g l x).free = s.free := rfl
@[simp] theorem setLanex_pending (g l : Nat) (x : LaneX) : (s.setLanex g l x).pending = s.pending := rfl
@[simp] theorem reg_setLanex (g l : Nat) (x : LaneX) (k : Nat) : (s.setLanex g l x).reg k = s.reg k := rfl
@[simp] theorem rf_setLanex (g l : Nat) (x : LaneX) (h : Fld) : (s.setLanex g l x).rf h = s.rf h := rfl
@[simp] theorem rb_setLanex (g l : Nat) (x : LaneX) (h : Fld) : (s.setLanex g l x).rb h = s.rb h := rfl
@[simp] theorem regsCanon_setLanex (g l : Nat) (x : LaneX) : (s.setLanex g l x).regsCanon = s.regsCanon := rfl

/-! `setPport` -/

@[simp] theorem setPport_regs (n l : Nat) (x : PortX) : (s.setPport n l x).regs = s.regs := rfl
@[simp] theorem setPport_latch (n l : Nat) (x : PortX) : (s.setPport n l x).latch = s.latch := rfl
@[simp] theorem setPport_hold (n l : Nat) (x : PortX) : (s.setPport n l x).hold = s.hold := rfl
@[simp] theorem setPport_readData (n l : Nat) (x : PortX) : (s.setPport n l x).readData = s.readData := rfl
@[simp] theorem setPport_hostMem (n l : Nat) (x : PortX) : (s.setPport n l x).hostMem = s.hostMem := rfl
@[simp] theorem setPport_outputs (n l : Nat) (x : PortX) : (s.setPport n l x).outputs = s.outputs := rfl
@[simp] theorem setPport_evts (n l : Nat) (x : PortX) : (s.setPport n l x).evts = s.evts := rfl
@[simp] theorem setPport_rings (n l : Nat) (x : PortX) : (s.setPport n l x).rings = s.rings := rfl
@[simp] theorem setPport_cfg (n l : Nat) (x : PortX) : (s.setPport n l x).cfg = s.cfg := rfl
@[simp] theorem setPport_time (n l : Nat) (x : PortX) : (s.setPport n l x).time = s.time := rfl
@[simp] theorem setPport_chip (n l : Nat) (x : PortX) : (s.setPport n l x).chip = s.chip := rfl
@[simp] theorem setPport_lastKey (n l : Nat) (x : PortX) : (s.setPport n l x).lastKey = s.lastKey := rfl
@[simp] theorem setPport_pipes (n l : Nat) (x : PortX) : (s.setPport n l x).pipes = s.pipes := rfl
@[simp] theorem setPport_recirc (n l : Nat) (x : PortX) : (s.setPport n l x).recirc = s.recirc := rfl
@[simp] theorem setPport_tcam (n l : Nat) (x : PortX) : (s.setPport n l x).tcam = s.tcam := rfl
@[simp] theorem setPport_actions (n l : Nat) (x : PortX) : (s.setPport n l x).actions = s.actions := rfl
@[simp] theorem setPport_eps (n l : Nat) (x : PortX) : (s.setPport n l x).eps = s.eps := rfl
@[simp] theorem setPport_routes (n l : Nat) (x : PortX) : (s.setPport n l x).routes = s.routes := rfl
@[simp] theorem setPport_vlans (n l : Nat) (x : PortX) : (s.setPport n l x).vlans = s.vlans := rfl
@[simp] theorem setPport_tbls (n l : Nat) (x : PortX) : (s.setPport n l x).tbls = s.tbls := rfl
@[simp] theorem setPport_slots (n l : Nat) (x : PortX) : (s.setPport n l x).slots = s.slots := rfl
@[simp] theorem setPport_engs (n l : Nat) (x : PortX) : (s.setPport n l x).engs = s.engs := rfl
@[simp] theorem setPport_ctxs (n l : Nat) (x : PortX) : (s.setPport n l x).ctxs = s.ctxs := rfl
@[simp] theorem setPport_hists (n l : Nat) (x : PortX) : (s.setPport n l x).hists = s.hists := rfl
@[simp] theorem setPport_regx (n l : Nat) (x : PortX) : (s.setPport n l x).regx = s.regx := rfl
@[simp] theorem setPport_wind (n l : Nat) (x : PortX) : (s.setPport n l x).wind = s.wind := rfl
@[simp] theorem setPport_discards (n l : Nat) (x : PortX) : (s.setPport n l x).discards = s.discards := rfl
@[simp] theorem setPport_bindErr (n l : Nat) (x : PortX) : (s.setPport n l x).bindErr = s.bindErr := rfl
@[simp] theorem setPport_digs (n l : Nat) (x : PortX) : (s.setPport n l x).digs = s.digs := rfl
@[simp] theorem setPport_pmp2 (n l : Nat) (x : PortX) : (s.setPport n l x).pmp2 = s.pmp2 := rfl
@[simp] theorem setPport_rtHist (n l : Nat) (x : PortX) : (s.setPport n l x).rtHist = s.rtHist := rfl
@[simp] theorem setPport_txs (n l : Nat) (x : PortX) : (s.setPport n l x).txs = s.txs := rfl
@[simp] theorem setPport_hostRx (n l : Nat) (x : PortX) : (s.setPport n l x).hostRx = s.hostRx := rfl
@[simp] theorem setPport_rrHost (n l : Nat) (x : PortX) : (s.setPport n l x).rrHost = s.rrHost := rfl
@[simp] theorem setPport_links (n l : Nat) (x : PortX) : (s.setPport n l x).links = s.links := rfl
@[simp] theorem setPport_lanes (n l : Nat) (x : PortX) : (s.setPport n l x).lanes = s.lanes := rfl
@[simp] theorem setPport_mcBad (n l : Nat) (x : PortX) : (s.setPport n l x).mcBad = s.mcBad := rfl
@[simp] theorem setPport_pairx (n l : Nat) (x : PortX) : (s.setPport n l x).pairx = s.pairx := rfl
@[simp] theorem setPport_hbmPc (n l : Nat) (x : PortX) : (s.setPport n l x).hbmPc = s.hbmPc := rfl
@[simp] theorem setPport_hbmx (n l : Nat) (x : PortX) : (s.setPport n l x).hbmx = s.hbmx := rfl
@[simp] theorem setPport_scrub (n l : Nat) (x : PortX) : (s.setPport n l x).scrub = s.scrub := rfl
@[simp] theorem setPport_passes (n l : Nat) (x : PortX) : (s.setPport n l x).passes = s.passes := rfl
@[simp] theorem setPport_pwr (n l : Nat) (x : PortX) : (s.setPport n l x).pwr = s.pwr := rfl
@[simp] theorem setPport_tapx (n l : Nat) (x : PortX) : (s.setPport n l x).tapx = s.tapx := rfl
@[simp] theorem setPport_countx (n l : Nat) (x : PortX) : (s.setPport n l x).countx = s.countx := rfl
@[simp] theorem setPport_free (n l : Nat) (x : PortX) : (s.setPport n l x).free = s.free := rfl
@[simp] theorem setPport_pending (n l : Nat) (x : PortX) : (s.setPport n l x).pending = s.pending := rfl
@[simp] theorem reg_setPport (n l : Nat) (x : PortX) (k : Nat) : (s.setPport n l x).reg k = s.reg k := rfl
@[simp] theorem rf_setPport (n l : Nat) (x : PortX) (h : Fld) : (s.setPport n l x).rf h = s.rf h := rfl
@[simp] theorem rb_setPport (n l : Nat) (x : PortX) (h : Fld) : (s.setPport n l x).rb h = s.rb h := rfl
@[simp] theorem regsCanon_setPport (n l : Nat) (x : PortX) : (s.setPport n l x).regsCanon = s.regsCanon := rfl

/-! `setPairx` -/

@[simp] theorem setPairx_regs (x : PairX) : (s.setPairx x).regs = s.regs := rfl
@[simp] theorem setPairx_latch (x : PairX) : (s.setPairx x).latch = s.latch := rfl
@[simp] theorem setPairx_hold (x : PairX) : (s.setPairx x).hold = s.hold := rfl
@[simp] theorem setPairx_readData (x : PairX) : (s.setPairx x).readData = s.readData := rfl
@[simp] theorem setPairx_hostMem (x : PairX) : (s.setPairx x).hostMem = s.hostMem := rfl
@[simp] theorem setPairx_outputs (x : PairX) : (s.setPairx x).outputs = s.outputs := rfl
@[simp] theorem setPairx_evts (x : PairX) : (s.setPairx x).evts = s.evts := rfl
@[simp] theorem setPairx_rings (x : PairX) : (s.setPairx x).rings = s.rings := rfl
@[simp] theorem setPairx_cfg (x : PairX) : (s.setPairx x).cfg = s.cfg := rfl
@[simp] theorem setPairx_time (x : PairX) : (s.setPairx x).time = s.time := rfl
@[simp] theorem setPairx_chip (x : PairX) : (s.setPairx x).chip = s.chip := rfl
@[simp] theorem setPairx_lastKey (x : PairX) : (s.setPairx x).lastKey = s.lastKey := rfl
@[simp] theorem setPairx_pipes (x : PairX) : (s.setPairx x).pipes = s.pipes := rfl
@[simp] theorem setPairx_recirc (x : PairX) : (s.setPairx x).recirc = s.recirc := rfl
@[simp] theorem setPairx_tcam (x : PairX) : (s.setPairx x).tcam = s.tcam := rfl
@[simp] theorem setPairx_actions (x : PairX) : (s.setPairx x).actions = s.actions := rfl
@[simp] theorem setPairx_eps (x : PairX) : (s.setPairx x).eps = s.eps := rfl
@[simp] theorem setPairx_routes (x : PairX) : (s.setPairx x).routes = s.routes := rfl
@[simp] theorem setPairx_vlans (x : PairX) : (s.setPairx x).vlans = s.vlans := rfl
@[simp] theorem setPairx_tbls (x : PairX) : (s.setPairx x).tbls = s.tbls := rfl
@[simp] theorem setPairx_slots (x : PairX) : (s.setPairx x).slots = s.slots := rfl
@[simp] theorem setPairx_engs (x : PairX) : (s.setPairx x).engs = s.engs := rfl
@[simp] theorem setPairx_ctxs (x : PairX) : (s.setPairx x).ctxs = s.ctxs := rfl
@[simp] theorem setPairx_hists (x : PairX) : (s.setPairx x).hists = s.hists := rfl
@[simp] theorem setPairx_regx (x : PairX) : (s.setPairx x).regx = s.regx := rfl
@[simp] theorem setPairx_wind (x : PairX) : (s.setPairx x).wind = s.wind := rfl
@[simp] theorem setPairx_discards (x : PairX) : (s.setPairx x).discards = s.discards := rfl
@[simp] theorem setPairx_bindErr (x : PairX) : (s.setPairx x).bindErr = s.bindErr := rfl
@[simp] theorem setPairx_digs (x : PairX) : (s.setPairx x).digs = s.digs := rfl
@[simp] theorem setPairx_pmp2 (x : PairX) : (s.setPairx x).pmp2 = s.pmp2 := rfl
@[simp] theorem setPairx_rtHist (x : PairX) : (s.setPairx x).rtHist = s.rtHist := rfl
@[simp] theorem setPairx_txs (x : PairX) : (s.setPairx x).txs = s.txs := rfl
@[simp] theorem setPairx_hostRx (x : PairX) : (s.setPairx x).hostRx = s.hostRx := rfl
@[simp] theorem setPairx_rrHost (x : PairX) : (s.setPairx x).rrHost = s.rrHost := rfl
@[simp] theorem setPairx_pports (x : PairX) : (s.setPairx x).pports = s.pports := rfl
@[simp] theorem setPairx_links (x : PairX) : (s.setPairx x).links = s.links := rfl
@[simp] theorem setPairx_lanes (x : PairX) : (s.setPairx x).lanes = s.lanes := rfl
@[simp] theorem setPairx_mcBad (x : PairX) : (s.setPairx x).mcBad = s.mcBad := rfl
@[simp] theorem setPairx_hbmPc (x : PairX) : (s.setPairx x).hbmPc = s.hbmPc := rfl
@[simp] theorem setPairx_hbmx (x : PairX) : (s.setPairx x).hbmx = s.hbmx := rfl
@[simp] theorem setPairx_scrub (x : PairX) : (s.setPairx x).scrub = s.scrub := rfl
@[simp] theorem setPairx_passes (x : PairX) : (s.setPairx x).passes = s.passes := rfl
@[simp] theorem setPairx_pwr (x : PairX) : (s.setPairx x).pwr = s.pwr := rfl
@[simp] theorem setPairx_tapx (x : PairX) : (s.setPairx x).tapx = s.tapx := rfl
@[simp] theorem setPairx_countx (x : PairX) : (s.setPairx x).countx = s.countx := rfl
@[simp] theorem setPairx_free (x : PairX) : (s.setPairx x).free = s.free := rfl
@[simp] theorem setPairx_pending (x : PairX) : (s.setPairx x).pending = s.pending := rfl
@[simp] theorem reg_setPairx (x : PairX) (k : Nat) : (s.setPairx x).reg k = s.reg k := rfl
@[simp] theorem rf_setPairx (x : PairX) (h : Fld) : (s.setPairx x).rf h = s.rf h := rfl
@[simp] theorem rb_setPairx (x : PairX) (h : Fld) : (s.setPairx x).rb h = s.rb h := rfl
@[simp] theorem regsCanon_setPairx (x : PairX) : (s.setPairx x).regsCanon = s.regsCanon := rfl

/-! `setPwr` -/

@[simp] theorem setPwr_regs (x : PwrX) : (s.setPwr x).regs = s.regs := rfl
@[simp] theorem setPwr_latch (x : PwrX) : (s.setPwr x).latch = s.latch := rfl
@[simp] theorem setPwr_hold (x : PwrX) : (s.setPwr x).hold = s.hold := rfl
@[simp] theorem setPwr_readData (x : PwrX) : (s.setPwr x).readData = s.readData := rfl
@[simp] theorem setPwr_hostMem (x : PwrX) : (s.setPwr x).hostMem = s.hostMem := rfl
@[simp] theorem setPwr_outputs (x : PwrX) : (s.setPwr x).outputs = s.outputs := rfl
@[simp] theorem setPwr_evts (x : PwrX) : (s.setPwr x).evts = s.evts := rfl
@[simp] theorem setPwr_rings (x : PwrX) : (s.setPwr x).rings = s.rings := rfl
@[simp] theorem setPwr_cfg (x : PwrX) : (s.setPwr x).cfg = s.cfg := rfl
@[simp] theorem setPwr_time (x : PwrX) : (s.setPwr x).time = s.time := rfl
@[simp] theorem setPwr_chip (x : PwrX) : (s.setPwr x).chip = s.chip := rfl
@[simp] theorem setPwr_lastKey (x : PwrX) : (s.setPwr x).lastKey = s.lastKey := rfl
@[simp] theorem setPwr_pipes (x : PwrX) : (s.setPwr x).pipes = s.pipes := rfl
@[simp] theorem setPwr_recirc (x : PwrX) : (s.setPwr x).recirc = s.recirc := rfl
@[simp] theorem setPwr_tcam (x : PwrX) : (s.setPwr x).tcam = s.tcam := rfl
@[simp] theorem setPwr_actions (x : PwrX) : (s.setPwr x).actions = s.actions := rfl
@[simp] theorem setPwr_eps (x : PwrX) : (s.setPwr x).eps = s.eps := rfl
@[simp] theorem setPwr_routes (x : PwrX) : (s.setPwr x).routes = s.routes := rfl
@[simp] theorem setPwr_vlans (x : PwrX) : (s.setPwr x).vlans = s.vlans := rfl
@[simp] theorem setPwr_tbls (x : PwrX) : (s.setPwr x).tbls = s.tbls := rfl
@[simp] theorem setPwr_slots (x : PwrX) : (s.setPwr x).slots = s.slots := rfl
@[simp] theorem setPwr_engs (x : PwrX) : (s.setPwr x).engs = s.engs := rfl
@[simp] theorem setPwr_ctxs (x : PwrX) : (s.setPwr x).ctxs = s.ctxs := rfl
@[simp] theorem setPwr_hists (x : PwrX) : (s.setPwr x).hists = s.hists := rfl
@[simp] theorem setPwr_regx (x : PwrX) : (s.setPwr x).regx = s.regx := rfl
@[simp] theorem setPwr_wind (x : PwrX) : (s.setPwr x).wind = s.wind := rfl
@[simp] theorem setPwr_discards (x : PwrX) : (s.setPwr x).discards = s.discards := rfl
@[simp] theorem setPwr_bindErr (x : PwrX) : (s.setPwr x).bindErr = s.bindErr := rfl
@[simp] theorem setPwr_digs (x : PwrX) : (s.setPwr x).digs = s.digs := rfl
@[simp] theorem setPwr_pmp2 (x : PwrX) : (s.setPwr x).pmp2 = s.pmp2 := rfl
@[simp] theorem setPwr_rtHist (x : PwrX) : (s.setPwr x).rtHist = s.rtHist := rfl
@[simp] theorem setPwr_txs (x : PwrX) : (s.setPwr x).txs = s.txs := rfl
@[simp] theorem setPwr_hostRx (x : PwrX) : (s.setPwr x).hostRx = s.hostRx := rfl
@[simp] theorem setPwr_rrHost (x : PwrX) : (s.setPwr x).rrHost = s.rrHost := rfl
@[simp] theorem setPwr_pports (x : PwrX) : (s.setPwr x).pports = s.pports := rfl
@[simp] theorem setPwr_links (x : PwrX) : (s.setPwr x).links = s.links := rfl
@[simp] theorem setPwr_lanes (x : PwrX) : (s.setPwr x).lanes = s.lanes := rfl
@[simp] theorem setPwr_mcBad (x : PwrX) : (s.setPwr x).mcBad = s.mcBad := rfl
@[simp] theorem setPwr_pairx (x : PwrX) : (s.setPwr x).pairx = s.pairx := rfl
@[simp] theorem setPwr_hbmPc (x : PwrX) : (s.setPwr x).hbmPc = s.hbmPc := rfl
@[simp] theorem setPwr_hbmx (x : PwrX) : (s.setPwr x).hbmx = s.hbmx := rfl
@[simp] theorem setPwr_scrub (x : PwrX) : (s.setPwr x).scrub = s.scrub := rfl
@[simp] theorem setPwr_passes (x : PwrX) : (s.setPwr x).passes = s.passes := rfl
@[simp] theorem setPwr_tapx (x : PwrX) : (s.setPwr x).tapx = s.tapx := rfl
@[simp] theorem setPwr_countx (x : PwrX) : (s.setPwr x).countx = s.countx := rfl
@[simp] theorem setPwr_free (x : PwrX) : (s.setPwr x).free = s.free := rfl
@[simp] theorem setPwr_pending (x : PwrX) : (s.setPwr x).pending = s.pending := rfl
@[simp] theorem reg_setPwr (x : PwrX) (k : Nat) : (s.setPwr x).reg k = s.reg k := rfl
@[simp] theorem rf_setPwr (x : PwrX) (h : Fld) : (s.setPwr x).rf h = s.rf h := rfl
@[simp] theorem rb_setPwr (x : PwrX) (h : Fld) : (s.setPwr x).rb h = s.rb h := rfl
@[simp] theorem regsCanon_setPwr (x : PwrX) : (s.setPwr x).regsCanon = s.regsCanon := rfl

/-! `setHpc` -/

@[simp] theorem setHpc_regs (st q : Nat) (x : HbmPc) : (s.setHpc st q x).regs = s.regs := rfl
@[simp] theorem setHpc_latch (st q : Nat) (x : HbmPc) : (s.setHpc st q x).latch = s.latch := rfl
@[simp] theorem setHpc_hold (st q : Nat) (x : HbmPc) : (s.setHpc st q x).hold = s.hold := rfl
@[simp] theorem setHpc_readData (st q : Nat) (x : HbmPc) : (s.setHpc st q x).readData = s.readData := rfl
@[simp] theorem setHpc_hostMem (st q : Nat) (x : HbmPc) : (s.setHpc st q x).hostMem = s.hostMem := rfl
@[simp] theorem setHpc_outputs (st q : Nat) (x : HbmPc) : (s.setHpc st q x).outputs = s.outputs := rfl
@[simp] theorem setHpc_evts (st q : Nat) (x : HbmPc) : (s.setHpc st q x).evts = s.evts := rfl
@[simp] theorem setHpc_rings (st q : Nat) (x : HbmPc) : (s.setHpc st q x).rings = s.rings := rfl
@[simp] theorem setHpc_cfg (st q : Nat) (x : HbmPc) : (s.setHpc st q x).cfg = s.cfg := rfl
@[simp] theorem setHpc_time (st q : Nat) (x : HbmPc) : (s.setHpc st q x).time = s.time := rfl
@[simp] theorem setHpc_chip (st q : Nat) (x : HbmPc) : (s.setHpc st q x).chip = s.chip := rfl
@[simp] theorem setHpc_lastKey (st q : Nat) (x : HbmPc) : (s.setHpc st q x).lastKey = s.lastKey := rfl
@[simp] theorem setHpc_pipes (st q : Nat) (x : HbmPc) : (s.setHpc st q x).pipes = s.pipes := rfl
@[simp] theorem setHpc_recirc (st q : Nat) (x : HbmPc) : (s.setHpc st q x).recirc = s.recirc := rfl
@[simp] theorem setHpc_tcam (st q : Nat) (x : HbmPc) : (s.setHpc st q x).tcam = s.tcam := rfl
@[simp] theorem setHpc_actions (st q : Nat) (x : HbmPc) : (s.setHpc st q x).actions = s.actions := rfl
@[simp] theorem setHpc_eps (st q : Nat) (x : HbmPc) : (s.setHpc st q x).eps = s.eps := rfl
@[simp] theorem setHpc_routes (st q : Nat) (x : HbmPc) : (s.setHpc st q x).routes = s.routes := rfl
@[simp] theorem setHpc_vlans (st q : Nat) (x : HbmPc) : (s.setHpc st q x).vlans = s.vlans := rfl
@[simp] theorem setHpc_tbls (st q : Nat) (x : HbmPc) : (s.setHpc st q x).tbls = s.tbls := rfl
@[simp] theorem setHpc_slots (st q : Nat) (x : HbmPc) : (s.setHpc st q x).slots = s.slots := rfl
@[simp] theorem setHpc_engs (st q : Nat) (x : HbmPc) : (s.setHpc st q x).engs = s.engs := rfl
@[simp] theorem setHpc_ctxs (st q : Nat) (x : HbmPc) : (s.setHpc st q x).ctxs = s.ctxs := rfl
@[simp] theorem setHpc_hists (st q : Nat) (x : HbmPc) : (s.setHpc st q x).hists = s.hists := rfl
@[simp] theorem setHpc_regx (st q : Nat) (x : HbmPc) : (s.setHpc st q x).regx = s.regx := rfl
@[simp] theorem setHpc_wind (st q : Nat) (x : HbmPc) : (s.setHpc st q x).wind = s.wind := rfl
@[simp] theorem setHpc_discards (st q : Nat) (x : HbmPc) : (s.setHpc st q x).discards = s.discards := rfl
@[simp] theorem setHpc_bindErr (st q : Nat) (x : HbmPc) : (s.setHpc st q x).bindErr = s.bindErr := rfl
@[simp] theorem setHpc_digs (st q : Nat) (x : HbmPc) : (s.setHpc st q x).digs = s.digs := rfl
@[simp] theorem setHpc_pmp2 (st q : Nat) (x : HbmPc) : (s.setHpc st q x).pmp2 = s.pmp2 := rfl
@[simp] theorem setHpc_rtHist (st q : Nat) (x : HbmPc) : (s.setHpc st q x).rtHist = s.rtHist := rfl
@[simp] theorem setHpc_txs (st q : Nat) (x : HbmPc) : (s.setHpc st q x).txs = s.txs := rfl
@[simp] theorem setHpc_hostRx (st q : Nat) (x : HbmPc) : (s.setHpc st q x).hostRx = s.hostRx := rfl
@[simp] theorem setHpc_rrHost (st q : Nat) (x : HbmPc) : (s.setHpc st q x).rrHost = s.rrHost := rfl
@[simp] theorem setHpc_pports (st q : Nat) (x : HbmPc) : (s.setHpc st q x).pports = s.pports := rfl
@[simp] theorem setHpc_links (st q : Nat) (x : HbmPc) : (s.setHpc st q x).links = s.links := rfl
@[simp] theorem setHpc_lanes (st q : Nat) (x : HbmPc) : (s.setHpc st q x).lanes = s.lanes := rfl
@[simp] theorem setHpc_mcBad (st q : Nat) (x : HbmPc) : (s.setHpc st q x).mcBad = s.mcBad := rfl
@[simp] theorem setHpc_pairx (st q : Nat) (x : HbmPc) : (s.setHpc st q x).pairx = s.pairx := rfl
@[simp] theorem setHpc_hbmx (st q : Nat) (x : HbmPc) : (s.setHpc st q x).hbmx = s.hbmx := rfl
@[simp] theorem setHpc_scrub (st q : Nat) (x : HbmPc) : (s.setHpc st q x).scrub = s.scrub := rfl
@[simp] theorem setHpc_passes (st q : Nat) (x : HbmPc) : (s.setHpc st q x).passes = s.passes := rfl
@[simp] theorem setHpc_pwr (st q : Nat) (x : HbmPc) : (s.setHpc st q x).pwr = s.pwr := rfl
@[simp] theorem setHpc_tapx (st q : Nat) (x : HbmPc) : (s.setHpc st q x).tapx = s.tapx := rfl
@[simp] theorem setHpc_countx (st q : Nat) (x : HbmPc) : (s.setHpc st q x).countx = s.countx := rfl
@[simp] theorem setHpc_free (st q : Nat) (x : HbmPc) : (s.setHpc st q x).free = s.free := rfl
@[simp] theorem setHpc_pending (st q : Nat) (x : HbmPc) : (s.setHpc st q x).pending = s.pending := rfl
@[simp] theorem reg_setHpc (st q : Nat) (x : HbmPc) (k : Nat) : (s.setHpc st q x).reg k = s.reg k := rfl
@[simp] theorem rf_setHpc (st q : Nat) (x : HbmPc) (h : Fld) : (s.setHpc st q x).rf h = s.rf h := rfl
@[simp] theorem rb_setHpc (st q : Nat) (x : HbmPc) (h : Fld) : (s.setHpc st q x).rb h = s.rb h := rfl
@[simp] theorem regsCanon_setHpc (st q : Nat) (x : HbmPc) : (s.setHpc st q x).regsCanon = s.regsCanon := rfl

/-! `setHctl` -/

@[simp] theorem setHctl_regs (st : Nat) (x : HbmX) : (s.setHctl st x).regs = s.regs := rfl
@[simp] theorem setHctl_latch (st : Nat) (x : HbmX) : (s.setHctl st x).latch = s.latch := rfl
@[simp] theorem setHctl_hold (st : Nat) (x : HbmX) : (s.setHctl st x).hold = s.hold := rfl
@[simp] theorem setHctl_readData (st : Nat) (x : HbmX) : (s.setHctl st x).readData = s.readData := rfl
@[simp] theorem setHctl_hostMem (st : Nat) (x : HbmX) : (s.setHctl st x).hostMem = s.hostMem := rfl
@[simp] theorem setHctl_outputs (st : Nat) (x : HbmX) : (s.setHctl st x).outputs = s.outputs := rfl
@[simp] theorem setHctl_evts (st : Nat) (x : HbmX) : (s.setHctl st x).evts = s.evts := rfl
@[simp] theorem setHctl_rings (st : Nat) (x : HbmX) : (s.setHctl st x).rings = s.rings := rfl
@[simp] theorem setHctl_cfg (st : Nat) (x : HbmX) : (s.setHctl st x).cfg = s.cfg := rfl
@[simp] theorem setHctl_time (st : Nat) (x : HbmX) : (s.setHctl st x).time = s.time := rfl
@[simp] theorem setHctl_chip (st : Nat) (x : HbmX) : (s.setHctl st x).chip = s.chip := rfl
@[simp] theorem setHctl_lastKey (st : Nat) (x : HbmX) : (s.setHctl st x).lastKey = s.lastKey := rfl
@[simp] theorem setHctl_pipes (st : Nat) (x : HbmX) : (s.setHctl st x).pipes = s.pipes := rfl
@[simp] theorem setHctl_recirc (st : Nat) (x : HbmX) : (s.setHctl st x).recirc = s.recirc := rfl
@[simp] theorem setHctl_tcam (st : Nat) (x : HbmX) : (s.setHctl st x).tcam = s.tcam := rfl
@[simp] theorem setHctl_actions (st : Nat) (x : HbmX) : (s.setHctl st x).actions = s.actions := rfl
@[simp] theorem setHctl_eps (st : Nat) (x : HbmX) : (s.setHctl st x).eps = s.eps := rfl
@[simp] theorem setHctl_routes (st : Nat) (x : HbmX) : (s.setHctl st x).routes = s.routes := rfl
@[simp] theorem setHctl_vlans (st : Nat) (x : HbmX) : (s.setHctl st x).vlans = s.vlans := rfl
@[simp] theorem setHctl_tbls (st : Nat) (x : HbmX) : (s.setHctl st x).tbls = s.tbls := rfl
@[simp] theorem setHctl_slots (st : Nat) (x : HbmX) : (s.setHctl st x).slots = s.slots := rfl
@[simp] theorem setHctl_engs (st : Nat) (x : HbmX) : (s.setHctl st x).engs = s.engs := rfl
@[simp] theorem setHctl_ctxs (st : Nat) (x : HbmX) : (s.setHctl st x).ctxs = s.ctxs := rfl
@[simp] theorem setHctl_hists (st : Nat) (x : HbmX) : (s.setHctl st x).hists = s.hists := rfl
@[simp] theorem setHctl_regx (st : Nat) (x : HbmX) : (s.setHctl st x).regx = s.regx := rfl
@[simp] theorem setHctl_wind (st : Nat) (x : HbmX) : (s.setHctl st x).wind = s.wind := rfl
@[simp] theorem setHctl_discards (st : Nat) (x : HbmX) : (s.setHctl st x).discards = s.discards := rfl
@[simp] theorem setHctl_bindErr (st : Nat) (x : HbmX) : (s.setHctl st x).bindErr = s.bindErr := rfl
@[simp] theorem setHctl_digs (st : Nat) (x : HbmX) : (s.setHctl st x).digs = s.digs := rfl
@[simp] theorem setHctl_pmp2 (st : Nat) (x : HbmX) : (s.setHctl st x).pmp2 = s.pmp2 := rfl
@[simp] theorem setHctl_rtHist (st : Nat) (x : HbmX) : (s.setHctl st x).rtHist = s.rtHist := rfl
@[simp] theorem setHctl_txs (st : Nat) (x : HbmX) : (s.setHctl st x).txs = s.txs := rfl
@[simp] theorem setHctl_hostRx (st : Nat) (x : HbmX) : (s.setHctl st x).hostRx = s.hostRx := rfl
@[simp] theorem setHctl_rrHost (st : Nat) (x : HbmX) : (s.setHctl st x).rrHost = s.rrHost := rfl
@[simp] theorem setHctl_pports (st : Nat) (x : HbmX) : (s.setHctl st x).pports = s.pports := rfl
@[simp] theorem setHctl_links (st : Nat) (x : HbmX) : (s.setHctl st x).links = s.links := rfl
@[simp] theorem setHctl_lanes (st : Nat) (x : HbmX) : (s.setHctl st x).lanes = s.lanes := rfl
@[simp] theorem setHctl_mcBad (st : Nat) (x : HbmX) : (s.setHctl st x).mcBad = s.mcBad := rfl
@[simp] theorem setHctl_pairx (st : Nat) (x : HbmX) : (s.setHctl st x).pairx = s.pairx := rfl
@[simp] theorem setHctl_hbmPc (st : Nat) (x : HbmX) : (s.setHctl st x).hbmPc = s.hbmPc := rfl
@[simp] theorem setHctl_scrub (st : Nat) (x : HbmX) : (s.setHctl st x).scrub = s.scrub := rfl
@[simp] theorem setHctl_passes (st : Nat) (x : HbmX) : (s.setHctl st x).passes = s.passes := rfl
@[simp] theorem setHctl_pwr (st : Nat) (x : HbmX) : (s.setHctl st x).pwr = s.pwr := rfl
@[simp] theorem setHctl_tapx (st : Nat) (x : HbmX) : (s.setHctl st x).tapx = s.tapx := rfl
@[simp] theorem setHctl_countx (st : Nat) (x : HbmX) : (s.setHctl st x).countx = s.countx := rfl
@[simp] theorem setHctl_free (st : Nat) (x : HbmX) : (s.setHctl st x).free = s.free := rfl
@[simp] theorem setHctl_pending (st : Nat) (x : HbmX) : (s.setHctl st x).pending = s.pending := rfl
@[simp] theorem reg_setHctl (st : Nat) (x : HbmX) (k : Nat) : (s.setHctl st x).reg k = s.reg k := rfl
@[simp] theorem rf_setHctl (st : Nat) (x : HbmX) (h : Fld) : (s.setHctl st x).rf h = s.rf h := rfl
@[simp] theorem rb_setHctl (st : Nat) (x : HbmX) (h : Fld) : (s.setHctl st x).rb h = s.rb h := rfl
@[simp] theorem regsCanon_setHctl (st : Nat) (x : HbmX) : (s.setHctl st x).regsCanon = s.regsCanon := rfl

/-! `setScrubx` -/

@[simp] theorem setScrubx_regs (u m : Nat) (x : ScrubX) : (s.setScrubx u m x).regs = s.regs := rfl
@[simp] theorem setScrubx_latch (u m : Nat) (x : ScrubX) : (s.setScrubx u m x).latch = s.latch := rfl
@[simp] theorem setScrubx_hold (u m : Nat) (x : ScrubX) : (s.setScrubx u m x).hold = s.hold := rfl
@[simp] theorem setScrubx_readData (u m : Nat) (x : ScrubX) : (s.setScrubx u m x).readData = s.readData := rfl
@[simp] theorem setScrubx_hostMem (u m : Nat) (x : ScrubX) : (s.setScrubx u m x).hostMem = s.hostMem := rfl
@[simp] theorem setScrubx_outputs (u m : Nat) (x : ScrubX) : (s.setScrubx u m x).outputs = s.outputs := rfl
@[simp] theorem setScrubx_evts (u m : Nat) (x : ScrubX) : (s.setScrubx u m x).evts = s.evts := rfl
@[simp] theorem setScrubx_rings (u m : Nat) (x : ScrubX) : (s.setScrubx u m x).rings = s.rings := rfl
@[simp] theorem setScrubx_cfg (u m : Nat) (x : ScrubX) : (s.setScrubx u m x).cfg = s.cfg := rfl
@[simp] theorem setScrubx_time (u m : Nat) (x : ScrubX) : (s.setScrubx u m x).time = s.time := rfl
@[simp] theorem setScrubx_chip (u m : Nat) (x : ScrubX) : (s.setScrubx u m x).chip = s.chip := rfl
@[simp] theorem setScrubx_lastKey (u m : Nat) (x : ScrubX) : (s.setScrubx u m x).lastKey = s.lastKey := rfl
@[simp] theorem setScrubx_pipes (u m : Nat) (x : ScrubX) : (s.setScrubx u m x).pipes = s.pipes := rfl
@[simp] theorem setScrubx_recirc (u m : Nat) (x : ScrubX) : (s.setScrubx u m x).recirc = s.recirc := rfl
@[simp] theorem setScrubx_tcam (u m : Nat) (x : ScrubX) : (s.setScrubx u m x).tcam = s.tcam := rfl
@[simp] theorem setScrubx_actions (u m : Nat) (x : ScrubX) : (s.setScrubx u m x).actions = s.actions := rfl
@[simp] theorem setScrubx_eps (u m : Nat) (x : ScrubX) : (s.setScrubx u m x).eps = s.eps := rfl
@[simp] theorem setScrubx_routes (u m : Nat) (x : ScrubX) : (s.setScrubx u m x).routes = s.routes := rfl
@[simp] theorem setScrubx_vlans (u m : Nat) (x : ScrubX) : (s.setScrubx u m x).vlans = s.vlans := rfl
@[simp] theorem setScrubx_tbls (u m : Nat) (x : ScrubX) : (s.setScrubx u m x).tbls = s.tbls := rfl
@[simp] theorem setScrubx_slots (u m : Nat) (x : ScrubX) : (s.setScrubx u m x).slots = s.slots := rfl
@[simp] theorem setScrubx_engs (u m : Nat) (x : ScrubX) : (s.setScrubx u m x).engs = s.engs := rfl
@[simp] theorem setScrubx_ctxs (u m : Nat) (x : ScrubX) : (s.setScrubx u m x).ctxs = s.ctxs := rfl
@[simp] theorem setScrubx_hists (u m : Nat) (x : ScrubX) : (s.setScrubx u m x).hists = s.hists := rfl
@[simp] theorem setScrubx_regx (u m : Nat) (x : ScrubX) : (s.setScrubx u m x).regx = s.regx := rfl
@[simp] theorem setScrubx_wind (u m : Nat) (x : ScrubX) : (s.setScrubx u m x).wind = s.wind := rfl
@[simp] theorem setScrubx_discards (u m : Nat) (x : ScrubX) : (s.setScrubx u m x).discards = s.discards := rfl
@[simp] theorem setScrubx_bindErr (u m : Nat) (x : ScrubX) : (s.setScrubx u m x).bindErr = s.bindErr := rfl
@[simp] theorem setScrubx_digs (u m : Nat) (x : ScrubX) : (s.setScrubx u m x).digs = s.digs := rfl
@[simp] theorem setScrubx_pmp2 (u m : Nat) (x : ScrubX) : (s.setScrubx u m x).pmp2 = s.pmp2 := rfl
@[simp] theorem setScrubx_rtHist (u m : Nat) (x : ScrubX) : (s.setScrubx u m x).rtHist = s.rtHist := rfl
@[simp] theorem setScrubx_txs (u m : Nat) (x : ScrubX) : (s.setScrubx u m x).txs = s.txs := rfl
@[simp] theorem setScrubx_hostRx (u m : Nat) (x : ScrubX) : (s.setScrubx u m x).hostRx = s.hostRx := rfl
@[simp] theorem setScrubx_rrHost (u m : Nat) (x : ScrubX) : (s.setScrubx u m x).rrHost = s.rrHost := rfl
@[simp] theorem setScrubx_pports (u m : Nat) (x : ScrubX) : (s.setScrubx u m x).pports = s.pports := rfl
@[simp] theorem setScrubx_links (u m : Nat) (x : ScrubX) : (s.setScrubx u m x).links = s.links := rfl
@[simp] theorem setScrubx_lanes (u m : Nat) (x : ScrubX) : (s.setScrubx u m x).lanes = s.lanes := rfl
@[simp] theorem setScrubx_mcBad (u m : Nat) (x : ScrubX) : (s.setScrubx u m x).mcBad = s.mcBad := rfl
@[simp] theorem setScrubx_pairx (u m : Nat) (x : ScrubX) : (s.setScrubx u m x).pairx = s.pairx := rfl
@[simp] theorem setScrubx_hbmPc (u m : Nat) (x : ScrubX) : (s.setScrubx u m x).hbmPc = s.hbmPc := rfl
@[simp] theorem setScrubx_hbmx (u m : Nat) (x : ScrubX) : (s.setScrubx u m x).hbmx = s.hbmx := rfl
@[simp] theorem setScrubx_passes (u m : Nat) (x : ScrubX) : (s.setScrubx u m x).passes = s.passes := rfl
@[simp] theorem setScrubx_pwr (u m : Nat) (x : ScrubX) : (s.setScrubx u m x).pwr = s.pwr := rfl
@[simp] theorem setScrubx_tapx (u m : Nat) (x : ScrubX) : (s.setScrubx u m x).tapx = s.tapx := rfl
@[simp] theorem setScrubx_countx (u m : Nat) (x : ScrubX) : (s.setScrubx u m x).countx = s.countx := rfl
@[simp] theorem setScrubx_free (u m : Nat) (x : ScrubX) : (s.setScrubx u m x).free = s.free := rfl
@[simp] theorem setScrubx_pending (u m : Nat) (x : ScrubX) : (s.setScrubx u m x).pending = s.pending := rfl
@[simp] theorem reg_setScrubx (u m : Nat) (x : ScrubX) (k : Nat) : (s.setScrubx u m x).reg k = s.reg k := rfl
@[simp] theorem rf_setScrubx (u m : Nat) (x : ScrubX) (h : Fld) : (s.setScrubx u m x).rf h = s.rf h := rfl
@[simp] theorem rb_setScrubx (u m : Nat) (x : ScrubX) (h : Fld) : (s.setScrubx u m x).rb h = s.rb h := rfl
@[simp] theorem regsCanon_setScrubx (u m : Nat) (x : ScrubX) : (s.setScrubx u m x).regsCanon = s.regsCanon := rfl

/-! `withRegs` -/

@[simp] theorem withRegs_latch (x : List (Nat × Word)) : (s.withRegs x).latch = s.latch := rfl
@[simp] theorem withRegs_hold (x : List (Nat × Word)) : (s.withRegs x).hold = s.hold := rfl
@[simp] theorem withRegs_readData (x : List (Nat × Word)) : (s.withRegs x).readData = s.readData := rfl
@[simp] theorem withRegs_hostMem (x : List (Nat × Word)) : (s.withRegs x).hostMem = s.hostMem := rfl
@[simp] theorem withRegs_outputs (x : List (Nat × Word)) : (s.withRegs x).outputs = s.outputs := rfl
@[simp] theorem withRegs_evts (x : List (Nat × Word)) : (s.withRegs x).evts = s.evts := rfl
@[simp] theorem withRegs_rings (x : List (Nat × Word)) : (s.withRegs x).rings = s.rings := rfl
@[simp] theorem withRegs_cfg (x : List (Nat × Word)) : (s.withRegs x).cfg = s.cfg := rfl
@[simp] theorem withRegs_time (x : List (Nat × Word)) : (s.withRegs x).time = s.time := rfl
@[simp] theorem withRegs_chip (x : List (Nat × Word)) : (s.withRegs x).chip = s.chip := rfl
@[simp] theorem withRegs_lastKey (x : List (Nat × Word)) : (s.withRegs x).lastKey = s.lastKey := rfl
@[simp] theorem withRegs_pipes (x : List (Nat × Word)) : (s.withRegs x).pipes = s.pipes := rfl
@[simp] theorem withRegs_recirc (x : List (Nat × Word)) : (s.withRegs x).recirc = s.recirc := rfl
@[simp] theorem withRegs_tcam (x : List (Nat × Word)) : (s.withRegs x).tcam = s.tcam := rfl
@[simp] theorem withRegs_actions (x : List (Nat × Word)) : (s.withRegs x).actions = s.actions := rfl
@[simp] theorem withRegs_eps (x : List (Nat × Word)) : (s.withRegs x).eps = s.eps := rfl
@[simp] theorem withRegs_routes (x : List (Nat × Word)) : (s.withRegs x).routes = s.routes := rfl
@[simp] theorem withRegs_vlans (x : List (Nat × Word)) : (s.withRegs x).vlans = s.vlans := rfl
@[simp] theorem withRegs_tbls (x : List (Nat × Word)) : (s.withRegs x).tbls = s.tbls := rfl
@[simp] theorem withRegs_slots (x : List (Nat × Word)) : (s.withRegs x).slots = s.slots := rfl
@[simp] theorem withRegs_engs (x : List (Nat × Word)) : (s.withRegs x).engs = s.engs := rfl
@[simp] theorem withRegs_ctxs (x : List (Nat × Word)) : (s.withRegs x).ctxs = s.ctxs := rfl
@[simp] theorem withRegs_hists (x : List (Nat × Word)) : (s.withRegs x).hists = s.hists := rfl
@[simp] theorem withRegs_regx (x : List (Nat × Word)) : (s.withRegs x).regx = s.regx := rfl
@[simp] theorem withRegs_wind (x : List (Nat × Word)) : (s.withRegs x).wind = s.wind := rfl
@[simp] theorem withRegs_discards (x : List (Nat × Word)) : (s.withRegs x).discards = s.discards := rfl
@[simp] theorem withRegs_bindErr (x : List (Nat × Word)) : (s.withRegs x).bindErr = s.bindErr := rfl
@[simp] theorem withRegs_digs (x : List (Nat × Word)) : (s.withRegs x).digs = s.digs := rfl
@[simp] theorem withRegs_pmp2 (x : List (Nat × Word)) : (s.withRegs x).pmp2 = s.pmp2 := rfl
@[simp] theorem withRegs_rtHist (x : List (Nat × Word)) : (s.withRegs x).rtHist = s.rtHist := rfl
@[simp] theorem withRegs_txs (x : List (Nat × Word)) : (s.withRegs x).txs = s.txs := rfl
@[simp] theorem withRegs_hostRx (x : List (Nat × Word)) : (s.withRegs x).hostRx = s.hostRx := rfl
@[simp] theorem withRegs_rrHost (x : List (Nat × Word)) : (s.withRegs x).rrHost = s.rrHost := rfl
@[simp] theorem withRegs_pports (x : List (Nat × Word)) : (s.withRegs x).pports = s.pports := rfl
@[simp] theorem withRegs_links (x : List (Nat × Word)) : (s.withRegs x).links = s.links := rfl
@[simp] theorem withRegs_lanes (x : List (Nat × Word)) : (s.withRegs x).lanes = s.lanes := rfl
@[simp] theorem withRegs_mcBad (x : List (Nat × Word)) : (s.withRegs x).mcBad = s.mcBad := rfl
@[simp] theorem withRegs_pairx (x : List (Nat × Word)) : (s.withRegs x).pairx = s.pairx := rfl
@[simp] theorem withRegs_hbmPc (x : List (Nat × Word)) : (s.withRegs x).hbmPc = s.hbmPc := rfl
@[simp] theorem withRegs_hbmx (x : List (Nat × Word)) : (s.withRegs x).hbmx = s.hbmx := rfl
@[simp] theorem withRegs_scrub (x : List (Nat × Word)) : (s.withRegs x).scrub = s.scrub := rfl
@[simp] theorem withRegs_passes (x : List (Nat × Word)) : (s.withRegs x).passes = s.passes := rfl
@[simp] theorem withRegs_pwr (x : List (Nat × Word)) : (s.withRegs x).pwr = s.pwr := rfl
@[simp] theorem withRegs_tapx (x : List (Nat × Word)) : (s.withRegs x).tapx = s.tapx := rfl
@[simp] theorem withRegs_countx (x : List (Nat × Word)) : (s.withRegs x).countx = s.countx := rfl
@[simp] theorem withRegs_free (x : List (Nat × Word)) : (s.withRegs x).free = s.free := rfl
@[simp] theorem withRegs_pending (x : List (Nat × Word)) : (s.withRegs x).pending = s.pending := rfl

/-! `withLatch` -/

@[simp] theorem withLatch_regs (x : List (Nat × Word)) : (s.withLatch x).regs = s.regs := rfl
@[simp] theorem withLatch_hold (x : List (Nat × Word)) : (s.withLatch x).hold = s.hold := rfl
@[simp] theorem withLatch_readData (x : List (Nat × Word)) : (s.withLatch x).readData = s.readData := rfl
@[simp] theorem withLatch_hostMem (x : List (Nat × Word)) : (s.withLatch x).hostMem = s.hostMem := rfl
@[simp] theorem withLatch_outputs (x : List (Nat × Word)) : (s.withLatch x).outputs = s.outputs := rfl
@[simp] theorem withLatch_evts (x : List (Nat × Word)) : (s.withLatch x).evts = s.evts := rfl
@[simp] theorem withLatch_rings (x : List (Nat × Word)) : (s.withLatch x).rings = s.rings := rfl
@[simp] theorem withLatch_cfg (x : List (Nat × Word)) : (s.withLatch x).cfg = s.cfg := rfl
@[simp] theorem withLatch_time (x : List (Nat × Word)) : (s.withLatch x).time = s.time := rfl
@[simp] theorem withLatch_chip (x : List (Nat × Word)) : (s.withLatch x).chip = s.chip := rfl
@[simp] theorem withLatch_lastKey (x : List (Nat × Word)) : (s.withLatch x).lastKey = s.lastKey := rfl
@[simp] theorem withLatch_pipes (x : List (Nat × Word)) : (s.withLatch x).pipes = s.pipes := rfl
@[simp] theorem withLatch_recirc (x : List (Nat × Word)) : (s.withLatch x).recirc = s.recirc := rfl
@[simp] theorem withLatch_tcam (x : List (Nat × Word)) : (s.withLatch x).tcam = s.tcam := rfl
@[simp] theorem withLatch_actions (x : List (Nat × Word)) : (s.withLatch x).actions = s.actions := rfl
@[simp] theorem withLatch_eps (x : List (Nat × Word)) : (s.withLatch x).eps = s.eps := rfl
@[simp] theorem withLatch_routes (x : List (Nat × Word)) : (s.withLatch x).routes = s.routes := rfl
@[simp] theorem withLatch_vlans (x : List (Nat × Word)) : (s.withLatch x).vlans = s.vlans := rfl
@[simp] theorem withLatch_tbls (x : List (Nat × Word)) : (s.withLatch x).tbls = s.tbls := rfl
@[simp] theorem withLatch_slots (x : List (Nat × Word)) : (s.withLatch x).slots = s.slots := rfl
@[simp] theorem withLatch_engs (x : List (Nat × Word)) : (s.withLatch x).engs = s.engs := rfl
@[simp] theorem withLatch_ctxs (x : List (Nat × Word)) : (s.withLatch x).ctxs = s.ctxs := rfl
@[simp] theorem withLatch_hists (x : List (Nat × Word)) : (s.withLatch x).hists = s.hists := rfl
@[simp] theorem withLatch_regx (x : List (Nat × Word)) : (s.withLatch x).regx = s.regx := rfl
@[simp] theorem withLatch_wind (x : List (Nat × Word)) : (s.withLatch x).wind = s.wind := rfl
@[simp] theorem withLatch_discards (x : List (Nat × Word)) : (s.withLatch x).discards = s.discards := rfl
@[simp] theorem withLatch_bindErr (x : List (Nat × Word)) : (s.withLatch x).bindErr = s.bindErr := rfl
@[simp] theorem withLatch_digs (x : List (Nat × Word)) : (s.withLatch x).digs = s.digs := rfl
@[simp] theorem withLatch_pmp2 (x : List (Nat × Word)) : (s.withLatch x).pmp2 = s.pmp2 := rfl
@[simp] theorem withLatch_rtHist (x : List (Nat × Word)) : (s.withLatch x).rtHist = s.rtHist := rfl
@[simp] theorem withLatch_txs (x : List (Nat × Word)) : (s.withLatch x).txs = s.txs := rfl
@[simp] theorem withLatch_hostRx (x : List (Nat × Word)) : (s.withLatch x).hostRx = s.hostRx := rfl
@[simp] theorem withLatch_rrHost (x : List (Nat × Word)) : (s.withLatch x).rrHost = s.rrHost := rfl
@[simp] theorem withLatch_pports (x : List (Nat × Word)) : (s.withLatch x).pports = s.pports := rfl
@[simp] theorem withLatch_links (x : List (Nat × Word)) : (s.withLatch x).links = s.links := rfl
@[simp] theorem withLatch_lanes (x : List (Nat × Word)) : (s.withLatch x).lanes = s.lanes := rfl
@[simp] theorem withLatch_mcBad (x : List (Nat × Word)) : (s.withLatch x).mcBad = s.mcBad := rfl
@[simp] theorem withLatch_pairx (x : List (Nat × Word)) : (s.withLatch x).pairx = s.pairx := rfl
@[simp] theorem withLatch_hbmPc (x : List (Nat × Word)) : (s.withLatch x).hbmPc = s.hbmPc := rfl
@[simp] theorem withLatch_hbmx (x : List (Nat × Word)) : (s.withLatch x).hbmx = s.hbmx := rfl
@[simp] theorem withLatch_scrub (x : List (Nat × Word)) : (s.withLatch x).scrub = s.scrub := rfl
@[simp] theorem withLatch_passes (x : List (Nat × Word)) : (s.withLatch x).passes = s.passes := rfl
@[simp] theorem withLatch_pwr (x : List (Nat × Word)) : (s.withLatch x).pwr = s.pwr := rfl
@[simp] theorem withLatch_tapx (x : List (Nat × Word)) : (s.withLatch x).tapx = s.tapx := rfl
@[simp] theorem withLatch_countx (x : List (Nat × Word)) : (s.withLatch x).countx = s.countx := rfl
@[simp] theorem withLatch_free (x : List (Nat × Word)) : (s.withLatch x).free = s.free := rfl
@[simp] theorem withLatch_pending (x : List (Nat × Word)) : (s.withLatch x).pending = s.pending := rfl
@[simp] theorem reg_withLatch (x : List (Nat × Word)) (k : Nat) : (s.withLatch x).reg k = s.reg k := rfl
@[simp] theorem rf_withLatch (x : List (Nat × Word)) (h : Fld) : (s.withLatch x).rf h = s.rf h := rfl
@[simp] theorem rb_withLatch (x : List (Nat × Word)) (h : Fld) : (s.withLatch x).rb h = s.rb h := rfl
@[simp] theorem regsCanon_withLatch (x : List (Nat × Word)) : (s.withLatch x).regsCanon = s.regsCanon := rfl

/-! `withHold` -/

@[simp] theorem withHold_regs (x : List (Nat × Option Word)) : (s.withHold x).regs = s.regs := rfl
@[simp] theorem withHold_latch (x : List (Nat × Option Word)) : (s.withHold x).latch = s.latch := rfl
@[simp] theorem withHold_readData (x : List (Nat × Option Word)) : (s.withHold x).readData = s.readData := rfl
@[simp] theorem withHold_hostMem (x : List (Nat × Option Word)) : (s.withHold x).hostMem = s.hostMem := rfl
@[simp] theorem withHold_outputs (x : List (Nat × Option Word)) : (s.withHold x).outputs = s.outputs := rfl
@[simp] theorem withHold_evts (x : List (Nat × Option Word)) : (s.withHold x).evts = s.evts := rfl
@[simp] theorem withHold_rings (x : List (Nat × Option Word)) : (s.withHold x).rings = s.rings := rfl
@[simp] theorem withHold_cfg (x : List (Nat × Option Word)) : (s.withHold x).cfg = s.cfg := rfl
@[simp] theorem withHold_time (x : List (Nat × Option Word)) : (s.withHold x).time = s.time := rfl
@[simp] theorem withHold_chip (x : List (Nat × Option Word)) : (s.withHold x).chip = s.chip := rfl
@[simp] theorem withHold_lastKey (x : List (Nat × Option Word)) : (s.withHold x).lastKey = s.lastKey := rfl
@[simp] theorem withHold_pipes (x : List (Nat × Option Word)) : (s.withHold x).pipes = s.pipes := rfl
@[simp] theorem withHold_recirc (x : List (Nat × Option Word)) : (s.withHold x).recirc = s.recirc := rfl
@[simp] theorem withHold_tcam (x : List (Nat × Option Word)) : (s.withHold x).tcam = s.tcam := rfl
@[simp] theorem withHold_actions (x : List (Nat × Option Word)) : (s.withHold x).actions = s.actions := rfl
@[simp] theorem withHold_eps (x : List (Nat × Option Word)) : (s.withHold x).eps = s.eps := rfl
@[simp] theorem withHold_routes (x : List (Nat × Option Word)) : (s.withHold x).routes = s.routes := rfl
@[simp] theorem withHold_vlans (x : List (Nat × Option Word)) : (s.withHold x).vlans = s.vlans := rfl
@[simp] theorem withHold_tbls (x : List (Nat × Option Word)) : (s.withHold x).tbls = s.tbls := rfl
@[simp] theorem withHold_slots (x : List (Nat × Option Word)) : (s.withHold x).slots = s.slots := rfl
@[simp] theorem withHold_engs (x : List (Nat × Option Word)) : (s.withHold x).engs = s.engs := rfl
@[simp] theorem withHold_ctxs (x : List (Nat × Option Word)) : (s.withHold x).ctxs = s.ctxs := rfl
@[simp] theorem withHold_hists (x : List (Nat × Option Word)) : (s.withHold x).hists = s.hists := rfl
@[simp] theorem withHold_regx (x : List (Nat × Option Word)) : (s.withHold x).regx = s.regx := rfl
@[simp] theorem withHold_wind (x : List (Nat × Option Word)) : (s.withHold x).wind = s.wind := rfl
@[simp] theorem withHold_discards (x : List (Nat × Option Word)) : (s.withHold x).discards = s.discards := rfl
@[simp] theorem withHold_bindErr (x : List (Nat × Option Word)) : (s.withHold x).bindErr = s.bindErr := rfl
@[simp] theorem withHold_digs (x : List (Nat × Option Word)) : (s.withHold x).digs = s.digs := rfl
@[simp] theorem withHold_pmp2 (x : List (Nat × Option Word)) : (s.withHold x).pmp2 = s.pmp2 := rfl
@[simp] theorem withHold_rtHist (x : List (Nat × Option Word)) : (s.withHold x).rtHist = s.rtHist := rfl
@[simp] theorem withHold_txs (x : List (Nat × Option Word)) : (s.withHold x).txs = s.txs := rfl
@[simp] theorem withHold_hostRx (x : List (Nat × Option Word)) : (s.withHold x).hostRx = s.hostRx := rfl
@[simp] theorem withHold_rrHost (x : List (Nat × Option Word)) : (s.withHold x).rrHost = s.rrHost := rfl
@[simp] theorem withHold_pports (x : List (Nat × Option Word)) : (s.withHold x).pports = s.pports := rfl
@[simp] theorem withHold_links (x : List (Nat × Option Word)) : (s.withHold x).links = s.links := rfl
@[simp] theorem withHold_lanes (x : List (Nat × Option Word)) : (s.withHold x).lanes = s.lanes := rfl
@[simp] theorem withHold_mcBad (x : List (Nat × Option Word)) : (s.withHold x).mcBad = s.mcBad := rfl
@[simp] theorem withHold_pairx (x : List (Nat × Option Word)) : (s.withHold x).pairx = s.pairx := rfl
@[simp] theorem withHold_hbmPc (x : List (Nat × Option Word)) : (s.withHold x).hbmPc = s.hbmPc := rfl
@[simp] theorem withHold_hbmx (x : List (Nat × Option Word)) : (s.withHold x).hbmx = s.hbmx := rfl
@[simp] theorem withHold_scrub (x : List (Nat × Option Word)) : (s.withHold x).scrub = s.scrub := rfl
@[simp] theorem withHold_passes (x : List (Nat × Option Word)) : (s.withHold x).passes = s.passes := rfl
@[simp] theorem withHold_pwr (x : List (Nat × Option Word)) : (s.withHold x).pwr = s.pwr := rfl
@[simp] theorem withHold_tapx (x : List (Nat × Option Word)) : (s.withHold x).tapx = s.tapx := rfl
@[simp] theorem withHold_countx (x : List (Nat × Option Word)) : (s.withHold x).countx = s.countx := rfl
@[simp] theorem withHold_free (x : List (Nat × Option Word)) : (s.withHold x).free = s.free := rfl
@[simp] theorem withHold_pending (x : List (Nat × Option Word)) : (s.withHold x).pending = s.pending := rfl
@[simp] theorem reg_withHold (x : List (Nat × Option Word)) (k : Nat) : (s.withHold x).reg k = s.reg k := rfl
@[simp] theorem rf_withHold (x : List (Nat × Option Word)) (h : Fld) : (s.withHold x).rf h = s.rf h := rfl
@[simp] theorem rb_withHold (x : List (Nat × Option Word)) (h : Fld) : (s.withHold x).rb h = s.rb h := rfl
@[simp] theorem regsCanon_withHold (x : List (Nat × Option Word)) : (s.withHold x).regsCanon = s.regsCanon := rfl

/-! `withReadData` -/

@[simp] theorem withReadData_regs (x : List Word) : (s.withReadData x).regs = s.regs := rfl
@[simp] theorem withReadData_latch (x : List Word) : (s.withReadData x).latch = s.latch := rfl
@[simp] theorem withReadData_hold (x : List Word) : (s.withReadData x).hold = s.hold := rfl
@[simp] theorem withReadData_hostMem (x : List Word) : (s.withReadData x).hostMem = s.hostMem := rfl
@[simp] theorem withReadData_outputs (x : List Word) : (s.withReadData x).outputs = s.outputs := rfl
@[simp] theorem withReadData_evts (x : List Word) : (s.withReadData x).evts = s.evts := rfl
@[simp] theorem withReadData_rings (x : List Word) : (s.withReadData x).rings = s.rings := rfl
@[simp] theorem withReadData_cfg (x : List Word) : (s.withReadData x).cfg = s.cfg := rfl
@[simp] theorem withReadData_time (x : List Word) : (s.withReadData x).time = s.time := rfl
@[simp] theorem withReadData_chip (x : List Word) : (s.withReadData x).chip = s.chip := rfl
@[simp] theorem withReadData_lastKey (x : List Word) : (s.withReadData x).lastKey = s.lastKey := rfl
@[simp] theorem withReadData_pipes (x : List Word) : (s.withReadData x).pipes = s.pipes := rfl
@[simp] theorem withReadData_recirc (x : List Word) : (s.withReadData x).recirc = s.recirc := rfl
@[simp] theorem withReadData_tcam (x : List Word) : (s.withReadData x).tcam = s.tcam := rfl
@[simp] theorem withReadData_actions (x : List Word) : (s.withReadData x).actions = s.actions := rfl
@[simp] theorem withReadData_eps (x : List Word) : (s.withReadData x).eps = s.eps := rfl
@[simp] theorem withReadData_routes (x : List Word) : (s.withReadData x).routes = s.routes := rfl
@[simp] theorem withReadData_vlans (x : List Word) : (s.withReadData x).vlans = s.vlans := rfl
@[simp] theorem withReadData_tbls (x : List Word) : (s.withReadData x).tbls = s.tbls := rfl
@[simp] theorem withReadData_slots (x : List Word) : (s.withReadData x).slots = s.slots := rfl
@[simp] theorem withReadData_engs (x : List Word) : (s.withReadData x).engs = s.engs := rfl
@[simp] theorem withReadData_ctxs (x : List Word) : (s.withReadData x).ctxs = s.ctxs := rfl
@[simp] theorem withReadData_hists (x : List Word) : (s.withReadData x).hists = s.hists := rfl
@[simp] theorem withReadData_regx (x : List Word) : (s.withReadData x).regx = s.regx := rfl
@[simp] theorem withReadData_wind (x : List Word) : (s.withReadData x).wind = s.wind := rfl
@[simp] theorem withReadData_discards (x : List Word) : (s.withReadData x).discards = s.discards := rfl
@[simp] theorem withReadData_bindErr (x : List Word) : (s.withReadData x).bindErr = s.bindErr := rfl
@[simp] theorem withReadData_digs (x : List Word) : (s.withReadData x).digs = s.digs := rfl
@[simp] theorem withReadData_pmp2 (x : List Word) : (s.withReadData x).pmp2 = s.pmp2 := rfl
@[simp] theorem withReadData_rtHist (x : List Word) : (s.withReadData x).rtHist = s.rtHist := rfl
@[simp] theorem withReadData_txs (x : List Word) : (s.withReadData x).txs = s.txs := rfl
@[simp] theorem withReadData_hostRx (x : List Word) : (s.withReadData x).hostRx = s.hostRx := rfl
@[simp] theorem withReadData_rrHost (x : List Word) : (s.withReadData x).rrHost = s.rrHost := rfl
@[simp] theorem withReadData_pports (x : List Word) : (s.withReadData x).pports = s.pports := rfl
@[simp] theorem withReadData_links (x : List Word) : (s.withReadData x).links = s.links := rfl
@[simp] theorem withReadData_lanes (x : List Word) : (s.withReadData x).lanes = s.lanes := rfl
@[simp] theorem withReadData_mcBad (x : List Word) : (s.withReadData x).mcBad = s.mcBad := rfl
@[simp] theorem withReadData_pairx (x : List Word) : (s.withReadData x).pairx = s.pairx := rfl
@[simp] theorem withReadData_hbmPc (x : List Word) : (s.withReadData x).hbmPc = s.hbmPc := rfl
@[simp] theorem withReadData_hbmx (x : List Word) : (s.withReadData x).hbmx = s.hbmx := rfl
@[simp] theorem withReadData_scrub (x : List Word) : (s.withReadData x).scrub = s.scrub := rfl
@[simp] theorem withReadData_passes (x : List Word) : (s.withReadData x).passes = s.passes := rfl
@[simp] theorem withReadData_pwr (x : List Word) : (s.withReadData x).pwr = s.pwr := rfl
@[simp] theorem withReadData_tapx (x : List Word) : (s.withReadData x).tapx = s.tapx := rfl
@[simp] theorem withReadData_countx (x : List Word) : (s.withReadData x).countx = s.countx := rfl
@[simp] theorem withReadData_free (x : List Word) : (s.withReadData x).free = s.free := rfl
@[simp] theorem withReadData_pending (x : List Word) : (s.withReadData x).pending = s.pending := rfl
@[simp] theorem reg_withReadData (x : List Word) (k : Nat) : (s.withReadData x).reg k = s.reg k := rfl
@[simp] theorem rf_withReadData (x : List Word) (h : Fld) : (s.withReadData x).rf h = s.rf h := rfl
@[simp] theorem rb_withReadData (x : List Word) (h : Fld) : (s.withReadData x).rb h = s.rb h := rfl
@[simp] theorem regsCanon_withReadData (x : List Word) : (s.withReadData x).regsCanon = s.regsCanon := rfl

/-! `withHostMem` -/

@[simp] theorem withHostMem_regs (x : List (Nat × Byte)) : (s.withHostMem x).regs = s.regs := rfl
@[simp] theorem withHostMem_latch (x : List (Nat × Byte)) : (s.withHostMem x).latch = s.latch := rfl
@[simp] theorem withHostMem_hold (x : List (Nat × Byte)) : (s.withHostMem x).hold = s.hold := rfl
@[simp] theorem withHostMem_readData (x : List (Nat × Byte)) : (s.withHostMem x).readData = s.readData := rfl
@[simp] theorem withHostMem_outputs (x : List (Nat × Byte)) : (s.withHostMem x).outputs = s.outputs := rfl
@[simp] theorem withHostMem_evts (x : List (Nat × Byte)) : (s.withHostMem x).evts = s.evts := rfl
@[simp] theorem withHostMem_rings (x : List (Nat × Byte)) : (s.withHostMem x).rings = s.rings := rfl
@[simp] theorem withHostMem_cfg (x : List (Nat × Byte)) : (s.withHostMem x).cfg = s.cfg := rfl
@[simp] theorem withHostMem_time (x : List (Nat × Byte)) : (s.withHostMem x).time = s.time := rfl
@[simp] theorem withHostMem_chip (x : List (Nat × Byte)) : (s.withHostMem x).chip = s.chip := rfl
@[simp] theorem withHostMem_lastKey (x : List (Nat × Byte)) : (s.withHostMem x).lastKey = s.lastKey := rfl
@[simp] theorem withHostMem_pipes (x : List (Nat × Byte)) : (s.withHostMem x).pipes = s.pipes := rfl
@[simp] theorem withHostMem_recirc (x : List (Nat × Byte)) : (s.withHostMem x).recirc = s.recirc := rfl
@[simp] theorem withHostMem_tcam (x : List (Nat × Byte)) : (s.withHostMem x).tcam = s.tcam := rfl
@[simp] theorem withHostMem_actions (x : List (Nat × Byte)) : (s.withHostMem x).actions = s.actions := rfl
@[simp] theorem withHostMem_eps (x : List (Nat × Byte)) : (s.withHostMem x).eps = s.eps := rfl
@[simp] theorem withHostMem_routes (x : List (Nat × Byte)) : (s.withHostMem x).routes = s.routes := rfl
@[simp] theorem withHostMem_vlans (x : List (Nat × Byte)) : (s.withHostMem x).vlans = s.vlans := rfl
@[simp] theorem withHostMem_tbls (x : List (Nat × Byte)) : (s.withHostMem x).tbls = s.tbls := rfl
@[simp] theorem withHostMem_slots (x : List (Nat × Byte)) : (s.withHostMem x).slots = s.slots := rfl
@[simp] theorem withHostMem_engs (x : List (Nat × Byte)) : (s.withHostMem x).engs = s.engs := rfl
@[simp] theorem withHostMem_ctxs (x : List (Nat × Byte)) : (s.withHostMem x).ctxs = s.ctxs := rfl
@[simp] theorem withHostMem_hists (x : List (Nat × Byte)) : (s.withHostMem x).hists = s.hists := rfl
@[simp] theorem withHostMem_regx (x : List (Nat × Byte)) : (s.withHostMem x).regx = s.regx := rfl
@[simp] theorem withHostMem_wind (x : List (Nat × Byte)) : (s.withHostMem x).wind = s.wind := rfl
@[simp] theorem withHostMem_discards (x : List (Nat × Byte)) : (s.withHostMem x).discards = s.discards := rfl
@[simp] theorem withHostMem_bindErr (x : List (Nat × Byte)) : (s.withHostMem x).bindErr = s.bindErr := rfl
@[simp] theorem withHostMem_digs (x : List (Nat × Byte)) : (s.withHostMem x).digs = s.digs := rfl
@[simp] theorem withHostMem_pmp2 (x : List (Nat × Byte)) : (s.withHostMem x).pmp2 = s.pmp2 := rfl
@[simp] theorem withHostMem_rtHist (x : List (Nat × Byte)) : (s.withHostMem x).rtHist = s.rtHist := rfl
@[simp] theorem withHostMem_txs (x : List (Nat × Byte)) : (s.withHostMem x).txs = s.txs := rfl
@[simp] theorem withHostMem_hostRx (x : List (Nat × Byte)) : (s.withHostMem x).hostRx = s.hostRx := rfl
@[simp] theorem withHostMem_rrHost (x : List (Nat × Byte)) : (s.withHostMem x).rrHost = s.rrHost := rfl
@[simp] theorem withHostMem_pports (x : List (Nat × Byte)) : (s.withHostMem x).pports = s.pports := rfl
@[simp] theorem withHostMem_links (x : List (Nat × Byte)) : (s.withHostMem x).links = s.links := rfl
@[simp] theorem withHostMem_lanes (x : List (Nat × Byte)) : (s.withHostMem x).lanes = s.lanes := rfl
@[simp] theorem withHostMem_mcBad (x : List (Nat × Byte)) : (s.withHostMem x).mcBad = s.mcBad := rfl
@[simp] theorem withHostMem_pairx (x : List (Nat × Byte)) : (s.withHostMem x).pairx = s.pairx := rfl
@[simp] theorem withHostMem_hbmPc (x : List (Nat × Byte)) : (s.withHostMem x).hbmPc = s.hbmPc := rfl
@[simp] theorem withHostMem_hbmx (x : List (Nat × Byte)) : (s.withHostMem x).hbmx = s.hbmx := rfl
@[simp] theorem withHostMem_scrub (x : List (Nat × Byte)) : (s.withHostMem x).scrub = s.scrub := rfl
@[simp] theorem withHostMem_passes (x : List (Nat × Byte)) : (s.withHostMem x).passes = s.passes := rfl
@[simp] theorem withHostMem_pwr (x : List (Nat × Byte)) : (s.withHostMem x).pwr = s.pwr := rfl
@[simp] theorem withHostMem_tapx (x : List (Nat × Byte)) : (s.withHostMem x).tapx = s.tapx := rfl
@[simp] theorem withHostMem_countx (x : List (Nat × Byte)) : (s.withHostMem x).countx = s.countx := rfl
@[simp] theorem withHostMem_free (x : List (Nat × Byte)) : (s.withHostMem x).free = s.free := rfl
@[simp] theorem withHostMem_pending (x : List (Nat × Byte)) : (s.withHostMem x).pending = s.pending := rfl
@[simp] theorem reg_withHostMem (x : List (Nat × Byte)) (k : Nat) : (s.withHostMem x).reg k = s.reg k := rfl
@[simp] theorem rf_withHostMem (x : List (Nat × Byte)) (h : Fld) : (s.withHostMem x).rf h = s.rf h := rfl
@[simp] theorem rb_withHostMem (x : List (Nat × Byte)) (h : Fld) : (s.withHostMem x).rb h = s.rb h := rfl
@[simp] theorem regsCanon_withHostMem (x : List (Nat × Byte)) : (s.withHostMem x).regsCanon = s.regsCanon := rfl

/-! `withEvts` -/

@[simp] theorem withEvts_regs (x : List EvtRec) : (s.withEvts x).regs = s.regs := rfl
@[simp] theorem withEvts_latch (x : List EvtRec) : (s.withEvts x).latch = s.latch := rfl
@[simp] theorem withEvts_hold (x : List EvtRec) : (s.withEvts x).hold = s.hold := rfl
@[simp] theorem withEvts_readData (x : List EvtRec) : (s.withEvts x).readData = s.readData := rfl
@[simp] theorem withEvts_hostMem (x : List EvtRec) : (s.withEvts x).hostMem = s.hostMem := rfl
@[simp] theorem withEvts_outputs (x : List EvtRec) : (s.withEvts x).outputs = s.outputs := rfl
@[simp] theorem withEvts_rings (x : List EvtRec) : (s.withEvts x).rings = s.rings := rfl
@[simp] theorem withEvts_cfg (x : List EvtRec) : (s.withEvts x).cfg = s.cfg := rfl
@[simp] theorem withEvts_time (x : List EvtRec) : (s.withEvts x).time = s.time := rfl
@[simp] theorem withEvts_chip (x : List EvtRec) : (s.withEvts x).chip = s.chip := rfl
@[simp] theorem withEvts_lastKey (x : List EvtRec) : (s.withEvts x).lastKey = s.lastKey := rfl
@[simp] theorem withEvts_pipes (x : List EvtRec) : (s.withEvts x).pipes = s.pipes := rfl
@[simp] theorem withEvts_recirc (x : List EvtRec) : (s.withEvts x).recirc = s.recirc := rfl
@[simp] theorem withEvts_tcam (x : List EvtRec) : (s.withEvts x).tcam = s.tcam := rfl
@[simp] theorem withEvts_actions (x : List EvtRec) : (s.withEvts x).actions = s.actions := rfl
@[simp] theorem withEvts_eps (x : List EvtRec) : (s.withEvts x).eps = s.eps := rfl
@[simp] theorem withEvts_routes (x : List EvtRec) : (s.withEvts x).routes = s.routes := rfl
@[simp] theorem withEvts_vlans (x : List EvtRec) : (s.withEvts x).vlans = s.vlans := rfl
@[simp] theorem withEvts_tbls (x : List EvtRec) : (s.withEvts x).tbls = s.tbls := rfl
@[simp] theorem withEvts_slots (x : List EvtRec) : (s.withEvts x).slots = s.slots := rfl
@[simp] theorem withEvts_engs (x : List EvtRec) : (s.withEvts x).engs = s.engs := rfl
@[simp] theorem withEvts_ctxs (x : List EvtRec) : (s.withEvts x).ctxs = s.ctxs := rfl
@[simp] theorem withEvts_hists (x : List EvtRec) : (s.withEvts x).hists = s.hists := rfl
@[simp] theorem withEvts_regx (x : List EvtRec) : (s.withEvts x).regx = s.regx := rfl
@[simp] theorem withEvts_wind (x : List EvtRec) : (s.withEvts x).wind = s.wind := rfl
@[simp] theorem withEvts_discards (x : List EvtRec) : (s.withEvts x).discards = s.discards := rfl
@[simp] theorem withEvts_bindErr (x : List EvtRec) : (s.withEvts x).bindErr = s.bindErr := rfl
@[simp] theorem withEvts_digs (x : List EvtRec) : (s.withEvts x).digs = s.digs := rfl
@[simp] theorem withEvts_pmp2 (x : List EvtRec) : (s.withEvts x).pmp2 = s.pmp2 := rfl
@[simp] theorem withEvts_rtHist (x : List EvtRec) : (s.withEvts x).rtHist = s.rtHist := rfl
@[simp] theorem withEvts_txs (x : List EvtRec) : (s.withEvts x).txs = s.txs := rfl
@[simp] theorem withEvts_hostRx (x : List EvtRec) : (s.withEvts x).hostRx = s.hostRx := rfl
@[simp] theorem withEvts_rrHost (x : List EvtRec) : (s.withEvts x).rrHost = s.rrHost := rfl
@[simp] theorem withEvts_pports (x : List EvtRec) : (s.withEvts x).pports = s.pports := rfl
@[simp] theorem withEvts_links (x : List EvtRec) : (s.withEvts x).links = s.links := rfl
@[simp] theorem withEvts_lanes (x : List EvtRec) : (s.withEvts x).lanes = s.lanes := rfl
@[simp] theorem withEvts_mcBad (x : List EvtRec) : (s.withEvts x).mcBad = s.mcBad := rfl
@[simp] theorem withEvts_pairx (x : List EvtRec) : (s.withEvts x).pairx = s.pairx := rfl
@[simp] theorem withEvts_hbmPc (x : List EvtRec) : (s.withEvts x).hbmPc = s.hbmPc := rfl
@[simp] theorem withEvts_hbmx (x : List EvtRec) : (s.withEvts x).hbmx = s.hbmx := rfl
@[simp] theorem withEvts_scrub (x : List EvtRec) : (s.withEvts x).scrub = s.scrub := rfl
@[simp] theorem withEvts_passes (x : List EvtRec) : (s.withEvts x).passes = s.passes := rfl
@[simp] theorem withEvts_pwr (x : List EvtRec) : (s.withEvts x).pwr = s.pwr := rfl
@[simp] theorem withEvts_tapx (x : List EvtRec) : (s.withEvts x).tapx = s.tapx := rfl
@[simp] theorem withEvts_countx (x : List EvtRec) : (s.withEvts x).countx = s.countx := rfl
@[simp] theorem withEvts_free (x : List EvtRec) : (s.withEvts x).free = s.free := rfl
@[simp] theorem withEvts_pending (x : List EvtRec) : (s.withEvts x).pending = s.pending := rfl
@[simp] theorem reg_withEvts (x : List EvtRec) (k : Nat) : (s.withEvts x).reg k = s.reg k := rfl
@[simp] theorem rf_withEvts (x : List EvtRec) (h : Fld) : (s.withEvts x).rf h = s.rf h := rfl
@[simp] theorem rb_withEvts (x : List EvtRec) (h : Fld) : (s.withEvts x).rb h = s.rb h := rfl
@[simp] theorem regsCanon_withEvts (x : List EvtRec) : (s.withEvts x).regsCanon = s.regsCanon := rfl

/-! `withRings` -/

@[simp] theorem withRings_regs (x : List (Nat × RingX)) : (s.withRings x).regs = s.regs := rfl
@[simp] theorem withRings_latch (x : List (Nat × RingX)) : (s.withRings x).latch = s.latch := rfl
@[simp] theorem withRings_hold (x : List (Nat × RingX)) : (s.withRings x).hold = s.hold := rfl
@[simp] theorem withRings_readData (x : List (Nat × RingX)) : (s.withRings x).readData = s.readData := rfl
@[simp] theorem withRings_hostMem (x : List (Nat × RingX)) : (s.withRings x).hostMem = s.hostMem := rfl
@[simp] theorem withRings_outputs (x : List (Nat × RingX)) : (s.withRings x).outputs = s.outputs := rfl
@[simp] theorem withRings_evts (x : List (Nat × RingX)) : (s.withRings x).evts = s.evts := rfl
@[simp] theorem withRings_cfg (x : List (Nat × RingX)) : (s.withRings x).cfg = s.cfg := rfl
@[simp] theorem withRings_time (x : List (Nat × RingX)) : (s.withRings x).time = s.time := rfl
@[simp] theorem withRings_chip (x : List (Nat × RingX)) : (s.withRings x).chip = s.chip := rfl
@[simp] theorem withRings_lastKey (x : List (Nat × RingX)) : (s.withRings x).lastKey = s.lastKey := rfl
@[simp] theorem withRings_pipes (x : List (Nat × RingX)) : (s.withRings x).pipes = s.pipes := rfl
@[simp] theorem withRings_recirc (x : List (Nat × RingX)) : (s.withRings x).recirc = s.recirc := rfl
@[simp] theorem withRings_tcam (x : List (Nat × RingX)) : (s.withRings x).tcam = s.tcam := rfl
@[simp] theorem withRings_actions (x : List (Nat × RingX)) : (s.withRings x).actions = s.actions := rfl
@[simp] theorem withRings_eps (x : List (Nat × RingX)) : (s.withRings x).eps = s.eps := rfl
@[simp] theorem withRings_routes (x : List (Nat × RingX)) : (s.withRings x).routes = s.routes := rfl
@[simp] theorem withRings_vlans (x : List (Nat × RingX)) : (s.withRings x).vlans = s.vlans := rfl
@[simp] theorem withRings_tbls (x : List (Nat × RingX)) : (s.withRings x).tbls = s.tbls := rfl
@[simp] theorem withRings_slots (x : List (Nat × RingX)) : (s.withRings x).slots = s.slots := rfl
@[simp] theorem withRings_engs (x : List (Nat × RingX)) : (s.withRings x).engs = s.engs := rfl
@[simp] theorem withRings_ctxs (x : List (Nat × RingX)) : (s.withRings x).ctxs = s.ctxs := rfl
@[simp] theorem withRings_hists (x : List (Nat × RingX)) : (s.withRings x).hists = s.hists := rfl
@[simp] theorem withRings_regx (x : List (Nat × RingX)) : (s.withRings x).regx = s.regx := rfl
@[simp] theorem withRings_wind (x : List (Nat × RingX)) : (s.withRings x).wind = s.wind := rfl
@[simp] theorem withRings_discards (x : List (Nat × RingX)) : (s.withRings x).discards = s.discards := rfl
@[simp] theorem withRings_bindErr (x : List (Nat × RingX)) : (s.withRings x).bindErr = s.bindErr := rfl
@[simp] theorem withRings_digs (x : List (Nat × RingX)) : (s.withRings x).digs = s.digs := rfl
@[simp] theorem withRings_pmp2 (x : List (Nat × RingX)) : (s.withRings x).pmp2 = s.pmp2 := rfl
@[simp] theorem withRings_rtHist (x : List (Nat × RingX)) : (s.withRings x).rtHist = s.rtHist := rfl
@[simp] theorem withRings_txs (x : List (Nat × RingX)) : (s.withRings x).txs = s.txs := rfl
@[simp] theorem withRings_hostRx (x : List (Nat × RingX)) : (s.withRings x).hostRx = s.hostRx := rfl
@[simp] theorem withRings_rrHost (x : List (Nat × RingX)) : (s.withRings x).rrHost = s.rrHost := rfl
@[simp] theorem withRings_pports (x : List (Nat × RingX)) : (s.withRings x).pports = s.pports := rfl
@[simp] theorem withRings_links (x : List (Nat × RingX)) : (s.withRings x).links = s.links := rfl
@[simp] theorem withRings_lanes (x : List (Nat × RingX)) : (s.withRings x).lanes = s.lanes := rfl
@[simp] theorem withRings_mcBad (x : List (Nat × RingX)) : (s.withRings x).mcBad = s.mcBad := rfl
@[simp] theorem withRings_pairx (x : List (Nat × RingX)) : (s.withRings x).pairx = s.pairx := rfl
@[simp] theorem withRings_hbmPc (x : List (Nat × RingX)) : (s.withRings x).hbmPc = s.hbmPc := rfl
@[simp] theorem withRings_hbmx (x : List (Nat × RingX)) : (s.withRings x).hbmx = s.hbmx := rfl
@[simp] theorem withRings_scrub (x : List (Nat × RingX)) : (s.withRings x).scrub = s.scrub := rfl
@[simp] theorem withRings_passes (x : List (Nat × RingX)) : (s.withRings x).passes = s.passes := rfl
@[simp] theorem withRings_pwr (x : List (Nat × RingX)) : (s.withRings x).pwr = s.pwr := rfl
@[simp] theorem withRings_tapx (x : List (Nat × RingX)) : (s.withRings x).tapx = s.tapx := rfl
@[simp] theorem withRings_countx (x : List (Nat × RingX)) : (s.withRings x).countx = s.countx := rfl
@[simp] theorem withRings_free (x : List (Nat × RingX)) : (s.withRings x).free = s.free := rfl
@[simp] theorem withRings_pending (x : List (Nat × RingX)) : (s.withRings x).pending = s.pending := rfl
@[simp] theorem reg_withRings (x : List (Nat × RingX)) (k : Nat) : (s.withRings x).reg k = s.reg k := rfl
@[simp] theorem rf_withRings (x : List (Nat × RingX)) (h : Fld) : (s.withRings x).rf h = s.rf h := rfl
@[simp] theorem rb_withRings (x : List (Nat × RingX)) (h : Fld) : (s.withRings x).rb h = s.rb h := rfl
@[simp] theorem regsCanon_withRings (x : List (Nat × RingX)) : (s.withRings x).regsCanon = s.regsCanon := rfl

/-! `withCfg` -/

@[simp] theorem withCfg_regs (x : CfgSpace) : (s.withCfg x).regs = s.regs := rfl
@[simp] theorem withCfg_latch (x : CfgSpace) : (s.withCfg x).latch = s.latch := rfl
@[simp] theorem withCfg_hold (x : CfgSpace) : (s.withCfg x).hold = s.hold := rfl
@[simp] theorem withCfg_readData (x : CfgSpace) : (s.withCfg x).readData = s.readData := rfl
@[simp] theorem withCfg_hostMem (x : CfgSpace) : (s.withCfg x).hostMem = s.hostMem := rfl
@[simp] theorem withCfg_outputs (x : CfgSpace) : (s.withCfg x).outputs = s.outputs := rfl
@[simp] theorem withCfg_evts (x : CfgSpace) : (s.withCfg x).evts = s.evts := rfl
@[simp] theorem withCfg_rings (x : CfgSpace) : (s.withCfg x).rings = s.rings := rfl
@[simp] theorem withCfg_time (x : CfgSpace) : (s.withCfg x).time = s.time := rfl
@[simp] theorem withCfg_chip (x : CfgSpace) : (s.withCfg x).chip = s.chip := rfl
@[simp] theorem withCfg_lastKey (x : CfgSpace) : (s.withCfg x).lastKey = s.lastKey := rfl
@[simp] theorem withCfg_pipes (x : CfgSpace) : (s.withCfg x).pipes = s.pipes := rfl
@[simp] theorem withCfg_recirc (x : CfgSpace) : (s.withCfg x).recirc = s.recirc := rfl
@[simp] theorem withCfg_tcam (x : CfgSpace) : (s.withCfg x).tcam = s.tcam := rfl
@[simp] theorem withCfg_actions (x : CfgSpace) : (s.withCfg x).actions = s.actions := rfl
@[simp] theorem withCfg_eps (x : CfgSpace) : (s.withCfg x).eps = s.eps := rfl
@[simp] theorem withCfg_routes (x : CfgSpace) : (s.withCfg x).routes = s.routes := rfl
@[simp] theorem withCfg_vlans (x : CfgSpace) : (s.withCfg x).vlans = s.vlans := rfl
@[simp] theorem withCfg_tbls (x : CfgSpace) : (s.withCfg x).tbls = s.tbls := rfl
@[simp] theorem withCfg_slots (x : CfgSpace) : (s.withCfg x).slots = s.slots := rfl
@[simp] theorem withCfg_engs (x : CfgSpace) : (s.withCfg x).engs = s.engs := rfl
@[simp] theorem withCfg_ctxs (x : CfgSpace) : (s.withCfg x).ctxs = s.ctxs := rfl
@[simp] theorem withCfg_hists (x : CfgSpace) : (s.withCfg x).hists = s.hists := rfl
@[simp] theorem withCfg_regx (x : CfgSpace) : (s.withCfg x).regx = s.regx := rfl
@[simp] theorem withCfg_wind (x : CfgSpace) : (s.withCfg x).wind = s.wind := rfl
@[simp] theorem withCfg_discards (x : CfgSpace) : (s.withCfg x).discards = s.discards := rfl
@[simp] theorem withCfg_bindErr (x : CfgSpace) : (s.withCfg x).bindErr = s.bindErr := rfl
@[simp] theorem withCfg_digs (x : CfgSpace) : (s.withCfg x).digs = s.digs := rfl
@[simp] theorem withCfg_pmp2 (x : CfgSpace) : (s.withCfg x).pmp2 = s.pmp2 := rfl
@[simp] theorem withCfg_rtHist (x : CfgSpace) : (s.withCfg x).rtHist = s.rtHist := rfl
@[simp] theorem withCfg_txs (x : CfgSpace) : (s.withCfg x).txs = s.txs := rfl
@[simp] theorem withCfg_hostRx (x : CfgSpace) : (s.withCfg x).hostRx = s.hostRx := rfl
@[simp] theorem withCfg_rrHost (x : CfgSpace) : (s.withCfg x).rrHost = s.rrHost := rfl
@[simp] theorem withCfg_pports (x : CfgSpace) : (s.withCfg x).pports = s.pports := rfl
@[simp] theorem withCfg_links (x : CfgSpace) : (s.withCfg x).links = s.links := rfl
@[simp] theorem withCfg_lanes (x : CfgSpace) : (s.withCfg x).lanes = s.lanes := rfl
@[simp] theorem withCfg_mcBad (x : CfgSpace) : (s.withCfg x).mcBad = s.mcBad := rfl
@[simp] theorem withCfg_pairx (x : CfgSpace) : (s.withCfg x).pairx = s.pairx := rfl
@[simp] theorem withCfg_hbmPc (x : CfgSpace) : (s.withCfg x).hbmPc = s.hbmPc := rfl
@[simp] theorem withCfg_hbmx (x : CfgSpace) : (s.withCfg x).hbmx = s.hbmx := rfl
@[simp] theorem withCfg_scrub (x : CfgSpace) : (s.withCfg x).scrub = s.scrub := rfl
@[simp] theorem withCfg_passes (x : CfgSpace) : (s.withCfg x).passes = s.passes := rfl
@[simp] theorem withCfg_pwr (x : CfgSpace) : (s.withCfg x).pwr = s.pwr := rfl
@[simp] theorem withCfg_tapx (x : CfgSpace) : (s.withCfg x).tapx = s.tapx := rfl
@[simp] theorem withCfg_countx (x : CfgSpace) : (s.withCfg x).countx = s.countx := rfl
@[simp] theorem withCfg_free (x : CfgSpace) : (s.withCfg x).free = s.free := rfl
@[simp] theorem withCfg_pending (x : CfgSpace) : (s.withCfg x).pending = s.pending := rfl
@[simp] theorem reg_withCfg (x : CfgSpace) (k : Nat) : (s.withCfg x).reg k = s.reg k := rfl
@[simp] theorem rf_withCfg (x : CfgSpace) (h : Fld) : (s.withCfg x).rf h = s.rf h := rfl
@[simp] theorem rb_withCfg (x : CfgSpace) (h : Fld) : (s.withCfg x).rb h = s.rb h := rfl
@[simp] theorem regsCanon_withCfg (x : CfgSpace) : (s.withCfg x).regsCanon = s.regsCanon := rfl

/-! `withTime` -/

@[simp] theorem withTime_regs (x : TimeX) : (s.withTime x).regs = s.regs := rfl
@[simp] theorem withTime_latch (x : TimeX) : (s.withTime x).latch = s.latch := rfl
@[simp] theorem withTime_hold (x : TimeX) : (s.withTime x).hold = s.hold := rfl
@[simp] theorem withTime_readData (x : TimeX) : (s.withTime x).readData = s.readData := rfl
@[simp] theorem withTime_hostMem (x : TimeX) : (s.withTime x).hostMem = s.hostMem := rfl
@[simp] theorem withTime_outputs (x : TimeX) : (s.withTime x).outputs = s.outputs := rfl
@[simp] theorem withTime_evts (x : TimeX) : (s.withTime x).evts = s.evts := rfl
@[simp] theorem withTime_rings (x : TimeX) : (s.withTime x).rings = s.rings := rfl
@[simp] theorem withTime_cfg (x : TimeX) : (s.withTime x).cfg = s.cfg := rfl
@[simp] theorem withTime_chip (x : TimeX) : (s.withTime x).chip = s.chip := rfl
@[simp] theorem withTime_lastKey (x : TimeX) : (s.withTime x).lastKey = s.lastKey := rfl
@[simp] theorem withTime_pipes (x : TimeX) : (s.withTime x).pipes = s.pipes := rfl
@[simp] theorem withTime_recirc (x : TimeX) : (s.withTime x).recirc = s.recirc := rfl
@[simp] theorem withTime_tcam (x : TimeX) : (s.withTime x).tcam = s.tcam := rfl
@[simp] theorem withTime_actions (x : TimeX) : (s.withTime x).actions = s.actions := rfl
@[simp] theorem withTime_eps (x : TimeX) : (s.withTime x).eps = s.eps := rfl
@[simp] theorem withTime_routes (x : TimeX) : (s.withTime x).routes = s.routes := rfl
@[simp] theorem withTime_vlans (x : TimeX) : (s.withTime x).vlans = s.vlans := rfl
@[simp] theorem withTime_tbls (x : TimeX) : (s.withTime x).tbls = s.tbls := rfl
@[simp] theorem withTime_slots (x : TimeX) : (s.withTime x).slots = s.slots := rfl
@[simp] theorem withTime_engs (x : TimeX) : (s.withTime x).engs = s.engs := rfl
@[simp] theorem withTime_ctxs (x : TimeX) : (s.withTime x).ctxs = s.ctxs := rfl
@[simp] theorem withTime_hists (x : TimeX) : (s.withTime x).hists = s.hists := rfl
@[simp] theorem withTime_regx (x : TimeX) : (s.withTime x).regx = s.regx := rfl
@[simp] theorem withTime_wind (x : TimeX) : (s.withTime x).wind = s.wind := rfl
@[simp] theorem withTime_discards (x : TimeX) : (s.withTime x).discards = s.discards := rfl
@[simp] theorem withTime_bindErr (x : TimeX) : (s.withTime x).bindErr = s.bindErr := rfl
@[simp] theorem withTime_digs (x : TimeX) : (s.withTime x).digs = s.digs := rfl
@[simp] theorem withTime_pmp2 (x : TimeX) : (s.withTime x).pmp2 = s.pmp2 := rfl
@[simp] theorem withTime_rtHist (x : TimeX) : (s.withTime x).rtHist = s.rtHist := rfl
@[simp] theorem withTime_txs (x : TimeX) : (s.withTime x).txs = s.txs := rfl
@[simp] theorem withTime_hostRx (x : TimeX) : (s.withTime x).hostRx = s.hostRx := rfl
@[simp] theorem withTime_rrHost (x : TimeX) : (s.withTime x).rrHost = s.rrHost := rfl
@[simp] theorem withTime_pports (x : TimeX) : (s.withTime x).pports = s.pports := rfl
@[simp] theorem withTime_links (x : TimeX) : (s.withTime x).links = s.links := rfl
@[simp] theorem withTime_lanes (x : TimeX) : (s.withTime x).lanes = s.lanes := rfl
@[simp] theorem withTime_mcBad (x : TimeX) : (s.withTime x).mcBad = s.mcBad := rfl
@[simp] theorem withTime_pairx (x : TimeX) : (s.withTime x).pairx = s.pairx := rfl
@[simp] theorem withTime_hbmPc (x : TimeX) : (s.withTime x).hbmPc = s.hbmPc := rfl
@[simp] theorem withTime_hbmx (x : TimeX) : (s.withTime x).hbmx = s.hbmx := rfl
@[simp] theorem withTime_scrub (x : TimeX) : (s.withTime x).scrub = s.scrub := rfl
@[simp] theorem withTime_passes (x : TimeX) : (s.withTime x).passes = s.passes := rfl
@[simp] theorem withTime_pwr (x : TimeX) : (s.withTime x).pwr = s.pwr := rfl
@[simp] theorem withTime_tapx (x : TimeX) : (s.withTime x).tapx = s.tapx := rfl
@[simp] theorem withTime_countx (x : TimeX) : (s.withTime x).countx = s.countx := rfl
@[simp] theorem withTime_free (x : TimeX) : (s.withTime x).free = s.free := rfl
@[simp] theorem withTime_pending (x : TimeX) : (s.withTime x).pending = s.pending := rfl
@[simp] theorem reg_withTime (x : TimeX) (k : Nat) : (s.withTime x).reg k = s.reg k := rfl
@[simp] theorem rf_withTime (x : TimeX) (h : Fld) : (s.withTime x).rf h = s.rf h := rfl
@[simp] theorem rb_withTime (x : TimeX) (h : Fld) : (s.withTime x).rb h = s.rb h := rfl
@[simp] theorem regsCanon_withTime (x : TimeX) : (s.withTime x).regsCanon = s.regsCanon := rfl

/-! `withChip` -/

@[simp] theorem withChip_regs (x : ChipX) : (s.withChip x).regs = s.regs := rfl
@[simp] theorem withChip_latch (x : ChipX) : (s.withChip x).latch = s.latch := rfl
@[simp] theorem withChip_hold (x : ChipX) : (s.withChip x).hold = s.hold := rfl
@[simp] theorem withChip_readData (x : ChipX) : (s.withChip x).readData = s.readData := rfl
@[simp] theorem withChip_hostMem (x : ChipX) : (s.withChip x).hostMem = s.hostMem := rfl
@[simp] theorem withChip_outputs (x : ChipX) : (s.withChip x).outputs = s.outputs := rfl
@[simp] theorem withChip_evts (x : ChipX) : (s.withChip x).evts = s.evts := rfl
@[simp] theorem withChip_rings (x : ChipX) : (s.withChip x).rings = s.rings := rfl
@[simp] theorem withChip_cfg (x : ChipX) : (s.withChip x).cfg = s.cfg := rfl
@[simp] theorem withChip_time (x : ChipX) : (s.withChip x).time = s.time := rfl
@[simp] theorem withChip_lastKey (x : ChipX) : (s.withChip x).lastKey = s.lastKey := rfl
@[simp] theorem withChip_pipes (x : ChipX) : (s.withChip x).pipes = s.pipes := rfl
@[simp] theorem withChip_recirc (x : ChipX) : (s.withChip x).recirc = s.recirc := rfl
@[simp] theorem withChip_tcam (x : ChipX) : (s.withChip x).tcam = s.tcam := rfl
@[simp] theorem withChip_actions (x : ChipX) : (s.withChip x).actions = s.actions := rfl
@[simp] theorem withChip_eps (x : ChipX) : (s.withChip x).eps = s.eps := rfl
@[simp] theorem withChip_routes (x : ChipX) : (s.withChip x).routes = s.routes := rfl
@[simp] theorem withChip_vlans (x : ChipX) : (s.withChip x).vlans = s.vlans := rfl
@[simp] theorem withChip_tbls (x : ChipX) : (s.withChip x).tbls = s.tbls := rfl
@[simp] theorem withChip_slots (x : ChipX) : (s.withChip x).slots = s.slots := rfl
@[simp] theorem withChip_engs (x : ChipX) : (s.withChip x).engs = s.engs := rfl
@[simp] theorem withChip_ctxs (x : ChipX) : (s.withChip x).ctxs = s.ctxs := rfl
@[simp] theorem withChip_hists (x : ChipX) : (s.withChip x).hists = s.hists := rfl
@[simp] theorem withChip_regx (x : ChipX) : (s.withChip x).regx = s.regx := rfl
@[simp] theorem withChip_wind (x : ChipX) : (s.withChip x).wind = s.wind := rfl
@[simp] theorem withChip_discards (x : ChipX) : (s.withChip x).discards = s.discards := rfl
@[simp] theorem withChip_bindErr (x : ChipX) : (s.withChip x).bindErr = s.bindErr := rfl
@[simp] theorem withChip_digs (x : ChipX) : (s.withChip x).digs = s.digs := rfl
@[simp] theorem withChip_pmp2 (x : ChipX) : (s.withChip x).pmp2 = s.pmp2 := rfl
@[simp] theorem withChip_rtHist (x : ChipX) : (s.withChip x).rtHist = s.rtHist := rfl
@[simp] theorem withChip_txs (x : ChipX) : (s.withChip x).txs = s.txs := rfl
@[simp] theorem withChip_hostRx (x : ChipX) : (s.withChip x).hostRx = s.hostRx := rfl
@[simp] theorem withChip_rrHost (x : ChipX) : (s.withChip x).rrHost = s.rrHost := rfl
@[simp] theorem withChip_pports (x : ChipX) : (s.withChip x).pports = s.pports := rfl
@[simp] theorem withChip_links (x : ChipX) : (s.withChip x).links = s.links := rfl
@[simp] theorem withChip_lanes (x : ChipX) : (s.withChip x).lanes = s.lanes := rfl
@[simp] theorem withChip_mcBad (x : ChipX) : (s.withChip x).mcBad = s.mcBad := rfl
@[simp] theorem withChip_pairx (x : ChipX) : (s.withChip x).pairx = s.pairx := rfl
@[simp] theorem withChip_hbmPc (x : ChipX) : (s.withChip x).hbmPc = s.hbmPc := rfl
@[simp] theorem withChip_hbmx (x : ChipX) : (s.withChip x).hbmx = s.hbmx := rfl
@[simp] theorem withChip_scrub (x : ChipX) : (s.withChip x).scrub = s.scrub := rfl
@[simp] theorem withChip_passes (x : ChipX) : (s.withChip x).passes = s.passes := rfl
@[simp] theorem withChip_pwr (x : ChipX) : (s.withChip x).pwr = s.pwr := rfl
@[simp] theorem withChip_tapx (x : ChipX) : (s.withChip x).tapx = s.tapx := rfl
@[simp] theorem withChip_countx (x : ChipX) : (s.withChip x).countx = s.countx := rfl
@[simp] theorem withChip_free (x : ChipX) : (s.withChip x).free = s.free := rfl
@[simp] theorem withChip_pending (x : ChipX) : (s.withChip x).pending = s.pending := rfl
@[simp] theorem reg_withChip (x : ChipX) (k : Nat) : (s.withChip x).reg k = s.reg k := rfl
@[simp] theorem rf_withChip (x : ChipX) (h : Fld) : (s.withChip x).rf h = s.rf h := rfl
@[simp] theorem rb_withChip (x : ChipX) (h : Fld) : (s.withChip x).rb h = s.rb h := rfl
@[simp] theorem regsCanon_withChip (x : ChipX) : (s.withChip x).regsCanon = s.regsCanon := rfl

/-! `withLastKey` -/

@[simp] theorem withLastKey_regs (x : List (Nat × (Nat × Nat))) : (s.withLastKey x).regs = s.regs := rfl
@[simp] theorem withLastKey_latch (x : List (Nat × (Nat × Nat))) : (s.withLastKey x).latch = s.latch := rfl
@[simp] theorem withLastKey_hold (x : List (Nat × (Nat × Nat))) : (s.withLastKey x).hold = s.hold := rfl
@[simp] theorem withLastKey_readData (x : List (Nat × (Nat × Nat))) : (s.withLastKey x).readData = s.readData := rfl
@[simp] theorem withLastKey_hostMem (x : List (Nat × (Nat × Nat))) : (s.withLastKey x).hostMem = s.hostMem := rfl
@[simp] theorem withLastKey_outputs (x : List (Nat × (Nat × Nat))) : (s.withLastKey x).outputs = s.outputs := rfl
@[simp] theorem withLastKey_evts (x : List (Nat × (Nat × Nat))) : (s.withLastKey x).evts = s.evts := rfl
@[simp] theorem withLastKey_rings (x : List (Nat × (Nat × Nat))) : (s.withLastKey x).rings = s.rings := rfl
@[simp] theorem withLastKey_cfg (x : List (Nat × (Nat × Nat))) : (s.withLastKey x).cfg = s.cfg := rfl
@[simp] theorem withLastKey_time (x : List (Nat × (Nat × Nat))) : (s.withLastKey x).time = s.time := rfl
@[simp] theorem withLastKey_chip (x : List (Nat × (Nat × Nat))) : (s.withLastKey x).chip = s.chip := rfl
@[simp] theorem withLastKey_pipes (x : List (Nat × (Nat × Nat))) : (s.withLastKey x).pipes = s.pipes := rfl
@[simp] theorem withLastKey_recirc (x : List (Nat × (Nat × Nat))) : (s.withLastKey x).recirc = s.recirc := rfl
@[simp] theorem withLastKey_tcam (x : List (Nat × (Nat × Nat))) : (s.withLastKey x).tcam = s.tcam := rfl
@[simp] theorem withLastKey_actions (x : List (Nat × (Nat × Nat))) : (s.withLastKey x).actions = s.actions := rfl
@[simp] theorem withLastKey_eps (x : List (Nat × (Nat × Nat))) : (s.withLastKey x).eps = s.eps := rfl
@[simp] theorem withLastKey_routes (x : List (Nat × (Nat × Nat))) : (s.withLastKey x).routes = s.routes := rfl
@[simp] theorem withLastKey_vlans (x : List (Nat × (Nat × Nat))) : (s.withLastKey x).vlans = s.vlans := rfl
@[simp] theorem withLastKey_tbls (x : List (Nat × (Nat × Nat))) : (s.withLastKey x).tbls = s.tbls := rfl
@[simp] theorem withLastKey_slots (x : List (Nat × (Nat × Nat))) : (s.withLastKey x).slots = s.slots := rfl
@[simp] theorem withLastKey_engs (x : List (Nat × (Nat × Nat))) : (s.withLastKey x).engs = s.engs := rfl
@[simp] theorem withLastKey_ctxs (x : List (Nat × (Nat × Nat))) : (s.withLastKey x).ctxs = s.ctxs := rfl
@[simp] theorem withLastKey_hists (x : List (Nat × (Nat × Nat))) : (s.withLastKey x).hists = s.hists := rfl
@[simp] theorem withLastKey_regx (x : List (Nat × (Nat × Nat))) : (s.withLastKey x).regx = s.regx := rfl
@[simp] theorem withLastKey_wind (x : List (Nat × (Nat × Nat))) : (s.withLastKey x).wind = s.wind := rfl
@[simp] theorem withLastKey_discards (x : List (Nat × (Nat × Nat))) : (s.withLastKey x).discards = s.discards := rfl
@[simp] theorem withLastKey_bindErr (x : List (Nat × (Nat × Nat))) : (s.withLastKey x).bindErr = s.bindErr := rfl
@[simp] theorem withLastKey_digs (x : List (Nat × (Nat × Nat))) : (s.withLastKey x).digs = s.digs := rfl
@[simp] theorem withLastKey_pmp2 (x : List (Nat × (Nat × Nat))) : (s.withLastKey x).pmp2 = s.pmp2 := rfl
@[simp] theorem withLastKey_rtHist (x : List (Nat × (Nat × Nat))) : (s.withLastKey x).rtHist = s.rtHist := rfl
@[simp] theorem withLastKey_txs (x : List (Nat × (Nat × Nat))) : (s.withLastKey x).txs = s.txs := rfl
@[simp] theorem withLastKey_hostRx (x : List (Nat × (Nat × Nat))) : (s.withLastKey x).hostRx = s.hostRx := rfl
@[simp] theorem withLastKey_rrHost (x : List (Nat × (Nat × Nat))) : (s.withLastKey x).rrHost = s.rrHost := rfl
@[simp] theorem withLastKey_pports (x : List (Nat × (Nat × Nat))) : (s.withLastKey x).pports = s.pports := rfl
@[simp] theorem withLastKey_links (x : List (Nat × (Nat × Nat))) : (s.withLastKey x).links = s.links := rfl
@[simp] theorem withLastKey_lanes (x : List (Nat × (Nat × Nat))) : (s.withLastKey x).lanes = s.lanes := rfl
@[simp] theorem withLastKey_mcBad (x : List (Nat × (Nat × Nat))) : (s.withLastKey x).mcBad = s.mcBad := rfl
@[simp] theorem withLastKey_pairx (x : List (Nat × (Nat × Nat))) : (s.withLastKey x).pairx = s.pairx := rfl
@[simp] theorem withLastKey_hbmPc (x : List (Nat × (Nat × Nat))) : (s.withLastKey x).hbmPc = s.hbmPc := rfl
@[simp] theorem withLastKey_hbmx (x : List (Nat × (Nat × Nat))) : (s.withLastKey x).hbmx = s.hbmx := rfl
@[simp] theorem withLastKey_scrub (x : List (Nat × (Nat × Nat))) : (s.withLastKey x).scrub = s.scrub := rfl
@[simp] theorem withLastKey_passes (x : List (Nat × (Nat × Nat))) : (s.withLastKey x).passes = s.passes := rfl
@[simp] theorem withLastKey_pwr (x : List (Nat × (Nat × Nat))) : (s.withLastKey x).pwr = s.pwr := rfl
@[simp] theorem withLastKey_tapx (x : List (Nat × (Nat × Nat))) : (s.withLastKey x).tapx = s.tapx := rfl
@[simp] theorem withLastKey_countx (x : List (Nat × (Nat × Nat))) : (s.withLastKey x).countx = s.countx := rfl
@[simp] theorem withLastKey_free (x : List (Nat × (Nat × Nat))) : (s.withLastKey x).free = s.free := rfl
@[simp] theorem withLastKey_pending (x : List (Nat × (Nat × Nat))) : (s.withLastKey x).pending = s.pending := rfl
@[simp] theorem reg_withLastKey (x : List (Nat × (Nat × Nat))) (k : Nat) : (s.withLastKey x).reg k = s.reg k := rfl
@[simp] theorem rf_withLastKey (x : List (Nat × (Nat × Nat))) (h : Fld) : (s.withLastKey x).rf h = s.rf h := rfl
@[simp] theorem rb_withLastKey (x : List (Nat × (Nat × Nat))) (h : Fld) : (s.withLastKey x).rb h = s.rb h := rfl
@[simp] theorem regsCanon_withLastKey (x : List (Nat × (Nat × Nat))) : (s.withLastKey x).regsCanon = s.regsCanon := rfl

/-! `withTcam` -/

@[simp] theorem withTcam_regs (x : List (Nat × Nat)) : (s.withTcam x).regs = s.regs := rfl
@[simp] theorem withTcam_latch (x : List (Nat × Nat)) : (s.withTcam x).latch = s.latch := rfl
@[simp] theorem withTcam_hold (x : List (Nat × Nat)) : (s.withTcam x).hold = s.hold := rfl
@[simp] theorem withTcam_readData (x : List (Nat × Nat)) : (s.withTcam x).readData = s.readData := rfl
@[simp] theorem withTcam_hostMem (x : List (Nat × Nat)) : (s.withTcam x).hostMem = s.hostMem := rfl
@[simp] theorem withTcam_outputs (x : List (Nat × Nat)) : (s.withTcam x).outputs = s.outputs := rfl
@[simp] theorem withTcam_evts (x : List (Nat × Nat)) : (s.withTcam x).evts = s.evts := rfl
@[simp] theorem withTcam_rings (x : List (Nat × Nat)) : (s.withTcam x).rings = s.rings := rfl
@[simp] theorem withTcam_cfg (x : List (Nat × Nat)) : (s.withTcam x).cfg = s.cfg := rfl
@[simp] theorem withTcam_time (x : List (Nat × Nat)) : (s.withTcam x).time = s.time := rfl
@[simp] theorem withTcam_chip (x : List (Nat × Nat)) : (s.withTcam x).chip = s.chip := rfl
@[simp] theorem withTcam_lastKey (x : List (Nat × Nat)) : (s.withTcam x).lastKey = s.lastKey := rfl
@[simp] theorem withTcam_pipes (x : List (Nat × Nat)) : (s.withTcam x).pipes = s.pipes := rfl
@[simp] theorem withTcam_recirc (x : List (Nat × Nat)) : (s.withTcam x).recirc = s.recirc := rfl
@[simp] theorem withTcam_actions (x : List (Nat × Nat)) : (s.withTcam x).actions = s.actions := rfl
@[simp] theorem withTcam_eps (x : List (Nat × Nat)) : (s.withTcam x).eps = s.eps := rfl
@[simp] theorem withTcam_routes (x : List (Nat × Nat)) : (s.withTcam x).routes = s.routes := rfl
@[simp] theorem withTcam_vlans (x : List (Nat × Nat)) : (s.withTcam x).vlans = s.vlans := rfl
@[simp] theorem withTcam_tbls (x : List (Nat × Nat)) : (s.withTcam x).tbls = s.tbls := rfl
@[simp] theorem withTcam_slots (x : List (Nat × Nat)) : (s.withTcam x).slots = s.slots := rfl
@[simp] theorem withTcam_engs (x : List (Nat × Nat)) : (s.withTcam x).engs = s.engs := rfl
@[simp] theorem withTcam_ctxs (x : List (Nat × Nat)) : (s.withTcam x).ctxs = s.ctxs := rfl
@[simp] theorem withTcam_hists (x : List (Nat × Nat)) : (s.withTcam x).hists = s.hists := rfl
@[simp] theorem withTcam_regx (x : List (Nat × Nat)) : (s.withTcam x).regx = s.regx := rfl
@[simp] theorem withTcam_wind (x : List (Nat × Nat)) : (s.withTcam x).wind = s.wind := rfl
@[simp] theorem withTcam_discards (x : List (Nat × Nat)) : (s.withTcam x).discards = s.discards := rfl
@[simp] theorem withTcam_bindErr (x : List (Nat × Nat)) : (s.withTcam x).bindErr = s.bindErr := rfl
@[simp] theorem withTcam_digs (x : List (Nat × Nat)) : (s.withTcam x).digs = s.digs := rfl
@[simp] theorem withTcam_pmp2 (x : List (Nat × Nat)) : (s.withTcam x).pmp2 = s.pmp2 := rfl
@[simp] theorem withTcam_rtHist (x : List (Nat × Nat)) : (s.withTcam x).rtHist = s.rtHist := rfl
@[simp] theorem withTcam_txs (x : List (Nat × Nat)) : (s.withTcam x).txs = s.txs := rfl
@[simp] theorem withTcam_hostRx (x : List (Nat × Nat)) : (s.withTcam x).hostRx = s.hostRx := rfl
@[simp] theorem withTcam_rrHost (x : List (Nat × Nat)) : (s.withTcam x).rrHost = s.rrHost := rfl
@[simp] theorem withTcam_pports (x : List (Nat × Nat)) : (s.withTcam x).pports = s.pports := rfl
@[simp] theorem withTcam_links (x : List (Nat × Nat)) : (s.withTcam x).links = s.links := rfl
@[simp] theorem withTcam_lanes (x : List (Nat × Nat)) : (s.withTcam x).lanes = s.lanes := rfl
@[simp] theorem withTcam_mcBad (x : List (Nat × Nat)) : (s.withTcam x).mcBad = s.mcBad := rfl
@[simp] theorem withTcam_pairx (x : List (Nat × Nat)) : (s.withTcam x).pairx = s.pairx := rfl
@[simp] theorem withTcam_hbmPc (x : List (Nat × Nat)) : (s.withTcam x).hbmPc = s.hbmPc := rfl
@[simp] theorem withTcam_hbmx (x : List (Nat × Nat)) : (s.withTcam x).hbmx = s.hbmx := rfl
@[simp] theorem withTcam_scrub (x : List (Nat × Nat)) : (s.withTcam x).scrub = s.scrub := rfl
@[simp] theorem withTcam_passes (x : List (Nat × Nat)) : (s.withTcam x).passes = s.passes := rfl
@[simp] theorem withTcam_pwr (x : List (Nat × Nat)) : (s.withTcam x).pwr = s.pwr := rfl
@[simp] theorem withTcam_tapx (x : List (Nat × Nat)) : (s.withTcam x).tapx = s.tapx := rfl
@[simp] theorem withTcam_countx (x : List (Nat × Nat)) : (s.withTcam x).countx = s.countx := rfl
@[simp] theorem withTcam_free (x : List (Nat × Nat)) : (s.withTcam x).free = s.free := rfl
@[simp] theorem withTcam_pending (x : List (Nat × Nat)) : (s.withTcam x).pending = s.pending := rfl

@[simp] theorem withBindErr_tcam (x : List (Nat × Nat)) : (s.withBindErr x).tcam = s.tcam := rfl
@[simp] theorem withBindErr_regs (x : List (Nat × Nat)) : (s.withBindErr x).regs = s.regs := rfl
@[simp] theorem withBindErr_latch (x : List (Nat × Nat)) : (s.withBindErr x).latch = s.latch := rfl
@[simp] theorem withBindErr_hold (x : List (Nat × Nat)) : (s.withBindErr x).hold = s.hold := rfl
@[simp] theorem withBindErr_readData (x : List (Nat × Nat)) : (s.withBindErr x).readData = s.readData := rfl
@[simp] theorem withBindErr_hostMem (x : List (Nat × Nat)) : (s.withBindErr x).hostMem = s.hostMem := rfl
@[simp] theorem withBindErr_outputs (x : List (Nat × Nat)) : (s.withBindErr x).outputs = s.outputs := rfl
@[simp] theorem withBindErr_evts (x : List (Nat × Nat)) : (s.withBindErr x).evts = s.evts := rfl
@[simp] theorem withBindErr_rings (x : List (Nat × Nat)) : (s.withBindErr x).rings = s.rings := rfl
@[simp] theorem withBindErr_cfg (x : List (Nat × Nat)) : (s.withBindErr x).cfg = s.cfg := rfl
@[simp] theorem withBindErr_time (x : List (Nat × Nat)) : (s.withBindErr x).time = s.time := rfl
@[simp] theorem withBindErr_chip (x : List (Nat × Nat)) : (s.withBindErr x).chip = s.chip := rfl
@[simp] theorem withBindErr_lastKey (x : List (Nat × Nat)) : (s.withBindErr x).lastKey = s.lastKey := rfl
@[simp] theorem withBindErr_pipes (x : List (Nat × Nat)) : (s.withBindErr x).pipes = s.pipes := rfl
@[simp] theorem withBindErr_recirc (x : List (Nat × Nat)) : (s.withBindErr x).recirc = s.recirc := rfl
@[simp] theorem withBindErr_actions (x : List (Nat × Nat)) : (s.withBindErr x).actions = s.actions := rfl
@[simp] theorem withBindErr_eps (x : List (Nat × Nat)) : (s.withBindErr x).eps = s.eps := rfl
@[simp] theorem withBindErr_routes (x : List (Nat × Nat)) : (s.withBindErr x).routes = s.routes := rfl
@[simp] theorem withBindErr_vlans (x : List (Nat × Nat)) : (s.withBindErr x).vlans = s.vlans := rfl
@[simp] theorem withBindErr_tbls (x : List (Nat × Nat)) : (s.withBindErr x).tbls = s.tbls := rfl
@[simp] theorem withBindErr_slots (x : List (Nat × Nat)) : (s.withBindErr x).slots = s.slots := rfl
@[simp] theorem withBindErr_engs (x : List (Nat × Nat)) : (s.withBindErr x).engs = s.engs := rfl
@[simp] theorem withBindErr_ctxs (x : List (Nat × Nat)) : (s.withBindErr x).ctxs = s.ctxs := rfl
@[simp] theorem withBindErr_hists (x : List (Nat × Nat)) : (s.withBindErr x).hists = s.hists := rfl
@[simp] theorem withBindErr_regx (x : List (Nat × Nat)) : (s.withBindErr x).regx = s.regx := rfl
@[simp] theorem withBindErr_wind (x : List (Nat × Nat)) : (s.withBindErr x).wind = s.wind := rfl
@[simp] theorem withBindErr_discards (x : List (Nat × Nat)) : (s.withBindErr x).discards = s.discards := rfl
@[simp] theorem withBindErr_digs (x : List (Nat × Nat)) : (s.withBindErr x).digs = s.digs := rfl
@[simp] theorem withBindErr_pmp2 (x : List (Nat × Nat)) : (s.withBindErr x).pmp2 = s.pmp2 := rfl
@[simp] theorem withBindErr_rtHist (x : List (Nat × Nat)) : (s.withBindErr x).rtHist = s.rtHist := rfl
@[simp] theorem withBindErr_txs (x : List (Nat × Nat)) : (s.withBindErr x).txs = s.txs := rfl
@[simp] theorem withBindErr_hostRx (x : List (Nat × Nat)) : (s.withBindErr x).hostRx = s.hostRx := rfl
@[simp] theorem withBindErr_rrHost (x : List (Nat × Nat)) : (s.withBindErr x).rrHost = s.rrHost := rfl
@[simp] theorem withBindErr_pports (x : List (Nat × Nat)) : (s.withBindErr x).pports = s.pports := rfl
@[simp] theorem withBindErr_links (x : List (Nat × Nat)) : (s.withBindErr x).links = s.links := rfl
@[simp] theorem withBindErr_lanes (x : List (Nat × Nat)) : (s.withBindErr x).lanes = s.lanes := rfl
@[simp] theorem withBindErr_mcBad (x : List (Nat × Nat)) : (s.withBindErr x).mcBad = s.mcBad := rfl
@[simp] theorem withBindErr_pairx (x : List (Nat × Nat)) : (s.withBindErr x).pairx = s.pairx := rfl
@[simp] theorem withBindErr_hbmPc (x : List (Nat × Nat)) : (s.withBindErr x).hbmPc = s.hbmPc := rfl
@[simp] theorem withBindErr_hbmx (x : List (Nat × Nat)) : (s.withBindErr x).hbmx = s.hbmx := rfl
@[simp] theorem withBindErr_scrub (x : List (Nat × Nat)) : (s.withBindErr x).scrub = s.scrub := rfl
@[simp] theorem withBindErr_passes (x : List (Nat × Nat)) : (s.withBindErr x).passes = s.passes := rfl
@[simp] theorem withBindErr_pwr (x : List (Nat × Nat)) : (s.withBindErr x).pwr = s.pwr := rfl
@[simp] theorem withBindErr_tapx (x : List (Nat × Nat)) : (s.withBindErr x).tapx = s.tapx := rfl
@[simp] theorem withBindErr_countx (x : List (Nat × Nat)) : (s.withBindErr x).countx = s.countx := rfl
@[simp] theorem withBindErr_free (x : List (Nat × Nat)) : (s.withBindErr x).free = s.free := rfl
@[simp] theorem withBindErr_pending (x : List (Nat × Nat)) : (s.withBindErr x).pending = s.pending := rfl
@[simp] theorem reg_withTcam (x : List (Nat × Nat)) (k : Nat) : (s.withTcam x).reg k = s.reg k := rfl
@[simp] theorem rf_withTcam (x : List (Nat × Nat)) (h : Fld) : (s.withTcam x).rf h = s.rf h := rfl
@[simp] theorem rb_withTcam (x : List (Nat × Nat)) (h : Fld) : (s.withTcam x).rb h = s.rb h := rfl
@[simp] theorem regsCanon_withTcam (x : List (Nat × Nat)) : (s.withTcam x).regsCanon = s.regsCanon := rfl

/-! `withActions` -/

@[simp] theorem withActions_regs (x : List (Nat × Nat)) : (s.withActions x).regs = s.regs := rfl
@[simp] theorem withActions_latch (x : List (Nat × Nat)) : (s.withActions x).latch = s.latch := rfl
@[simp] theorem withActions_hold (x : List (Nat × Nat)) : (s.withActions x).hold = s.hold := rfl
@[simp] theorem withActions_readData (x : List (Nat × Nat)) : (s.withActions x).readData = s.readData := rfl
@[simp] theorem withActions_hostMem (x : List (Nat × Nat)) : (s.withActions x).hostMem = s.hostMem := rfl
@[simp] theorem withActions_outputs (x : List (Nat × Nat)) : (s.withActions x).outputs = s.outputs := rfl
@[simp] theorem withActions_evts (x : List (Nat × Nat)) : (s.withActions x).evts = s.evts := rfl
@[simp] theorem withActions_rings (x : List (Nat × Nat)) : (s.withActions x).rings = s.rings := rfl
@[simp] theorem withActions_cfg (x : List (Nat × Nat)) : (s.withActions x).cfg = s.cfg := rfl
@[simp] theorem withActions_time (x : List (Nat × Nat)) : (s.withActions x).time = s.time := rfl
@[simp] theorem withActions_chip (x : List (Nat × Nat)) : (s.withActions x).chip = s.chip := rfl
@[simp] theorem withActions_lastKey (x : List (Nat × Nat)) : (s.withActions x).lastKey = s.lastKey := rfl
@[simp] theorem withActions_pipes (x : List (Nat × Nat)) : (s.withActions x).pipes = s.pipes := rfl
@[simp] theorem withActions_recirc (x : List (Nat × Nat)) : (s.withActions x).recirc = s.recirc := rfl
@[simp] theorem withActions_tcam (x : List (Nat × Nat)) : (s.withActions x).tcam = s.tcam := rfl
@[simp] theorem withActions_eps (x : List (Nat × Nat)) : (s.withActions x).eps = s.eps := rfl
@[simp] theorem withActions_routes (x : List (Nat × Nat)) : (s.withActions x).routes = s.routes := rfl
@[simp] theorem withActions_vlans (x : List (Nat × Nat)) : (s.withActions x).vlans = s.vlans := rfl
@[simp] theorem withActions_tbls (x : List (Nat × Nat)) : (s.withActions x).tbls = s.tbls := rfl
@[simp] theorem withActions_slots (x : List (Nat × Nat)) : (s.withActions x).slots = s.slots := rfl
@[simp] theorem withActions_engs (x : List (Nat × Nat)) : (s.withActions x).engs = s.engs := rfl
@[simp] theorem withActions_ctxs (x : List (Nat × Nat)) : (s.withActions x).ctxs = s.ctxs := rfl
@[simp] theorem withActions_hists (x : List (Nat × Nat)) : (s.withActions x).hists = s.hists := rfl
@[simp] theorem withActions_regx (x : List (Nat × Nat)) : (s.withActions x).regx = s.regx := rfl
@[simp] theorem withActions_wind (x : List (Nat × Nat)) : (s.withActions x).wind = s.wind := rfl
@[simp] theorem withActions_discards (x : List (Nat × Nat)) : (s.withActions x).discards = s.discards := rfl
@[simp] theorem withActions_bindErr (x : List (Nat × Nat)) : (s.withActions x).bindErr = s.bindErr := rfl
@[simp] theorem withActions_digs (x : List (Nat × Nat)) : (s.withActions x).digs = s.digs := rfl
@[simp] theorem withActions_pmp2 (x : List (Nat × Nat)) : (s.withActions x).pmp2 = s.pmp2 := rfl
@[simp] theorem withActions_rtHist (x : List (Nat × Nat)) : (s.withActions x).rtHist = s.rtHist := rfl
@[simp] theorem withActions_txs (x : List (Nat × Nat)) : (s.withActions x).txs = s.txs := rfl
@[simp] theorem withActions_hostRx (x : List (Nat × Nat)) : (s.withActions x).hostRx = s.hostRx := rfl
@[simp] theorem withActions_rrHost (x : List (Nat × Nat)) : (s.withActions x).rrHost = s.rrHost := rfl
@[simp] theorem withActions_pports (x : List (Nat × Nat)) : (s.withActions x).pports = s.pports := rfl
@[simp] theorem withActions_links (x : List (Nat × Nat)) : (s.withActions x).links = s.links := rfl
@[simp] theorem withActions_lanes (x : List (Nat × Nat)) : (s.withActions x).lanes = s.lanes := rfl
@[simp] theorem withActions_mcBad (x : List (Nat × Nat)) : (s.withActions x).mcBad = s.mcBad := rfl
@[simp] theorem withActions_pairx (x : List (Nat × Nat)) : (s.withActions x).pairx = s.pairx := rfl
@[simp] theorem withActions_hbmPc (x : List (Nat × Nat)) : (s.withActions x).hbmPc = s.hbmPc := rfl
@[simp] theorem withActions_hbmx (x : List (Nat × Nat)) : (s.withActions x).hbmx = s.hbmx := rfl
@[simp] theorem withActions_scrub (x : List (Nat × Nat)) : (s.withActions x).scrub = s.scrub := rfl
@[simp] theorem withActions_passes (x : List (Nat × Nat)) : (s.withActions x).passes = s.passes := rfl
@[simp] theorem withActions_pwr (x : List (Nat × Nat)) : (s.withActions x).pwr = s.pwr := rfl
@[simp] theorem withActions_tapx (x : List (Nat × Nat)) : (s.withActions x).tapx = s.tapx := rfl
@[simp] theorem withActions_countx (x : List (Nat × Nat)) : (s.withActions x).countx = s.countx := rfl
@[simp] theorem withActions_free (x : List (Nat × Nat)) : (s.withActions x).free = s.free := rfl
@[simp] theorem withActions_pending (x : List (Nat × Nat)) : (s.withActions x).pending = s.pending := rfl
@[simp] theorem reg_withActions (x : List (Nat × Nat)) (k : Nat) : (s.withActions x).reg k = s.reg k := rfl
@[simp] theorem rf_withActions (x : List (Nat × Nat)) (h : Fld) : (s.withActions x).rf h = s.rf h := rfl
@[simp] theorem rb_withActions (x : List (Nat × Nat)) (h : Fld) : (s.withActions x).rb h = s.rb h := rfl
@[simp] theorem regsCanon_withActions (x : List (Nat × Nat)) : (s.withActions x).regsCanon = s.regsCanon := rfl

/-! `withEps` -/

@[simp] theorem withEps_regs (x : List (Nat × Nat)) : (s.withEps x).regs = s.regs := rfl
@[simp] theorem withEps_latch (x : List (Nat × Nat)) : (s.withEps x).latch = s.latch := rfl
@[simp] theorem withEps_hold (x : List (Nat × Nat)) : (s.withEps x).hold = s.hold := rfl
@[simp] theorem withEps_readData (x : List (Nat × Nat)) : (s.withEps x).readData = s.readData := rfl
@[simp] theorem withEps_hostMem (x : List (Nat × Nat)) : (s.withEps x).hostMem = s.hostMem := rfl
@[simp] theorem withEps_outputs (x : List (Nat × Nat)) : (s.withEps x).outputs = s.outputs := rfl
@[simp] theorem withEps_evts (x : List (Nat × Nat)) : (s.withEps x).evts = s.evts := rfl
@[simp] theorem withEps_rings (x : List (Nat × Nat)) : (s.withEps x).rings = s.rings := rfl
@[simp] theorem withEps_cfg (x : List (Nat × Nat)) : (s.withEps x).cfg = s.cfg := rfl
@[simp] theorem withEps_time (x : List (Nat × Nat)) : (s.withEps x).time = s.time := rfl
@[simp] theorem withEps_chip (x : List (Nat × Nat)) : (s.withEps x).chip = s.chip := rfl
@[simp] theorem withEps_lastKey (x : List (Nat × Nat)) : (s.withEps x).lastKey = s.lastKey := rfl
@[simp] theorem withEps_pipes (x : List (Nat × Nat)) : (s.withEps x).pipes = s.pipes := rfl
@[simp] theorem withEps_recirc (x : List (Nat × Nat)) : (s.withEps x).recirc = s.recirc := rfl
@[simp] theorem withEps_tcam (x : List (Nat × Nat)) : (s.withEps x).tcam = s.tcam := rfl
@[simp] theorem withEps_actions (x : List (Nat × Nat)) : (s.withEps x).actions = s.actions := rfl
@[simp] theorem withEps_routes (x : List (Nat × Nat)) : (s.withEps x).routes = s.routes := rfl
@[simp] theorem withEps_vlans (x : List (Nat × Nat)) : (s.withEps x).vlans = s.vlans := rfl
@[simp] theorem withEps_tbls (x : List (Nat × Nat)) : (s.withEps x).tbls = s.tbls := rfl
@[simp] theorem withEps_slots (x : List (Nat × Nat)) : (s.withEps x).slots = s.slots := rfl
@[simp] theorem withEps_engs (x : List (Nat × Nat)) : (s.withEps x).engs = s.engs := rfl
@[simp] theorem withEps_ctxs (x : List (Nat × Nat)) : (s.withEps x).ctxs = s.ctxs := rfl
@[simp] theorem withEps_hists (x : List (Nat × Nat)) : (s.withEps x).hists = s.hists := rfl
@[simp] theorem withEps_regx (x : List (Nat × Nat)) : (s.withEps x).regx = s.regx := rfl
@[simp] theorem withEps_wind (x : List (Nat × Nat)) : (s.withEps x).wind = s.wind := rfl
@[simp] theorem withEps_discards (x : List (Nat × Nat)) : (s.withEps x).discards = s.discards := rfl
@[simp] theorem withEps_bindErr (x : List (Nat × Nat)) : (s.withEps x).bindErr = s.bindErr := rfl
@[simp] theorem withEps_digs (x : List (Nat × Nat)) : (s.withEps x).digs = s.digs := rfl
@[simp] theorem withEps_pmp2 (x : List (Nat × Nat)) : (s.withEps x).pmp2 = s.pmp2 := rfl
@[simp] theorem withEps_rtHist (x : List (Nat × Nat)) : (s.withEps x).rtHist = s.rtHist := rfl
@[simp] theorem withEps_txs (x : List (Nat × Nat)) : (s.withEps x).txs = s.txs := rfl
@[simp] theorem withEps_hostRx (x : List (Nat × Nat)) : (s.withEps x).hostRx = s.hostRx := rfl
@[simp] theorem withEps_rrHost (x : List (Nat × Nat)) : (s.withEps x).rrHost = s.rrHost := rfl
@[simp] theorem withEps_pports (x : List (Nat × Nat)) : (s.withEps x).pports = s.pports := rfl
@[simp] theorem withEps_links (x : List (Nat × Nat)) : (s.withEps x).links = s.links := rfl
@[simp] theorem withEps_lanes (x : List (Nat × Nat)) : (s.withEps x).lanes = s.lanes := rfl
@[simp] theorem withEps_mcBad (x : List (Nat × Nat)) : (s.withEps x).mcBad = s.mcBad := rfl
@[simp] theorem withEps_pairx (x : List (Nat × Nat)) : (s.withEps x).pairx = s.pairx := rfl
@[simp] theorem withEps_hbmPc (x : List (Nat × Nat)) : (s.withEps x).hbmPc = s.hbmPc := rfl
@[simp] theorem withEps_hbmx (x : List (Nat × Nat)) : (s.withEps x).hbmx = s.hbmx := rfl
@[simp] theorem withEps_scrub (x : List (Nat × Nat)) : (s.withEps x).scrub = s.scrub := rfl
@[simp] theorem withEps_passes (x : List (Nat × Nat)) : (s.withEps x).passes = s.passes := rfl
@[simp] theorem withEps_pwr (x : List (Nat × Nat)) : (s.withEps x).pwr = s.pwr := rfl
@[simp] theorem withEps_tapx (x : List (Nat × Nat)) : (s.withEps x).tapx = s.tapx := rfl
@[simp] theorem withEps_countx (x : List (Nat × Nat)) : (s.withEps x).countx = s.countx := rfl
@[simp] theorem withEps_free (x : List (Nat × Nat)) : (s.withEps x).free = s.free := rfl
@[simp] theorem withEps_pending (x : List (Nat × Nat)) : (s.withEps x).pending = s.pending := rfl
@[simp] theorem reg_withEps (x : List (Nat × Nat)) (k : Nat) : (s.withEps x).reg k = s.reg k := rfl
@[simp] theorem rf_withEps (x : List (Nat × Nat)) (h : Fld) : (s.withEps x).rf h = s.rf h := rfl
@[simp] theorem rb_withEps (x : List (Nat × Nat)) (h : Fld) : (s.withEps x).rb h = s.rb h := rfl
@[simp] theorem regsCanon_withEps (x : List (Nat × Nat)) : (s.withEps x).regsCanon = s.regsCanon := rfl

/-! `withRoutes` -/

@[simp] theorem withRoutes_regs (x : List (Nat × Nat)) : (s.withRoutes x).regs = s.regs := rfl
@[simp] theorem withRoutes_latch (x : List (Nat × Nat)) : (s.withRoutes x).latch = s.latch := rfl
@[simp] theorem withRoutes_hold (x : List (Nat × Nat)) : (s.withRoutes x).hold = s.hold := rfl
@[simp] theorem withRoutes_readData (x : List (Nat × Nat)) : (s.withRoutes x).readData = s.readData := rfl
@[simp] theorem withRoutes_hostMem (x : List (Nat × Nat)) : (s.withRoutes x).hostMem = s.hostMem := rfl
@[simp] theorem withRoutes_outputs (x : List (Nat × Nat)) : (s.withRoutes x).outputs = s.outputs := rfl
@[simp] theorem withRoutes_evts (x : List (Nat × Nat)) : (s.withRoutes x).evts = s.evts := rfl
@[simp] theorem withRoutes_rings (x : List (Nat × Nat)) : (s.withRoutes x).rings = s.rings := rfl
@[simp] theorem withRoutes_cfg (x : List (Nat × Nat)) : (s.withRoutes x).cfg = s.cfg := rfl
@[simp] theorem withRoutes_time (x : List (Nat × Nat)) : (s.withRoutes x).time = s.time := rfl
@[simp] theorem withRoutes_chip (x : List (Nat × Nat)) : (s.withRoutes x).chip = s.chip := rfl
@[simp] theorem withRoutes_lastKey (x : List (Nat × Nat)) : (s.withRoutes x).lastKey = s.lastKey := rfl
@[simp] theorem withRoutes_pipes (x : List (Nat × Nat)) : (s.withRoutes x).pipes = s.pipes := rfl
@[simp] theorem withRoutes_recirc (x : List (Nat × Nat)) : (s.withRoutes x).recirc = s.recirc := rfl
@[simp] theorem withRoutes_tcam (x : List (Nat × Nat)) : (s.withRoutes x).tcam = s.tcam := rfl
@[simp] theorem withRoutes_actions (x : List (Nat × Nat)) : (s.withRoutes x).actions = s.actions := rfl
@[simp] theorem withRoutes_eps (x : List (Nat × Nat)) : (s.withRoutes x).eps = s.eps := rfl
@[simp] theorem withRoutes_vlans (x : List (Nat × Nat)) : (s.withRoutes x).vlans = s.vlans := rfl
@[simp] theorem withRoutes_tbls (x : List (Nat × Nat)) : (s.withRoutes x).tbls = s.tbls := rfl
@[simp] theorem withRoutes_slots (x : List (Nat × Nat)) : (s.withRoutes x).slots = s.slots := rfl
@[simp] theorem withRoutes_engs (x : List (Nat × Nat)) : (s.withRoutes x).engs = s.engs := rfl
@[simp] theorem withRoutes_ctxs (x : List (Nat × Nat)) : (s.withRoutes x).ctxs = s.ctxs := rfl
@[simp] theorem withRoutes_hists (x : List (Nat × Nat)) : (s.withRoutes x).hists = s.hists := rfl
@[simp] theorem withRoutes_regx (x : List (Nat × Nat)) : (s.withRoutes x).regx = s.regx := rfl
@[simp] theorem withRoutes_wind (x : List (Nat × Nat)) : (s.withRoutes x).wind = s.wind := rfl
@[simp] theorem withRoutes_discards (x : List (Nat × Nat)) : (s.withRoutes x).discards = s.discards := rfl
@[simp] theorem withRoutes_bindErr (x : List (Nat × Nat)) : (s.withRoutes x).bindErr = s.bindErr := rfl
@[simp] theorem withRoutes_digs (x : List (Nat × Nat)) : (s.withRoutes x).digs = s.digs := rfl
@[simp] theorem withRoutes_pmp2 (x : List (Nat × Nat)) : (s.withRoutes x).pmp2 = s.pmp2 := rfl
@[simp] theorem withRoutes_rtHist (x : List (Nat × Nat)) : (s.withRoutes x).rtHist = s.rtHist := rfl
@[simp] theorem withRoutes_txs (x : List (Nat × Nat)) : (s.withRoutes x).txs = s.txs := rfl
@[simp] theorem withRoutes_hostRx (x : List (Nat × Nat)) : (s.withRoutes x).hostRx = s.hostRx := rfl
@[simp] theorem withRoutes_rrHost (x : List (Nat × Nat)) : (s.withRoutes x).rrHost = s.rrHost := rfl
@[simp] theorem withRoutes_pports (x : List (Nat × Nat)) : (s.withRoutes x).pports = s.pports := rfl
@[simp] theorem withRoutes_links (x : List (Nat × Nat)) : (s.withRoutes x).links = s.links := rfl
@[simp] theorem withRoutes_lanes (x : List (Nat × Nat)) : (s.withRoutes x).lanes = s.lanes := rfl
@[simp] theorem withRoutes_mcBad (x : List (Nat × Nat)) : (s.withRoutes x).mcBad = s.mcBad := rfl
@[simp] theorem withRoutes_pairx (x : List (Nat × Nat)) : (s.withRoutes x).pairx = s.pairx := rfl
@[simp] theorem withRoutes_hbmPc (x : List (Nat × Nat)) : (s.withRoutes x).hbmPc = s.hbmPc := rfl
@[simp] theorem withRoutes_hbmx (x : List (Nat × Nat)) : (s.withRoutes x).hbmx = s.hbmx := rfl
@[simp] theorem withRoutes_scrub (x : List (Nat × Nat)) : (s.withRoutes x).scrub = s.scrub := rfl
@[simp] theorem withRoutes_passes (x : List (Nat × Nat)) : (s.withRoutes x).passes = s.passes := rfl
@[simp] theorem withRoutes_pwr (x : List (Nat × Nat)) : (s.withRoutes x).pwr = s.pwr := rfl
@[simp] theorem withRoutes_tapx (x : List (Nat × Nat)) : (s.withRoutes x).tapx = s.tapx := rfl
@[simp] theorem withRoutes_countx (x : List (Nat × Nat)) : (s.withRoutes x).countx = s.countx := rfl
@[simp] theorem withRoutes_free (x : List (Nat × Nat)) : (s.withRoutes x).free = s.free := rfl
@[simp] theorem withRoutes_pending (x : List (Nat × Nat)) : (s.withRoutes x).pending = s.pending := rfl
@[simp] theorem reg_withRoutes (x : List (Nat × Nat)) (k : Nat) : (s.withRoutes x).reg k = s.reg k := rfl
@[simp] theorem rf_withRoutes (x : List (Nat × Nat)) (h : Fld) : (s.withRoutes x).rf h = s.rf h := rfl
@[simp] theorem rb_withRoutes (x : List (Nat × Nat)) (h : Fld) : (s.withRoutes x).rb h = s.rb h := rfl
@[simp] theorem regsCanon_withRoutes (x : List (Nat × Nat)) : (s.withRoutes x).regsCanon = s.regsCanon := rfl

/-! `withVlans` -/

@[simp] theorem withVlans_regs (x : List (Nat × Nat)) : (s.withVlans x).regs = s.regs := rfl
@[simp] theorem withVlans_latch (x : List (Nat × Nat)) : (s.withVlans x).latch = s.latch := rfl
@[simp] theorem withVlans_hold (x : List (Nat × Nat)) : (s.withVlans x).hold = s.hold := rfl
@[simp] theorem withVlans_readData (x : List (Nat × Nat)) : (s.withVlans x).readData = s.readData := rfl
@[simp] theorem withVlans_hostMem (x : List (Nat × Nat)) : (s.withVlans x).hostMem = s.hostMem := rfl
@[simp] theorem withVlans_outputs (x : List (Nat × Nat)) : (s.withVlans x).outputs = s.outputs := rfl
@[simp] theorem withVlans_evts (x : List (Nat × Nat)) : (s.withVlans x).evts = s.evts := rfl
@[simp] theorem withVlans_rings (x : List (Nat × Nat)) : (s.withVlans x).rings = s.rings := rfl
@[simp] theorem withVlans_cfg (x : List (Nat × Nat)) : (s.withVlans x).cfg = s.cfg := rfl
@[simp] theorem withVlans_time (x : List (Nat × Nat)) : (s.withVlans x).time = s.time := rfl
@[simp] theorem withVlans_chip (x : List (Nat × Nat)) : (s.withVlans x).chip = s.chip := rfl
@[simp] theorem withVlans_lastKey (x : List (Nat × Nat)) : (s.withVlans x).lastKey = s.lastKey := rfl
@[simp] theorem withVlans_pipes (x : List (Nat × Nat)) : (s.withVlans x).pipes = s.pipes := rfl
@[simp] theorem withVlans_recirc (x : List (Nat × Nat)) : (s.withVlans x).recirc = s.recirc := rfl
@[simp] theorem withVlans_tcam (x : List (Nat × Nat)) : (s.withVlans x).tcam = s.tcam := rfl
@[simp] theorem withVlans_actions (x : List (Nat × Nat)) : (s.withVlans x).actions = s.actions := rfl
@[simp] theorem withVlans_eps (x : List (Nat × Nat)) : (s.withVlans x).eps = s.eps := rfl
@[simp] theorem withVlans_routes (x : List (Nat × Nat)) : (s.withVlans x).routes = s.routes := rfl
@[simp] theorem withVlans_tbls (x : List (Nat × Nat)) : (s.withVlans x).tbls = s.tbls := rfl
@[simp] theorem withVlans_slots (x : List (Nat × Nat)) : (s.withVlans x).slots = s.slots := rfl
@[simp] theorem withVlans_engs (x : List (Nat × Nat)) : (s.withVlans x).engs = s.engs := rfl
@[simp] theorem withVlans_ctxs (x : List (Nat × Nat)) : (s.withVlans x).ctxs = s.ctxs := rfl
@[simp] theorem withVlans_hists (x : List (Nat × Nat)) : (s.withVlans x).hists = s.hists := rfl
@[simp] theorem withVlans_regx (x : List (Nat × Nat)) : (s.withVlans x).regx = s.regx := rfl
@[simp] theorem withVlans_wind (x : List (Nat × Nat)) : (s.withVlans x).wind = s.wind := rfl
@[simp] theorem withVlans_discards (x : List (Nat × Nat)) : (s.withVlans x).discards = s.discards := rfl
@[simp] theorem withVlans_bindErr (x : List (Nat × Nat)) : (s.withVlans x).bindErr = s.bindErr := rfl
@[simp] theorem withVlans_digs (x : List (Nat × Nat)) : (s.withVlans x).digs = s.digs := rfl
@[simp] theorem withVlans_pmp2 (x : List (Nat × Nat)) : (s.withVlans x).pmp2 = s.pmp2 := rfl
@[simp] theorem withVlans_rtHist (x : List (Nat × Nat)) : (s.withVlans x).rtHist = s.rtHist := rfl
@[simp] theorem withVlans_txs (x : List (Nat × Nat)) : (s.withVlans x).txs = s.txs := rfl
@[simp] theorem withVlans_hostRx (x : List (Nat × Nat)) : (s.withVlans x).hostRx = s.hostRx := rfl
@[simp] theorem withVlans_rrHost (x : List (Nat × Nat)) : (s.withVlans x).rrHost = s.rrHost := rfl
@[simp] theorem withVlans_pports (x : List (Nat × Nat)) : (s.withVlans x).pports = s.pports := rfl
@[simp] theorem withVlans_links (x : List (Nat × Nat)) : (s.withVlans x).links = s.links := rfl
@[simp] theorem withVlans_lanes (x : List (Nat × Nat)) : (s.withVlans x).lanes = s.lanes := rfl
@[simp] theorem withVlans_mcBad (x : List (Nat × Nat)) : (s.withVlans x).mcBad = s.mcBad := rfl
@[simp] theorem withVlans_pairx (x : List (Nat × Nat)) : (s.withVlans x).pairx = s.pairx := rfl
@[simp] theorem withVlans_hbmPc (x : List (Nat × Nat)) : (s.withVlans x).hbmPc = s.hbmPc := rfl
@[simp] theorem withVlans_hbmx (x : List (Nat × Nat)) : (s.withVlans x).hbmx = s.hbmx := rfl
@[simp] theorem withVlans_scrub (x : List (Nat × Nat)) : (s.withVlans x).scrub = s.scrub := rfl
@[simp] theorem withVlans_passes (x : List (Nat × Nat)) : (s.withVlans x).passes = s.passes := rfl
@[simp] theorem withVlans_pwr (x : List (Nat × Nat)) : (s.withVlans x).pwr = s.pwr := rfl
@[simp] theorem withVlans_tapx (x : List (Nat × Nat)) : (s.withVlans x).tapx = s.tapx := rfl
@[simp] theorem withVlans_countx (x : List (Nat × Nat)) : (s.withVlans x).countx = s.countx := rfl
@[simp] theorem withVlans_free (x : List (Nat × Nat)) : (s.withVlans x).free = s.free := rfl
@[simp] theorem withVlans_pending (x : List (Nat × Nat)) : (s.withVlans x).pending = s.pending := rfl
@[simp] theorem reg_withVlans (x : List (Nat × Nat)) (k : Nat) : (s.withVlans x).reg k = s.reg k := rfl
@[simp] theorem rf_withVlans (x : List (Nat × Nat)) (h : Fld) : (s.withVlans x).rf h = s.rf h := rfl
@[simp] theorem rb_withVlans (x : List (Nat × Nat)) (h : Fld) : (s.withVlans x).rb h = s.rb h := rfl
@[simp] theorem regsCanon_withVlans (x : List (Nat × Nat)) : (s.withVlans x).regsCanon = s.regsCanon := rfl

/-! `withTbls` -/

@[simp] theorem withTbls_regs (x : List (Nat × TblX)) : (s.withTbls x).regs = s.regs := rfl
@[simp] theorem withTbls_latch (x : List (Nat × TblX)) : (s.withTbls x).latch = s.latch := rfl
@[simp] theorem withTbls_hold (x : List (Nat × TblX)) : (s.withTbls x).hold = s.hold := rfl
@[simp] theorem withTbls_readData (x : List (Nat × TblX)) : (s.withTbls x).readData = s.readData := rfl
@[simp] theorem withTbls_hostMem (x : List (Nat × TblX)) : (s.withTbls x).hostMem = s.hostMem := rfl
@[simp] theorem withTbls_outputs (x : List (Nat × TblX)) : (s.withTbls x).outputs = s.outputs := rfl
@[simp] theorem withTbls_evts (x : List (Nat × TblX)) : (s.withTbls x).evts = s.evts := rfl
@[simp] theorem withTbls_rings (x : List (Nat × TblX)) : (s.withTbls x).rings = s.rings := rfl
@[simp] theorem withTbls_cfg (x : List (Nat × TblX)) : (s.withTbls x).cfg = s.cfg := rfl
@[simp] theorem withTbls_time (x : List (Nat × TblX)) : (s.withTbls x).time = s.time := rfl
@[simp] theorem withTbls_chip (x : List (Nat × TblX)) : (s.withTbls x).chip = s.chip := rfl
@[simp] theorem withTbls_lastKey (x : List (Nat × TblX)) : (s.withTbls x).lastKey = s.lastKey := rfl
@[simp] theorem withTbls_pipes (x : List (Nat × TblX)) : (s.withTbls x).pipes = s.pipes := rfl
@[simp] theorem withTbls_recirc (x : List (Nat × TblX)) : (s.withTbls x).recirc = s.recirc := rfl
@[simp] theorem withTbls_tcam (x : List (Nat × TblX)) : (s.withTbls x).tcam = s.tcam := rfl
@[simp] theorem withTbls_actions (x : List (Nat × TblX)) : (s.withTbls x).actions = s.actions := rfl
@[simp] theorem withTbls_eps (x : List (Nat × TblX)) : (s.withTbls x).eps = s.eps := rfl
@[simp] theorem withTbls_routes (x : List (Nat × TblX)) : (s.withTbls x).routes = s.routes := rfl
@[simp] theorem withTbls_vlans (x : List (Nat × TblX)) : (s.withTbls x).vlans = s.vlans := rfl
@[simp] theorem withTbls_slots (x : List (Nat × TblX)) : (s.withTbls x).slots = s.slots := rfl
@[simp] theorem withTbls_engs (x : List (Nat × TblX)) : (s.withTbls x).engs = s.engs := rfl
@[simp] theorem withTbls_ctxs (x : List (Nat × TblX)) : (s.withTbls x).ctxs = s.ctxs := rfl
@[simp] theorem withTbls_hists (x : List (Nat × TblX)) : (s.withTbls x).hists = s.hists := rfl
@[simp] theorem withTbls_regx (x : List (Nat × TblX)) : (s.withTbls x).regx = s.regx := rfl
@[simp] theorem withTbls_wind (x : List (Nat × TblX)) : (s.withTbls x).wind = s.wind := rfl
@[simp] theorem withTbls_discards (x : List (Nat × TblX)) : (s.withTbls x).discards = s.discards := rfl
@[simp] theorem withTbls_bindErr (x : List (Nat × TblX)) : (s.withTbls x).bindErr = s.bindErr := rfl
@[simp] theorem withTbls_digs (x : List (Nat × TblX)) : (s.withTbls x).digs = s.digs := rfl
@[simp] theorem withTbls_pmp2 (x : List (Nat × TblX)) : (s.withTbls x).pmp2 = s.pmp2 := rfl
@[simp] theorem withTbls_rtHist (x : List (Nat × TblX)) : (s.withTbls x).rtHist = s.rtHist := rfl
@[simp] theorem withTbls_txs (x : List (Nat × TblX)) : (s.withTbls x).txs = s.txs := rfl
@[simp] theorem withTbls_hostRx (x : List (Nat × TblX)) : (s.withTbls x).hostRx = s.hostRx := rfl
@[simp] theorem withTbls_rrHost (x : List (Nat × TblX)) : (s.withTbls x).rrHost = s.rrHost := rfl
@[simp] theorem withTbls_pports (x : List (Nat × TblX)) : (s.withTbls x).pports = s.pports := rfl
@[simp] theorem withTbls_links (x : List (Nat × TblX)) : (s.withTbls x).links = s.links := rfl
@[simp] theorem withTbls_lanes (x : List (Nat × TblX)) : (s.withTbls x).lanes = s.lanes := rfl
@[simp] theorem withTbls_mcBad (x : List (Nat × TblX)) : (s.withTbls x).mcBad = s.mcBad := rfl
@[simp] theorem withTbls_pairx (x : List (Nat × TblX)) : (s.withTbls x).pairx = s.pairx := rfl
@[simp] theorem withTbls_hbmPc (x : List (Nat × TblX)) : (s.withTbls x).hbmPc = s.hbmPc := rfl
@[simp] theorem withTbls_hbmx (x : List (Nat × TblX)) : (s.withTbls x).hbmx = s.hbmx := rfl
@[simp] theorem withTbls_scrub (x : List (Nat × TblX)) : (s.withTbls x).scrub = s.scrub := rfl
@[simp] theorem withTbls_passes (x : List (Nat × TblX)) : (s.withTbls x).passes = s.passes := rfl
@[simp] theorem withTbls_pwr (x : List (Nat × TblX)) : (s.withTbls x).pwr = s.pwr := rfl
@[simp] theorem withTbls_tapx (x : List (Nat × TblX)) : (s.withTbls x).tapx = s.tapx := rfl
@[simp] theorem withTbls_countx (x : List (Nat × TblX)) : (s.withTbls x).countx = s.countx := rfl
@[simp] theorem withTbls_free (x : List (Nat × TblX)) : (s.withTbls x).free = s.free := rfl
@[simp] theorem withTbls_pending (x : List (Nat × TblX)) : (s.withTbls x).pending = s.pending := rfl
@[simp] theorem reg_withTbls (x : List (Nat × TblX)) (k : Nat) : (s.withTbls x).reg k = s.reg k := rfl
@[simp] theorem rf_withTbls (x : List (Nat × TblX)) (h : Fld) : (s.withTbls x).rf h = s.rf h := rfl
@[simp] theorem rb_withTbls (x : List (Nat × TblX)) (h : Fld) : (s.withTbls x).rb h = s.rb h := rfl
@[simp] theorem regsCanon_withTbls (x : List (Nat × TblX)) : (s.withTbls x).regsCanon = s.regsCanon := rfl

/-! `withSlots` -/

@[simp] theorem withSlots_regs (x : List (Nat × Nat)) : (s.withSlots x).regs = s.regs := rfl
@[simp] theorem withSlots_latch (x : List (Nat × Nat)) : (s.withSlots x).latch = s.latch := rfl
@[simp] theorem withSlots_hold (x : List (Nat × Nat)) : (s.withSlots x).hold = s.hold := rfl
@[simp] theorem withSlots_readData (x : List (Nat × Nat)) : (s.withSlots x).readData = s.readData := rfl
@[simp] theorem withSlots_hostMem (x : List (Nat × Nat)) : (s.withSlots x).hostMem = s.hostMem := rfl
@[simp] theorem withSlots_outputs (x : List (Nat × Nat)) : (s.withSlots x).outputs = s.outputs := rfl
@[simp] theorem withSlots_evts (x : List (Nat × Nat)) : (s.withSlots x).evts = s.evts := rfl
@[simp] theorem withSlots_rings (x : List (Nat × Nat)) : (s.withSlots x).rings = s.rings := rfl
@[simp] theorem withSlots_cfg (x : List (Nat × Nat)) : (s.withSlots x).cfg = s.cfg := rfl
@[simp] theorem withSlots_time (x : List (Nat × Nat)) : (s.withSlots x).time = s.time := rfl
@[simp] theorem withSlots_chip (x : List (Nat × Nat)) : (s.withSlots x).chip = s.chip := rfl
@[simp] theorem withSlots_lastKey (x : List (Nat × Nat)) : (s.withSlots x).lastKey = s.lastKey := rfl
@[simp] theorem withSlots_pipes (x : List (Nat × Nat)) : (s.withSlots x).pipes = s.pipes := rfl
@[simp] theorem withSlots_recirc (x : List (Nat × Nat)) : (s.withSlots x).recirc = s.recirc := rfl
@[simp] theorem withSlots_tcam (x : List (Nat × Nat)) : (s.withSlots x).tcam = s.tcam := rfl
@[simp] theorem withSlots_actions (x : List (Nat × Nat)) : (s.withSlots x).actions = s.actions := rfl
@[simp] theorem withSlots_eps (x : List (Nat × Nat)) : (s.withSlots x).eps = s.eps := rfl
@[simp] theorem withSlots_routes (x : List (Nat × Nat)) : (s.withSlots x).routes = s.routes := rfl
@[simp] theorem withSlots_vlans (x : List (Nat × Nat)) : (s.withSlots x).vlans = s.vlans := rfl
@[simp] theorem withSlots_tbls (x : List (Nat × Nat)) : (s.withSlots x).tbls = s.tbls := rfl
@[simp] theorem withSlots_engs (x : List (Nat × Nat)) : (s.withSlots x).engs = s.engs := rfl
@[simp] theorem withSlots_ctxs (x : List (Nat × Nat)) : (s.withSlots x).ctxs = s.ctxs := rfl
@[simp] theorem withSlots_hists (x : List (Nat × Nat)) : (s.withSlots x).hists = s.hists := rfl
@[simp] theorem withSlots_regx (x : List (Nat × Nat)) : (s.withSlots x).regx = s.regx := rfl
@[simp] theorem withSlots_wind (x : List (Nat × Nat)) : (s.withSlots x).wind = s.wind := rfl
@[simp] theorem withSlots_discards (x : List (Nat × Nat)) : (s.withSlots x).discards = s.discards := rfl
@[simp] theorem withSlots_bindErr (x : List (Nat × Nat)) : (s.withSlots x).bindErr = s.bindErr := rfl
@[simp] theorem withSlots_digs (x : List (Nat × Nat)) : (s.withSlots x).digs = s.digs := rfl
@[simp] theorem withSlots_pmp2 (x : List (Nat × Nat)) : (s.withSlots x).pmp2 = s.pmp2 := rfl
@[simp] theorem withSlots_rtHist (x : List (Nat × Nat)) : (s.withSlots x).rtHist = s.rtHist := rfl
@[simp] theorem withSlots_txs (x : List (Nat × Nat)) : (s.withSlots x).txs = s.txs := rfl
@[simp] theorem withSlots_hostRx (x : List (Nat × Nat)) : (s.withSlots x).hostRx = s.hostRx := rfl
@[simp] theorem withSlots_rrHost (x : List (Nat × Nat)) : (s.withSlots x).rrHost = s.rrHost := rfl
@[simp] theorem withSlots_pports (x : List (Nat × Nat)) : (s.withSlots x).pports = s.pports := rfl
@[simp] theorem withSlots_links (x : List (Nat × Nat)) : (s.withSlots x).links = s.links := rfl
@[simp] theorem withSlots_lanes (x : List (Nat × Nat)) : (s.withSlots x).lanes = s.lanes := rfl
@[simp] theorem withSlots_mcBad (x : List (Nat × Nat)) : (s.withSlots x).mcBad = s.mcBad := rfl
@[simp] theorem withSlots_pairx (x : List (Nat × Nat)) : (s.withSlots x).pairx = s.pairx := rfl
@[simp] theorem withSlots_hbmPc (x : List (Nat × Nat)) : (s.withSlots x).hbmPc = s.hbmPc := rfl
@[simp] theorem withSlots_hbmx (x : List (Nat × Nat)) : (s.withSlots x).hbmx = s.hbmx := rfl
@[simp] theorem withSlots_scrub (x : List (Nat × Nat)) : (s.withSlots x).scrub = s.scrub := rfl
@[simp] theorem withSlots_passes (x : List (Nat × Nat)) : (s.withSlots x).passes = s.passes := rfl
@[simp] theorem withSlots_pwr (x : List (Nat × Nat)) : (s.withSlots x).pwr = s.pwr := rfl
@[simp] theorem withSlots_tapx (x : List (Nat × Nat)) : (s.withSlots x).tapx = s.tapx := rfl
@[simp] theorem withSlots_countx (x : List (Nat × Nat)) : (s.withSlots x).countx = s.countx := rfl
@[simp] theorem withSlots_free (x : List (Nat × Nat)) : (s.withSlots x).free = s.free := rfl
@[simp] theorem withSlots_pending (x : List (Nat × Nat)) : (s.withSlots x).pending = s.pending := rfl
@[simp] theorem reg_withSlots (x : List (Nat × Nat)) (k : Nat) : (s.withSlots x).reg k = s.reg k := rfl
@[simp] theorem rf_withSlots (x : List (Nat × Nat)) (h : Fld) : (s.withSlots x).rf h = s.rf h := rfl
@[simp] theorem rb_withSlots (x : List (Nat × Nat)) (h : Fld) : (s.withSlots x).rb h = s.rb h := rfl
@[simp] theorem regsCanon_withSlots (x : List (Nat × Nat)) : (s.withSlots x).regsCanon = s.regsCanon := rfl

/-! `withEngs` -/

@[simp] theorem withEngs_regs (x : List (Nat × EngX)) : (s.withEngs x).regs = s.regs := rfl
@[simp] theorem withEngs_latch (x : List (Nat × EngX)) : (s.withEngs x).latch = s.latch := rfl
@[simp] theorem withEngs_hold (x : List (Nat × EngX)) : (s.withEngs x).hold = s.hold := rfl
@[simp] theorem withEngs_readData (x : List (Nat × EngX)) : (s.withEngs x).readData = s.readData := rfl
@[simp] theorem withEngs_hostMem (x : List (Nat × EngX)) : (s.withEngs x).hostMem = s.hostMem := rfl
@[simp] theorem withEngs_outputs (x : List (Nat × EngX)) : (s.withEngs x).outputs = s.outputs := rfl
@[simp] theorem withEngs_evts (x : List (Nat × EngX)) : (s.withEngs x).evts = s.evts := rfl
@[simp] theorem withEngs_rings (x : List (Nat × EngX)) : (s.withEngs x).rings = s.rings := rfl
@[simp] theorem withEngs_cfg (x : List (Nat × EngX)) : (s.withEngs x).cfg = s.cfg := rfl
@[simp] theorem withEngs_time (x : List (Nat × EngX)) : (s.withEngs x).time = s.time := rfl
@[simp] theorem withEngs_chip (x : List (Nat × EngX)) : (s.withEngs x).chip = s.chip := rfl
@[simp] theorem withEngs_lastKey (x : List (Nat × EngX)) : (s.withEngs x).lastKey = s.lastKey := rfl
@[simp] theorem withEngs_pipes (x : List (Nat × EngX)) : (s.withEngs x).pipes = s.pipes := rfl
@[simp] theorem withEngs_recirc (x : List (Nat × EngX)) : (s.withEngs x).recirc = s.recirc := rfl
@[simp] theorem withEngs_tcam (x : List (Nat × EngX)) : (s.withEngs x).tcam = s.tcam := rfl
@[simp] theorem withEngs_actions (x : List (Nat × EngX)) : (s.withEngs x).actions = s.actions := rfl
@[simp] theorem withEngs_eps (x : List (Nat × EngX)) : (s.withEngs x).eps = s.eps := rfl
@[simp] theorem withEngs_routes (x : List (Nat × EngX)) : (s.withEngs x).routes = s.routes := rfl
@[simp] theorem withEngs_vlans (x : List (Nat × EngX)) : (s.withEngs x).vlans = s.vlans := rfl
@[simp] theorem withEngs_tbls (x : List (Nat × EngX)) : (s.withEngs x).tbls = s.tbls := rfl
@[simp] theorem withEngs_slots (x : List (Nat × EngX)) : (s.withEngs x).slots = s.slots := rfl
@[simp] theorem withEngs_ctxs (x : List (Nat × EngX)) : (s.withEngs x).ctxs = s.ctxs := rfl
@[simp] theorem withEngs_hists (x : List (Nat × EngX)) : (s.withEngs x).hists = s.hists := rfl
@[simp] theorem withEngs_regx (x : List (Nat × EngX)) : (s.withEngs x).regx = s.regx := rfl
@[simp] theorem withEngs_wind (x : List (Nat × EngX)) : (s.withEngs x).wind = s.wind := rfl
@[simp] theorem withEngs_discards (x : List (Nat × EngX)) : (s.withEngs x).discards = s.discards := rfl
@[simp] theorem withEngs_bindErr (x : List (Nat × EngX)) : (s.withEngs x).bindErr = s.bindErr := rfl
@[simp] theorem withEngs_digs (x : List (Nat × EngX)) : (s.withEngs x).digs = s.digs := rfl
@[simp] theorem withEngs_pmp2 (x : List (Nat × EngX)) : (s.withEngs x).pmp2 = s.pmp2 := rfl
@[simp] theorem withEngs_rtHist (x : List (Nat × EngX)) : (s.withEngs x).rtHist = s.rtHist := rfl
@[simp] theorem withEngs_txs (x : List (Nat × EngX)) : (s.withEngs x).txs = s.txs := rfl
@[simp] theorem withEngs_hostRx (x : List (Nat × EngX)) : (s.withEngs x).hostRx = s.hostRx := rfl
@[simp] theorem withEngs_rrHost (x : List (Nat × EngX)) : (s.withEngs x).rrHost = s.rrHost := rfl
@[simp] theorem withEngs_pports (x : List (Nat × EngX)) : (s.withEngs x).pports = s.pports := rfl
@[simp] theorem withEngs_links (x : List (Nat × EngX)) : (s.withEngs x).links = s.links := rfl
@[simp] theorem withEngs_lanes (x : List (Nat × EngX)) : (s.withEngs x).lanes = s.lanes := rfl
@[simp] theorem withEngs_mcBad (x : List (Nat × EngX)) : (s.withEngs x).mcBad = s.mcBad := rfl
@[simp] theorem withEngs_pairx (x : List (Nat × EngX)) : (s.withEngs x).pairx = s.pairx := rfl
@[simp] theorem withEngs_hbmPc (x : List (Nat × EngX)) : (s.withEngs x).hbmPc = s.hbmPc := rfl
@[simp] theorem withEngs_hbmx (x : List (Nat × EngX)) : (s.withEngs x).hbmx = s.hbmx := rfl
@[simp] theorem withEngs_scrub (x : List (Nat × EngX)) : (s.withEngs x).scrub = s.scrub := rfl
@[simp] theorem withEngs_passes (x : List (Nat × EngX)) : (s.withEngs x).passes = s.passes := rfl
@[simp] theorem withEngs_pwr (x : List (Nat × EngX)) : (s.withEngs x).pwr = s.pwr := rfl
@[simp] theorem withEngs_tapx (x : List (Nat × EngX)) : (s.withEngs x).tapx = s.tapx := rfl
@[simp] theorem withEngs_countx (x : List (Nat × EngX)) : (s.withEngs x).countx = s.countx := rfl
@[simp] theorem withEngs_free (x : List (Nat × EngX)) : (s.withEngs x).free = s.free := rfl
@[simp] theorem withEngs_pending (x : List (Nat × EngX)) : (s.withEngs x).pending = s.pending := rfl
@[simp] theorem reg_withEngs (x : List (Nat × EngX)) (k : Nat) : (s.withEngs x).reg k = s.reg k := rfl
@[simp] theorem rf_withEngs (x : List (Nat × EngX)) (h : Fld) : (s.withEngs x).rf h = s.rf h := rfl
@[simp] theorem rb_withEngs (x : List (Nat × EngX)) (h : Fld) : (s.withEngs x).rb h = s.rb h := rfl
@[simp] theorem regsCanon_withEngs (x : List (Nat × EngX)) : (s.withEngs x).regsCanon = s.regsCanon := rfl

/-! `withCtxs` -/

@[simp] theorem withCtxs_regs (x : List (Nat × Option PumpCtx)) : (s.withCtxs x).regs = s.regs := rfl
@[simp] theorem withCtxs_latch (x : List (Nat × Option PumpCtx)) : (s.withCtxs x).latch = s.latch := rfl
@[simp] theorem withCtxs_hold (x : List (Nat × Option PumpCtx)) : (s.withCtxs x).hold = s.hold := rfl
@[simp] theorem withCtxs_readData (x : List (Nat × Option PumpCtx)) : (s.withCtxs x).readData = s.readData := rfl
@[simp] theorem withCtxs_hostMem (x : List (Nat × Option PumpCtx)) : (s.withCtxs x).hostMem = s.hostMem := rfl
@[simp] theorem withCtxs_outputs (x : List (Nat × Option PumpCtx)) : (s.withCtxs x).outputs = s.outputs := rfl
@[simp] theorem withCtxs_evts (x : List (Nat × Option PumpCtx)) : (s.withCtxs x).evts = s.evts := rfl
@[simp] theorem withCtxs_rings (x : List (Nat × Option PumpCtx)) : (s.withCtxs x).rings = s.rings := rfl
@[simp] theorem withCtxs_cfg (x : List (Nat × Option PumpCtx)) : (s.withCtxs x).cfg = s.cfg := rfl
@[simp] theorem withCtxs_time (x : List (Nat × Option PumpCtx)) : (s.withCtxs x).time = s.time := rfl
@[simp] theorem withCtxs_chip (x : List (Nat × Option PumpCtx)) : (s.withCtxs x).chip = s.chip := rfl
@[simp] theorem withCtxs_lastKey (x : List (Nat × Option PumpCtx)) : (s.withCtxs x).lastKey = s.lastKey := rfl
@[simp] theorem withCtxs_pipes (x : List (Nat × Option PumpCtx)) : (s.withCtxs x).pipes = s.pipes := rfl
@[simp] theorem withCtxs_recirc (x : List (Nat × Option PumpCtx)) : (s.withCtxs x).recirc = s.recirc := rfl
@[simp] theorem withCtxs_tcam (x : List (Nat × Option PumpCtx)) : (s.withCtxs x).tcam = s.tcam := rfl
@[simp] theorem withCtxs_actions (x : List (Nat × Option PumpCtx)) : (s.withCtxs x).actions = s.actions := rfl
@[simp] theorem withCtxs_eps (x : List (Nat × Option PumpCtx)) : (s.withCtxs x).eps = s.eps := rfl
@[simp] theorem withCtxs_routes (x : List (Nat × Option PumpCtx)) : (s.withCtxs x).routes = s.routes := rfl
@[simp] theorem withCtxs_vlans (x : List (Nat × Option PumpCtx)) : (s.withCtxs x).vlans = s.vlans := rfl
@[simp] theorem withCtxs_tbls (x : List (Nat × Option PumpCtx)) : (s.withCtxs x).tbls = s.tbls := rfl
@[simp] theorem withCtxs_slots (x : List (Nat × Option PumpCtx)) : (s.withCtxs x).slots = s.slots := rfl
@[simp] theorem withCtxs_engs (x : List (Nat × Option PumpCtx)) : (s.withCtxs x).engs = s.engs := rfl
@[simp] theorem withCtxs_hists (x : List (Nat × Option PumpCtx)) : (s.withCtxs x).hists = s.hists := rfl
@[simp] theorem withCtxs_regx (x : List (Nat × Option PumpCtx)) : (s.withCtxs x).regx = s.regx := rfl
@[simp] theorem withCtxs_wind (x : List (Nat × Option PumpCtx)) : (s.withCtxs x).wind = s.wind := rfl
@[simp] theorem withCtxs_discards (x : List (Nat × Option PumpCtx)) : (s.withCtxs x).discards = s.discards := rfl
@[simp] theorem withCtxs_bindErr (x : List (Nat × Option PumpCtx)) : (s.withCtxs x).bindErr = s.bindErr := rfl
@[simp] theorem withCtxs_digs (x : List (Nat × Option PumpCtx)) : (s.withCtxs x).digs = s.digs := rfl
@[simp] theorem withCtxs_pmp2 (x : List (Nat × Option PumpCtx)) : (s.withCtxs x).pmp2 = s.pmp2 := rfl
@[simp] theorem withCtxs_rtHist (x : List (Nat × Option PumpCtx)) : (s.withCtxs x).rtHist = s.rtHist := rfl
@[simp] theorem withCtxs_txs (x : List (Nat × Option PumpCtx)) : (s.withCtxs x).txs = s.txs := rfl
@[simp] theorem withCtxs_hostRx (x : List (Nat × Option PumpCtx)) : (s.withCtxs x).hostRx = s.hostRx := rfl
@[simp] theorem withCtxs_rrHost (x : List (Nat × Option PumpCtx)) : (s.withCtxs x).rrHost = s.rrHost := rfl
@[simp] theorem withCtxs_pports (x : List (Nat × Option PumpCtx)) : (s.withCtxs x).pports = s.pports := rfl
@[simp] theorem withCtxs_links (x : List (Nat × Option PumpCtx)) : (s.withCtxs x).links = s.links := rfl
@[simp] theorem withCtxs_lanes (x : List (Nat × Option PumpCtx)) : (s.withCtxs x).lanes = s.lanes := rfl
@[simp] theorem withCtxs_mcBad (x : List (Nat × Option PumpCtx)) : (s.withCtxs x).mcBad = s.mcBad := rfl
@[simp] theorem withCtxs_pairx (x : List (Nat × Option PumpCtx)) : (s.withCtxs x).pairx = s.pairx := rfl
@[simp] theorem withCtxs_hbmPc (x : List (Nat × Option PumpCtx)) : (s.withCtxs x).hbmPc = s.hbmPc := rfl
@[simp] theorem withCtxs_hbmx (x : List (Nat × Option PumpCtx)) : (s.withCtxs x).hbmx = s.hbmx := rfl
@[simp] theorem withCtxs_scrub (x : List (Nat × Option PumpCtx)) : (s.withCtxs x).scrub = s.scrub := rfl
@[simp] theorem withCtxs_passes (x : List (Nat × Option PumpCtx)) : (s.withCtxs x).passes = s.passes := rfl
@[simp] theorem withCtxs_pwr (x : List (Nat × Option PumpCtx)) : (s.withCtxs x).pwr = s.pwr := rfl
@[simp] theorem withCtxs_tapx (x : List (Nat × Option PumpCtx)) : (s.withCtxs x).tapx = s.tapx := rfl
@[simp] theorem withCtxs_countx (x : List (Nat × Option PumpCtx)) : (s.withCtxs x).countx = s.countx := rfl
@[simp] theorem withCtxs_free (x : List (Nat × Option PumpCtx)) : (s.withCtxs x).free = s.free := rfl
@[simp] theorem withCtxs_pending (x : List (Nat × Option PumpCtx)) : (s.withCtxs x).pending = s.pending := rfl
@[simp] theorem reg_withCtxs (x : List (Nat × Option PumpCtx)) (k : Nat) : (s.withCtxs x).reg k = s.reg k := rfl
@[simp] theorem rf_withCtxs (x : List (Nat × Option PumpCtx)) (h : Fld) : (s.withCtxs x).rf h = s.rf h := rfl
@[simp] theorem rb_withCtxs (x : List (Nat × Option PumpCtx)) (h : Fld) : (s.withCtxs x).rb h = s.rb h := rfl
@[simp] theorem regsCanon_withCtxs (x : List (Nat × Option PumpCtx)) : (s.withCtxs x).regsCanon = s.regsCanon := rfl

/-! `withHists` -/

@[simp] theorem withHists_regs (x : List (Nat × Nat)) : (s.withHists x).regs = s.regs := rfl
@[simp] theorem withHists_latch (x : List (Nat × Nat)) : (s.withHists x).latch = s.latch := rfl
@[simp] theorem withHists_hold (x : List (Nat × Nat)) : (s.withHists x).hold = s.hold := rfl
@[simp] theorem withHists_readData (x : List (Nat × Nat)) : (s.withHists x).readData = s.readData := rfl
@[simp] theorem withHists_hostMem (x : List (Nat × Nat)) : (s.withHists x).hostMem = s.hostMem := rfl
@[simp] theorem withHists_outputs (x : List (Nat × Nat)) : (s.withHists x).outputs = s.outputs := rfl
@[simp] theorem withHists_evts (x : List (Nat × Nat)) : (s.withHists x).evts = s.evts := rfl
@[simp] theorem withHists_rings (x : List (Nat × Nat)) : (s.withHists x).rings = s.rings := rfl
@[simp] theorem withHists_cfg (x : List (Nat × Nat)) : (s.withHists x).cfg = s.cfg := rfl
@[simp] theorem withHists_time (x : List (Nat × Nat)) : (s.withHists x).time = s.time := rfl
@[simp] theorem withHists_chip (x : List (Nat × Nat)) : (s.withHists x).chip = s.chip := rfl
@[simp] theorem withHists_lastKey (x : List (Nat × Nat)) : (s.withHists x).lastKey = s.lastKey := rfl
@[simp] theorem withHists_pipes (x : List (Nat × Nat)) : (s.withHists x).pipes = s.pipes := rfl
@[simp] theorem withHists_recirc (x : List (Nat × Nat)) : (s.withHists x).recirc = s.recirc := rfl
@[simp] theorem withHists_tcam (x : List (Nat × Nat)) : (s.withHists x).tcam = s.tcam := rfl
@[simp] theorem withHists_actions (x : List (Nat × Nat)) : (s.withHists x).actions = s.actions := rfl
@[simp] theorem withHists_eps (x : List (Nat × Nat)) : (s.withHists x).eps = s.eps := rfl
@[simp] theorem withHists_routes (x : List (Nat × Nat)) : (s.withHists x).routes = s.routes := rfl
@[simp] theorem withHists_vlans (x : List (Nat × Nat)) : (s.withHists x).vlans = s.vlans := rfl
@[simp] theorem withHists_tbls (x : List (Nat × Nat)) : (s.withHists x).tbls = s.tbls := rfl
@[simp] theorem withHists_slots (x : List (Nat × Nat)) : (s.withHists x).slots = s.slots := rfl
@[simp] theorem withHists_engs (x : List (Nat × Nat)) : (s.withHists x).engs = s.engs := rfl
@[simp] theorem withHists_ctxs (x : List (Nat × Nat)) : (s.withHists x).ctxs = s.ctxs := rfl
@[simp] theorem withHists_regx (x : List (Nat × Nat)) : (s.withHists x).regx = s.regx := rfl
@[simp] theorem withHists_wind (x : List (Nat × Nat)) : (s.withHists x).wind = s.wind := rfl
@[simp] theorem withHists_discards (x : List (Nat × Nat)) : (s.withHists x).discards = s.discards := rfl
@[simp] theorem withHists_bindErr (x : List (Nat × Nat)) : (s.withHists x).bindErr = s.bindErr := rfl
@[simp] theorem withHists_digs (x : List (Nat × Nat)) : (s.withHists x).digs = s.digs := rfl
@[simp] theorem withHists_pmp2 (x : List (Nat × Nat)) : (s.withHists x).pmp2 = s.pmp2 := rfl
@[simp] theorem withHists_rtHist (x : List (Nat × Nat)) : (s.withHists x).rtHist = s.rtHist := rfl
@[simp] theorem withHists_txs (x : List (Nat × Nat)) : (s.withHists x).txs = s.txs := rfl
@[simp] theorem withHists_hostRx (x : List (Nat × Nat)) : (s.withHists x).hostRx = s.hostRx := rfl
@[simp] theorem withHists_rrHost (x : List (Nat × Nat)) : (s.withHists x).rrHost = s.rrHost := rfl
@[simp] theorem withHists_pports (x : List (Nat × Nat)) : (s.withHists x).pports = s.pports := rfl
@[simp] theorem withHists_links (x : List (Nat × Nat)) : (s.withHists x).links = s.links := rfl
@[simp] theorem withHists_lanes (x : List (Nat × Nat)) : (s.withHists x).lanes = s.lanes := rfl
@[simp] theorem withHists_mcBad (x : List (Nat × Nat)) : (s.withHists x).mcBad = s.mcBad := rfl
@[simp] theorem withHists_pairx (x : List (Nat × Nat)) : (s.withHists x).pairx = s.pairx := rfl
@[simp] theorem withHists_hbmPc (x : List (Nat × Nat)) : (s.withHists x).hbmPc = s.hbmPc := rfl
@[simp] theorem withHists_hbmx (x : List (Nat × Nat)) : (s.withHists x).hbmx = s.hbmx := rfl
@[simp] theorem withHists_scrub (x : List (Nat × Nat)) : (s.withHists x).scrub = s.scrub := rfl
@[simp] theorem withHists_passes (x : List (Nat × Nat)) : (s.withHists x).passes = s.passes := rfl
@[simp] theorem withHists_pwr (x : List (Nat × Nat)) : (s.withHists x).pwr = s.pwr := rfl
@[simp] theorem withHists_tapx (x : List (Nat × Nat)) : (s.withHists x).tapx = s.tapx := rfl
@[simp] theorem withHists_countx (x : List (Nat × Nat)) : (s.withHists x).countx = s.countx := rfl
@[simp] theorem withHists_free (x : List (Nat × Nat)) : (s.withHists x).free = s.free := rfl
@[simp] theorem withHists_pending (x : List (Nat × Nat)) : (s.withHists x).pending = s.pending := rfl
@[simp] theorem reg_withHists (x : List (Nat × Nat)) (k : Nat) : (s.withHists x).reg k = s.reg k := rfl
@[simp] theorem rf_withHists (x : List (Nat × Nat)) (h : Fld) : (s.withHists x).rf h = s.rf h := rfl
@[simp] theorem rb_withHists (x : List (Nat × Nat)) (h : Fld) : (s.withHists x).rb h = s.rb h := rfl
@[simp] theorem regsCanon_withHists (x : List (Nat × Nat)) : (s.withHists x).regsCanon = s.regsCanon := rfl

/-! `withWind` -/

@[simp] theorem withWind_regs (x : WindX) : (s.withWind x).regs = s.regs := rfl
@[simp] theorem withWind_latch (x : WindX) : (s.withWind x).latch = s.latch := rfl
@[simp] theorem withWind_hold (x : WindX) : (s.withWind x).hold = s.hold := rfl
@[simp] theorem withWind_readData (x : WindX) : (s.withWind x).readData = s.readData := rfl
@[simp] theorem withWind_hostMem (x : WindX) : (s.withWind x).hostMem = s.hostMem := rfl
@[simp] theorem withWind_outputs (x : WindX) : (s.withWind x).outputs = s.outputs := rfl
@[simp] theorem withWind_evts (x : WindX) : (s.withWind x).evts = s.evts := rfl
@[simp] theorem withWind_rings (x : WindX) : (s.withWind x).rings = s.rings := rfl
@[simp] theorem withWind_cfg (x : WindX) : (s.withWind x).cfg = s.cfg := rfl
@[simp] theorem withWind_time (x : WindX) : (s.withWind x).time = s.time := rfl
@[simp] theorem withWind_chip (x : WindX) : (s.withWind x).chip = s.chip := rfl
@[simp] theorem withWind_lastKey (x : WindX) : (s.withWind x).lastKey = s.lastKey := rfl
@[simp] theorem withWind_pipes (x : WindX) : (s.withWind x).pipes = s.pipes := rfl
@[simp] theorem withWind_recirc (x : WindX) : (s.withWind x).recirc = s.recirc := rfl
@[simp] theorem withWind_tcam (x : WindX) : (s.withWind x).tcam = s.tcam := rfl
@[simp] theorem withWind_actions (x : WindX) : (s.withWind x).actions = s.actions := rfl
@[simp] theorem withWind_eps (x : WindX) : (s.withWind x).eps = s.eps := rfl
@[simp] theorem withWind_routes (x : WindX) : (s.withWind x).routes = s.routes := rfl
@[simp] theorem withWind_vlans (x : WindX) : (s.withWind x).vlans = s.vlans := rfl
@[simp] theorem withWind_tbls (x : WindX) : (s.withWind x).tbls = s.tbls := rfl
@[simp] theorem withWind_slots (x : WindX) : (s.withWind x).slots = s.slots := rfl
@[simp] theorem withWind_engs (x : WindX) : (s.withWind x).engs = s.engs := rfl
@[simp] theorem withWind_ctxs (x : WindX) : (s.withWind x).ctxs = s.ctxs := rfl
@[simp] theorem withWind_hists (x : WindX) : (s.withWind x).hists = s.hists := rfl
@[simp] theorem withWind_regx (x : WindX) : (s.withWind x).regx = s.regx := rfl
@[simp] theorem withWind_discards (x : WindX) : (s.withWind x).discards = s.discards := rfl
@[simp] theorem withWind_bindErr (x : WindX) : (s.withWind x).bindErr = s.bindErr := rfl
@[simp] theorem withWind_digs (x : WindX) : (s.withWind x).digs = s.digs := rfl
@[simp] theorem withWind_pmp2 (x : WindX) : (s.withWind x).pmp2 = s.pmp2 := rfl
@[simp] theorem withWind_rtHist (x : WindX) : (s.withWind x).rtHist = s.rtHist := rfl
@[simp] theorem withWind_txs (x : WindX) : (s.withWind x).txs = s.txs := rfl
@[simp] theorem withWind_hostRx (x : WindX) : (s.withWind x).hostRx = s.hostRx := rfl
@[simp] theorem withWind_rrHost (x : WindX) : (s.withWind x).rrHost = s.rrHost := rfl
@[simp] theorem withWind_pports (x : WindX) : (s.withWind x).pports = s.pports := rfl
@[simp] theorem withWind_links (x : WindX) : (s.withWind x).links = s.links := rfl
@[simp] theorem withWind_lanes (x : WindX) : (s.withWind x).lanes = s.lanes := rfl
@[simp] theorem withWind_mcBad (x : WindX) : (s.withWind x).mcBad = s.mcBad := rfl
@[simp] theorem withWind_pairx (x : WindX) : (s.withWind x).pairx = s.pairx := rfl
@[simp] theorem withWind_hbmPc (x : WindX) : (s.withWind x).hbmPc = s.hbmPc := rfl
@[simp] theorem withWind_hbmx (x : WindX) : (s.withWind x).hbmx = s.hbmx := rfl
@[simp] theorem withWind_scrub (x : WindX) : (s.withWind x).scrub = s.scrub := rfl
@[simp] theorem withWind_passes (x : WindX) : (s.withWind x).passes = s.passes := rfl
@[simp] theorem withWind_pwr (x : WindX) : (s.withWind x).pwr = s.pwr := rfl
@[simp] theorem withWind_tapx (x : WindX) : (s.withWind x).tapx = s.tapx := rfl
@[simp] theorem withWind_countx (x : WindX) : (s.withWind x).countx = s.countx := rfl
@[simp] theorem withWind_free (x : WindX) : (s.withWind x).free = s.free := rfl
@[simp] theorem withWind_pending (x : WindX) : (s.withWind x).pending = s.pending := rfl
@[simp] theorem reg_withWind (x : WindX) (k : Nat) : (s.withWind x).reg k = s.reg k := rfl
@[simp] theorem rf_withWind (x : WindX) (h : Fld) : (s.withWind x).rf h = s.rf h := rfl
@[simp] theorem rb_withWind (x : WindX) (h : Fld) : (s.withWind x).rb h = s.rb h := rfl
@[simp] theorem regsCanon_withWind (x : WindX) : (s.withWind x).regsCanon = s.regsCanon := rfl

/-! `withDiscards` -/

@[simp] theorem withDiscards_regs (x : Nat) : (s.withDiscards x).regs = s.regs := rfl
@[simp] theorem withDiscards_latch (x : Nat) : (s.withDiscards x).latch = s.latch := rfl
@[simp] theorem withDiscards_hold (x : Nat) : (s.withDiscards x).hold = s.hold := rfl
@[simp] theorem withDiscards_readData (x : Nat) : (s.withDiscards x).readData = s.readData := rfl
@[simp] theorem withDiscards_hostMem (x : Nat) : (s.withDiscards x).hostMem = s.hostMem := rfl
@[simp] theorem withDiscards_outputs (x : Nat) : (s.withDiscards x).outputs = s.outputs := rfl
@[simp] theorem withDiscards_evts (x : Nat) : (s.withDiscards x).evts = s.evts := rfl
@[simp] theorem withDiscards_rings (x : Nat) : (s.withDiscards x).rings = s.rings := rfl
@[simp] theorem withDiscards_cfg (x : Nat) : (s.withDiscards x).cfg = s.cfg := rfl
@[simp] theorem withDiscards_time (x : Nat) : (s.withDiscards x).time = s.time := rfl
@[simp] theorem withDiscards_chip (x : Nat) : (s.withDiscards x).chip = s.chip := rfl
@[simp] theorem withDiscards_lastKey (x : Nat) : (s.withDiscards x).lastKey = s.lastKey := rfl
@[simp] theorem withDiscards_pipes (x : Nat) : (s.withDiscards x).pipes = s.pipes := rfl
@[simp] theorem withDiscards_recirc (x : Nat) : (s.withDiscards x).recirc = s.recirc := rfl
@[simp] theorem withDiscards_tcam (x : Nat) : (s.withDiscards x).tcam = s.tcam := rfl
@[simp] theorem withDiscards_actions (x : Nat) : (s.withDiscards x).actions = s.actions := rfl
@[simp] theorem withDiscards_eps (x : Nat) : (s.withDiscards x).eps = s.eps := rfl
@[simp] theorem withDiscards_routes (x : Nat) : (s.withDiscards x).routes = s.routes := rfl
@[simp] theorem withDiscards_vlans (x : Nat) : (s.withDiscards x).vlans = s.vlans := rfl
@[simp] theorem withDiscards_tbls (x : Nat) : (s.withDiscards x).tbls = s.tbls := rfl
@[simp] theorem withDiscards_slots (x : Nat) : (s.withDiscards x).slots = s.slots := rfl
@[simp] theorem withDiscards_engs (x : Nat) : (s.withDiscards x).engs = s.engs := rfl
@[simp] theorem withDiscards_ctxs (x : Nat) : (s.withDiscards x).ctxs = s.ctxs := rfl
@[simp] theorem withDiscards_hists (x : Nat) : (s.withDiscards x).hists = s.hists := rfl
@[simp] theorem withDiscards_regx (x : Nat) : (s.withDiscards x).regx = s.regx := rfl
@[simp] theorem withDiscards_wind (x : Nat) : (s.withDiscards x).wind = s.wind := rfl
@[simp] theorem withDiscards_digs (x : Nat) : (s.withDiscards x).digs = s.digs := rfl
@[simp] theorem withDiscards_bindErr (x : Nat) : (s.withDiscards x).bindErr = s.bindErr := rfl
@[simp] theorem withDiscards_pmp2 (x : Nat) : (s.withDiscards x).pmp2 = s.pmp2 := rfl
@[simp] theorem withDiscards_rtHist (x : Nat) : (s.withDiscards x).rtHist = s.rtHist := rfl
@[simp] theorem withDiscards_txs (x : Nat) : (s.withDiscards x).txs = s.txs := rfl
@[simp] theorem withDiscards_hostRx (x : Nat) : (s.withDiscards x).hostRx = s.hostRx := rfl
@[simp] theorem withDiscards_rrHost (x : Nat) : (s.withDiscards x).rrHost = s.rrHost := rfl
@[simp] theorem withDiscards_pports (x : Nat) : (s.withDiscards x).pports = s.pports := rfl
@[simp] theorem withDiscards_links (x : Nat) : (s.withDiscards x).links = s.links := rfl
@[simp] theorem withDiscards_lanes (x : Nat) : (s.withDiscards x).lanes = s.lanes := rfl
@[simp] theorem withDiscards_mcBad (x : Nat) : (s.withDiscards x).mcBad = s.mcBad := rfl
@[simp] theorem withDiscards_pairx (x : Nat) : (s.withDiscards x).pairx = s.pairx := rfl
@[simp] theorem withDiscards_hbmPc (x : Nat) : (s.withDiscards x).hbmPc = s.hbmPc := rfl
@[simp] theorem withDiscards_hbmx (x : Nat) : (s.withDiscards x).hbmx = s.hbmx := rfl
@[simp] theorem withDiscards_scrub (x : Nat) : (s.withDiscards x).scrub = s.scrub := rfl
@[simp] theorem withDiscards_passes (x : Nat) : (s.withDiscards x).passes = s.passes := rfl
@[simp] theorem withDiscards_pwr (x : Nat) : (s.withDiscards x).pwr = s.pwr := rfl
@[simp] theorem withDiscards_tapx (x : Nat) : (s.withDiscards x).tapx = s.tapx := rfl
@[simp] theorem withDiscards_countx (x : Nat) : (s.withDiscards x).countx = s.countx := rfl
@[simp] theorem withDiscards_free (x : Nat) : (s.withDiscards x).free = s.free := rfl
@[simp] theorem withDiscards_pending (x : Nat) : (s.withDiscards x).pending = s.pending := rfl
@[simp] theorem reg_withDiscards (x : Nat) (k : Nat) : (s.withDiscards x).reg k = s.reg k := rfl
@[simp] theorem rf_withDiscards (x : Nat) (h : Fld) : (s.withDiscards x).rf h = s.rf h := rfl
@[simp] theorem rb_withDiscards (x : Nat) (h : Fld) : (s.withDiscards x).rb h = s.rb h := rfl
@[simp] theorem regsCanon_withDiscards (x : Nat) : (s.withDiscards x).regsCanon = s.regsCanon := rfl

/-! `withDigs` -/

@[simp] theorem withDigs_regs (x : List (Nat × Nat)) : (s.withDigs x).regs = s.regs := rfl
@[simp] theorem withDigs_latch (x : List (Nat × Nat)) : (s.withDigs x).latch = s.latch := rfl
@[simp] theorem withDigs_hold (x : List (Nat × Nat)) : (s.withDigs x).hold = s.hold := rfl
@[simp] theorem withDigs_readData (x : List (Nat × Nat)) : (s.withDigs x).readData = s.readData := rfl
@[simp] theorem withDigs_hostMem (x : List (Nat × Nat)) : (s.withDigs x).hostMem = s.hostMem := rfl
@[simp] theorem withDigs_outputs (x : List (Nat × Nat)) : (s.withDigs x).outputs = s.outputs := rfl
@[simp] theorem withDigs_evts (x : List (Nat × Nat)) : (s.withDigs x).evts = s.evts := rfl
@[simp] theorem withDigs_rings (x : List (Nat × Nat)) : (s.withDigs x).rings = s.rings := rfl
@[simp] theorem withDigs_cfg (x : List (Nat × Nat)) : (s.withDigs x).cfg = s.cfg := rfl
@[simp] theorem withDigs_time (x : List (Nat × Nat)) : (s.withDigs x).time = s.time := rfl
@[simp] theorem withDigs_chip (x : List (Nat × Nat)) : (s.withDigs x).chip = s.chip := rfl
@[simp] theorem withDigs_lastKey (x : List (Nat × Nat)) : (s.withDigs x).lastKey = s.lastKey := rfl
@[simp] theorem withDigs_pipes (x : List (Nat × Nat)) : (s.withDigs x).pipes = s.pipes := rfl
@[simp] theorem withDigs_recirc (x : List (Nat × Nat)) : (s.withDigs x).recirc = s.recirc := rfl
@[simp] theorem withDigs_tcam (x : List (Nat × Nat)) : (s.withDigs x).tcam = s.tcam := rfl
@[simp] theorem withDigs_actions (x : List (Nat × Nat)) : (s.withDigs x).actions = s.actions := rfl
@[simp] theorem withDigs_eps (x : List (Nat × Nat)) : (s.withDigs x).eps = s.eps := rfl
@[simp] theorem withDigs_routes (x : List (Nat × Nat)) : (s.withDigs x).routes = s.routes := rfl
@[simp] theorem withDigs_vlans (x : List (Nat × Nat)) : (s.withDigs x).vlans = s.vlans := rfl
@[simp] theorem withDigs_tbls (x : List (Nat × Nat)) : (s.withDigs x).tbls = s.tbls := rfl
@[simp] theorem withDigs_slots (x : List (Nat × Nat)) : (s.withDigs x).slots = s.slots := rfl
@[simp] theorem withDigs_engs (x : List (Nat × Nat)) : (s.withDigs x).engs = s.engs := rfl
@[simp] theorem withDigs_ctxs (x : List (Nat × Nat)) : (s.withDigs x).ctxs = s.ctxs := rfl
@[simp] theorem withDigs_hists (x : List (Nat × Nat)) : (s.withDigs x).hists = s.hists := rfl
@[simp] theorem withDigs_regx (x : List (Nat × Nat)) : (s.withDigs x).regx = s.regx := rfl
@[simp] theorem withDigs_wind (x : List (Nat × Nat)) : (s.withDigs x).wind = s.wind := rfl
@[simp] theorem withDigs_discards (x : List (Nat × Nat)) : (s.withDigs x).discards = s.discards := rfl
@[simp] theorem withDigs_bindErr (x : List (Nat × Nat)) : (s.withDigs x).bindErr = s.bindErr := rfl
@[simp] theorem withDigs_pmp2 (x : List (Nat × Nat)) : (s.withDigs x).pmp2 = s.pmp2 := rfl
@[simp] theorem withDigs_rtHist (x : List (Nat × Nat)) : (s.withDigs x).rtHist = s.rtHist := rfl
@[simp] theorem withDigs_txs (x : List (Nat × Nat)) : (s.withDigs x).txs = s.txs := rfl
@[simp] theorem withDigs_hostRx (x : List (Nat × Nat)) : (s.withDigs x).hostRx = s.hostRx := rfl
@[simp] theorem withDigs_rrHost (x : List (Nat × Nat)) : (s.withDigs x).rrHost = s.rrHost := rfl
@[simp] theorem withDigs_pports (x : List (Nat × Nat)) : (s.withDigs x).pports = s.pports := rfl
@[simp] theorem withDigs_links (x : List (Nat × Nat)) : (s.withDigs x).links = s.links := rfl
@[simp] theorem withDigs_lanes (x : List (Nat × Nat)) : (s.withDigs x).lanes = s.lanes := rfl
@[simp] theorem withDigs_mcBad (x : List (Nat × Nat)) : (s.withDigs x).mcBad = s.mcBad := rfl
@[simp] theorem withDigs_pairx (x : List (Nat × Nat)) : (s.withDigs x).pairx = s.pairx := rfl
@[simp] theorem withDigs_hbmPc (x : List (Nat × Nat)) : (s.withDigs x).hbmPc = s.hbmPc := rfl
@[simp] theorem withDigs_hbmx (x : List (Nat × Nat)) : (s.withDigs x).hbmx = s.hbmx := rfl
@[simp] theorem withDigs_scrub (x : List (Nat × Nat)) : (s.withDigs x).scrub = s.scrub := rfl
@[simp] theorem withDigs_passes (x : List (Nat × Nat)) : (s.withDigs x).passes = s.passes := rfl
@[simp] theorem withDigs_pwr (x : List (Nat × Nat)) : (s.withDigs x).pwr = s.pwr := rfl
@[simp] theorem withDigs_tapx (x : List (Nat × Nat)) : (s.withDigs x).tapx = s.tapx := rfl
@[simp] theorem withDigs_countx (x : List (Nat × Nat)) : (s.withDigs x).countx = s.countx := rfl
@[simp] theorem withDigs_free (x : List (Nat × Nat)) : (s.withDigs x).free = s.free := rfl
@[simp] theorem withDigs_pending (x : List (Nat × Nat)) : (s.withDigs x).pending = s.pending := rfl
@[simp] theorem reg_withDigs (x : List (Nat × Nat)) (k : Nat) : (s.withDigs x).reg k = s.reg k := rfl
@[simp] theorem rf_withDigs (x : List (Nat × Nat)) (h : Fld) : (s.withDigs x).rf h = s.rf h := rfl
@[simp] theorem rb_withDigs (x : List (Nat × Nat)) (h : Fld) : (s.withDigs x).rb h = s.rb h := rfl
@[simp] theorem regsCanon_withDigs (x : List (Nat × Nat)) : (s.withDigs x).regsCanon = s.regsCanon := rfl

/-! `withPmp2` -/

@[simp] theorem withPmp2_regs (x : List (Nat × Nat)) : (s.withPmp2 x).regs = s.regs := rfl
@[simp] theorem withPmp2_latch (x : List (Nat × Nat)) : (s.withPmp2 x).latch = s.latch := rfl
@[simp] theorem withPmp2_hold (x : List (Nat × Nat)) : (s.withPmp2 x).hold = s.hold := rfl
@[simp] theorem withPmp2_readData (x : List (Nat × Nat)) : (s.withPmp2 x).readData = s.readData := rfl
@[simp] theorem withPmp2_hostMem (x : List (Nat × Nat)) : (s.withPmp2 x).hostMem = s.hostMem := rfl
@[simp] theorem withPmp2_outputs (x : List (Nat × Nat)) : (s.withPmp2 x).outputs = s.outputs := rfl
@[simp] theorem withPmp2_evts (x : List (Nat × Nat)) : (s.withPmp2 x).evts = s.evts := rfl
@[simp] theorem withPmp2_rings (x : List (Nat × Nat)) : (s.withPmp2 x).rings = s.rings := rfl
@[simp] theorem withPmp2_cfg (x : List (Nat × Nat)) : (s.withPmp2 x).cfg = s.cfg := rfl
@[simp] theorem withPmp2_time (x : List (Nat × Nat)) : (s.withPmp2 x).time = s.time := rfl
@[simp] theorem withPmp2_chip (x : List (Nat × Nat)) : (s.withPmp2 x).chip = s.chip := rfl
@[simp] theorem withPmp2_lastKey (x : List (Nat × Nat)) : (s.withPmp2 x).lastKey = s.lastKey := rfl
@[simp] theorem withPmp2_pipes (x : List (Nat × Nat)) : (s.withPmp2 x).pipes = s.pipes := rfl
@[simp] theorem withPmp2_recirc (x : List (Nat × Nat)) : (s.withPmp2 x).recirc = s.recirc := rfl
@[simp] theorem withPmp2_tcam (x : List (Nat × Nat)) : (s.withPmp2 x).tcam = s.tcam := rfl
@[simp] theorem withPmp2_actions (x : List (Nat × Nat)) : (s.withPmp2 x).actions = s.actions := rfl
@[simp] theorem withPmp2_eps (x : List (Nat × Nat)) : (s.withPmp2 x).eps = s.eps := rfl
@[simp] theorem withPmp2_routes (x : List (Nat × Nat)) : (s.withPmp2 x).routes = s.routes := rfl
@[simp] theorem withPmp2_vlans (x : List (Nat × Nat)) : (s.withPmp2 x).vlans = s.vlans := rfl
@[simp] theorem withPmp2_tbls (x : List (Nat × Nat)) : (s.withPmp2 x).tbls = s.tbls := rfl
@[simp] theorem withPmp2_slots (x : List (Nat × Nat)) : (s.withPmp2 x).slots = s.slots := rfl
@[simp] theorem withPmp2_engs (x : List (Nat × Nat)) : (s.withPmp2 x).engs = s.engs := rfl
@[simp] theorem withPmp2_ctxs (x : List (Nat × Nat)) : (s.withPmp2 x).ctxs = s.ctxs := rfl
@[simp] theorem withPmp2_hists (x : List (Nat × Nat)) : (s.withPmp2 x).hists = s.hists := rfl
@[simp] theorem withPmp2_regx (x : List (Nat × Nat)) : (s.withPmp2 x).regx = s.regx := rfl
@[simp] theorem withPmp2_wind (x : List (Nat × Nat)) : (s.withPmp2 x).wind = s.wind := rfl
@[simp] theorem withPmp2_discards (x : List (Nat × Nat)) : (s.withPmp2 x).discards = s.discards := rfl
@[simp] theorem withPmp2_bindErr (x : List (Nat × Nat)) : (s.withPmp2 x).bindErr = s.bindErr := rfl
@[simp] theorem withPmp2_digs (x : List (Nat × Nat)) : (s.withPmp2 x).digs = s.digs := rfl
@[simp] theorem withPmp2_rtHist (x : List (Nat × Nat)) : (s.withPmp2 x).rtHist = s.rtHist := rfl
@[simp] theorem withPmp2_txs (x : List (Nat × Nat)) : (s.withPmp2 x).txs = s.txs := rfl
@[simp] theorem withPmp2_hostRx (x : List (Nat × Nat)) : (s.withPmp2 x).hostRx = s.hostRx := rfl
@[simp] theorem withPmp2_rrHost (x : List (Nat × Nat)) : (s.withPmp2 x).rrHost = s.rrHost := rfl
@[simp] theorem withPmp2_pports (x : List (Nat × Nat)) : (s.withPmp2 x).pports = s.pports := rfl
@[simp] theorem withPmp2_links (x : List (Nat × Nat)) : (s.withPmp2 x).links = s.links := rfl
@[simp] theorem withPmp2_lanes (x : List (Nat × Nat)) : (s.withPmp2 x).lanes = s.lanes := rfl
@[simp] theorem withPmp2_mcBad (x : List (Nat × Nat)) : (s.withPmp2 x).mcBad = s.mcBad := rfl
@[simp] theorem withPmp2_pairx (x : List (Nat × Nat)) : (s.withPmp2 x).pairx = s.pairx := rfl
@[simp] theorem withPmp2_hbmPc (x : List (Nat × Nat)) : (s.withPmp2 x).hbmPc = s.hbmPc := rfl
@[simp] theorem withPmp2_hbmx (x : List (Nat × Nat)) : (s.withPmp2 x).hbmx = s.hbmx := rfl
@[simp] theorem withPmp2_scrub (x : List (Nat × Nat)) : (s.withPmp2 x).scrub = s.scrub := rfl
@[simp] theorem withPmp2_passes (x : List (Nat × Nat)) : (s.withPmp2 x).passes = s.passes := rfl
@[simp] theorem withPmp2_pwr (x : List (Nat × Nat)) : (s.withPmp2 x).pwr = s.pwr := rfl
@[simp] theorem withPmp2_tapx (x : List (Nat × Nat)) : (s.withPmp2 x).tapx = s.tapx := rfl
@[simp] theorem withPmp2_countx (x : List (Nat × Nat)) : (s.withPmp2 x).countx = s.countx := rfl
@[simp] theorem withPmp2_free (x : List (Nat × Nat)) : (s.withPmp2 x).free = s.free := rfl
@[simp] theorem withPmp2_pending (x : List (Nat × Nat)) : (s.withPmp2 x).pending = s.pending := rfl
@[simp] theorem reg_withPmp2 (x : List (Nat × Nat)) (k : Nat) : (s.withPmp2 x).reg k = s.reg k := rfl
@[simp] theorem rf_withPmp2 (x : List (Nat × Nat)) (h : Fld) : (s.withPmp2 x).rf h = s.rf h := rfl
@[simp] theorem rb_withPmp2 (x : List (Nat × Nat)) (h : Fld) : (s.withPmp2 x).rb h = s.rb h := rfl
@[simp] theorem regsCanon_withPmp2 (x : List (Nat × Nat)) : (s.withPmp2 x).regsCanon = s.regsCanon := rfl

/-! `withRtHist` -/

@[simp] theorem withRtHist_regs (x : List (Nat × Nat)) : (s.withRtHist x).regs = s.regs := rfl
@[simp] theorem withRtHist_latch (x : List (Nat × Nat)) : (s.withRtHist x).latch = s.latch := rfl
@[simp] theorem withRtHist_hold (x : List (Nat × Nat)) : (s.withRtHist x).hold = s.hold := rfl
@[simp] theorem withRtHist_readData (x : List (Nat × Nat)) : (s.withRtHist x).readData = s.readData := rfl
@[simp] theorem withRtHist_hostMem (x : List (Nat × Nat)) : (s.withRtHist x).hostMem = s.hostMem := rfl
@[simp] theorem withRtHist_outputs (x : List (Nat × Nat)) : (s.withRtHist x).outputs = s.outputs := rfl
@[simp] theorem withRtHist_evts (x : List (Nat × Nat)) : (s.withRtHist x).evts = s.evts := rfl
@[simp] theorem withRtHist_rings (x : List (Nat × Nat)) : (s.withRtHist x).rings = s.rings := rfl
@[simp] theorem withRtHist_cfg (x : List (Nat × Nat)) : (s.withRtHist x).cfg = s.cfg := rfl
@[simp] theorem withRtHist_time (x : List (Nat × Nat)) : (s.withRtHist x).time = s.time := rfl
@[simp] theorem withRtHist_chip (x : List (Nat × Nat)) : (s.withRtHist x).chip = s.chip := rfl
@[simp] theorem withRtHist_lastKey (x : List (Nat × Nat)) : (s.withRtHist x).lastKey = s.lastKey := rfl
@[simp] theorem withRtHist_pipes (x : List (Nat × Nat)) : (s.withRtHist x).pipes = s.pipes := rfl
@[simp] theorem withRtHist_recirc (x : List (Nat × Nat)) : (s.withRtHist x).recirc = s.recirc := rfl
@[simp] theorem withRtHist_tcam (x : List (Nat × Nat)) : (s.withRtHist x).tcam = s.tcam := rfl
@[simp] theorem withRtHist_actions (x : List (Nat × Nat)) : (s.withRtHist x).actions = s.actions := rfl
@[simp] theorem withRtHist_eps (x : List (Nat × Nat)) : (s.withRtHist x).eps = s.eps := rfl
@[simp] theorem withRtHist_routes (x : List (Nat × Nat)) : (s.withRtHist x).routes = s.routes := rfl
@[simp] theorem withRtHist_vlans (x : List (Nat × Nat)) : (s.withRtHist x).vlans = s.vlans := rfl
@[simp] theorem withRtHist_tbls (x : List (Nat × Nat)) : (s.withRtHist x).tbls = s.tbls := rfl
@[simp] theorem withRtHist_slots (x : List (Nat × Nat)) : (s.withRtHist x).slots = s.slots := rfl
@[simp] theorem withRtHist_engs (x : List (Nat × Nat)) : (s.withRtHist x).engs = s.engs := rfl
@[simp] theorem withRtHist_ctxs (x : List (Nat × Nat)) : (s.withRtHist x).ctxs = s.ctxs := rfl
@[simp] theorem withRtHist_hists (x : List (Nat × Nat)) : (s.withRtHist x).hists = s.hists := rfl
@[simp] theorem withRtHist_regx (x : List (Nat × Nat)) : (s.withRtHist x).regx = s.regx := rfl
@[simp] theorem withRtHist_wind (x : List (Nat × Nat)) : (s.withRtHist x).wind = s.wind := rfl
@[simp] theorem withRtHist_discards (x : List (Nat × Nat)) : (s.withRtHist x).discards = s.discards := rfl
@[simp] theorem withRtHist_bindErr (x : List (Nat × Nat)) : (s.withRtHist x).bindErr = s.bindErr := rfl
@[simp] theorem withRtHist_digs (x : List (Nat × Nat)) : (s.withRtHist x).digs = s.digs := rfl
@[simp] theorem withRtHist_pmp2 (x : List (Nat × Nat)) : (s.withRtHist x).pmp2 = s.pmp2 := rfl
@[simp] theorem withRtHist_txs (x : List (Nat × Nat)) : (s.withRtHist x).txs = s.txs := rfl
@[simp] theorem withRtHist_hostRx (x : List (Nat × Nat)) : (s.withRtHist x).hostRx = s.hostRx := rfl
@[simp] theorem withRtHist_rrHost (x : List (Nat × Nat)) : (s.withRtHist x).rrHost = s.rrHost := rfl
@[simp] theorem withRtHist_pports (x : List (Nat × Nat)) : (s.withRtHist x).pports = s.pports := rfl
@[simp] theorem withRtHist_links (x : List (Nat × Nat)) : (s.withRtHist x).links = s.links := rfl
@[simp] theorem withRtHist_lanes (x : List (Nat × Nat)) : (s.withRtHist x).lanes = s.lanes := rfl
@[simp] theorem withRtHist_mcBad (x : List (Nat × Nat)) : (s.withRtHist x).mcBad = s.mcBad := rfl
@[simp] theorem withRtHist_pairx (x : List (Nat × Nat)) : (s.withRtHist x).pairx = s.pairx := rfl
@[simp] theorem withRtHist_hbmPc (x : List (Nat × Nat)) : (s.withRtHist x).hbmPc = s.hbmPc := rfl
@[simp] theorem withRtHist_hbmx (x : List (Nat × Nat)) : (s.withRtHist x).hbmx = s.hbmx := rfl
@[simp] theorem withRtHist_scrub (x : List (Nat × Nat)) : (s.withRtHist x).scrub = s.scrub := rfl
@[simp] theorem withRtHist_passes (x : List (Nat × Nat)) : (s.withRtHist x).passes = s.passes := rfl
@[simp] theorem withRtHist_pwr (x : List (Nat × Nat)) : (s.withRtHist x).pwr = s.pwr := rfl
@[simp] theorem withRtHist_tapx (x : List (Nat × Nat)) : (s.withRtHist x).tapx = s.tapx := rfl
@[simp] theorem withRtHist_countx (x : List (Nat × Nat)) : (s.withRtHist x).countx = s.countx := rfl
@[simp] theorem withRtHist_free (x : List (Nat × Nat)) : (s.withRtHist x).free = s.free := rfl
@[simp] theorem withRtHist_pending (x : List (Nat × Nat)) : (s.withRtHist x).pending = s.pending := rfl
@[simp] theorem reg_withRtHist (x : List (Nat × Nat)) (k : Nat) : (s.withRtHist x).reg k = s.reg k := rfl
@[simp] theorem rf_withRtHist (x : List (Nat × Nat)) (h : Fld) : (s.withRtHist x).rf h = s.rf h := rfl
@[simp] theorem rb_withRtHist (x : List (Nat × Nat)) (h : Fld) : (s.withRtHist x).rb h = s.rb h := rfl
@[simp] theorem regsCanon_withRtHist (x : List (Nat × Nat)) : (s.withRtHist x).regsCanon = s.regsCanon := rfl

/-! `withTxs` -/

@[simp] theorem withTxs_regs (x : List TxX) : (s.withTxs x).regs = s.regs := rfl
@[simp] theorem withTxs_latch (x : List TxX) : (s.withTxs x).latch = s.latch := rfl
@[simp] theorem withTxs_hold (x : List TxX) : (s.withTxs x).hold = s.hold := rfl
@[simp] theorem withTxs_readData (x : List TxX) : (s.withTxs x).readData = s.readData := rfl
@[simp] theorem withTxs_hostMem (x : List TxX) : (s.withTxs x).hostMem = s.hostMem := rfl
@[simp] theorem withTxs_outputs (x : List TxX) : (s.withTxs x).outputs = s.outputs := rfl
@[simp] theorem withTxs_evts (x : List TxX) : (s.withTxs x).evts = s.evts := rfl
@[simp] theorem withTxs_rings (x : List TxX) : (s.withTxs x).rings = s.rings := rfl
@[simp] theorem withTxs_cfg (x : List TxX) : (s.withTxs x).cfg = s.cfg := rfl
@[simp] theorem withTxs_time (x : List TxX) : (s.withTxs x).time = s.time := rfl
@[simp] theorem withTxs_chip (x : List TxX) : (s.withTxs x).chip = s.chip := rfl
@[simp] theorem withTxs_lastKey (x : List TxX) : (s.withTxs x).lastKey = s.lastKey := rfl
@[simp] theorem withTxs_pipes (x : List TxX) : (s.withTxs x).pipes = s.pipes := rfl
@[simp] theorem withTxs_recirc (x : List TxX) : (s.withTxs x).recirc = s.recirc := rfl
@[simp] theorem withTxs_tcam (x : List TxX) : (s.withTxs x).tcam = s.tcam := rfl
@[simp] theorem withTxs_actions (x : List TxX) : (s.withTxs x).actions = s.actions := rfl
@[simp] theorem withTxs_eps (x : List TxX) : (s.withTxs x).eps = s.eps := rfl
@[simp] theorem withTxs_routes (x : List TxX) : (s.withTxs x).routes = s.routes := rfl
@[simp] theorem withTxs_vlans (x : List TxX) : (s.withTxs x).vlans = s.vlans := rfl
@[simp] theorem withTxs_tbls (x : List TxX) : (s.withTxs x).tbls = s.tbls := rfl
@[simp] theorem withTxs_slots (x : List TxX) : (s.withTxs x).slots = s.slots := rfl
@[simp] theorem withTxs_engs (x : List TxX) : (s.withTxs x).engs = s.engs := rfl
@[simp] theorem withTxs_ctxs (x : List TxX) : (s.withTxs x).ctxs = s.ctxs := rfl
@[simp] theorem withTxs_hists (x : List TxX) : (s.withTxs x).hists = s.hists := rfl
@[simp] theorem withTxs_regx (x : List TxX) : (s.withTxs x).regx = s.regx := rfl
@[simp] theorem withTxs_wind (x : List TxX) : (s.withTxs x).wind = s.wind := rfl
@[simp] theorem withTxs_discards (x : List TxX) : (s.withTxs x).discards = s.discards := rfl
@[simp] theorem withTxs_bindErr (x : List TxX) : (s.withTxs x).bindErr = s.bindErr := rfl
@[simp] theorem withTxs_digs (x : List TxX) : (s.withTxs x).digs = s.digs := rfl
@[simp] theorem withTxs_pmp2 (x : List TxX) : (s.withTxs x).pmp2 = s.pmp2 := rfl
@[simp] theorem withTxs_rtHist (x : List TxX) : (s.withTxs x).rtHist = s.rtHist := rfl
@[simp] theorem withTxs_hostRx (x : List TxX) : (s.withTxs x).hostRx = s.hostRx := rfl
@[simp] theorem withTxs_rrHost (x : List TxX) : (s.withTxs x).rrHost = s.rrHost := rfl
@[simp] theorem withTxs_pports (x : List TxX) : (s.withTxs x).pports = s.pports := rfl
@[simp] theorem withTxs_links (x : List TxX) : (s.withTxs x).links = s.links := rfl
@[simp] theorem withTxs_lanes (x : List TxX) : (s.withTxs x).lanes = s.lanes := rfl
@[simp] theorem withTxs_mcBad (x : List TxX) : (s.withTxs x).mcBad = s.mcBad := rfl
@[simp] theorem withTxs_pairx (x : List TxX) : (s.withTxs x).pairx = s.pairx := rfl
@[simp] theorem withTxs_hbmPc (x : List TxX) : (s.withTxs x).hbmPc = s.hbmPc := rfl
@[simp] theorem withTxs_hbmx (x : List TxX) : (s.withTxs x).hbmx = s.hbmx := rfl
@[simp] theorem withTxs_scrub (x : List TxX) : (s.withTxs x).scrub = s.scrub := rfl
@[simp] theorem withTxs_passes (x : List TxX) : (s.withTxs x).passes = s.passes := rfl
@[simp] theorem withTxs_pwr (x : List TxX) : (s.withTxs x).pwr = s.pwr := rfl
@[simp] theorem withTxs_tapx (x : List TxX) : (s.withTxs x).tapx = s.tapx := rfl
@[simp] theorem withTxs_countx (x : List TxX) : (s.withTxs x).countx = s.countx := rfl
@[simp] theorem withTxs_free (x : List TxX) : (s.withTxs x).free = s.free := rfl
@[simp] theorem withTxs_pending (x : List TxX) : (s.withTxs x).pending = s.pending := rfl
@[simp] theorem reg_withTxs (x : List TxX) (k : Nat) : (s.withTxs x).reg k = s.reg k := rfl
@[simp] theorem rf_withTxs (x : List TxX) (h : Fld) : (s.withTxs x).rf h = s.rf h := rfl
@[simp] theorem rb_withTxs (x : List TxX) (h : Fld) : (s.withTxs x).rb h = s.rb h := rfl
@[simp] theorem regsCanon_withTxs (x : List TxX) : (s.withTxs x).regsCanon = s.regsCanon := rfl

/-! `withHostRx` -/

@[simp] theorem withHostRx_regs (x : List (Nat × Option (Frame × Nat))) : (s.withHostRx x).regs = s.regs := rfl
@[simp] theorem withHostRx_latch (x : List (Nat × Option (Frame × Nat))) : (s.withHostRx x).latch = s.latch := rfl
@[simp] theorem withHostRx_hold (x : List (Nat × Option (Frame × Nat))) : (s.withHostRx x).hold = s.hold := rfl
@[simp] theorem withHostRx_readData (x : List (Nat × Option (Frame × Nat))) : (s.withHostRx x).readData = s.readData := rfl
@[simp] theorem withHostRx_hostMem (x : List (Nat × Option (Frame × Nat))) : (s.withHostRx x).hostMem = s.hostMem := rfl
@[simp] theorem withHostRx_outputs (x : List (Nat × Option (Frame × Nat))) : (s.withHostRx x).outputs = s.outputs := rfl
@[simp] theorem withHostRx_evts (x : List (Nat × Option (Frame × Nat))) : (s.withHostRx x).evts = s.evts := rfl
@[simp] theorem withHostRx_rings (x : List (Nat × Option (Frame × Nat))) : (s.withHostRx x).rings = s.rings := rfl
@[simp] theorem withHostRx_cfg (x : List (Nat × Option (Frame × Nat))) : (s.withHostRx x).cfg = s.cfg := rfl
@[simp] theorem withHostRx_time (x : List (Nat × Option (Frame × Nat))) : (s.withHostRx x).time = s.time := rfl
@[simp] theorem withHostRx_chip (x : List (Nat × Option (Frame × Nat))) : (s.withHostRx x).chip = s.chip := rfl
@[simp] theorem withHostRx_lastKey (x : List (Nat × Option (Frame × Nat))) : (s.withHostRx x).lastKey = s.lastKey := rfl
@[simp] theorem withHostRx_pipes (x : List (Nat × Option (Frame × Nat))) : (s.withHostRx x).pipes = s.pipes := rfl
@[simp] theorem withHostRx_recirc (x : List (Nat × Option (Frame × Nat))) : (s.withHostRx x).recirc = s.recirc := rfl
@[simp] theorem withHostRx_tcam (x : List (Nat × Option (Frame × Nat))) : (s.withHostRx x).tcam = s.tcam := rfl
@[simp] theorem withHostRx_actions (x : List (Nat × Option (Frame × Nat))) : (s.withHostRx x).actions = s.actions := rfl
@[simp] theorem withHostRx_eps (x : List (Nat × Option (Frame × Nat))) : (s.withHostRx x).eps = s.eps := rfl
@[simp] theorem withHostRx_routes (x : List (Nat × Option (Frame × Nat))) : (s.withHostRx x).routes = s.routes := rfl
@[simp] theorem withHostRx_vlans (x : List (Nat × Option (Frame × Nat))) : (s.withHostRx x).vlans = s.vlans := rfl
@[simp] theorem withHostRx_tbls (x : List (Nat × Option (Frame × Nat))) : (s.withHostRx x).tbls = s.tbls := rfl
@[simp] theorem withHostRx_slots (x : List (Nat × Option (Frame × Nat))) : (s.withHostRx x).slots = s.slots := rfl
@[simp] theorem withHostRx_engs (x : List (Nat × Option (Frame × Nat))) : (s.withHostRx x).engs = s.engs := rfl
@[simp] theorem withHostRx_ctxs (x : List (Nat × Option (Frame × Nat))) : (s.withHostRx x).ctxs = s.ctxs := rfl
@[simp] theorem withHostRx_hists (x : List (Nat × Option (Frame × Nat))) : (s.withHostRx x).hists = s.hists := rfl
@[simp] theorem withHostRx_regx (x : List (Nat × Option (Frame × Nat))) : (s.withHostRx x).regx = s.regx := rfl
@[simp] theorem withHostRx_wind (x : List (Nat × Option (Frame × Nat))) : (s.withHostRx x).wind = s.wind := rfl
@[simp] theorem withHostRx_discards (x : List (Nat × Option (Frame × Nat))) : (s.withHostRx x).discards = s.discards := rfl
@[simp] theorem withHostRx_bindErr (x : List (Nat × Option (Frame × Nat))) : (s.withHostRx x).bindErr = s.bindErr := rfl
@[simp] theorem withHostRx_digs (x : List (Nat × Option (Frame × Nat))) : (s.withHostRx x).digs = s.digs := rfl
@[simp] theorem withHostRx_pmp2 (x : List (Nat × Option (Frame × Nat))) : (s.withHostRx x).pmp2 = s.pmp2 := rfl
@[simp] theorem withHostRx_rtHist (x : List (Nat × Option (Frame × Nat))) : (s.withHostRx x).rtHist = s.rtHist := rfl
@[simp] theorem withHostRx_txs (x : List (Nat × Option (Frame × Nat))) : (s.withHostRx x).txs = s.txs := rfl
@[simp] theorem withHostRx_rrHost (x : List (Nat × Option (Frame × Nat))) : (s.withHostRx x).rrHost = s.rrHost := rfl
@[simp] theorem withHostRx_pports (x : List (Nat × Option (Frame × Nat))) : (s.withHostRx x).pports = s.pports := rfl
@[simp] theorem withHostRx_links (x : List (Nat × Option (Frame × Nat))) : (s.withHostRx x).links = s.links := rfl
@[simp] theorem withHostRx_lanes (x : List (Nat × Option (Frame × Nat))) : (s.withHostRx x).lanes = s.lanes := rfl
@[simp] theorem withHostRx_mcBad (x : List (Nat × Option (Frame × Nat))) : (s.withHostRx x).mcBad = s.mcBad := rfl
@[simp] theorem withHostRx_pairx (x : List (Nat × Option (Frame × Nat))) : (s.withHostRx x).pairx = s.pairx := rfl
@[simp] theorem withHostRx_hbmPc (x : List (Nat × Option (Frame × Nat))) : (s.withHostRx x).hbmPc = s.hbmPc := rfl
@[simp] theorem withHostRx_hbmx (x : List (Nat × Option (Frame × Nat))) : (s.withHostRx x).hbmx = s.hbmx := rfl
@[simp] theorem withHostRx_scrub (x : List (Nat × Option (Frame × Nat))) : (s.withHostRx x).scrub = s.scrub := rfl
@[simp] theorem withHostRx_passes (x : List (Nat × Option (Frame × Nat))) : (s.withHostRx x).passes = s.passes := rfl
@[simp] theorem withHostRx_pwr (x : List (Nat × Option (Frame × Nat))) : (s.withHostRx x).pwr = s.pwr := rfl
@[simp] theorem withHostRx_tapx (x : List (Nat × Option (Frame × Nat))) : (s.withHostRx x).tapx = s.tapx := rfl
@[simp] theorem withHostRx_countx (x : List (Nat × Option (Frame × Nat))) : (s.withHostRx x).countx = s.countx := rfl
@[simp] theorem withHostRx_free (x : List (Nat × Option (Frame × Nat))) : (s.withHostRx x).free = s.free := rfl
@[simp] theorem withHostRx_pending (x : List (Nat × Option (Frame × Nat))) : (s.withHostRx x).pending = s.pending := rfl
@[simp] theorem reg_withHostRx (x : List (Nat × Option (Frame × Nat))) (k : Nat) : (s.withHostRx x).reg k = s.reg k := rfl
@[simp] theorem rf_withHostRx (x : List (Nat × Option (Frame × Nat))) (h : Fld) : (s.withHostRx x).rf h = s.rf h := rfl
@[simp] theorem rb_withHostRx (x : List (Nat × Option (Frame × Nat))) (h : Fld) : (s.withHostRx x).rb h = s.rb h := rfl
@[simp] theorem regsCanon_withHostRx (x : List (Nat × Option (Frame × Nat))) : (s.withHostRx x).regsCanon = s.regsCanon := rfl

/-! `withRrHost` -/

@[simp] theorem withRrHost_regs (x : List (Nat × Nat)) : (s.withRrHost x).regs = s.regs := rfl
@[simp] theorem withRrHost_latch (x : List (Nat × Nat)) : (s.withRrHost x).latch = s.latch := rfl
@[simp] theorem withRrHost_hold (x : List (Nat × Nat)) : (s.withRrHost x).hold = s.hold := rfl
@[simp] theorem withRrHost_readData (x : List (Nat × Nat)) : (s.withRrHost x).readData = s.readData := rfl
@[simp] theorem withRrHost_hostMem (x : List (Nat × Nat)) : (s.withRrHost x).hostMem = s.hostMem := rfl
@[simp] theorem withRrHost_outputs (x : List (Nat × Nat)) : (s.withRrHost x).outputs = s.outputs := rfl
@[simp] theorem withRrHost_evts (x : List (Nat × Nat)) : (s.withRrHost x).evts = s.evts := rfl
@[simp] theorem withRrHost_rings (x : List (Nat × Nat)) : (s.withRrHost x).rings = s.rings := rfl
@[simp] theorem withRrHost_cfg (x : List (Nat × Nat)) : (s.withRrHost x).cfg = s.cfg := rfl
@[simp] theorem withRrHost_time (x : List (Nat × Nat)) : (s.withRrHost x).time = s.time := rfl
@[simp] theorem withRrHost_chip (x : List (Nat × Nat)) : (s.withRrHost x).chip = s.chip := rfl
@[simp] theorem withRrHost_lastKey (x : List (Nat × Nat)) : (s.withRrHost x).lastKey = s.lastKey := rfl
@[simp] theorem withRrHost_pipes (x : List (Nat × Nat)) : (s.withRrHost x).pipes = s.pipes := rfl
@[simp] theorem withRrHost_recirc (x : List (Nat × Nat)) : (s.withRrHost x).recirc = s.recirc := rfl
@[simp] theorem withRrHost_tcam (x : List (Nat × Nat)) : (s.withRrHost x).tcam = s.tcam := rfl
@[simp] theorem withRrHost_actions (x : List (Nat × Nat)) : (s.withRrHost x).actions = s.actions := rfl
@[simp] theorem withRrHost_eps (x : List (Nat × Nat)) : (s.withRrHost x).eps = s.eps := rfl
@[simp] theorem withRrHost_routes (x : List (Nat × Nat)) : (s.withRrHost x).routes = s.routes := rfl
@[simp] theorem withRrHost_vlans (x : List (Nat × Nat)) : (s.withRrHost x).vlans = s.vlans := rfl
@[simp] theorem withRrHost_tbls (x : List (Nat × Nat)) : (s.withRrHost x).tbls = s.tbls := rfl
@[simp] theorem withRrHost_slots (x : List (Nat × Nat)) : (s.withRrHost x).slots = s.slots := rfl
@[simp] theorem withRrHost_engs (x : List (Nat × Nat)) : (s.withRrHost x).engs = s.engs := rfl
@[simp] theorem withRrHost_ctxs (x : List (Nat × Nat)) : (s.withRrHost x).ctxs = s.ctxs := rfl
@[simp] theorem withRrHost_hists (x : List (Nat × Nat)) : (s.withRrHost x).hists = s.hists := rfl
@[simp] theorem withRrHost_regx (x : List (Nat × Nat)) : (s.withRrHost x).regx = s.regx := rfl
@[simp] theorem withRrHost_wind (x : List (Nat × Nat)) : (s.withRrHost x).wind = s.wind := rfl
@[simp] theorem withRrHost_discards (x : List (Nat × Nat)) : (s.withRrHost x).discards = s.discards := rfl
@[simp] theorem withRrHost_bindErr (x : List (Nat × Nat)) : (s.withRrHost x).bindErr = s.bindErr := rfl
@[simp] theorem withRrHost_digs (x : List (Nat × Nat)) : (s.withRrHost x).digs = s.digs := rfl
@[simp] theorem withRrHost_pmp2 (x : List (Nat × Nat)) : (s.withRrHost x).pmp2 = s.pmp2 := rfl
@[simp] theorem withRrHost_rtHist (x : List (Nat × Nat)) : (s.withRrHost x).rtHist = s.rtHist := rfl
@[simp] theorem withRrHost_txs (x : List (Nat × Nat)) : (s.withRrHost x).txs = s.txs := rfl
@[simp] theorem withRrHost_hostRx (x : List (Nat × Nat)) : (s.withRrHost x).hostRx = s.hostRx := rfl
@[simp] theorem withRrHost_pports (x : List (Nat × Nat)) : (s.withRrHost x).pports = s.pports := rfl
@[simp] theorem withRrHost_links (x : List (Nat × Nat)) : (s.withRrHost x).links = s.links := rfl
@[simp] theorem withRrHost_lanes (x : List (Nat × Nat)) : (s.withRrHost x).lanes = s.lanes := rfl
@[simp] theorem withRrHost_mcBad (x : List (Nat × Nat)) : (s.withRrHost x).mcBad = s.mcBad := rfl
@[simp] theorem withRrHost_pairx (x : List (Nat × Nat)) : (s.withRrHost x).pairx = s.pairx := rfl
@[simp] theorem withRrHost_hbmPc (x : List (Nat × Nat)) : (s.withRrHost x).hbmPc = s.hbmPc := rfl
@[simp] theorem withRrHost_hbmx (x : List (Nat × Nat)) : (s.withRrHost x).hbmx = s.hbmx := rfl
@[simp] theorem withRrHost_scrub (x : List (Nat × Nat)) : (s.withRrHost x).scrub = s.scrub := rfl
@[simp] theorem withRrHost_passes (x : List (Nat × Nat)) : (s.withRrHost x).passes = s.passes := rfl
@[simp] theorem withRrHost_pwr (x : List (Nat × Nat)) : (s.withRrHost x).pwr = s.pwr := rfl
@[simp] theorem withRrHost_tapx (x : List (Nat × Nat)) : (s.withRrHost x).tapx = s.tapx := rfl
@[simp] theorem withRrHost_countx (x : List (Nat × Nat)) : (s.withRrHost x).countx = s.countx := rfl
@[simp] theorem withRrHost_free (x : List (Nat × Nat)) : (s.withRrHost x).free = s.free := rfl
@[simp] theorem withRrHost_pending (x : List (Nat × Nat)) : (s.withRrHost x).pending = s.pending := rfl
@[simp] theorem reg_withRrHost (x : List (Nat × Nat)) (k : Nat) : (s.withRrHost x).reg k = s.reg k := rfl
@[simp] theorem rf_withRrHost (x : List (Nat × Nat)) (h : Fld) : (s.withRrHost x).rf h = s.rf h := rfl
@[simp] theorem rb_withRrHost (x : List (Nat × Nat)) (h : Fld) : (s.withRrHost x).rb h = s.rb h := rfl
@[simp] theorem regsCanon_withRrHost (x : List (Nat × Nat)) : (s.withRrHost x).regsCanon = s.regsCanon := rfl

/-! `withMcBad` -/

@[simp] theorem withMcBad_regs (x : List Nat) : (s.withMcBad x).regs = s.regs := rfl
@[simp] theorem withMcBad_latch (x : List Nat) : (s.withMcBad x).latch = s.latch := rfl
@[simp] theorem withMcBad_hold (x : List Nat) : (s.withMcBad x).hold = s.hold := rfl
@[simp] theorem withMcBad_readData (x : List Nat) : (s.withMcBad x).readData = s.readData := rfl
@[simp] theorem withMcBad_hostMem (x : List Nat) : (s.withMcBad x).hostMem = s.hostMem := rfl
@[simp] theorem withMcBad_outputs (x : List Nat) : (s.withMcBad x).outputs = s.outputs := rfl
@[simp] theorem withMcBad_evts (x : List Nat) : (s.withMcBad x).evts = s.evts := rfl
@[simp] theorem withMcBad_rings (x : List Nat) : (s.withMcBad x).rings = s.rings := rfl
@[simp] theorem withMcBad_cfg (x : List Nat) : (s.withMcBad x).cfg = s.cfg := rfl
@[simp] theorem withMcBad_time (x : List Nat) : (s.withMcBad x).time = s.time := rfl
@[simp] theorem withMcBad_chip (x : List Nat) : (s.withMcBad x).chip = s.chip := rfl
@[simp] theorem withMcBad_lastKey (x : List Nat) : (s.withMcBad x).lastKey = s.lastKey := rfl
@[simp] theorem withMcBad_pipes (x : List Nat) : (s.withMcBad x).pipes = s.pipes := rfl
@[simp] theorem withMcBad_recirc (x : List Nat) : (s.withMcBad x).recirc = s.recirc := rfl
@[simp] theorem withMcBad_tcam (x : List Nat) : (s.withMcBad x).tcam = s.tcam := rfl
@[simp] theorem withMcBad_actions (x : List Nat) : (s.withMcBad x).actions = s.actions := rfl
@[simp] theorem withMcBad_eps (x : List Nat) : (s.withMcBad x).eps = s.eps := rfl
@[simp] theorem withMcBad_routes (x : List Nat) : (s.withMcBad x).routes = s.routes := rfl
@[simp] theorem withMcBad_vlans (x : List Nat) : (s.withMcBad x).vlans = s.vlans := rfl
@[simp] theorem withMcBad_tbls (x : List Nat) : (s.withMcBad x).tbls = s.tbls := rfl
@[simp] theorem withMcBad_slots (x : List Nat) : (s.withMcBad x).slots = s.slots := rfl
@[simp] theorem withMcBad_engs (x : List Nat) : (s.withMcBad x).engs = s.engs := rfl
@[simp] theorem withMcBad_ctxs (x : List Nat) : (s.withMcBad x).ctxs = s.ctxs := rfl
@[simp] theorem withMcBad_hists (x : List Nat) : (s.withMcBad x).hists = s.hists := rfl
@[simp] theorem withMcBad_regx (x : List Nat) : (s.withMcBad x).regx = s.regx := rfl
@[simp] theorem withMcBad_wind (x : List Nat) : (s.withMcBad x).wind = s.wind := rfl
@[simp] theorem withMcBad_discards (x : List Nat) : (s.withMcBad x).discards = s.discards := rfl
@[simp] theorem withMcBad_bindErr (x : List Nat) : (s.withMcBad x).bindErr = s.bindErr := rfl
@[simp] theorem withMcBad_digs (x : List Nat) : (s.withMcBad x).digs = s.digs := rfl
@[simp] theorem withMcBad_pmp2 (x : List Nat) : (s.withMcBad x).pmp2 = s.pmp2 := rfl
@[simp] theorem withMcBad_rtHist (x : List Nat) : (s.withMcBad x).rtHist = s.rtHist := rfl
@[simp] theorem withMcBad_txs (x : List Nat) : (s.withMcBad x).txs = s.txs := rfl
@[simp] theorem withMcBad_hostRx (x : List Nat) : (s.withMcBad x).hostRx = s.hostRx := rfl
@[simp] theorem withMcBad_rrHost (x : List Nat) : (s.withMcBad x).rrHost = s.rrHost := rfl
@[simp] theorem withMcBad_pports (x : List Nat) : (s.withMcBad x).pports = s.pports := rfl
@[simp] theorem withMcBad_links (x : List Nat) : (s.withMcBad x).links = s.links := rfl
@[simp] theorem withMcBad_lanes (x : List Nat) : (s.withMcBad x).lanes = s.lanes := rfl
@[simp] theorem withMcBad_pairx (x : List Nat) : (s.withMcBad x).pairx = s.pairx := rfl
@[simp] theorem withMcBad_hbmPc (x : List Nat) : (s.withMcBad x).hbmPc = s.hbmPc := rfl
@[simp] theorem withMcBad_hbmx (x : List Nat) : (s.withMcBad x).hbmx = s.hbmx := rfl
@[simp] theorem withMcBad_scrub (x : List Nat) : (s.withMcBad x).scrub = s.scrub := rfl
@[simp] theorem withMcBad_passes (x : List Nat) : (s.withMcBad x).passes = s.passes := rfl
@[simp] theorem withMcBad_pwr (x : List Nat) : (s.withMcBad x).pwr = s.pwr := rfl
@[simp] theorem withMcBad_tapx (x : List Nat) : (s.withMcBad x).tapx = s.tapx := rfl
@[simp] theorem withMcBad_countx (x : List Nat) : (s.withMcBad x).countx = s.countx := rfl
@[simp] theorem withMcBad_free (x : List Nat) : (s.withMcBad x).free = s.free := rfl
@[simp] theorem withMcBad_pending (x : List Nat) : (s.withMcBad x).pending = s.pending := rfl
@[simp] theorem reg_withMcBad (x : List Nat) (k : Nat) : (s.withMcBad x).reg k = s.reg k := rfl
@[simp] theorem rf_withMcBad (x : List Nat) (h : Fld) : (s.withMcBad x).rf h = s.rf h := rfl
@[simp] theorem rb_withMcBad (x : List Nat) (h : Fld) : (s.withMcBad x).rb h = s.rb h := rfl
@[simp] theorem regsCanon_withMcBad (x : List Nat) : (s.withMcBad x).regsCanon = s.regsCanon := rfl

/-! `withPasses` -/

@[simp] theorem withPasses_regs (x : List (Nat × Option PassX)) : (s.withPasses x).regs = s.regs := rfl
@[simp] theorem withPasses_latch (x : List (Nat × Option PassX)) : (s.withPasses x).latch = s.latch := rfl
@[simp] theorem withPasses_hold (x : List (Nat × Option PassX)) : (s.withPasses x).hold = s.hold := rfl
@[simp] theorem withPasses_readData (x : List (Nat × Option PassX)) : (s.withPasses x).readData = s.readData := rfl
@[simp] theorem withPasses_hostMem (x : List (Nat × Option PassX)) : (s.withPasses x).hostMem = s.hostMem := rfl
@[simp] theorem withPasses_outputs (x : List (Nat × Option PassX)) : (s.withPasses x).outputs = s.outputs := rfl
@[simp] theorem withPasses_evts (x : List (Nat × Option PassX)) : (s.withPasses x).evts = s.evts := rfl
@[simp] theorem withPasses_rings (x : List (Nat × Option PassX)) : (s.withPasses x).rings = s.rings := rfl
@[simp] theorem withPasses_cfg (x : List (Nat × Option PassX)) : (s.withPasses x).cfg = s.cfg := rfl
@[simp] theorem withPasses_time (x : List (Nat × Option PassX)) : (s.withPasses x).time = s.time := rfl
@[simp] theorem withPasses_chip (x : List (Nat × Option PassX)) : (s.withPasses x).chip = s.chip := rfl
@[simp] theorem withPasses_lastKey (x : List (Nat × Option PassX)) : (s.withPasses x).lastKey = s.lastKey := rfl
@[simp] theorem withPasses_pipes (x : List (Nat × Option PassX)) : (s.withPasses x).pipes = s.pipes := rfl
@[simp] theorem withPasses_recirc (x : List (Nat × Option PassX)) : (s.withPasses x).recirc = s.recirc := rfl
@[simp] theorem withPasses_tcam (x : List (Nat × Option PassX)) : (s.withPasses x).tcam = s.tcam := rfl
@[simp] theorem withPasses_actions (x : List (Nat × Option PassX)) : (s.withPasses x).actions = s.actions := rfl
@[simp] theorem withPasses_eps (x : List (Nat × Option PassX)) : (s.withPasses x).eps = s.eps := rfl
@[simp] theorem withPasses_routes (x : List (Nat × Option PassX)) : (s.withPasses x).routes = s.routes := rfl
@[simp] theorem withPasses_vlans (x : List (Nat × Option PassX)) : (s.withPasses x).vlans = s.vlans := rfl
@[simp] theorem withPasses_tbls (x : List (Nat × Option PassX)) : (s.withPasses x).tbls = s.tbls := rfl
@[simp] theorem withPasses_slots (x : List (Nat × Option PassX)) : (s.withPasses x).slots = s.slots := rfl
@[simp] theorem withPasses_engs (x : List (Nat × Option PassX)) : (s.withPasses x).engs = s.engs := rfl
@[simp] theorem withPasses_ctxs (x : List (Nat × Option PassX)) : (s.withPasses x).ctxs = s.ctxs := rfl
@[simp] theorem withPasses_hists (x : List (Nat × Option PassX)) : (s.withPasses x).hists = s.hists := rfl
@[simp] theorem withPasses_regx (x : List (Nat × Option PassX)) : (s.withPasses x).regx = s.regx := rfl
@[simp] theorem withPasses_wind (x : List (Nat × Option PassX)) : (s.withPasses x).wind = s.wind := rfl
@[simp] theorem withPasses_discards (x : List (Nat × Option PassX)) : (s.withPasses x).discards = s.discards := rfl
@[simp] theorem withPasses_bindErr (x : List (Nat × Option PassX)) : (s.withPasses x).bindErr = s.bindErr := rfl
@[simp] theorem withPasses_digs (x : List (Nat × Option PassX)) : (s.withPasses x).digs = s.digs := rfl
@[simp] theorem withPasses_pmp2 (x : List (Nat × Option PassX)) : (s.withPasses x).pmp2 = s.pmp2 := rfl
@[simp] theorem withPasses_rtHist (x : List (Nat × Option PassX)) : (s.withPasses x).rtHist = s.rtHist := rfl
@[simp] theorem withPasses_txs (x : List (Nat × Option PassX)) : (s.withPasses x).txs = s.txs := rfl
@[simp] theorem withPasses_hostRx (x : List (Nat × Option PassX)) : (s.withPasses x).hostRx = s.hostRx := rfl
@[simp] theorem withPasses_rrHost (x : List (Nat × Option PassX)) : (s.withPasses x).rrHost = s.rrHost := rfl
@[simp] theorem withPasses_pports (x : List (Nat × Option PassX)) : (s.withPasses x).pports = s.pports := rfl
@[simp] theorem withPasses_links (x : List (Nat × Option PassX)) : (s.withPasses x).links = s.links := rfl
@[simp] theorem withPasses_lanes (x : List (Nat × Option PassX)) : (s.withPasses x).lanes = s.lanes := rfl
@[simp] theorem withPasses_mcBad (x : List (Nat × Option PassX)) : (s.withPasses x).mcBad = s.mcBad := rfl
@[simp] theorem withPasses_pairx (x : List (Nat × Option PassX)) : (s.withPasses x).pairx = s.pairx := rfl
@[simp] theorem withPasses_hbmPc (x : List (Nat × Option PassX)) : (s.withPasses x).hbmPc = s.hbmPc := rfl
@[simp] theorem withPasses_hbmx (x : List (Nat × Option PassX)) : (s.withPasses x).hbmx = s.hbmx := rfl
@[simp] theorem withPasses_scrub (x : List (Nat × Option PassX)) : (s.withPasses x).scrub = s.scrub := rfl
@[simp] theorem withPasses_pwr (x : List (Nat × Option PassX)) : (s.withPasses x).pwr = s.pwr := rfl
@[simp] theorem withPasses_tapx (x : List (Nat × Option PassX)) : (s.withPasses x).tapx = s.tapx := rfl
@[simp] theorem withPasses_countx (x : List (Nat × Option PassX)) : (s.withPasses x).countx = s.countx := rfl
@[simp] theorem withPasses_free (x : List (Nat × Option PassX)) : (s.withPasses x).free = s.free := rfl
@[simp] theorem withPasses_pending (x : List (Nat × Option PassX)) : (s.withPasses x).pending = s.pending := rfl
@[simp] theorem reg_withPasses (x : List (Nat × Option PassX)) (k : Nat) : (s.withPasses x).reg k = s.reg k := rfl
@[simp] theorem rf_withPasses (x : List (Nat × Option PassX)) (h : Fld) : (s.withPasses x).rf h = s.rf h := rfl
@[simp] theorem rb_withPasses (x : List (Nat × Option PassX)) (h : Fld) : (s.withPasses x).rb h = s.rb h := rfl
@[simp] theorem regsCanon_withPasses (x : List (Nat × Option PassX)) : (s.withPasses x).regsCanon = s.regsCanon := rfl

/-! `withPwr` -/

@[simp] theorem withPwr_regs (x : PwrX) : (s.withPwr x).regs = s.regs := rfl
@[simp] theorem withPwr_latch (x : PwrX) : (s.withPwr x).latch = s.latch := rfl
@[simp] theorem withPwr_hold (x : PwrX) : (s.withPwr x).hold = s.hold := rfl
@[simp] theorem withPwr_readData (x : PwrX) : (s.withPwr x).readData = s.readData := rfl
@[simp] theorem withPwr_hostMem (x : PwrX) : (s.withPwr x).hostMem = s.hostMem := rfl
@[simp] theorem withPwr_outputs (x : PwrX) : (s.withPwr x).outputs = s.outputs := rfl
@[simp] theorem withPwr_evts (x : PwrX) : (s.withPwr x).evts = s.evts := rfl
@[simp] theorem withPwr_rings (x : PwrX) : (s.withPwr x).rings = s.rings := rfl
@[simp] theorem withPwr_cfg (x : PwrX) : (s.withPwr x).cfg = s.cfg := rfl
@[simp] theorem withPwr_time (x : PwrX) : (s.withPwr x).time = s.time := rfl
@[simp] theorem withPwr_chip (x : PwrX) : (s.withPwr x).chip = s.chip := rfl
@[simp] theorem withPwr_lastKey (x : PwrX) : (s.withPwr x).lastKey = s.lastKey := rfl
@[simp] theorem withPwr_pipes (x : PwrX) : (s.withPwr x).pipes = s.pipes := rfl
@[simp] theorem withPwr_recirc (x : PwrX) : (s.withPwr x).recirc = s.recirc := rfl
@[simp] theorem withPwr_tcam (x : PwrX) : (s.withPwr x).tcam = s.tcam := rfl
@[simp] theorem withPwr_actions (x : PwrX) : (s.withPwr x).actions = s.actions := rfl
@[simp] theorem withPwr_eps (x : PwrX) : (s.withPwr x).eps = s.eps := rfl
@[simp] theorem withPwr_routes (x : PwrX) : (s.withPwr x).routes = s.routes := rfl
@[simp] theorem withPwr_vlans (x : PwrX) : (s.withPwr x).vlans = s.vlans := rfl
@[simp] theorem withPwr_tbls (x : PwrX) : (s.withPwr x).tbls = s.tbls := rfl
@[simp] theorem withPwr_slots (x : PwrX) : (s.withPwr x).slots = s.slots := rfl
@[simp] theorem withPwr_engs (x : PwrX) : (s.withPwr x).engs = s.engs := rfl
@[simp] theorem withPwr_ctxs (x : PwrX) : (s.withPwr x).ctxs = s.ctxs := rfl
@[simp] theorem withPwr_hists (x : PwrX) : (s.withPwr x).hists = s.hists := rfl
@[simp] theorem withPwr_regx (x : PwrX) : (s.withPwr x).regx = s.regx := rfl
@[simp] theorem withPwr_wind (x : PwrX) : (s.withPwr x).wind = s.wind := rfl
@[simp] theorem withPwr_discards (x : PwrX) : (s.withPwr x).discards = s.discards := rfl
@[simp] theorem withPwr_bindErr (x : PwrX) : (s.withPwr x).bindErr = s.bindErr := rfl
@[simp] theorem withPwr_digs (x : PwrX) : (s.withPwr x).digs = s.digs := rfl
@[simp] theorem withPwr_pmp2 (x : PwrX) : (s.withPwr x).pmp2 = s.pmp2 := rfl
@[simp] theorem withPwr_rtHist (x : PwrX) : (s.withPwr x).rtHist = s.rtHist := rfl
@[simp] theorem withPwr_txs (x : PwrX) : (s.withPwr x).txs = s.txs := rfl
@[simp] theorem withPwr_hostRx (x : PwrX) : (s.withPwr x).hostRx = s.hostRx := rfl
@[simp] theorem withPwr_rrHost (x : PwrX) : (s.withPwr x).rrHost = s.rrHost := rfl
@[simp] theorem withPwr_pports (x : PwrX) : (s.withPwr x).pports = s.pports := rfl
@[simp] theorem withPwr_links (x : PwrX) : (s.withPwr x).links = s.links := rfl
@[simp] theorem withPwr_lanes (x : PwrX) : (s.withPwr x).lanes = s.lanes := rfl
@[simp] theorem withPwr_mcBad (x : PwrX) : (s.withPwr x).mcBad = s.mcBad := rfl
@[simp] theorem withPwr_pairx (x : PwrX) : (s.withPwr x).pairx = s.pairx := rfl
@[simp] theorem withPwr_hbmPc (x : PwrX) : (s.withPwr x).hbmPc = s.hbmPc := rfl
@[simp] theorem withPwr_hbmx (x : PwrX) : (s.withPwr x).hbmx = s.hbmx := rfl
@[simp] theorem withPwr_scrub (x : PwrX) : (s.withPwr x).scrub = s.scrub := rfl
@[simp] theorem withPwr_passes (x : PwrX) : (s.withPwr x).passes = s.passes := rfl
@[simp] theorem withPwr_tapx (x : PwrX) : (s.withPwr x).tapx = s.tapx := rfl
@[simp] theorem withPwr_countx (x : PwrX) : (s.withPwr x).countx = s.countx := rfl
@[simp] theorem withPwr_free (x : PwrX) : (s.withPwr x).free = s.free := rfl
@[simp] theorem withPwr_pending (x : PwrX) : (s.withPwr x).pending = s.pending := rfl
@[simp] theorem reg_withPwr (x : PwrX) (k : Nat) : (s.withPwr x).reg k = s.reg k := rfl
@[simp] theorem rf_withPwr (x : PwrX) (h : Fld) : (s.withPwr x).rf h = s.rf h := rfl
@[simp] theorem rb_withPwr (x : PwrX) (h : Fld) : (s.withPwr x).rb h = s.rb h := rfl
@[simp] theorem regsCanon_withPwr (x : PwrX) : (s.withPwr x).regsCanon = s.regsCanon := rfl

/-! `withTapx` -/

@[simp] theorem withTapx_regs (x : TapX) : (s.withTapx x).regs = s.regs := rfl
@[simp] theorem withTapx_latch (x : TapX) : (s.withTapx x).latch = s.latch := rfl
@[simp] theorem withTapx_hold (x : TapX) : (s.withTapx x).hold = s.hold := rfl
@[simp] theorem withTapx_readData (x : TapX) : (s.withTapx x).readData = s.readData := rfl
@[simp] theorem withTapx_hostMem (x : TapX) : (s.withTapx x).hostMem = s.hostMem := rfl
@[simp] theorem withTapx_outputs (x : TapX) : (s.withTapx x).outputs = s.outputs := rfl
@[simp] theorem withTapx_evts (x : TapX) : (s.withTapx x).evts = s.evts := rfl
@[simp] theorem withTapx_rings (x : TapX) : (s.withTapx x).rings = s.rings := rfl
@[simp] theorem withTapx_cfg (x : TapX) : (s.withTapx x).cfg = s.cfg := rfl
@[simp] theorem withTapx_time (x : TapX) : (s.withTapx x).time = s.time := rfl
@[simp] theorem withTapx_chip (x : TapX) : (s.withTapx x).chip = s.chip := rfl
@[simp] theorem withTapx_lastKey (x : TapX) : (s.withTapx x).lastKey = s.lastKey := rfl
@[simp] theorem withTapx_pipes (x : TapX) : (s.withTapx x).pipes = s.pipes := rfl
@[simp] theorem withTapx_recirc (x : TapX) : (s.withTapx x).recirc = s.recirc := rfl
@[simp] theorem withTapx_tcam (x : TapX) : (s.withTapx x).tcam = s.tcam := rfl
@[simp] theorem withTapx_actions (x : TapX) : (s.withTapx x).actions = s.actions := rfl
@[simp] theorem withTapx_eps (x : TapX) : (s.withTapx x).eps = s.eps := rfl
@[simp] theorem withTapx_routes (x : TapX) : (s.withTapx x).routes = s.routes := rfl
@[simp] theorem withTapx_vlans (x : TapX) : (s.withTapx x).vlans = s.vlans := rfl
@[simp] theorem withTapx_tbls (x : TapX) : (s.withTapx x).tbls = s.tbls := rfl
@[simp] theorem withTapx_slots (x : TapX) : (s.withTapx x).slots = s.slots := rfl
@[simp] theorem withTapx_engs (x : TapX) : (s.withTapx x).engs = s.engs := rfl
@[simp] theorem withTapx_ctxs (x : TapX) : (s.withTapx x).ctxs = s.ctxs := rfl
@[simp] theorem withTapx_hists (x : TapX) : (s.withTapx x).hists = s.hists := rfl
@[simp] theorem withTapx_regx (x : TapX) : (s.withTapx x).regx = s.regx := rfl
@[simp] theorem withTapx_wind (x : TapX) : (s.withTapx x).wind = s.wind := rfl
@[simp] theorem withTapx_discards (x : TapX) : (s.withTapx x).discards = s.discards := rfl
@[simp] theorem withTapx_bindErr (x : TapX) : (s.withTapx x).bindErr = s.bindErr := rfl
@[simp] theorem withTapx_digs (x : TapX) : (s.withTapx x).digs = s.digs := rfl
@[simp] theorem withTapx_pmp2 (x : TapX) : (s.withTapx x).pmp2 = s.pmp2 := rfl
@[simp] theorem withTapx_rtHist (x : TapX) : (s.withTapx x).rtHist = s.rtHist := rfl
@[simp] theorem withTapx_txs (x : TapX) : (s.withTapx x).txs = s.txs := rfl
@[simp] theorem withTapx_hostRx (x : TapX) : (s.withTapx x).hostRx = s.hostRx := rfl
@[simp] theorem withTapx_rrHost (x : TapX) : (s.withTapx x).rrHost = s.rrHost := rfl
@[simp] theorem withTapx_pports (x : TapX) : (s.withTapx x).pports = s.pports := rfl
@[simp] theorem withTapx_links (x : TapX) : (s.withTapx x).links = s.links := rfl
@[simp] theorem withTapx_lanes (x : TapX) : (s.withTapx x).lanes = s.lanes := rfl
@[simp] theorem withTapx_mcBad (x : TapX) : (s.withTapx x).mcBad = s.mcBad := rfl
@[simp] theorem withTapx_pairx (x : TapX) : (s.withTapx x).pairx = s.pairx := rfl
@[simp] theorem withTapx_hbmPc (x : TapX) : (s.withTapx x).hbmPc = s.hbmPc := rfl
@[simp] theorem withTapx_hbmx (x : TapX) : (s.withTapx x).hbmx = s.hbmx := rfl
@[simp] theorem withTapx_scrub (x : TapX) : (s.withTapx x).scrub = s.scrub := rfl
@[simp] theorem withTapx_passes (x : TapX) : (s.withTapx x).passes = s.passes := rfl
@[simp] theorem withTapx_pwr (x : TapX) : (s.withTapx x).pwr = s.pwr := rfl
@[simp] theorem withTapx_countx (x : TapX) : (s.withTapx x).countx = s.countx := rfl
@[simp] theorem withTapx_free (x : TapX) : (s.withTapx x).free = s.free := rfl
@[simp] theorem withTapx_pending (x : TapX) : (s.withTapx x).pending = s.pending := rfl
@[simp] theorem reg_withTapx (x : TapX) (k : Nat) : (s.withTapx x).reg k = s.reg k := rfl
@[simp] theorem rf_withTapx (x : TapX) (h : Fld) : (s.withTapx x).rf h = s.rf h := rfl
@[simp] theorem rb_withTapx (x : TapX) (h : Fld) : (s.withTapx x).rb h = s.rb h := rfl
@[simp] theorem regsCanon_withTapx (x : TapX) : (s.withTapx x).regsCanon = s.regsCanon := rfl

/-! `withCountx` -/

@[simp] theorem withCountx_regs (x : CountX) : (s.withCountx x).regs = s.regs := rfl
@[simp] theorem withCountx_latch (x : CountX) : (s.withCountx x).latch = s.latch := rfl
@[simp] theorem withCountx_hold (x : CountX) : (s.withCountx x).hold = s.hold := rfl
@[simp] theorem withCountx_readData (x : CountX) : (s.withCountx x).readData = s.readData := rfl
@[simp] theorem withCountx_hostMem (x : CountX) : (s.withCountx x).hostMem = s.hostMem := rfl
@[simp] theorem withCountx_outputs (x : CountX) : (s.withCountx x).outputs = s.outputs := rfl
@[simp] theorem withCountx_evts (x : CountX) : (s.withCountx x).evts = s.evts := rfl
@[simp] theorem withCountx_rings (x : CountX) : (s.withCountx x).rings = s.rings := rfl
@[simp] theorem withCountx_cfg (x : CountX) : (s.withCountx x).cfg = s.cfg := rfl
@[simp] theorem withCountx_time (x : CountX) : (s.withCountx x).time = s.time := rfl
@[simp] theorem withCountx_chip (x : CountX) : (s.withCountx x).chip = s.chip := rfl
@[simp] theorem withCountx_lastKey (x : CountX) : (s.withCountx x).lastKey = s.lastKey := rfl
@[simp] theorem withCountx_pipes (x : CountX) : (s.withCountx x).pipes = s.pipes := rfl
@[simp] theorem withCountx_recirc (x : CountX) : (s.withCountx x).recirc = s.recirc := rfl
@[simp] theorem withCountx_tcam (x : CountX) : (s.withCountx x).tcam = s.tcam := rfl
@[simp] theorem withCountx_actions (x : CountX) : (s.withCountx x).actions = s.actions := rfl
@[simp] theorem withCountx_eps (x : CountX) : (s.withCountx x).eps = s.eps := rfl
@[simp] theorem withCountx_routes (x : CountX) : (s.withCountx x).routes = s.routes := rfl
@[simp] theorem withCountx_vlans (x : CountX) : (s.withCountx x).vlans = s.vlans := rfl
@[simp] theorem withCountx_tbls (x : CountX) : (s.withCountx x).tbls = s.tbls := rfl
@[simp] theorem withCountx_slots (x : CountX) : (s.withCountx x).slots = s.slots := rfl
@[simp] theorem withCountx_engs (x : CountX) : (s.withCountx x).engs = s.engs := rfl
@[simp] theorem withCountx_ctxs (x : CountX) : (s.withCountx x).ctxs = s.ctxs := rfl
@[simp] theorem withCountx_hists (x : CountX) : (s.withCountx x).hists = s.hists := rfl
@[simp] theorem withCountx_regx (x : CountX) : (s.withCountx x).regx = s.regx := rfl
@[simp] theorem withCountx_wind (x : CountX) : (s.withCountx x).wind = s.wind := rfl
@[simp] theorem withCountx_discards (x : CountX) : (s.withCountx x).discards = s.discards := rfl
@[simp] theorem withCountx_bindErr (x : CountX) : (s.withCountx x).bindErr = s.bindErr := rfl
@[simp] theorem withCountx_digs (x : CountX) : (s.withCountx x).digs = s.digs := rfl
@[simp] theorem withCountx_pmp2 (x : CountX) : (s.withCountx x).pmp2 = s.pmp2 := rfl
@[simp] theorem withCountx_rtHist (x : CountX) : (s.withCountx x).rtHist = s.rtHist := rfl
@[simp] theorem withCountx_txs (x : CountX) : (s.withCountx x).txs = s.txs := rfl
@[simp] theorem withCountx_hostRx (x : CountX) : (s.withCountx x).hostRx = s.hostRx := rfl
@[simp] theorem withCountx_rrHost (x : CountX) : (s.withCountx x).rrHost = s.rrHost := rfl
@[simp] theorem withCountx_pports (x : CountX) : (s.withCountx x).pports = s.pports := rfl
@[simp] theorem withCountx_links (x : CountX) : (s.withCountx x).links = s.links := rfl
@[simp] theorem withCountx_lanes (x : CountX) : (s.withCountx x).lanes = s.lanes := rfl
@[simp] theorem withCountx_mcBad (x : CountX) : (s.withCountx x).mcBad = s.mcBad := rfl
@[simp] theorem withCountx_pairx (x : CountX) : (s.withCountx x).pairx = s.pairx := rfl
@[simp] theorem withCountx_hbmPc (x : CountX) : (s.withCountx x).hbmPc = s.hbmPc := rfl
@[simp] theorem withCountx_hbmx (x : CountX) : (s.withCountx x).hbmx = s.hbmx := rfl
@[simp] theorem withCountx_scrub (x : CountX) : (s.withCountx x).scrub = s.scrub := rfl
@[simp] theorem withCountx_passes (x : CountX) : (s.withCountx x).passes = s.passes := rfl
@[simp] theorem withCountx_pwr (x : CountX) : (s.withCountx x).pwr = s.pwr := rfl
@[simp] theorem withCountx_tapx (x : CountX) : (s.withCountx x).tapx = s.tapx := rfl
@[simp] theorem withCountx_free (x : CountX) : (s.withCountx x).free = s.free := rfl
@[simp] theorem withCountx_pending (x : CountX) : (s.withCountx x).pending = s.pending := rfl
@[simp] theorem reg_withCountx (x : CountX) (k : Nat) : (s.withCountx x).reg k = s.reg k := rfl
@[simp] theorem rf_withCountx (x : CountX) (h : Fld) : (s.withCountx x).rf h = s.rf h := rfl
@[simp] theorem rb_withCountx (x : CountX) (h : Fld) : (s.withCountx x).rb h = s.rb h := rfl
@[simp] theorem regsCanon_withCountx (x : CountX) : (s.withCountx x).regsCanon = s.regsCanon := rfl

/-! `withPending` -/

@[simp] theorem withPending_regs (x : List Instr) : (s.withPending x).regs = s.regs := rfl
@[simp] theorem withPending_latch (x : List Instr) : (s.withPending x).latch = s.latch := rfl
@[simp] theorem withPending_hold (x : List Instr) : (s.withPending x).hold = s.hold := rfl
@[simp] theorem withPending_readData (x : List Instr) : (s.withPending x).readData = s.readData := rfl
@[simp] theorem withPending_hostMem (x : List Instr) : (s.withPending x).hostMem = s.hostMem := rfl
@[simp] theorem withPending_outputs (x : List Instr) : (s.withPending x).outputs = s.outputs := rfl
@[simp] theorem withPending_evts (x : List Instr) : (s.withPending x).evts = s.evts := rfl
@[simp] theorem withPending_rings (x : List Instr) : (s.withPending x).rings = s.rings := rfl
@[simp] theorem withPending_cfg (x : List Instr) : (s.withPending x).cfg = s.cfg := rfl
@[simp] theorem withPending_time (x : List Instr) : (s.withPending x).time = s.time := rfl
@[simp] theorem withPending_chip (x : List Instr) : (s.withPending x).chip = s.chip := rfl
@[simp] theorem withPending_lastKey (x : List Instr) : (s.withPending x).lastKey = s.lastKey := rfl
@[simp] theorem withPending_pipes (x : List Instr) : (s.withPending x).pipes = s.pipes := rfl
@[simp] theorem withPending_recirc (x : List Instr) : (s.withPending x).recirc = s.recirc := rfl
@[simp] theorem withPending_tcam (x : List Instr) : (s.withPending x).tcam = s.tcam := rfl
@[simp] theorem withPending_actions (x : List Instr) : (s.withPending x).actions = s.actions := rfl
@[simp] theorem withPending_eps (x : List Instr) : (s.withPending x).eps = s.eps := rfl
@[simp] theorem withPending_routes (x : List Instr) : (s.withPending x).routes = s.routes := rfl
@[simp] theorem withPending_vlans (x : List Instr) : (s.withPending x).vlans = s.vlans := rfl
@[simp] theorem withPending_tbls (x : List Instr) : (s.withPending x).tbls = s.tbls := rfl
@[simp] theorem withPending_slots (x : List Instr) : (s.withPending x).slots = s.slots := rfl
@[simp] theorem withPending_engs (x : List Instr) : (s.withPending x).engs = s.engs := rfl
@[simp] theorem withPending_ctxs (x : List Instr) : (s.withPending x).ctxs = s.ctxs := rfl
@[simp] theorem withPending_hists (x : List Instr) : (s.withPending x).hists = s.hists := rfl
@[simp] theorem withPending_regx (x : List Instr) : (s.withPending x).regx = s.regx := rfl
@[simp] theorem withPending_wind (x : List Instr) : (s.withPending x).wind = s.wind := rfl
@[simp] theorem withPending_discards (x : List Instr) : (s.withPending x).discards = s.discards := rfl
@[simp] theorem withPending_bindErr (x : List Instr) : (s.withPending x).bindErr = s.bindErr := rfl
@[simp] theorem withPending_digs (x : List Instr) : (s.withPending x).digs = s.digs := rfl
@[simp] theorem withPending_pmp2 (x : List Instr) : (s.withPending x).pmp2 = s.pmp2 := rfl
@[simp] theorem withPending_rtHist (x : List Instr) : (s.withPending x).rtHist = s.rtHist := rfl
@[simp] theorem withPending_txs (x : List Instr) : (s.withPending x).txs = s.txs := rfl
@[simp] theorem withPending_hostRx (x : List Instr) : (s.withPending x).hostRx = s.hostRx := rfl
@[simp] theorem withPending_rrHost (x : List Instr) : (s.withPending x).rrHost = s.rrHost := rfl
@[simp] theorem withPending_pports (x : List Instr) : (s.withPending x).pports = s.pports := rfl
@[simp] theorem withPending_links (x : List Instr) : (s.withPending x).links = s.links := rfl
@[simp] theorem withPending_lanes (x : List Instr) : (s.withPending x).lanes = s.lanes := rfl
@[simp] theorem withPending_mcBad (x : List Instr) : (s.withPending x).mcBad = s.mcBad := rfl
@[simp] theorem withPending_pairx (x : List Instr) : (s.withPending x).pairx = s.pairx := rfl
@[simp] theorem withPending_hbmPc (x : List Instr) : (s.withPending x).hbmPc = s.hbmPc := rfl
@[simp] theorem withPending_hbmx (x : List Instr) : (s.withPending x).hbmx = s.hbmx := rfl
@[simp] theorem withPending_scrub (x : List Instr) : (s.withPending x).scrub = s.scrub := rfl
@[simp] theorem withPending_passes (x : List Instr) : (s.withPending x).passes = s.passes := rfl
@[simp] theorem withPending_pwr (x : List Instr) : (s.withPending x).pwr = s.pwr := rfl
@[simp] theorem withPending_tapx (x : List Instr) : (s.withPending x).tapx = s.tapx := rfl
@[simp] theorem withPending_countx (x : List Instr) : (s.withPending x).countx = s.countx := rfl
@[simp] theorem withPending_free (x : List Instr) : (s.withPending x).free = s.free := rfl
@[simp] theorem reg_withPending (x : List Instr) (k : Nat) : (s.withPending x).reg k = s.reg k := rfl
@[simp] theorem rf_withPending (x : List Instr) (h : Fld) : (s.withPending x).rf h = s.rf h := rfl
@[simp] theorem rb_withPending (x : List Instr) (h : Fld) : (s.withPending x).rb h = s.rb h := rfl
@[simp] theorem regsCanon_withPending (x : List Instr) : (s.withPending x).regsCanon = s.regsCanon := rfl

/-! Raising an event, and setting an error bit -/

variable {src : Nat}

@[simp] theorem raise_latch (h : src < 4096) (data : Nat) : (s.raise src data).latch = s.latch := by
  rw [sameButEvents_raise (s := s) (data := data) h]
@[simp] theorem setErr_latch (h : src < 4096) (f : Fld) : (s.setErr f src).latch = s.latch := by
  rw [evtStep_rest_setErr (s := s) (f := f) h]
@[simp] theorem raise_hold (h : src < 4096) (data : Nat) : (s.raise src data).hold = s.hold := by
  rw [sameButEvents_raise (s := s) (data := data) h]
@[simp] theorem setErr_hold (h : src < 4096) (f : Fld) : (s.setErr f src).hold = s.hold := by
  rw [evtStep_rest_setErr (s := s) (f := f) h]
@[simp] theorem raise_readData (h : src < 4096) (data : Nat) : (s.raise src data).readData = s.readData := by
  rw [sameButEvents_raise (s := s) (data := data) h]
@[simp] theorem setErr_readData (h : src < 4096) (f : Fld) : (s.setErr f src).readData = s.readData := by
  rw [evtStep_rest_setErr (s := s) (f := f) h]
@[simp] theorem raise_hostMem (h : src < 4096) (data : Nat) : (s.raise src data).hostMem = s.hostMem := by
  rw [sameButEvents_raise (s := s) (data := data) h]
@[simp] theorem setErr_hostMem (h : src < 4096) (f : Fld) : (s.setErr f src).hostMem = s.hostMem := by
  rw [evtStep_rest_setErr (s := s) (f := f) h]
@[simp] theorem raise_outputs (h : src < 4096) (data : Nat) : (s.raise src data).outputs = s.outputs := by
  rw [sameButEvents_raise (s := s) (data := data) h]
@[simp] theorem setErr_outputs (h : src < 4096) (f : Fld) : (s.setErr f src).outputs = s.outputs := by
  rw [evtStep_rest_setErr (s := s) (f := f) h]
@[simp] theorem raise_rings (h : src < 4096) (data : Nat) : (s.raise src data).rings = s.rings := by
  rw [sameButEvents_raise (s := s) (data := data) h]
@[simp] theorem setErr_rings (h : src < 4096) (f : Fld) : (s.setErr f src).rings = s.rings := by
  rw [evtStep_rest_setErr (s := s) (f := f) h]
@[simp] theorem raise_cfg (h : src < 4096) (data : Nat) : (s.raise src data).cfg = s.cfg := by
  rw [sameButEvents_raise (s := s) (data := data) h]
@[simp] theorem setErr_cfg (h : src < 4096) (f : Fld) : (s.setErr f src).cfg = s.cfg := by
  rw [evtStep_rest_setErr (s := s) (f := f) h]
@[simp] theorem raise_time (h : src < 4096) (data : Nat) : (s.raise src data).time = s.time := by
  rw [sameButEvents_raise (s := s) (data := data) h]
@[simp] theorem setErr_time (h : src < 4096) (f : Fld) : (s.setErr f src).time = s.time := by
  rw [evtStep_rest_setErr (s := s) (f := f) h]
@[simp] theorem raise_chip (h : src < 4096) (data : Nat) : (s.raise src data).chip = s.chip := by
  rw [sameButEvents_raise (s := s) (data := data) h]
@[simp] theorem setErr_chip (h : src < 4096) (f : Fld) : (s.setErr f src).chip = s.chip := by
  rw [evtStep_rest_setErr (s := s) (f := f) h]
@[simp] theorem raise_lastKey (h : src < 4096) (data : Nat) : (s.raise src data).lastKey = s.lastKey := by
  rw [sameButEvents_raise (s := s) (data := data) h]
@[simp] theorem setErr_lastKey (h : src < 4096) (f : Fld) : (s.setErr f src).lastKey = s.lastKey := by
  rw [evtStep_rest_setErr (s := s) (f := f) h]
@[simp] theorem raise_pipes (h : src < 4096) (data : Nat) : (s.raise src data).pipes = s.pipes := by
  rw [sameButEvents_raise (s := s) (data := data) h]
@[simp] theorem setErr_pipes (h : src < 4096) (f : Fld) : (s.setErr f src).pipes = s.pipes := by
  rw [evtStep_rest_setErr (s := s) (f := f) h]
@[simp] theorem raise_recirc (h : src < 4096) (data : Nat) : (s.raise src data).recirc = s.recirc := by
  rw [sameButEvents_raise (s := s) (data := data) h]
@[simp] theorem setErr_recirc (h : src < 4096) (f : Fld) : (s.setErr f src).recirc = s.recirc := by
  rw [evtStep_rest_setErr (s := s) (f := f) h]
@[simp] theorem raise_tcam (h : src < 4096) (data : Nat) : (s.raise src data).tcam = s.tcam := by
  rw [sameButEvents_raise (s := s) (data := data) h]
@[simp] theorem setErr_tcam (h : src < 4096) (f : Fld) : (s.setErr f src).tcam = s.tcam := by
  rw [evtStep_rest_setErr (s := s) (f := f) h]
@[simp] theorem raise_actions (h : src < 4096) (data : Nat) : (s.raise src data).actions = s.actions := by
  rw [sameButEvents_raise (s := s) (data := data) h]
@[simp] theorem setErr_actions (h : src < 4096) (f : Fld) : (s.setErr f src).actions = s.actions := by
  rw [evtStep_rest_setErr (s := s) (f := f) h]
@[simp] theorem raise_eps (h : src < 4096) (data : Nat) : (s.raise src data).eps = s.eps := by
  rw [sameButEvents_raise (s := s) (data := data) h]
@[simp] theorem setErr_eps (h : src < 4096) (f : Fld) : (s.setErr f src).eps = s.eps := by
  rw [evtStep_rest_setErr (s := s) (f := f) h]
@[simp] theorem raise_routes (h : src < 4096) (data : Nat) : (s.raise src data).routes = s.routes := by
  rw [sameButEvents_raise (s := s) (data := data) h]
@[simp] theorem setErr_routes (h : src < 4096) (f : Fld) : (s.setErr f src).routes = s.routes := by
  rw [evtStep_rest_setErr (s := s) (f := f) h]
@[simp] theorem raise_vlans (h : src < 4096) (data : Nat) : (s.raise src data).vlans = s.vlans := by
  rw [sameButEvents_raise (s := s) (data := data) h]
@[simp] theorem setErr_vlans (h : src < 4096) (f : Fld) : (s.setErr f src).vlans = s.vlans := by
  rw [evtStep_rest_setErr (s := s) (f := f) h]
@[simp] theorem raise_tbls (h : src < 4096) (data : Nat) : (s.raise src data).tbls = s.tbls := by
  rw [sameButEvents_raise (s := s) (data := data) h]
@[simp] theorem setErr_tbls (h : src < 4096) (f : Fld) : (s.setErr f src).tbls = s.tbls := by
  rw [evtStep_rest_setErr (s := s) (f := f) h]
@[simp] theorem raise_slots (h : src < 4096) (data : Nat) : (s.raise src data).slots = s.slots := by
  rw [sameButEvents_raise (s := s) (data := data) h]
@[simp] theorem setErr_slots (h : src < 4096) (f : Fld) : (s.setErr f src).slots = s.slots := by
  rw [evtStep_rest_setErr (s := s) (f := f) h]
@[simp] theorem raise_engs (h : src < 4096) (data : Nat) : (s.raise src data).engs = s.engs := by
  rw [sameButEvents_raise (s := s) (data := data) h]
@[simp] theorem setErr_engs (h : src < 4096) (f : Fld) : (s.setErr f src).engs = s.engs := by
  rw [evtStep_rest_setErr (s := s) (f := f) h]
@[simp] theorem raise_ctxs (h : src < 4096) (data : Nat) : (s.raise src data).ctxs = s.ctxs := by
  rw [sameButEvents_raise (s := s) (data := data) h]
@[simp] theorem setErr_ctxs (h : src < 4096) (f : Fld) : (s.setErr f src).ctxs = s.ctxs := by
  rw [evtStep_rest_setErr (s := s) (f := f) h]
@[simp] theorem raise_hists (h : src < 4096) (data : Nat) : (s.raise src data).hists = s.hists := by
  rw [sameButEvents_raise (s := s) (data := data) h]
@[simp] theorem setErr_hists (h : src < 4096) (f : Fld) : (s.setErr f src).hists = s.hists := by
  rw [evtStep_rest_setErr (s := s) (f := f) h]
@[simp] theorem raise_regx (h : src < 4096) (data : Nat) : (s.raise src data).regx = s.regx := by
  rw [sameButEvents_raise (s := s) (data := data) h]
@[simp] theorem setErr_regx (h : src < 4096) (f : Fld) : (s.setErr f src).regx = s.regx := by
  rw [evtStep_rest_setErr (s := s) (f := f) h]
@[simp] theorem raise_wind (h : src < 4096) (data : Nat) : (s.raise src data).wind = s.wind := by
  rw [sameButEvents_raise (s := s) (data := data) h]
@[simp] theorem setErr_wind (h : src < 4096) (f : Fld) : (s.setErr f src).wind = s.wind := by
  rw [evtStep_rest_setErr (s := s) (f := f) h]
@[simp] theorem raise_discards (h : src < 4096) (data : Nat) : (s.raise src data).discards = s.discards := by
  rw [sameButEvents_raise (s := s) (data := data) h]
@[simp] theorem raise_bindErr (h : src < 4096) (data : Nat) : (s.raise src data).bindErr = s.bindErr := by
  rw [sameButEvents_raise (s := s) (data := data) h]
@[simp] theorem setErr_discards (h : src < 4096) (f : Fld) : (s.setErr f src).discards = s.discards := by
  rw [evtStep_rest_setErr (s := s) (f := f) h]
@[simp] theorem setErr_bindErr (h : src < 4096) (f : Fld) : (s.setErr f src).bindErr = s.bindErr := by
  rw [evtStep_rest_setErr (s := s) (f := f) h]
@[simp] theorem raise_digs (h : src < 4096) (data : Nat) : (s.raise src data).digs = s.digs := by
  rw [sameButEvents_raise (s := s) (data := data) h]
@[simp] theorem setErr_digs (h : src < 4096) (f : Fld) : (s.setErr f src).digs = s.digs := by
  rw [evtStep_rest_setErr (s := s) (f := f) h]
@[simp] theorem raise_pmp2 (h : src < 4096) (data : Nat) : (s.raise src data).pmp2 = s.pmp2 := by
  rw [sameButEvents_raise (s := s) (data := data) h]
@[simp] theorem setErr_pmp2 (h : src < 4096) (f : Fld) : (s.setErr f src).pmp2 = s.pmp2 := by
  rw [evtStep_rest_setErr (s := s) (f := f) h]
@[simp] theorem raise_rtHist (h : src < 4096) (data : Nat) : (s.raise src data).rtHist = s.rtHist := by
  rw [sameButEvents_raise (s := s) (data := data) h]
@[simp] theorem setErr_rtHist (h : src < 4096) (f : Fld) : (s.setErr f src).rtHist = s.rtHist := by
  rw [evtStep_rest_setErr (s := s) (f := f) h]
@[simp] theorem raise_txs (h : src < 4096) (data : Nat) : (s.raise src data).txs = s.txs := by
  rw [sameButEvents_raise (s := s) (data := data) h]
@[simp] theorem setErr_txs (h : src < 4096) (f : Fld) : (s.setErr f src).txs = s.txs := by
  rw [evtStep_rest_setErr (s := s) (f := f) h]
@[simp] theorem raise_hostRx (h : src < 4096) (data : Nat) : (s.raise src data).hostRx = s.hostRx := by
  rw [sameButEvents_raise (s := s) (data := data) h]
@[simp] theorem setErr_hostRx (h : src < 4096) (f : Fld) : (s.setErr f src).hostRx = s.hostRx := by
  rw [evtStep_rest_setErr (s := s) (f := f) h]
@[simp] theorem raise_rrHost (h : src < 4096) (data : Nat) : (s.raise src data).rrHost = s.rrHost := by
  rw [sameButEvents_raise (s := s) (data := data) h]
@[simp] theorem setErr_rrHost (h : src < 4096) (f : Fld) : (s.setErr f src).rrHost = s.rrHost := by
  rw [evtStep_rest_setErr (s := s) (f := f) h]
@[simp] theorem raise_pports (h : src < 4096) (data : Nat) : (s.raise src data).pports = s.pports := by
  rw [sameButEvents_raise (s := s) (data := data) h]
@[simp] theorem setErr_pports (h : src < 4096) (f : Fld) : (s.setErr f src).pports = s.pports := by
  rw [evtStep_rest_setErr (s := s) (f := f) h]
@[simp] theorem raise_links (h : src < 4096) (data : Nat) : (s.raise src data).links = s.links := by
  rw [sameButEvents_raise (s := s) (data := data) h]
@[simp] theorem setErr_links (h : src < 4096) (f : Fld) : (s.setErr f src).links = s.links := by
  rw [evtStep_rest_setErr (s := s) (f := f) h]
@[simp] theorem raise_lanes (h : src < 4096) (data : Nat) : (s.raise src data).lanes = s.lanes := by
  rw [sameButEvents_raise (s := s) (data := data) h]
@[simp] theorem setErr_lanes (h : src < 4096) (f : Fld) : (s.setErr f src).lanes = s.lanes := by
  rw [evtStep_rest_setErr (s := s) (f := f) h]
@[simp] theorem raise_mcBad (h : src < 4096) (data : Nat) : (s.raise src data).mcBad = s.mcBad := by
  rw [sameButEvents_raise (s := s) (data := data) h]
@[simp] theorem setErr_mcBad (h : src < 4096) (f : Fld) : (s.setErr f src).mcBad = s.mcBad := by
  rw [evtStep_rest_setErr (s := s) (f := f) h]
@[simp] theorem raise_pairx (h : src < 4096) (data : Nat) : (s.raise src data).pairx = s.pairx := by
  rw [sameButEvents_raise (s := s) (data := data) h]
@[simp] theorem setErr_pairx (h : src < 4096) (f : Fld) : (s.setErr f src).pairx = s.pairx := by
  rw [evtStep_rest_setErr (s := s) (f := f) h]
@[simp] theorem raise_hbmPc (h : src < 4096) (data : Nat) : (s.raise src data).hbmPc = s.hbmPc := by
  rw [sameButEvents_raise (s := s) (data := data) h]
@[simp] theorem setErr_hbmPc (h : src < 4096) (f : Fld) : (s.setErr f src).hbmPc = s.hbmPc := by
  rw [evtStep_rest_setErr (s := s) (f := f) h]
@[simp] theorem raise_hbmx (h : src < 4096) (data : Nat) : (s.raise src data).hbmx = s.hbmx := by
  rw [sameButEvents_raise (s := s) (data := data) h]
@[simp] theorem setErr_hbmx (h : src < 4096) (f : Fld) : (s.setErr f src).hbmx = s.hbmx := by
  rw [evtStep_rest_setErr (s := s) (f := f) h]
@[simp] theorem raise_scrub (h : src < 4096) (data : Nat) : (s.raise src data).scrub = s.scrub := by
  rw [sameButEvents_raise (s := s) (data := data) h]
@[simp] theorem setErr_scrub (h : src < 4096) (f : Fld) : (s.setErr f src).scrub = s.scrub := by
  rw [evtStep_rest_setErr (s := s) (f := f) h]
@[simp] theorem raise_passes (h : src < 4096) (data : Nat) : (s.raise src data).passes = s.passes := by
  rw [sameButEvents_raise (s := s) (data := data) h]
@[simp] theorem setErr_passes (h : src < 4096) (f : Fld) : (s.setErr f src).passes = s.passes := by
  rw [evtStep_rest_setErr (s := s) (f := f) h]
@[simp] theorem raise_pwr (h : src < 4096) (data : Nat) : (s.raise src data).pwr = s.pwr := by
  rw [sameButEvents_raise (s := s) (data := data) h]
@[simp] theorem setErr_pwr (h : src < 4096) (f : Fld) : (s.setErr f src).pwr = s.pwr := by
  rw [evtStep_rest_setErr (s := s) (f := f) h]
@[simp] theorem raise_tapx (h : src < 4096) (data : Nat) : (s.raise src data).tapx = s.tapx := by
  rw [sameButEvents_raise (s := s) (data := data) h]
@[simp] theorem setErr_tapx (h : src < 4096) (f : Fld) : (s.setErr f src).tapx = s.tapx := by
  rw [evtStep_rest_setErr (s := s) (f := f) h]
@[simp] theorem raise_countx (h : src < 4096) (data : Nat) : (s.raise src data).countx = s.countx := by
  rw [sameButEvents_raise (s := s) (data := data) h]
@[simp] theorem setErr_countx (h : src < 4096) (f : Fld) : (s.setErr f src).countx = s.countx := by
  rw [evtStep_rest_setErr (s := s) (f := f) h]
@[simp] theorem raise_free (h : src < 4096) (data : Nat) : (s.raise src data).free = s.free := by
  rw [sameButEvents_raise (s := s) (data := data) h]
@[simp] theorem setErr_free (h : src < 4096) (f : Fld) : (s.setErr f src).free = s.free := by
  rw [evtStep_rest_setErr (s := s) (f := f) h]
@[simp] theorem raise_pending (h : src < 4096) (data : Nat) : (s.raise src data).pending = s.pending := by
  rw [sameButEvents_raise (s := s) (data := data) h]
@[simp] theorem setErr_pending (h : src < 4096) (f : Fld) : (s.setErr f src).pending = s.pending := by
  rw [evtStep_rest_setErr (s := s) (f := f) h]

/-! Reads after writes -/

@[simp] theorem dom_setDom_same (d : DomIx) (x : Dom) : (s.setDom d x).dom d = x := by
  fin_cases d <;> rfl

@[simp] theorem dom_setDom_other (d : DomIx) (x : Dom) : (s.setDom d x).dom ((1 - d : DomIx) : Nat) = s.dom ((1 - d : DomIx) : Nat) := by
  fin_cases d <;> rfl

@[simp] theorem dom_wf (f : Fld) (v d : Nat) : (s.wf f v).dom d = s.dom d := by
  unfold State.dom
  rw [wf_time]

@[simp] theorem setDom_dom (d : Nat) : s.setDom d (s.dom d) = s := by
  unfold State.setDom State.dom
  by_cases h : d = 0 <;> simp only [h, if_true, if_false] <;> rfl

theorem ringX_setRingX_same (r : Nat) (x : RingX) (h : scanon (fun _ => ({} : RingX)) 0 s.rings = true) : (s.setRingX r x).ringX r = x := mget_mset_same h

theorem eng_setEng_same (e : Nat) (x : EngX) (h : scanon (fun _ => ({} : EngX)) 0 s.engs = true) : (s.setEng e x).eng e = x := mget_mset_same h

theorem tbl_setTbl_same (n : Nat) (x : TblX) (h : scanon (fun _ => ({} : TblX)) 0 s.tbls = true) : (s.setTbl n x).tbl n = x := mget_mset_same h

theorem recircx_setRecircx_same (n : Nat) (x : RecircX) (h : scanon (fun _ => ({} : RecircX)) 0 s.recirc = true) : (s.setRecircx n x).recircx n = x := mget_mset_same h

theorem rx_setRx_same (n : Nat) (x : RegX) (h : scanon (fun _ => ({} : RegX)) 0 s.regx = true) : (s.setRx n x).rx n = x := mget_mset_same h

theorem hctl_setHctl_same (st : Nat) (x : HbmX) (h : scanon (fun _ => ({} : HbmX)) 0 s.hbmx = true) : (s.setHctl st x).hctl st = x := mget_mset_same h

theorem pipe_setPipe_same (n p : Nat) (x : PipeX) (h : scanon (fun _ => ({} : PipeX)) 0 s.pipes = true) : (s.setPipe n p x).pipe n p = x := mget_mset_same h

theorem link_setLink_same (g l : Nat) (x : LinkX) (h : scanon (fun _ => ({} : LinkX)) 0 s.links = true) : (s.setLink g l x).link g l = x := mget_mset_same h

theorem lanex_setLanex_same (g l : Nat) (x : LaneX) (h : scanon (fun _ => ({} : LaneX)) 0 s.lanes = true) : (s.setLanex g l x).lanex g l = x := mget_mset_same h

theorem pport_setPport_same (n l : Nat) (x : PortX) (h : scanon (fun _ => ({} : PortX)) 0 s.pports = true) : (s.setPport n l x).pport n l = x := mget_mset_same h

theorem hpc_setHpc_same (st q : Nat) (x : HbmPc) (h : scanon (fun _ => ({} : HbmPc)) 0 s.hbmPc = true) : (s.setHpc st q x).hpc st q = x := mget_mset_same h

theorem scrubx_setScrubx_same (u m : Nat) (x : ScrubX) (h : scanon (fun _ => ({} : ScrubX)) 0 s.scrub = true) : (s.setScrubx u m x).scrubx u m = x := mget_mset_same h

theorem ringX_setRingX_ne (r j : Nat) (x : RingX) (h : j ≠ r) : (s.setRingX r x).ringX j = s.ringX j := mget_mset_ne h

theorem eng_setEng_ne (e j : Nat) (x : EngX) (h : j ≠ e) : (s.setEng e x).eng j = s.eng j := mget_mset_ne h

theorem tbl_setTbl_ne (n j : Nat) (x : TblX) (h : j ≠ n) : (s.setTbl n x).tbl j = s.tbl j := mget_mset_ne h

theorem recircx_setRecircx_ne (n j : Nat) (x : RecircX) (h : j ≠ n) : (s.setRecircx n x).recircx j = s.recircx j := mget_mset_ne h

theorem rx_setRx_ne (n j : Nat) (x : RegX) (h : j ≠ n) : (s.setRx n x).rx j = s.rx j := mget_mset_ne h

theorem hctl_setHctl_ne (st j : Nat) (x : HbmX) (h : j ≠ st) : (s.setHctl st x).hctl j = s.hctl j := mget_mset_ne h

end Sys2Proof.Machine
end

