-- ==== Sys2Proof/Tests/Slice0.lean ====
section
/-! SUPPORT. Tests: each check of well-formedness refuses an ill-formed command; and, for each statement,
a state and operands that meet its hypotheses, clause by clause. -/

set_option linter.unusedVariables false

namespace Sys2Proof.Tests

open Sys2Proof Sys2Proof.Machine

/-! ### Well-formedness -/


/-- The pair link is lane group 8, and has lanes 0 to 7 (Table RI-13). -/
theorem test_illformed_lane : (Instr.holdExpiry 8 8).wellFormed = false ∧ (Instr.holdExpiry 8 7).wellFormed = true ∧
    (Instr.holdExpiry 7 63).wellFormed = true := by decide
/-- A digest has 16 sums (R543). -/
theorem test_illformed_digest : (Instr.digestReceive {} 0 0 (List.replicate 15 0)).wellFormed = false ∧
    (Instr.digestReceive {} 0 0 (List.replicate 16 0)).wellFormed = true := by decide
/-- A ledger record lists its ports in ascending order, and no count of 0 (Table RD-5). -/
theorem test_illformed_ledger :
    (Instr.ledgerReceive {} 0 [{ stroke := 0, fcsd := 0, counts := [(3, 1), (2, 1)], skips := [] }]).wellFormed = false ∧
    (Instr.ledgerReceive {} 0 [{ stroke := 0, fcsd := 0, counts := [(2, 0)], skips := [] }]).wellFormed = false ∧
    (Instr.ledgerReceive {} 0 [{ stroke := 0, fcsd := 0, counts := [(2, 1), (3, 1)], skips := [] }]).wellFormed = true := by decide
/-- A fetch returns at least one descriptor (R417). -/
theorem test_illformed_fetch : (Instr.descriptorFetch 5 0 .good).wellFormed = false ∧ (Instr.descriptorFetch 5 1 .good).wellFormed = true := by
  decide
/-- A link comes up at a speed of 1 to 6 and a width of 1, 2, 4, 8 or 16 (R403). -/
theorem test_illformed_link : (Instr.pcieLinkUp 0 16 true).wellFormed = false ∧ (Instr.pcieLinkUp 6 3 true).wellFormed = false ∧
    (Instr.pcieLinkUp 6 16 true).wellFormed = true := by decide
/-- The power states are D0, D3hot and D3cold (R77). -/
theorem test_illformed_power : (Instr.configSpaceWrite 1 false false false).wellFormed = false ∧
    (Instr.configSpaceWrite 3 false false false).wellFormed = true := by decide


/-! ### States the witnesses start from -/

set_option Elab.async false

def lcg (x : Nat) : Nat := (x * 6364136223846793005 + 1442695040888963407) % 2^64
def inState (st : Nat) : State := State.reset.wf CHIP_STATE.STATE st
def run : State := inState 4
def cfgS : State := inState 3
def nx : Host.Outcome State Fault Refusal → State | .next t => t | _ => State.reset
def cmdRing (s : State) (e : List Nat) : State :=
  let s := ((s.wf (HIF_RING_CTRL.TYPE 2) 3).wf (HIF_RING_STATUS.STATE 2) 1).wf (HIF_RING_BIND.CQ 2) 1
  let s := ((s.wf (HIF_RING_CTRL.TYPE 1) 2).wf (HIF_RING_STATUS.STATE 1) 1).wf (HIF_RING_BASE.ADDR 1) 16
  let s := (s.wf (HIF_RING_TAIL.TAIL 2) 1)
  s.setRingX 2 { cache := [e] }
def ent (op table count region index : Nat) (sched : Bool) (stroke addr : Nat) (pipe : Nat := 0) : List Nat :=
  [op + 256 + 512 + b2n sched * 1024 + pipe * 2048 + region * 4096 + table * 65536 + count * 2^24, index, stroke % 2^32, stroke / 2^32, addr, 0, 0, 0]

namespace Time

def lateLoad := cfgS.wf (TIME_LOAD_NS.NS 1) 999999999
def oswPending := (run.wf TIME_OSW_CTRL.PENDING 1).wf TIME_OSW_CTRL.TARGET 1
def captOn := (run.wf (TIME_CAPT_CFG.EN 3) 1).wf (TIME_CAPT_CFG.EDGE 3) 2

end Time

namespace FrontEnd

def base (seed n l code : Nat) : State :=
  let s := run
  let s := s.wf (PB_SHAPE.W n (l/8) (l%8)) code
  (s.wf (pbf PB_PORT_STATUS.LINK_UP n l) 1)
def fr (k : Nat) : RxFrame := { data := (List.range k).map (BitVec.ofNat 8 ·) }
def b1 := base 1 0 0 1
def b2 := base 2 3 40 2
def q1 := (b1.setPport 0 0 {quanta := [(0,5),(3,7)]})
def pf (op : Nat) : List Byte := List.replicate 12 0 ++ bytesBE 2 0x8808 ++ bytesBE 2 op ++ bytesBE 2 0x15 ++ (List.range 30).map (BitVec.ofNat 8 ·)
def v1 (m : Nat) (v : Nat) := ((q1.wf (pbf PB_FC_CFG.MODE 0 0) m).setRx 0 { q1.rx 0 with valves := [v] }).wf PAIR_STATUS.GATE 1 |>.wf (LANE_PORT_STATUS.TX_QUIET 0 0) 0
def st1 := ((q1.wf (pbf PB_FC_CFG.MODE 0 0) 2).wf (pbf PB_STORM_CFG.LIMIT_MS 0 0) 5).wf (pbf PB_PORT_STATUS.STORM 0 0) 2
def en (n : Nat) : EgEnt := { frame := { key := ⟨1,2,n⟩, data := [1,2,3], region := 0, pipe := 0, buf := 5 + n }, at_ := 0 }
def fz := (((b1.wf (pbf PB_PORT_STATUS.LINK_UP 0 0) 0).wf (pbf PB_PORT_STATUS.FROZEN 0 0) 1).setEgEnts 0 3 [en 1, en 2])
def en0 := b1.wf (pbf PB_PORT_CFG.ENABLE 0 0) 1
def di0 := (List.range 8).foldl (fun s i => s.wf (PB_PORT_CFG.ENABLE 0 0 i) 0) b1

end FrontEnd

namespace Lanes

def base (seed g l code : Nat) : State :=
  let s := run
  if g < 8 then s.wf (PB_SHAPE.W g (l/8) (l%8)) code else s
def lk (s : State) (g l st : Nat) (w sp : Nat := 2) : State := s.setLink g l { state := st, width := w, speed := sp, downs := [3] }
def a1 := lk ((base 3 0 8 2).wf (pbf PB_PORT_CFG.SPEED 0 8) 2 |>.wf (pbf PB_PORT_CFG.FEC 0 8) 3) 0 8 1
def a8 := lk (base 5 8 0 2) 8 0 1 8 1
def t1 := (lk a1 0 8 2).wf (LANE_STATUS.ATTEMPTS 0 8) 1
def c1 := ((lk a1 0 8 2 2 2).setReg (LANE_TX_TAPS_NOW.w 0 9) (BitVec.ofNat 32 (40*2^18)))
def qm := ((lk a1 0 8 4).wf (LANE_PORT_STATUS.QUIET_AGREED 0 8) 1).wf (LANE_PORT_STATUS.TX_QUIET 0 8) 0
def up := qm.wf (LANE_PORT_STATUS.RX_QUIET 0 8) 0
def rq := { (up.wf (LANE_PORT_STATUS.RX_QUIET 0 8) 1) with time := { up.time with tick := 500000 } }

end Lanes

namespace LanesMore

def a1 := (run).setReg (PB_SHAPE.w 0 1) 2

end LanesMore

namespace Parse

def base (seed n p : Nat) : State := (run).setReg (IP_PARSE_CFG.w n p) 0
def fr (k : Nat) : Frame := { key := ⟨5,k,0⟩, data := (List.range 80).map (BitVec.ofNat 8 ·), region := 1, pipe := 1, buf := 3 }
def b0 := base 4 1 1
def b1 := b0.setPipe 1 1 { inq := [(2,[fr 1, fr 2]),(4,[fr 6])], rrIn := 3, rrEng := 7, rob := [{slot := 9, eng := 3, frame := fr 70}, {slot := 10, eng := 0, frame := fr 71}], nextSlot := 11, cls := [fr 66] }
def b2 := b1.setPipe 1 1 { b1.pipe 1 1 with rob := [{slot := 9, eng := 3, frame := fr 70, done := true}, {slot := 10, eng := 0, frame := fr 71}] }
def tent (v m mem : Nat) : Nat := v + m * 2^320 + 2^640 * (1 + 2*mem)
def b3 := { b1 with tcam := [(entryIx 1 1 5, tent 8 8 1), (entryIx 1 1 6, tent 8 8 2), (entryIx 1 1 9, tent 0 0 3)] }
def b4 := (b3.setReg (IP_CL_STATUS.w 1 1) 0)

end Parse

namespace Tables

def f (op table count index : Nat) (sched := false) (stroke := 0) : State := cmdRing run (ent op table count 3 index sched stroke 0x100)
def c (op table count index : Nat) (sched := false) (stroke := 0) : CmdX := (f op table count index sched stroke).cmdOf 2 (ent op table count 3 index sched stroke 0x100)
def pay (n : Nat) (k := 7) : List Byte := (List.range n).map (fun i => BitVec.ofNat 8 (i * k + 3))
def hm := run.hostWrite 0x100 (bytesLE 16 (2^80 + 5))
def fr (k : Nat) : Frame := { key := ⟨5,k,0⟩, data := (List.range 80).map (BitVec.ofNat 8 ·), region := 3, pipe := 1, buf := 3, act := 2^64, hv := pay 512 3 }
def pt := run.setPipe 3 1 { tbl := [fr 1, fr 2] }
def lq : LearnReq := { key := ⟨0, 5, 0⟩, vid := 3, mac := 77 }
def lr := (run.setTbl 3 { learns := [lq] }).wf (SP_WM.STROKE 3) 5
def pl := lr.place 3 (.mac 3 77) 0 false
def ix := (pl.map (·.1)).getD 0
def lent (port : Nat) (ex : Nat) := 77 + 3 * 2^48 + port*2^64 + 2^80 + ex
def cw := ((run.wf (TBL_CMP_CFG.EN 3) 1).wf (TBL_CMP_CFG.VLAN 3) 1).setTbl 3 { cmpAt := (2, 9), cmpDiff := [⟨2,4,false⟩]}

end Tables

namespace TablesMore

def f (op table count index : Nat) (sched := false) (stroke := 0) : State := cmdRing run (ent op table count 3 index sched stroke 0x100)
def c (op table count index : Nat) (sched := false) (stroke := 0) : CmdX := (f op table count index sched stroke).cmdOf 2 (ent op table count 3 index sched stroke 0x100)
def sqq := (run.setSched 3 [c 0x10 4 2 7 true 0]).wf (SP_WM.STROKE 3) 5

end TablesMore

namespace Records

def pay (n : Nat) (k := 7) (o := 3) : List Byte := (List.range n).map (fun i => BitVec.ofNat 8 (lcg (lcg (i * k + o)) / 2^40))
def fr (k : Nat) : Frame := { key := ⟨5,k,0⟩, data := (List.range 80).map (BitVec.ofNat 8 ·), region := 3, pipe := 1, buf := 3, act := 2^64, hv := pay 512 3 }
def pt := run.setPipe 3 1 { flow := [fr 1, fr 2] }
def pv := pt.wf (FE_PART_CFG.VALID 3 (actPart (fr 1).act)) 1
def nk := normalise (pv.rb (FE_PART_CFG.NORM 3 (actPart (fr 1).act))) (fr 1).fkey
def lk (k : Nat) : Lookup := { frame := fr k, part := 1, key := pay 40, dir := 0 }
def le := run.setLookups 3 [lk 1, lk 2, {lk 3 with ready := true}]
def wmS := { run with time := {run.time with domA := {ns := 10000000}}}
def wm9 := (List.range 8).foldl (fun s n => s.wf (SP_WM.STROKE n) (9+n)) run
def late := {((run.wf (PWR_STATUS.LEVEL 3) 8).wf SP_CFG.WINDOW_NS 5) with time := {tick := 999999, domA := {ns := 10000000}}}
def by1 := { le with time := {tick := 999999, domA := {ns := 100000000}}}
def sw := { (run.wf (FE_SWEEP_CFG.N_F 3) 100).wf (SP_WM.STROKE 3) 5000 |>.wf SP_RELEASED.STROKE 4000 with time := {domA := {ns := 32*200*1}}}
def cc : CmdX := (cmdRing run (ent 0x44 0 1 3 0 false 0 0x100)).cmdOf 2 (ent 0x44 0 1 3 0 false 0 0x100)
def sn (t : Bool) : SnapX := { cmd := cc, stroke := 7, taken := t, out := 4096, len := 128, image := [(43 * 4, pay 64)] }
def sn1 := run.setEng 3 { snap := some (sn true) }

end Records

namespace Pump

def pay (n : Nat) (k := 7) (o := 3) : List Byte := (List.range n).map (fun i => BitVec.ofNat 8 (lcg (lcg (i * k + o)) / 2^40))
def fr (k : Nat) : Frame := { key := ⟨5,k,0⟩, data := (List.range 80).map (BitVec.ofNat 8 ·), region := 3, pipe := 1, buf := 3, act := 2^64, hv := pay 512 3 }
def lk (k : Nat) : Lookup := { frame := fr k, part := 1, key := pay 40, dir := 0, ready := true }
def kk (o : Nat) (win : List Byte := pay 64 9) : PumpCtx := { look := lk 1, verdict := false, pc := 70, g := (List.range 32).map (fun i => lcg (lcg (i+o)) / 2^20 % 2^32), win := win, md := (List.range 16).map (lcg ·  % 2^32), latency := 9, winOk := true, since := 3 }
def base (op x o : Nat) (k := kk o) : State :=
  let s := run.setCtx 3 5 2 (some k)
  let s := s.setReg (PMP_BIND.w 3 0 (actRoutine (fr 1).act)) (BitVec.ofNat 32 (64 + 2^16 * 20))
  ((s.setReg (PMP_STORE.w 3 70) (BitVec.ofNat 32 (word op x))).wf (PMP_CFG.MAX_WORDS 3) 50).wf (PMP_CFG.MAX_RESTARTS 3) 3
def kw := { kk 1 with wait := some (3,0) }
def cs := (base 0x38 2 1).setEng 3 {lookups := [lk 1]}
def pn := run

end Pump

namespace Switch

def fr (k : Nat) (d : Dest := .port 300) : Frame := { key := ⟨5,k,0⟩, data := (List.range 1500).map (BitVec.ofNat 8 ·), region := 1, pipe := 1, buf := 2*65536+k, act := 2^64, dest := d }
def en (k : Nat) (p : Place) (d : Dest := .port 300) : QEnt := { frame := fr k d, seq := k, place := p }
def xf : XferX := { ent := en 3 .cistern, sent := 2, total := 6, got := 1, buf := 5, cls := 3 }
def W (s : State) (x : XferX) : State := { s with wind := { xfer := [(1*8+4, x)] } }
def xl := { xf with sent := 6, got := 5 }
def c2 := W (run.setBufx 4 5 {count := 1, egress := true}) xl
def sQ (q : Nat) (l : List QEnt) (pg : Option Nat := none) (fill := 0) (sp := true) : State :=
  ((run.wf (CIS_SUMP_CFG.SIZE_MIB 1) 4).wf (FE_PC_LIVE.LIVE 1) 0xFFFFFF0F).setQueue 1 q { ents := l, spill := sp, page := pg, fill := fill }
def qq := qIndex 4 3 44
def s1 := (sQ qq [en 1 .cistern, en 2 .sump, en 3 .toSump, en 4 .toSump] none 0).setBufx 1 (2*65536+3) {count := 1, port := 3, cls := 2}
def chk (s : State) (pre : List QEnt) (e : QEnt) (post : List QEnt) (room : Nat) : List Bool :=
  let got := s.pickPages 1 (s.rx 1).pages 0 (s.rf (CIS_SUMP_CFG.SIZE_MIB 1) * 256) (cdiv (sumpBytes e.frame - room) 4096)
  let t := nx (exec (.sumpWrite 1 (BitVec.ofNat 14 qq)) s)
  [got.length == cdiv (sumpBytes e.frame - room) 4096, (t.queue 1 qq).ents == pre ++ { e with place := .sump, pages := (if room = 0 then [] else (s.queue 1 qq).page.toList) ++ got, corrupt := s.badBuf e } :: post,
   (t.rx 1).pages == got ++ (s.rx 1).pages, got.all (fun y => !(y ∈ (s.rx 1).pages) && s.pageLive 1 y), decide (t.bufx 1 e.frame.buf = {}), t.slots == s.slots]
def s4 := let s := (sQ qq [en 1 .cistern, {en 2 .sump with pages := [5]}]).wf (CIS_SUMP_CFG.PREFETCH 1) 8; s.setRx 1 { s.rx 1 with pages := [5,6] }
def ms := run.setRx 3 { slots := [{ key := ⟨4,1,0⟩, done := true, req := some (5, 17, 100, 1) }, { key := ⟨5,1,0⟩ }] }
def ma (p : List PolPush) := (List.range 8).foldl (fun s n => s.setRx n { s.rx n with meterWm := 9 }) (run.setRx 3 { reqs := [⟨2, ⟨4,1,0⟩, 17, 100, 1⟩, ⟨2, ⟨4,2,0⟩, 17, 100, 1⟩], pushes := p })
def ma2 := (((ma []).wf (TM_POL.EN 3 17) 1).wf (TM_POL_PROF.CIR 3 0) 77).wf (TM_POL_PROF.CBS 3 0) 200
def pa := let s := { ma [⟨6,17,1,3⟩] with time := {domA := {ns := 100000}} }; s.setRx 3 { s.rx 3 with reqs := [] }

end Switch

namespace Traffic

def fr (k : Nat) : Frame := { key := ⟨5,k,0⟩, data := (List.range 50).map (BitVec.ofNat 8 ·), region := 1, pipe := 1, buf := 2*65536+k, act := 2^64 }
def base (l c : Nat) : State := 
  let s := (run.setEgEnts 4 (l*16+c) [⟨fr 3, 100⟩]).setBufx 4 (2*65536+3) {count := 1, egress := true}
  let s := (s.wf PAIR_STATUS.GATE 1)
  if l < 64 then (s.wf (pbf PB_PORT_STATUS.LINK_UP 4 l) 1).wf (pbf PB_DOWN_CFG.MAX_RES_MS 4 l) 5 else s
def pm := (base 44 3).setPromoted 4 (44*16+3) true
def st := (base 44 3).wb (TM_CLASS.STRICT 4 (44*16+3)) true
def w0 : State := let s := ((run.setEgq 4 5 { bucket := { next := some 64 } }).setEgq 4 6 { gateWait := some 64, bucket := {next := some 72} }).setSport 4 3 { bucket := {next := some 80, used := true, tok := -5} }
  s
def tm (s : State) (n : Nat) : State := { s with time := { s.time with domA := { ns := n } } }
def gs := ((tm run 777).wf (TM_GATE_CTRL.CYCLE_NS 4 44) 1000).wf (TM_GATE_CTRL.BASE 4 44) 500
def ga := tm (nx (exec (.gateSwitch 4 44 0xFFFFF705) gs)) 3000
def g2 := (((nx (exec (.gateBankActivate 4 44) ga)).wb (TM_PORT.GATE_EN 4 44) true)).wf (TM_GATE_LIST.INTERVAL 4 44 1 0) 1
def dp := run.setRx 4 { run.rx 4 with dipAt := 1055, eqUnits := [(1055, 777)], dip := [(1055*128+3, 9)] }

end Traffic

namespace HostRings

def ring (s : State) (r ty st : Nat) (lg := 0) : State := (((if st = 0 then s else s.wf (HIF_RING_CTRL.ENABLE r) 1).wf (HIF_RING_CTRL.TYPE r) ty).wf (HIF_RING_STATUS.STATE r) st).wf (HIF_RING_CTRL.LOG_SIZE r) lg
def d1 := ((ring run 5 3 1).wf (HIF_RING_HEAD.HEAD 5) 100).wf (HIF_RING_TAIL.TAIL 5) 110
def d1' := d1.wf (HIF_RING_STATUS.SUSPENDED 5) 1
def d2 := ((ring run 5 4 1).wf (HIF_RING_HEAD.HEAD 5) 100).wf (HIF_RING_TAIL.TAIL 5) 110
def e0 := (ring run 7 2 1) |>.wf (HIF_RING_BIND.CQ 9) 7
def ds := d1.setRingX 5 { cache := [[1],[2]] }
def dc := ((ring run 5 3 3).wf (HIF_RING_HWB.ADDR 5) (2^61-1)).wf (HIF_RING_HEAD.HEAD 5) 12345
def iv := nx (exec (.ringInvalidate 5) ds)
def hm (s : State) (a : Nat) (ws : List Nat) : State := s.hostWriteWords a ws
def txd (first last : Bool) (len addr : Nat) : List Nat := [1 + 256*b2n first + 512 * b2n last, len, addr % 2^32, addr / 2^32, 0,0,0,0]
def f1 := hm (hm ((ring run 5 0 1).wf (HIF_RING_BASE.ADDR 5) 77 |>.wf (HIF_RING_TAIL.TAIL 5) 2) (77*4096) (txd true false 10 0x8000)) (77*4096+32) (txd false true 50 0x9000)
def nw (s : State) := (List.range 2).map (fun i => s.hostWords (s.ringAddr 5 (s.ringHead 5 + i) 32) 8)
def f3 := (nx (exec (.descriptorFetch 5 9 .good) ((ring f1 7 2 1).wf (HIF_RING_BIND.CQ 5) 7))).wf (HIF_RING_BIND.CHANNEL 5) 3
def f4 := nx (exec (.transmitChainBegin 3 none) f3)
def hfr : Frame := { key := ⟨5,1,0⟩, data := (List.range 80).map (BitVec.ofNat 8 ·), buf := 7, origLen := 84 }
def h0 := { run with hostRx := [(9, some (hfr, 2))] }
def mtt := ((d2.wf (HIF_RING_STATUS.ARMED 5) 1).setRingX 5 {timer := true}).wf (HIF_RING_BIND.VECTOR 5) 1999 |>.wf (HIF_RING_MOD.COUNT 5) 500
def mt' := (mtt.wf (MSIX_CTRL.MASK 1999) 0)
def um := (run.setReg (MSIX_PBA.w (1999/32)) 0xFFFFFFFF)
def er : EvtRec := ⟨0x123, 1, 77, 88, 99, []⟩
def ev := ((({d2 with evts := [⟨0x124, 1, 7, 8, 9, []⟩, er]}).wf (CHIP_EVT_SRC.EN 0x123) 1).wf (CHIP_EVT_SRC.RING 0x123) 5).wf (HIF_RING_BASE.ADDR 5) (2^52-1)

end HostRings

namespace Hbm

def act (s : State) (st c v : Nat) := s.setChState st c v
def b0 := act (act run 2 3 2) 2 4 2
def cmd (op : HbmOp) (b : BitVec 5 := 7) (r : BitVec 14 := 999) : HbmCmd := ⟨op, b, r, 3⟩
def x0 : HbmPc := { rows := [(3, some 5), (7, some 999)], retry := [{ cmd := cmd .rd, alerts := 1 }], acts := [(7,[(999,4),(5,0x7fff)])] }
def s0 := b0.setHpc 2 7 x0
def x1 := { x0 with maint := [(cmd .pre, true), (cmd .ref, false)] }
def x2 := { x0 with reads := [(cmd .rd, none), (cmd .rd 3 5, some { ask := { who := 3, bank := 3, row := 5, col := 3 }, again := true })] }
def x3 := { x0 with refBank := 7, postponed := [(7,2)] }
def s4 := s0.setHctl 2 { cfg := 0x7000 }
def al := (b0.setHpc 2 6 x0).setHpc 2 7 { x2 with replay := [{ cmd := cmd .act, alerts := 1 }] }
def rt := nx (exec (.retrain 2 3 0) b0)
def fq := (nx (exec (.freqChangeGo 2 2) (al.wf (HBM_STATUS.LIVE_CH 2) 0x0008)))

end Hbm

namespace Pair

def px (s : State) (x : PairX) : State := { s with pairx := x }
def actv := (run.wf PAIR_STATUS.STATE 1).wf PAIR_STATUS.HOLD_OUT 1 |>.wf PAIR_STATUS.GATE 1
def lanes (s : State) := (s.setLink 8 0 { state := lkUp }).wf PAIR_STATUS.LINK 1
def sb := run.wf PAIR_STATUS.STATE 2
def ls := (run.wf PAIR_STATUS.STATE 3).wf CHIP_STROKE_CFG.SRC_LEDGER 1
def hh (s : State) (d : Nat) : HelloRx := { seq := 8, state := 4, holding := true, preferred := true, healthy := false, stroke := 99, fprint := BitVec.ofNat 32 (s.fprint + d) }
def tm (s : State) (n : Nat) : State := { s with time := { s.time with domA := { ns := n } } }
def la := px (tm ((lanes actv).wf PAIR_CFG.MODE 2) 1000000) {ledNext := some 5, led := [{stroke := 4}, {stroke := 5, counts := [(3,7)], skips := [(3,2,1)], fcs := [(9,9)]}, {stroke := 6}]}
def rc : LedgerRec := { stroke := 5, fcsd := 77, counts := [(3, 7)], skips := [(2,3,true),(3,3,false)] }
def dg := px ({ tm ((lanes actv).wf PAIR_CFG.MODE 2) 1000000000 with digs := [(3*16+2, 77),(5*16, 1)] }) {digNext := some 3}
def dg' := ((List.range 8).foldl (fun s n => s.wf (SP_WM.STROKE n) 5000) dg).wf SP_RELEASED.STROKE 5000
def dl (sums : List Nat) (enf : Nat) := px ({ (dg'.wf PAIR_STATUS.STATE 3) with pairx := {} }) {peerDigs := [(3, sums)], enforce := enf}
def jn := px (((lanes sb).wf PAIR_CFG.MODE 2).wf PAIR_STATUS.PEER_STATE 1 |>.wf PAIR_JOIN_STROKE.STROKE 1000) { peerPrint := ((lanes sb).wf PAIR_CFG.MODE 2).fprint, peerStroke := 77 }
def jn2 := nx (exec (.pairJoin 0) jn)
def rv := px (((((lanes sb).wf PAIR_CFG.PREFERRED 1).wf PAIR_CFG.REVERT_COLD 1)).wf PAIR_STATUS.PEER_STATE 1) {txSeq := 9}

end Pair

namespace Errors

def halt5A : Word := 0x5A00
def rgS (n st : Nat) (s : State) := s.wf (REG_Q_STATUS.STATE n) st
def rj := ((rgS 7 4 (rgS 0 2 run)).wf SP_STATUS.QUARANTINED 129).wf (IP_CL_STATUS.ACTIVE_BANK 1 0) 1 |>.wf (IP_CL_STATUS.EPOCH 1 0) 5 |>.wf (IP_CL_STATUS.EPOCH 0 0) 3
def lv (n : Nat) (s : State) := s.wf (PWR_STATUS.LEVEL n) 8
def ps (u m a b : Nat) := (cfgS.withPasses [(u, some ⟨m,a,b⟩)]).wf (REG_SCRUB_PASS.BUSY u) 1

end Errors

namespace Counters

def fz (x : Nat) (s : State) := s.wf CT_FREEZE_STROKE.STROKE x
def th (x : Nat) (s : State) := s.wf CT_THAW_STROKE.STROKE x
def sn (x : Nat) (s : State) := s.wf CT_SNAP_STROKE.STROKE x
def nz := run
def cs := ((run.wf (CT_SEL.EN 9 7) 1).wf (CT_SEL.EVENT 9 7) 0x10).wf (CT_SEL.QUAL 9 7) 255

end Counters

namespace Power

def av (mv h en : Nat) (fx : Bool) := ((run.wf PWR_AVS.SET_MV mv).wf PWR_AVS.EN en).withPwr { run.pwr with half := h = 1, fixed := fx }
def tp (a w tr : Nat) := ((run.wf PWR_THERM.TEMP_C a).wf PWR_THERM.WARN_C w).wf PWR_THERM.TRIP_C tr
def lv (n l : Nat) (s : State) := s.wf (PWR_STATUS.LEVEL n) l
def gt (n l w b t : Nat) := ((lv n l (((run.wf PWR_CFG.GATE_EN 255).wf PWR_CFG.SLEW 10))).withPwr { run.pwr with ptr := n, want := mset 0 [] n w, budget := b }).withTime { run.time with tick := t }

end Power

namespace Reset

def nz (st : Nat) := ((run).wf CHIP_STATE.STATE st).withHostMem [(5,6)]
def rich (st : Nat) : State := { nz st with eps := [(3,4)], pending := [], free := 7, tapx := {instr := 3, sel := 2}, pairx := {heldIn := true, chatter := true}, cfg := {perst := true, fnMask := true}, chip := {straps := 5} }
def sr := nx (execSysResetAssert 10 true (rich 4))
def wv : Word := 0x3C00
def ww (st : Nat) := ({ rich st with txs := [{chan := 3, ring := 4, index := 1, cq := 3, frags := some []}, {chan := 2, ring := 4, index := 1, cq := 3, frags := none}], evts := [⟨3, 1, 0, 0, 0, []⟩] }.wf (HIF_RING_STATUS.STATE 9) 1).wf (HIF_RING_CTRL.ENABLE 9) 1
def prm (s : State) := (s.wf CHIP_STATE.STATE 2).wf CHIP_PRIME_STATUS.FAIL 0
def prmAt (k : Nat) : State := (prm run).wf CHIP_PRIME_STATUS.STEP k
def rws : List (Region × Oct × BitVec 20) := [(3, 5, 7), (4, 2, 3), (3, 2, 9)]
def qs (b : Bool) (q : Nat) (t : Nat) := (((run.wf PAIR_STATUS.GATE 1).withChip {quiesceAt := some q, quiescing := b}).withTime { run.time with domA := { ns := t } })
def qd := ((List.range 8).foldl (fun s n => s.wf (SP_WM.STROKE n) 100) (qs true 100 100)).wf SP_RELEASED.STROKE 99

end Reset

namespace Registers

def rr (s : State) (w : Nat) : State := s

end Registers

namespace Rest

def pay (n : Nat) (k := 7) : List Byte := (List.range n).map (fun i => BitVec.ofNat 8 (i * k + 3))
def frame (k : Nat) : Frame := { key := ⟨5, k, 0⟩, data := pay 80, region := 3, pipe := 1, buf := 3, act := 2 ^ 64, hv := pay 512 }
def toClassify := run.setPipe 7 1 { cls := [frame 1] }
def cmdIn (op table count : Nat) (sched := false) (stroke := 0) : State := cmdRing run (ent op table count 3 7 sched stroke 0x100)
def cmdC (op table count : Nat) (sched := false) (stroke := 0) : CmdX := (cmdIn op table count sched stroke).cmdOf 2 (ent op table count 3 7 sched stroke 0x100)
def fullSched := run.setTbl 3 { sched := List.replicate 1024 (cmdC 0x10 4 16 true 100) }
def sweepS := ((run.wf (TBL_AGE_CFG.N 3) 1).wf (SP_WM.STROKE 3) 100).withTime { run.time with domA := { ns := 6400 } }
def look (k : Nat) (t := 100) : Lookup := { frame := { frame k with key := ⟨t, k, 0⟩ }, part := 1, key := pay 40, dir := 0, ready := true }
def lookS (b : Nat) (vs : List ViewChange := []) := ((((run.setEng 3 { lookups := [look 1], views := vs }).wf (SP_WM.STROKE 3) 2000).wf (PMP_BIND.VALID 3 0 (actRoutine (frame 1).act)) b).wf (PMP_BIND.LEN 3 0 (actRoutine (frame 1).act)) 1).withTime { run.time with domA := { ns := 64000 } }
def heldS := (((run.setEng 3 { lookups := [{ look 1 with held := true }] }).wf (SP_WM.STROKE 3) 2000)).withTime { run.time with domA := { ns := 64000 } }
def sweepF := (((run.wf (FE_SWEEP_CFG.N_F 3) 100).wf (SP_WM.STROKE 3) 5000).wf SP_RELEASED.STROKE 4000).withTime { run.time with domA := { ns := 6400 } }
def c6Rec : List Byte := [1] ++ List.replicate 15 0 ++ [1] ++ List.replicate 19 0 ++ [6] ++ List.replicate 27 0
def ctx : PumpCtx := { look := look 1, verdict := false, pc := 70, g := List.replicate 32 5, win := pay 64, md := List.range 16, latency := 9, winOk := true, since := 3 }
def issuing (w : Nat) (k : PumpCtx := ctx) : State :=
  (((run.setCtx 3 5 2 (some k)).setReg (PMP_BIND.w 3 0 (actRoutine (frame 1).act)) (BitVec.ofNat 32 (64 + 2 ^ 16 * 20))).setReg (PMP_STORE.w 3 70)
    (BitVec.ofNat 32 w)).wf (PMP_CFG.MAX_WORDS 3) 50
def passS := run.setEng 3 { passes := [{ look := look 1, verdict := true, restarts := 2 }], rrPump := 6 }
def cross (d : Dest) (g : Nat) (b : Bool) : XferX := { ent := { frame := { frame 1 with region := 1, dest := d }, seq := 3 }, sent := 6, total := 6, got := g, buf := 5, cls := 3, bad := b }
def crossing (x : XferX) : State := run.withWind { xfer := [(1 * 8 + 4, x)] }
def ent1 (k : Nat) (p : Place) : QEnt := { frame := { frame k with region := 1, buf := 2 * 65536 + k }, seq := k, place := p }
def queued (l : List QEnt) (mib : Nat) : State := ((run.wf (CIS_SUMP_CFG.SIZE_MIB 1) mib).setQueue 1 (qIndex 4 3 44) { ents := l, spill := true }).setBufx 1 (2 * 65536 + 3) { count := 1, port := 3, cls := 2 }
def tx0 : TxX := ⟨5, 0, 0, 0, 50, false, false, false, 3, none, 0, none⟩
def hcmd (op : HbmOp) : HbmCmd := ⟨op, 7, 999, 3⟩
def chanUp := run.setChState 2 15 hcActive
def lock3 (e : Nat) := ((run.wf PAIR_STATUS.STATE 3).wf PAIR_CFG.MODE 2).withPairx { peerDigs := [(3, [1])], enforce := e }
def capS := ((((List.range 8).foldl (fun s n => s.wf (SP_WM.STROKE n) 5000) run).wf SP_RELEASED.STROKE 5000).withTime { run.time with domA := { ns := 6400000 } }).withPairx { cap := some ⟨12, 0x10000000⟩ }
def maskedMsg := ((run.withCfg { run.cfg with fnMask := true }).wf (MSIX_PBA.PENDING 63) (2 ^ 31)).wf (MSIX_CTRL.MASK 2047) 0
def priming := (inState 2).wf CHIP_PRIME_STATUS.FAIL 0
def ringAs (s : State) (r ty st : Nat) : State :=
  (((s.wf (HIF_RING_CTRL.ENABLE r) 1).wf (HIF_RING_CTRL.TYPE r) ty).wf (HIF_RING_STATUS.STATE r) st).wf (HIF_RING_CTRL.LOG_SIZE r) 0
def txd1 (first last : Bool) (len addr : Nat) : List Nat :=
  [1 + 256 * b2n first + 512 * b2n last, len, addr % 2 ^ 32, addr / 2 ^ 32, 0, 0, 0, 0]
def f1 : State :=
  ((((ringAs run 5 0 1).wf (HIF_RING_BASE.ADDR 5) 77).wf (HIF_RING_TAIL.TAIL 5) 2).hostWriteWords (77 * 4096) (txd1 true false 10 0x8000)).hostWriteWords
    (77 * 4096 + 32) (txd1 false true 50 0x9000)
def nw (s : State) : List (List Nat) := (List.range 2).map (fun i => s.hostWords (s.ringAddr 5 (s.ringHead 5 + i) 32) 8)
def f3 : State := (nx (exec (.descriptorFetch 5 9 .good) ((ringAs f1 7 2 1).wf (HIF_RING_BIND.CQ 5) 7))).wf (HIF_RING_BIND.CHANNEL 5) 3
def strict15 : State :=
  (((((run.setEgEnts 4 (44 * 16 + 15) [⟨{ key := ⟨5, 3, 0⟩, data := pay 50, region := 1, pipe := 1, buf := 2 * 65536 + 3, act := 2 ^ 64 }, 100⟩]).setBufx 4
    (2 * 65536 + 3) { count := 1, egress := true }).wf PAIR_STATUS.GATE 1).wf (pbf PB_PORT_STATUS.LINK_UP 4 44) 1).wf (pbf PB_DOWN_CFG.MAX_RES_MS 4 44) 5).wb
    (TM_CLASS.STRICT 4 (44 * 16 + 15)) true
def pages (b : Nat) : State := (run.wf CT_STATUS.FROZEN 1).wf (CT_USER_ENABLE.EN 3) (b * 2 ^ (105 % 32))
def ho : State :=
  ((((run.wf PAIR_STATUS.STATE 1).wf PAIR_STATUS.HOLD_OUT 1).wf PAIR_STATUS.GATE 1).setLink 8 0 { state := lkUp }).wf PAIR_STATUS.LINK 1
    |>.withTime { run.time with domA := { ns := 1000000000 } } |>.withPairx { yieldAt := some 12 }

/-- A bound on the words from a register's first to its last. -/
def reach (d : RegDesc) : Nat := (d.dims.map (fun p => (p.1 - 1) * p.2)).sum + d.nw

def spare : State := run.wf (HBM_SPARE_LEFT.ROWS 3 0) 16384

end Rest



namespace More
open Rest

def keyS : State := ((((Parse.b0.wf (IP_PARSE_NODE.KEY_SET 1 1 0 0) 1).wf (IP_PARSE_NODE.KEY_PROFILE 1 1 0 0) 5).wf (IP_PARSE_NODE.DEFAULT_NEXT 1 1 0 0) 0x101).wf
  (IP_PARSE_LIMIT.MAX_STEPS 1 1 0) 10)
def badS : State := Parse.b1.setPipe 1 1 { Parse.b1.pipe 1 1 with badEnt := [entLoc 3 0 0] }
def dropS : State := Parse.b1.setPipe 1 1 { Parse.b1.pipe 1 1 with
  rob := [{ slot := 9, eng := 3, frame := { Parse.fr 70 with dropCode := true }, done := true }, { slot := 10, eng := 0, frame := Parse.fr 71 }] }
def polS : State := Rest.toClassify.setReg (IP_CL_MISS_ACT.w 3 1 0 + 1) (2 ^ 16)
def hitS : State := (Parse.b3.wf (IP_CL_KPSEL.EN 1 1 0 0 0) 1)

def mac5 : Nat := Tables.lent 5 0
def cmdM (op table count : Nat) (m : List Byte) (sched := false) (stroke := 0) : State := cmdRing (run.hostWrite 0x100 m) (ent op table count 3 7 sched stroke 0x100)
def macIn : State := run.withEps [(3 * 2 ^ 20 + 448224, mac5)]
def macCmd (op : Nat) : State := cmdRing (macIn.hostWrite 0x100 (bytesLE 16 mac5)) (ent op 1 1 3 0 false 0 0x100)
def slotIn (v : Nat) : State := run.withEps [(3 * 2 ^ 20 + 7, v)]
def slotCmd (op v : Nat) : State := cmdRing (slotIn v) (ent op 0 1 3 7 false 0 0x100)
def rkey : List Byte := pay 37 ++ [0, 0, 0]
def recOf5 : List Byte := rkey ++ [5, 0, 0, 0] ++ pay 20 9
def putR (s : State) (e : Nat) (r : List Byte) : State := s.putRec e (s.fold e (s.hashes e (recPart r) (recKey r)).1) 0 .u r
def flowRing (s : State) (op part count : Nat) (m : List Byte) (sched := false) (stroke := 0) : State := cmdRing (s.hostWrite 0x100 m) (ent op part count 3 7 sched stroke 0x100)
def flowC (op part count : Nat) (sched := false) (stroke := 0) : CmdX := (cmdRing run (ent op part count 3 7 sched stroke 0x100)).cmdOf 2 (ent op part count 3 7 sched stroke 0x100)
def badCmd : State := cmdRing run (ent 0x77 0 1 3 7 false 0 0x100)
def upCmd : State := (cmdIn 0x10 4 1).setRingX 2 { (cmdIn 0x10 4 1).ringX 2 with upset := [0] }

def schedFl : State := (run.setEng 3 { sched := [flowC 0x42 5 1 true 0] }).wf (SP_WM.STROKE 3) 5
def pvr : State := (putR Records.pv 3 (Records.nk.1 ++ [0, 0, 0, 0] ++ pay 20 9))
def pvc (b : Nat) : State := pvr.setEng 3 { pvr.eng 3 with cached := [b * 4] }
def glob : State := ((Records.pv.wf (FE_PART_CFG.MODE 3 0) 1).wf (REG_Q_STATUS.STATE 7) 2)
def rec1 : List Byte := rkey ++ [1, 0, 0, 0] ++ pay 20 9
def lkR (k : Nat) : Lookup := { Records.lk k with key := rkey }
def leR : State := run.setLookups 3 [lkR 1, lkR 2]
def pinS : State :=
  let s := (List.range 8).foldl (fun s b => s.putRec 3 b 0 .u rec1) (putR leR 3 rec1)
  s.setEng 3 { s.eng 3 with cached := (List.range 8).map (· * 4) }
def sweepU : State := (Records.sw.snapFix 3 43 true []).readAll 3
def fullEv (k : Nat) : State := { run with evts := List.replicate k ⟨0x690, 4, 0, 0, 0, []⟩ }
def agedS : State := (putR (fullEv 1024) 3 recOf5).wf (FE_PART_CFG.NOTIFY_AGED 3 5) 1 |>.wf (CHIP_EVT_SRC.EN 0x7C2) 1 |>.wf (CHIP_EVT_SRC.RING 0x7C2) 5 |>.wf (HIF_RING_CTRL.TYPE 5) 4
  |>.wf (HIF_RING_STATUS.STATE 5) 1 |>.wf (HIF_RING_CTRL.ENABLE 5) 1

def wmT : State := Records.wmS.withTime { Records.wmS.time with floor := some 100 }

def noFlow : Frame := { Tables.fr 1 with act := 0 }

def nw0 : PumpCtx := { ctx with winOk := false }
def noWin : State := ((issuing 0 { nw0 with wait := some (0, 0) }).setEng 3 { lookups := [look 0] })
def exp1 : PumpCtx := { ctx with exps := [⟨0, [1]⟩] }
def stuck (s : State) : State :=
  { ((((s.wf (PMP_EXPORT_CFG.EN 3 0) 1).wf (PMP_EXPORT_CFG.RING 3 0) 5).wf (HIF_RING_CTRL.TYPE 5) 4).wf (HIF_RING_STATUS.STATE 5) 1).wf (HIF_RING_CTRL.ENABLE 5) 1 with
    evts := [⟨0x7C6, 3, 0, 0, 0, List.replicate 900 0⟩] }

def badBufS : State := (queued [ent1 3 .toSump] 0).setBufx 1 (2 * 65536 + 3) { count := 1, port := 3, cls := 2, corrupt := true }
def eligS : State := (Traffic.base 44 3).setEgq 4 707 { (Traffic.base 44 3).egq 4 707 with wasElig := true, since := some 0 }
def starveS : State := (eligS.wf (TM_CLASS.STARVE_US 4 707) 1).withTime { eligS.time with domA := { ns := 1000 } }

def f1bad : State := HostRings.hm f1 (77 * 4096 + 32) (txd1 true true 50 0x9000)
def short : List (List Nat) := [txd1 true true 10 0x8000]
def f3bad : State := f3.setRingX 5 { f3.ringX 5 with cache := short }
def rxd : List Nat := [2, 128, 0, 0, 0, 0, 0, 0]
def cqOut : State := (HostRings.ring run 0 1 1).setRingX 0 { cache := [rxd], owed := 64 }
def ask3 : HbmAsk := { who := 3, bank := 3, row := 5, col := 3 }
def replS : State := (Hbm.b0.setChState 2 3 hcReplay).setHpc 2 7 { replay := [{ cmd := hcmd .act, alerts := 1 }] }
def postS : State := Hbm.b0.setHpc 2 7 { Hbm.x3 with queue := [{ ask := { who := 3, bank := 7 } }] }

def yieldS : State := (Pair.ls.wf PAIR_LAST_LEDGER.STROKE 11).withPairx { yieldAt := some 12 }
def scrubOn : State := (run.wf (REG_SCRUB_CFG.EN 3) 255).wf (PWR_STATUS.LEVEL 3) 8


def nearS : State := (FrontEnd.b2.setLink 3 40 { FrontEnd.b2.link 3 40 with width := 1 }).wf (LANE_CFG.LOOPBACK 3 40) 1


def flV (s : State) (l : Lookup) : State := s.ev 107 0x12 none 1 l.frame.key.stroke l.frame.key.num

theorem none_some1 {α : Type} {o : Option α} {P : α → Prop} (h : o = none) : ∀ a, o = some a → P a := by
  subst h; intro a e; cases e

theorem none_some2 {α β : Type} {o : Option (α × β)} {P : α → β → Prop} (h : o = none) : ∀ a b, o = some (a, b) → P a b := by
  subst h; intro a b e; cases e

theorem none_some3 {α β γ : Type} {o : Option (α × β × γ)} {P : α → β → γ → Prop} (h : o = none) : ∀ a b c, o = some (a, b, c) → P a b c := by
  subst h; intro a b c e; cases e


def snapFull : State := (issuing (word 0x38 2)).setEng 3 { snap := some { Records.sn true with staged := List.range 257 } }
def rxOne : State := (HostRings.ring run 0 1 1).wf (HIF_RING_TAIL.TAIL 0) 1


def ho2 : State := (ho.wf PAIR_CFG.MODE 2).withPairx { yieldAt := some 12, ledNext := some 12, peerPrint := (ho.wf PAIR_CFG.MODE 2).fprint }
def lagS : State := (Pair.px Pair.ls { held := [⟨frame 1, 0, 0⟩] }).withTime { Pair.ls.time with tick := 10 ^ 9 }

def scrubLate : State := ((scrubOn.setScrubx 3 5 ⟨1, 0, false⟩).wf (REG_SCRUB_CFG.LAP_LIMIT_MS 3) 1).withTime { run.time with tick := 10 ^ 9 }
def scrubHb : State := ((run.wf (HBM_SCRUB_CFG.EN 2) 1).wf (HBM_SCRUB_CFG.LAP_LIMIT_MS 2) 0).withTime { run.time with tick := 10 ^ 9 }

def isNext : Host.Outcome State Fault Refusal → Bool | .next _ => true | _ => false
theorem nx_eq {o : Host.Outcome State Fault Refusal} (h : isNext o = true) : o = .next (nx o) := by
  cases o <;> simp_all [isNext, nx]

end More

namespace Rest

theorem locateDims_lt : ∀ (ds : List (Nat × Nat)) (o k m : Nat) (ix : List Nat), locateDims ds o = some (ix, k) → k < m →
    o < (ds.map (fun p => (p.1 - 1) * p.2)).sum + m := by
  intro ds
  induction ds with
  | nil => intro o k m ix h hk; simp only [locateDims, Option.some.injEq, Prod.mk.injEq] at h; simp; omega
  | cons p ds ih =>
    obtain ⟨n, st⟩ := p
    intro o k m ix h hk
    simp only [locateDims] at h
    split at h
    · rename_i hlt
      obtain ⟨r, hr, he⟩ := Option.map_eq_some_iff.1 h
      simp only [Prod.mk.injEq] at he
      have h1 := ih (o % st) r.2 m r.1 hr (by omega)
      have h2 : st * (o / st) ≤ (n - 1) * st := by rw [Nat.mul_comm]; exact Nat.mul_le_mul_right _ (by omega)
      have h3 := Nat.div_add_mod o st
      simp only [List.map_cons, List.sum_cons]; omega
    · cases h

theorem resetWord_zero (a b w : Nat) (h : regTable.all (fun d => d.rst == 0 || decide (b ≤ d.base) || decide (d.base + reach d ≤ a)) = true)
    (ha : a ≤ w) (hb : w < b) : resetWord w = 0 := by
  unfold resetWord
  split
  · rfl
  · rename_i x hx
    obtain ⟨d, hd, hh⟩ := List.exists_of_findSome?_eq_some hx
    have := List.all_eq_true.1 h d hd
    simp only [RegDesc.hit] at hh
    split at hh
    · cases hh
    · split at hh
      · cases hh
      · rename_i ix k hl
        split at hh
        · rename_i hk
          have h1 := locateDims_lt _ _ _ _ _ hl hk
          simp only [Option.some.injEq] at hh
          subst hh
          simp only [Bool.or_eq_true, beq_iff_eq, decide_eq_true_eq] at this
          rcases this with (h0 | h0) | h0
          · simp [h0]
          · omega
          · unfold reach at h0; omega
        · cases hh

theorem spare_regs : spare.regs = [(2, 4), (2556224, 16384)] := by decide +kernel

theorem spare_none : spare.retiredIn 3 0 = [] := by
  unfold State.retiredIn
  rw [List.filter_eq_nil_iff]
  intro i hi
  have h0 : spare.reg (HBM_RETIRE.w 3 i) = 0 := by
    have hw : HBM_RETIRE.w 3 i = 2557952 + i := by simp [HBM_RETIRE.w]
    rw [List.mem_range] at hi
    simp only [State.reg, spare_regs, hw, sget]
    rw [if_neg (by omega), if_neg (by omega)]
    exact resetWord_zero 2557952 2558976 _ (by decide +kernel) (by omega) (by omega)
  simp [State.rb, State.rf, HBM_RETIRE.VALID, h0, bits]

theorem spare_retire : spare.hbmRetireResult 3 0 0 0 false = 0 := by
  unfold State.hbmRetireResult State.retiredBanks
  rw [spare_none]
  decide +kernel

end Rest

/-- Whether every port's stamping for a stroke is final, region by region. -/
theorem stampsDone_regions (s : State) (t : Nat) (h : strokeLt t s.strokeNow = true)
    (hp : ∀ n : Fin 8, s.regionRuns n = false ∨ ∀ l : Fin 64, s.portWidth n l = 0 ∨ strokeLt t (s.heldStroke (n * 64 + l) s.cellCycles) = true) :
    s.stampsDone t = true := by
  simp only [State.stampsDone, h, Bool.true_and, List.all_eq_true, List.mem_range]
  intro p lt
  rcases hp ⟨p / 64, by omega⟩ with h0 | h0
  · simp only at h0
    simp [h0]
  · have h1 := h0 ⟨p % 64, by omega⟩
    have e : p / 64 * 64 + p % 64 = p := by omega
    simp only [e] at h1
    rcases h1 with h1 | h1 <;> simp [h1]

/-! ### Witnesses -/

open Time in
/-- Clause by clause, something meets the hypotheses of Obligations.TimeAdjustAndSlew. -/
theorem test_witness_TimeAdjustAndSlew :
(∃ (s : State) (d : DomIx) (v : Word), s.regsCanon = true ∧ s.hostOpen = true) ∧
(∃ (incr ppm : Nat) (x : Dom), x.frac < 2 ^ 32 ∧ x.ns < 2 ^ 48 * 1000000000) :=
⟨⟨run, 1, 0x80000000, by decide +kernel⟩,
⟨0xFFFFFFFF, 1000, {ns := 2 ^ 48 * 1000000000 - 1, frac := 2 ^ 32 - 1, adj := -1}, by decide +kernel⟩⟩

open Time in
/-- Clause by clause, something meets the hypotheses of Obligations.TimeLoadsSnapsAndCells. -/
theorem test_witness_TimeLoadsSnapsAndCells :
(∃ (s : State) (d : DomIx), s.regsCanon = true ∧ s.hostOpen = true ∧ s.loadOk d = true ∧ (∀ i < 4, s.rb (TIME_PULSE_CTRL.ARMED i) = false)) ∧
(∃ (s : State) (d : DomIx), s.regsCanon = true ∧ s.hostOpen = true ∧ s.loadOk d = false) ∧
(∃ (s : State), s.regsCanon = true ∧ s.hostOpen = true) ∧
(∃ (s : State) (v : DomIx), s.regsCanon = true ∧ s.hostOpen = true ∧ s.rf TIME_STATUS.STAMP_ACTIVE ≠ v.val) ∧
(∃ (s : State) (cyc : BitVec 16) (bad : Option (Fin 1024)), s.regsCanon = true) :=
⟨⟨lateLoad, 1, by decide +kernel⟩,
⟨run, 0, by decide +kernel⟩,
⟨run, by decide +kernel⟩,
⟨run, 1, by decide +kernel⟩,
⟨run, 1023, none, by decide +kernel⟩⟩

open Time in
/-- Clause by clause, something meets the hypotheses of Obligations.OrderingSourceSwitch. -/
theorem test_witness_OrderingSourceSwitch :
(∃ (s : State) (v : Word), s.regsCanon = true ∧ s.hostOpen = true ∧ v.getLsbD 2 = false ∧ s.rb TIME_OSW_CTRL.PENDING = false ∧ (v.getLsbD 0).toNat ≠
      s.rf TIME_STATUS.ORDER_SRC ∧ s.rb CHIP_STROKE_CFG.SRC_LEDGER = false ∧ leadOk s.strokeNow (s.rf TIME_OSW_STROKE.STROKE) = true) ∧
(∃ (s : State) (v : Word), s.regsCanon = true ∧ s.hostOpen = true ∧ v.getLsbD 1 = false ∧ s.rb TIME_OSW_CTRL.PENDING = true) ∧
(∃ (s : State), s.regsCanon = true ∧ s.rb TIME_OSW_CTRL.PENDING = true ∧ strokeLe s.time.oswAt s.strokeNow = true) ∧
(∃ (s : State), s.rb TIME_OSW_CTRL.PENDING = false) :=
⟨⟨run.wf TIME_OSW_STROKE.STROKE 64, 1, by decide +kernel⟩,
⟨oswPending, 0, by decide +kernel⟩,
⟨oswPending, by decide +kernel⟩,
⟨run, by decide +kernel⟩⟩

open Time in
/-- Clause by clause, something meets the hypotheses of Obligations.PulsesAndCaptures. -/
theorem test_witness_PulsesAndCaptures :
(∃ (s : State) (i : Fin 4) (v : Word) (e : Nat), s.regsCanon = true ∧ s.hostOpen = true ∧ nextEdge (s.pulseStart i) (s.rf (TIME_PULSE_PERIOD.NS i))
      (s.dom (v.getLsbD 1).toNat).ceil = some e ∧ scanon (fun _ => ({} : PulseX)) 0 s.time.pulses = true ∧ (s.dom (v.getLsbD 1).toNat).frac < 2 ^
      32) ∧
(∃ (s : State) (i : Fin 4) (v : Word), s.regsCanon = true ∧ s.hostOpen = true) ∧
(∃ (s : State) (i : Fin 4), s.regsCanon = true ∧ scanon (fun _ => ({} : PulseX)) 0 s.time.pulses = true ∧ s.rb (TIME_PULSE_CTRL.ARMED i) = true ∧
      (s.pulse i).next ≤ s.pulseNow i) ∧
(∃ (s : State) (i : Fin 4), scanon (fun _ => ({} : PulseX)) 0 s.time.pulses = true ∧ (s.pulse i).active = true ∧ (s.pulse i).endAt ≤ (s.dom (s.pulse
      i).dom).ns) ∧
(∃ (s : State) (i : Fin 4) (rising : Bool) (back : BitVec 16), s.regsCanon = true ∧ scanon (fun _ => ({} : CaptX)) 0 s.time.capts = true ∧ s.rb
      (TIME_CAPT_CFG.EN i) = true ∧ s.rf (TIME_CAPT_CFG.FILTER_NS i) ≤ back.toNat ∧ s.captSelects i rising = true ∧ s.captTooSoon i (s.time.tick -
      back.toNat) = false ∧ (s.capt i).fifo.length < 16) ∧
(∃ (s : State) (i : Fin 4) (c : CaptStamp) (l : List CaptStamp), s.regsCanon = true ∧ scanon (fun _ => ({} : CaptX)) 0 s.time.capts = true ∧ (s.capt
      i).fifo = c :: l ∧ c.dom < 2 ∧ l.length < 16) ∧
(∃ (s : State) (d : DomIx), s.regsCanon = true ∧ s.rf TIME_STATUS.ORDER_SRC ≠ d.val ∧ s.rf TIME_STATUS.STAMP_ACTIVE ≠ d.val) ∧
(∃ (s : State) (d : DomIx), s.regsCanon = true ∧ (s.rf TIME_STATUS.ORDER_SRC = d.val ∨ s.rf TIME_STATUS.STAMP_ACTIVE = d.val) ∧ s.alive = true) :=
⟨⟨run.wf (TIME_PULSE_PERIOD.NS 3) 1000, 3, 1, 1000, by decide +kernel⟩,
⟨run, 3, 0, by decide +kernel⟩,
⟨run.wf (TIME_PULSE_CTRL.ARMED 3) 1, 3, by decide +kernel⟩,
⟨run.setPulse 3 { active := true }, 3, by decide +kernel⟩,
⟨captOn, 3, false, 0xFFFF, by decide +kernel⟩,
⟨run.setCapt 3 { fifo := [⟨5, 1⟩] }, 3, ⟨5, 1⟩, [], by decide +kernel⟩,
⟨run, 1, by decide +kernel⟩,
⟨run, 0, by decide +kernel⟩⟩

open FrontEnd in
/-- Clause by clause, something meets the hypotheses of Obligations.ReceptionDiscardsAndCodes. -/
theorem test_witness_ReceptionDiscardsAndCodes :
(∃ (s : State) (n : Region) (l : Fin 64) (r : RxFrame), (s.portWidth n l = 0 ∨ s.running = false ∨ s.regionRuns n = false ∨ (s.rb (pbf
      PB_PORT_STATUS.LINK_UP n l) = false ∧ r.down = false))) ∧
(∃ (s : State) (n : Region) (l : Fin 64) (r : RxFrame), s.regsCanon = true ∧ s.portWidth n l ≠ 0 ∧ s.running = true ∧ s.regionRuns n = true ∧ s.rb
      (pbf PB_PORT_STATUS.LINK_UP n l) = true ∧ s.pairMode = 2) :=
⟨⟨run, 0, 0, fr 70, by decide +kernel⟩,
⟨b2.wf PAIR_STATUS.STATE 2, 3, 40, fr 70, by decide +kernel⟩⟩

open Time in
/-- Clause by clause, something meets the hypotheses of Obligations.ReceptionDiscardsAndCodes. -/
theorem test_witness_ReceptionDiscardsAndCodes_2 :
∃ (mtu : Nat) (r : RxFrame), 64 ≤ mtu ∧ mtu ≤ 10000 :=
⟨64, { data := [] }, by decide +kernel⟩

open FrontEnd in
/-- Clause by clause, something meets the hypotheses of Obligations.ReceptionStamps. -/
theorem test_witness_ReceptionStamps :
(∃ (s : State) (n : Region) (l : Fin 64) (r : RxFrame) (t : Nat), s.regsCanon = true ∧ s.portWidth n l ≠ 0 ∧ s.running = true ∧ s.regionRuns n =
      true ∧ (s.rb (pbf PB_PORT_STATUS.LINK_UP n l) = true ∨ r.down = true) ∧ s.pairMode ≠ 2 ∧ s.nearPort n l = false ∧ t = s.heldStroke (globalOf n
      l) (s.sfdCyc r) ∧ s.fromLedger t = false ∧ s.admitsStroke t = false) ∧
(∃ (s : State) (n : Region) (l : Fin 64) (r : RxFrame) (t : Nat), s.regsCanon = true ∧ s.portWidth n l ≠ 0 ∧ s.running = true ∧ s.regionRuns n =
      true ∧ (s.rb (pbf PB_PORT_STATUS.LINK_UP n l) = true ∨ r.down = true) ∧ s.pairMode ≠ 2 ∧ s.nearPort n l = false ∧ t = s.heldStroke (globalOf n
      l) (s.sfdCyc r) ∧ s.fromLedger t = false ∧ s.admitsStroke t = true ∧ r.preamble = true ∧ r.sfd = true ∧ r.mac = false ∧ r.fcs = true ∧ r.down
      = false ∧ rxCode (s.rf (pbf PB_PORT_CFG.MTU n l)) r = none) ∧
(∃ (s : State) (n : Region) (l : Fin 64) (r : RxFrame) (t : Nat), s.regsCanon = true ∧ s.portWidth n l ≠ 0 ∧ s.running = true ∧ s.regionRuns n =
      true ∧ (s.rb (pbf PB_PORT_STATUS.LINK_UP n l) = true ∨ r.down = true) ∧ s.pairMode ≠ 2 ∧ s.nearPort n l = false ∧ t = s.heldStroke (globalOf n
      l) (s.sfdCyc r) ∧ s.fromLedger t = false ∧ s.admitsStroke t = true ∧ r.preamble = true ∧ r.sfd = true ∧ r.mac = false ∧ (r.fcs = false ∨
      r.down = true ∨ (rxCode (s.rf (pbf PB_PORT_CFG.MTU n l)) r).isSome = true)) ∧
(∃ (s : State) (n : Region) (l : Fin 64) (r : RxFrame) (t : Nat), s.regsCanon = true ∧ s.portWidth n l ≠ 0 ∧ s.running = true ∧ s.regionRuns n =
      true ∧ (s.rb (pbf PB_PORT_STATUS.LINK_UP n l) = true ∨ r.down = true) ∧ s.pairMode ≠ 2 ∧ s.nearPort n l = false ∧ t = s.heldStroke (globalOf n
      l) (s.sfdCyc r) ∧ s.fromLedger t = false ∧ s.admitsStroke t = true ∧ r.preamble = true ∧ r.sfd = true ∧ r.mac = true) ∧
(∃ (s : State) (n : Region) (l : Fin 64) (r : RxFrame) (t : Nat), s.regsCanon = true ∧ s.portWidth n l ≠ 0 ∧ s.running = true ∧ s.regionRuns n =
      true ∧ (s.rb (pbf PB_PORT_STATUS.LINK_UP n l) = true ∨ r.down = true) ∧ s.pairMode ≠ 2 ∧ s.nearPort n l = false ∧ t = s.heldStroke (globalOf n
      l) (s.sfdCyc r) ∧ s.fromLedger t = false ∧ s.admitsStroke t = true ∧ (r.preamble = false ∨ r.sfd = false) ∧ r.mac = false) ∧
(∃ (s : State) (n : Region) (l : Fin 64) (r : RxFrame) (t : Nat), s.regsCanon = true ∧ s.portWidth n l ≠ 0 ∧ s.running = true ∧ s.regionRuns n =
      true ∧ (s.rb (pbf PB_PORT_STATUS.LINK_UP n l) = true ∨ r.down = true) ∧ s.pairMode ≠ 2 ∧ s.nearPort n l = false ∧ t = s.heldStroke (globalOf n
      l) (s.sfdCyc r) ∧ s.fromLedger t = false ∧ s.admitsStroke t = true ∧ (r.preamble = false ∨ r.sfd = false) ∧ r.mac = true) ∧
(∃ (s : State) (n : Region) (l : Fin 64) (r : RxFrame) (t : Nat), s.regsCanon = true ∧ s.portWidth n l ≠ 0 ∧ s.running = true ∧ s.regionRuns n =
      true ∧ s.rb (pbf PB_PORT_STATUS.LINK_UP n l) = true ∧ s.pairMode ≠ 2 ∧ s.nearPort n l = false ∧ t = s.heldStroke (globalOf n l) (s.sfdCyc r) ∧
      s.fromLedger t = true ∧ s.admitsStroke t = true ∧ r.preamble = true ∧ r.sfd = true ∧ r.mac = false ∧ r.fcs = true ∧ r.down = false ∧ rxCode
      (s.rf (pbf PB_PORT_CFG.MTU n l)) r = none) ∧
(∃ (s : State) (p t : Nat), s.regsCanon = true ∧ mapCanon (0, 0) s.lastKey = true ∧ (mget (0, 0) s.lastKey p).2 ≠ 0) :=
⟨⟨{ b2 with chip := { b2.chip with runFrom := 5 } }, 3, 40, fr 70, _, by decide +kernel, by decide +kernel, by decide +kernel, by decide +kernel,
      by decide +kernel, by decide +kernel, by decide +kernel, rfl, by decide +kernel⟩,
⟨b2, 3, 40, fr 70, b2.portStroke (globalOf 3 40) 0, by decide +kernel⟩,
⟨b2, 3, 40, { fr 70 with fcs := false }, b2.heldStroke (globalOf 3 40) 0, by decide +kernel⟩,
⟨b2, 3, 40, { fr 70 with mac := true }, b2.heldStroke (globalOf 3 40) 0, by decide +kernel⟩,
⟨b2, 3, 40, {fr 70 with sfd := false}, b2.portStroke (globalOf 3 40) 0, by decide +kernel⟩,
⟨b2, 3, 40, { fr 70 with mac := true, sfd := false }, b2.heldStroke (globalOf 3 40) 0, by decide +kernel⟩,
⟨(b2.wf PAIR_STATUS.STATE 1).withPairx { yieldAt := some 0 }, 3, 40, fr 70, _, by decide +kernel, by decide +kernel, by decide +kernel,
      by decide +kernel, by decide +kernel, by decide +kernel, by decide +kernel, rfl, by decide +kernel⟩,
⟨{b2 with lastKey := [(5,(7,9))]}, 5, 3, by decide +kernel⟩⟩

open FrontEnd in
/-- Clause by clause, something meets the hypotheses of Obligations.ReceptionStamps. -/
theorem test_witness_ReceptionStamps_2 :
(∃ (s : State) (p t : Nat), s.regsCanon = true ∧ mapCanon (0, 0) s.lastKey = true ∧ (mget (0, 0) s.lastKey p).2 ≠ 0 ∧ strokeLt (raiseTo
      s.pairx.floor (raiseTo s.time.floor t)) (mget (0, 0) s.lastKey p).1 = true) ∧
(∃ (s : State) (p t : Nat), s.regsCanon = true ∧ mapCanon (0, 0) s.lastKey = true ∧ (mget (0, 0) s.lastKey p).2 ≠ 0 ∧ strokeLt (raiseTo
      s.pairx.floor (raiseTo s.time.floor t)) (mget (0, 0) s.lastKey p).1 = false) ∧
(∃ (s : State) (p t : Nat), s.regsCanon = true ∧ mapCanon (0, 0) s.lastKey = true ∧ (mget (0, 0) s.lastKey p).2 ≠ 0 ∧ (s.stampKey p t).2.stroke =
      (mget (0, 0) s.lastKey p).1) ∧
(∃ (s : State) (p t : Nat), s.regsCanon = true ∧ mapCanon (0, 0) s.lastKey = true ∧ (mget (0, 0) s.lastKey p).2 ≠ 0 ∧ (s.stampKey p t).2.stroke ≠
      (mget (0, 0) s.lastKey p).1) :=
⟨⟨{b2 with lastKey := [(5,(7,9))]}, 5, 3, by decide +kernel⟩,
⟨{ b2 with lastKey := [(5, (7, 9))] }, 5, 7, by decide +kernel⟩,
⟨{b2 with lastKey := [(5,(7,9))]}, 5, 3, by decide +kernel⟩,
⟨{ b2 with lastKey := [(5, (7, 9))] }, 5, 8, by decide +kernel⟩⟩

open More Rest in
/-- Clause by clause, something meets the hypotheses of Obligations.ReceptionStamps. -/
theorem test_witness_ReceptionStamps_3 :
(∃ (s : State) (n : Region) (l : Fin 64) (r : RxFrame) (d : List Byte) (good : Bool) (rest : List (List Byte × Bool)), s.portWidth n l ≠ 0 ∧
      s.running = true ∧ s.regionRuns n = true ∧ s.rb (pbf PB_PORT_STATUS.LINK_UP n l) = true ∧ s.pairMode ≠ 2 ∧ s.nearPort n l = true ∧ (s.pport n
      l).loop = []) ∧
(∃ (s : State) (n : Region) (l : Fin 64) (r : RxFrame) (d : List Byte) (good : Bool) (rest : List (List Byte × Bool)), s.portWidth n l ≠ 0 ∧
      s.running = true ∧ s.regionRuns n = true ∧ s.rb (pbf PB_PORT_STATUS.LINK_UP n l) = true ∧ s.pairMode ≠ 2 ∧ s.nearPort n l = true ∧ (s.pport n
      l).loop = (d, good) :: rest) :=
⟨⟨nearS, 3, 40, FrontEnd.fr 70, [], false, [], by decide +kernel⟩,
⟨nearS.setPport 3 40 { loop := [(pay 70, true), (pay 80, false)] }, 3, 40, FrontEnd.fr 70, pay 70, true, [(pay 80, false)], by decide +kernel⟩⟩

open FrontEnd in
/-- Clause by clause, something meets the hypotheses of Obligations.PauseTimes. -/
theorem test_witness_PauseTimes :
(∃ (s : State) (n : Region) (l : Fin 64) (p : Oct), mapCanon {} s.pports = true ∧ mapCanon 0 (s.pport n l).quanta = true) ∧
(∃ (s : State) (n l : Nat) (d : List Byte) (q : Nat), mapCanon {} s.pports = true ∧ mapCanon 0 (s.pport n l).quanta = true ∧ be16 d 14 = 1) ∧
(∃ (s : State) (n l : Nat) (d : List Byte) (q : Nat), mapCanon {} s.pports = true ∧ mapCanon 0 (s.pport n l).quanta = true ∧ be16 d 14 = 1 ∧ q ≠ 0) ∧
(∃ (s : State) (n l : Nat) (d : List Byte) (p : Nat), mapCanon {} s.pports = true ∧ mapCanon 0 (s.pport n l).quanta = true ∧ be16 d 14 = 0x101 ∧ p <
      8) ∧
(∃ (s : State) (n : Region) (l : Fin 64) (p : Oct), s.regsCanon = true ∧ s.rf (pbf PB_FC_CFG.MODE n l) = 2 ∧ (s.valve n (l * 16 + 2 * p) || s.valve
      n (l * 16 + 2 * p + 1)) = true ∧ s.canSend n l = true ∧ s.rb (LANE_PORT_STATUS.TX_QUIET n l) = false) ∧
(∃ (s : State) (n : Region) (l : Fin 64), s.regsCanon = true ∧ s.rf (pbf PB_FC_CFG.MODE n l) = 1 ∧ s.valve n (2000 + l) = true ∧ s.canSend n l =
      true ∧ s.rb (LANE_PORT_STATUS.TX_QUIET n l) = false) :=
⟨⟨q1, 0, 0, 3, by decide +kernel⟩,
⟨q1, 0, 0, pf 1, 3, by decide +kernel⟩,
⟨q1, 0, 0, pf 1, 3, by decide +kernel⟩,
⟨q1, 0, 0, pf 0x101, 2, by decide +kernel⟩,
⟨v1 2 6, 0, 0, 3, by decide +kernel⟩,
⟨v1 1 2000, 0, 0, by decide +kernel⟩⟩

open FrontEnd in
/-- Clause by clause, something meets the hypotheses of Obligations.StormFlapAndLog. -/
theorem test_witness_StormFlapAndLog :
(∃ (s : State) (n : Region) (l : Fin 64) (p : Oct), s.regsCanon = true ∧ (s.rf (pbf PB_FC_CFG.MODE n l) = 2 ∨ (s.rf (pbf PB_FC_CFG.MODE n l) = 1 ∧
      p.val = 0)) ∧ s.rf (pbf PB_STORM_CFG.LIMIT_MS n l) ≠ 0 ∧ mget 0 (s.pport n l).quanta p ≠ 0 ∧ bit (s.rf (pbf PB_PORT_STATUS.STORM n l)) p =
      false) ∧
(∃ (s : State) (n : Region) (l : Fin 64) (p : Oct), s.regsCanon = true) ∧
(∃ (s : State) (n : Region) (l : Fin 64), s.regsCanon = true ∧ s.rb (pbf PB_PORT_STATUS.FROZEN n l) = true ∧ s.rb (pbf PB_PORT_STATUS.LINK_UP n l) =
      false) ∧
(∃ (s : State) (n : Region) (l : Fin 64), (s.rb (pbf PB_PORT_STATUS.FROZEN n l) = false ∨ s.rb (pbf PB_PORT_STATUS.LINK_UP n l) = true)) ∧
(∃ (s : State) (n : Region) (l : Fin 64) (v : Word), s.regsCanon = true ∧ s.hostOpen = true) :=
⟨⟨st1, 0, 0, 3, by decide +kernel⟩,
⟨st1, 0, 0, 1, by decide +kernel⟩,
⟨fz, 0, 0, by decide +kernel⟩,
⟨b1, 0, 0, by decide +kernel⟩,
⟨b1, 0, 0, 0, by decide +kernel⟩⟩

open FrontEnd in
/-- Clause by clause, something meets the hypotheses of Obligations.PortConfiguration. -/
theorem test_witness_PortConfiguration :
(∃ (s : State) (n : Region) (b : Oct) (v : Word), s.regsCanon = true ∧ s.hostOpen = true ∧ (∃ i < 8, s.rb (PB_PORT_CFG.ENABLE n b i) = true) ∧
      shapeOk (v.toNat % 2 ^ 24) = true ∧ (s.reg (PB_SHAPE.w n b)).toNat ≠ v.toNat % 2 ^ 24) ∧
(∃ (s : State) (n : Region) (b : Oct) (v : Word), s.regsCanon = true ∧ s.hostOpen = true ∧ shapeOk (v.toNat % 2 ^ 24) = false) ∧
(∃ (s : State) (n : Region) (b : Oct) (v : Word), s.regsCanon = true ∧ s.hostOpen = true ∧ (∀ i < 8, s.rb (PB_PORT_CFG.ENABLE n b i) = false) ∧
      shapeOk (v.toNat % 2 ^ 24) = true) ∧
(∃ (s : State) (n : Region) (l : Fin 64) (v : Word), s.regsCanon = true ∧ s.hostOpen = true ∧ s.portWidth n l ≠ 0 ∧ s.rb (pbf PB_PORT_CFG.ENABLE n
      l) = false ∧ v.getLsbD 0 = false) ∧
(∃ (s : State) (n : Region) (l : Fin 64) (v : Word), s.regsCanon = true ∧ mapCanon {} s.links = true ∧ s.hostOpen = true ∧ s.portWidth n l ≠ 0 ∧
      s.rb (pbf PB_PORT_CFG.ENABLE n l) = true ∧ v.getLsbD 0 = false) ∧
(∃ (s : State) (n : Region) (l : Fin 64) (v : Word), s.regsCanon = true ∧ s.hostOpen = true ∧ s.portWidth n l ≠ 0 ∧ s.rb (pbf PB_PORT_CFG.ENABLE n
      l) = false ∧ v.getLsbD 0 = true ∧ shapeRow (bits v.toNat 1 3) (s.portWidth n l) = none) ∧
(∃ (s : State) (n : Region) (l : Fin 64) (v : Word), s.regsCanon = true ∧ s.hostOpen = true ∧ s.portWidth n l ≠ 0 ∧ s.rb (pbf PB_PORT_CFG.ENABLE n
      l) = true ∧ v.getLsbD 0 = true ∧ (bits v.toNat 1 3 ≠ s.rf (pbf PB_PORT_CFG.SPEED n l) ∨ bits v.toNat 4 2 ≠ s.rf (pbf PB_PORT_CFG.FEC n l))) ∧
(∃ (s : State) (n : Region) (l : Fin 64) (v : Word) (r : ShapeRow), s.regsCanon = true ∧ s.hostOpen = true ∧ s.rb (pbf PB_PORT_CFG.ENABLE n l) =
      false ∧ v.getLsbD 0 = true ∧ shapeRow (bits v.toNat 1 3) (s.portWidth n l) = some r ∧ bits v.toNat 4 2 ∈ r.fecs) :=
⟨⟨en0, 0, 0, 2, by decide +kernel⟩,
⟨di0, 0, 0, 2+8, by decide +kernel⟩,
⟨di0, 0, 0, 0x49, by decide +kernel⟩,
⟨di0, 0, 0, 0xFFFFFFFE, by decide +kernel⟩,
⟨en0, 0, 0, 0xFFFFFFFE, by decide +kernel⟩,
⟨di0, 0, 0, 1, by decide +kernel⟩,
⟨en0, 0, 0, 0x1F30F, by decide +kernel⟩,
⟨di0, 0, 0, 7+3*16, ⟨3,1,0,[3]⟩, by decide +kernel⟩⟩

open Lanes in
/-- Clause by clause, something meets the hypotheses of Obligations.BringUpAdvances. -/
theorem test_witness_BringUpAdvances :
(∃ (s : State) (g : LaneGroup) (l : LaneIx) (r : AnResult) (c : Nat), s.regsCanon = true ∧ mapCanon {} s.links = true ∧ (s.link g l).state = lkAn ∧
      r.fec.val = s.cfgFec g l ∧ (s.advTech g l).find? (fun c => bit r.tech.toNat c) = some c) ∧
(∃ (s : State) (g : LaneGroup) (l : LaneIx) (ber : BerEst), s.regsCanon = true ∧ mapCanon {} s.links = true ∧ (s.link g l).state = lkTrain ∧ (∀ k <
      (s.link g l).width, s.rf (LANE_CFG.BER_EXP g l) ≤ bits ber.toNat (4 * k) 4)) ∧
(∃ (s : State) (g : LaneGroup) (l : LaneIx), s.regsCanon = true ∧ mapCanon {} s.links = true ∧ (s.link g l).state = lkAlign ∧ 0 < s.cfgWidth g l) ∧
(∃ (s : State) (g : LaneGroup) (l : LaneIx) (ber : BerEst), (s.link g l).state ≠ lkTrain ∧ (s.link g l).state ≠ lkAlign) :=
⟨⟨a1, 0, 8, { tech := 0x0C, fec := 3, pause := 2 }, 2, by decide +kernel⟩,
⟨t1, 0, 8, 0xFFFFFFFF, by decide +kernel⟩,
⟨lk a1 0 8 3, 0, 8, by decide +kernel⟩,
⟨a1, 0, 8, 0, by decide +kernel⟩⟩

open Lanes in
/-- Clause by clause, something meets the hypotheses of Obligations.BringUpFailsAttemptsAndHolds. -/
theorem test_witness_BringUpFailsAttemptsAndHolds :
(∃ (s : State) (g : LaneGroup) (l : LaneIx), (s.link g l).state = lkAn) ∧
(∃ (s : State) (g : LaneGroup) (l : LaneIx) (r : AnResult), s.regsCanon = true ∧ (s.link g l).state = lkAn ∧ (r.fec.val ≠ s.cfgFec g l ∨ (s.advTech
      g l).find? (fun c => bit r.tech.toNat c) = none)) ∧
(∃ (s : State) (g : LaneGroup) (l : LaneIx) (ber : BerEst) (k : Nat) (ks : List Nat), (s.link g l).state = lkTrain ∧ s.lanesNot g l ber = k :: ks) ∧
(∃ (s : State) (g : LaneGroup) (m : LaneIx) (l : Nat) (ber : BerEst), s.portOfLane g m = some l ∧ (s.link g l).state = lkTrain ∧ m.val < l + (s.link
      g l).width) ∧
(∃ (s : State) (g : LaneGroup) (l : LaneIx), (s.link g l).state = lkAlign) ∧
(∃ (s : State) (g : LaneGroup) (l : LaneIx), ((s.link g l).state = lkAn ∨ (s.link g l).state = lkTrain ∨ (s.link g l).state = lkAlign)) ∧
(∃ (s : State) (g : LaneGroup) (l : LaneIx), (s.link g l).state = lkUp) ∧
(∃ (s : State) (g l : Nat) (code : Option Nat) (lane : Nat) (miss : List Nat), code ≠ some 0x21 ∧ code = none ∧ s.rf (LANE_STATUS.ATTEMPTS g l) + 1
      < 3) :=
⟨⟨a1, 0, 8, by decide +kernel⟩,
⟨a1, 0, 8, { tech := 8, fec := 2, pause := 2 }, by decide +kernel⟩,
⟨t1, 0, 8, 0, 0, [1], by decide +kernel⟩,
⟨t1, 0, 9, 8, 0, by decide +kernel⟩,
⟨lk a1 0 8 3, 0, 8, by decide +kernel⟩,
⟨lk a1 0 8 3, 0, 8, by decide +kernel⟩,
⟨lk a1 0 8 4, 0, 8, by decide +kernel⟩,
⟨t1, 0, 8, none, 0, [1], by decide +kernel⟩⟩

open Lanes in
/-- Clause by clause, something meets the hypotheses of Obligations.BringUpFailsAttemptsAndHolds. -/
theorem test_witness_BringUpFailsAttemptsAndHolds_2 :
(∃ (s u : State) (g l : Nat) (lane : Nat) (miss : List Nat), u = s.laneCode g l 0x21 lane ∧ u.rf (LANE_STATUS.ATTEMPTS g l) + 1 < 3) ∧
(∃ (s : State) (g l : Nat) (lane : Nat) (miss : List Nat), 3 ≤ s.rf (LANE_STATUS.ATTEMPTS g l) + 1 ∧ missAll (s.link g l).missed miss = []) ∧
(∃ (s : State) (g l : Nat) (lane k : Nat) (miss ks : List Nat), 3 ≤ s.rf (LANE_STATUS.ATTEMPTS g l) + 1 ∧ missAll (s.link g l).missed miss = k ::
      ks) ∧
(∃ (s : State) (g : LaneGroup) (l : LaneIx), s.regsCanon = true ∧ mapCanon {} s.links = true ∧ 0 < s.cfgWidth g l ∧ s.cfgWidth g l ≤ 8 ∧ s.rf
      (LANE_TIMER_CFG.MAX_HOLDS g) = 0) ∧
(∃ (s : State) (g : LaneGroup) (l : LaneIx), s.regsCanon = true ∧ mapCanon {} s.links = true ∧ 0 < s.cfgWidth g l ∧ s.cfgWidth g l ≤ 8 ∧ s.rf
      (LANE_TIMER_CFG.MAX_HOLDS g) ≠ 0 ∧ s.rf (LANE_TIMER_CFG.MAX_HOLDS g) < s.rf (LANE_STATUS.HOLDS g l) + 1) ∧
(∃ (s : State) (g : LaneGroup) (l : LaneIx), (s.link g l).state = lkHold) ∧
(∃ (s : State) (g : LaneGroup) (l : LaneIx), (s.link g l).state ≠ lkHold) :=
⟨⟨t1, _, 0, 8, 0, [1], rfl, by decide +kernel⟩,
⟨t1.wf (LANE_STATUS.ATTEMPTS 0 8) 2, 0, 8, 0, [], by decide +kernel⟩,
⟨t1.wf (LANE_STATUS.ATTEMPTS 0 8) 2, 0, 8, 0, 1, [1], [], by decide +kernel⟩,
⟨t1.wf (LANE_TIMER_CFG.MAX_HOLDS 0) 0, 0, 8, by decide +kernel⟩,
⟨t1.wf (LANE_TIMER_CFG.MAX_HOLDS 0) 1 |>.wf (LANE_STATUS.HOLDS 0 8) 3, 0, 8, by decide +kernel⟩,
⟨lk a1 0 8 5, 0, 8, by decide +kernel⟩,
⟨lk a1 0 8 4, 0, 8, by decide +kernel⟩⟩

open Lanes in
/-- Clause by clause, something meets the hypotheses of Obligations.CoefficientRequests. -/
theorem test_witness_CoefficientRequests :
(∃ (s : State) (g : LaneGroup) (m : LaneIx) (l : Nat) (k : Fin 5) (up : Bool), s.regsCanon = true ∧ s.portOfLane g m = some l ∧ (s.link g l).state =
      lkTrain ∧ m.val < l + (s.link g l).width ∧ tapUsed (s.laneRate g l) k = true ∧ tapMin k ≤ s.tap (LANE_TX_TAPS_NOW.w g m) k + (if up then 1
      else -1) ∧ s.tap (LANE_TX_TAPS_NOW.w g m) k + (if up then 1 else -1) ≤ tapMax k ∧ (s.wf (tapFld (LANE_TX_TAPS_NOW.w g m) k) (unsigned 6 (s.tap
      (LANE_TX_TAPS_NOW.w g m) k + (if up then 1 else -1)))).tapSum (LANE_TX_TAPS_NOW.w g m) ≤ 64) ∧
(∃ (s : State) (g : LaneGroup) (m : LaneIx) (l : Nat) (k : Fin 5) (up : Bool), s.regsCanon = true ∧ mapCanon {} s.lanes = true ∧ s.portOfLane g m =
      some l ∧ (s.link g l).state = lkTrain ∧ m.val < l + (s.link g l).width ∧ l ≤ m ∧ m.val < 64 ∧ tapUsed (s.laneRate g l) k = false ∧ (s.lanex g
      m).limit = false) ∧
(∃ (s : State) (g : LaneGroup) (m : LaneIx) (l : Nat) (r : CoeffReq), s.regsCanon = true ∧ s.portOfLane g m = some l ∧ s.portEnabled g l = true) ∧
(∃ (s : State) (g : LaneGroup) (m : LaneIx) (l : Nat) (r : CoeffReq), s.regsCanon = true ∧ s.portOfLane g m = some l ∧ s.portEnabled g l = false) ∧
(∃ (s : State) (g : LaneGroup) (m : LaneIx) (r : CoeffReq), s.regsCanon = true ∧ s.portOfLane g m = none) ∧
(∃ (s : State) (g : LaneGroup) (m : LaneIx) (l : Nat) (r : CoeffReq), s.portOfLane g m = some l ∧ (s.link g l).state ≠ lkTrain) :=
⟨⟨c1, 0, 9, 8, 3, true, by decide +kernel⟩,
⟨lk c1 0 8 2 4 4, 0, 9, 8, 0, true, by decide +kernel⟩,
⟨a1.wf (pbf PB_PORT_CFG.ENABLE 0 8) 1, 0, 9, 8, .hold, by decide +kernel⟩,
⟨a1, 0, 9, 8, .hold, by decide +kernel⟩,
⟨run.wf (PB_SHAPE.W 0 1 1) 0, 0, 9, .hold, by decide +kernel⟩,
⟨a1, 0, 9, 8, .hold, by decide +kernel⟩⟩

open Lanes in
/-- Clause by clause, something meets the hypotheses of Obligations.QuietMode. -/
theorem test_witness_QuietMode :
(∃ (s : State) (g : LaneGroup) (l : LaneIx), s.regsCanon = true ∧ s.quietOk g l = true ∧ s.rb (LANE_PORT_STATUS.TX_QUIET g l) = false ∧
      s.nothingToSend g l = true ∧ s.regionIdle g = false) ∧
(∃ (s : State) (g : LaneGroup) (l : LaneIx), s.rb (LANE_PORT_STATUS.TX_QUIET g l) = true ∧ s.regionIdle g = false) ∧
(∃ (s : State) (g : LaneGroup) (l : LaneIx), s.regsCanon = true ∧ s.rb (LANE_PORT_STATUS.TX_QUIET g l) = true ∧ s.regionIdle g = false) ∧
(∃ (s : State) (g : LaneGroup) (l : LaneIx), s.regsCanon = true ∧ mapCanon {} s.links = true ∧ s.quietOk g l = true) ∧
(∃ (s : State) (g : LaneGroup) (l : LaneIx), mapCanon {} s.links = true ∧ s.rb (LANE_PORT_STATUS.RX_QUIET g l) = true) ∧
(∃ (s : State) (g : LaneGroup) (l : LaneIx), s.regsCanon = true) ∧
(∃ (s : State) (g : LaneGroup) (l : LaneIx), (s.rb (LANE_PORT_STATUS.TX_QUIET g l) = false ∨ s.regionIdle g = true)) :=
⟨⟨qm, 0, 8, by decide +kernel⟩,
⟨qm.wf (LANE_PORT_STATUS.TX_QUIET 0 8) 1, 0, 8, by decide +kernel⟩,
⟨qm.wf (LANE_PORT_STATUS.TX_QUIET 0 8) 1, 0, 8, by decide +kernel⟩,
⟨qm, 0, 8, by decide +kernel⟩,
⟨qm.wf (LANE_PORT_STATUS.RX_QUIET 0 8) 1, 0, 8, by decide +kernel⟩,
⟨qm, 0, 8, by decide +kernel⟩,
⟨qm, 0, 8, by decide +kernel⟩⟩

open Lanes in
/-- Clause by clause, something meets the hypotheses of Obligations.LinkLosses. -/
theorem test_witness_LinkLosses :
(∃ (s : State) (g : LaneGroup) (m : LaneIx) (l : Nat) (x : SignalLoss) (wire : Bool), s.portOfLane g m = some l ∧ (s.link g l).state = lkUp ∧ m.val
      < l + (s.link g l).width ∧ s.rb (LANE_PORT_STATUS.RX_QUIET g l) = false ∧ s.rf (LANE_FLAP_CFG.DOWN_DEBOUNCE_US g) ≤ x.us.toNat) ∧
(∃ (s : State) (g : LaneGroup) (m : LaneIx) (l : Nat) (x : SignalLoss) (wire : Bool), s.portOfLane g m = some l ∧ (s.link g l).state = lkUp ∧ m.val
      < l + (s.link g l).width ∧ s.rb (LANE_PORT_STATUS.RX_QUIET g l) = false ∧ x.us.toNat < s.rf (LANE_FLAP_CFG.DOWN_DEBOUNCE_US g) ∧ mapCanon {}
      s.lanes = true) ∧
(∃ (s : State) (g : LaneGroup) (m : LaneIx) (l : Nat) (x : SignalLoss) (wire : Bool), s.regsCanon = true ∧ s.portOfLane g m = some l ∧ (s.link g
      l).state ≠ lkUp) ∧
(∃ (s : State) (g : LaneGroup) (m : LaneIx) (l : Nat) (wire : Bool), s.portOfLane g m = some l ∧ (s.link g l).state = lkUp ∧ m.val < l + (s.link g
      l).width) ∧
(∃ (s : State) (g : LaneGroup) (l : LaneIx) (wire : Bool), (s.link g l).state = lkUp) ∧
(∃ (s : State) (g : LaneGroup) (l : LaneIx) (wire : Bool), s.rb (LANE_PORT_STATUS.RX_QUIET g l) = true ∧ (s.link g l).burst + 400000 ≤ s.time.tick) ∧
(∃ (s : State) (g : LaneGroup) (l : LaneIx) (wire : Bool), s.rb (LANE_PORT_STATUS.RX_QUIET g l) = true) ∧
(∃ (s : State) (g l : Nat) (lane : Nat) (wire : Bool), (s.link g l).state = lkUp) :=
⟨⟨up, 0, 9, 8, ⟨0xFFFF, false⟩, false, by decide +kernel⟩,
⟨up.wf (LANE_FLAP_CFG.DOWN_DEBOUNCE_US 0) 5, 0, 9, 8, ⟨4, true⟩, false, by decide +kernel⟩,
⟨a1, 0, 9, 8, ⟨0, true⟩, false, by decide +kernel⟩,
⟨up, 0, 9, 8, true, by decide +kernel⟩,
⟨up, 0, 8, true, by decide +kernel⟩,
⟨rq, 0, 8, true, by decide +kernel⟩,
⟨rq, 0, 8, false, by decide +kernel⟩,
⟨up, 0, 8, 0, false, by decide +kernel⟩⟩

open Lanes in
/-- Clause by clause, something meets the hypotheses of Obligations.LinkLosses. -/
theorem test_witness_LinkLosses_2 :
∃ (s : State) (g l : Nat) (code : Option Nat) (lane : Nat) (wire : Bool), (s.link g l).state ≠ lkUp :=
⟨a1, 0, 8, none, 0, false, by decide +kernel⟩

open Lanes in
/-- Clause by clause, something meets the hypotheses of Obligations.LaneControlAndPrbs. -/
theorem test_witness_LaneControlAndPrbs :
(∃ (s : State) (g : LaneGroup) (l : LaneIx), s.hostOpen = true ∧ ¬ (g.val = 8 ∧ 8 ≤ l.val) ∧ s.portOfLane g l = some l.val ∧ (s.link g l).state ≠
      lkDisabled) ∧
(∃ (s : State) (g : LaneGroup) (l : LaneIx), s.regsCanon = true ∧ s.hostOpen = true ∧ ¬ (g.val = 8 ∧ 8 ≤ l.val)) ∧
(∃ (s : State) (g : LaneGroup) (l : LaneIx), mapCanon {} s.lanes = true ∧ s.hostOpen = true ∧ ¬ (g.val = 8 ∧ 8 ≤ l.val) ∧ s.rb (LANE_PRBS_CFG.GEN_EN
      g l) = true) ∧
(∃ (s : State) (g : LaneGroup) (l : LaneIx) (v : Word), s.regsCanon = true ∧ s.hostOpen = true ∧ ¬ (g.val = 8 ∧ 8 ≤ l.val) ∧ s.testable g l = false
      ∧ v.getLsbD 3 = true) ∧
(∃ (s : State) (g : LaneGroup) (l : LaneIx), s.regsCanon = true ∧ s.rb (LANE_PRBS_CFG.CHK_EN g l) = true ∧ s.rb (LANE_PRBS_STATUS.LOCK g l) = false
      ∧ (s.nearLoop g l = false ∨ s.loopMatch g l = true)) ∧
(∃ (s : State) (g : LaneGroup) (l : LaneIx) (n errs : BitVec 48), s.regsCanon = true ∧ s.rb (LANE_PRBS_STATUS.LOCK g l) = true) :=
⟨⟨a1, 0, 8, by decide +kernel⟩,
⟨a1, 0, 8, by decide +kernel⟩,
⟨a1.wf (LANE_PRBS_CFG.GEN_EN 0 8) 1, 0, 8, by decide +kernel⟩,
⟨a1.wf (LANE_STATUS.FAILED 0 8) 0, 0, 8, 8, by decide +kernel⟩,
⟨a1.wf (LANE_PRBS_CFG.CHK_EN 0 8) 1, 0, 8, by decide +kernel⟩,
⟨a1.wf (LANE_PRBS_STATUS.LOCK 0 8) 1, 0, 8, 77, 88, by decide +kernel⟩⟩

open LanesMore in
/-- Clause by clause, something meets the hypotheses of Obligations.LaneControlAndPrbs. -/
theorem test_witness_LaneControlAndPrbs_2 :
∃ (s : State) (g : LaneGroup) (l : LaneIx) (v : Word), s.regsCanon = true ∧ s.hostOpen = true ∧ g.val < 8 ∧ s.portOfLane g l = none ∧ (v.getLsbD 3 =
      true ∨ v.getLsbD 7 = true) :=
⟨a1, 0, 12, 0x80F, by decide +kernel⟩

open Parse in
/-- Clause by clause, something meets the hypotheses of Obligations.ParserStages. -/
theorem test_witness_ParserStages :
(∃ (s : State) (n : Region) (p : Pipe), s.running = true ∧ s.regionOn n = true) ∧
(∃ (s : State) (n : Region) (p : Pipe) (i e : Nat) (f : Frame) (rest : List Frame), s.running = true ∧ s.regionOn n = true ∧ mapCanon {} s.pipes =
      true ∧ mapCanon [] (s.pipe n p).inq = true ∧ (s.pipe n p).rob.length < 256 ∧ rrPick 6 (s.pipe n p).rrIn (fun i => !(mget [] (s.pipe n p).inq
      i).isEmpty) = some i ∧ mget [] (s.pipe n p).inq i = f :: rest ∧ rrPick 8 (s.pipe n p).rrEng (fun e => s.engineTakes n p e) = some e) ∧
(∃ (s : State) (n : Region) (p : Pipe), (s.running = false ∨ s.regionOn n = false)) ∧
(∃ (s : State) (n : Region) (p : Pipe) (i e : Nat) (f : Frame) (rest : List Frame), s.regsCanon = true ∧ mapCanon {} s.pipes = true ∧ mapCanon []
      (s.pipe n p).inq = true ∧ (s.pipe n p).rob.length < 256 ∧ rrPick 6 (s.pipe n p).rrIn (fun i => !(mget [] (s.pipe n p).inq i).isEmpty) = some i
      ∧ mget [] (s.pipe n p).inq i = f :: rest ∧ rrPick 8 (s.pipe n p).rrEng (fun e => s.engineTakes n p e) = some e) ∧
(∃ (s : State) (n : Region) (p : Pipe) (e : Oct) (r : RobSlot) (loc : BitVec 13), s.regsCanon = true ∧ mapCanon {} s.pipes = true ∧ s.running = true
      ∧ s.regionOn n = true ∧ (s.pipe n p).rob.find? (fun r => r.eng = e.val && !r.done) = some r ∧ s.badRead n p r.frame = none) ∧
(∃ (s : State) (n : Region) (p : Pipe) (e : Oct) (r : RobSlot) (loc : BitVec 13) (m : BitVec 18), s.regsCanon = true ∧ mapCanon {} s.pipes = true ∧
      s.running = true ∧ s.regionOn n = true ∧ (s.pipe n p).rob.find? (fun r => r.eng = e.val && !r.done) = some r) ∧
(∃ (s : State) (n : Region) (p : Pipe) (e : Oct) (chk : ReadCheck) (loc : BitVec 13), (s.pipe n p).rob.find? (fun r => r.eng = e.val && !r.done) =
      none) ∧
(∃ (s : State) (n : Region) (p : Pipe) (r : RobSlot) (rest : List RobSlot), s.regsCanon = true ∧ mapCanon {} s.pipes = true ∧ s.running = true ∧
      s.regionOn n = true ∧ (s.pipe n p).rob = r :: rest ∧ r.done = true ∧ r.frame.dropCode = false ∧ (∀ y ∈ rest.head?, y.done = false)) :=
⟨⟨b1, 1, 1, by decide +kernel⟩,
⟨b1, 1, 1, 4, 7, fr 6, [], by decide +kernel⟩,
⟨inState 3, 1, 1, by decide +kernel⟩,
⟨b1, 1, 1, 4, 7, fr 6, [], by decide +kernel⟩,
⟨b1, 1, 1, 3, {slot := 9, eng := 3, frame := fr 70}, 77, by decide +kernel⟩,
⟨b1, 1, 1, 3, {slot := 9, eng := 3, frame := fr 70}, 77, 8, by decide +kernel⟩,
⟨b0, 1, 1, 3, .good, 0, by decide +kernel⟩,
⟨b2, 1, 1, {slot := 9, eng := 3, frame := fr 70, done := true}, [{slot := 10, eng := 0, frame := fr 71}], by decide +kernel⟩⟩

open Parse in
/-- Clause by clause, something meets the hypotheses of Obligations.ParserStages. -/
theorem test_witness_ParserStages_2 :
(∃ (s : State) (n : Region) (p : Pipe) (r : RobSlot) (rest : List RobSlot), s.running = true ∧ s.regionOn n = true ∧ (s.pipe n p).rob = r :: rest ∧
      r.done = true) ∧
(∃ (s : State) (n : Region) (p : Pipe) (r : RobSlot) (rest : List RobSlot), (s.pipe n p).rob = r :: rest ∧ r.done = false) ∧
(∃ (s : State) (n : Region) (p : Pipe) (v : Word), s.regsCanon = true ∧ s.hostOpen = true ∧ bits v.toNat 0 8 ≠ 255) ∧
(∃ (s : State) (n : Region) (p : Pipe) (v : Word), s.regsCanon = true ∧ s.hostOpen = true ∧ bits v.toNat 0 8 = 255) :=
⟨⟨b2, 1, 1, {slot := 9, eng := 3, frame := fr 70, done := true}, [{slot := 10, eng := 0, frame := fr 71}], by decide +kernel⟩,
⟨b1, 1, 1, {slot := 9, eng := 3, frame := fr 70}, [{slot := 10, eng := 0, frame := fr 71}], by decide +kernel⟩,
⟨b1, 1, 1, 0xFFFFFE7F, by decide +kernel⟩,
⟨b1, 1, 1, 0xFF, by decide +kernel⟩⟩

open More Rest in
/-- Clause by clause, something meets the hypotheses of Obligations.ParserStages. -/
theorem test_witness_ParserStages_3 :
(∃ (s : State) (f : Frame), ∃ k, (s.parseWalk f).2.key = some k ∧ (s.parseFrame f).1.dropCode = false) ∧
(∃ (s : State) (f : Frame), (s.parseWalk f).2.key = none) ∧
(∃ (s : State) (n : Region) (p : Pipe) (e : Oct) (r : RobSlot) (chk : ReadCheck) (loc : BitVec 13) (l : Nat), s.regsCanon = true ∧ mapCanon {}
      s.pipes = true ∧ s.running = true ∧ s.regionOn n = true ∧ (s.pipe n p).rob.find? (fun r => r.eng = e.val && !r.done) = some r ∧ s.badRead n p
      r.frame = some l) ∧
(∃ (s : State) (n : Region) (p : Pipe) (r : RobSlot) (rest : List RobSlot), s.running = true ∧ s.regionOn n = true ∧ (s.pipe n p).rob = r :: rest ∧
      r.done = true ∧ r.frame.dropCode = true ∧ (∀ y ∈ rest.head?, y.done = false) ∧ mapCanon {} s.pipes = true) :=
⟨⟨keyS, Parse.fr 1, 5, by decide +kernel⟩,
⟨Parse.b0, Parse.fr 1, by decide +kernel⟩,
⟨badS, 1, 1, 3, { slot := 9, eng := 3, frame := Parse.fr 70 }, .failed 0, 0, entLoc 3 0 0, by decide +kernel⟩,
⟨dropS, 1, 1, { slot := 9, eng := 3, frame := { Parse.fr 70 with dropCode := true }, done := true },
      [{ slot := 10, eng := 0, frame := Parse.fr 71 }], by decide +kernel⟩⟩

open Parse in
/-- Clause by clause, something meets the hypotheses of Obligations.ClassificationStages. -/
theorem test_witness_ClassificationStages :
(∃ (s : State) (n : Region) (p : Pipe) (b key e : Nat), mapCanon 0 s.tcam = true) ∧
(∃ (s : State) (n : Region) (p : Pipe), (s.running = false ∨ s.regionOn n = false)) ∧
(∃ (s : State) (n : Region) (p : Pipe) (e : BitVec 15), s.regsCanon = true ∧ mapCanon 0 s.tcam = true ∧ s.alive = true ∧ s.rf (PWR_STATUS.LEVEL n) =
      8 ∧ s.rb (IP_CL_CFG.PAR_CHECK_EN n p) = true) ∧
(∃ (s u : State) (n : Region) (f : Frame) (k : FKey), mapCanon {} s.recirc = true ∧ mapCanon 0 (s.recircx n).seq = true ∧ mapCanon {} s.pipes = true
      ∧ mapCanon [] (s.pipe n f.pipe).inq = true ∧ s.running = true ∧ s.regionOn n = true ∧ leastKey (s.recircx n).waiting = some f ∧ s.wmPassed n
      f.key.stroke = true ∧ (s.onRecircPath n).any (fun g => keyLt g.key f.key) = false ∧ (s.undecided n).any (fun g => keyLt g.key f.key) = false ∧
      k = ⟨(f.key.stroke + s.effLag) % 2 ^ 48, 528 + n, mget 0 (s.recircx n).seq (s.nextStroke f) % 65536⟩ ∧ u = (s.setRecircx n
      { waiting := (s.recircx n).waiting.filter (fun g => g.key != f.key), seq := mset 0 (s.recircx n).seq k.stroke (mget 0 (s.recircx n).seq k.stroke + 1) }).freeCopy
      n f.buf 14 true) ∧
(∃ (s : State) (n : Region), (s.recircx n).waiting = []) :=
⟨⟨b3, 1, 1, 0, 8, 5, by decide +kernel⟩,
⟨inState 3, 1, 1, by decide +kernel⟩,
⟨(b4.wf (PWR_STATUS.LEVEL 1) 8).wf (IP_CL_CFG.PAR_CHECK_EN 1 1) 1, 1, 1, 6, by decide +kernel⟩,
⟨(b4.setRecircx 1 {waiting := [fr 4, {fr 3 with key := ⟨4,3,3⟩}], seq := [(5,7)]}).wf (SP_WM.STROKE 1) 99, _, 1, {fr 3 with key := ⟨4,3,3⟩}, _,
      by decide +kernel, by decide +kernel, by decide +kernel, by decide +kernel, by decide +kernel, by decide +kernel, by decide +kernel,
      by decide +kernel, by decide +kernel, by decide +kernel, rfl, rfl⟩,
⟨b4, 1, by decide +kernel⟩⟩

open More Rest in
/-- Clause by clause, something meets the hypotheses of Obligations.ClassificationStages. -/
theorem test_witness_ClassificationStages_2 :
(∃ (s : State) (n : Region) (p : Pipe) (b key e : Nat), ∃ k, mapCanon 0 s.tcam = true ∧ k < e) ∧
(∃ (s : State) (n : Region) (p : Pipe) (f : Frame) (rest : List Frame), mapCanon {} s.pipes = true ∧ mapCanon {} s.regx = true ∧ s.running = true ∧
      s.regionOn n = true ∧ s.switchDue n p = false ∧ (s.pipe n p).cls = f :: rest ∧ actPolEn (s.classifyFrame f).act = true ∧ s.rf
      (TM_STATUS.METER_OPEN n) < 4096) ∧
(∃ (s : State) (n : Region) (p : Pipe) (f : Frame) (rest : List Frame), mapCanon {} s.pipes = true ∧ mapCanon {} s.regx = true ∧ s.running = true ∧
      s.regionOn n = true ∧ s.switchDue n p = false ∧ (s.pipe n p).cls = f :: rest ∧ actPolEn (s.classifyFrame f).act = true ∧ 4096 ≤ s.rf
      (TM_STATUS.METER_OPEN n)) ∧
(∃ (s : State) (n : Region) (p : Pipe) (f : Frame) (rest : List Frame) (e : Nat) (m : BitVec 18), s.regsCanon = true ∧ mapCanon {} s.pipes = true ∧
      s.running = true ∧ s.regionOn n = true ∧ s.switchDue n p = false ∧ (s.pipe n p).cls = f :: rest ∧ (s.classifyFrame f).tcam = some e) :=
⟨⟨Parse.b3, 1, 1, 0, 0, 9, 5, by decide +kernel⟩,
⟨polS, 7, 1, Rest.frame 1, [], by decide +kernel⟩,
⟨polS.wf (TM_STATUS.METER_OPEN 7) 4096, 7, 1, Rest.frame 1, [], by decide +kernel⟩,
⟨hitS, 1, 1, Parse.fr 66, [], 9, 0, by decide +kernel⟩⟩

open Rest in
/-- Clause by clause, something meets the hypotheses of Obligations.ClassificationStages. -/
theorem test_witness_ClassificationStages_3 :
∃ (s : State) (n : Region) (p : Pipe) (f : Frame) (rest : List Frame), mapCanon {} s.pipes = true ∧ s.running = true ∧ s.regionOn n = true ∧
      s.switchDue n p = false ∧ (s.pipe n p).cls = f :: rest ∧ actPolEn (s.classifyFrame f).act = false :=
⟨toClassify, 7, 1, frame 1, [], by decide +kernel⟩

open Parse in
/-- Clause by clause, something meets the hypotheses of Obligations.RuleSetSwitch. -/
theorem test_witness_RuleSetSwitch :
(∃ (s : State) (n : Region) (p : Pipe) (v : Word), s.regsCanon = true ∧ s.hostOpen = true ∧ (s.rb (IP_CL_STATUS.PENDING n p) = false ∨ v.getLsbD 1 =
      true) ∧ s.rb (IP_CL_STATUS.DRAINING n p) = false ∧ leadOk s.strokeNow (s.rf (IP_CL_SWITCH_STROKE.STROKE n p)) = true) ∧
(∃ (s : State) (n : Region) (p : Pipe) (v : Word) (r : Nat), s.regsCanon = true ∧ s.hostOpen = true ∧ (s.rb (IP_CL_STATUS.PENDING n p) = false ∨
      v.getLsbD 1 = false) ∧ r = (if s.rb (IP_CL_STATUS.PENDING n p) then 2 else if s.rb (IP_CL_STATUS.DRAINING n p) then 3 else if leadOk
      s.strokeNow (s.rf (IP_CL_SWITCH_STROKE.STROKE n p)) then 0 else 1) ∧ r ≠ 0) ∧
(∃ (s : State) (n : Region) (p : Pipe) (v : Word), s.regsCanon = true ∧ s.hostOpen = true ∧ s.rb (IP_CL_STATUS.PENDING n p) = true ∧ leadOk
      s.strokeNow (s.rf (IP_CL_SWITCH_STROKE.STROKE n p)) = true ∧ v.getLsbD 0 = false) ∧
(∃ (s : State) (n : Region) (p : Pipe) (v : Word), s.regsCanon = true ∧ s.hostOpen = true ∧ s.rb (IP_CL_STATUS.PENDING n p) = true ∧ leadOk
      s.strokeNow (s.rf (IP_CL_SWITCH_STROKE.STROKE n p)) = false ∧ v.getLsbD 0 = false) ∧
(∃ (s : State) (n : Region) (p : Pipe) (v : BitVec 48), s.regsCanon = true ∧ s.hostOpen = true ∧ s.rb (IP_CL_STATUS.PENDING n p) = false) ∧
(∃ (s : State) (n : Region) (p : Pipe) (v : BitVec 48), s.regsCanon = true ∧ s.hostOpen = true ∧ s.rb (IP_CL_STATUS.PENDING n p) = true) ∧
(∃ (s : State) (n : Region) (p : Pipe), s.regsCanon = true ∧ mapCanon {} s.pipes = true ∧ s.switchDue n p = true) ∧
(∃ (s : State) (n : Region) (p : Pipe), s.switchDue n p = false) :=
⟨⟨b4.wf (IP_CL_SWITCH_STROKE.STROKE 1 1) 100, 1, 1, 1, by decide +kernel⟩,
⟨b4.wf (IP_CL_STATUS.PENDING 1 1) 1, 1, 1, 1, _, by decide +kernel, by decide +kernel, by decide +kernel, rfl, by decide +kernel⟩,
⟨(b4.wf (IP_CL_STATUS.PENDING 1 1) 1).wf (IP_CL_SWITCH_STROKE.STROKE 1 1) 100, 1, 1, 2, by decide +kernel⟩,
⟨b4.wf (IP_CL_STATUS.PENDING 1 1) 1, 1, 1, 2, by decide +kernel⟩,
⟨b4, 1, 1, -1, by decide +kernel⟩,
⟨b4.wf (IP_CL_STATUS.PENDING 1 1) 1, 1, 1, -1, by decide +kernel⟩,
⟨(b4.wf (IP_CL_STATUS.PENDING 1 1) 1).wf (IP_CL_STATUS.EPOCH 1 1) 65535, 1, 1, by decide +kernel⟩,
⟨b4, 1, 1, by decide +kernel⟩⟩

open Parse in
/-- Clause by clause, something meets the hypotheses of Obligations.RuleSetSwitch. -/
theorem test_witness_RuleSetSwitch_2 :
∃ (s : State) (n : Region) (p : Pipe), s.regsCanon = true ∧ mapCanon {} s.pipes = true ∧ s.rb (IP_CL_STATUS.DRAINING n p) = true ∧ (s.wmPassed n
      (s.rf (IP_CL_RETIRE_STROKE.STROKE n p)) = true ∨ s.regionRuns n = false) :=
⟨((b4.wf (IP_CL_STATUS.DRAINING 1 1) 1).wf (SP_WM.STROKE 1) 99).wf (IP_CL_RETIRE_STROKE.STROKE 1 1) 98, 1, 1, by decide +kernel⟩

open More Rest in
/-- Clause by clause, something meets the hypotheses of Obligations.CommandDispatchAndStatus. -/
theorem test_witness_CommandDispatchAndStatus :
(∃ (s : State) (c : CmdX) (err : Bool) (chk : ReadCheck) (rd : RecRead) (k : Fin 64) (j : Fin 4), s.fronts 0x10 c) ∧
(∃ (s : State) (c : CmdX) (err : Bool) (chk : ReadCheck) (rd : RecRead) (k : Fin 64) (j : Fin 4), s.fronts 0x11 c) ∧
(∃ (s : State) (c : CmdX) (err : Bool) (chk : ReadCheck) (rd : RecRead) (k : Fin 64) (j : Fin 4), s.fronts 0x12 c) ∧
(∃ (s : State) (c : CmdX) (err : Bool) (chk : ReadCheck) (rd : RecRead) (k : Fin 64) (j : Fin 4), s.fronts 0x13 c) ∧
(∃ (s : State) (c : CmdX) (err : Bool) (chk : ReadCheck) (rd : RecRead) (k : Fin 64) (j : Fin 4), s.fronts 0x14 c) ∧
(∃ (s : State) (c : CmdX) (err : Bool) (chk : ReadCheck) (rd : RecRead) (k : Fin 64) (j : Fin 4), s.fronts 0x15 c) ∧
(∃ (s : State) (c : CmdX) (err : Bool) (chk : ReadCheck) (rd : RecRead) (k : Fin 64) (j : Fin 4), s.fronts 0x16 c) ∧
(∃ (s : State) (c : CmdX) (err : Bool) (chk : ReadCheck) (rd : RecRead) (k : Fin 64) (j : Fin 4), s.fronts 0x40 c) :=
⟨⟨cmdIn 0x10 4 1, cmdC 0x10 4 1, false, .good, ⟨.good, .good, false⟩, 63, 3, by unfold State.fronts; decide +kernel⟩,
⟨cmdIn 0x11 4 1, cmdC 0x11 4 1, false, .good, ⟨.good, .good, false⟩, 63, 3, by unfold State.fronts; decide +kernel⟩,
⟨cmdIn 0x12 1 1, cmdC 0x12 1 1, false, .good, ⟨.good, .good, false⟩, 63, 3, by unfold State.fronts; decide +kernel⟩,
⟨cmdIn 0x13 1 1, cmdC 0x13 1 1, false, .good, ⟨.good, .good, false⟩, 63, 3, by unfold State.fronts; decide +kernel⟩,
⟨cmdIn 0x14 1 1, cmdC 0x14 1 1, false, .good, ⟨.good, .good, false⟩, 63, 3, by unfold State.fronts; decide +kernel⟩,
⟨cmdIn 0x15 0 1, cmdC 0x15 0 1, false, .good, ⟨.good, .good, false⟩, 63, 3, by unfold State.fronts; decide +kernel⟩,
⟨cmdIn 0x16 0 1, cmdC 0x16 0 1, false, .good, ⟨.good, .good, false⟩, 63, 3, by unfold State.fronts; decide +kernel⟩,
⟨cmdIn 0x40 4 1, cmdC 0x40 4 1, false, .good, ⟨.good, .good, false⟩, 63, 3, by unfold State.fronts; decide +kernel⟩⟩

open More Rest in
/-- Clause by clause, something meets the hypotheses of Obligations.CommandDispatchAndStatus. -/
theorem test_witness_CommandDispatchAndStatus_2 :
(∃ (s : State) (c : CmdX) (err : Bool) (chk : ReadCheck) (rd : RecRead) (k : Fin 64) (j : Fin 4), s.fronts 0x41 c) ∧
(∃ (s : State) (c : CmdX) (err : Bool) (chk : ReadCheck) (rd : RecRead) (k : Fin 64) (j : Fin 4), s.fronts 0x42 c) ∧
(∃ (s : State) (c : CmdX) (err : Bool) (chk : ReadCheck) (rd : RecRead) (k : Fin 64) (j : Fin 4), s.fronts 0x43 c) ∧
(∃ (s : State) (c : CmdX) (err : Bool) (chk : ReadCheck) (rd : RecRead) (k : Fin 64) (j : Fin 4), s.fronts 0x44 c) ∧
(∃ (s : State) (c : CmdX) (err : Bool) (chk : ReadCheck) (rd : RecRead) (k : Fin 64) (j : Fin 4), s.fronts 0x45 c) ∧
(∃ (s : State) (r code : Nat) (err : Bool) (chk : ReadCheck) (rd : RecRead) (k : Fin 64) (j : Fin 4), s.alive = true ∧ nextRing (mget 0 s.rrHost 16)
      (s.ringsUsed.filter s.cmdReady) = some r ∧ s.upsetIn r 1 = none ∧ cmdFault ((s.ringX r).entries.headD []) = some code) ∧
(∃ (s : State) (r u : Nat) (err : Bool) (chk : ReadCheck) (rd : RecRead) (k : Fin 64) (j : Fin 4), s.alive = true ∧ nextRing (mget 0 s.rrHost 16)
      (s.ringsUsed.filter s.cmdReady) = some r ∧ s.upsetIn r 1 = some u) ∧
(∃ (s : State) (err : Bool) (chk : ReadCheck) (rd : RecRead) (k : Fin 64) (j : Fin 4), s.alive = false) :=
⟨⟨cmdIn 0x41 4 1, cmdC 0x41 4 1, false, .good, ⟨.good, .good, false⟩, 63, 3, by unfold State.fronts; decide +kernel⟩,
⟨cmdIn 0x42 4 1, cmdC 0x42 4 1, false, .good, ⟨.good, .good, false⟩, 63, 3, by unfold State.fronts; decide +kernel⟩,
⟨cmdIn 0x43 4 1, cmdC 0x43 4 1, false, .good, ⟨.good, .good, false⟩, 63, 3, by unfold State.fronts; decide +kernel⟩,
⟨cmdIn 0x44 4 1, cmdC 0x44 4 1, false, .good, ⟨.good, .good, false⟩, 63, 3, by unfold State.fronts; decide +kernel⟩,
⟨cmdIn 0x45 0 1, cmdC 0x45 0 1, false, .good, ⟨.good, .good, false⟩, 63, 3, by unfold State.fronts; decide +kernel⟩,
⟨badCmd, 2, 25, false, .good, ⟨.good, .good, false⟩, 63, 3, by decide +kernel⟩,
⟨upCmd, 2, 0, false, .good, ⟨.good, .good, false⟩, 63, 3, by decide +kernel⟩,
⟨inState 6, true, .good, ⟨.good, .good, false⟩, 63, 3, by decide +kernel⟩⟩

open More Rest in
/-- Clause by clause, something meets the hypotheses of Obligations.CommandDispatchAndStatus. -/
theorem test_witness_CommandDispatchAndStatus_3 :
(∃ (s : State) (c : CmdX) (err : Bool), c.sched = true ∧ s.appliesNow c.region c = false ∧ leadOk s.strokeNow c.stroke = false) ∧
(∃ (s : State) (c : CmdX) (err : Bool), s.regsCanon = true ∧ mapCanon {} s.tbls = true ∧ c.region < 8 ∧ c.sched = true ∧ s.appliesNow c.region c =
      false ∧ leadOk s.strokeNow c.stroke = true ∧ schedEntries (s.tbl c.region).sched + c.count ≤ 16384 ∧ schedUnits c.stroke ((s.tbl
      c.region).sched ++ [c]) ≤ 1024) ∧
(∃ (s : State) (c : CmdX) (x : Option Nat), mapCanon 0 s.eps = true ∧ c.index < 2 ^ 20 ∧ pairSecond (s.ep c.region) c.index = false ∧ epLock (s.ep
      c.region c.index) = false) ∧
(∃ (s : State) (c : CmdX) (x : Option Nat), mapCanon 0 s.eps = true ∧ c.index < 2 ^ 20 ∧ pairSecond (s.ep c.region) c.index = false ∧ epLock (s.ep
      c.region c.index) = true) ∧
(∃ (s : State) (c : CmdX) (x : Option Nat) (err : Bool), (s.applyTable c x err).2 ≠ 0) ∧
(∃ (s u v : State) (c d : CmdX) (k : EpKey), u = s.settleHits c.region ∧ d = { c with payload := u.hostRead c.addr (u.tablePayload c) } ∧ v =
      u.dmaRead (u.tablePayload c) c.item ∧ d.payloadReserved = false ∧ v.region c.region ≠ rgDrain ∧ d.key = some k ∧ v.findIn c.region (v.ep
      c.region) k = none) ∧
(∃ (s u v : State) (c d : CmdX), s.fronts 0x10 c ∧ u = (s.cmdTaken c).settleHits c.region ∧ d =
      { c with payload := u.hostRead c.addr (u.tablePayload c) } ∧ v = u.dmaRead (u.tablePayload c) c.item ∧ d.payloadReserved = false ∧ v.region
      c.region ≠ rgDrain ∧ v.tableRange d = false ∧ (c.sched = false ∨ v.appliesNow c.region c = true) ∧ mapCanon 0 s.eps = true ∧ mapCanon 0
      s.routes = true ∧ mapCanon 0 s.vlans = true ∧ mapCanon 0 s.tcam = true ∧ mapCanon 0 s.actions = true) ∧
(∃ (s u : State) (c : CmdX) (k : Fin 64), s.fronts 0x11 c ∧ u = (s.cmdTaken c).settleHits c.region ∧ (s.cmdTaken c).region c.region ≠ rgDrain ∧
      (s.cmdTaken c).tableRange c = false) :=
⟨⟨run, cmdC 0x10 4 1 true 63, false, by decide +kernel⟩,
⟨run, cmdC 0x10 4 1 true 64, false, by decide +kernel⟩,
⟨slotIn mac5, { cmdC 0x15 0 1 with index := 7 }, some 9, by decide +kernel⟩,
⟨slotIn (mac5 + 2 ^ 84), { cmdC 0x16 0 1 with index := 7 }, some 9, by decide +kernel⟩,
⟨slotIn (mac5 + 2 ^ 84), { cmdC 0x15 0 1 with index := 7 }, some 9, false, by decide +kernel⟩,
⟨flowRing run 0x14 1 1 (bytesLE 16 mac5), _, _, flowC 0x14 1 1, _, .mac 3 77, rfl, rfl, rfl, by decide +kernel⟩,
⟨cmdM 0x10 4 1 (bytesLE 128 5), _, _, cmdC 0x10 4 1, _, by unfold State.fronts; decide +kernel, rfl, rfl, rfl, by decide +kernel⟩,
⟨cmdIn 0x11 4 2, _, cmdC 0x11 4 2, 0, by unfold State.fronts; decide +kernel, rfl, by decide +kernel⟩⟩

open More Rest in
/-- Clause by clause, something meets the hypotheses of Obligations.CommandDispatchAndStatus. -/
theorem test_witness_CommandDispatchAndStatus_4 :
(∃ (s u v : State) (c d : CmdX) (k : EpKey) (i : Nat), s.fronts 0x12 c ∧ u = (s.cmdTaken c).settleHits c.region ∧ d =
      { c with payload := u.hostRead c.addr (u.tablePayload c) } ∧ v = u.dmaRead (u.tablePayload c) c.item ∧ d.payloadReserved = false ∧ v.region
      c.region ≠ rgDrain ∧ d.key = some k ∧ (c.sched = false ∨ v.appliesNow c.region c = true) ∧ mapCanon 0 s.eps = true ∧ (v.findIn c.region (v.ep
      c.region) k = some i ∨ (v.findIn c.region (v.ep c.region) k = none ∧ (v.place c.region k (v.cmdStroke none) true).map (·.1) = some i)) ∧ i < 2
      ^ 20) ∧
(∃ (s u v : State) (c d : CmdX) (k : EpKey) (i : Nat), s.fronts 0x13 c ∧ u = (s.cmdTaken c).settleHits c.region ∧ d =
      { c with payload := u.hostRead c.addr (u.tablePayload c) } ∧ v = u.dmaRead (u.tablePayload c) c.item ∧ d.payloadReserved = false ∧ v.region
      c.region ≠ rgDrain ∧ d.key = some k ∧ (c.sched = false ∨ v.appliesNow c.region c = true) ∧ mapCanon 0 s.eps = true ∧ v.findIn c.region (v.ep
      c.region) k = some i ∧ i < 2 ^ 20) ∧
(∃ (s u v : State) (c d : CmdX) (k : EpKey) (i : Nat), s.fronts 0x14 c ∧ u = (s.cmdTaken c).settleHits c.region ∧ d =
      { c with payload := u.hostRead c.addr (u.tablePayload c) } ∧ v = u.dmaRead (u.tablePayload c) c.item ∧ d.payloadReserved = false ∧ v.region
      c.region ≠ rgDrain ∧ d.key = some k ∧ v.findIn c.region (v.ep c.region) k = some i) ∧
(∃ (s u : State) (c : CmdX), u = (s.cmdTaken c).settleHits c.region ∧ u.region c.region ≠ rgDrain ∧ u.tableRange c = false ∧ (c.sched = false ∨
      u.appliesNow c.region c = true) ∧ mapCanon 0 s.eps = true ∧ s.fronts 0x15 c ∧ epLock (u.ep c.region c.index) = false) ∧
(∃ (s u : State) (c : CmdX), u = (s.cmdTaken c).settleHits c.region ∧ u.region c.region ≠ rgDrain ∧ u.tableRange c = false ∧ (c.sched = false ∨
      u.appliesNow c.region c = true) ∧ mapCanon 0 s.eps = true ∧ s.fronts 0x16 c ∧ epLock (u.ep c.region c.index) = true) ∧
(∃ (s u v : State) (c d : CmdX) (e b j : Nat) (k r : List Byte) (l : List (Nat × List Byte)) (h1 second : Bool), s.fronts 0x40 c ∧ d =
      { c with payload := (s.cmdTaken c).hostRead c.addr 40 } ∧ u = (s.cmdTaken c).dmaRead 40 c.item ∧ u.flowDrains d = false ∧ u.flowItems d = (e,
      k) :: l ∧ v = u.readKey e c.table k ∧ v.findRec e c.table k = some (h1, b, j) ∧ v.recAt e b j = some r) ∧
(∃ (s v : State) (c d : CmdX) (es : List Nat), d = { c with payload := (s.cmdTaken c).hostRead c.addr (flowPayload c) } ∧ v = (s.cmdTaken c).dmaRead
      (flowPayload c) c.item ∧ es = ((v.flowItems d).map (·.1)).eraseDups ∧ v.flowDrains d = false ∧ (c.sched = false ∨ es.any (fun e =>
      v.appliesNow e d) = true) ∧ (v.applyEngines d none es).2 = 0 ∧ s.fronts 0x41 c ∧ (List.range c.count).any (fun i => recReserved (bytesAt
      d.payload (64 * i) 64)) = false ∧ (v.flowItems d).any (fun p => recRange c.table p.2) = false) ∧
(∃ (s v : State) (c d : CmdX) (es : List Nat), d = { c with payload := (s.cmdTaken c).hostRead c.addr (flowPayload c) } ∧ v = (s.cmdTaken c).dmaRead
      (flowPayload c) c.item ∧ es = ((v.flowItems d).map (·.1)).eraseDups ∧ v.flowDrains d = false ∧ (c.sched = false ∨ es.any (fun e =>
      v.appliesNow e d) = true) ∧ (v.applyEngines d none es).2 = 0 ∧ s.fronts 0x42 c) :=
⟨⟨macCmd 0x12, _, _, (macCmd 0x12).cmdOf 2 (ent 0x12 1 1 3 0 false 0 0x100), _, .mac 3 77, 448224, by unfold State.fronts; decide +kernel, rfl, rfl,
      rfl, by decide +kernel⟩,
⟨macCmd 0x13, _, _, (macCmd 0x13).cmdOf 2 (ent 0x13 1 1 3 0 false 0 0x100), _, .mac 3 77, 448224, by unfold State.fronts; decide +kernel, rfl, rfl,
      rfl, by decide +kernel⟩,
⟨macCmd 0x14, _, _, (macCmd 0x14).cmdOf 2 (ent 0x14 1 1 3 0 false 0 0x100), _, .mac 3 77, 448224, by unfold State.fronts; decide +kernel, rfl, rfl,
      rfl, by decide +kernel⟩,
⟨slotCmd 0x15 mac5, _, (slotCmd 0x15 mac5).cmdOf 2 (ent 0x15 0 1 3 7 false 0 0x100), rfl, by decide +kernel, by decide +kernel, by decide +kernel,
      by decide +kernel, by unfold State.fronts; decide +kernel, by decide +kernel⟩,
⟨slotCmd 0x16 (mac5 + 2 ^ 84), _, (slotCmd 0x16 mac5).cmdOf 2 (ent 0x16 0 1 3 7 false 0 0x100), rfl, by decide +kernel, by decide +kernel,
      by decide +kernel, by decide +kernel, by unfold State.fronts; decide +kernel, by decide +kernel⟩,
⟨flowRing (putR run 3 recOf5) 0x40 5 1 rkey, _, _, flowC 0x40 5 1, _, 3, 5154192, 0, rkey, recOf5, [], false, true,
      by unfold State.fronts; decide +kernel, rfl, rfl, by decide +kernel, by decide +kernel, rfl, by decide +kernel⟩,
⟨flowRing run 0x41 5 1 (recOf5 ++ List.replicate 0 0), _, flowC 0x41 5 1, _, [3], rfl, rfl, by decide +kernel, by decide +kernel, by decide +kernel,
      by decide +kernel, by unfold State.fronts; decide +kernel, by decide +kernel⟩,
⟨flowRing (putR run 3 recOf5) 0x42 5 1 rkey, _, flowC 0x42 5 1, _, [3], rfl, rfl, by decide +kernel, by decide +kernel, by decide +kernel,
      by decide +kernel, by unfold State.fronts; decide +kernel⟩⟩

open More Rest in
/-- Clause by clause, something meets the hypotheses of Obligations.CommandDispatchAndStatus. -/
theorem test_witness_CommandDispatchAndStatus_5 :
(∃ (s u : State) (c : CmdX) (i : Fin 64) (j : Fin 4) (second : Bool), s.fronts 0x43 c ∧ (s.cmdTaken c).flowDrains c = false ∧ c.index + c.count ≤
      (s.cmdTaken c).nb ∧ u = (List.range c.count).foldl (fun s i => s.readBucket c.region (s.fold c.region (c.index + i))) (s.cmdTaken c)) ∧
(∃ (s u : State) (c : CmdX) (d : List Byte), s.fronts 0x44 c ∧ d = (s.cmdTaken c).hostRead c.addr 32 ∧ u = (s.cmdTaken c).dmaRead 32 c.item ∧
      snapFault d = none ∧ u.flowDrains c = false ∧ (u.eng c.region).snap = none ∧ s.regsCanon = true ∧ mapCanon {} s.engs = true ∧ (c.sched = true
      → leadOk u.strokeNow c.stroke = true)) ∧
(∃ (s : State) (c : CmdX), s.fronts 0x45 c ∧ mapCanon {} s.engs = true ∧ (s.cmdTaken c).flowDrains c = false) :=
⟨⟨flowRing run 0x43 5 2 [], _, flowC 0x43 5 2, 63, 3, true, by unfold State.fronts; decide +kernel, by decide +kernel, by decide +kernel, rfl⟩,
⟨flowRing run 0x44 5 1 (bytesLE 16 (64 * 2 ^ 64) ++ List.replicate 16 0), _, flowC 0x44 5 1, _, by unfold State.fronts; decide +kernel, rfl, rfl,
      by decide +kernel⟩,
⟨cmdRing run (ent 0x45 0 1 3 0 false 0 0), (cmdRing run (ent 0x45 0 1 3 0 false 0 0)).cmdOf 2 (ent 0x45 0 1 3 0 false 0 0),
      by unfold State.fronts; decide +kernel⟩⟩

open Rest in
/-- Clause by clause, something meets the hypotheses of Obligations.CommandDispatchAndStatus. -/
theorem test_witness_CommandDispatchAndStatus_6 :
∃ (s : State) (c : CmdX) (err : Bool), c.sched = true ∧ s.appliesNow c.region c = false ∧ leadOk s.strokeNow c.stroke = true ∧ 16384 < schedEntries
      (s.tbl c.region).sched + c.count :=
⟨fullSched, cmdC 0x10 4 1 true 100, false, by decide +kernel⟩

open Tables in
/-- Clause by clause, something meets the hypotheses of Obligations.TableReadAfterWrite. -/
theorem test_witness_TableReadAfterWrite :
∃ (s : State) (c : CmdX) (x : Option Nat) (err : Bool), mapCanon 0 s.eps = true ∧ mapCanon 0 s.routes = true ∧ mapCanon 0 s.vlans = true ∧ mapCanon
      0 s.tcam = true ∧ mapCanon 0 s.actions = true ∧ c.op = 0x10 ∧ c.table ∈ [0, 2, 3, 4, 0x20, 0x21] ∧ c.region < 8 ∧ c.index + entryUnits c.table
      * c.count ≤ tableSize c.table ∧ s.writeRange c = false :=
⟨run, {c 0x10 0x20 2 7 with payload := pay 256}, none, false, by decide +kernel⟩

open More Rest in
/-- Clause by clause, something meets the hypotheses of Obligations.TableReadAfterWrite. -/
theorem test_witness_TableReadAfterWrite_2 :
(∃ (s : State) (c : CmdX) (x : Option Nat) (err : Bool), ∃ i, mapCanon 0 s.eps = true ∧ mapCanon 0 s.routes = true ∧ mapCanon 0 s.vlans = true ∧
      mapCanon 0 s.tcam = true ∧ mapCanon 0 s.actions = true ∧ c.op = 0x10 ∧ c.table ∈ [0, 2, 3, 4, 0x20, 0x21] ∧ c.region < 8 ∧ c.index +
      entryUnits c.table * c.count ≤ tableSize c.table ∧ s.writeRange c = false ∧ i < c.count) ∧
(∃ (s : State) (c : CmdX) (x : Option Nat) (err : Bool), ∃ id, mapCanon 0 s.eps = true ∧ mapCanon 0 s.routes = true ∧ mapCanon 0 s.vlans = true ∧
      mapCanon 0 s.tcam = true ∧ mapCanon 0 s.actions = true ∧ c.op = 0x10 ∧ c.table ∈ [0, 2, 3, 4, 0x20, 0x21] ∧ c.region < 8 ∧ c.index +
      entryUnits c.table * c.count ≤ tableSize c.table ∧ s.writeRange c = false ∧ (∀ i < c.count, id ≠ (if c.table = 0 then c.index + i else if
      c.table = 4 then vlanId (c.index + i) else if c.table = 2 then routeId (c.index + i) else routeId (c.index + 2 * i)) ∧ (c.table = 3 → id ≠
      routeId (c.index + 2 * i + 1)))) :=
⟨⟨run, { cmdC 0x10 4 2 with payload := bytesLE 128 5 }, some 9, false, 1, by decide +kernel⟩,
⟨run, { cmdC 0x10 4 2 with payload := bytesLE 128 5 }, some 9, false, 0, by decide +kernel⟩⟩

open More Rest in
/-- Clause by clause, something meets the hypotheses of Obligations.LookupsSchedulesAndCompare. -/
theorem test_witness_LookupsSchedulesAndCompare :
(∃ (s u v : State) (n : Region) (p : Pipe) (f g : Frame) (chk tab : ReadCheck) (table : Fin 4) (ix : BitVec 20), mapCanon {} s.pipes = true ∧
      s.running = true ∧ s.regionOn n = true ∧ u = s.countWaits n p ∧ (u.pipe n p).tbl.find? (fun f => u.lookupReady n f.key.stroke) = some f ∧ tab
      = (if table = 3 then .good else chk) ∧ v = (u.setPipe n p
      { u.pipe n p with tbl := (u.pipe n p).tbl.filter (fun g => g.key != f.key) }).tblParity n table ix.toNat tab ∧ g =
      { f with dec := if actFwd f.act = 0 then (if hvValid f.hv (v.rf (TBL_LKP_SEL0.L2_HDR n)) then v.decide6 f else { dest := .drop, noL2 := true }) else {} }
      ∧ isFailed tab = true) ∧
(∃ (s u v : State) (n : Region) (p : Pipe) (f g : Frame) (chk tab : ReadCheck) (table : Fin 4) (ix : BitVec 20), mapCanon {} s.pipes = true ∧
      s.running = true ∧ s.regionOn n = true ∧ u = s.countWaits n p ∧ (u.pipe n p).tbl.find? (fun f => u.lookupReady n f.key.stroke) = some f ∧ tab
      = (if table = 3 then .good else chk) ∧ v = (u.setPipe n p
      { u.pipe n p with tbl := (u.pipe n p).tbl.filter (fun g => g.key != f.key) }).tblParity n table ix.toNat tab ∧ g =
      { f with dec := if actFwd f.act = 0 then (if hvValid f.hv (v.rf (TBL_LKP_SEL0.L2_HDR n)) then v.decide6 f else { dest := .drop, noL2 := true }) else {} }
      ∧ isFailed tab = false ∧ actFlowEn f.act = false) ∧
(∃ (s : State) (n : Region) (err : Bool) (c : CmdX) (r : State × Nat), s.alive = true ∧ s.rf (PWR_STATUS.LEVEL n) ≠ 0 ∧ firstCmd (s.flowDue n) =
      some c ∧ r = (s.unqueueFlow c).applyEngines c (some c.stroke) (s.holders c)) ∧
(∃ (s : State) (n : Region) (r : CmpRead), (s.alive = false ∨ s.rf (PWR_STATUS.LEVEL n) = 0)) :=
⟨⟨run.setPipe 3 1 { tbl := [noFlow] }, _, _, 3, 1, noFlow, _, .failed 9, _, 0, 0, by decide +kernel, by decide +kernel, by decide +kernel, rfl,
      by decide +kernel, rfl, rfl, rfl, by decide +kernel⟩,
⟨run.setPipe 3 1 { tbl := [noFlow] }, _, _, 3, 1, noFlow, _, .good, _, 0, 0, by decide +kernel, by decide +kernel, by decide +kernel, rfl,
      by decide +kernel, rfl, rfl, rfl, by decide +kernel⟩,
⟨schedFl, 3, false, flowC 0x42 5 1 true 0, _, by decide +kernel, by decide +kernel, by decide +kernel, rfl⟩,
⟨inState 6, 3, ⟨true, .good⟩, by decide +kernel⟩⟩

open Tables in
/-- Clause by clause, something meets the hypotheses of Obligations.LookupsSchedulesAndCompare. -/
theorem test_witness_LookupsSchedulesAndCompare_2 :
(∃ (s u v : State) (n : Region) (p : Pipe) (f g : Frame) (chk tab : ReadCheck) (table : Fin 4) (ix : BitVec 20), mapCanon {} s.pipes = true ∧
      s.running = true ∧ s.regionOn n = true ∧ u = s.countWaits n p ∧ (u.pipe n p).tbl.find? (fun f => u.lookupReady n f.key.stroke) = some f ∧ tab
      = (if table = 3 then .good else chk) ∧ v = (u.setPipe n p
      { u.pipe n p with tbl := (u.pipe n p).tbl.filter (fun g => g.key != f.key) }).tblParity n table ix.toNat tab ∧ g =
      { f with dec := if actFwd f.act = 0 then (if hvValid f.hv (v.rf (TBL_LKP_SEL0.L2_HDR n)) then v.decide6 f else { dest := .drop, noL2 := true }) else {} }
      ∧ isFailed tab = false ∧ actFlowEn f.act = true) ∧
(∃ (s : State) (n : Region) (p : Pipe) (chk : ReadCheck) (table : Fin 4) (ix : BitVec 20), s.running = true ∧ s.regionOn n = true ∧ ((s.countWaits n
      p).pipe n p).tbl.find? (fun f => (s.countWaits n p).lookupReady n f.key.stroke) = none) ∧
(∃ (s : State) (n : Region) (p : Pipe) (chk : ReadCheck) (table : Fin 4) (ix : BitVec 20), (s.running = false ∨ s.regionOn n = false ∨ (s.pipe n
      p).tbl = [])) ∧
(∃ (s : State) (n : Region) (err : Bool), (s.alive = false ∨ s.rf (PWR_STATUS.LEVEL n) = 0 ∨ (s.tbl n).sched = [] ∨ ∃ c, firstCmd (s.tbl n).sched =
      some c ∧ s.tableDue n c = false)) ∧
(∃ (s : State) (n : Region) (err : Bool), (s.alive = false ∨ s.rf (PWR_STATUS.LEVEL n) = 0 ∨ s.flowDue n = [])) ∧
(∃ (s : State) (n : Region) (r : CmpRead), s.regsCanon = true ∧ s.alive = true ∧ s.rf (PWR_STATUS.LEVEL n) ≠ 0 ∧ s.rb (TBL_CMP_CFG.EN n) = false) ∧
(∃ (s : State) (n : Region) (r : CmpRead), s.regsCanon = true ∧ s.alive = true ∧ s.rf (PWR_STATUS.LEVEL n) ≠ 0 ∧ s.rb (TBL_CMP_CFG.EN n) = true ∧
      r.dma = false) ∧
(∃ (s : State) (n : Region), s.regsCanon = true ∧ mapCanon {} s.tbls = true ∧ s.alive = true ∧ s.rf (PWR_STATUS.LEVEL n) ≠ 0 ∧ s.rb (TBL_CMP_CFG.EN
      n) = true ∧ s.cmpOn n (s.tbl n).cmpAt.1 = true ∧ (s.tbl n).cmpAt.2 + 1 < cmpSize (s.tbl n).cmpAt.1) :=
⟨⟨pt, _, _, 3, 1, fr 1, _, .good, _, 0, 0, by decide +kernel, by decide +kernel, by decide +kernel, rfl, by decide +kernel, rfl, rfl, rfl,
      by decide +kernel⟩,
⟨run, 3, 1, .good, 0, 0, by decide +kernel⟩,
⟨run, 3, 1, .good, 0, 0, by decide +kernel⟩,
⟨run, 3, false, by decide +kernel⟩,
⟨run, 3, false, by decide +kernel⟩,
⟨run, 3, ⟨true, .good⟩, by decide +kernel⟩,
⟨cw, 3, ⟨false, .good⟩, by decide +kernel⟩,
⟨{cw with vlans := [(3*2^12+9, 7),(3*2^12+4, 7)]}, 3, by decide +kernel⟩⟩

open Tables in
/-- Clause by clause, something meets the hypotheses of Obligations.LookupsSchedulesAndCompare. -/
theorem test_witness_LookupsSchedulesAndCompare_3 :
(∃ (s : State) (n : Region) (c : CmpX) (rest : List CmpX), s.regsCanon = true ∧ mapCanon {} s.tbls = true ∧ s.alive = true ∧ s.rf (PWR_STATUS.LEVEL
      n) ≠ 0 ∧ (s.tbl n).cmpDiff = c :: rest ∧ s.cmpDiffers n c.table c.unit = true ∧ c.written = false) ∧
(∃ (s : State) (n : Region) (c : CmpX) (rest : List CmpX), mapCanon {} s.tbls = true ∧ s.alive = true ∧ s.rf (PWR_STATUS.LEVEL n) ≠ 0 ∧ (s.tbl
      n).cmpDiff = c :: rest ∧ (s.cmpDiffers n c.table c.unit = false ∨ c.written = true)) ∧
(∃ (s : State) (n : Region) (c : CmpX) (rest : List CmpX) (chk : ReadCheck), s.regsCanon = true ∧ s.alive = true ∧ s.rf (PWR_STATUS.LEVEL n) ≠ 0 ∧
      (s.tbl n).cmpDiff = c :: rest) :=
⟨⟨{cw with vlans := [(3*2^12+4, 7)]}, 3, ⟨2,4,false⟩, [], by decide +kernel⟩,
⟨cw, 3, ⟨2,4,false⟩, [], by decide +kernel⟩,
⟨cw.wf (PWR_STATUS.LEVEL 3) 8, 3, ⟨2,4,false⟩, [], .good, by decide +kernel⟩⟩

open TablesMore in
/-- Clause by clause, something meets the hypotheses of Obligations.LookupsSchedulesAndCompare. -/
theorem test_witness_LookupsSchedulesAndCompare_4 :
∃ (s u : State) (n : Region) (err : Bool) (c : CmdX), s.alive = true ∧ s.rf (PWR_STATUS.LEVEL n) ≠ 0 ∧ firstCmd (s.tbl n).sched = some c ∧
      s.tableDue n c = true ∧ u = s.applyHits n (fun k => strokeLt k.stroke c.stroke) :=
⟨sqq, _, 3, false, c 0x10 4 2 7 true 0, by decide +kernel, by decide +kernel, by decide +kernel, by decide +kernel, rfl⟩

open Rest in
/-- Clause by clause, something meets the hypotheses of Obligations.LookupsSchedulesAndCompare. -/
theorem test_witness_LookupsSchedulesAndCompare_5 :
∃ (s : State) (n : Region) (chk : ReadCheck), s.regsCanon = true ∧ mapCanon {} s.tbls = true ∧ s.alive = true ∧ s.rf (PWR_STATUS.LEVEL n) ≠ 0 ∧ s.rb
      (TBL_CMP_CFG.EN n) = true ∧ (∀ k < 3, s.cmpOn n k = false) ∧ (s.tbl n).cmpAt.1 < 3 :=
⟨run.setReg (TBL_CMP_CFG.EN 3).w 1, 3, .good, by decide +kernel⟩

open Tables in
/-- Clause by clause, something meets the hypotheses of Obligations.LearningAndAgeing. -/
theorem test_witness_LearningAndAgeing :
(∃ (s : State) (n : Region) (q : LearnReq) (i : Nat), mapCanon {} s.tbls = true ∧ mapCanon 0 s.eps = true ∧ s.running = true ∧ s.regionOn n = true ∧
      s.pairChanges q.key.stroke = true ∧ leastLearn (s.tbl n).learns = some q ∧ s.wmPassed n q.key.stroke = true ∧ s.sweptTo n q.key.stroke = true
      ∧ s.schedBefore n q.key.stroke = false ∧ s.removalBefore n q.key.stroke = false ∧ s.hitsHeld n q.key.stroke = false ∧ (s.tbl n).hits = [] ∧
      (s.tbl n).limitN = 0 ∧ s.findIn n (s.ep n) (.mac q.vid q.mac) = some i ∧ epPort (s.ep n i) = q.key.port) ∧
(∃ (s : State) (n : Region) (q : LearnReq) (i : Nat), s.regsCanon = true ∧ s.running = true ∧ s.regionOn n = true ∧ s.pairChanges q.key.stroke =
      true ∧ leastLearn (s.tbl n).learns = some q ∧ s.wmPassed n q.key.stroke = true ∧ s.sweptTo n q.key.stroke = true ∧ s.schedBefore n
      q.key.stroke = false ∧ s.removalBefore n q.key.stroke = false ∧ mapCanon {} s.tbls = true ∧ s.hitsHeld n q.key.stroke = false ∧ (s.tbl n).hits
      = [] ∧ (s.tbl n).limitN = 0 ∧ s.findIn n (s.ep n) (.mac q.vid q.mac) = some i ∧ epPort (s.ep n i) ≠ q.key.port ∧ (epStatic (s.ep n i) = true ∨
      epLock (s.ep n i) = true)) ∧
(∃ (s : State) (n : Region) (q : LearnReq) (i : Nat), mapCanon {} s.tbls = true ∧ mapCanon 0 s.eps = true ∧ s.running = true ∧ s.regionOn n = true ∧
      s.pairChanges q.key.stroke = true ∧ leastLearn (s.tbl n).learns = some q ∧ s.wmPassed n q.key.stroke = true ∧ s.sweptTo n q.key.stroke = true
      ∧ s.schedBefore n q.key.stroke = false ∧ s.removalBefore n q.key.stroke = false ∧ s.hitsHeld n q.key.stroke = false ∧ (s.tbl n).hits = [] ∧
      (s.tbl n).limitN = 0 ∧ s.findIn n (s.ep n) (.mac q.vid q.mac) = none ∧ q.mac < 2 ^ 48 ∧ q.vid < 2 ^ 12 ∧ q.key.port < 2 ^ 10 ∧ s.place n (.mac
      q.vid q.mac) q.key.stroke (s.rb (TBL_CFG.LEARN_EVICT n)) = some (i, []) ∧ i < 2 ^ 20 ∧ (if (s.tbl n).learnAt = q.key.stroke then (s.tbl
      n).learnN else 0) + 1 ≤ s.learnMax n) ∧
(∃ (s : State) (n : Region) (q : LearnReq), mapCanon {} s.tbls = true ∧ s.running = true ∧ s.regionOn n = true ∧ s.pairChanges q.key.stroke = false
      ∧ leastLearn (s.tbl n).learns = some q ∧ s.wmPassed n q.key.stroke = true ∧ s.sweptTo n q.key.stroke = true ∧ s.schedBefore n q.key.stroke =
      false ∧ s.removalBefore n q.key.stroke = false ∧ s.hitsHeld n q.key.stroke = false ∧ (s.tbl n).hits = [] ∧ (s.tbl n).limitN = 0) :=
⟨⟨{lr with eps := [(3*2^20+ix, lent 5 0)]}, 3, lq, ix, by decide +kernel⟩,
⟨{lr with eps := [(3*2^20+ix, lent 6 (2^84))]}, 3, lq, ix, by decide +kernel⟩,
⟨lr, 3, lq, ix, by decide +kernel⟩,
⟨lr.wf PAIR_STATUS.STATE 2, 3, lq, by decide +kernel⟩⟩

open Rest in
/-- Clause by clause, something meets the hypotheses of Obligations.LearningAndAgeing. -/
theorem test_witness_LearningAndAgeing_2 :
(∃ (s : State) (n : Region) (b : Nat), s.regsCanon = true ∧ mapCanon {} s.tbls = true ∧ mapCanon 0 s.eps = true ∧ s.running = true ∧ s.regionOn n =
      true ∧ s.pairChanges b = true ∧ s.boundary n = some b ∧ strokeLe b s.strokeNow = true ∧ s.inSpan b = false ∧ s.wmPassed n ((b + (2 ^ 48 - 1))
      % 2 ^ 48) = true ∧ (s.tbl n).removal = none ∧ (s.tbl n).learns = [] ∧ (s.tbl n).sched = [] ∧ s.hitsHeld n ((b + (2 ^ 48 - 1)) % 2 ^ 48) =
      false ∧ (s.tbl n).hits = []) ∧
(∃ (s : State) (r : SweepReads) (b : Nat), s.running = true ∧ s.regionOn r.region = true ∧ s.boundary r.region = some b ∧ s.sweepReady r.region b =
      true) ∧
(∃ (s : State) (r : SweepReads), (s.running = false ∨ s.regionOn r.region = false ∨ s.boundary r.region = none ∨ ∃ b, s.boundary r.region = some b ∧
      s.sweepReady r.region b = false)) ∧
(∃ (s : State) (n : Region) (b : Nat), s.pairChanges b = false) ∧
(∃ (s : State) (n : Region), (s.running = false ∨ s.regionOn n = false)) ∧
(∃ (s : State) (n : Region) (b : Nat), mapCanon {} s.tbls = true ∧ mapCanon 0 s.eps = true ∧ s.regsCanon = true ∧ s.running = true ∧ s.regionOn n =
      true ∧ s.pairChanges b = true ∧ (s.tbl n).removal = some b ∧ s.hitsHeld n ((b + s.verdictLag + (2 ^ 48 - 1)) % 2 ^ 48) = false ∧ (s.tbl
      n).hits = [] ∧ s.wmPassed n ((b + s.verdictLag + (2 ^ 48 - 1)) % 2 ^ 48) = true ∧ (s.tbl n).sched = [] ∧ (s.tbl n).learns = []) :=
⟨⟨sweepS, 3, 0, by decide +kernel⟩,
⟨sweepS, { region := 3 }, 0, by decide +kernel⟩,
⟨inState 6, { region := 3 }, by decide +kernel⟩,
⟨sweepS.wf PAIR_STATUS.STATE 2, 3, 100, by decide +kernel⟩,
⟨inState 6, 3, by decide +kernel⟩,
⟨(run.setTbl 3 { removal := some 5 }).wf (SP_WM.STROKE 3) 10000, 3, 5, by decide +kernel⟩⟩

open More Rest in
/-- Clause by clause, something meets the hypotheses of Obligations.LearningAndAgeing. -/
theorem test_witness_LearningAndAgeing_3 :
(∃ (s : State) (n : Nat) (h : HitReq), mapCanon {} s.tbls = true ∧ mapCanon 0 s.eps = true ∧ h.slot < 2 ^ 20 ∧ ages (s.ep n) h.slot = true ∧
      (slotKey (s.ep n) h.slot).bytes = h.who) ∧
(∃ (s : State) (n : Nat) (h : HitReq), ∃ j, mapCanon {} s.tbls = true ∧ mapCanon 0 s.eps = true ∧ h.slot < 2 ^ 20 ∧ ages (s.ep n) h.slot = true ∧
      (slotKey (s.ep n) h.slot).bytes = h.who ∧ j < 2 ^ 20 ∧ j ≠ h.slot) ∧
(∃ (s : State) (n : Nat) (h : HitReq), mapCanon {} s.tbls = true ∧ mapCanon 0 s.eps = true ∧ h.slot < 2 ^ 20 ∧ (slotKey (s.ep n) h.slot).bytes ≠
      h.who) :=
⟨⟨slotIn mac5, 3, ⟨⟨5, 0, 0⟩, 7, (EpKey.mac 3 77).bytes⟩, by decide +kernel⟩,
⟨slotIn mac5, 3, ⟨⟨5, 0, 0⟩, 7, (EpKey.mac 3 77).bytes⟩, 8, by decide +kernel⟩,
⟨slotIn mac5, 3, ⟨⟨5, 0, 0⟩, 7, []⟩, by decide +kernel⟩⟩

open Records in
/-- Clause by clause, something meets the hypotheses of Obligations.FlowLookups. -/
theorem test_witness_FlowLookups :
(∃ (s : State) (n : Region) (p : Pipe) (f : Frame) (rest : List Frame) (chk : ReadCheck), s.running = true ∧ s.regionOn n = true ∧ (s.pipe n p).flow
      = f :: rest ∧ s.rb (FE_PART_CFG.VALID n (actPart f.act)) = false) ∧
(∃ (s : State) (n : Region) (p : Pipe) (chk : ReadCheck), (s.running = false ∨ s.regionOn n = false ∨ (s.pipe n p).flow = [])) :=
⟨⟨pt, 3, 1, fr 1, [fr 2], .good, by decide +kernel⟩,
⟨run, 3, 1, .good, by decide +kernel⟩⟩

open More Rest in
/-- Clause by clause, something meets the hypotheses of Obligations.FlowLookups. -/
theorem test_witness_FlowLookups_2 :
(∃ (s : State) (n : Region) (p : Pipe) (f : Frame) (rest : List Frame) (chk : ReadCheck) (k : List Byte) (dir e : Nat), s.regsCanon = true ∧
      mapCanon {} s.pipes = true ∧ mapCanon {} s.engs = true ∧ s.running = true ∧ s.regionOn n = true ∧ (s.pipe n p).flow = f :: rest ∧ s.rb
      (FE_PART_CFG.VALID n (actPart f.act)) = true ∧ normalise (s.rb (FE_PART_CFG.NORM n (actPart f.act))) f.fkey = (k, dir) ∧ s.homeOf n (actPart
      f.act) k = e ∧ e < 8 ∧ s.regionRuns e = true ∧ (s.eng e).lookups.length < 65536 ∧ (∀ h1 b j, s.findRec e (actPart f.act) k = some (h1, b, j) →
      b * 4 + j ∉ (s.eng e).cached) ∧ s.rb (FE_STATUS.BYPASS e) = false) ∧
(∃ (s : State) (n : Region) (p : Pipe) (f : Frame) (rest : List Frame) (k : List Byte) (dir e b j : Nat) (h1 : Bool), s.regsCanon = true ∧ mapCanon
      {} s.pipes = true ∧ mapCanon {} s.engs = true ∧ s.running = true ∧ s.regionOn n = true ∧ (s.pipe n p).flow = f :: rest ∧ s.rb
      (FE_PART_CFG.VALID n (actPart f.act)) = true ∧ normalise (s.rb (FE_PART_CFG.NORM n (actPart f.act))) f.fkey = (k, dir) ∧ s.homeOf n (actPart
      f.act) k = e ∧ e < 8 ∧ s.regionRuns e = true ∧ (s.eng e).lookups.length < 65536 ∧ s.findRec e (actPart f.act) k = some (h1, b, j) ∧ b * 4 + j
      ∈ (s.eng e).cached ∧ s.badRefs e b j = false) ∧
(∃ (s u : State) (n : Region) (p : Pipe) (f : Frame) (rest : List Frame) (chk : ReadCheck) (k : List Byte) (dir e : Nat), s.running = true ∧
      s.regionOn n = true ∧ (s.pipe n p).flow = f :: rest ∧ s.rb (FE_PART_CFG.VALID n (actPart f.act)) = true ∧ normalise (s.rb (FE_PART_CFG.NORM n
      (actPart f.act))) f.fkey = (k, dir) ∧ s.homeOf n (actPart f.act) k = e ∧ u = (s.setPipe n p { s.pipe n p with flow := rest }).ev (64 + 2 * n +
      p) 0x16 none 1 f.key.stroke f.key.num ∧ s.regionRuns e = false) :=
⟨⟨Records.pv, 3, 1, Records.fr 1, [Records.fr 2], .good, Records.nk.1, Records.nk.2, 3, by decide +kernel, by decide +kernel, by decide +kernel,
      by decide +kernel, by decide +kernel, by decide +kernel, by decide +kernel, by decide +kernel, by decide +kernel, by decide +kernel,
      by decide +kernel, by decide +kernel, none_some3 (by decide +kernel), by decide +kernel⟩,
⟨pvc 14655902, 3, 1, Records.fr 1, [Records.fr 2], Records.nk.1, Records.nk.2, 3, 14655902, 0, false, by decide +kernel⟩,
⟨glob, _, 3, 1, Records.fr 1, [Records.fr 2], .good, Records.nk.1, Records.nk.2, 7, by decide +kernel, by decide +kernel, by decide +kernel,
      by decide +kernel, by decide +kernel, by decide +kernel, rfl, by decide +kernel⟩⟩

open More Rest in
/-- Clause by clause, something meets the hypotheses of Obligations.FlowLookups. -/
theorem test_witness_FlowLookups_3 :
(∃ (s u : State) (n : Region) (p : Pipe) (f : Frame) (rest : List Frame) (chk : ReadCheck) (k : List Byte) (dir e : Nat), s.running = true ∧
      s.regionOn n = true ∧ (s.pipe n p).flow = f :: rest ∧ s.rb (FE_PART_CFG.VALID n (actPart f.act)) = true ∧ normalise (s.rb (FE_PART_CFG.NORM n
      (actPart f.act))) f.fkey = (k, dir) ∧ s.homeOf n (actPart f.act) k = e ∧ u = (s.setPipe n p { s.pipe n p with flow := rest }).ev (64 + 2 * n +
      p) 0x16 none 1 f.key.stroke f.key.num ∧ s.regionRuns e = true ∧ (s.eng e).lookups.length < 65536 ∧ (∀ h1 b j, s.findRec e (actPart f.act) k =
      some (h1, b, j) → b * 4 + j ∉ (s.eng e).cached) ∧ s.rb (FE_STATUS.BYPASS e) = true) ∧
(∃ (s u : State) (n : Region) (p : Pipe) (f : Frame) (rest : List Frame) (chk : ReadCheck) (k : List Byte) (dir e : Nat), s.running = true ∧
      s.regionOn n = true ∧ (s.pipe n p).flow = f :: rest ∧ s.rb (FE_PART_CFG.VALID n (actPart f.act)) = true ∧ normalise (s.rb (FE_PART_CFG.NORM n
      (actPart f.act))) f.fkey = (k, dir) ∧ s.homeOf n (actPart f.act) k = e ∧ u = (s.setPipe n p { s.pipe n p with flow := rest }).ev (64 + 2 * n +
      p) 0x16 none 1 f.key.stroke f.key.num ∧ s.regionRuns e = true ∧ 65536 ≤ (s.eng e).lookups.length) ∧
(∃ (s v w u : State) (e : Region) (i : BitVec 16) (rd : BucketRead) (dict : ReadCheck) (second : Bool) (l : Lookup), s.running = true ∧ s.regionOn e
      = true ∧ s.hbmBusy (e / 2) = false ∧ ((s.eng e).lookups.filter (fun l => !l.ready))[i.toNat]? = some l ∧ v = s.ev (104 + e) 0x12 none 1
      l.frame.key.stroke l.frame.key.num ∧ (v.readSlot e l.part l.key rd.slot = none → w = v) ∧ (∀ b j, v.readSlot e l.part l.key rd.slot = some (b,
      j) → w = (v.recParity e b j false rd.chk).dictParity e b j second dict) ∧ u = w.readKey e l.part l.key ∧ u.findRec e l.part l.key = none) :=
⟨⟨Records.pv.wf (FE_STATUS.BYPASS 3) 1, _, 3, 1, Records.fr 1, [Records.fr 2], .good, Records.nk.1, Records.nk.2, 3, by decide +kernel,
      by decide +kernel, by decide +kernel, by decide +kernel, by decide +kernel, by decide +kernel, rfl, by decide +kernel, by decide +kernel,
      none_some3 (by decide +kernel), by decide +kernel⟩,
⟨Records.pv.setLookups 3 (List.replicate 65536 (Records.lk 1)), _, 3, 1, Records.fr 1, [Records.fr 2], .good, Records.nk.1, Records.nk.2, 3,
      by decide +kernel, by decide +kernel, by decide +kernel, by decide +kernel, by decide +kernel, by decide +kernel, rfl, by decide +kernel⟩,
⟨Records.le, _, flV Records.le (Records.lk 1), _, 3, 0, ⟨.good, 4⟩, .good, false, Records.lk 1, by decide +kernel, by decide +kernel,
      by decide +kernel, by decide +kernel, rfl, fun _ => rfl, none_some2 (by decide +kernel), rfl, by decide +kernel⟩⟩

open More Rest in
/-- Clause by clause, something meets the hypotheses of Obligations.FlowLookups. -/
theorem test_witness_FlowLookups_4 :
(∃ (s v w u : State) (e : Region) (i : BitVec 16) (rd : BucketRead) (dict : ReadCheck) (second : Bool) (l : Lookup), ∃ h1 b j, s.running = true ∧
      s.regionOn e = true ∧ s.hbmBusy (e / 2) = false ∧ ((s.eng e).lookups.filter (fun l => !l.ready))[i.toNat]? = some l ∧ v = s.ev (104 + e) 0x12
      none 1 l.frame.key.stroke l.frame.key.num ∧ (v.readSlot e l.part l.key rd.slot = none → w = v) ∧ (∀ b j, v.readSlot e l.part l.key rd.slot =
      some (b, j) → w = (v.recParity e b j false rd.chk).dictParity e b j second dict) ∧ u = w.readKey e l.part l.key ∧ u.findRec e l.part l.key =
      some (h1, b, j) ∧ (u.cacheUse e b j false).2 = true) ∧
(∃ (s v w u : State) (e : Region) (i : BitVec 16) (rd : BucketRead) (dict : ReadCheck) (second : Bool) (l : Lookup), ∃ h1 b j, s.running = true ∧
      s.regionOn e = true ∧ s.hbmBusy (e / 2) = false ∧ ((s.eng e).lookups.filter (fun l => !l.ready))[i.toNat]? = some l ∧ v = s.ev (104 + e) 0x12
      none 1 l.frame.key.stroke l.frame.key.num ∧ (v.readSlot e l.part l.key rd.slot = none → w = v) ∧ (∀ b j, v.readSlot e l.part l.key rd.slot =
      some (b, j) → w = (v.recParity e b j false rd.chk).dictParity e b j second dict) ∧ u = w.readKey e l.part l.key ∧ u.findRec e l.part l.key =
      some (h1, b, j) ∧ (u.cacheUse e b j false).2 = false) ∧
(∃ (s : State) (e : Nat) (k : FKey) (f : Lookup → Lookup), mapCanon {} s.engs = true) :=
⟨⟨putR leR 3 rec1, _, flV (putR leR 3 rec1) (lkR 1), _, 3, 0, ⟨.good, 4⟩, .good, false, lkR 1, false, 3268530, 0, by decide +kernel,
      by decide +kernel, by decide +kernel, by decide +kernel, rfl, fun _ => rfl, none_some2 (by decide +kernel), rfl, by decide +kernel⟩,
⟨pinS, _, flV pinS (lkR 2), _, 3, 1, ⟨.good, 4⟩, .good, false, lkR 2, false, 3268530, 0, by decide +kernel, by decide +kernel, by decide +kernel,
      by decide +kernel, rfl, fun _ => rfl, none_some2 (by decide +kernel), rfl, by decide +kernel⟩,
⟨Records.le, 3, ⟨5, 1, 0⟩, fun l => l, by decide +kernel⟩⟩

open More Rest in
/-- Clause by clause, something meets the hypotheses of Obligations.FlowLookups. -/
theorem test_witness_FlowLookups_5 :
∃ (s : State) (e : Region) (i : BitVec 16) (rd : BucketRead) (dict : ReadCheck) (second : Bool), (s.running = false ∨ s.regionOn e = false ∨
      s.hbmBusy (e / 2) = true ∨ ((s.eng e).lookups.filter (fun l => !l.ready))[i.toNat]? = none) :=
⟨run.wf (HBM_FREQ_CTRL.BUSY 1) 1, 3, 0, {}, .good, false, by decide +kernel⟩

open More Rest in
/-- Clause by clause, something meets the hypotheses of Obligations.VerdictAndCommitPasses. -/
theorem test_witness_VerdictAndCommitPasses :
(∃ (s u : State) (e : Region) (l : Lookup), s.running = true ∧ s.regionOn e = true ∧ (s.eng e).lookups.find? (fun l => l.ready && !l.released &&
      !l.held && !l.inPass && s.updatesDone e l (s.viewStroke l)) = some l ∧ u = s.readRec e l.part l.key ∧ u.bound e l.frame = false) ∧
(∃ (s u : State) (e : Region) (l : Lookup), ∃ c st, s.running = true ∧ s.regionOn e = true ∧ (s.eng e).lookups.find? (fun l => l.ready &&
      !l.released && !l.held && !l.inPass && s.updatesDone e l (s.viewStroke l)) = some l ∧ u = s.readRec e l.part l.key ∧ u.bound e l.frame = true
      ∧ u.viewAt e l.part l.key (u.viewStroke l) = some (c, st)) ∧
(∃ (s u : State) (e : Region) (l : Lookup), s.running = true ∧ s.regionOn e = true ∧ (s.eng e).lookups.find? (fun l => l.ready && !l.released &&
      !l.held && !l.inPass && s.updatesDone e l (s.viewStroke l)) = some l ∧ u = s.readRec e l.part l.key ∧ u.bound e l.frame = true ∧ u.viewAt e
      l.part l.key (u.viewStroke l) = none) :=
⟨⟨lookS 0, _, 3, look 1, by decide +kernel, by decide +kernel, by decide +kernel, rfl, by decide +kernel⟩,
⟨lookS 1 [⟨1, pay 40, 100, some (256, 7)⟩], _, 3, look 1, 256, 7, by decide +kernel, by decide +kernel, by decide +kernel, rfl, by decide +kernel⟩,
⟨lookS 1, _, 3, look 1, by decide +kernel, by decide +kernel, by decide +kernel, rfl, by decide +kernel⟩⟩

open Rest in
/-- Clause by clause, something meets the hypotheses of Obligations.VerdictAndCommitPasses. -/
theorem test_witness_VerdictAndCommitPasses_2 :
(∃ (s : State) (e : Region), (s.running = false ∨ s.regionOn e = false ∨ (s.eng e).lookups = [])) ∧
(∃ (s : State) (e : Region) (l : Lookup), s.running = true ∧ s.regionOn e = true ∧ leastLookup ((s.eng e).lookups.filter (s.commitDue e)) = some l) :=
⟨⟨run, 3, by decide +kernel⟩,
⟨heldS, 3, { look 1 with held := true }, by decide +kernel⟩⟩

open Records in
/-- Clause by clause, something meets the hypotheses of Obligations.VerdictAndCommitPasses. -/
theorem test_witness_VerdictAndCommitPasses_3 :
∃ (s : State) (e : Nat) (l : Lookup) (v : Bool), mapCanon {} s.engs = true :=
⟨le, 3, lk 2, true, by decide +kernel⟩

open More Rest in
/-- Clause by clause, something meets the hypotheses of Obligations.WatermarksStandpipeAndBypass. -/
theorem test_witness_WatermarksStandpipeAndBypass :
∃ (s : State) (n : Region), s.regsCanon = true ∧ s.running = true ∧ s.pairx.peerDigs = [] ∧ strokeLt (s.wm n) (strokeMin (s.wmLimit n)
      (s.pipeStrokes n)) = true ∧ strokeMin (s.wmLimit n) (s.pipeStrokes n) < 2 ^ 48 :=
⟨wmT, 3, by decide +kernel⟩

open Records in
/-- Clause by clause, something meets the hypotheses of Obligations.WatermarksStandpipeAndBypass. -/
theorem test_witness_WatermarksStandpipeAndBypass_2 :
(∃ (s : State) (n : Region), (s.running = false ∨ (s.pairx.peerDigs = [] ∧ strokeLt (s.wm n) (strokeMin (s.wmLimit n) (s.pipeStrokes n)) = false))) ∧
(∃ (s : State) (n : Region), s.running = true) ∧
(∃ s : State, s.running = false) ∧
(∃ (s : State) (n : Nat) (l : List Nat) (w : Nat), s.regsCanon = true ∧ s.running = true ∧ (List.range 8).filter (fun n => !bit (s.rf
      SP_STATUS.QUARANTINED) n) = n :: l ∧ strokeMin (s.wm n) (l.map s.wm) = w ∧ strokeLt (s.rf SP_RELEASED.STROKE) ((w + (2 ^ 48 - 1)) % 2 ^ 48) =
      true) ∧
(∃ (s : State) (n : Region), s.running = true ∧ s.regionRuns n = true ∧ s.lateWm n = true) ∧
(∃ (s : State) (n : Region), (s.running = false ∨ s.regionRuns n = false ∨ s.lateWm n = false)) ∧
(∃ (s : State) (e : Region), s.regsCanon = true ∧ s.running = true ∧ s.regionOn e = true ∧ s.rb (FE_STATUS.BYPASS e) = false ∧ (57344 < (s.eng
      e).lookups.length ∨ ((s.eng e).lookups ≠ [] ∧ s.rf (FE_CFG.BYPASS_US e) * 1000 ≤ s.oldest e))) ∧
(∃ (s : State) (e : Region), s.regsCanon = true ∧ s.running = true ∧ s.regionOn e = true ∧ s.rb (FE_STATUS.BYPASS e) = true ∧ (s.eng
      e).lookups.length < 16384 ∧ s.oldest e < s.rf (FE_CFG.BYPASS_US e) * 500) :=
⟨⟨run, 3, by decide +kernel⟩,
⟨le.wf (FE_STATUS.BYPASS 3) 1, 3, by decide +kernel⟩,
⟨inState 6, by decide +kernel⟩,
⟨wm9, 0, [1,2,3,4,5,6,7], 9, by decide +kernel⟩,
⟨late, 3, by decide +kernel⟩,
⟨run, 3, by decide +kernel⟩,
⟨by1, 3, by decide +kernel⟩,
⟨le.wf (FE_STATUS.BYPASS 3) 1 |>.wf (FE_CFG.BYPASS_US 3) 5, 3, by decide +kernel⟩⟩

open Records in
/-- Clause by clause, something meets the hypotheses of Obligations.WatermarksStandpipeAndBypass. -/
theorem test_witness_WatermarksStandpipeAndBypass_3 :
(∃ (s : State) (e : Region), (s.running = false ∨ s.regionOn e = false)) ∧
(∃ (s : State) (e : Region), s.rb (FE_STATUS.BYPASS e) = true) ∧
(∃ (s : State) (e : Region), s.rb (FE_STATUS.BYPASS e) = false) :=
⟨⟨inState 6, 3, by decide +kernel⟩,
⟨le.wf (FE_STATUS.BYPASS 3) 1, 3, by decide +kernel⟩,
⟨le, 3, by decide +kernel⟩⟩

open More Rest in
/-- Clause by clause, something meets the hypotheses of Obligations.FlowSweepsAndSnapshots. -/
theorem test_witness_FlowSweepsAndSnapshots :
(∃ (s u v : State) (e : Region) (b : Nat) (done : Bool), s.running = true ∧ s.regionOn e = true ∧ s.flowBoundary e = some b ∧ s.flowSweepReady e b =
      true ∧ u = (s.snapFix e ((b + (2 ^ 48 - 1)) % 2 ^ 48) true []).readAll e ∧ u.ageOut e b ((u.records e).filter (fun q => u.agedOut e b q.2.2))
      = (v, done)) ∧
(∃ (s : State) (e b : Nat) (q : Nat × Nat × List Byte) (l : List (Nat × Nat × List Byte)), s.evtHeld 4 e < (s.ageRec e b true q).evtHeld 4 e ∧ 1024
      < (s.ageRec e b true q).evtHeld 4 e) ∧
(∃ (s : State) (e b : Nat) (q : Nat × Nat × List Byte) (l : List (Nat × Nat × List Byte)), ((s.ageRec e b true q).evtHeld 4 e ≤ s.evtHeld 4 e ∨
      (s.ageRec e b true q).evtHeld 4 e ≤ 1024) ∧ (s.ageRec e b true q).stageFull e = false) ∧
(∃ (s t : State) (e : Region), s.regsCanon = true ∧ s.evtHeld 4 e < t.evtHeld 4 e ∧ 1024 < t.evtHeld 4 e) :=
⟨⟨Records.sw, _, (sweepU.ageOut 3 44 ((sweepU.records 3).filter (fun q => sweepU.agedOut 3 44 q.2.2))).1, 3, 44, true, by decide +kernel,
      by decide +kernel, by decide +kernel, by decide +kernel, rfl, by decide +kernel⟩,
⟨agedS, 3, 44, (5154192, 0, recOf5), [], by decide +kernel⟩,
⟨putR run 3 recOf5, 3, 44, (5154192, 0, recOf5), [], by decide +kernel⟩,
⟨fullEv 1024, fullEv 1025, 3, by decide +kernel⟩⟩

open Records in
/-- Clause by clause, something meets the hypotheses of Obligations.FlowSweepsAndSnapshots. -/
theorem test_witness_FlowSweepsAndSnapshots_2 :
(∃ (s : State) (e : Region) (b : Nat), mapCanon {} s.engs = true ∧ s.running = true ∧ s.regionOn e = true ∧ s.flowBoundary e = some b ∧ s.inSpan b =
      false ∧ s.wmPassed e ((b + (2 ^ 48 - 1)) % 2 ^ 48) = true ∧ strokeLe ((b + (2 ^ 48 - 1)) % 2 ^ 48) (s.rf SP_RELEASED.STROKE) = true ∧ (s.eng
      e).lookups = [] ∧ (s.eng e).sched = [] ∧ (s.eng e).snap = none ∧ s.heldBuckets e = []) ∧
(∃ (s : State) (e : Region), (s.running = false ∨ s.regionOn e = false ∨ s.flowBoundary e = none ∨ ∃ b, s.flowBoundary e = some b ∧ s.flowSweepReady
      e b = false)) ∧
(∃ (s : State) (e : Region) (err : Bool) (c : SnapX), (s.eng e).snap = some c ∧ c.taken = false ∧ (s.atBoundary e c.stroke = false ∨ (s.eng
      e).sched.any (fun d => strokeLe d.stroke c.stroke) = true)) ∧
(∃ (s : State) (e : Region) (err : Bool), (s.alive = false ∨ s.rf (PWR_STATUS.LEVEL e) = 0 ∨ (s.eng e).snap = none)) ∧
(∃ (s : State) (e : Region) (c : SnapX), mapCanon {} s.engs = true ∧ s.alive = true ∧ s.rf (PWR_STATUS.LEVEL e) ≠ 0 ∧ (s.eng e).snap = some c ∧
      c.taken = true) ∧
(∃ (s u v : State) (e : Region) (a c : SnapX) (recs d : List Byte) (k : Nat), s.alive = true ∧ s.rf (PWR_STATUS.LEVEL e) ≠ 0 ∧ (s.eng e).snap = some
      a ∧ (a.taken = true ∨ (s.atBoundary e a.stroke = true ∧ (s.eng e).sched.any (fun d => strokeLe d.stroke a.stroke) = false)) ∧ u = s.snapFix e
      a.stroke true [] ∧ (u.eng e).snap = some c ∧ k = min c.image.length (c.len / 64 - 1) ∧ recs = (c.image.take k).flatMap (·.2) ∧ v = (u.setEng e
      { u.eng e with snap := none }).wf (FE_STATUS.SNAP_ACTIVE e) 0 ∧ d = recs ++ snapTrailer e c.mask c.stroke k recs) :=
⟨⟨sw, 3, 44, by decide +kernel⟩,
⟨run, 3, by decide +kernel⟩,
⟨run.setEng 3 { snap := some (sn false) }, 3, false, sn false, by decide +kernel⟩,
⟨run, 3, false, by decide +kernel⟩,
⟨sn1, 3, sn true, by decide +kernel⟩,
⟨sn1, _, _, 3, sn true, sn true, _, _, _, by decide +kernel, by decide +kernel, by decide +kernel, by decide +kernel, rfl, by decide +kernel, rfl,
      rfl, rfl, rfl⟩⟩

open Rest in
/-- Clause by clause, something meets the hypotheses of Obligations.FlowSweepsAndSnapshots. -/
theorem test_witness_FlowSweepsAndSnapshots_3 :
∃ (s : State) (c : CmdX), s.regsCanon = true ∧ mapCanon {} s.engs = true ∧ c.region < 8 ∧ s.flowDrains c = false :=
⟨run, cmdC 0x45 0 1, by decide +kernel⟩

open Records in
/-- Clause by clause, something meets the hypotheses of Obligations.FlowKeysAndCounts. -/
theorem test_witness_FlowKeysAndCounts :
(∃ k : List Byte, k.length = 40) ∧
(∃ k : List Byte, k.length = 40 ∧ endpointNum k false ≠ endpointNum k true) :=
⟨⟨pay 40, by decide +kernel⟩,
⟨pay 40, by decide +kernel⟩⟩

open Rest in
/-- Clause by clause, something meets the hypotheses of Obligations.FlowKeysAndCounts. -/
theorem test_witness_FlowKeysAndCounts_2 :
∃ emin n crc : Nat, 2 ^ (emin + 24) ≤ n ∧ n < 2 ^ 279 :=
⟨8, 2 ^ 32, 0, by decide +kernel⟩

open Rest in
/-- Clause by clause, something meets the hypotheses of Obligations.RecordForms. -/
theorem test_witness_RecordForms :
(∃ r : List Byte, r.length = 64 ∧ byteAt r 37 = 0 ∧ bit (recWord r 10) 11 = false ∧ fitsC4 r = true) ∧
(∃ (r : List Byte) (a b : Nat), r.length = 64 ∧ byteAt r 37 = 0 ∧ bit (recWord r 10) 11 = false ∧ fitsC6 r = true ∧ a < 4096 ∧ b < 4096) :=
⟨⟨List.replicate 64 0, by decide +kernel⟩,
⟨c6Rec, 0, 4095, by decide +kernel⟩⟩

open More Rest in
/-- Clause by clause, something meets the hypotheses of Obligations.PumpWords. -/
theorem test_witness_PumpWords :
(∃ (s : State) (e : Region) (p : Fin 32) (c : Oct) (x : BitVec 26) (k : PumpCtx) (D A B : Nat), D = bits x.toNat 21 5 ∧ A = bits x.toNat 16 5 ∧ B =
      bits x.toNat 11 5 ∧ bits x.toNat 0 11 = 0 ∧ s.issues e p c (word 0x01 x.toNat) k) ∧
(∃ (s : State) (e : Region) (p : Fin 32) (c : Oct) (x : BitVec 26) (k : PumpCtx) (D A B : Nat), D = bits x.toNat 21 5 ∧ A = bits x.toNat 16 5 ∧ B =
      bits x.toNat 11 5 ∧ bits x.toNat 0 11 = 0 ∧ s.issues e p c (word 0x02 x.toNat) k) ∧
(∃ (s : State) (e : Region) (p : Fin 32) (c : Oct) (x : BitVec 26) (k : PumpCtx) (D A B : Nat), D = bits x.toNat 21 5 ∧ A = bits x.toNat 16 5 ∧ B =
      bits x.toNat 11 5 ∧ bits x.toNat 0 11 = 0 ∧ s.issues e p c (word 0x03 x.toNat) k) ∧
(∃ (s : State) (e : Region) (p : Fin 32) (c : Oct) (x : BitVec 26) (k : PumpCtx) (D A B : Nat), D = bits x.toNat 21 5 ∧ A = bits x.toNat 16 5 ∧ B =
      bits x.toNat 11 5 ∧ bits x.toNat 0 11 = 0 ∧ s.issues e p c (word 0x04 x.toNat) k) ∧
(∃ (s : State) (e : Region) (p : Fin 32) (c : Oct) (x : BitVec 26) (k : PumpCtx) (D A B : Nat), D = bits x.toNat 21 5 ∧ A = bits x.toNat 16 5 ∧ B =
      bits x.toNat 11 5 ∧ bits x.toNat 0 11 = 0 ∧ s.issues e p c (word 0x05 x.toNat) k) ∧
(∃ (s : State) (e : Region) (p : Fin 32) (c : Oct) (x : BitVec 26) (k : PumpCtx) (D A B : Nat), D = bits x.toNat 21 5 ∧ A = bits x.toNat 16 5 ∧ B =
      bits x.toNat 11 5 ∧ bits x.toNat 0 11 = 0 ∧ s.issues e p c (word 0x06 x.toNat) k) ∧
(∃ (s : State) (e : Region) (p : Fin 32) (c : Oct) (x : BitVec 26) (k : PumpCtx) (D A B : Nat), D = bits x.toNat 21 5 ∧ A = bits x.toNat 16 5 ∧ B =
      bits x.toNat 11 5 ∧ bits x.toNat 0 11 = 0 ∧ s.issues e p c (word 0x07 x.toNat) k) ∧
(∃ (s : State) (e : Region) (p : Fin 32) (c : Oct) (x : BitVec 26) (k : PumpCtx) (D A B : Nat), D = bits x.toNat 21 5 ∧ A = bits x.toNat 16 5 ∧ B =
      bits x.toNat 11 5 ∧ bits x.toNat 0 11 = 0 ∧ s.issues e p c (word 0x08 x.toNat) k) :=
⟨⟨issuing (word 0x1 10893312), 3, 5, 2, 10893312, ctx, _, _, _, rfl, rfl, rfl, by decide +kernel, by unfold State.issues; decide +kernel⟩,
⟨issuing (word 0x2 10893312), 3, 5, 2, 10893312, ctx, _, _, _, rfl, rfl, rfl, by decide +kernel, by unfold State.issues; decide +kernel⟩,
⟨issuing (word 0x3 10893312), 3, 5, 2, 10893312, ctx, _, _, _, rfl, rfl, rfl, by decide +kernel, by unfold State.issues; decide +kernel⟩,
⟨issuing (word 0x4 10893312), 3, 5, 2, 10893312, ctx, _, _, _, rfl, rfl, rfl, by decide +kernel, by unfold State.issues; decide +kernel⟩,
⟨issuing (word 0x5 10893312), 3, 5, 2, 10893312, ctx, _, _, _, rfl, rfl, rfl, by decide +kernel, by unfold State.issues; decide +kernel⟩,
⟨issuing (word 0x6 10893312), 3, 5, 2, 10893312, ctx, _, _, _, rfl, rfl, rfl, by decide +kernel, by unfold State.issues; decide +kernel⟩,
⟨issuing (word 0x7 10893312), 3, 5, 2, 10893312, ctx, _, _, _, rfl, rfl, rfl, by decide +kernel, by unfold State.issues; decide +kernel⟩,
⟨issuing (word 0x8 10893312), 3, 5, 2, 10893312, ctx, _, _, _, rfl, rfl, rfl, by decide +kernel, by unfold State.issues; decide +kernel⟩⟩

open More Rest in
/-- Clause by clause, something meets the hypotheses of Obligations.PumpWords. -/
theorem test_witness_PumpWords_2 :
(∃ (s : State) (e : Region) (p : Fin 32) (c : Oct) (x : BitVec 26) (k : PumpCtx) (D A B : Nat), D = bits x.toNat 21 5 ∧ A = bits x.toNat 16 5 ∧ B =
      bits x.toNat 11 5 ∧ bits x.toNat 0 11 = 0 ∧ s.issues e p c (word 0x09 x.toNat) k) ∧
(∃ (s : State) (e : Region) (p : Fin 32) (c : Oct) (x : BitVec 26) (k : PumpCtx) (D A B : Nat), D = bits x.toNat 21 5 ∧ A = bits x.toNat 16 5 ∧ B =
      bits x.toNat 11 5 ∧ bits x.toNat 0 11 = 0 ∧ s.issues e p c (word 0x0A x.toNat) k) ∧
(∃ (s : State) (e : Region) (p : Fin 32) (c : Oct) (x : BitVec 26) (k : PumpCtx) (D A B : Nat), D = bits x.toNat 21 5 ∧ A = bits x.toNat 16 5 ∧ B =
      bits x.toNat 11 5 ∧ bits x.toNat 0 11 = 0 ∧ s.issues e p c (word 0x0B x.toNat) k) ∧
(∃ (s : State) (e : Region) (p : Fin 32) (c : Oct) (x : BitVec 26) (k : PumpCtx) (D A B : Nat), D = bits x.toNat 21 5 ∧ A = bits x.toNat 16 5 ∧ B =
      bits x.toNat 11 5 ∧ bits x.toNat 0 11 = 0 ∧ s.issues e p c (word 0x0C x.toNat) k) ∧
(∃ (s : State) (e : Region) (p : Fin 32) (c : Oct) (x : BitVec 26) (k : PumpCtx) (D A B : Nat), D = bits x.toNat 21 5 ∧ A = bits x.toNat 16 5 ∧ B =
      bits x.toNat 11 5 ∧ bits x.toNat 0 11 = 0 ∧ s.issues e p c (word 0x0D x.toNat) k ∧ B = 0) ∧
(∃ (s : State) (e : Region) (p : Fin 32) (c : Oct) (x : BitVec 26) (k : PumpCtx) (D A B : Nat), D = bits x.toNat 21 5 ∧ A = bits x.toNat 16 5 ∧ B =
      bits x.toNat 11 5 ∧ s.issues e p c (word 0x10 x.toNat) k) ∧
(∃ (s : State) (e : Region) (p : Fin 32) (c : Oct) (x : BitVec 26) (k : PumpCtx) (D A B : Nat), D = bits x.toNat 21 5 ∧ A = bits x.toNat 16 5 ∧ B =
      bits x.toNat 11 5 ∧ s.issues e p c (word 0x11 x.toNat) k) ∧
(∃ (s : State) (e : Region) (p : Fin 32) (c : Oct) (x : BitVec 26) (k : PumpCtx) (D A B : Nat), D = bits x.toNat 21 5 ∧ A = bits x.toNat 16 5 ∧ B =
      bits x.toNat 11 5 ∧ s.issues e p c (word 0x12 x.toNat) k) :=
⟨⟨issuing (word 0x9 10893312), 3, 5, 2, 10893312, ctx, _, _, _, rfl, rfl, rfl, by decide +kernel, by unfold State.issues; decide +kernel⟩,
⟨issuing (word 0xa 10893312), 3, 5, 2, 10893312, ctx, _, _, _, rfl, rfl, rfl, by decide +kernel, by unfold State.issues; decide +kernel⟩,
⟨issuing (word 0xb 10893312), 3, 5, 2, 10893312, ctx, _, _, _, rfl, rfl, rfl, by decide +kernel, by unfold State.issues; decide +kernel⟩,
⟨issuing (word 0xc 10893312), 3, 5, 2, 10893312, ctx, _, _, _, rfl, rfl, rfl, by decide +kernel, by unfold State.issues; decide +kernel⟩,
⟨issuing (word 0xd 10878976), 3, 5, 2, 10878976, ctx, _, _, _, rfl, rfl, rfl, by decide +kernel, by unfold State.issues; decide +kernel,
      by decide +kernel⟩,
⟨issuing (word 0x10 10912308), 3, 5, 2, 10912308, ctx, _, _, _, rfl, rfl, rfl, by unfold State.issues; decide +kernel⟩,
⟨issuing (word 0x11 10912308), 3, 5, 2, 10912308, ctx, _, _, _, rfl, rfl, rfl, by unfold State.issues; decide +kernel⟩,
⟨issuing (word 0x12 10912308), 3, 5, 2, 10912308, ctx, _, _, _, rfl, rfl, rfl, by unfold State.issues; decide +kernel⟩⟩

open More Rest in
/-- Clause by clause, something meets the hypotheses of Obligations.PumpWords. -/
theorem test_witness_PumpWords_3 :
(∃ (s : State) (e : Region) (p : Fin 32) (c : Oct) (x : BitVec 26) (k : PumpCtx) (D A B : Nat), D = bits x.toNat 21 5 ∧ A = bits x.toNat 16 5 ∧ B =
      bits x.toNat 11 5 ∧ s.issues e p c (word 0x13 x.toNat) k) ∧
(∃ (s : State) (e : Region) (p : Fin 32) (c : Oct) (x : BitVec 26) (k : PumpCtx) (D A B : Nat), D = bits x.toNat 21 5 ∧ A = bits x.toNat 16 5 ∧ B =
      bits x.toNat 11 5 ∧ s.issues e p c (word 0x19 x.toNat) k) ∧
(∃ (s : State) (e : Region) (p : Fin 32) (c : Oct) (x : BitVec 26) (k : PumpCtx) (D A B : Nat), D = bits x.toNat 21 5 ∧ A = bits x.toNat 16 5 ∧ B =
      bits x.toNat 11 5 ∧ s.issues e p c (word 0x14 x.toNat) k ∧ A = 0) ∧
(∃ (s : State) (e : Region) (p : Fin 32) (c : Oct) (x : BitVec 26) (k : PumpCtx) (D A B : Nat), D = bits x.toNat 21 5 ∧ A = bits x.toNat 16 5 ∧ B =
      bits x.toNat 11 5 ∧ s.issues e p c (word 0x1A x.toNat) k ∧ A = 0) ∧
(∃ (s : State) (e : Region) (p : Fin 32) (c : Oct) (x : BitVec 26) (k : PumpCtx) (D A B : Nat), D = bits x.toNat 21 5 ∧ A = bits x.toNat 16 5 ∧ B =
      bits x.toNat 11 5 ∧ s.issues e p c (word 0x15 x.toNat) k ∧ bits x.toNat 5 11 = 0) ∧
(∃ (s : State) (e : Region) (p : Fin 32) (c : Oct) (x : BitVec 26) (k : PumpCtx) (D A B : Nat), D = bits x.toNat 21 5 ∧ A = bits x.toNat 16 5 ∧ B =
      bits x.toNat 11 5 ∧ s.issues e p c (word 0x16 x.toNat) k ∧ bits x.toNat 5 11 = 0) ∧
(∃ (s : State) (e : Region) (p : Fin 32) (c : Oct) (x : BitVec 26) (k : PumpCtx) (D A B : Nat), D = bits x.toNat 21 5 ∧ A = bits x.toNat 16 5 ∧ B =
      bits x.toNat 11 5 ∧ s.issues e p c (word 0x17 x.toNat) k ∧ bits x.toNat 10 6 = 0) ∧
(∃ (s : State) (e : Region) (p : Fin 32) (c : Oct) (x : BitVec 26) (k : PumpCtx) (D A B : Nat), D = bits x.toNat 21 5 ∧ A = bits x.toNat 16 5 ∧ B =
      bits x.toNat 11 5 ∧ s.issues e p c (word 0x18 x.toNat) k) :=
⟨⟨issuing (word 0x13 10912308), 3, 5, 2, 10912308, ctx, _, _, _, rfl, rfl, rfl, by unfold State.issues; decide +kernel⟩,
⟨issuing (word 0x19 10912308), 3, 5, 2, 10912308, ctx, _, _, _, rfl, rfl, rfl, by unfold State.issues; decide +kernel⟩,
⟨issuing (word 0x14 10485767), 3, 5, 2, 10485767, ctx, _, _, _, rfl, rfl, rfl, by unfold State.issues; decide +kernel, by decide +kernel⟩,
⟨issuing (word 0x1a 10485767), 3, 5, 2, 10485767, ctx, _, _, _, rfl, rfl, rfl, by unfold State.issues; decide +kernel, by decide +kernel⟩,
⟨issuing (word 0x15 10879007), 3, 5, 2, 10879007, ctx, _, _, _, rfl, rfl, rfl, by unfold State.issues; decide +kernel, by decide +kernel⟩,
⟨issuing (word 0x16 10879007), 3, 5, 2, 10879007, ctx, _, _, _, rfl, rfl, rfl, by unfold State.issues; decide +kernel, by decide +kernel⟩,
⟨issuing (word 0x17 10879999), 3, 5, 2, 10879999, ctx, _, _, _, rfl, rfl, rfl, by unfold State.issues; decide +kernel, by decide +kernel⟩,
⟨issuing (word 0x18 10879999), 3, 5, 2, 10879999, ctx, _, _, _, rfl, rfl, rfl, by unfold State.issues; decide +kernel⟩⟩

open More Rest in
/-- Clause by clause, something meets the hypotheses of Obligations.PumpWords. -/
theorem test_witness_PumpWords_4 :
(∃ (s : State) (e : Region) (p : Fin 32) (c : Oct) (x : BitVec 26) (k : PumpCtx) (D A T : Nat), D = bits x.toNat 21 5 ∧ A = bits x.toNat 16 5 ∧ T =
      bits x.toNat 0 14 ∧ bits x.toNat 14 2 = 0 ∧ s.issues e p c (word 0x20 x.toNat) k) ∧
(∃ (s : State) (e : Region) (p : Fin 32) (c : Oct) (x : BitVec 26) (k : PumpCtx) (D A T : Nat), D = bits x.toNat 21 5 ∧ A = bits x.toNat 16 5 ∧ T =
      bits x.toNat 0 14 ∧ bits x.toNat 14 2 = 0 ∧ s.issues e p c (word 0x21 x.toNat) k) ∧
(∃ (s : State) (e : Region) (p : Fin 32) (c : Oct) (x : BitVec 26) (k : PumpCtx) (D A T : Nat), D = bits x.toNat 21 5 ∧ A = bits x.toNat 16 5 ∧ T =
      bits x.toNat 0 14 ∧ bits x.toNat 14 2 = 0 ∧ s.issues e p c (word 0x22 x.toNat) k) ∧
(∃ (s : State) (e : Region) (p : Fin 32) (c : Oct) (x : BitVec 26) (k : PumpCtx) (D A T : Nat), D = bits x.toNat 21 5 ∧ A = bits x.toNat 16 5 ∧ T =
      bits x.toNat 0 14 ∧ bits x.toNat 14 2 = 0 ∧ s.issues e p c (word 0x23 x.toNat) k) ∧
(∃ (s : State) (e : Region) (p : Fin 32) (c : Oct) (x : BitVec 26) (k : PumpCtx) (D A T : Nat), D = bits x.toNat 21 5 ∧ A = bits x.toNat 16 5 ∧ T =
      bits x.toNat 0 14 ∧ bits x.toNat 14 2 = 0 ∧ s.issues e p c (word 0x24 x.toNat) k) ∧
(∃ (s : State) (e : Region) (p : Fin 32) (c : Oct) (x : BitVec 26) (k : PumpCtx) (D A T : Nat), D = bits x.toNat 21 5 ∧ A = bits x.toNat 16 5 ∧ T =
      bits x.toNat 0 14 ∧ bits x.toNat 14 2 = 0 ∧ s.issues e p c (word 0x25 x.toNat) k) ∧
(∃ (s : State) (e : Region) (p : Fin 32) (c : Oct) (x : BitVec 26) (k : PumpCtx) (D A T : Nat), D = bits x.toNat 21 5 ∧ A = bits x.toNat 16 5 ∧ T =
      bits x.toNat 0 14 ∧ s.issues e p c (word 0x26 x.toNat) k ∧ bits x.toNat 14 12 = 0) ∧
(∃ (s : State) (e : Region) (p : Fin 32) (c : Oct) (x : BitVec 26) (k : PumpCtx) (D A T : Nat), D = bits x.toNat 21 5 ∧ A = bits x.toNat 16 5 ∧ T =
      bits x.toNat 0 14 ∧ s.issues e p c (word 0x27 x.toNat) k ∧ bits x.toNat 14 7 = 0 ∧ k.pc < 2 ^ 14) :=
⟨⟨issuing (word 0x20 10879076), 3, 5, 2, 10879076, ctx, _, _, _, rfl, rfl, rfl, by decide +kernel, by unfold State.issues; decide +kernel⟩,
⟨issuing (word 0x21 10879076), 3, 5, 2, 10879076, ctx, _, _, _, rfl, rfl, rfl, by decide +kernel, by unfold State.issues; decide +kernel⟩,
⟨issuing (word 0x22 10879076), 3, 5, 2, 10879076, ctx, _, _, _, rfl, rfl, rfl, by decide +kernel, by unfold State.issues; decide +kernel⟩,
⟨issuing (word 0x23 10879076), 3, 5, 2, 10879076, ctx, _, _, _, rfl, rfl, rfl, by decide +kernel, by unfold State.issues; decide +kernel⟩,
⟨issuing (word 0x24 10879076), 3, 5, 2, 10879076, ctx, _, _, _, rfl, rfl, rfl, by decide +kernel, by unfold State.issues; decide +kernel⟩,
⟨issuing (word 0x25 10879076), 3, 5, 2, 10879076, ctx, _, _, _, rfl, rfl, rfl, by decide +kernel, by unfold State.issues; decide +kernel⟩,
⟨issuing (word 0x26 16383), 3, 5, 2, 16383, ctx, _, _, _, rfl, rfl, rfl, by unfold State.issues; decide +kernel, by decide +kernel⟩,
⟨issuing (word 0x27 10485860), 3, 5, 2, 10485860, ctx, _, _, _, rfl, rfl, rfl, by unfold State.issues; decide +kernel, by decide +kernel⟩⟩

open More Rest in
/-- Clause by clause, something meets the hypotheses of Obligations.PumpWords. -/
theorem test_witness_PumpWords_5 :
(∃ (s : State) (e : Region) (p : Fin 32) (c : Oct) (x : BitVec 26) (k : PumpCtx) (D A T : Nat), D = bits x.toNat 21 5 ∧ A = bits x.toNat 16 5 ∧ T =
      bits x.toNat 0 14 ∧ s.issues e p c (word 0x28 x.toNat) k ∧ D = 0 ∧ bits x.toNat 0 16 = 0) ∧
(∃ (s : State) (e : Region) (p : Fin 32) (c : Oct) (x : BitVec 26) (k : PumpCtx) (D A T : Nat), D = bits x.toNat 21 5 ∧ A = bits x.toNat 16 5 ∧ T =
      bits x.toNat 0 14 ∧ s.issues e p c (word 0x3A x.toNat) k ∧ x = 0) ∧
(∃ (s : State) (e : Region) (p : Fin 32) (c : Oct) (x : BitVec 26) (k : PumpCtx) (D A T : Nat), D = bits x.toNat 21 5 ∧ A = bits x.toNat 16 5 ∧ T =
      bits x.toNat 0 14 ∧ s.issues e p c (word 0x20 x.toNat) k ∧ bits x.toNat 14 2 ≠ 0) ∧
(∃ (s : State) (e : Region) (p : Fin 32) (c : Oct) (x : BitVec 26) (k : PumpCtx) (D A T : Nat), D = bits x.toNat 21 5 ∧ A = bits x.toNat 16 5 ∧ T =
      bits x.toNat 0 14 ∧ s.issues e p c (word 0x3A x.toNat) k ∧ x ≠ 0) ∧
(∃ (s : State) (e : Region) (p : Fin 32) (c : Oct) (x : BitVec 26) (k : PumpCtx), s.running = true ∧ s.regionOn e = true ∧ s.ctx e p c = some k ∧
      (k.wait.isSome = true ∨ s.storeWord e k.pc = word 0x01 x.toNat)) :=
⟨⟨issuing (word 0x28 393216), 3, 5, 2, 393216, ctx, _, _, _, rfl, rfl, rfl, by unfold State.issues; decide +kernel, by decide +kernel⟩,
⟨issuing (word 0x3a 0), 3, 5, 2, 0, ctx, _, _, _, rfl, rfl, rfl, by unfold State.issues; decide +kernel, by decide +kernel⟩,
⟨issuing (word 0x20 16384), 3, 5, 2, 16384, ctx, _, _, _, rfl, rfl, rfl, by unfold State.issues; decide +kernel, by decide +kernel⟩,
⟨issuing (word 0x3a 1), 3, 5, 2, 1, ctx, _, _, _, rfl, rfl, rfl, by unfold State.issues; decide +kernel, by decide +kernel⟩,
⟨issuing (word 0x1 0), 3, 5, 2, 0, ctx, by decide +kernel⟩⟩

open Pump in
/-- Clause by clause, something meets the hypotheses of Obligations.PumpWords. -/
theorem test_witness_PumpWords_6 :
(∃ (s : State) (e : Region) (p : Fin 32) (c : Oct) (x : BitVec 26) (k : PumpCtx) (D A T : Nat), D = bits x.toNat 21 5 ∧ A = bits x.toNat 16 5 ∧ T =
      bits x.toNat 0 14 ∧ s.issues e p c (word 0x01 x.toNat) k ∧ bits x.toNat 0 11 ≠ 0) ∧
(∃ (s : State) (e : Region) (p : Fin 32) (c : Oct) (w : Word) (k : PumpCtx), s.issues e p c w.toNat k ∧ assigned (w.toNat / 2 ^ 26) = false) ∧
(∃ (s : State) (e : Region) (p : Fin 32) (c : Oct) (x : BitVec 26) (flt : Fin 3) (k : PumpCtx), s.running = true ∧ s.regionOn e = true ∧ s.ctx e p c
      = some k ∧ k.wait = none ∧ s.inRange e k.look.frame k.pc = false ∧ flt ≠ 2) ∧
(∃ (s : State) (e : Region) (p : Fin 32) (c : Oct) (x : BitVec 26) (flt : Fin 3), (s.running = false ∨ s.regionOn e = false ∨ s.ctx e p c = none)) :=
⟨⟨base 1 1 1, 3, 5, 2, 1, kk 1, 0, 0, 1, by unfold State.issues; decide +kernel⟩,
⟨base 0x3F 1 1, 3, 5, 2, BitVec.ofNat 32 (word 0x3F 1), kk 1, by unfold State.issues; decide +kernel⟩,
⟨(base 0x3F 1 1).setReg (PMP_BIND.w 3 0 (actRoutine (fr 1).act)) 1, 3, 5, 2, 1, 0, kk 1, by decide +kernel⟩,
⟨run, 3, 5, 2, 1, 0, by decide +kernel⟩⟩

open Rest in
/-- Clause by clause, something meets the hypotheses of Obligations.PumpWords. -/
theorem test_witness_PumpWords_7 :
∃ (s : State) (e : Region) (p : Fin 32) (c : Oct) (k : PumpCtx) (cause : Nat), s.regsCanon = true ∧ mapCanon none s.ctxs = true ∧ k.restarts < s.rf
      (PMP_CFG.MAX_RESTARTS e) ∧ s.bindBad e k.look.frame = none :=
⟨run.wf (PMP_CFG.MAX_RESTARTS 3) 3, 3, 5, 2, ctx, 8, by decide +kernel⟩

open More Rest in
/-- Clause by clause, something meets the hypotheses of Obligations.PumpWindowsAndOutputs. -/
theorem test_witness_PumpWindowsAndOutputs :
(∃ (s : State) (e : Region) (p : Fin 32) (c : Oct) (x : BitVec 26) (k : PumpCtx) (D A W : Nat), D = bits x.toNat 21 5 ∧ A = bits x.toNat 16 5 ∧ W =
      bits x.toNat 17 4 ∧ s.issues e p c (word 0x2C x.toNat) k ∧ bits x.toNat 0 17 = 0 ∧ k.winOk = true) ∧
(∃ (s : State) (e : Region) (p : Fin 32) (c : Oct) (x : BitVec 26) (k : PumpCtx) (D A W : Nat), D = bits x.toNat 21 5 ∧ A = bits x.toNat 16 5 ∧ W =
      bits x.toNat 17 4 ∧ s.issues e p c (word 0x2C x.toNat) k ∧ bits x.toNat 0 17 = 0 ∧ k.winOk = false) ∧
(∃ (s : State) (e : Region) (p : Fin 32) (c : Oct) (x : BitVec 26) (k : PumpCtx) (D A W : Nat), D = bits x.toNat 21 5 ∧ A = bits x.toNat 16 5 ∧ W =
      bits x.toNat 17 4 ∧ s.issues e p c (word 0x2D x.toNat) k ∧ bits x.toNat 0 17 = 0 ∧ k.winOk = true ∧ W = 15 ∧ k.win.length = 64) ∧
(∃ (s : State) (e : Region) (p : Fin 32) (c : Oct) (x : BitVec 26) (k : PumpCtx) (D A W : Nat), D = bits x.toNat 21 5 ∧ A = bits x.toNat 16 5 ∧ W =
      bits x.toNat 17 4 ∧ s.issues e p c (word 0x2D x.toNat) k ∧ bits x.toNat 0 17 = 0 ∧ k.winOk = true ∧ W = 10 ∧ k.win.length = 64) ∧
(∃ (s : State) (e : Region) (p : Fin 32) (c : Oct) (x : BitVec 26) (k : PumpCtx) (D A W : Nat), D = bits x.toNat 21 5 ∧ A = bits x.toNat 16 5 ∧ W =
      bits x.toNat 17 4 ∧ s.issues e p c (word 0x2E x.toNat) k ∧ bits x.toNat 0 17 = 0 ∧ (k.winOk = true ∨ W ≠ 2)) ∧
(∃ (s : State) (e : Region) (p : Fin 32) (c : Oct) (x : BitVec 26) (k : PumpCtx) (D A W : Nat), D = bits x.toNat 21 5 ∧ A = bits x.toNat 16 5 ∧ W =
      bits x.toNat 17 4 ∧ s.issues e p c (word 0x2F x.toNat) k ∧ bits x.toNat 0 7 = 0 ∧ k.winOk = true) ∧
(∃ (s : State) (e : Region) (p : Fin 32) (c : Oct) (x : BitVec 26) (k : PumpCtx) (D A W : Nat), D = bits x.toNat 21 5 ∧ A = bits x.toNat 16 5 ∧ W =
      bits x.toNat 17 4 ∧ s.issues e p c (word 0x2F x.toNat) k ∧ bits x.toNat 0 6 = 0 ∧ bit x.toNat 6 = true ∧ (k.winOk = true ∨ W ≠ 2)) ∧
(∃ (s : State) (e : Region) (p : Fin 32) (c : Oct) (x : BitVec 26) (k : PumpCtx) (D A W : Nat), D = bits x.toNat 21 5 ∧ A = bits x.toNat 16 5 ∧ W =
      bits x.toNat 17 4 ∧ s.issues e p c (word 0x30 x.toNat) k ∧ bits x.toNat 0 7 = 0 ∧ k.winOk = true ∧ W = 15 ∧ k.win.length = 64) :=
⟨⟨issuing (word 0x2c 12058624), 3, 5, 2, 12058624, ctx, _, _, _, rfl, rfl, rfl, by unfold State.issues; decide +kernel, by decide +kernel⟩,
⟨issuing (word 0x2c 12058624) { ctx with winOk := false }, 3, 5, 2, 12058624, { ctx with winOk := false }, _, _, _, rfl, rfl, rfl,
      by unfold State.issues; decide +kernel, by decide +kernel⟩,
⟨issuing (word 0x2d 1966080), 3, 5, 2, 1966080, ctx, _, _, _, rfl, rfl, rfl, by unfold State.issues; decide +kernel, by decide +kernel⟩,
⟨issuing (word 0x2d 1310720), 3, 5, 2, 1310720, ctx, _, _, _, rfl, rfl, rfl, by unfold State.issues; decide +kernel, by decide +kernel⟩,
⟨issuing (word 0x2e 12058624), 3, 5, 2, 12058624, ctx, _, _, _, rfl, rfl, rfl, by unfold State.issues; decide +kernel, by decide +kernel⟩,
⟨issuing (word 0x2f 12058624), 3, 5, 2, 12058624, ctx, _, _, _, rfl, rfl, rfl, by unfold State.issues; decide +kernel, by decide +kernel⟩,
⟨issuing (word 0x2f 12058688), 3, 5, 2, 12058688, ctx, _, _, _, rfl, rfl, rfl, by unfold State.issues; decide +kernel, by decide +kernel⟩,
⟨issuing (word 0x30 1966080), 3, 5, 2, 1966080, ctx, _, _, _, rfl, rfl, rfl, by unfold State.issues; decide +kernel, by decide +kernel⟩⟩

open More Rest in
/-- Clause by clause, something meets the hypotheses of Obligations.PumpWindowsAndOutputs. -/
theorem test_witness_PumpWindowsAndOutputs_2 :
(∃ (s : State) (e : Region) (p : Fin 32) (c : Oct) (x : BitVec 26) (k : PumpCtx) (D A W : Nat), D = bits x.toNat 21 5 ∧ A = bits x.toNat 16 5 ∧ W =
      bits x.toNat 17 4 ∧ s.issues e p c (word 0x31 x.toNat) k ∧ bits x.toNat 3 13 = 0 ∧ A + bits x.toNat 0 3 + 1 ≤ 32) ∧
(∃ (s : State) (e : Region) (p : Fin 32) (c : Oct) (x : BitVec 26) (k : PumpCtx) (D A W : Nat), D = bits x.toNat 21 5 ∧ A = bits x.toNat 16 5 ∧ W =
      bits x.toNat 17 4 ∧ s.issues e p c (word 0x31 x.toNat) k ∧ bits x.toNat 3 13 = 0 ∧ 32 < A + bits x.toNat 0 3 + 1) ∧
(∃ (s : State) (e : Region) (p : Fin 32) (c : Oct) (x : BitVec 26) (k : PumpCtx) (D A W : Nat), D = bits x.toNat 21 5 ∧ A = bits x.toNat 16 5 ∧ W =
      bits x.toNat 17 4 ∧ s.issues e p c (word 0x32 x.toNat) k ∧ D = 0 ∧ bits x.toNat 1 15 = 0 ∧ k.winOk = true) ∧
(∃ (s : State) (e : Region) (p : Fin 32) (c : Oct) (x : BitVec 26) (k : PumpCtx) (D A W : Nat), D = bits x.toNat 21 5 ∧ A = bits x.toNat 16 5 ∧ W =
      bits x.toNat 17 4 ∧ s.issues e p c (word 0x33 x.toNat) k ∧ D = 0 ∧ bits x.toNat 1 15 = 0 ∧ k.winOk = true ∧ k.hadds < 4 ∧ recHist k.win ≠ 0) ∧
(∃ (s : State) (e : Region) (p : Fin 32) (c : Oct) (x : BitVec 26) (k : PumpCtx) (D A W : Nat), D = bits x.toNat 21 5 ∧ A = bits x.toNat 16 5 ∧ W =
      bits x.toNat 17 4 ∧ s.issues e p c (word 0x33 x.toNat) k ∧ D = 0 ∧ bits x.toNat 1 15 = 0 ∧ k.winOk = true ∧ k.hadds < 4 ∧ recHist k.win = 0) ∧
(∃ (s : State) (e : Region) (p : Fin 32) (c : Oct) (x : BitVec 26) (k : PumpCtx) (D A W : Nat), D = bits x.toNat 21 5 ∧ A = bits x.toNat 16 5 ∧ W =
      bits x.toNat 17 4 ∧ s.issues e p c (word 0x33 x.toNat) k ∧ D = 0 ∧ bits x.toNat 1 15 = 0 ∧ 4 ≤ k.hadds) ∧
(∃ (s : State) (e : Region) (p : Fin 32) (c : Oct) (x : BitVec 26) (k : PumpCtx) (D A W : Nat), D = bits x.toNat 21 5 ∧ A = bits x.toNat 16 5 ∧ W =
      bits x.toNat 17 4 ∧ s.issues e p c (word 0x34 x.toNat) k ∧ bits x.toNat 0 8 = 0 ∧ 8 ≤ k.rwr.length) ∧
(∃ (s : State) (e : Region) (p : Fin 32) (c : Oct) (x : BitVec 26) (k : PumpCtx) (D A W : Nat), D = bits x.toNat 21 5 ∧ A = bits x.toNat 16 5 ∧ W =
      bits x.toNat 17 4 ∧ s.issues e p c (word 0x34 x.toNat) k ∧ bits x.toNat 0 8 = 0 ∧ k.rwr.length < 8) :=
⟨⟨issuing (word 0x31 12320771), 3, 5, 2, 12320771, ctx, _, _, _, rfl, rfl, rfl, by unfold State.issues; decide +kernel, by decide +kernel⟩,
⟨issuing (word 0x31 12320772), 3, 5, 2, 12320772, ctx, _, _, _, rfl, rfl, rfl, by unfold State.issues; decide +kernel, by decide +kernel⟩,
⟨issuing (word 0x32 393217), 3, 5, 2, 393217, ctx, _, _, _, rfl, rfl, rfl, by unfold State.issues; decide +kernel, by decide +kernel⟩,
⟨issuing (word 0x33 393217), 3, 5, 2, 393217, ctx, _, _, _, rfl, rfl, rfl, by unfold State.issues; decide +kernel, by decide +kernel⟩,
⟨issuing (word 0x33 393216) { ctx with win := List.replicate 64 0 }, 3, 5, 2, 393216, { ctx with win := List.replicate 64 0 }, _, _, _, rfl, rfl,
      rfl, by unfold State.issues; decide +kernel, by decide +kernel⟩,
⟨issuing (word 0x33 393216) { ctx with hadds := 4 }, 3, 5, 2, 393216, { ctx with hadds := 4 }, _, _, _, rfl, rfl, rfl,
      by unfold State.issues; decide +kernel, by decide +kernel⟩,
⟨issuing (word 0x34 12058624) { ctx with rwr := List.replicate 8 ⟨0, 0, []⟩ }, 3, 5, 2, 12058624, { ctx with rwr := List.replicate 8 ⟨0, 0, []⟩ },
      _, _, _, rfl, rfl, rfl, by unfold State.issues; decide +kernel, by decide +kernel⟩,
⟨issuing (word 0x34 12058624) { ctx with rwr := List.replicate 7 ⟨0, 0, []⟩ }, 3, 5, 2, 12058624, { ctx with rwr := List.replicate 7 ⟨0, 0, []⟩ },
      _, _, _, rfl, rfl, rfl, by unfold State.issues; decide +kernel, by decide +kernel⟩⟩

open More Rest in
/-- Clause by clause, something meets the hypotheses of Obligations.PumpWindowsAndOutputs. -/
theorem test_witness_PumpWindowsAndOutputs_3 :
(∃ (s : State) (e : Region) (p : Fin 32) (c : Oct) (x : BitVec 26) (k : PumpCtx) (D A W : Nat), D = bits x.toNat 21 5 ∧ A = bits x.toNat 16 5 ∧ W =
      bits x.toNat 17 4 ∧ s.issues e p c (word 0x35 x.toNat) k ∧ bits x.toNat 21 3 = 0 ∧ bits x.toNat 1 15 = 0 ∧ bit x.toNat 0 = false ∧
      k.exps.length < 8) ∧
(∃ (s : State) (e : Region) (p : Fin 32) (c : Oct) (x : BitVec 26) (k : PumpCtx) (D A W : Nat), D = bits x.toNat 21 5 ∧ A = bits x.toNat 16 5 ∧ W =
      bits x.toNat 17 4 ∧ s.issues e p c (word 0x35 x.toNat) k ∧ bits x.toNat 21 3 = 0 ∧ bits x.toNat 1 15 = 0 ∧ bit x.toNat 0 = true ∧ A ≠ 31 ∧
      k.exps.length < 8) ∧
(∃ (s : State) (e : Region) (p : Fin 32) (c : Oct) (x : BitVec 26) (k : PumpCtx) (D A W : Nat), D = bits x.toNat 21 5 ∧ A = bits x.toNat 16 5 ∧ W =
      bits x.toNat 17 4 ∧ s.issues e p c (word 0x35 x.toNat) k ∧ bits x.toNat 21 3 = 0 ∧ bits x.toNat 1 15 = 0 ∧ 8 ≤ k.exps.length) ∧
(∃ (s : State) (e : Region) (p : Fin 32) (c : Oct) (x : BitVec 26) (k : PumpCtx) (D A W : Nat), D = bits x.toNat 21 5 ∧ A = bits x.toNat 16 5 ∧ W =
      bits x.toNat 17 4 ∧ s.issues e p c (word 0x35 x.toNat) k ∧ bits x.toNat 21 3 = 0 ∧ bits x.toNat 1 15 = 0 ∧ k.exps.length < 8 ∧ bit x.toNat 0 =
      true ∧ A = 31) ∧
(∃ (s : State) (e : Region) (p : Fin 32) (c : Oct) (x : BitVec 26) (k : PumpCtx) (D A W : Nat), D = bits x.toNat 21 5 ∧ A = bits x.toNat 16 5 ∧ W =
      bits x.toNat 17 4 ∧ s.issues e p c (word 0x36 x.toNat) k ∧ bits x.toNat 21 3 = 0 ∧ bits x.toNat 0 16 = 0) :=
⟨⟨issuing (word 0x35 393216) { ctx with exps := List.replicate 7 ⟨0, [1]⟩ }, 3, 5, 2, 393216, { ctx with exps := List.replicate 7 ⟨0, [1]⟩ }, _, _,
      _, rfl, rfl, rfl, by unfold State.issues; decide +kernel, by decide +kernel⟩,
⟨issuing (word 0x35 1966081) { ctx with exps := List.replicate 7 ⟨0, [1]⟩ }, 3, 5, 2, 1966081, { ctx with exps := List.replicate 7 ⟨0, [1]⟩ }, _, _,
      _, rfl, rfl, rfl, by unfold State.issues; decide +kernel, by decide +kernel⟩,
⟨issuing (word 0x35 393216) { ctx with exps := List.replicate 8 ⟨0, [1]⟩ }, 3, 5, 2, 393216, { ctx with exps := List.replicate 8 ⟨0, [1]⟩ }, _, _,
      _, rfl, rfl, rfl, by unfold State.issues; decide +kernel, by decide +kernel⟩,
⟨issuing (word 0x35 2031617) { ctx with exps := List.replicate 7 ⟨0, [1]⟩ }, 3, 5, 2, 2031617, { ctx with exps := List.replicate 7 ⟨0, [1]⟩ }, _, _,
      _, rfl, rfl, rfl, by unfold State.issues; decide +kernel, by decide +kernel⟩,
⟨issuing (word 0x36 393216), 3, 5, 2, 393216, ctx, _, _, _, rfl, rfl, rfl, by unfold State.issues; decide +kernel, by decide +kernel⟩⟩

open Pump in
/-- Clause by clause, something meets the hypotheses of Obligations.PumpWindowsAndOutputs. -/
theorem test_witness_PumpWindowsAndOutputs_4 :
∃ (s : State) (e : Region) (p : Fin 32) (c : Oct) (x : BitVec 26) (k : PumpCtx) (D A W : Nat), D = bits x.toNat 21 5 ∧ A = bits x.toNat 16 5 ∧ W =
      bits x.toNat 17 4 ∧ s.issues e p c (word 0x2D x.toNat) k ∧ bits x.toNat 0 17 = 0 ∧ k.winOk = true ∧ (W < 10 ∨ (11 ≤ W ∧ W ≤ 14)) :=
⟨base 0x2D (2^21*5+12*2^17) 1, 3, 5, 2, BitVec.ofNat 26 (2^21*5+12*2^17), kk 1, 5, 24, 12, by unfold State.issues; decide +kernel⟩

open More Rest in
/-- Clause by clause, something meets the hypotheses of Obligations.PumpPasses. -/
theorem test_witness_PumpPasses :
(∃ (s : State) (e : Region) (q : PassReq) (rest : List PassReq) (p c : Nat), s.regsCanon = true ∧ mapCanon {} s.engs = true ∧ mapCanon none s.ctxs =
      true ∧ s.running = true ∧ s.regionOn e = true ∧ (s.eng e).passes = q :: rest ∧ s.nextPump e = some (p, c) ∧ (∀ h1 b j, s.findRec e q.look.part
      q.look.key = some (h1, b, j) → s.badRefs e b j = false) ∧ s.bindBad e q.look.frame = none) ∧
(∃ (s : State) (e : Region) (p : Fin 32) (c : Oct) (x : BitVec 26) (k : PumpCtx), s.issues e p c (word 0x37 x.toNat) k ∧ bits x.toNat 21 1 = 0 ∧
      bits x.toNat 2 14 = 0 ∧ bits x.toNat 22 4 = 0 ∧ k.winOk = false) ∧
(∃ (s : State) (e : Region) (p : Fin 32) (c : Oct) (x : BitVec 26) (k : PumpCtx), s.issues e p c (word 0x37 x.toNat) k ∧ bits x.toNat 21 1 = 0 ∧
      bits x.toNat 2 14 = 0 ∧ bits x.toNat 22 4 = 1 ∧ k.verdict = false) ∧
(∃ (s : State) (e : Region) (p : Fin 32) (c : Oct) (x : BitVec 26) (k : PumpCtx), s.issues e p c (word 0x37 x.toNat) k ∧ bits x.toNat 21 1 = 0 ∧
      bits x.toNat 2 14 = 0 ∧ bits x.toNat 22 4 = 1 ∧ k.verdict = true) ∧
(∃ (s : State) (e : Region) (p : Fin 32) (c : Oct) (x : BitVec 26) (k : PumpCtx), s.issues e p c (word 0x37 x.toNat) k ∧ bits x.toNat 21 1 = 0 ∧
      bits x.toNat 2 14 = 0 ∧ bits x.toNat 22 4 = 2 ∧ s.credit e k (bits x.toNat 0 2) = true) ∧
(∃ (s : State) (e : Region) (p : Fin 32) (c : Oct) (x : BitVec 26) (k : PumpCtx), s.issues e p c (word 0x37 x.toNat) k ∧ bits x.toNat 21 1 = 0 ∧
      bits x.toNat 2 14 = 0 ∧ bits x.toNat 22 4 = 2 ∧ s.credit e k (bits x.toNat 0 2) = false) ∧
(∃ (s : State) (e : Region) (p : Fin 32) (c : Oct) (x : BitVec 26) (k : PumpCtx), s.issues e p c (word 0x37 x.toNat) k ∧ bits x.toNat 21 1 = 0 ∧
      bits x.toNat 2 14 = 0 ∧ bits x.toNat 22 4 = 3 ∧ k.r (bits x.toNat 16 5) = 0) ∧
(∃ (s : State) (e : Region) (p : Fin 32) (c : Oct) (x : BitVec 26) (k : PumpCtx), s.issues e p c (word 0x37 x.toNat) k ∧ bits x.toNat 21 1 = 0 ∧
      bits x.toNat 2 14 = 0 ∧ bits x.toNat 22 4 = 3 ∧ k.r (bits x.toNat 16 5) ≠ 0) :=
⟨⟨passS, 3, ⟨look 1, true, 2, none, 0, []⟩, [], 7, 0, by decide +kernel, by decide +kernel, by decide +kernel, by decide +kernel, by decide +kernel,
      by decide +kernel, by decide +kernel, none_some3 (by decide +kernel), by decide +kernel⟩,
⟨issuing (word 0x37 0) { ctx with winOk := false }, 3, 5, 2, 0, { ctx with winOk := false }, by unfold State.issues; decide +kernel⟩,
⟨issuing (word 0x37 4194304), 3, 5, 2, 4194304, ctx, by unfold State.issues; decide +kernel⟩,
⟨issuing (word 0x37 4194304) { ctx with verdict := true }, 3, 5, 2, 4194304, { ctx with verdict := true }, by unfold State.issues; decide +kernel⟩,
⟨issuing (word 0x37 8388608) exp1, 3, 5, 2, 8388608, exp1, by unfold State.issues; decide +kernel⟩,
⟨stuck (issuing (word 0x37 8388608) exp1), 3, 5, 2, 8388608, exp1, by unfold State.issues; decide +kernel⟩,
⟨issuing (word 0x37 12976128) { ctx with g := List.replicate 32 0 }, 3, 5, 2, 12976128, { ctx with g := List.replicate 32 0 },
      by unfold State.issues; decide +kernel⟩,
⟨issuing (word 0x37 12976128), 3, 5, 2, 12976128, ctx, by unfold State.issues; decide +kernel⟩⟩

open More Rest in
/-- Clause by clause, something meets the hypotheses of Obligations.PumpPasses. -/
theorem test_witness_PumpPasses_2 :
(∃ (s u : State) (e : Region) (p : Fin 32) (c : Oct) (k : PumpCtx) (y : Nat), s.running = true ∧ s.regionOn e = true ∧ mapCanon none s.ctxs = true ∧
      s.ctx e p c = some k ∧ k.wait = some (0, y) ∧ u = s.readFor e k.look k.verdict ∧ (u.loadWin e k).winOk = true) ∧
(∃ (s u : State) (e : Region) (p : Fin 32) (c : Oct) (k : PumpCtx) (y : Nat), s.running = true ∧ s.regionOn e = true ∧ mapCanon none s.ctxs = true ∧
      s.ctx e p c = some k ∧ k.wait = some (0, y) ∧ u = s.readFor e k.look k.verdict ∧ (u.loadWin e k).winOk = false) ∧
(∃ (s : State) (e : Region) (p : Fin 32) (c : Oct) (k : PumpCtx) (st : Nat), s.running = true ∧ s.regionOn e = true ∧ mapCanon none s.ctxs = true ∧
      s.ctx e p c = some k ∧ k.wait = some (2, st) ∧ s.credit e k st = true) ∧
(∃ (s : State) (e : Region) (p : Fin 32) (c : Oct) (k : PumpCtx) (st : Nat), s.running = true ∧ s.regionOn e = true ∧ mapCanon none s.ctxs = true ∧
      s.ctx e p c = some k ∧ k.wait = some (2, st) ∧ s.credit e k st = false) ∧
(∃ (s : State) (e : Region) (p : Fin 32) (c : Oct) (x : BitVec 26) (flt : Fin 5) (k : PumpCtx), s.issues e p c (word 0x38 x.toNat) k ∧ bits x.toNat
      2 24 = 0 ∧ bits x.toNat 0 2 ≠ 3 ∧ s.commitTurn e k = true ∧ s.commitReady e k = true) ∧
(∃ (s : State) (e : Region) (p : Fin 32) (c : Oct) (x : BitVec 26) (flt : Fin 5) (k : PumpCtx), s.issues e p c (word 0x38 x.toNat) k ∧ bits x.toNat
      2 24 = 0 ∧ bits x.toNat 0 2 ≠ 3 ∧ s.commitTurn e k = true ∧ s.commitReady e k = true ∧ flt ≠ 1 ∧ flt ≠ 2) ∧
(∃ (s : State) (e : Region) (p : Fin 32) (c : Oct) (x : BitVec 26) (flt : Fin 5) (k : PumpCtx), s.issues e p c (word 0x38 x.toNat) k ∧ bits x.toNat
      2 24 = 0 ∧ bits x.toNat 0 2 ≠ 3 ∧ s.commitTurn e k = true ∧ s.commitReady e k = true ∧ s.mayChange (s.commitPassNow e p c k (bits x.toNat 0 2)
      2) = true) ∧
(∃ (s : State) (e : Region) (p : Fin 32) (c : Oct) (x : BitVec 26) (flt : Fin 5) (k : PumpCtx), s.issues e p c (word 0x38 x.toNat) k ∧ bits x.toNat
      2 24 = 0 ∧ bits x.toNat 0 2 ≠ 3 ∧ s.commitTurn e k = true ∧ s.commitReady e k = true ∧ s.mayChange (s.commitPassNow e p c k (bits x.toNat 0 2)
      2) = false) :=
⟨⟨issuing 0 { ctx with wait := some (0, 0) }, _, 3, 5, 2, { ctx with wait := some (0, 0) }, 0, by decide +kernel, by decide +kernel,
      by decide +kernel, by decide +kernel, by decide +kernel, rfl, by decide +kernel⟩,
⟨noWin, _, 3, 5, 2, { nw0 with wait := some (0, 0) }, 0, by decide +kernel, by decide +kernel, by decide +kernel, by decide +kernel,
      by decide +kernel, rfl, by decide +kernel⟩,
⟨issuing 0 { ctx with wait := some (2, 0) }, 3, 5, 2, { ctx with wait := some (2, 0) }, 0, by decide +kernel⟩,
⟨stuck (issuing 0 { exp1 with wait := some (2, 0) }), 3, 5, 2, { exp1 with wait := some (2, 0) }, 0, by decide +kernel⟩,
⟨issuing (word 0x38 2), 3, 5, 2, 2, 0, ctx, by unfold State.issues; decide +kernel⟩,
⟨issuing (word 0x38 2), 3, 5, 2, 2, 0, ctx, by unfold State.issues; decide +kernel⟩,
⟨issuing (word 0x38 2), 3, 5, 2, 2, 0, ctx, by unfold State.issues; decide +kernel⟩,
⟨snapFull, 3, 5, 2, 2, 0, ctx, by unfold State.issues; decide +kernel⟩⟩

open More Rest in
/-- Clause by clause, something meets the hypotheses of Obligations.PumpPasses. -/
theorem test_witness_PumpPasses_3 :
∃ (s : State) (e : Region) (p : Fin 32) (c : Oct) (x : BitVec 26) (k : PumpCtx), s.issues e p c (word 0x38 x.toNat) k ∧ bits x.toNat 2 24 = 0 ∧ bits
      x.toNat 0 2 ≠ 3 ∧ k.winOk = true ∧ s.commitTurn e k = true ∧ s.commitReady e k = false ∧ s.regsCanon = true :=
⟨stuck (issuing (word 0x38 2) exp1), 3, 5, 2, 2, exp1, by unfold State.issues; decide +kernel⟩

open Pump in
/-- Clause by clause, something meets the hypotheses of Obligations.PumpPasses. -/
theorem test_witness_PumpPasses_4 :
(∃ (s : State) (e p c n : Nat) (k : PumpCtx) (l : Nat), s.ctx e p c = some k ∧ s.bindBad e k.look.frame = some l) ∧
(∃ (s : State) (e : Region) (rd : BindRead), (s.running = false ∨ s.regionOn e = false ∨ (s.eng e).passes = [] ∨ s.nextPump e = none)) ∧
(∃ (s : State) (e : Region) (p : Fin 32) (c : Oct) (k : PumpCtx) (y : Nat), s.running = true ∧ s.regionOn e = true ∧ mapCanon none s.ctxs = true ∧
      s.ctx e p c = some k ∧ k.wait = some (3, y)) ∧
(∃ (s : State) (e : Region) (p : Fin 32) (c : Oct) (k : PumpCtx), s.ctx e p c = some k ∧ k.wait = none) ∧
(∃ (s : State) (e : Region) (p : Fin 32) (c : Oct) (x : BitVec 26) (k : PumpCtx), s.issues e p c (word 0x39 x.toNat) k ∧ bits x.toNat 8 18 = 0 ∧
      0x80 ≤ bits x.toNat 0 8) :=
⟨⟨{ base 1 1 1 with bindErr := [(bindIx 3 (kk 1).look.frame, 8)] }, 3, 5, 2, 1, kk 1, 7, by decide +kernel⟩,
⟨run, 3, .good, by decide +kernel⟩,
⟨base 1 1 1 kw, 3, 5, 2, kw, 0, by decide +kernel⟩,
⟨base 1 1 1, 3, 5, 2, kk 1, by decide +kernel⟩,
⟨base 0x39 0x81 1, 3, 5, 2, 0x81, kk 1, by unfold State.issues; decide +kernel⟩⟩

open Rest in
/-- Clause by clause, something meets the hypotheses of Obligations.PumpPasses. -/
theorem test_witness_PumpPasses_5 :
(∃ (s : State) (e : Region) (p : Fin 32) (c : Oct) (x : BitVec 26) (k : PumpCtx), s.issues e p c (word 0x37 x.toNat) k ∧ bits x.toNat 21 1 = 0 ∧
      bits x.toNat 2 14 = 0 ∧ bits x.toNat 22 4 = 0 ∧ k.winOk = true) ∧
(∃ (s : State) (e : Region) (p : Fin 32) (c : Oct) (x : BitVec 26) (k : PumpCtx), s.issues e p c (word 0x38 x.toNat) k ∧ bits x.toNat 2 24 = 0 ∧
      bits x.toNat 0 2 ≠ 3 ∧ (k.winOk = false ∨ s.commitTurn e k = false)) :=
⟨⟨issuing (word 0x37 0), 3, 5, 2, 0, ctx, by unfold State.issues; decide +kernel⟩,
⟨issuing (word 0x38 0) { ctx with winOk := false, verdict := true }, 3, 5, 2, 0, { ctx with winOk := false, verdict := true },
      by unfold State.issues; decide +kernel⟩⟩

open Pump in
/-- Clause by clause, something meets the hypotheses of Obligations.PumpPoolAndTest. -/
theorem test_witness_PumpPoolAndTest :
(∃ (s : State) (e : Region), s.regsCanon = true ∧ s.hostOpen = true) ∧
(∃ (s : State) (e : Region) (v : Word), s.regsCanon = true ∧ s.hostOpen = true ∧ v ≠ 0 ∧ s.rb (PMP_TEST_STATUS.BUSY e) = false) ∧
(∃ (s : State) (e : Region) (v : Word), s.regsCanon = true ∧ s.hostOpen = true ∧ bit (s.rf (PMP_POOL.IN_POOL e)) (v.toNat % 32) = false ∧ s.rb
      (PMP_TEST_STATUS.BUSY e) = false) ∧
(∃ (s : State) (e : Region) (pass : Bool), s.regsCanon = true ∧ s.alive = true ∧ s.rb (PMP_TEST_STATUS.BUSY e) = true) ∧
(∃ (s : State) (e : Region) (r : BitVec 8) (clear : Bool), s.regsCanon = true ∧ mapCanon 0 s.rtHist = true ∧ s.hostOpen = true) :=
⟨⟨pn, 3, by decide +kernel⟩,
⟨(base 1 1 1).wf (PMP_TEST_STATUS.BUSY 3) 0, 3, 5, by decide +kernel⟩,
⟨(pn.wf (PMP_TEST_STATUS.BUSY 3) 0).wf (PMP_POOL.IN_POOL 3) 1, 3, 0xFFFFFFC2, by decide +kernel⟩,
⟨(pn.wf (PMP_TEST_STATUS.BUSY 3) 1), 3, true, by decide +kernel⟩,
⟨{pn with rtHist := [(3*2^15+128*7+3, 9),(3*2^15+128*7+64, 99),(3*2^15+128*8, 99)]}, 3, 7, true, by decide +kernel⟩⟩

open Rest in
/-- Clause by clause, something meets the hypotheses of Obligations.WindlassAndCells. -/
theorem test_witness_WindlassAndCells :
(∃ (g j : Nat) (req : Nat → Bool), g < 8 ∧ j < 8) ∧
(∃ (s : State) (i j : Region) (x : XferX) (p : Nat), s.running = true ∧ s.canon = true ∧ (∀ k, (s.rx k).voq = []) ∧ s.wind.xfer = [(i.val * 8 +
      j.val, x)] ∧ isRecirc i x.ent.frame = false ∧ x.sent + 1 < x.total ∧ (List.range 5).find? (bit (s.rf WL_STATUS.PLANES_ACTIVE)) = some p) ∧
(∃ (s : State) (i j : Region) (x : XferX), s.regsCanon = true ∧ s.running = true ∧ s.regionRuns j = true ∧ s.xfer i j = some x ∧ x.got < x.sent) :=
⟨⟨7, 0, fun _ => true, by decide +kernel⟩,
⟨crossing { cross (.port 300) 1 false with sent := 2 }, 1, 4, { cross (.port 300) 1 false with sent := 2 }, 0, by decide +kernel, by decide +kernel,
      fun _ => rfl, by decide +kernel⟩,
⟨crossing (cross (.port 300) 1 false), 1, 4, cross (.port 300) 1 false, by decide +kernel⟩⟩

open Switch in
/-- Clause by clause, something meets the hypotheses of Obligations.WindlassAndCells. -/
theorem test_witness_WindlassAndCells_2 :
(∃ (s : State) (i j : Region) (flt : CellFault), (s.running = false ∨ s.regionRuns j = false ∨ s.xfer i j = none)) ∧
(∃ (s : State) (flt : WindlassFault), s.running = false) :=
⟨⟨c2, 1, 3, .none, by decide +kernel⟩,
⟨W cfgS xf, .pointer, by decide +kernel⟩⟩

open Rest in
/-- Clause by clause, something meets the hypotheses of Obligations.BuffersQueuesAndSump. -/
theorem test_witness_BuffersQueuesAndSump :
(∃ (s : State) (n : Region) (h rq : Nat) (b : BufX) (eg : Bool), s.mapsCanon = true ∧ s.bufx n h = b ∧ 1 < b.count ∧ b.egress = eg) ∧
(∃ (s : State) (n : Region) (h rq : Nat) (b : BufX) (eg : Bool), s.mapsCanon = true ∧ s.bufx n h = b ∧ b.count = 0 ∧ s.regsCanon = true ∧ s.rf
      (CIS_FREE_LOG_CTRL.VALID n) = 0 ∧ h < 2 ^ 18 ∧ rq < 16) ∧
(∃ (s : State) (n prof avg port : Nat) (k : FKey), avg < s.rf (CIS_RED_PROF.MIN n prof) * 256) ∧
(∃ (s : State) (n prof avg port : Nat) (k : FKey), s.rf (CIS_RED_PROF.MIN n prof) * 256 ≤ avg ∧ s.rf (CIS_RED_PROF.MAX n prof) * 256 ≤ avg) ∧
(∃ avg depth w : Nat, w = 0) ∧
(∃ (s : State) (n : Region) (q : BitVec 14) (pre post : List QEnt) (e : QEnt) (room : Nat) (got : List Nat), s.running = true ∧ s.regionRuns n =
      true ∧ s.hbmBusy (n / 2) = false ∧ s.mapsCanon = true ∧ (s.queue n q.toNat).ents = pre ++ e :: post ∧ (∀ y ∈ pre, y.place ≠ .toSump) ∧ e.place
      = .toSump ∧ e.waitCol = false ∧ s.badBuf e = false ∧ room = (if (s.queue n q.toNat).page.isSome then 4096 - (s.queue n q.toNat).fill else 0) ∧
      s.pickPages n (s.rx n).pages 0 (s.rf (CIS_SUMP_CFG.SIZE_MIB n) * 256) (cdiv (sumpBytes e.frame - room) 4096) = got ∧ got.length < cdiv
      (sumpBytes e.frame - room) 4096 ∧ s.regsCanon = true ∧ e.frame.buf < 2 ^ 18 ∧ e.frame.bank < 2 ∧ (s.bufx n e.frame.buf).port < 66 ∧ (s.bufx n
      e.frame.buf).cls < 16) ∧
(∃ (s : State) (n : Region) (q : BitVec 14) (pre post : List QEnt) (e : QEnt), s.running = true ∧ s.regionRuns n = true ∧ s.hbmBusy (n / 2) = false
      ∧ s.mapsCanon = true ∧ (s.queue n q.toNat).ents = pre ++ e :: post ∧ (∀ y ∈ pre, inSump y = false) ∧ e.place = .sump ∧ e.lost = false ∧
      e.corrupt = false ∧ e.marked = false ∧ e.dropRed = none ∧ s.regionRuns (q.toNat / 68 / 16) = true ∧ s.dataFlagged n e = false ∧ (pre.filter
      (fun e => e.place = .cistern)).length < s.rf (CIS_SUMP_CFG.PREFETCH n) ∧ (pre.filter (fun e => e.place = .staging)).length < s.rf
      (CIS_SUMP_CFG.PREFETCH n) ∧ ((s.rx n).voq.map (fun p => stagedUnits p.2)).sum + bufUnits e.frame ≤ 1024) ∧
(∃ (s : State) (n : Region) (q : BitVec 14) (pre post : List QEnt) (e : QEnt), s.running = true ∧ s.regionRuns n = true ∧ s.hbmBusy (n / 2) = false
      ∧ s.mapsCanon = true ∧ (s.queue n q.toNat).ents = pre ++ e :: post ∧ (∀ y ∈ pre, inSump y = false) ∧ e.place = .sump ∧ e.lost = false ∧
      e.corrupt = false ∧ e.marked = false ∧ e.dropRed = none ∧ s.regionRuns (q.toNat / 68 / 16) = true ∧ s.dataFlagged n e = false ∧ (pre.filter
      (fun e => e.place = .cistern)).length < s.rf (CIS_SUMP_CFG.PREFETCH n) ∧ (pre.filter (fun e => e.place = .staging)).length < s.rf
      (CIS_SUMP_CFG.PREFETCH n) ∧ ((s.rx n).voq.map (fun p => stagedUnits p.2)).sum + bufUnits e.frame ≤ 1024 ∧ s.regsCanon = true ∧ e.frame.bank <
      2) :=
⟨⟨run.setBufx 3 9 { count := 3 }, 3, 9, 0, { count := 3 }, false, by decide +kernel⟩,
⟨run, 3, 9, 0, {}, false, by decide +kernel⟩,
⟨run.wf (CIS_RED_PROF.MIN 3 0) 1, 3, 0, 255, 300, ⟨5, 1, 0⟩, by decide +kernel⟩,
⟨(run.wf (CIS_RED_PROF.MIN 3 0) 1).wf (CIS_RED_PROF.MAX 3 0) 2, 3, 0, 512, 300, ⟨5, 1, 0⟩, by decide +kernel⟩,
⟨512, 3, 0, by decide +kernel⟩,
⟨queued [ent1 3 .toSump] 0, 1, BitVec.ofNat 14 (qIndex 4 3 44), [], [], ent1 3 .toSump, 0, [], by decide +kernel⟩,
⟨(queued [ent1 1 .cistern, ent1 2 .sump] 4).wf (CIS_SUMP_CFG.PREFETCH 1) 8, 1, BitVec.ofNat 14 (qIndex 4 3 44), [ent1 1 .cistern], [], ent1 2 .sump,
      by decide +kernel⟩,
⟨(queued [ent1 1 .cistern, ent1 2 .sump] 4).wf (CIS_SUMP_CFG.PREFETCH 1) 8, 1, BitVec.ofNat 14 (qIndex 4 3 44), [ent1 1 .cistern], [], ent1 2 .sump,
      by decide +kernel⟩⟩

open Rest in
/-- Clause by clause, something meets the hypotheses of Obligations.BuffersQueuesAndSump. -/
theorem test_witness_BuffersQueuesAndSump_2 :
∃ (s : State) (n : Region) (q : BitVec 14) (pre post : List QEnt) (e : QEnt) (bad : Bool), s.running = true ∧ s.regionRuns n = true ∧ s.hbmBusy (n /
      2) = false ∧ s.canon = true ∧ (s.queue n q.toNat).ents = pre ++ e :: post ∧ (∀ y ∈ pre, inSump y = false) ∧ e.place = .sump ∧ e.lost = false ∧
      e.marked = true ∧ e.frame.bank < 2 :=
⟨queued [ent1 1 .cistern, { ent1 2 .sump with marked := true }] 4, 1, BitVec.ofNat 14 (qIndex 4 3 44), [ent1 1 .cistern], [],
      { ent1 2 .sump with marked := true }, false, by decide +kernel⟩

open Switch in
/-- Clause by clause, something meets the hypotheses of Obligations.BuffersQueuesAndSump. -/
theorem test_witness_BuffersQueuesAndSump_3 :
(∃ (s : State) (n : Region) (v : Word), s.regsCanon = true ∧ s.hostOpen = true) ∧
(∃ (s : State) (n : Region) (p c : Nat) (f : Frame) (d : List Byte) (q : Nat), q = localOf p * 16 + c ∧ localOf p < 66 ∧ c < 16 ∧ s.mapsCanon = true
      ∧ s.regsCanon = true ∧ (localOf p < 64 → s.rb (pbf PB_PORT_STATUS.DOWN_DISCARD n (localOf p)) = false) ∧ q ∉ (s.rx n).dropV ∧ s.rb
      (CIS_RED_MAP.EN n q) = false ∧ f.bad = false) ∧
(∃ (s : State) (n : Region) (q : BitVec 14) (pre post : List QEnt) (e : QEnt) (room : Nat) (got : List Nat), s.running = true ∧ s.regionRuns n =
      true ∧ s.hbmBusy (n / 2) = false ∧ s.mapsCanon = true ∧ (s.queue n q.toNat).ents = pre ++ e :: post ∧ (∀ y ∈ pre, y.place ≠ .toSump) ∧ e.place
      = .toSump ∧ e.waitCol = false ∧ s.badBuf e = false ∧ room = (if (s.queue n q.toNat).page.isSome then 4096 - (s.queue n q.toNat).fill else 0) ∧
      s.pickPages n (s.rx n).pages 0 (s.rf (CIS_SUMP_CFG.SIZE_MIB n) * 256) (cdiv (sumpBytes e.frame - room) 4096) = got ∧ cdiv (sumpBytes e.frame -
      room) 4096 ≤ got.length) ∧
(∃ (s : State) (n : Region) (q : BitVec 14) (bad : Bool), (s.hbmBusy (n / 2) = true ∨ s.running = false ∨ (s.queue n q.toNat).ents.all (fun e =>
      !inSump e) = true)) ∧
(∃ (s : State) (f : Frame) (d c l : Nat), s.mapsCanon = true ∧ d < 8 ∧ c < 16 ∧ l < 68 ∧ (s.queue f.region (qIndex d c l)).spill = true ∧ s.sumpFree
      f.region = true) :=
⟨⟨run.freeCopy 3 70009 13 true, 3, 0, by decide +kernel⟩,
⟨run.setEgq 4 (44*16+3) {avg := 77}, 4, 300, 3, {fr 2 with buf := 2}, (fr 2).data, 44*16+3, by decide +kernel⟩,
⟨s1, 1, BitVec.ofNat 14 qq, [en 1 .cistern, en 2 .sump], [en 4 .toSump], en 3 .toSump, 0, [0], by decide +kernel⟩,
⟨run, 1, BitVec.ofNat 14 qq, false, by decide +kernel⟩,
⟨s4.wf (CIS_SUMP_STATUS.PAGES_LIVE 1) 9, fr 7, 4, 3, 44, by decide +kernel⟩⟩

open More Rest in
/-- Clause by clause, something meets the hypotheses of Obligations.BuffersQueuesAndSump. -/
theorem test_witness_BuffersQueuesAndSump_4 :
∃ (s : State) (n : Region) (q : BitVec 14) (pre post : List QEnt) (e : QEnt) (room : Nat) (got : List Nat), s.running = true ∧ s.regionRuns n = true
      ∧ s.hbmBusy (n / 2) = false ∧ s.mapsCanon = true ∧ (s.queue n q.toNat).ents = pre ++ e :: post ∧ (∀ y ∈ pre, y.place ≠ .toSump) ∧ e.place =
      .toSump ∧ e.waitCol = false ∧ s.badBuf e = true ∧ s.regsCanon = true ∧ e.frame.buf < 2 ^ 18 ∧ e.frame.bank < 2 ∧ (s.bufx n e.frame.buf).port <
      66 ∧ (s.bufx n e.frame.buf).cls < 16 :=
⟨badBufS, 1, BitVec.ofNat 14 (qIndex 4 3 44), [], [], ent1 3 .toSump, 0, [], by decide +kernel⟩

open Rest in
/-- Clause by clause, something meets the hypotheses of Obligations.PolicerRules. -/
theorem test_witness_PolicerRules :
(∃ (p : Profile) (x : PolX) (len pre t : Nat), pre < 3) ∧
(∃ (s : State) (n : Region) (flt : MeterFault), ((s.rx n).reqs = [] ∨ s.running = false ∨ s.regionOn n = false)) ∧
(∃ (s : State) (n : Region) (v : Word), s.regsCanon = true ∧ s.hostOpen = true ∧ leadOk s.strokeNow (s.rf (TM_POL_SCHED_STROKE.STROKE n)) = false) ∧
(∃ (s : State) (n : Region) (v : Word), s.regsCanon = true ∧ s.hostOpen = true ∧ leadOk s.strokeNow (s.rf (TM_POL_SCHED_STROKE.STROKE n)) = true ∧
      (s.rx n).pushes.length < 64 ∧ s.mapsCanon = true) ∧
(∃ (s : State) (n : Region) (v : Word) (p : Profile) (x : PolX), s.regsCanon = true ∧ s.hostOpen = true ∧ v.toNat < 65536 ∧ s.profile n (s.rf
      (TM_POL.PROFILE n v.toNat)) = p ∧ s.polState n v.toNat p = x) :=
⟨⟨⟨1, 8000, 1, 8000, false, true, false, 20⟩, ⟨8000, 8000, 10, true⟩, 1, 2, 10, by decide +kernel⟩,
⟨run, 3, .request, by decide +kernel⟩,
⟨run, 3, 0, by decide +kernel⟩,
⟨run.wf (TM_POL_SCHED_STROKE.STROKE 3) 64, 3, 0, by decide +kernel⟩,
⟨run, 3, 65535, run.profile 3 0, run.polState 3 65535 (run.profile 3 0), by decide +kernel⟩⟩

open Switch in
/-- Clause by clause, something meets the hypotheses of Obligations.PolicerRules. -/
theorem test_witness_PolicerRules_2 :
(∃ (s : State) (n j : Region) (k : FKey) (x : MeterSlot) (rest : List MeterSlot) (pol len pre : Nat), s.running = true ∧ s.regionOn n = true ∧
      s.regionRuns j = true ∧ s.mapsCanon = true ∧ (s.rx n).slots = { key := k, done := true, req := some (j.val, pol, len, pre) } :: x :: rest ∧
      x.done = false) ∧
(∃ (s : State) (n : Region) (r : MeterReq) (rest : List MeterReq), s.running = true ∧ s.regionOn n = true ∧ s.mapsCanon = true ∧ (s.rx n).reqs = r
      :: rest ∧ r.pol < 65536 ∧ s.metersPast r.key.stroke true = true ∧ s.rb (TM_POL.EN n r.pol) = false ∧ (∀ x ∈ (s.rx n).pushes, strokeLe x.stroke
      r.key.stroke = false)) ∧
(∃ (s : State) (n : Region) (r : MeterReq) (rest : List MeterReq) (prof : Profile), s.running = true ∧ s.regionOn n = true ∧ s.mapsCanon = true ∧
      (s.rx n).reqs = r :: rest ∧ r.pol < 65536 ∧ (∀ x ∈ (s.rx n).pushes, strokeLe x.stroke r.key.stroke = false) ∧ s.metersPast r.key.stroke true =
      true ∧ s.rb (TM_POL.EN n r.pol) = true ∧ s.profile n (s.rf (TM_POL.PROFILE n r.pol)) = prof) ∧
(∃ (s : State) (n : Region) (r : MeterReq) (rest : List MeterReq), s.regsCanon = true ∧ s.running = true ∧ s.regionOn n = true ∧ s.mapsCanon = true
      ∧ (s.rx n).reqs = r :: rest ∧ (∀ x ∈ (s.rx n).pushes, strokeLe x.stroke r.key.stroke = false) ∧ s.metersPast r.key.stroke true = true) ∧
(∃ (s : State) (n : Region) (r : MeterReq) (rest : List MeterReq) (chk : ReadCheck), s.running = true ∧ s.regionOn n = true ∧ (s.rx n).reqs = r ::
      rest ∧ s.metersPast r.key.stroke true = true) ∧
(∃ (s : State) (n : Region) (r : MeterReq) (rest : List MeterReq) (chk : ReadCheck), s.running = true ∧ s.regionOn n = true ∧ (s.rx n).reqs = r ::
      rest ∧ s.metersPast r.key.stroke true = false) ∧
(∃ (s : State) (n : Region) (v : Word), s.regsCanon = true ∧ s.hostOpen = true ∧ leadOk s.strokeNow (s.rf (TM_POL_SCHED_STROKE.STROKE n)) = true ∧
      64 ≤ (s.rx n).pushes.length) ∧
(∃ (s : State) (n : Region) (x : PolPush) (rest : List PolPush), s.regsCanon = true ∧ s.running = true ∧ s.mapsCanon = true ∧ (s.rx n).pushes = x ::
      rest ∧ (s.rx n).reqs = [] ∧ s.inSpan x.stroke = false ∧ s.metersPast x.stroke false = true ∧ strokeLe x.stroke s.strokeNow = true ∧ x.en < 2 ∧
      x.prof < 1024 ∧ x.pol < 65536) :=
⟨⟨ms, 3, 5, ⟨4, 1, 0⟩, { key := ⟨5, 1, 0⟩ }, [], 17, 100, 1, by decide +kernel⟩,
⟨ma [⟨6, 17, 1, 3⟩], 3, ⟨2, ⟨4, 1, 0⟩, 17, 100, 1⟩, [⟨2, ⟨4, 2, 0⟩, 17, 100, 1⟩], by decide +kernel⟩,
⟨ma2, 3, ⟨2, ⟨4, 1, 0⟩, 17, 100, 1⟩, [⟨2, ⟨4, 2, 0⟩, 17, 100, 1⟩], ma2.profile 3 0, by decide +kernel⟩,
⟨ma [], 3, ⟨2, ⟨4, 1, 0⟩, 17, 100, 1⟩, [⟨2, ⟨4, 2, 0⟩, 17, 100, 1⟩], by decide +kernel⟩,
⟨ma2, 3, ⟨2, ⟨4, 1, 0⟩, 17, 100, 1⟩, [⟨2, ⟨4, 2, 0⟩, 17, 100, 1⟩], .good, by decide +kernel⟩,
⟨ma2.setRx 0 { ma2.rx 0 with meterWm := 0 }, 3, ⟨2, ⟨4, 1, 0⟩, 17, 100, 1⟩, [⟨2, ⟨4, 2, 0⟩, 17, 100, 1⟩], .good, by decide +kernel⟩,
⟨(run.setRx 3 { run.rx 3 with pushes := List.replicate 64 ⟨6,17,1,3⟩ }).wf (TM_POL_SCHED_STROKE.STROKE 3) 100, 3, 0, by decide +kernel⟩,
⟨pa, 3, ⟨6, 17, 1, 3⟩, [], by decide +kernel⟩⟩

open Traffic in
/-- Clause by clause, something meets the hypotheses of Obligations.SelectionShapersAndGates. -/
theorem test_witness_SelectionShapersAndGates :
(∃ (s : State) (n l c st : Nat), s.choose n l = some (c, st)) ∧
(∃ (s : State) (n l q : Nat) (rest : List Nat), (s.rx n).promoted = q :: rest ∧ q / 16 = l ∧ s.classElig n l (q % 16) = true) ∧
(∃ (s : State) (n : Region) (l : Fin 66) (c q : Nat) (cyc : BitVec 11) (e : EgEnt), s.running = true ∧ s.regionOn n = true ∧ s.canon = true ∧ c < 16
      ∧ q = l * 16 + c ∧ (s.egq n q).ents = [e] ∧ (∀ k < 16, k ≠ c → (s.egq n (l * 16 + k)).ents = []) ∧ s.gated n l = false ∧ s.rf (TM_CLASS.RATE n
      q) = 0 ∧ s.rf (TM_GROUP.RATE n l (s.classGroup n q)) = 0 ∧ s.rf (TM_PORT.RATE n l) = 0 ∧ (s.egq n q).gateWait = none ∧ s.portServes n l = true
      ∧ s.paused n l c = false ∧ s.macReady n l = true ∧ (s.bufx n e.frame.buf).corrupt = false ∧ e.frame.buf < 2 ^ 18 ∧ 64 ≤ l.val) ∧
(∃ (s : State) (n : Region) (l : Fin 66) (c q : Nat) (cyc : BitVec 11) (e : EgEnt), s.running = true ∧ s.regionOn n = true ∧ s.canon = true ∧ c < 16
      ∧ q = l * 16 + c ∧ (s.egq n q).ents = [e] ∧ (∀ k < 16, k ≠ c → (s.egq n (l * 16 + k)).ents = []) ∧ s.gated n l = false ∧ s.rf (TM_CLASS.RATE n
      q) = 0 ∧ s.rf (TM_GROUP.RATE n l (s.classGroup n q)) = 0 ∧ s.rf (TM_PORT.RATE n l) = 0 ∧ (s.egq n q).gateWait = none ∧ s.portServes n l = true
      ∧ s.paused n l c = false ∧ s.macReady n l = true ∧ (s.bufx n e.frame.buf).corrupt = false ∧ e.frame.buf < 2 ^ 18 ∧ l.val < 64 ∧ s.lockstep =
      false ∧ s.tooOld n l e.frame = false ∧ ptpAt e.frame.data = none ∧ e.frame.bad = false ∧ e.frame.tx = none) ∧
(∃ (s : State) (n : Region) (l : Fin 66) (cyc : BitVec 11), s.running = true ∧ s.regionOn n = true ∧ s.gated n l = false ∧ s.macReady n l = false) ∧
(∃ (s : State) (n : Region) (l : Fin 66) (cyc : BitVec 11) (flt : SelectFault), (s.running = false ∨ s.regionOn n = false)) ∧
(∃ (s : State) (n : Region) (at_ : Nat), s.running = true ∧ s.regionOn n = true ∧ s.mapsCanon = true ∧ earliest (s.wheelSlots n) = some at_ ∧ at_ ≤
      s.orderNs) ∧
(∃ (s : State) (n : Region) (at_ : Nat), s.running = true ∧ s.regionOn n = true ∧ s.mapsCanon = true ∧ earliest (s.wheelSlots n) = some at_ ∧
      s.orderNs < at_) :=
⟨⟨base 44 3, 4, 44, 3, 3, by decide +kernel⟩,
⟨pm, 4, 44, 44*16+3, [], by decide +kernel⟩,
⟨base 65 3, 4, 65, 3, 65*16+3, 9, ⟨fr 3, 100⟩, by decide +kernel⟩,
⟨base 44 3, 4, 44, 3, 44*16+3, 9, ⟨fr 3, 100⟩, by decide +kernel⟩,
⟨(base 44 3).wf PAIR_STATUS.GATE 0, 4, 44, 9, by decide +kernel⟩,
⟨cfgS, 4, 44, 9, .mac, by decide +kernel⟩,
⟨tm w0 70, 4, 64, by decide +kernel⟩,
⟨tm w0 60, 4, 64, by decide +kernel⟩⟩

open Traffic in
/-- Clause by clause, something meets the hypotheses of Obligations.SelectionShapersAndGates. -/
theorem test_witness_SelectionShapersAndGates_2 :
(∃ (s : State) (n : Region) (l : Fin 66) (v : Word), s.regsCanon = true ∧ s.hostOpen = true ∧ l.val < 64 ∧ s.mapsCanon = true ∧ s.rb
      (TM_GATE_CTRL.PENDING n l) = false ∧ s.rf (TM_GATE_CTRL.CYCLE_NS n l) ≠ 0 ∧ v.toNat % 512 ≠ 0) ∧
(∃ (s : State) (n : Region) (l : Fin 66) (v : Word), s.regsCanon = true ∧ s.hostOpen = true ∧ l.val < 64 ∧ (s.rb (TM_GATE_CTRL.PENDING n l) = true ∨
      s.rf (TM_GATE_CTRL.CYCLE_NS n l) = 0 ∨ v.toNat % 512 = 0)) ∧
(∃ (s : State) (n : Region) (l : Fin 66) (v : Word), s.regsCanon = true ∧ s.hostOpen = true ∧ 64 ≤ l.val) ∧
(∃ (s : State) (n : Region) (l : Fin 64) (x : GateX) (at_ : Nat), s.alive = true ∧ s.canon = true ∧ s.gate n l = x ∧ x.pendAt = some at_ ∧ at_ ≤
      s.orderNs ∧ x.len ≤ 256 ∧ x.unit < 4 ∧ x.cycle < 2 ^ 32 ∧ (∀ c < 16, (s.egq n (l * 16 + c)).ents = [])) ∧
(∃ (s : State) (n : Region) (l : Fin 64) (x : GateX) (at_ : Nat), s.alive = true ∧ s.canon = true ∧ s.gate n l = x ∧ x.pendAt = some at_ ∧ s.orderNs
      < at_) ∧
(∃ (s : State) (n : Region) (l : Fin 64), (s.gate n l).pendAt = none) ∧
(∃ (s : State) (n : Region) (l : Fin 64), s.regsCanon = true ∧ s.gated n l = true ∧ s.running = true ∧ s.regionOn n = true) ∧
(∃ (s : State) (n : Region) (l : Fin 64), ∃ i : Fin 256, s.regsCanon = true ∧ s.gated n l = true ∧ s.running = true ∧ s.regionOn n = true ∧
      s.mapsCanon = true ∧ (∀ c < 16, (s.egq n (l * 16 + c)).ents = [])) :=
⟨⟨gs, 4, 44, 0xFFFFF705, by decide +kernel⟩,
⟨gs, 4, 44, 0x600, by decide +kernel⟩,
⟨gs, 4, 65, 0x305, by decide +kernel⟩,
⟨ga, 4, 44, ga.gate 4 44, 2500, by decide +kernel⟩,
⟨tm ga 1600, 4, 44, ga.gate 4 44, 2500, by decide +kernel⟩,
⟨gs, 4, 44, by decide +kernel⟩,
⟨g2, 4, 44, by decide +kernel⟩,
⟨g2, 4, 44, 255, by decide +kernel⟩⟩

open Traffic in
/-- Clause by clause, something meets the hypotheses of Obligations.SelectionShapersAndGates. -/
theorem test_witness_SelectionShapersAndGates_3 :
(∃ (s : State) (n : Region) (l : Fin 64) (bad : Option (Fin 256)), s.gated n l = false) ∧
(∃ (s : State) (n : Region) (q b : Nat), s.running = true ∧ s.regionOn n = true ∧ s.mapsCanon = true ∧ (s.rx n).dipAt = q ∧ histBin (mget 0 (s.rx
      n).eqUnits q) = b) ∧
(∃ (s : State) (n : Region) (v : Word) (q : Nat), s.regsCanon = true ∧ s.hostOpen = true ∧ s.mapsCanon = true ∧ q = v.toNat % 2048) :=
⟨⟨gs, 4, 44, some 3, by decide +kernel⟩,
⟨dp, 4, 1055, histBin 777, by decide +kernel⟩,
⟨nx (exec (.dipstickSample 4) dp), 4, BitVec.ofNat 32 1055, 1055, by decide +kernel⟩⟩

open Rest in
/-- Clause by clause, something meets the hypotheses of Obligations.SelectionShapersAndGates. -/
theorem test_witness_SelectionShapersAndGates_4 :
(∃ (s : State) (n l c : Nat), (s.rx n).promoted = [] ∧ c < 16 ∧ s.rb (TM_CLASS.STRICT n (l * 16 + c)) = true ∧ s.classElig n l c = true ∧ (∀ k, c <
      k → k < 16 → s.rb (TM_CLASS.STRICT n (l * 16 + k)) = false)) ∧
(∃ (s : State) (n : Region) (q : BitVec 11), s.running = true ∧ s.regionOn n = true ∧ s.mapsCanon = true ∧ q.toNat < 1056 ∧ s.classElig n (q.toNat /
      16) (q.toNat % 16) = false) ∧
(∃ (b : Bucket) (rate burst len t : Nat), 0 < rate ∧ b.last ≤ t ∧ b.tok ≤ ((burst * 8000 : Nat) : Int)) ∧
(∃ now base cycle : Nat, 0 < cycle) :=
⟨⟨strict15, 4, 44, 15, by decide +kernel, by decide +kernel, by decide +kernel, by decide +kernel, fun k h g => absurd g (by omega)⟩,
⟨run, 4, 1055, by decide +kernel⟩,
⟨{}, 1, 7, 64, 0, by decide +kernel⟩,
⟨0, 0, 1, by decide +kernel⟩⟩

open More Rest in
/-- Clause by clause, something meets the hypotheses of Obligations.SelectionShapersAndGates. -/
theorem test_witness_SelectionShapersAndGates_5 :
(∃ (s : State) (n : Region) (q : BitVec 11), s.regsCanon = true ∧ s.running = true ∧ s.regionOn n = true ∧ s.mapsCanon = true ∧ q.toNat < 1056 ∧
      s.rf (TM_CLASS.STARVE_US n q.toNat) ≠ 0 ∧ s.classElig n (q.toNat / 16) (q.toNat % 16) = true ∧ (s.egq n q.toNat).wasElig = true ∧ (∃ at_,
      (s.egq n q.toNat).since = some at_ ∧ at_ + s.rf (TM_CLASS.STARVE_US n q.toNat) * 1000 ≤ s.orderNs) ∧ q.toNat ∉ (s.rx n).promoted) ∧
(∃ (s : State) (n : Region) (q : BitVec 11), s.running = true ∧ s.regionOn n = true ∧ s.mapsCanon = true ∧ q.toNat < 1056 ∧ (s.egq n
      q.toNat).wasElig = true ∧ s.starved n q.toNat = false) :=
⟨⟨starveS, 4, 707, by decide +kernel⟩,
⟨eligS, 4, 707, by decide +kernel⟩⟩

open HostRings in
/-- Clause by clause, something meets the hypotheses of Obligations.DoorbellsAndRings. -/
theorem test_witness_DoorbellsAndRings :
(∃ (s : State) (r : RingIx) (v : Word), s.regsCanon = true ∧ s.hostOpen = true ∧ (s.ringState r = rsActive ∨ s.ringState r = rsBackpressure) ∧
      s.doorbellFault r v.toNat true = none ∧ fetched (s.ringType r) = true) ∧
(∃ (s : State) (r : RingIx) (v : Word), s.regsCanon = true ∧ s.hostOpen = true ∧ (s.ringState r = rsActive ∨ s.ringState r = rsBackpressure) ∧
      s.doorbellFault r v.toNat true = none ∧ fetched (s.ringType r) = false ∧ s.canon = true) ∧
(∃ (s : State) (r : RingIx) (v : Word) (full : Bool), s.regsCanon = true ∧ s.hostOpen = true ∧ (s.ringState r = rsDisabled ∨ s.ringState r =
      rsDisabling ∨ s.ringState r = rsFault)) ∧
(∃ (s : State) (r : RingIx) (v : Word) (full : Bool) (c : Nat), s.regsCanon = true ∧ s.alive = true ∧ (s.ringState r = rsActive ∨ s.ringState r =
      rsBackpressure) ∧ s.doorbellFault r v.toNat full = some c) ∧
(∃ (s : State) (r v : Nat), fetched (s.ringType r) = true ∧ ixDiff (s.ringHead r) (v % 2 ^ 17) < s.ringUsed r) ∧
(∃ (s : State) (r v : Nat), fetched (s.ringType r) = true ∧ s.ringUsed r ≤ s.ringSize r ∧ s.ringSize r < ixDiff (s.ringHead r) (v % 2 ^ 17)) ∧
(∃ (s : State) (r v : Nat), fetched (s.ringType r) = false ∧ s.ringUsed r < ixDiff (s.ringHead r) (v % 2 ^ 17)) ∧
(∃ (s : State) (bar4 : Bool) (off : BarOffset), s.regsCanon = true ∧ s.hostOpen = true) :=
⟨⟨d1', 5, 120, by decide +kernel⟩,
⟨d2, 5, BitVec.ofNat 32 (2^31 + 105), by decide +kernel⟩,
⟨run, 5, 120, true, by decide +kernel⟩,
⟨d1, 5, 120, false, 0x14, by decide +kernel⟩,
⟨d1, 5, 105, by decide +kernel⟩,
⟨d1, 5, 165, by decide +kernel⟩,
⟨d2, 5, 111, by decide +kernel⟩,
⟨run, true, 0x1234, by decide +kernel⟩⟩

open HostRings in
/-- Clause by clause, something meets the hypotheses of Obligations.DoorbellsAndRings. -/
theorem test_witness_DoorbellsAndRings_2 :
(∃ (s : State) (r : RingIx) (v : Word), s.regsCanon = true ∧ s.hostOpen = true ∧ s.ringState r = rsDisabled ∧ bits v.toNat 1 3 ≤ 4 ∧ bits v.toNat 4
      4 ≤ 10 ∧ (fetched (bits v.toNat 1 3) = true → s.ringIs (s.rf (HIF_RING_BIND.CQ r)) 2 = true) ∧ s.mapsCanon = true) ∧
(∃ (s : State) (r : RingIx) (v : Word), s.regsCanon = true ∧ s.hostOpen = true ∧ s.ringState r = rsDisabled ∧ (4 < bits v.toNat 1 3 ∨ 10 < bits
      v.toNat 4 4 ∨ (fetched (bits v.toNat 1 3) = true ∧ s.ringIs (s.rf (HIF_RING_BIND.CQ r)) 2 = false))) ∧
(∃ (s : State) (r : RingIx) (v : Word), s.regsCanon = true ∧ s.hostOpen = true ∧ s.ringState r ≠ rsDisabled ∧ bits v.toNat 1 8 ≠ bits (s.reg
      (HIF_RING_CTRL.w r)).toNat 1 8) ∧
(∃ (s : State) (r : RingIx) (v : Word), s.regsCanon = true ∧ s.hostOpen = true ∧ s.ringState r ≠ rsDisabled ∧ bits v.toNat 1 8 = bits (s.reg
      (HIF_RING_CTRL.w r)).toNat 1 8 ∧ s.ringState r ≠ rsDisabling) ∧
(∃ (s : State) (r : RingIx) (v : Word), s.regsCanon = true ∧ s.hostOpen = true ∧ (s.ringState r = rsActive ∨ s.ringState r = rsBackpressure ∨
      s.ringState r = rsFault) ∧ fetched (s.ringType r) = true ∧ s.mapsCanon = true) ∧
(∃ (s : State) (r : RingIx) (v : Word), s.regsCanon = true ∧ s.hostOpen = true ∧ s.ringState r = rsActive ∧ fetched (s.ringType r) = false ∧
      s.ringNeeded r = true) ∧
(∃ (s : State) (r : RingIx) (v : Word), s.regsCanon = true ∧ s.hostOpen = true ∧ s.ringState r = rsDisabling ∧ bits v.toNat 1 8 = bits (s.reg
      (HIF_RING_CTRL.w r)).toNat 1 8) ∧
(∃ (s : State) (r : RingIx) (v : Word), s.regsCanon = true ∧ s.hostOpen = true ∧ s.ringState r = rsDisabling ∧ bits v.toNat 1 8 ≠ bits (s.reg
      (HIF_RING_CTRL.w r)).toNat 1 8) :=
⟨⟨e0, 9, BitVec.ofNat 32 (2*3+16*10+256), by decide +kernel⟩,
⟨e0, 9, BitVec.ofNat 32 (2*5+16*3), by decide +kernel⟩,
⟨d2, 5, 0, by decide +kernel⟩,
⟨d2, 5, 9, by decide +kernel⟩,
⟨ds, 5, 0, by decide +kernel⟩,
⟨(d2.wf (CHIP_EVT_SRC.EN 7) 1).wf (CHIP_EVT_SRC.RING 7) 5, 5, 8, by decide +kernel⟩,
⟨ring run 5 3 3, 5, 6, by decide +kernel⟩,
⟨ring run 5 4 3, 5, 0, by decide +kernel⟩⟩

open HostRings in
/-- Clause by clause, something meets the hypotheses of Obligations.DoorbellsAndRings. -/
theorem test_witness_DoorbellsAndRings_3 :
(∃ (s : State) (r : RingIx) (v : Word), s.regsCanon = true ∧ s.hostOpen = true ∧ s.ringState r = rsDisabled) ∧
(∃ (s : State) (r : RingIx), s.canon = true ∧ s.alive = true ∧ s.ringState r = rsDisabling ∧ (s.ringX r).begun = 0) ∧
(∃ (s : State) (r : RingIx), s.canon = true ∧ s.alive = true ∧ s.ringState r = rsDisabling ∧ (s.ringX r).begun ≠ 0) ∧
(∃ (s : State) (v : Word) (r : Nat), s.regsCanon = true ∧ s.hostOpen = true ∧ r = bits v.toNat 0 14 ∧ s.rb HIF_RING_INVAL.BUSY = false ∧ fetched
      (s.ringType r) = true ∧ (s.ringState r = rsActive ∨ s.ringState r = rsBackpressure)) ∧
(∃ (s : State) (v : Word) (r : Nat), s.regsCanon = true ∧ s.hostOpen = true ∧ r = bits v.toNat 0 14 ∧ (s.rb HIF_RING_INVAL.BUSY = true ∨ fetched
      (s.ringType r) = false ∨ (s.ringState r ≠ rsActive ∧ s.ringState r ≠ rsBackpressure))) ∧
(∃ (s : State) (r : Nat), s.regsCanon = true ∧ s.alive = true ∧ s.rb HIF_RING_INVAL.BUSY = true ∧ r = s.invalRing ∧ r < 2 ^ 14 ∧ (s.ringX r).inval =
      true ∧ fetched (s.ringType r) = true ∧ (s.ringState r = rsActive ∨ s.ringState r = rsBackpressure) ∧ s.mapsCanon = true) ∧
(∃ s : State, s.rb HIF_RING_INVAL.BUSY = false) ∧
(∃ (s : State) (r : RingIx), s.alive = true ∧ s.canon = true ∧ (s.ringX r).hwbDue = true ∧ s.rb (HIF_RING_CTRL.HWB_EN r) = true) :=
⟨⟨e0, 9, BitVec.ofNat 32 (2*3+16*10+256), by decide +kernel⟩,
⟨dc, 5, by decide +kernel⟩,
⟨dc.setRingX 5 {begun := 2}, 5, by decide +kernel⟩,
⟨ds, 5, 5, by decide +kernel⟩,
⟨run.wf HIF_RING_INVAL.BUSY 1, 5, 5, by decide +kernel⟩,
⟨iv, 5, by decide +kernel⟩,
⟨run, by decide +kernel⟩,
⟨(dc.wf (HIF_RING_CTRL.HWB_EN 5) 1).setRingX 5 {hwbDue := true}, 5, by decide +kernel⟩⟩

open HostRings in
/-- Clause by clause, something meets the hypotheses of Obligations.DoorbellsAndRings. -/
theorem test_witness_DoorbellsAndRings_4 :
∃ (s : State) (r : RingIx), s.alive = true ∧ s.canon = true ∧ ((s.ringX r).hwbDue = false ∨ s.rb (HIF_RING_CTRL.HWB_EN r) = false) :=
⟨dc, 5, by decide +kernel⟩

open Rest in
/-- Clause by clause, something meets the hypotheses of Obligations.DoorbellsAndRings. -/
theorem test_witness_DoorbellsAndRings_5 :
∃ (s : State) (r : RingIx) (v : Word), s.regsCanon = true ∧ s.hostOpen = true ∧ s.ringState r = rsActive ∧ fetched (s.ringType r) = false ∧
      s.ringNeeded r = false :=
⟨ringAs run 7 2 1, 7, 4, by decide +kernel⟩

open HostRings in
/-- Clause by clause, something meets the hypotheses of Obligations.DescriptorsAndChains. -/
theorem test_witness_DescriptorsAndChains :
(∃ (s : State) (r : RingIx) (n : Fin 33) (k : Nat) (c new : List (List Nat)), s.regsCanon = true ∧ s.alive = true ∧ s.mapsCanon = true ∧ s.mayFetch
      r = true ∧ k = min n.val (s.fetchable r) ∧ k ≠ 0 ∧ (s.ringX r).entries = c ∧ new = (List.range k).map (fun i => s.hostWords (s.ringAddr r
      (s.ringHead r + c.length + i) 32) 8)) ∧
(∃ (s : State) (r : RingIx) (n : Fin 33) (k : Nat) (c new : List (List Nat)), s.regsCanon = true ∧ s.alive = true ∧ s.mapsCanon = true ∧ s.mayFetch
      r = true ∧ k = min n.val (s.fetchable r) ∧ k ≠ 0 ∧ (s.ringX r).entries = c ∧ new = (List.range k).map (fun i => s.hostWords (s.ringAddr r
      (s.ringHead r + c.length + i) 32) 8) ∧ (s.ringType r ≠ 0 ∨ chainFault 0 0 (c ++ new) = none)) ∧
(∃ (s : State) (c : HostCh) (x : TxX) (d : List Byte) (flags : Nat), s.alive = true ∧ s.txs.find? (fun x => x.chan = c.val && x.frags.isSome) = some
      x ∧ txChecksums x.csumIp x.csumL4 ((x.frags.getD []).flatMap (fun a => s.hostRead a.1 a.2)) = (d, flags)) ∧
(∃ (s : State) (c : HostCh) (err : Bool), s.txs.all (fun x => x.chan != c.val || x.frags.isNone) = true) :=
⟨⟨f1, 5, 9, 2, [], nw f1, by decide +kernel⟩,
⟨f1, 5, 9, 2, [], nw f1, by decide +kernel⟩,
⟨f4, 3, f4.txs.headD ⟨0,0,0,0,0,false,false,false,0,none,0,none⟩, (f4.hostRead 0x8000 10 ++ f4.hostRead 0x9000 50), 0, by decide +kernel⟩,
⟨f1, 3, false, by decide +kernel⟩⟩

open Rest in
/-- Clause by clause, something meets the hypotheses of Obligations.DescriptorsAndChains. -/
theorem test_witness_DescriptorsAndChains_2 :
(∃ (s : State) (r : RingIx) (n : Fin 33) (k : Nat) (c new : List (List Nat)), ∃ i : Fin 32, s.regsCanon = true ∧ s.alive = true ∧ s.mapsCanon = true
      ∧ s.mayFetch r = true ∧ k = min n.val (s.fetchable r) ∧ k ≠ 0 ∧ (s.ringX r).entries = c ∧ new = (List.range k).map (fun i => s.hostWords
      (s.ringAddr r (s.ringHead r + c.length + i) 32) 8) ∧ i.val < k ∧ (s.ringType r ≠ 0 ∨ chainFault 0 0 (c ++ new) = none)) ∧
(∃ (s : State) (r : RingIx) (n : Fin 33), s.regsCanon = true ∧ s.alive = true ∧ s.ringState r = rsBackpressure ∧ fetched (s.ringType r) = true ∧ n ≠
      0 ∧ s.fetchable r ≠ 0) ∧
(∃ (s : State) (r : RingIx) (n : Fin 33) (res : FetchResult), (s.alive = false ∨ n = 0 ∨ s.fetchable r = 0 ∨ (s.mayFetch r = false ∧ (s.ringState r
      ≠ rsBackpressure ∨ fetched (s.ringType r) = false ∨ res ≠ .failed)))) ∧
(∃ (s : State) (c : HostCh) (r : Nat) (l : List (List Nat)), s.regsCanon = true ∧ s.running = true ∧ s.chip.quiescing = false ∧ s.mapsCanon = true ∧
      nextRing (mget 0 s.rrHost c) (s.ringsUsed.filter (fun r => s.chainReady c r)) = some r ∧ chainOf (s.ringX r).entries = some l ∧ s.upsetIn r
      l.length = none ∧ chainBad l = none) ∧
(∃ (s : State) (c : HostCh) (r : Nat) (l : List (List Nat)), ∃ i : Fin 64, s.regsCanon = true ∧ s.running = true ∧ s.chip.quiescing = false ∧
      s.mapsCanon = true ∧ nextRing (mget 0 s.rrHost c) (s.ringsUsed.filter (fun r => s.chainReady c r)) = some r ∧ chainOf (s.ringX r).entries =
      some l ∧ i.val < l.length) ∧
(∃ (s : State) (c : HostCh) (r : Nat) (l : List (List Nat)), ∃ u, s.regsCanon = true ∧ s.running = true ∧ s.chip.quiescing = false ∧ s.mapsCanon =
      true ∧ nextRing (mget 0 s.rrHost c) (s.ringsUsed.filter (fun r => s.chainReady c r)) = some r ∧ chainOf (s.ringX r).entries = some l ∧
      s.upsetIn r l.length = some u) ∧
(∃ (s : State) (r : RingIx) (h : Nat), s.canon = true) ∧
(∃ (s : State) (r : RingIx) (h : Nat), s.canon = true ∧ h ∉ (s.ringX r).misAt) :=
⟨⟨f1, 5, 32, _, [], _, 1, by decide +kernel, by decide +kernel, by decide +kernel, by decide +kernel, rfl, by decide +kernel, by decide +kernel,
      rfl, by decide +kernel⟩,
⟨f1.wf (HIF_RING_STATUS.STATE 5) 2, 5, 1, by decide +kernel⟩,
⟨f1, 5, 0, .good, by decide +kernel⟩,
⟨f3, 3, 5, nw f1, by decide +kernel⟩,
⟨f3, 3, 5, nw f1, 1, by decide +kernel⟩,
⟨f3.setRingX 5 { f3.ringX 5 with upset := [1] }, 3, 5, nw f1, 1, by decide +kernel⟩,
⟨f1.wf (HIF_RING_STATUS.STATE 5) 2, 5, 1, by decide +kernel⟩,
⟨f1.wf (HIF_RING_STATUS.STATE 5) 2, 5, 1, by decide +kernel⟩⟩

open Rest in
/-- Clause by clause, something meets the hypotheses of Obligations.DescriptorsAndChains. -/
theorem test_witness_DescriptorsAndChains_3 :
(∃ (s : State) (r : RingIx) (h : Nat), s.canon = true ∧ h ∈ (s.ringX r).misAt) ∧
(∃ (s : State) (c : HostCh) (mis : Option (Fin 64)), (s.running = false ∨ s.chip.quiescing = true ∨ s.ringsUsed.filter (fun r => s.chainReady c r) =
      [])) ∧
(∃ (s : State) (x : TxX) (d : List Byte), x.chan < 16 ∧ (s.running = false ∨ s.regionRuns (x.chan / 2) = false ∨ s.chip.quiescing = true)) ∧
(∃ (x : TxX) (w2 w3 st : Nat), x.cpl = none) ∧
(∃ (x : TxX) (w2 w3 st : Nat), x.cpl.isSome = true) :=
⟨⟨f3.setRingX 5 { f3.ringX 5 with misAt := [0] }, 5, 0, by decide +kernel⟩,
⟨run, 3, none, by decide +kernel⟩,
⟨cfgS, tx0, [], by decide +kernel⟩,
⟨tx0, 0, 0, 0, by decide +kernel⟩,
⟨{ tx0 with cpl := some [] }, 0, 0, 0, by decide +kernel⟩⟩

open More Rest in
/-- Clause by clause, something meets the hypotheses of Obligations.DescriptorsAndChains. -/
theorem test_witness_DescriptorsAndChains_4 :
(∃ (s : State) (r : RingIx) (n : Fin 33) (k : Nat) (c new : List (List Nat)), ∃ code i, s.regsCanon = true ∧ s.alive = true ∧ s.mapsCanon = true ∧
      s.mayFetch r = true ∧ k = min n.val (s.fetchable r) ∧ k ≠ 0 ∧ (s.ringX r).entries = c ∧ new = (List.range k).map (fun i => s.hostWords
      (s.ringAddr r (s.ringHead r + c.length + i) 32) 8) ∧ s.ringType r = 0 ∧ chainFault 0 0 (c ++ new) = some (code, i) ∧ code < 256) ∧
(∃ (s : State) (c : HostCh) (r : Nat) (l : List (List Nat)), ∃ code i, s.regsCanon = true ∧ s.running = true ∧ s.chip.quiescing = false ∧
      s.mapsCanon = true ∧ nextRing (mget 0 s.rrHost c) (s.ringsUsed.filter (fun r => s.chainReady c r)) = some r ∧ chainOf (s.ringX r).entries =
      some l ∧ s.upsetIn r l.length = none ∧ chainBad l = some (code, i)) :=
⟨⟨f1bad, 5, 32, _, [], _, 0x1C, 1, by decide +kernel, by decide +kernel, by decide +kernel, by decide +kernel, rfl, by decide +kernel,
      by decide +kernel, rfl, by decide +kernel⟩,
⟨f3bad, 3, 5, short, 0x1A, 0, by decide +kernel⟩⟩

open HostRings in
/-- Clause by clause, something meets the hypotheses of Obligations.HostDeliveryAndMessages. -/
theorem test_witness_HostDeliveryAndMessages :
(∃ (s : State) (ch : HostCh) (f : Frame) (c n k : Nat), ∃ flt : HostRxFault, s.regsCanon = true ∧ s.alive = true ∧ s.mapsCanon = true ∧ mget none
      s.hostRx ch = some (f, c) ∧ n = ch / 2 ∧ k = ch % 2 ∧ flt ≠ .data ∧ (s.rb (PB_HOST_FILT_CFG.PROMISC n k) = true ∨ (s.vlanPass n k f.data =
      true ∧ s.addrPass n k f.data = true))) ∧
(∃ (s : State) (ch : HostCh) (f : Frame) (c n k : Nat), ∃ flt : HostRxFault, s.regsCanon = true ∧ s.alive = true ∧ s.mapsCanon = true ∧ mget none
      s.hostRx ch = some (f, c) ∧ n = ch / 2 ∧ k = ch % 2 ∧ flt ≠ .data ∧ s.rb (PB_HOST_FILT_CFG.PROMISC n k) = false ∧ (s.vlanPass n k f.data =
      false ∨ s.addrPass n k f.data = false)) ∧
(∃ (s : State) (ch : HostCh) (f : Frame) (c n k : Nat), s.regsCanon = true ∧ s.alive = true ∧ s.mapsCanon = true ∧ mget none s.hostRx ch = some (f,
      c) ∧ n = ch / 2 ∧ k = ch % 2 ∧ f.buf < 2 ^ 18) ∧
(∃ (s : State) (ch c r : Nat) (f : Frame), ∃ flt : HostRxFault, s.steer ch c f = r ∧ s.takesFrames ch r = false) ∧
(∃ (s : State) (ch c r : Nat) (f : Frame), s.steer ch c f = r ∧ s.takesFrames ch r = true ∧ (s.ringX r).upset = [] ∧ takeBufs f.data.length
      (s.posted r 64) = none) ∧
(∃ (s : State) (r : RingIx) (f : Frame) (n : Region), s.regsCanon = true ∧ s.reg CT_STATUS.w = 0) ∧
(∃ (s : State) (r : RingIx) (v : Nat), s.regsCanon = true ∧ s.alive = true ∧ s.mapsCanon = true ∧ (s.ringX r).timer = true ∧ s.rb
      (HIF_RING_STATUS.ARMED r) = true ∧ 1 ≤ s.ringUsed r ∧ s.rf (HIF_RING_BIND.VECTOR r) = v) ∧
(∃ (s : State) (r : RingIx), ((s.ringX r).timer = false ∨ s.alive = false)) :=
⟨⟨(h0.wf (PB_HOST_FILT_CFG.PROMISC 4 1) 1), 9, hfr, 2, 4, 1, (.good : HostRxFault), by decide +kernel⟩,
⟨h0, 9, hfr, 2, 4, 1, (.good : HostRxFault), by decide +kernel⟩,
⟨h0, 9, hfr, 2, 4, 1, by decide +kernel⟩,
⟨ring run 0 0 1, 0, 0, 0, hfr, (.good : HostRxFault), by decide +kernel⟩,
⟨ring run 0 1 1, 0, 0, 0, hfr, by decide +kernel⟩,
⟨run, 5, hfr, 3, by decide +kernel⟩,
⟨mt', 5, 1999, by decide +kernel⟩,
⟨d2, 5, by decide +kernel⟩⟩

open HostRings in
/-- Clause by clause, something meets the hypotheses of Obligations.HostDeliveryAndMessages. -/
theorem test_witness_HostDeliveryAndMessages_2 :
(∃ (s : State) (v : BitVec 11) (x : Word), s.regsCanon = true ∧ s.hostOpen = true ∧ s.cfg.fnMask = false ∧ (s.reg (MSIX_PBA.w (v.toNat /
      32))).getLsbD (v.toNat % 32) = true) ∧
(∃ (s : State) (v : BitVec 11) (x : Word), s.regsCanon = true ∧ s.hostOpen = true ∧ s.cfg.fnMask = false ∧ (s.reg (MSIX_PBA.w (v.toNat /
      32))).getLsbD (v.toNat % 32) = false) ∧
(∃ (s : State) (v : BitVec 11) (x : Word), s.regsCanon = true ∧ s.hostOpen = true ∧ s.cfg.fnMask = true) ∧
(∃ (s : State) (r : RingIx) (e : EvtRec) (rest : List EvtRec) (i : Nat), s.canon = true ∧ s.alive = true ∧ s.ringIs r 4 = true ∧ takeRec (fun e =>
      s.evtRing e.src = some r.val) s.evts = some (e, rest) ∧ e.payload = [] ∧ 1 ≤ s.ringFree r ∧ i = s.ringTail r ∧ e.src < 4096 ∧ e.kind < 16 ∧
      e.w1 < 2 ^ 32 ∧ e.w2 < 2 ^ 32 ∧ e.w3 < 2 ^ 31) ∧
(∃ (s : State) (r : RingIx), (s.ringIs r 4 = false ∨ takeRec (fun e => s.evtRing e.src = some r.val) s.evts = none)) ∧
(∃ s : State, ∃ a, s.cfg.pmeStatus = true ∧ s.cfg.pmeAt = some a ∧ a + 100000000 ≤ s.time.tick ∧ s.cfg.power ≠ 4) ∧
(∃ s : State, (s.cfg.pmeStatus = false ∨ s.cfg.pmeAt = none ∨ s.cfg.power = 4 ∨ ∃ a, s.cfg.pmeAt = some a ∧ s.time.tick < a + 100000000)) :=
⟨⟨um, 1999, 0xFFFFFFFF, by decide +kernel⟩,
⟨run, 1999, 0xFFFFFFFF, by decide +kernel⟩,
⟨{um with cfg := {fnMask := true}}, 1999, 0xFFFFFFFF, by decide +kernel⟩,
⟨ev, 5, er, [⟨0x124, 1, 7, 8, 9, []⟩], 110, by decide +kernel⟩,
⟨d2, 5, by decide +kernel⟩,
⟨{ run with cfg := { run.cfg with pmeStatus := true, pmeAt := some 5 }, time := { run.time with tick := 100000005 } }, 5, by decide +kernel⟩,
⟨run, by decide +kernel⟩⟩

open Rest in
/-- Clause by clause, something meets the hypotheses of Obligations.HostDeliveryAndMessages. -/
theorem test_witness_HostDeliveryAndMessages_3 :
(∃ (s : State) (ch : HostCh) (flt : HostRxFault), (mget none s.hostRx ch = none ∨ s.alive = false)) ∧
(∃ (len : Nat) (es : List (List Nat)) (l : List (List Nat × Nat)), takeBufs len es = some l) ∧
(∃ (len : Nat) (es : List (List Nat)) (l : List (List Nat × Nat)), ∃ p, takeBufs len es = some l ∧ p ∈ l) :=
⟨⟨run, 0, .good, by decide +kernel⟩,
⟨80, [[0, 50], [0, 64]], [([0, 50], 50), ([0, 64], 30)], by decide +kernel⟩,
⟨80, [[0, 50], [0, 64]], [([0, 50], 50), ([0, 64], 30)], ([0, 64], 30), by decide +kernel⟩⟩

open More Rest in
/-- Clause by clause, something meets the hypotheses of Obligations.HostDeliveryAndMessages. -/
theorem test_witness_HostDeliveryAndMessages_4 :
(∃ (s : State) (ch c r : Nat) (f : Frame), ∃ l, s.steer ch c f = r ∧ s.takesFrames ch r = true ∧ (s.ringX r).upset = [] ∧ takeBufs f.data.length
      (s.posted r 64) = some l ∧ (s.fetchPosted r l.length).cqFree (s.rf (HIF_RING_BIND.CQ r)) < (l.length : Int)) ∧
(∃ (s : State) (ch c r : Nat) (f : Frame), s.steer ch c f = r ∧ s.regsCanon = true ∧ ch < 16 ∧ s.takesFrames ch r = true ∧ (s.ringX r).upset = [] ∧
      (s.ringX r).entries.length < ((takeBufs f.data.length (s.posted r 64)).map (·.length)).getD (s.posted r 64).length) :=
⟨⟨cqOut, 0, 0, 0, HostRings.hfr, [(rxd, 80)], by decide +kernel⟩,
⟨rxOne, 0, 0, 0, HostRings.hfr, by decide +kernel⟩⟩

open More Rest in
/-- Clause by clause, something meets the hypotheses of Obligations.HbmCommandsReadsAndRefresh. -/
theorem test_witness_HbmCommandsReadsAndRefresh :
(∃ (s : State) (st : Stack) (q : PseudoCh) (l : List HbmAsk), s.alive = true ∧ s.mapsCanon = true ∧ hcActive ≤ s.chState st (q / 2) ∧ s.chState st
      (q / 2) ≠ hcFenced) ∧
(∃ (s u : State) (st : Stack) (q : PseudoCh) (ready : BitVec 7) (w : HbmSlot) (x : HbmPc) (k : Nat) (l : List HbmReq) (req : Option HbmReq), s.alive
      = true ∧ s.mapsCanon = true ∧ s.takeAsks st q w.asks = u ∧ u.hpc st q = x ∧ s.chState st (q / 2) = hcActive ∧ s.hbmBusy st = false ∧
      x.retry.length < 64 ∧ 2 ≤ k ∧ k < 7 ∧ ready.getLsbD k = true ∧ (((∀ j < k, ready.getLsbD j = false) ∧ (k = 6 ∨ s.passOn st q = false ∨
      x.denied < 255 ∨ ready.getLsbD 6 = false)) ∨ (k = 6 ∧ s.passOn st q = true ∧ 255 ≤ x.denied)) ∧ x.legal w.cmd = true ∧ u.hbmServes st q k
      w.cmd = some (l, req)) ∧
(∃ (s : State) (st : Stack) (q : PseudoCh) (ready : BitVec 7) (w : HbmSlot) (r : RetryEnt) (rest : List RetryEnt), s.regsCanon = true ∧ (s.alive =
      true ∨ s.halted = true) ∧ s.mapsCanon = true ∧ s.chState st (q / 2) = hcReplay ∧ s.hbmBusy st = false ∧ (s.hpc st q).retry.length < 64 ∧
      (s.hpc st q).replay = r :: rest ∧ ready.getLsbD 1 = true ∧ (s.hpc st q).legal r.cmd = true) ∧
(∃ (s : State) (st : Stack) (q : PseudoCh) (i : BitVec 8) (c : HbmCmd) (req : Option HbmReq), s.regsCanon = true ∧ (s.alive = true ∨ s.halted =
      true) ∧ s.mapsCanon = true ∧ (s.hpc st q).reads[i.toNat]? = some (c, req) ∧ req.any (·.again) = true) ∧
(∃ (s : State) (st : Stack) (q : PseudoCh) (post : Bool) (x : HbmPc) (b : Nat), (s.alive = true ∨ s.halted = true) ∧ s.mapsCanon = true ∧ s.hpc st q
      = x ∧ s.chState st (q / 2) = hcActive ∧ b = x.refBank % s.hbmBanks ∧ post = true ∧ (∃ r ∈ x.queue, (s.hbmTarget st q r.ask).1 = b) ∧ mget 0
      x.postponed b < bits (s.hctl st).cfg 17 4) :=
⟨⟨Hbm.b0, 2, 7, [ask3], by decide +kernel⟩,
⟨Hbm.s0, _, 2, 7, 8, { asks := [ask3], cmd := ⟨.rd, 3, 5, 3⟩ }, _, 3, [], some { ask := ask3 }, by decide +kernel, by decide +kernel, rfl, rfl,
      by decide +kernel⟩,
⟨replS, 2, 7, 2, { cmd := hcmd .rd }, { cmd := hcmd .act, alerts := 1 }, [], by decide +kernel⟩,
⟨Hbm.b0.setHpc 2 7 Hbm.x2, 2, 7, 1, Hbm.cmd .rd 3 5, some { ask := ask3, again := true }, by decide +kernel⟩,
⟨postS, 2, 7, true, _, _, by decide +kernel, by decide +kernel, rfl, by decide +kernel, rfl, by decide +kernel⟩⟩

open Hbm in
/-- Clause by clause, something meets the hypotheses of Obligations.HbmCommandsReadsAndRefresh. -/
theorem test_witness_HbmCommandsReadsAndRefresh_2 :
(∃ (s : State) (st : Stack) (q : PseudoCh) (ready : BitVec 7) (w : HbmSlot) (m : HbmCmd × Bool) (rest : List (HbmCmd × Bool)), (s.alive = true ∨
      s.halted = true) ∧ s.mapsCanon = true ∧ s.chState st (q / 2) = hcActive ∧ s.hbmBusy st = false ∧ (s.hpc st q).retry.length < 64 ∧ (s.hpc st
      q).maint = m :: rest ∧ (s.passOn st q = false ∨ (s.hpc st q).denied < 255 ∨ ready.getLsbD 6 = false) ∧ ready.getLsbD 0 = true ∧ (s.hpc st
      q).legal m.1 = true) ∧
(∃ (s : State) (st : Stack) (q : PseudoCh) (ready : BitVec 7) (w : HbmSlot), ((s.alive = false ∧ s.halted = false) ∨ s.hbmBusy st = true ∨ 64 ≤
      (s.hpc st q).retry.length ∨ (s.chState st (q / 2) ≠ hcActive ∧ s.chState st (q / 2) ≠ hcReplay) ∨ ready = 0)) ∧
(∃ (s : State) (st : Stack) (q : PseudoCh), (s.alive = true ∨ s.halted = true) ∧ s.mapsCanon = true) ∧
(∃ (s : State) (st : Stack) (q : PseudoCh) (i : BitVec 8) (c : HbmCmd) (req : Option HbmReq), s.regsCanon = true ∧ (s.alive = true ∨ s.halted =
      true) ∧ s.mapsCanon = true ∧ (s.hpc st q).reads[i.toNat]? = some (c, req)) ∧
(∃ (s : State) (st : Stack) (q : PseudoCh) (i : BitVec 8) (c : HbmCmd) (req : Option HbmReq), s.regsCanon = true ∧ (s.alive = true ∨ s.halted =
      true) ∧ s.mapsCanon = true ∧ (s.hpc st q).reads[i.toNat]? = some (c, req) ∧ req.any (·.again) = false) ∧
(∃ (s : State) (st : Stack) (q : PseudoCh) (i : BitVec 8) (bad : Bool), (s.hpc st q).reads.length ≤ i.toNat) ∧
(∃ (s : State) (st : Stack) (q : PseudoCh) (post : Bool) (x : HbmPc) (b : Nat), (s.alive = true ∨ s.halted = true) ∧ s.mapsCanon = true ∧ s.hpc st q
      = x ∧ s.chState st (q / 2) = hcActive ∧ b = x.refBank % s.hbmBanks ∧ (post = false ∨ (∀ r ∈ x.queue, (s.hbmTarget st q r.ask).1 ≠ b) ∨ bits
      (s.hctl st).cfg 17 4 ≤ mget 0 x.postponed b)) ∧
(∃ (s : State) (st : Stack) (v : Byte), s.regsCanon = true ∧ (s.alive = true ∨ s.halted = true)) :=
⟨⟨b0.setHpc 2 7 x1, 2, 7, 1, { cmd := cmd .rd }, (cmd .pre, true), [(cmd .ref, false)], by decide +kernel⟩,
⟨run, 2, 7, 0, { cmd := cmd .rd }, by decide +kernel⟩,
⟨s0, 2, 7, by decide +kernel⟩,
⟨b0.setHpc 2 7 x2, 2, 7, 0, cmd .rd, none, by decide +kernel⟩,
⟨b0.setHpc 2 7 x2, 2, 7, 0, cmd .rd, none, by decide +kernel⟩,
⟨b0.setHpc 2 7 x2, 2, 7, 2, true, by decide +kernel⟩,
⟨b0.setHpc 2 7 x3, 2, 7, false, _, _, by decide +kernel, by decide +kernel, rfl, by decide +kernel, rfl, by decide +kernel⟩,
⟨run.wf (HBM_TEMP.HOT_C 2) 90, 2, 95, by decide +kernel⟩⟩

open Hbm in
/-- Clause by clause, something meets the hypotheses of Obligations.HbmCommandsReadsAndRefresh. -/
theorem test_witness_HbmCommandsReadsAndRefresh_3 :
(∃ (s : State) (st : Stack), (s.alive = true ∨ s.halted = true) ∧ s.mapsCanon = true) ∧
(∃ (s : State) (st : Stack) (q : PseudoCh) (bank : BitVec 5) (i r k : Nat), s.regsCanon = true ∧ (s.alive = true ∨ s.halted = true) ∧ s.mapsCanon =
      true ∧ findIdx (fun p => decide (bits (s.hctl st).cfg 0 16 ≤ p.2)) (mget [] (s.hpc st q).acts bank.toNat) = some i ∧ (mget [] (s.hpc st
      q).acts bank.toNat)[i]? = some (r, k) ∧ r < 16384) ∧
(∃ (s : State) (st : Stack) (q : PseudoCh) (bank : BitVec 5), (∀ p ∈ mget [] (s.hpc st q).acts bank.toNat, p.2 < bits (s.hctl st).cfg 0 16)) :=
⟨⟨(s0.setHpc 1 4 x0).setReg (HBM_CFG.w 2) 77, 2, by decide +kernel⟩,
⟨s4, 2, 7, 7, 1, 5, 0x7fff, by decide +kernel⟩,
⟨s4, 2, 7, 6, by decide +kernel⟩⟩

open Rest in
/-- Clause by clause, something meets the hypotheses of Obligations.HbmCommandsReadsAndRefresh. -/
theorem test_witness_HbmCommandsReadsAndRefresh_4 :
(∃ (x : HbmPc) (c : HbmCmd), x.legal c = true ∧ (c.op = .rd ∨ c.op = .wr)) ∧
(∃ (x : HbmPc) (c : HbmCmd), x.legal c = true ∧ (c.op = .act ∨ c.op = .ref)) ∧
(∃ (s : State) (st : Stack) (q : PseudoCh) (post : Bool), s.chState st (q / 2) ≠ hcActive) :=
⟨⟨{ rows := [(7, some 999)] }, hcmd .rd, by decide +kernel⟩,
⟨{}, hcmd .act, by decide +kernel⟩,
⟨run, 2, 7, false, by decide +kernel⟩⟩

open Hbm in
/-- Clause by clause, something meets the hypotheses of Obligations.ReplayRetrainFenceFrequency. -/
theorem test_witness_ReplayRetrainFenceFrequency :
(∃ (s : State) (st : Stack) (c : Channel) (a b : HbmPc), s.regsCanon = true ∧ s.alive = true ∧ s.mapsCanon = true ∧ s.hpc st (2 * c) = a ∧ s.hpc st
      (2 * c + 1) = b ∧ (s.chState st c = hcActive ∨ s.chState st c = hcSlice ∨ s.chState st c = hcReplay) ∧ (∀ r ∈ a.retry ++ b.retry, r.alerts <
      2)) ∧
(∃ (s : State) (st : Stack) (c : Channel) (r : RetryEnt), s.regsCanon = true ∧ s.alive = true ∧ s.mapsCanon = true ∧ (s.chState st c = hcActive ∨
      s.chState st c = hcSlice ∨ s.chState st c = hcReplay) ∧ (r ∈ (s.hpc st (2 * c)).retry ∨ r ∈ (s.hpc st (2 * c + 1)).retry) ∧ 2 ≤ r.alerts) ∧
(∃ (s : State) (st : Stack) (c : Channel) (passes : List (Bool × Fin 32 × Oct)) (staged : List (Bool × BitVec 14 × BitVec 48 × BitVec 10 × BitVec
      16)), (s.chState st c ≠ hcActive ∧ s.chState st c ≠ hcSlice ∧ s.chState st c ≠ hcReplay)) ∧
(∃ (s : State) (st : Stack) (c : Channel) (v : Word), s.regsCanon = true ∧ s.hostOpen = true ∧ v.getLsbD 1 = false ∧ s.chState st c = hcActive ∧
      s.rb (HBM_CH_STATUS.RETRAINING st c) = false) ∧
(∃ (s : State) (st : Stack) (c : Channel) (v : Word), s.regsCanon = true ∧ s.hostOpen = true ∧ v.getLsbD 1 = false ∧ (s.chState st c ≠ hcActive ∨
      s.rb (HBM_CH_STATUS.RETRAINING st c) = true)) ∧
(∃ (s : State) (st : Stack) (c : Channel), s.regsCanon = true ∧ (s.alive = true ∨ s.halted = true) ∧ s.rb (HBM_CH_STATUS.RETRAINING st c) = true ∧
      s.chState st c = hcActive ∧ s.hbmBusy st = false) ∧
(∃ (s : State) (st : Stack) (c : Channel), s.regsCanon = true ∧ (s.alive = true ∨ s.halted = true) ∧ s.rb (HBM_CH_STATUS.RETRAINING st c) = true ∧
      s.chState st c = hcSlice) ∧
(∃ (s : State) (st : Stack) (c : Channel), s.regsCanon = true ∧ (s.alive = true ∨ s.halted = true) ∧ s.rb (HBM_CH_STATUS.RETRAINING st c) = false) :=
⟨⟨al, 2, 3, al.hpc 2 6, al.hpc 2 7, by decide +kernel⟩,
⟨b0.setHpc 2 6 { retry := [⟨cmd .act, 2, false, none⟩] }, 2, 3, ⟨cmd .act, 2, false, none⟩, by decide +kernel⟩,
⟨run, 2, 3, [(true, 3, 2)], [], by decide +kernel⟩,
⟨b0, 2, 3, 0, by decide +kernel⟩,
⟨run, 2, 3, 0, by decide +kernel⟩,
⟨rt, 2, 3, by decide +kernel⟩,
⟨nx (exec (.retrainSlice 2 3 0) rt), 2, 3, by decide +kernel⟩,
⟨b0, 2, 3, by decide +kernel⟩⟩

open Hbm in
/-- Clause by clause, something meets the hypotheses of Obligations.ReplayRetrainFenceFrequency. -/
theorem test_witness_ReplayRetrainFenceFrequency_2 :
(∃ (s : State) (st : Stack) (v : Word), s.regsCanon = true ∧ s.hostOpen = true ∧ s.hbmBusy st = false ∧ (∀ c < 16, s.chState st c ≠ hcSlice) ∧ bits
      v.toNat 0 2 ≠ 0 ∧ s.mapsCanon = true) ∧
(∃ (s : State) (st : Stack) (v : Word), s.regsCanon = true ∧ s.hostOpen = true ∧ (s.hbmBusy st = true ∨ (∃ c : Channel, s.chState st c = hcSlice) ∨
      bits v.toNat 0 2 = 0)) ∧
(∃ (s : State) (st : Stack) (fail : BitVec 16) (us : Byte), s.regsCanon = true ∧ s.alive = true ∧ s.hbmBusy st = true ∧ (∀ c : Channel, s.chState st
      c = hcSelfref → fail.getLsbD c = false) ∧ (s.hctl st).rateTo < 4) ∧
(∃ (s : State) (st : Stack) (fail : BitVec 16) (us : Byte) (c : Channel), s.canon = true ∧ s.alive = true ∧ s.hbmBusy st = true ∧ s.chState st c =
      hcSelfref ∧ fail.getLsbD c = true) ∧
(∃ (s : State) (st : Stack) (fail : BitVec 16) (us : Byte), s.hbmBusy st = false) :=
⟨⟨(al.wf (HBM_STATUS.LIVE_CH 2) 0x0008), 2, 2, by decide +kernel⟩,
⟨al, 2, 0, by decide +kernel⟩,
⟨fq, 2, 0xFFF7, 33, by decide +kernel⟩,
⟨fq, 2, 0x0008, 33, 3, by decide +kernel⟩,
⟨run, 2, 0xFFF7, 33, by decide +kernel⟩⟩

open Rest in
/-- Clause by clause, something meets the hypotheses of Obligations.ReplayRetrainFenceFrequency. -/
theorem test_witness_ReplayRetrainFenceFrequency_3 :
(∃ (s : State) (st : Stack) (c : Channel) (v : Word), s.regsCanon = true ∧ s.hostOpen = true ∧ v.getLsbD 0 = false ∧ s.chState st c ≠ 0 ∧ s.chState
      st c ≠ hcFenced ∧ s.mapsCanon = true) ∧
(∃ (s : State) (st : Stack) (c : Channel) (v : Word), s.regsCanon = true ∧ s.hostOpen = true ∧ v.getLsbD 0 = false ∧ (s.chState st c = 0 ∨ s.chState
      st c = hcFenced)) :=
⟨⟨chanUp, 2, 15, 2, by decide +kernel⟩,
⟨run, 2, 15, 2, by decide +kernel⟩⟩

open Pair in
/-- Clause by clause, something meets the hypotheses of Obligations.PairInterlock. -/
theorem test_witness_PairInterlock :
(∃ s : State, s.regsCanon = true ∧ s.halted = false ∧ s.pairx.heldIn = false ∧ s.pairRuns = true ∧ s.pairState = 1) ∧
(∃ s : State, s.regsCanon = true ∧ s.halted = false ∧ s.pairx.heldIn = false ∧ (s.pairRuns = false ∨ s.pairState ≠ 1)) ∧
(∃ s : State, s.regsCanon = true ∧ s.halted = false ∧ s.pairx.heldIn = true) ∧
(∃ (s : State) (h : Bool), s.halted = true ∧ s.pairx.heldIn ≠ h) ∧
(∃ (s : State) (h : Bool), s.pairx.heldIn = h) ∧
(∃ s : State, s.regsCanon = true ∧ s.halted = false ∧ s.lineHeld = false ∧ s.pairRuns = true ∧ s.pairState = 0 ∧ s.rb PAIR_STATUS.HOLD_OUT = true ∧
      s.pairx.claiming = false) ∧
(∃ s : State, s.regsCanon = true ∧ s.halted = false ∧ s.lineHeld = false ∧ s.pairRuns = true ∧ s.pairState = 2 ∧ s.rb PAIR_STATUS.HOLD_OUT = false ∧
      (s.rb PAIR_STATUS.LINK = false ∨ s.pairx.peerHolding = false) ∧ s.pairx.claiming = false ∧ s.pairx.backoff = false ∧ s.pairx.acked = false ∧
      s.rb CHIP_STROKE_CFG.SRC_LEDGER = false) ∧
(∃ s : State, s.regsCanon = true ∧ s.halted = false ∧ s.lineHeld = false ∧ s.pairRuns = false) :=
⟨⟨actv, by decide +kernel⟩,
⟨sb, by decide +kernel⟩,
⟨px run {heldIn := true, chatter := true}, by decide +kernel⟩,
⟨inState 6, true, by decide +kernel⟩,
⟨run, false, by decide +kernel⟩,
⟨run.wf PAIR_STATUS.HOLD_OUT 1, by decide +kernel⟩,
⟨sb, by decide +kernel⟩,
⟨cfgS, by decide +kernel⟩⟩

open Pair in
/-- Clause by clause, something meets the hypotheses of Obligations.PairInterlock. -/
theorem test_witness_PairInterlock_2 :
(∃ s : State, (s.halted = true ∨ s.lineHeld = true)) ∧
(∃ (s : State) (v : Word), s.regsCanon = true ∧ s.hostOpen = true ∧ bits v.toNat 1 2 = 0 ∧ s.mayClaim = true ∧ s.pairState = 2 ∧ s.rb
      CHIP_STROKE_CFG.SRC_LEDGER = false) ∧
(∃ (s : State) (v : Word), s.regsCanon = true ∧ s.hostOpen = true ∧ bits v.toNat 1 2 = 0 ∧ s.mayClaim = true ∧ s.pairState = 3 ∧ s.rb
      CHIP_STROKE_CFG.SRC_LEDGER = true ∧ s.pairx.yieldAt = none ∧ s.pairx.held = []) ∧
(∃ (s : State) (v : Word), s.regsCanon = true ∧ s.hostOpen = true ∧ bits v.toNat 1 2 = 0 ∧ (s.mayClaim = false ∨ s.pairState = 0)) ∧
(∃ s : State, s.regsCanon = true ∧ s.pairRuns = true ∧ s.pairx.claiming = true ∧ s.lineHeld = false ∧ s.pairState = 0) ∧
(∃ s : State, s.regsCanon = true ∧ s.pairRuns = true ∧ s.pairx.claiming = true ∧ s.lineHeld = false ∧ s.pairState ≠ 0) ∧
(∃ s : State, s.regsCanon = true ∧ s.pairRuns = true ∧ s.pairx.claiming = true ∧ s.lineHeld = true) ∧
(∃ s : State, (s.pairRuns = false ∨ s.pairx.claiming = false)) :=
⟨⟨px run {heldIn := true}, by decide +kernel⟩,
⟨px sb {released := true}, 0, by decide +kernel⟩,
⟨px ls {released := true}, 0, by decide +kernel⟩,
⟨px sb {released := false}, 0, by decide +kernel⟩,
⟨px run {claiming := true}, by decide +kernel⟩,
⟨px ls {claiming := true}, by decide +kernel⟩,
⟨px ls {claiming := true, heldIn := true}, by decide +kernel⟩,
⟨ls, by decide +kernel⟩⟩

open Pair in
/-- Clause by clause, something meets the hypotheses of Obligations.PairInterlock. -/
theorem test_witness_PairInterlock_3 :
(∃ s : State, s.pairRuns = true ∧ s.pairx.backoff = true ∧ s.pairState = 2 ∧ s.pairx.acked = false ∧ s.rb PAIR_CFG.AUTO_TAKEOVER = false) ∧
(∃ s : State, (s.pairRuns = false ∨ s.pairx.backoff = false)) ∧
(∃ s : State, s.regsCanon = true ∧ s.pairRuns = true ∧ s.pairx.heldIn = true ∧ s.rb PAIR_STATUS.LINK = true ∧ s.pairx.peerHolding = false) ∧
(∃ s : State, s.regsCanon = true ∧ (s.pairRuns = false ∨ s.pairx.heldIn = false ∨ s.rb PAIR_STATUS.LINK = false ∨ s.pairx.peerHolding = true)) ∧
(∃ s : State, s.regsCanon = true ∧ s.pairRuns = true) ∧
(∃ s : State, s.regsCanon = true ∧ s.pairRuns = false) :=
⟨⟨px (sb.wf PAIR_CFG.AUTO_TAKEOVER 0) {backoff := true, released := true}, by decide +kernel⟩,
⟨ls, by decide +kernel⟩,
⟨px (lanes ls) {heldIn := true}, by decide +kernel⟩,
⟨ls, by decide +kernel⟩,
⟨px run {heldIn := true}, by decide +kernel⟩,
⟨cfgS, by decide +kernel⟩⟩

open Rest in
/-- Clause by clause, something meets the hypotheses of Obligations.PairInterlock. -/
theorem test_witness_PairInterlock_4 :
(∃ s : State, s.regsCanon = true ∧ s.pairx.chatter = true ∧ s.halted = false) ∧
(∃ s : State, s.regsCanon = true ∧ (s.pairx.chatter = false ∨ s.halted = true)) :=
⟨⟨run.withPairx { chatter := true }, by decide +kernel⟩,
⟨run, by decide +kernel⟩⟩

open Pair in
/-- Clause by clause, something meets the hypotheses of Obligations.PairHelloAndLedger. -/
theorem test_witness_PairHelloAndLedger :
(∃ s : State, s.regsCanon = true ∧ s.pairRuns = true ∧ s.pairLanes = true ∧ s.rb (LANE_PORT_STATUS.TX_QUIET 8 0) = false ∧ s.farLoop 8 0 = false) ∧
(∃ s : State, s.pairRuns = false) :=
⟨⟨px (lanes actv) {txSeq := 2^32-1}, by decide +kernel⟩,
⟨cfgS, by decide +kernel⟩⟩

open Pair in
/-- Clause by clause, something meets the hypotheses of Obligations.PairHelloAndLedger. -/
theorem test_witness_PairHelloAndLedger_2 :
(∃ (s : State) (kind : Nat) (body : List Byte), s.regsCanon = true ∧ s.pairLanes = true ∧ s.rb (LANE_PORT_STATUS.TX_QUIET 8 0) = true ∧ s.farLoop 8
      0 = false) ∧
(∃ (s : State) (kind : Nat) (body : List Byte), s.regsCanon = true ∧ s.pairLanes = true ∧ s.rb (LANE_PORT_STATUS.TX_QUIET 8 0) = false ∧ s.farLoop 8
      0 = true) :=
⟨⟨(lanes actv).wf (LANE_PORT_STATUS.TX_QUIET 8 0) 1, 0, [1], by decide +kernel⟩,
⟨(((lanes actv).setLink 8 0 { state := lkUp, width := 8 }).wf (LANE_CFG.LOOPBACK 8 0) 2).wf (LANE_PORT_STATUS.TX_QUIET 8 0) 0, 0, [1],
      by decide +kernel⟩⟩

open Pair in
/-- Clause by clause, something meets the hypotheses of Obligations.PairHelloAndLedger. -/
theorem test_witness_PairHelloAndLedger_3 :
(∃ (s : State) (h : HelloRx), s.regsCanon = true ∧ s.pairRuns = true ∧ s.pairLanes = true ∧ h.check.etherType = 0x88B5 ∧ h.check.fcs = true ∧
      s.pairx.held = []) ∧
(∃ (s : State) (h : HelloRx), s.regsCanon = true ∧ s.pairRuns = true ∧ s.pairLanes = true ∧ h.check.etherType = 0x88B5 ∧ h.check.fcs = false) :=
⟨⟨px (lanes ls) {rxSeq := some 7}, hh (lanes ls) 0, by decide +kernel⟩,
⟨px (lanes ls) {rxSeq := some 7}, {hh (lanes ls) 1 with check := { fcs := false }}, by decide +kernel⟩⟩

open Pair in
/-- Clause by clause, something meets the hypotheses of Obligations.PairHelloAndLedger. -/
theorem test_witness_PairHelloAndLedger_4 :
(∃ (s : State) (h : HelloRx), (s.pairRuns = false ∨ s.pairLanes = false ∨ h.check.etherType ≠ 0x88B5)) ∧
(∃ s : State, s.regsCanon = true ∧ s.pairRuns = true ∧ s.rb PAIR_STATUS.LINK = true ∧ s.pairx.held = []) :=
⟨⟨ls, hh ls 0, by decide +kernel⟩,
⟨lanes ls, by decide +kernel⟩⟩

open Pair in
/-- Clause by clause, something meets the hypotheses of Obligations.PairHelloAndLedger. -/
theorem test_witness_PairHelloAndLedger_5 :
(∃ s : State, (s.pairRuns = false ∨ s.rb PAIR_STATUS.LINK = false)) ∧
(∃ (s : State) (k : Nat), s.pairx.ledNext = some k ∧ s.pairRuns = true ∧ s.sendsLedger = true ∧ s.rb CHIP_STROKE_CFG.SRC_LEDGER = false ∧
      s.pairLanes = true ∧ s.stampsDone k = true ∧ s.rb (LANE_PORT_STATUS.TX_QUIET 8 0) = false ∧ s.farLoop 8 0 = false) :=
⟨⟨sb, by decide +kernel⟩,
⟨(List.range 8).foldl (fun s n => s.wf (REG_Q_STATUS.STATE n) rgIsolated) (px la { la.pairx with floor := some 100 }), 5, rfl, by decide +kernel,
      by decide +kernel, by decide +kernel, by decide +kernel, stampsDone_regions _ _ (by decide +kernel) (by decide +kernel), by decide +kernel,
      by decide +kernel⟩⟩

open Pair in
/-- Clause by clause, something meets the hypotheses of Obligations.PairHelloAndLedger. -/
theorem test_witness_PairHelloAndLedger_6 :
(∃ (s : State) (k : Nat), s.pairx.ledNext = some k ∧ (s.pairRuns = false ∨ s.sendsLedger = false ∨ s.rb CHIP_STROKE_CFG.SRC_LEDGER = true ∨
      s.pairLanes = false ∨ s.stampsDone k = false)) ∧
(∃ (s : State) (k p : Nat), s.stampsDone k = true) :=
⟨⟨tm la 0, 5, by decide +kernel⟩,
⟨(List.range 8).foldl (fun s n => s.wf (REG_Q_STATUS.STATE n) rgIsolated) (px la { la.pairx with floor := some 100 }), 5, 0, stampsDone_regions _ _
      (by decide +kernel) (by decide +kernel)⟩⟩

open Pair in
/-- Clause by clause, something meets the hypotheses of Obligations.PairHelloAndLedger. -/
theorem test_witness_PairHelloAndLedger_7 :
(∃ (s : State) (seq : BitVec 32) (r : LedgerRec), s.regsCanon = true ∧ s.pairRuns = true ∧ s.pairLanes = true ∧ (∀ q, s.pairx.rxSeq = some q → (q +
      1) % 2 ^ 32 = seq.toNat) ∧ s.pairx.joinAt = none ∧ s.rb CHIP_STROKE_CFG.SRC_LEDGER = true ∧ r.stroke.toNat = (s.rf PAIR_LAST_LEDGER.STROKE +
      1) % 2 ^ 48 ∧ r.lossy = false ∧ s.pairx.held = [] ∧ s.pairx.recs = [] ∧ ledgerSlots r ≠ []) ∧
(∃ (s : State) (seq : BitVec 32) (r : LedgerRec), s.regsCanon = true ∧ s.pairRuns = true ∧ s.pairLanes = true ∧ (∀ q, s.pairx.rxSeq = some q → (q +
      1) % 2 ^ 32 = seq.toNat) ∧ s.pairx.joinAt = none ∧ s.rb CHIP_STROKE_CFG.SRC_LEDGER = true ∧ (r.stroke.toNat ≠ (s.rf PAIR_LAST_LEDGER.STROKE +
      1) % 2 ^ 48 ∨ r.lossy = true) ∧ s.pairState ≠ 1) :=
⟨⟨px ((lanes ls).wf PAIR_LAST_LEDGER.STROKE 4) {rxSeq := some 7}, 8, rc, by decide +kernel⟩,
⟨px ((lanes ls).wf PAIR_LAST_LEDGER.STROKE 5) {rxSeq := some 7}, 8, rc, by decide +kernel⟩⟩

open Pair in
/-- Clause by clause, something meets the hypotheses of Obligations.PairHelloAndLedger. -/
theorem test_witness_PairHelloAndLedger_8 :
(∃ (s : State) (seq : BitVec 32) (r : LedgerRec), s.regsCanon = true ∧ s.pairRuns = true ∧ s.pairLanes = true ∧ (∀ q, s.pairx.rxSeq = some q → (q +
      1) % 2 ^ 32 = seq.toNat) ∧ s.pairx.joinAt = none ∧ s.rb CHIP_STROKE_CFG.SRC_LEDGER = false) ∧
(∃ s : State, s.regsCanon = true ∧ (s.pairRuns = false ∨ s.rb CHIP_STROKE_CFG.SRC_LEDGER = false ∨ ∀ h ∈ s.pairx.held, s.time.tick < h.at_ + 1000 *
      s.rf PAIR_TIMER_CFG.LEDGER_LAG_US)) :=
⟨⟨px ((lanes sb).wf PAIR_LAST_LEDGER.STROKE 5) {rxSeq := some 7}, 8, rc, by decide +kernel⟩,
⟨ls, by decide +kernel⟩⟩

open Pair in
/-- Clause by clause, something meets the hypotheses of Obligations.PairHelloAndLedger. -/
theorem test_witness_PairHelloAndLedger_9 :
∃ (s : State) (k p : Nat), s.stampsDone k = true ∧ p < 512 ∧ s.regionRuns (p / 64) = true ∧ s.portWidth (p / 64) (p % 64) ≠ 0 :=
⟨(List.range 7).foldl (fun s n => s.wf (REG_Q_STATUS.STATE (n + 1)) rgIsolated) (px (la.wf (PB_SHAPE.W 0 0 0) 2)
      { la.pairx with floor := some 100 }), 5, 0, stampsDone_regions _ _ (by decide +kernel) (by decide +kernel), by decide +kernel,
      by decide +kernel, by decide +kernel⟩

open More Rest in
/-- Clause by clause, something meets the hypotheses of Obligations.PairHelloAndLedger. -/
theorem test_witness_PairHelloAndLedger_10 :
∃ s : State, ∃ h, s.regsCanon = true ∧ s.pairRuns = true ∧ s.rb CHIP_STROKE_CFG.SRC_LEDGER = true ∧ s.pairState ≠ 1 ∧ h ∈ s.pairx.held ∧ h.at_ +
      1000 * s.rf PAIR_TIMER_CFG.LEDGER_LAG_US ≤ s.time.tick :=
⟨lagS, (⟨frame 1, 0, 0⟩ : HeldRx), by decide +kernel⟩

open Pair in
/-- Clause by clause, something meets the hypotheses of Obligations.PairDigestsJoinAndHandover. -/
theorem test_witness_PairDigestsJoinAndHandover :
(∃ (s : State) (k : Nat), s.pairx.digNext = some k ∧ s.pairRuns = true ∧ s.sendsLedger = true ∧ s.pairLanes = true ∧ s.digClosed k = true ∧ s.rb
      (LANE_PORT_STATUS.TX_QUIET 8 0) = false ∧ s.farLoop 8 0 = false) ∧
(∃ (s : State) (k : Nat), s.pairx.digNext = some k ∧ (s.pairRuns = false ∨ s.sendsLedger = false ∨ s.pairLanes = false ∨ s.digClosed k = false)) ∧
(∃ (s : State) (seq : BitVec 32) (period : BitVec 48) (sums : List (BitVec 64)), s.pairRuns = true ∧ s.pairLanes = true ∧ (∀ q, s.pairx.rxSeq = some
      q → (q + 1) % 2 ^ 32 = seq.toNat) ∧ s.pairMode = 3 ∧ s.pairx.peerDigs = [] ∧ s.digClosed period.toNat = false) ∧
(∃ (s : State) (seq : BitVec 32) (period : BitVec 48) (sums : List (BitVec 64)), s.pairRuns = true ∧ s.pairLanes = true ∧ (∀ q, s.pairx.rxSeq = some
      q → (q + 1) % 2 ^ 32 = seq.toNat) ∧ s.pairMode ≠ 3) ∧
(∃ (s : State) (k : Nat) (sums : List Nat) (rest : List (Nat × List Nat)), s.regsCanon = true ∧ s.pairRuns = true ∧ s.pairMode = 3 ∧
      s.pairx.peerDigs = (k, sums) :: rest ∧ s.digClosed k = true ∧ sums = s.digSums k) ∧
(∃ s : State, (s.pairx.peerDigs = [] ∨ s.pairRuns = false ∨ s.pairMode ≠ 3)) ∧
(∃ (s : State) (v : Word), s.regsCanon = true ∧ s.hostOpen = true ∧ bits v.toNat 0 2 = 0 ∧ s.pairRuns = true ∧ s.pairState = 2 ∧ s.rf PAIR_CFG.MODE
      = 2 ∧ s.rb PAIR_STATUS.LINK = true ∧ s.pairx.peerPrint = s.fprint ∧ s.rf PAIR_STATUS.PEER_STATE = 1 ∧ leadOk s.pairx.peerStroke (s.rf
      PAIR_JOIN_STROKE.STROKE) = true) ∧
(∃ (s : State) (v : Word), s.regsCanon = true ∧ s.hostOpen = true ∧ bits v.toNat 0 2 = 0 ∧ (s.pairRuns = false ∨ s.pairState ≠ 2 ∨ s.rf
      PAIR_CFG.MODE ≠ 2 ∨ s.rb PAIR_STATUS.LINK = false ∨ s.pairx.peerPrint ≠ s.fprint ∨ s.rf PAIR_STATUS.PEER_STATE ≠ 1 ∨ leadOk s.pairx.peerStroke
      (s.rf PAIR_JOIN_STROKE.STROKE) = false)) :=
⟨⟨dg', 3, by decide +kernel⟩,
⟨dg, 3, by decide +kernel⟩,
⟨lanes ls, 8, 9, [1,2,3], by decide +kernel⟩,
⟨lanes sb, 8, 9, [1,2,3], by decide +kernel⟩,
⟨dl (dg'.digSums 3) 0, 3, dg'.digSums 3, [], by decide +kernel⟩,
⟨ls, by decide +kernel⟩,
⟨jn, 0, by decide +kernel⟩,
⟨sb, 0, by decide +kernel⟩⟩

open Pair in
/-- Clause by clause, something meets the hypotheses of Obligations.PairDigestsJoinAndHandover. -/
theorem test_witness_PairDigestsJoinAndHandover_2 :
(∃ (s : State) (y : Nat), s.regsCanon = true ∧ s.pairRuns = true ∧ s.pairx.joinAt = some y ∧ s.pairState = 2 ∧ y < 2 ^ 48 ∧ s.rf PAIR_CFG.MODE = 2 ∧
      s.rb PAIR_STATUS.LINK = true ∧ s.pairx.peerPrint = s.fprint ∧ strokeLe y s.strokeNow = true) ∧
(∃ (s : State) (y : Nat), s.regsCanon = true ∧ s.pairRuns = true ∧ s.pairx.joinAt = some y ∧ s.pairState = 2 ∧ y < 2 ^ 48 ∧ (s.rf PAIR_CFG.MODE ≠ 2
      ∨ s.rb PAIR_STATUS.LINK = false ∨ s.pairx.peerPrint ≠ s.fprint) ∧ strokeLe y s.strokeNow = true) ∧
(∃ s : State, (s.pairRuns = false ∨ ∀ y, s.pairx.joinAt = some y → strokeLe y s.strokeNow = false)) ∧
(∃ (s : State) (v : Word) (seq : BitVec 32) (peer : Nat), s.regsCanon = true ∧ s.pairState = 1 ∧ s.pairRuns = true ∧ s.rb PAIR_STATUS.LINK = true ∧
      s.pairLanes = true ∧ s.rb (LANE_PORT_STATUS.TX_QUIET 8 0) = false ∧ s.farLoop 8 0 = false ∧ s.pairx.yieldAt = none ∧ (∀ q, s.pairx.rxSeq =
      some q → (q + 1) % 2 ^ 32 = seq.toNat) ∧ bits v.toNat 0 1 = 0 ∧ bits v.toNat 2 1 = 0 ∧ peer = (if s.rf PAIR_STATUS.PEER_STATE = 4 then
      s.pairx.peerBase else s.rf PAIR_STATUS.PEER_STATE) ∧ peer = 3) ∧
(∃ (s : State) (v : Word) (seq : BitVec 32) (peer : Nat), s.regsCanon = true ∧ s.pairState = 1 ∧ s.pairRuns = true ∧ s.rb PAIR_STATUS.LINK = true ∧
      s.pairLanes = true ∧ s.rb (LANE_PORT_STATUS.TX_QUIET 8 0) = false ∧ s.farLoop 8 0 = false ∧ s.pairx.yieldAt = none ∧ (∀ q, s.pairx.rxSeq =
      some q → (q + 1) % 2 ^ 32 = seq.toNat) ∧ bits v.toNat 0 1 = 0 ∧ bits v.toNat 2 1 = 0 ∧ peer = (if s.rf PAIR_STATUS.PEER_STATE = 4 then
      s.pairx.peerBase else s.rf PAIR_STATUS.PEER_STATE) ∧ peer = 2) ∧
(∃ (s : State) (v : Word), s.regsCanon = true ∧ s.hostOpen = true ∧ bits v.toNat 0 1 = 0 ∧ bits v.toNat 2 1 = 0 ∧ (s.pairRuns = false ∨ s.pairState
      ≠ 1 ∨ s.rb PAIR_STATUS.LINK = false)) ∧
(∃ (s : State) (seq : BitVec 32) (h : BitVec 48), s.pairRuns = true ∧ s.pairLanes = true ∧ s.pairState ≠ 0 ∧ s.pairState ≠ 1 ∧ s.mayClaim = false ∧
      (∀ q, s.pairx.rxSeq = some q → (q + 1) % 2 ^ 32 = seq.toNat)) ∧
(∃ s : State, (s.pairRuns = false ∨ s.pairx.yieldAt = none)) :=
⟨⟨tm jn2 1000000, 1000, by decide +kernel⟩,
⟨tm (jn2.wf PAIR_CFG.MODE 1) 1000000, 1000, by decide +kernel⟩,
⟨sb, by decide +kernel⟩,
⟨(lanes actv).wf PAIR_STATUS.PEER_STATE 3, 0, 8, 3, by decide +kernel⟩,
⟨(lanes actv).wf PAIR_STATUS.PEER_STATE 2, 0, 8, 2, by decide +kernel⟩,
⟨sb, 0, by decide +kernel⟩,
⟨lanes ls, 8, 12345, by decide +kernel⟩,
⟨sb, by decide +kernel⟩⟩

open Pair in
/-- Clause by clause, something meets the hypotheses of Obligations.PairDigestsJoinAndHandover. -/
theorem test_witness_PairDigestsJoinAndHandover_3 :
(∃ s : State, s.regsCanon = true ∧ s.pairRuns = true ∧ s.pairState = 4 ∧ s.pairx.acked = false ∧ s.pairx.back < 4) ∧
(∃ s : State, s.regsCanon = true ∧ (s.pairRuns = false ∨ s.pairState ≠ 4 ∨ s.pairx.acked = true)) ∧
(∃ s : State, ∃ a, s.regsCanon = true ∧ s.mayRevert = true ∧ s.pairx.holdoff = some a ∧ a + 10 ^ 9 * s.rf PAIR_CFG.HOLDOFF_S ≤ s.time.tick) ∧
(∃ s : State, s.regsCanon = true ∧ (s.mayRevert = false ∨ ∀ a, s.pairx.holdoff = some a → s.time.tick < a + 10 ^ 9 * s.rf PAIR_CFG.HOLDOFF_S)) ∧
(∃ (s : State) (v : Word), s.regsCanon = true ∧ s.hostOpen = true ∧ s.rb PAIR_CAP_CTRL.BUSY = false ∧ leadOk s.strokeNow (s.rf
      PAIR_CAP_STROKE.STROKE) = true) ∧
(∃ (s : State) (v : Word), s.regsCanon = true ∧ s.hostOpen = true ∧ (s.rb PAIR_CAP_CTRL.BUSY = true ∨ leadOk s.strokeNow (s.rf
      PAIR_CAP_STROKE.STROKE) = false)) ∧
(∃ (s : State) (err : Bool), s.pairx.cap = none) :=
⟨⟨px (run.wf PAIR_STATUS.STATE 4) {back := 3}, by decide +kernel⟩,
⟨sb, by decide +kernel⟩,
⟨px (rv.wf PAIR_CFG.HOLDOFF_S 0) {txSeq := 9, holdoff := some 0}, 0, by decide +kernel⟩,
⟨sb, by decide +kernel⟩,
⟨(run.wf PAIR_CAP_STROKE.STROKE 1000).wf PAIR_CAP_BASE.ADDR 77, 0, by decide +kernel⟩,
⟨run.wf PAIR_CAP_BASE.ADDR 77, 0, by decide +kernel⟩,
⟨sb, true, by decide +kernel⟩⟩

open More Rest in
/-- Clause by clause, something meets the hypotheses of Obligations.PairDigestsJoinAndHandover. -/
theorem test_witness_PairDigestsJoinAndHandover_4 :
(∃ (s : State) (seq : BitVec 32) (period : BitVec 48) (sums : List (BitVec 64)), s.pairRuns = true ∧ s.pairLanes = true ∧ (∀ q, s.pairx.rxSeq = some
      q → (q + 1) % 2 ^ 32 = seq.toNat) ∧ s.pairMode = 3 ∧ s.pairx.peerDigs = [] ∧ s.digClosed period.toNat = true) ∧
(∃ (s : State) (h : Nat), s.regsCanon = true ∧ s.pairRuns = true ∧ s.pairx.yieldAt = some h ∧ s.pairState = 1 ∧ s.rb CHIP_STROKE_CFG.SRC_LEDGER =
      false ∧ strokeLe h s.strokeNow = true ∧ (s.sendsLedger = false ∨ ∃ k, s.pairx.ledNext = some k ∧ strokeLe h k = true) ∧ h < 2 ^ 48 ∧ s.rf
      PAIR_CFG.MODE = 2 ∧ s.pairx.peerPrint = s.fprint) ∧
(∃ (s : State) (h : Nat), s.regsCanon = true ∧ s.pairRuns = true ∧ s.pairx.yieldAt = some h ∧ s.rb CHIP_STROKE_CFG.SRC_LEDGER = true ∧ s.pairx.recs
      = [] ∧ s.pairx.held = [] ∧ (s.rf PAIR_LAST_LEDGER.STROKE + 1) % 2 ^ 48 = h) :=
⟨⟨Pair.px (Pair.lanes (Pair.dg'.wf PAIR_STATUS.STATE 3)) {}, 8, 3, [1,2,3], by decide +kernel, by decide +kernel, none_some1 (by decide +kernel),
      by decide +kernel⟩,
⟨ho2, 12, by decide +kernel, by decide +kernel, by decide +kernel, by decide +kernel, by decide +kernel, by decide +kernel, .inr ⟨12,
      by decide +kernel⟩, by decide +kernel⟩,
⟨yieldS, 12, by decide +kernel⟩⟩

open Rest in
/-- Clause by clause, something meets the hypotheses of Obligations.PairDigestsJoinAndHandover. -/
theorem test_witness_PairDigestsJoinAndHandover_5 :
(∃ (s : State) (k : Nat) (sums : List Nat) (rest : List (Nat × List Nat)), s.regsCanon = true ∧ s.pairRuns = true ∧ s.pairMode = 3 ∧
      s.pairx.peerDigs = (k, sums) :: rest ∧ (s.digClosed k = false ∨ ∃ i, i < 16 ∧ (s.digSums k).getD i 0 ≠ sums.getD i 0) ∧ strokeLe
      s.pairx.enforce (1024 * k % 2 ^ 48) = true) ∧
(∃ (s : State) (k : Nat) (sums : List Nat) (rest : List (Nat × List Nat)), s.regsCanon = true ∧ s.pairRuns = true ∧ s.pairMode = 3 ∧
      s.pairx.peerDigs = (k, sums) :: rest ∧ (s.digClosed k = false ∨ ∃ i, i < 16 ∧ (s.digSums k).getD i 0 ≠ sums.getD i 0) ∧ strokeLe
      s.pairx.enforce (1024 * k % 2 ^ 48) = false) ∧
(∃ (s : State) (h : Nat), s.regsCanon = true ∧ s.pairRuns = true ∧ s.pairx.yieldAt = some h ∧ s.pairState = 1 ∧ s.rb CHIP_STROKE_CFG.SRC_LEDGER =
      false ∧ strokeLe h s.strokeNow = true ∧ (s.sendsLedger = false ∨ ∃ k, s.pairx.ledNext = some k ∧ strokeLe h k = true) ∧ h < 2 ^ 48 ∧ (s.rf
      PAIR_CFG.MODE ≠ 2 ∨ s.pairx.peerPrint ≠ s.fprint) ∧ s.pairx.held = []) ∧
(∃ (s : State) (c : CapX) (err : Bool), s.alive = true ∧ s.canon = true ∧ s.pairx.cap = some c ∧ strokeLe c.stroke s.strokeNow = true ∧ (∀ n < 8,
      s.capReached n c.stroke = true) ∧ (∀ n < 8, (s.tbl n).hits = []) ∧ c.base + 2 ^ 27 ≤ 2 ^ 64) :=
⟨⟨lock3 0, 3, [1], [], by decide +kernel⟩,
⟨lock3 100000, 3, [1], [], by decide +kernel⟩,
⟨ho, 12, by decide +kernel, by decide +kernel, by decide +kernel, by decide +kernel, by decide +kernel, by decide +kernel, .inl (by decide +kernel),
      by decide +kernel⟩,
⟨capS, ⟨12, 0x10000000⟩, false, by decide +kernel⟩⟩

open Errors in
/-- Clause by clause, something meets the hypotheses of Obligations.HaltsAndErrorLog. -/
theorem test_witness_HaltsAndErrorLog :
(∃ (s : State) (v : Word), s.regsCanon = true ∧ s.hostOpen = true ∧ bits v.toNat 8 8 = 0x5A) ∧
(∃ (s : State) (v : Word), s.regsCanon = true ∧ s.hostOpen = true ∧ bits v.toNat 8 8 ≠ 0x5A) ∧
(∃ (s : State) (m kind : Oct) (k : BitVec 26) (chk : ReadCheck), s.regsCanon = true ∧ s.chipState ≠ stOff ∧ s.chipState ≠ stStrap ∧ s.halted = false
      ∧ isBad chk = true) ∧
(∃ (s : State) (m kind : Oct) (k : BitVec 26) (chk : ReadCheck), (s.chipState = stOff ∨ s.chipState = stStrap ∨ s.halted = true ∨ isBad chk =
      false)) ∧
(∃ (s : State) (v : Word), s.regsCanon = true ∧ s.hostOpen = true) :=
⟨⟨run, halt5A, by decide +kernel⟩,
⟨run, 0x5B01, by decide +kernel⟩,
⟨run, 0, 0, 0x3ffffff, .retried 7, by decide +kernel⟩,
⟨inState 6, 3, 7, 0x3fffff, .retried 7, by decide +kernel⟩,
⟨run.wf CHIP_ERR_LOG_CTRL.VALID 9, 0, by decide +kernel⟩⟩

open Errors in
/-- Clause by clause, something meets the hypotheses of Obligations.QuarantineTestAndRejoin. -/
theorem test_witness_QuarantineTestAndRejoin :
(∃ (s : State) (n : Region) (v : Word), s.regsCanon = true ∧ s.hostOpen = true ∧ bits v.toNat 1 2 = 0 ∧ s.region n = rgRun ∧ s.quarantinedBut n < 2) ∧
(∃ (s : State) (n : Region) (v : Word), s.regsCanon = true ∧ s.hostOpen = true ∧ bits v.toNat 1 2 = 0 ∧ s.region n = rgRun ∧ s.quarantinedBut n < 2
      ∧ s.pipes = [] ∧ s.engs = [] ∧ s.ctxs = [] ∧ s.tbls = [] ∧ s.regx = [] ∧ s.recirc = [] ∧ s.hostRx = [] ∧ s.txs = [] ∧ s.wind.xfer = []) ∧
(∃ (s : State) (n : Region) (v : Word), s.regsCanon = true ∧ s.hostOpen = true ∧ bits v.toNat 1 2 = 0 ∧ s.region n = rgRun ∧ 2 ≤ s.quarantinedBut n) ∧
(∃ (s : State) (n : Region) (v : Word), s.regsCanon = true ∧ s.hostOpen = true ∧ bits v.toNat 1 2 = 0 ∧ s.region n = rgRejoin) ∧
(∃ (s : State) (n : Region) (v : Word), s.regsCanon = true ∧ s.hostOpen = true ∧ bits v.toNat 1 2 = 0 ∧ s.region n ≠ rgRun ∧ s.region n ≠ rgRejoin) ∧
(∃ (s : State) (n : Region), s.regsCanon = true ∧ s.alive = true ∧ s.region n = rgDrain) ∧
(∃ (s : State) (n : Region), s.regsCanon = true ∧ s.alive = true ∧ s.region n ≠ rgDrain) ∧
(∃ (s : State) (n : Region) (v : Word), s.regsCanon = true ∧ s.hostOpen = true ∧ bits v.toNat 0 1 = 0 ∧ bits v.toNat 2 1 = 0 ∧ s.region n =
      rgIsolated) :=
⟨⟨run, 3, 0, by decide +kernel⟩,
⟨run, 3, 0, by decide +kernel⟩,
⟨rgS 3 2 (rgS 5 1 run), 0, 1, by decide +kernel⟩,
⟨rgS 0 4 run, 0, 1, by decide +kernel⟩,
⟨rgS 0 2 run, 0, 1, by decide +kernel⟩,
⟨rgS 7 1 cfgS, 7, by decide +kernel⟩,
⟨rgS 7 2 cfgS, 7, by decide +kernel⟩,
⟨rgS 7 2 cfgS, 7, 0, by decide +kernel⟩⟩

open Errors in
/-- Clause by clause, something meets the hypotheses of Obligations.QuarantineTestAndRejoin. -/
theorem test_witness_QuarantineTestAndRejoin_2 :
(∃ (s : State) (n : Region) (v : Word), s.regsCanon = true ∧ s.hostOpen = true ∧ bits v.toNat 0 1 = 0 ∧ bits v.toNat 2 1 = 0 ∧ s.region n ≠
      rgIsolated) ∧
(∃ (s : State) (n : Region) (fails : TestFails), s.canon = true ∧ s.alive = true ∧ s.region n = rgTest) ∧
(∃ (s : State) (n : Region) (fails : TestFails), s.canon = true ∧ s.alive = true ∧ s.region n ≠ rgTest) ∧
(∃ (s : State) (n : Region) (v : Word), s.regsCanon = true ∧ s.hostOpen = true ∧ bits v.toNat 0 2 = 0 ∧ s.region n = rgIsolated ∧ leadOk s.strokeNow
      (s.rf (REG_REJOIN_STROKE.STROKE n)) = true ∧ s.switching = false) ∧
(∃ (s : State) (n : Region) (v : Word), s.regsCanon = true ∧ s.hostOpen = true ∧ bits v.toNat 0 2 = 0 ∧ s.region n = rgIsolated ∧ (leadOk
      s.strokeNow (s.rf (REG_REJOIN_STROKE.STROKE n)) = false ∨ s.switching = true)) ∧
(∃ (s : State) (n : Region) (v : Word), s.regsCanon = true ∧ s.hostOpen = true ∧ bits v.toNat 0 2 = 0 ∧ s.region n ≠ rgIsolated) ∧
(∃ (s : State) (n : Region), s.regsCanon = true ∧ s.alive = true ∧ s.region n = rgRejoin ∧ strokeLe (s.rf (REG_REJOIN_STROKE.STROKE n)) s.strokeNow
      = true) ∧
(∃ (s : State) (n : Region), s.regsCanon = true ∧ s.alive = true ∧ (s.region n ≠ rgRejoin ∨ strokeLe (s.rf (REG_REJOIN_STROKE.STROKE n)) s.strokeNow
      = false)) :=
⟨⟨rgS 7 1 cfgS, 7, 2, by decide +kernel⟩,
⟨rgS 7 3 run, 7, { rows := [(5, 7), (3, 9), (6, 1)] }, by decide +kernel⟩,
⟨run, 7, { rows := [(5, 7)], logic := true }, by decide +kernel⟩,
⟨(rgS 7 2 cfgS).wf (REG_REJOIN_STROKE.STROKE 7) 64, 7, 0, by decide +kernel⟩,
⟨(rgS 7 2 cfgS).wf (REG_REJOIN_STROKE.STROKE 7) 63, 7, 0, by decide +kernel⟩,
⟨(rgS 7 1 cfgS).wf (REG_REJOIN_STROKE.STROKE 7) 63, 7, 0, by decide +kernel⟩,
⟨rj, 7, by decide +kernel⟩,
⟨rj.wf (REG_REJOIN_STROKE.STROKE 7) 3, 7, by decide +kernel⟩⟩

open More Rest in
/-- Clause by clause, something meets the hypotheses of Obligations.ScrubPassesAndRetirement. -/
theorem test_witness_ScrubPassesAndRetirement :
(∃ (s : State) (n m kind : Oct) (k : BitVec 26) (u : Fin 13) (x : ScrubX) (limit : Nat), s.regsCanon = true ∧ u.val = n.val ∧ s.alive = true ∧ x =
      (s.scrubx n m).begun s.time.tick ∧ limit = s.rf (REG_SCRUB_CFG.LAP_LIMIT_MS n) ∧ bit (s.rf (REG_SCRUB_CFG.EN n)) m = true ∧ s.region n ≠
      rgTest ∧ s.rf (PWR_STATUS.LEVEL n) = 8 ∧ x.line + 1 < memLines m ∧ (limit = 0 ∨ s.time.tick - x.start ≤ limit * 1000000)) ∧
(∃ (s : State) (n m kind : Oct) (k : BitVec 26) (u : Fin 13) (x : ScrubX) (limit : Nat), s.regsCanon = true ∧ u.val = n.val ∧ s.alive = true ∧ x =
      (s.scrubx n m).begun s.time.tick ∧ limit = s.rf (REG_SCRUB_CFG.LAP_LIMIT_MS n) ∧ bit (s.rf (REG_SCRUB_CFG.EN n)) m = true ∧ s.region n ≠
      rgTest ∧ s.rf (PWR_STATUS.LEVEL n) = 8 ∧ x.line + 1 < memLines m ∧ limit ≠ 0 ∧ limit * 1000000 < s.time.tick - x.start) ∧
(∃ (s : State) (n m kind : Oct) (k : BitVec 26) (u : Fin 13) (x : ScrubX) (limit : Nat), s.regsCanon = true ∧ u.val = n.val ∧ s.alive = true ∧ x =
      (s.scrubx n m).begun s.time.tick ∧ limit = s.rf (REG_SCRUB_CFG.LAP_LIMIT_MS n) ∧ bit (s.rf (REG_SCRUB_CFG.EN n)) m = true ∧ s.region n ≠
      rgTest ∧ s.rf (PWR_STATUS.LEVEL n) = 8 ∧ memLines m ≤ x.line + 1 ∧ s.mapsCanon = true) ∧
(∃ (s : State) (n m kind : Oct) (k : BitVec 26) (u : Fin 13) (x : ScrubX) (limit : Nat), s.regsCanon = true ∧ u.val = n.val ∧ s.alive = true ∧ x =
      (s.scrubx n m).begun s.time.tick ∧ limit = s.rf (REG_SCRUB_CFG.LAP_LIMIT_MS n) ∧ bit (s.rf (REG_SCRUB_CFG.EN n)) m = true ∧ s.region n ≠
      rgTest ∧ s.rf (PWR_STATUS.LEVEL n) = 8 ∧ kind.val = 7 ∧ (m.val = 5 ∨ m.val = 7) ∧ x.line + 1 < memLines m ∧ s.rf CHIP_ERR_LOG_CTRL.VALID = 0) ∧
(∃ (s : State) (n m kind : Oct) (k : BitVec 26) (u : Fin 13) (x : ScrubX) (limit : Nat), s.regsCanon = true ∧ u.val = n.val ∧ s.alive = true ∧ x =
      (s.scrubx n m).begun s.time.tick ∧ limit = s.rf (REG_SCRUB_CFG.LAP_LIMIT_MS n) ∧ (bit (s.rf (REG_SCRUB_CFG.EN n)) m = false ∨ s.region n =
      rgTest ∨ s.rf (PWR_STATUS.LEVEL n) ≠ 8)) ∧
(∃ (s : State) (st : Stack) (m kind : Oct) (k : BitVec 26) (u : Fin 13) (x : ScrubX) (limit : Nat), ∃ l, s.canon = true ∧ u.val = 8 + st.val ∧
      s.alive = true ∧ x = (s.scrubx (8 + st.val) 0).begun s.time.tick ∧ limit = s.rf (HBM_SCRUB_CFG.LAP_LIMIT_MS st) ∧ bit (s.rf (HBM_SCRUB_CFG.EN
      st)) 0 = true ∧ s.hbmBusy st = false ∧ s.hbmNext st x.line = some l ∧ (limit = 0 ∨ s.time.tick - x.start ≤ limit * 1000000)) ∧
(∃ (s : State) (st : Stack) (m kind : Oct) (k : BitVec 26) (u : Fin 13) (x : ScrubX) (limit : Nat), ∃ l, s.canon = true ∧ u.val = 8 + st.val ∧
      s.alive = true ∧ x = (s.scrubx (8 + st.val) 0).begun s.time.tick ∧ limit = s.rf (HBM_SCRUB_CFG.LAP_LIMIT_MS st) ∧ bit (s.rf (HBM_SCRUB_CFG.EN
      st)) 0 = true ∧ s.hbmBusy st = false ∧ s.hbmNext st x.line = some l ∧ limit ≠ 0 ∧ limit * 1000000 < s.time.tick - x.start ∧ x.late = false) ∧
(∃ (s : State) (st : Stack) (m kind : Oct) (k : BitVec 26) (u : Fin 13) (x : ScrubX) (limit : Nat), s.canon = true ∧ u.val = 8 + st.val ∧ s.alive =
      true ∧ x = (s.scrubx (8 + st.val) 0).begun s.time.tick ∧ limit = s.rf (HBM_SCRUB_CFG.LAP_LIMIT_MS st) ∧ bit (s.rf (HBM_SCRUB_CFG.EN st)) 0 =
      true ∧ s.hbmBusy st = false ∧ s.hbmNext st x.line = none) :=
⟨⟨scrubOn, 3, 5, 7, 0, 3, _, _, by decide +kernel, by decide +kernel, by decide +kernel, rfl, rfl, by decide +kernel⟩,
⟨scrubLate, 3, 5, 7, 0, 3, _, _, by decide +kernel, by decide +kernel, by decide +kernel, rfl, rfl, by decide +kernel⟩,
⟨scrubOn.setScrubx 3 5 ⟨16383, 10, false⟩, 3, 5, 7, 0, 3, _, _, by decide +kernel, by decide +kernel, by decide +kernel, rfl, rfl,
      by decide +kernel⟩,
⟨scrubOn, 3, 5, 7, 0, 3, _, _, by decide +kernel, by decide +kernel, by decide +kernel, rfl, rfl, by decide +kernel⟩,
⟨scrubOn.wf (REG_SCRUB_CFG.EN 3) 0, 3, 5, 7, 0, 3, _, _, by decide +kernel, by decide +kernel, by decide +kernel, rfl, rfl, by decide +kernel⟩,
⟨scrubHb, 2, 0, 7, 0, 10, _, _, 1, by decide +kernel, by decide +kernel, by decide +kernel, rfl, rfl, by decide +kernel⟩,
⟨(scrubHb.wf (HBM_SCRUB_CFG.LAP_LIMIT_MS 2) 1).setScrubx 10 0 ⟨1, 0, false⟩, 2, 0, 7, 0, 10, _, _, 2, by decide +kernel, by decide +kernel,
      by decide +kernel, rfl, rfl, by decide +kernel⟩,
⟨scrubHb.setScrubx 10 0 ⟨1024 * scrubHb.allRows - 1, 10, false⟩, 2, 0, 7, 0, 10, _, _, by decide +kernel, by decide +kernel, by decide +kernel, rfl,
      rfl, by decide +kernel⟩⟩

open More Rest in
/-- Clause by clause, something meets the hypotheses of Obligations.ScrubPassesAndRetirement. -/
theorem test_witness_ScrubPassesAndRetirement_2 :
∃ (s : State) (st : Stack) (m kind : Oct) (k : BitVec 26) (u : Fin 13) (x : ScrubX) (limit : Nat), s.canon = true ∧ u.val = 8 + st.val ∧ s.alive =
      true ∧ x = (s.scrubx (8 + st.val) 0).begun s.time.tick ∧ limit = s.rf (HBM_SCRUB_CFG.LAP_LIMIT_MS st) ∧ (bit (s.rf (HBM_SCRUB_CFG.EN st)) 0 =
      false ∨ s.hbmBusy st = true) :=
⟨scrubHb.wf (HBM_SCRUB_CFG.EN 2) 0, 2, 0, 7, 0, 10, _, _, by decide +kernel, by decide +kernel, by decide +kernel, rfl, rfl, by decide +kernel⟩

open Errors in
/-- Clause by clause, something meets the hypotheses of Obligations.ScrubPassesAndRetirement. -/
theorem test_witness_ScrubPassesAndRetirement_3 :
(∃ (s : State) (n : Region) (v : Word), s.regsCanon = true ∧ s.hostOpen = true ∧ s.rb (REG_SCRUB_PASS.BUSY n) = false ∧ s.rf (REG_SCRUB_START.LINE
      n) ≤ s.rf (REG_SCRUB_END.LINE n) ∧ v.toNat % 32 < 8) ∧
(∃ (s : State) (n : Region) (v : Word), s.regsCanon = true ∧ s.hostOpen = true ∧ s.rb (REG_SCRUB_PASS.BUSY n) = true) ∧
(∃ (s : State) (n : Region) (v : Word), s.regsCanon = true ∧ s.hostOpen = true ∧ s.rb (REG_SCRUB_PASS.BUSY n) = false ∧ (s.rf (REG_SCRUB_END.LINE n)
      < s.rf (REG_SCRUB_START.LINE n) ∨ 8 ≤ v.toNat % 32)) ∧
(∃ (s : State) (st : Stack) (v : Word), s.regsCanon = true ∧ s.hostOpen = true ∧ s.rb (HBM_SCRUB_PASS.BUSY st) = false ∧ s.rf (HBM_SCRUB_START.LINE
      st) ≤ s.rf (HBM_SCRUB_END.LINE st)) ∧
(∃ (s : State) (st : Stack) (v : Word), s.regsCanon = true ∧ s.hostOpen = true ∧ (s.rb (HBM_SCRUB_PASS.BUSY st) = true ∨ s.rf (HBM_SCRUB_END.LINE
      st) < s.rf (HBM_SCRUB_START.LINE st))) ∧
(∃ (s : State) (u : Fin 12) (bad : List (BitVec 24 × Fin 17 × Bool)), s.regsCanon = true ∧ s.alive = true ∧ mget none s.passes u = none) ∧
(∃ (s : State) (u : Fin 12) (bad : List (BitVec 24 × Fin 17 × Bool)), ∃ m a b, s.regsCanon = true ∧ s.alive = true ∧ mget none s.passes u = some ⟨m,
      a, b⟩ ∧ b < 2 ^ 24 ∧ m < 32 ∧ u.val < 8 ∧ m < 8 ∧ m ≠ 4) ∧
(∃ (s : State) (u : Fin 12) (bad : List (BitVec 24 × Fin 17 × Bool)), ∃ m a b, ∃ (l : BitVec 24) (w : Fin 17) (ok : Bool), s.regsCanon = true ∧
      s.alive = true ∧ mget none s.passes u = some ⟨m, a, b⟩ ∧ b < 2 ^ 24 ∧ m < 32 ∧ u.val < 8 ∧ m < 8 ∧ m ≠ 4 ∧ a ≤ l.toNat ∧ l.toNat ≤ b ∧ s.rf
      CHIP_ERR_LOG_CTRL.VALID = 0) :=
⟨⟨(cfgS.wf (REG_SCRUB_START.LINE 4) 7).wf (REG_SCRUB_END.LINE 4) 0xffffff, 4, 3, by decide +kernel⟩,
⟨(cfgS.wf (REG_SCRUB_START.LINE 4) 7).wf (REG_SCRUB_PASS.BUSY 4) 1 |>.wf (REG_SCRUB_SUM_LAST.LINE 4) 99, 4, 0xffffffe7, by decide +kernel⟩,
⟨(cfgS.wf (REG_SCRUB_START.LINE 4) 7).wf (REG_SCRUB_END.LINE 4) 6 |>.wf (REG_SCRUB_SUM_LAST.LINE 4) 99, 4, 0xffffffe7, by decide +kernel⟩,
⟨(cfgS.wf (HBM_SCRUB_START.LINE 2) 7).wf (HBM_SCRUB_END.LINE 2) 7, 2, 0xffffffe7, by decide +kernel⟩,
⟨(cfgS.wf (HBM_SCRUB_START.LINE 2) 7).wf (HBM_SCRUB_END.LINE 2) 6, 2, 0xffffffe7, by decide +kernel⟩,
⟨ps 3 2 5 17, 4, [], by decide +kernel⟩,
⟨ps 3 5 0 9, 3, [(9, 0, true)], 5, 0, 9, by decide +kernel⟩,
⟨ps 3 5 0 9, 3, [(9, 0, true)], 5, 0, 9, 9, 16, false, by decide +kernel⟩⟩

open Errors in
/-- Clause by clause, something meets the hypotheses of Obligations.ScrubPassesAndRetirement. -/
theorem test_witness_ScrubPassesAndRetirement_4 :
(∃ (s : State) (u : Fin 12) (bad : List (BitVec 24 × Fin 17 × Bool)), ∃ m a b, s.regsCanon = true ∧ s.alive = true ∧ mget none s.passes u = some ⟨m,
      a, b⟩ ∧ b < 2 ^ 24 ∧ m < 32 ∧ 8 ≤ u.val) ∧
(∃ (s : State) (u : Fin 12) (bad : List (BitVec 24 × Fin 17 × Bool)), ∃ m a b, ∃ (l : BitVec 24) (w : Fin 17) (ok : Bool), s.regsCanon = true ∧
      s.alive = true ∧ mget none s.passes u = some ⟨m, a, b⟩ ∧ b < 2 ^ 24 ∧ m < 32 ∧ 8 ≤ u.val ∧ a ≤ l.toNat ∧ l.toNat ≤ b) ∧
(∃ (s : State) (n : Region) (i : Byte) (v : Word) (objs : List (BitVec 26)), s.regsCanon = true ∧ s.hostOpen = true ∧ s.rb (REG_RETIRE.VALID n
      i.toNat) = true) ∧
(∃ (s : State) (n : Region) (i : Byte) (v : Word) (objs : List (BitVec 26)), s.regsCanon = true ∧ s.hostOpen = true ∧ s.rb (REG_RETIRE.VALID n
      i.toNat) = false ∧ bit v.toNat 31 = false) ∧
(∃ (s : State) (n : Region) (i : Byte) (v : Word) (objs : List (BitVec 26)), s.regsCanon = true ∧ s.hostOpen = true ∧ s.rb (REG_RETIRE.VALID n
      i.toNat) = false ∧ bit v.toNat 31 = true ∧ s.retireResult n (bits v.toNat 20 4) (bits v.toNat 0 20) ≠ 0) ∧
(∃ (s : State) (n : Region) (i : Byte) (v : Word) (objs : List (BitVec 26)), s.regsCanon = true ∧ s.hostOpen = true ∧ s.rb (REG_RETIRE.VALID n
      i.toNat) = false ∧ bit v.toNat 31 = true ∧ s.retireResult n (bits v.toNat 20 4) (bits v.toNat 0 20) = 0) ∧
(∃ (s : State) (st : Stack) (i : BitVec 10) (v : Word), s.regsCanon = true ∧ s.hostOpen = true ∧ s.rb (HBM_RETIRE.VALID st i.toNat) = true) ∧
(∃ (s : State) (st : Stack) (i : BitVec 10) (v : Word), s.regsCanon = true ∧ s.hostOpen = true ∧ s.rb (HBM_RETIRE.VALID st i.toNat) = false ∧ bit
      v.toNat 31 = false) :=
⟨⟨ps 8 0 0 9, 8, [(9, 0, true)], 0, 0, 9, by decide +kernel⟩,
⟨ps 8 0 0 9, 8, [(9, 0, true)], 0, 0, 9, 9, 16, false, by decide +kernel⟩,
⟨run.wf (REG_RETIRE.VALID 3 255) 1, 3, 255, 0, [], by decide +kernel⟩,
⟨run, 3, 255, 0x7fffffff, [], by decide +kernel⟩,
⟨run, 3, 255, 0xffffffff, [], by decide +kernel⟩,
⟨{run with eps := [(3*2^20 + 268835, 77), (3*2^20+268864, 8)]}, 3, 0, 0x80201068, [], by decide +kernel⟩,
⟨run.wf (HBM_RETIRE.VALID 3 1023) 1, 3, 1023, 0, by decide +kernel⟩,
⟨run, 3, 1023, 0x7fffffff, by decide +kernel⟩⟩

open Rest in
/-- Clause by clause, something meets the hypotheses of Obligations.ScrubPassesAndRetirement. -/
theorem test_witness_ScrubPassesAndRetirement_5 :
(∃ (s : State) (st : Stack) (i : BitVec 10) (v : Word), ∃ q, s.regsCanon = true ∧ s.hostOpen = true ∧ s.rb (HBM_RETIRE.VALID st i.toNat) = false ∧
      bit v.toNat 31 = true ∧ q = 2 * bits v.toNat 0 4 + bits v.toNat 4 1 ∧ s.hbmRetireResult st q (bits v.toNat 5 5) (bits v.toNat 10 14) (bit
      v.toNat 24) ≠ 0) ∧
(∃ (s : State) (st : Stack) (i : BitVec 10) (v : Word), ∃ q, s.regsCanon = true ∧ s.hostOpen = true ∧ s.rb (HBM_RETIRE.VALID st i.toNat) = false ∧
      bit v.toNat 31 = true ∧ q = 2 * bits v.toNat 0 4 + bits v.toNat 4 1 ∧ s.hbmRetireResult st q (bits v.toNat 5 5) (bits v.toNat 10 14) (bit
      v.toNat 24) = 0 ∧ s.slots = [] ∧ (s.rx (2 * st.val)).pages = [] ∧ (s.rx (2 * st.val + 1)).pages = []) :=
⟨⟨run.wf CHIP_ID.HBM_GIB 32, 3, 1023, 0x800003E0, 0, by decide +kernel⟩,
⟨spare, 3, 1023, 0x80000000, 0, by decide +kernel, by decide +kernel, by decide +kernel, by decide +kernel, rfl, spare_retire, by decide +kernel⟩⟩

open Counters in
/-- Clause by clause, something meets the hypotheses of Obligations.CounterBoundaries. -/
theorem test_witness_CounterBoundaries :
(∃ (s : State) (v : Word), s.regsCanon = true ∧ s.hostOpen = true ∧ bits v.toNat 1 3 = 0) ∧
(∃ (s : State) (v : Word), s.regsCanon = true ∧ s.hostOpen = true ∧ bits v.toNat 0 1 = 0 ∧ bits v.toNat 2 2 = 0) ∧
(∃ (s : State) (v : Word), s.hostOpen = true ∧ bits v.toNat 0 2 = 0 ∧ bits v.toNat 3 1 = 0 ∧ s.regsCanon = true) ∧
(∃ (s : State) (v : Word), s.regsCanon = true ∧ s.hostOpen = true ∧ bits v.toNat 0 3 = 0) ∧
(∃ s : State, s.regsCanon = true ∧ s.rb CT_STATUS.FREEZE_PEND = true ∧ s.boundaryPassed s.countx.freezeAt = true) ∧
(∃ s : State, s.regsCanon = true ∧ (s.rb CT_STATUS.FREEZE_PEND = false ∨ s.boundaryPassed s.countx.freezeAt = false)) ∧
(∃ s : State, s.regsCanon = true ∧ s.rb CT_STATUS.THAW_PEND = true ∧ s.rb CT_STATUS.FROZEN = true ∧ s.boundaryPassed s.countx.thawAt = true ∧ s.rb
      CT_STATUS.SNAP_PEND = false) ∧
(∃ s : State, s.regsCanon = true ∧ (s.rb CT_STATUS.THAW_PEND = false ∨ s.rb CT_STATUS.FROZEN = false ∨ s.boundaryPassed s.countx.thawAt = false)) :=
⟨⟨fz 64 run, 1, by decide +kernel⟩,
⟨(th 64 run).wf CT_STATUS.FREEZE_PEND 1, 0, by decide +kernel⟩,
⟨sn 100 nz, 0, by decide +kernel⟩,
⟨((run.wf CT_STATUS.FREEZE_PEND 1).wf CT_STATUS.SNAP_PEND 1).withCountx { run.countx with freezeAt := 64, snapAt := 63 }, 0, by decide +kernel⟩,
⟨nz.wf CT_STATUS.FREEZE_PEND 1 |>.wf CHIP_STATE.STATE 3, by decide +kernel⟩,
⟨nz.wf CT_STATUS.FREEZE_PEND 1 |>.wf CHIP_STATE.STATE 3 |>.withCountx {run.countx with freezeAt := 1}, by decide +kernel⟩,
⟨nz.wf CT_STATUS.THAW_PEND 1 |>.wf CT_STATUS.FROZEN 1 |>.wf CHIP_STATE.STATE 3, by decide +kernel⟩,
⟨nz.wf CT_STATUS.FREEZE_PEND 1 |>.wf CHIP_STATE.STATE 3, by decide +kernel⟩⟩

open Counters in
/-- Clause by clause, something meets the hypotheses of Obligations.CounterBoundaries. -/
theorem test_witness_CounterBoundaries_2 :
(∃ s : State, s.regsCanon = true ∧ s.rb CT_STATUS.SNAP_PEND = true ∧ s.boundaryPassed s.countx.snapAt = true ∧ s.rb CT_STATUS.FREEZE_PEND = false) ∧
(∃ s : State, s.regsCanon = true ∧ (s.rb CT_STATUS.SNAP_PEND = false ∨ s.boundaryPassed s.countx.snapAt = false)) ∧
(∃ (s : State) (u : Fin 138) (v : Word), s.regsCanon = true ∧ s.hostOpen = true) ∧
(∃ (s : State) (u k code n at' item : Nat) (q : Option Nat), s.regsCanon = true ∧ u < 138 ∧ k < 8 ∧ s.rb (CT_SEL.EN u k) = true ∧ s.rf (CT_SEL.EVENT
      u k) = code ∧ s.rf (CT_SEL.QUAL u k) = 255 ∧ s.counts at' = true) ∧
(∃ (s : State) (u k code n at' item : Nat) (q : Option Nat), s.regsCanon = true ∧ u < 138 ∧ k < 8 ∧ s.rb (CT_SEL.EN u k) = true ∧ s.rf (CT_SEL.EVENT
      u k) = code ∧ s.rf (CT_SEL.QUAL u k) = 255 ∧ s.counts at' = true ∧ 2 ^ 48 ≤ s.rf (CT_CNT.COUNT u k) + n) ∧
(∃ (s : State) (u k code n at' item : Nat) (q : Option Nat), s.regsCanon = true ∧ u < 138 ∧ k < 8 ∧ (s.rb (CT_SEL.EN u k) = false ∨ s.rf
      (CT_SEL.EVENT u k) ≠ code ∨ s.counts at' = false ∨ ∃ j, q = some j ∧ s.rf (CT_SEL.QUAL u k) ≠ 255 ∧ s.rf (CT_SEL.QUAL u k) ≠ j)) :=
⟨⟨nz.wf CT_STATUS.SNAP_PEND 1 |>.wf CT_STATUS.FROZEN 1 |>.wf CHIP_STATE.STATE 3, by decide +kernel⟩,
⟨nz.wf CT_STATUS.FREEZE_PEND 1 |>.wf CHIP_STATE.STATE 3, by decide +kernel⟩,
⟨nz, 137, 0, by decide +kernel⟩,
⟨cs, 9, 7, 0x10, 5, 6, 7, some 3, by decide +kernel⟩,
⟨cs.wf (CT_CNT.COUNT 9 7) (2 ^ 48 - 1), 9, 7, 0x10, 1, 6, 7, some 3, by decide +kernel⟩,
⟨run, 9, 7, 0x10, 5, 6, 7, some 3, by decide +kernel, by decide +kernel, by decide +kernel, .inl (by decide +kernel)⟩⟩

open Power in
/-- Clause by clause, something meets the hypotheses of Obligations.PowerAndGovernor. -/
theorem test_witness_PowerAndGovernor :
(∃ (s : State) (target : BitVec 10) (fails : Fin 4), s.regsCanon = true ∧ s.powered = true ∧ s.rb PWR_AVS.EN = true ∧ fails.val < 3) ∧
(∃ (s : State) (target : BitVec 10) (fails : Fin 4), s.regsCanon = true ∧ s.powered = true ∧ s.rb PWR_AVS.EN = true ∧ fails.val = 3) ∧
(∃ (s : State) (target : BitVec 10) (fails : Fin 4), s.regsCanon = true ∧ s.powered = true ∧ s.rb PWR_AVS.EN = false ∧ s.pwr.fixed = false ∧
      fails.val < 3) ∧
(∃ (s : State) (target : BitVec 10) (fails : Fin 4), s.regsCanon = true ∧ s.powered = true ∧ s.rb PWR_AVS.EN = false ∧ s.pwr.fixed = true) ∧
(∃ (s : State) (target : BitVec 10) (fails : Fin 4), s.regsCanon = true ∧ s.powered = true ∧ s.rb PWR_AVS.EN = false ∧ s.pwr.fixed = false ∧
      fails.val = 3) ∧
(∃ (s : State) (h n : Nat), s.pwr.voutExp = some (-(n : Int))) ∧
(∃ (s : State) (target : BitVec 10) (fails : Fin 4), s.powered = false) ∧
(∃ (s : State) (iout : BitVec 11) (uv oc pgood : Bool) (f1 f2 : Fin 4), s.regsCanon = true ∧ s.powered = true ∧ f1.val < 3 ∧ f2.val < 3 ∧ (uv || oc
      || pgood) = false) :=
⟨⟨av 750 0 1 true, 800, 2, by decide +kernel⟩,
⟨av 755 1 1 true, 7, 3, by decide +kernel⟩,
⟨av 755 1 0 false, 0, 0, by decide +kernel⟩,
⟨av 755 1 0 true, 7, 3, by decide +kernel⟩,
⟨av 755 1 0 false, 7, 3, by decide +kernel⟩,
⟨run.withPwr { run.pwr with voutExp := some (-9) }, 1500, 9, by decide +kernel⟩,
⟨inState 1, 7, 3, by decide +kernel⟩,
⟨run, 7, false, false, false, 1, 2, by decide +kernel⟩⟩

open Power in
/-- Clause by clause, something meets the hypotheses of Obligations.PowerAndGovernor. -/
theorem test_witness_PowerAndGovernor_2 :
(∃ (s : State) (iout : BitVec 11) (uv oc pgood : Bool) (f1 f2 : Fin 4), s.regsCanon = true ∧ s.powered = true ∧ f2.val < 3 ∧ s.halted = false ∧ (uv
      || oc || pgood) = true) ∧
(∃ (s : State) (iout : BitVec 11) (uv oc pgood : Bool) (f1 f2 : Fin 4), s.regsCanon = true ∧ s.powered = true ∧ (f1.val = 3 ∨ f2.val = 3) ∧ (f2.val
      = 3 ∨ (uv || oc || pgood) = false)) ∧
(∃ (s : State) (iout : BitVec 11) (uv oc pgood : Bool) (f1 f2 : Fin 4) (t' : Byte), s.powered = false) ∧
(∃ (s : State) (t' : Byte), s.regsCanon = true ∧ s.powered = true ∧ t'.toNat < s.rf PWR_THERM.WARN_C ∧ t'.toNat < s.rf PWR_THERM.TRIP_C) ∧
(∃ (s : State) (t' : Byte), s.regsCanon = true ∧ s.powered = true ∧ s.rf PWR_THERM.TEMP_C < s.rf PWR_THERM.WARN_C ∧ s.rf PWR_THERM.WARN_C ≤ t'.toNat
      ∧ t'.toNat < s.rf PWR_THERM.TRIP_C) ∧
(∃ (s : State) (t' : Byte), s.regsCanon = true ∧ s.powered = true ∧ s.rf PWR_THERM.WARN_C ≤ s.rf PWR_THERM.TEMP_C ∧ t'.toNat < s.rf
      PWR_THERM.TRIP_C) ∧
(∃ (s : State) (t' : Byte), s.regsCanon = true ∧ s.powered = true ∧ s.rf PWR_THERM.TRIP_C ≤ t'.toNat ∧ s.halted = false) ∧
(∃ s : State, s.regsCanon = true ∧ (s.chipState = stOff ∨ s.chipState = stStrap ∨ s.halted = true ∨ (s.chipState = stPriming ∧ s.rf
      CHIP_PRIME_STATUS.STEP < 3))) :=
⟨⟨run, 7, false, true, false, 3, 2, by decide +kernel⟩,
⟨run, 7, true, false, false, 3, 3, by decide +kernel⟩,
⟨State.reset.wf CHIP_STATE.STATE 0, 7, false, true, false, 3, 2, 50, by decide +kernel⟩,
⟨tp 50 60 70, 59, by decide +kernel⟩,
⟨tp 50 60 70, 60, by decide +kernel⟩,
⟨tp 60 60 70, 60, by decide +kernel⟩,
⟨tp 60 60 70, 70, by decide +kernel⟩,
⟨(inState 2).wf CHIP_PRIME_STATUS.STEP 2, by decide +kernel⟩⟩

open Power in
/-- Clause by clause, something meets the hypotheses of Obligations.PowerAndGovernor. -/
theorem test_witness_PowerAndGovernor_3 :
(∃ s : State, s.regsCanon = true ∧ s.powered = true ∧ s.halted = false ∧ ¬(s.chipState = stPriming ∧ s.rf CHIP_PRIME_STATUS.STEP < 3)) ∧
(∃ (s : State) (n : Region), s.alive = true ∧ s.level n = 8 ∧ bit (s.rf (PWR_CFG.GATE_EN)) n = true ∧ s.heldFull n = false ∧ s.idle n = true) ∧
(∃ (s : State) (n : Region), (s.alive = false ∨ s.level n ≠ 8 ∨ bit (s.rf (PWR_CFG.GATE_EN)) n = false ∨ s.heldFull n = true ∨ s.idle n = false)) ∧
(∃ (s : State) (n : Region), s.alive = true) ∧
(∃ (s : State) (n : Region), s.alive = false) ∧
(∃ (s : State) (n : Region) (k : Nat), s.regsCanon = true ∧ s.powered = true ∧ k < 8 ∧ (s.pwr.ptr + k) % 8 = n ∧ (∀ j, j < k → s.stepReady
      ((s.pwr.ptr + j) % 8) = false) ∧ s.wants n = 1 ∧ s.stepReady n = true ∧ stepMa ≤ s.refill.pwr.budget ∧ s.level n ≠ 0) ∧
(∃ (s : State) (n : Region) (k : Nat), s.regsCanon = true ∧ mapCanon 0 s.pwr.want = true ∧ mapCanon 0 s.pwr.fullAt = true ∧ s.powered = true ∧ k < 8
      ∧ (s.pwr.ptr + k) % 8 = n ∧ (∀ j, j < k → s.stepReady ((s.pwr.ptr + j) % 8) = false) ∧ s.wants n = 2 ∧ s.stepReady n = true ∧ stepMa ≤
      s.refill.pwr.budget ∧ s.level n < 8) ∧
(∃ s : State, s.powered = true ∧ ((∀ n, n < 8 → s.stepReady n = false) ∨ s.refill.pwr.budget < stepMa)) :=
⟨⟨run, by decide +kernel⟩,
⟨gt 3 8 0 0 0, 3, by decide +kernel⟩,
⟨gt 3 7 0 0 0, 3, by decide +kernel⟩,
⟨gt 3 7 0 0 0, 3, by decide +kernel⟩,
⟨inState 6, 3, by decide +kernel⟩,
⟨gt 3 8 1 1000000 10000000, 3, 0, by decide +kernel, by decide +kernel, by decide +kernel, by decide +kernel, fun _ h => absurd h (Nat.not_lt_zero
      _), by decide +kernel⟩,
⟨gt 3 7 2 1000000 10000000, 3, 0, by decide +kernel, by decide +kernel, by decide +kernel, by decide +kernel, by decide +kernel, by decide +kernel,
      fun _ h => absurd h (Nat.not_lt_zero _), by decide +kernel⟩,
⟨gt 7 0 2 10 1000, by decide +kernel⟩⟩

open Power in
/-- Clause by clause, something meets the hypotheses of Obligations.PowerAndGovernor. -/
theorem test_witness_PowerAndGovernor_4 :
∃ s : State, s.powered = false :=
⟨inState 0, by decide +kernel⟩

open Rest in
/-- Clause by clause, something meets the hypotheses of Obligations.PinsAndFunction. -/
theorem test_witness_PinsAndFunction :
(∃ s : State, s.chipState ≠ stOff) ∧
(∃ s : State, ∃ pins preload : BitVec 25, s.chipState ≠ stOff) ∧
(∃ s : State, ∃ pins : BitVec 25, s.chipState ≠ stOff ∧ s.chip.sysReset = true) ∧
(∃ s : State, ∃ pins : BitVec 25, s.chipState ≠ stOff ∧ s.chip.sysReset = false) ∧
(∃ s : State, s.chipState = stOff) ∧
(∃ s : State, s.chipState = stOff ∧ s.chip.sysReset = false) ∧
(∃ (s : State) (speed : Fin 7) (width : Fin 17) (flit : Bool), s.regsCanon = true ∧ (Instr.pcieLinkUp speed width flit).wellFormed = true ∧
      s.cfg.training = true) ∧
(∃ (s : State) (speed : Fin 7) (width : Fin 17) (flit : Bool), s.regsCanon = true ∧ (Instr.pcieLinkUp speed width flit).wellFormed = true ∧
      s.cfg.training = false) :=
⟨⟨run, by decide +kernel⟩,
⟨run, 0, 1, by decide +kernel⟩,
⟨run.withChip { run.chip with sysReset := true }, 0, by decide +kernel⟩,
⟨run, 0, by decide +kernel⟩,
⟨inState 0, by decide +kernel⟩,
⟨inState stOff, by decide +kernel⟩,
⟨run.withCfg { run.cfg with training := true }, 6, 16, true, by decide +kernel⟩,
⟨run.withCfg { run.cfg with training := false }, 1, 1, true, by decide +kernel⟩⟩

open Rest in
/-- Clause by clause, something meets the hypotheses of Obligations.PinsAndFunction. -/
theorem test_witness_PinsAndFunction_2 :
(∃ (s : State) (power : Fin 5) (pmeEn pmeClear fnMask : Bool), s.answers = false) ∧
(∃ (s : State) (power : Fin 5) (pmeEn pmeClear fnMask : Bool), (Instr.configSpaceWrite power pmeEn pmeClear fnMask).wellFormed = true ∧ s.answers =
      true ∧ (fnMask = true ∨ s.cfg.fnMask = false ∨ (∀ w, w < 64 → s.reg (MSIX_PBA.w w) = 0))) ∧
(∃ (s : State) (power : Fin 5) (pmeEn pmeClear : Bool) (v : Nat), s.regsCanon = true ∧ s.answers = true ∧ v < 2048 ∧ s.cfg.fnMask = true ∧ s.rb
      (MSIX_CTRL.MASK v) = false ∧ (∀ w, w < 64 → s.reg (MSIX_PBA.w w) = if w = v / 32 then BitVec.ofNat 32 (2 ^ (v % 32)) else 0)) :=
⟨⟨State.reset, 4, true, true, false, by decide +kernel⟩,
⟨run, 4, true, true, false, by decide +kernel⟩,
⟨maskedMsg, 3, true, false, 2047, by decide +kernel⟩⟩

open Reset in
/-- Clause by clause, something meets the hypotheses of Obligations.Resets. -/
theorem test_witness_Resets :
(∃ (s : State) (us : BitVec 16) (valid : Bool), 10 ≤ us.toNat ∧ (s.chipState ≠ stOff ∨ valid = true)) ∧
(∃ (s : State) (us : BitVec 16) (valid : Bool), (us.toNat < 10 ∨ (s.chipState = stOff ∧ valid = false))) ∧
(∃ (s : State) (straps : Byte), s.regsCanon = true ∧ s.chip.sysReset = true ∧ s.chipState = stStrap) ∧
(∃ (s : State) (straps : Byte), s.regsCanon = true ∧ (s.chip.sysReset = false ∨ s.chipState ≠ stStrap)) ∧
(∃ (s : State) (us : BitVec 16) (v : Word), s.regsCanon = true ∧ s.warmOpen = true ∧ 1 ≤ us.toNat) ∧
(∃ (s : State) (us : BitVec 16) (v : Word), s.regsCanon = true ∧ (s.warmOpen = false ∨ us.toNat = 0)) ∧
(∃ (s : State) (us : BitVec 16) (v : Word), s.regsCanon = true ∧ (bit v.toNat 0 = false ∨ bits v.toNat 8 8 ≠ 0xC3) ∧ (s.warmOpen = false ∨ s.answers
      = false ∨ bits v.toNat 8 8 ≠ 0x3C)) ∧
(∃ (s : State) (us : BitVec 16) (v : Word), s.regsCanon = true ∧ bit v.toNat 0 = true ∧ bits v.toNat 8 8 = 0xC3) :=
⟨⟨rich 4, 10, false, by decide +kernel⟩,
⟨rich 0, 10, false, by decide +kernel⟩,
⟨sr, 0x55, by decide +kernel⟩,
⟨rich 1, 0x85, by decide +kernel⟩,
⟨rich 4, 1, wv, by decide +kernel⟩,
⟨rich 6, 1, wv, by decide +kernel⟩,
⟨rich 6, 1, wv, by decide +kernel⟩,
⟨rich 6, 1, 0xC301, by decide +kernel⟩⟩

open Reset in
/-- Clause by clause, something meets the hypotheses of Obligations.Resets. -/
theorem test_witness_Resets_2 :
(∃ (s : State) (v : Word), s.answers = true ∧ bits v.toNat 8 8 = 0xC3) ∧
(∃ (s : State) (v : Word), bits v.toNat 8 8 = 0x3C) ∧
(∃ (s : State) (v : Word), (s.answers = false ∨ (bits v.toNat 8 8 ≠ 0xC3 ∧ bits v.toNat 8 8 ≠ 0x3C))) ∧
(∃ (s : State) (perst : Bool), s.powered = true ∧ s.regsCanon = true) ∧
(∃ (s : State) (perst : Bool), s.powered = false) :=
⟨⟨rich 4, 0xC300, by decide +kernel⟩,
⟨(rich 6).withChip {straps := 0x80}, 0x3C02, by decide +kernel⟩,
⟨(rich 6).withChip {straps := 0x80}, 0xC200, by decide +kernel⟩,
⟨ww 4, true, by decide +kernel⟩,
⟨ww 1, true, by decide +kernel⟩⟩

open Reset in
/-- Clause by clause, something meets the hypotheses of Obligations.Priming. -/
theorem test_witness_Priming :
(∃ (s : State) (ms : BitVec 16) (rows : List (Region × Oct × BitVec 20)) (bad : List (Stack × Channel)) (repairs : List (Stack × Channel × BitVec
      4)) (d : PrimeData), s.regsCanon = true ∧ s.chipState = stPriming ∧ s.rb CHIP_PRIME_STATUS.FAIL = false ∧ s.rf CHIP_PRIME_STATUS.STEP = 1) ∧
(∃ (s : State) (ms : BitVec 16) (rows : List (Region × Oct × BitVec 20)) (bad : List (Stack × Channel)) (repairs : List (Stack × Channel × BitVec
      4)) (d : PrimeData), s.regsCanon = true ∧ s.chipState = stPriming ∧ s.rb CHIP_PRIME_STATUS.FAIL = false ∧ s.rf CHIP_PRIME_STATUS.STEP = 2) ∧
(∃ (s : State) (ms : BitVec 16) (rows : List (Region × Oct × BitVec 20)) (bad : List (Stack × Channel)) (repairs : List (Stack × Channel × BitVec
      4)) (d : PrimeData), s.regsCanon = true ∧ s.chipState = stPriming ∧ s.rb CHIP_PRIME_STATUS.FAIL = false ∧ s.rf CHIP_PRIME_STATUS.STEP = 3) ∧
(∃ (s : State) (ms : BitVec 16) (rows : List (Region × Oct × BitVec 20)) (bad : List (Stack × Channel)) (repairs : List (Stack × Channel × BitVec
      4)) (d : PrimeData), ∃ k : Fin 5, s.regsCanon = true ∧ s.chipState = stPriming ∧ s.rb CHIP_PRIME_STATUS.FAIL = false ∧ 3 ≤ k.val ∧ s.rf
      CHIP_PRIME_STATUS.STEP = k + 1) ∧
(∃ (s : State) (ms : BitVec 16) (rows : List (Region × Oct × BitVec 20)) (bad : List (Stack × Channel)) (repairs : List (Stack × Channel × BitVec
      4)) (d : PrimeData), ∃ k : Fin 5, s.regsCanon = true ∧ s.chipState = stPriming ∧ s.rb CHIP_PRIME_STATUS.FAIL = false ∧ k + 2 ≤ s.rf
      CHIP_PRIME_STATUS.STEP) ∧
(∃ (s : State) (ms : BitVec 16) (rows : List (Region × Oct × BitVec 20)) (bad : List (Stack × Channel)) (repairs : List (Stack × Channel × BitVec
      4)) (d : PrimeData), ∃ f : Fin 4, s.regsCanon = true ∧ s.chipState = stPriming ∧ s.rb CHIP_PRIME_STATUS.FAIL = false ∧ (f.val < 3 ∨ s.rb
      CHIP_STRAP.LBIST_SKIP = false) ∧ failStep (f + 1) ≤ s.rf CHIP_PRIME_STATUS.STEP) ∧
(∃ (s : State) (ms : BitVec 16) (rows : List (Region × Oct × BitVec 20)) (bad : List (Stack × Channel)) (repairs : List (Stack × Channel × BitVec
      4)) (d : PrimeData), s.regsCanon = true ∧ s.chipState = stPriming ∧ s.rb CHIP_PRIME_STATUS.FAIL = false ∧ s.rb CHIP_STRAP.LBIST_SKIP = true) ∧
(∃ (s : State) (ms : BitVec 16) (d : PrimeData), s.regsCanon = true ∧ s.chipState = stPriming ∧ s.rb CHIP_PRIME_STATUS.FAIL = false ∧ d.logic = 0) :=
⟨⟨prmAt 1, 1000, rws, [], [], {}, by decide +kernel⟩,
⟨prmAt 2, 1000, rws, [], [], { gib32 := true }, by decide +kernel⟩,
⟨prmAt 3, 1000, rws, [], [], {}, by decide +kernel⟩,
⟨prmAt 4, 1000, rws, [], [], {}, (3 : Fin 5), by decide +kernel⟩,
⟨prmAt 4, 1000, rws, [], [], {}, (2 : Fin 5), by decide +kernel⟩,
⟨prmAt 3, 1000, rws, [], [], {}, (0 : Fin 4), by decide +kernel⟩,
⟨(prmAt 1).wf CHIP_STRAP.LBIST_SKIP 1, 1000, rws, [], [], {}, by decide +kernel⟩,
⟨prmAt 4, 1000, {}, by decide +kernel⟩⟩

open Reset in
/-- Clause by clause, something meets the hypotheses of Obligations.Priming. -/
theorem test_witness_Priming_2 :
(∃ (s : State) (ms : BitVec 16) (d : PrimeData) (rows : List (Region × Oct × BitVec 20)) (n : Region), s.regsCanon = true ∧ s.chipState = stPriming
      ∧ s.rb CHIP_PRIME_STATUS.FAIL = false ∧ s.rf CHIP_ERR_LOG_CTRL.VALID ≤ 64) ∧
(∃ (s : State) (ms : BitVec 16) (d : PrimeData) (st : Stack) (c : Channel), s.regsCanon = true ∧ s.chipState = stPriming ∧ s.rb
      CHIP_PRIME_STATUS.FAIL = false ∧ s.chState st c ≠ hcFenced) ∧
(∃ (s : State) (ms : BitVec 16) (d : PrimeData) (st : Stack) (c : Channel) (x : BitVec 4), s.regsCanon = true ∧ s.chipState = stPriming ∧ s.rb
      CHIP_PRIME_STATUS.FAIL = false ∧ s.rb CHIP_STATE.WARM = false) ∧
(∃ (s : State) (e : PrimeEnd) (ms : BitVec 16) (rows : List (Region × Oct × BitVec 20)) (bad : List (Stack × Channel)) (repairs : List (Stack ×
      Channel × BitVec 4)) (d : PrimeData), (s.chipState ≠ stPriming ∨ s.rb CHIP_PRIME_STATUS.FAIL = true)) :=
⟨⟨prmAt 4, 1000, { logic := 2 }, rws, 3, by decide +kernel⟩,
⟨prmAt 4, 1000, {}, 3, 15, by decide +kernel⟩,
⟨prmAt 4, 1000, {}, 3, 15, 9, by decide +kernel⟩,
⟨run, .done, 1000, rws, [], [], {}, by decide +kernel⟩⟩

open More Rest in
/-- Clause by clause, something meets the hypotheses of Obligations.Priming. -/
theorem test_witness_Priming_3 :
(∃ (s : State) (ms : BitVec 16) (rows : List (Region × Oct × BitVec 20)) (bad : List (Stack × Channel)) (repairs : List (Stack × Channel × BitVec
      4)) (d : PrimeData), ∃ (j k : Fin 5) (u : State), s.regsCanon = true ∧ s.chipState = stPriming ∧ s.rb CHIP_PRIME_STATUS.FAIL = false ∧ j.val <
      k.val ∧ exec (.primingComplete (.step j) ms rows bad repairs d) s = .next u) ∧
(∃ (s : State) (ms : BitVec 16) (rows : List (Region × Oct × BitVec 20)) (bad : List (Stack × Channel)) (repairs : List (Stack × Channel × BitVec
      4)) (d : PrimeData), ∃ (f : Fin 4) (k : Fin 5) (u : State), s.regsCanon = true ∧ s.chipState = stPriming ∧ s.rb CHIP_PRIME_STATUS.FAIL = false
      ∧ k + 2 = failStep (f + 1) ∧ exec (.primingComplete (.step k) ms rows bad repairs d) s = .next u ∧ (f.val < 3 ∨ s.rb CHIP_STRAP.LBIST_SKIP =
      false)) :=
⟨⟨Reset.prmAt 1, 1000, Reset.rws, [], [], {}, 0, 2, nx (exec (.primingComplete (.step 0) 1000 Reset.rws [] [] {}) (Reset.prmAt 1)),
      by decide +kernel, by decide +kernel, by decide +kernel, by decide +kernel, nx_eq (by decide +kernel)⟩,
⟨Reset.prmAt 1, 1000, Reset.rws, [], [], {}, 2, 2, nx (exec (.primingComplete (.step 2) 1000 Reset.rws [] [] {}) (Reset.prmAt 1)),
      by decide +kernel, by decide +kernel, by decide +kernel, by decide +kernel, nx_eq (by decide +kernel), by decide +kernel⟩⟩

open Reset in
/-- Clause by clause, something meets the hypotheses of Obligations.RunAndQuiesce. -/
theorem test_witness_RunAndQuiesce :
(∃ (s : State) (v : Word), s.regsCanon = true ∧ s.hostOpen = true ∧ bits v.toNat 1 2 = 0) ∧
(∃ (s : State) (v : Word), s.regsCanon = true ∧ s.hostOpen = true ∧ bits v.toNat 0 1 = 0 ∧ bits v.toNat 2 1 = 0) ∧
(∃ (s : State) (v : Word), s.regsCanon = true ∧ s.hostOpen = true ∧ bits v.toNat 0 2 = 0 ∧ s.chipState = stQuiesced) ∧
(∃ (s : State) (v : Word), s.regsCanon = true ∧ s.hostOpen = true ∧ bits v.toNat 0 2 = 0 ∧ s.chipState ≠ stQuiesced) ∧
(∃ (s : State) (v : Word), s.regsCanon = true ∧ s.hostOpen = true ∧ bits v.toNat 0 2 = 3) ∧
(∃ (s : State) (y : Nat), s.regsCanon = true ∧ s.chip.runAt = some y ∧ y < 2 ^ 48 ∧ (s.configurable = true ∨ s.chipState = stQuiesced) ∧ strokeLe y
      s.strokeNow = true) ∧
(∃ s : State, (s.chip.runAt = none ∨ (s.configurable = false ∧ s.chipState ≠ stQuiesced) ∨ ∃ y, s.chip.runAt = some y ∧ strokeLe y s.strokeNow =
      false)) ∧
(∃ (s : State) (q : Nat), s.regsCanon = true ∧ s.chip.quiesceAt = some q ∧ s.running = true ∧ s.chip.quiescing = false ∧ strokeLe q s.strokeNow =
      true) :=
⟨⟨cfgS.wf CHIP_RUN_STROKE.STROKE 64, 1, by decide +kernel⟩,
⟨run.wf CHIP_QUIESCE_STROKE.STROKE 64, 0, by decide +kernel⟩,
⟨inState 5, 0, by decide +kernel⟩,
⟨inState 4, 0, by decide +kernel⟩,
⟨inState 5, 3, by decide +kernel⟩,
⟨(cfgS.withChip {runAt := some 0}).wf (REG_Q_STATUS.STATE 3) 2, 0, by decide +kernel⟩,
⟨cfgS, by decide +kernel⟩,
⟨qs false 100 100000000, 100, by decide +kernel⟩⟩

open Reset in
/-- Clause by clause, something meets the hypotheses of Obligations.RunAndQuiesce. -/
theorem test_witness_RunAndQuiesce_2 :
(∃ (s : State) (q : Nat), s.regsCanon = true ∧ s.chip.quiesceAt = some q ∧ (s.running = false ∨ s.chip.quiescing = true ∨ strokeLe q s.strokeNow =
      false)) ∧
(∃ (s : State) (q : Nat), s.regsCanon = true ∧ s.chip.quiesceAt = some q ∧ (s.running = false ∨ s.chip.quiescing = false ∨ s.orderNs < s.strokeTime
      q + 10000000)) ∧
(∃ (s : State) (q : Nat), s.regsCanon = true ∧ s.chip.quiesceAt = some q ∧ s.running = true ∧ s.chip.quiescing = true ∧ (∀ n, n < 8 → s.regionRuns n
      = true → s.wmPassed n ((q + (2 ^ 48 - 1)) % 2 ^ 48) = true) ∧ strokeLe ((q + (2 ^ 48 - 1)) % 2 ^ 48) (s.rf SP_RELEASED.STROKE) = true ∧
      s.queuesEmpty = true) ∧
(∃ (s : State) (q : Nat), s.regsCanon = true ∧ s.chip.quiesceAt = some q ∧ (s.running = false ∨ s.chip.quiescing = false ∨ s.queuesEmpty = false)) ∧
(∃ s : State, s.chip.quiesceAt = none) :=
⟨⟨qs false 100000000 1000, 100000000, by decide +kernel⟩,
⟨qs false 100 100000000, 100, by decide +kernel⟩,
⟨qd, 100, by decide +kernel⟩,
⟨qs false 100 100000000, 100, by decide +kernel⟩,
⟨run, by decide +kernel⟩⟩

open Rest in
/-- Clause by clause, something meets the hypotheses of Obligations.RunAndQuiesce. -/
theorem test_witness_RunAndQuiesce_3 :
∃ (s : State) (q : Nat), s.regsCanon = true ∧ s.chip.quiesceAt = some q ∧ s.running = true ∧ s.chip.quiescing = true ∧ s.strokeTime q + 10000000 ≤
      s.orderNs :=
⟨(run.withChip { quiesceAt := some 100, quiescing := true }).withTime { run.time with domA := { ns := 100000000 } }, 100, by decide +kernel⟩

open Registers in
/-- Clause by clause, something meets the hypotheses of Obligations.RegisterAccesses. -/
theorem test_witness_RegisterAccesses :
(∃ (s : State) (w : BitVec 24) (h : RegHit), s.regsCanon = true ∧ s.answers = true ∧ findReg w.toNat = some h ∧ h.desc.id = .plain ∧ h.joined =
      false ∧ h.desc.rc / 2 ^ (32 * h.word) % 2 ^ 32 = 0) ∧
(∃ (s : State) (off : BarOffset) (size : Fin 65), s.answers = true ∧ 2 ^ 26 < off.toNat + size.val) ∧
(∃ (s : State) (off : BarOffset) (size : Fin 65), s.answers = true ∧ 2 ^ 20 < off.toNat + size.val) ∧
(∃ (s : State) (n : Region) (off : BarOffset) (v : BitVec 64), s.regsCanon = true ∧ s.hostOpen = true ∧ s.configurable = false ∧ off.toNat = 4 *
      SP_CFG.w ∧ 64 ≤ v.toNat % 2 ^ 11 ∧ v.toNat % 2 ^ 11 ≤ 1024 ∧ v.toNat % 2 ^ 11 ≠ s.rf SP_CFG.WINDOW_NS) ∧
(∃ (s : State) (n : Region) (off : BarOffset) (v : BitVec 64), s.regsCanon = true ∧ s.hostOpen = true ∧ s.configurable = false ∧ off.toNat = 4 *
      FE_HASH_SEED.w n ∧ v.toNat % 2 ^ 32 ≠ (s.reg (FE_HASH_SEED.w n)).toNat) ∧
(∃ (s : State) (n : Region) (off : BarOffset) (v : BitVec 64), s.regsCanon = true ∧ s.hostOpen = true ∧ s.configurable = false ∧ off.toNat = 4 *
      TBL_HASH_SEED.w n ∧ v.toNat % 2 ^ 32 ≠ (s.reg (TBL_HASH_SEED.w n)).toNat) ∧
(∃ (s : State) (n : Region) (lo hi v : BitVec 64) (a b : BarOffset), s.regsCanon = true ∧ mapCanon none s.hold = true ∧ s.hostOpen = true ∧ a.toNat
      = 4 * REG_REJOIN_STROKE.w n ∧ b.toNat = a.toNat + 4) ∧
(∃ (s : State) (n : Region) (p : Fin 2) (off : BarOffset) (v : BitVec 64), s.hostOpen = true ∧ off.toNat = 4 * IP_CL_SWITCH_STROKE.w n p + 4 ∧ s.rb
      (IP_CL_STATUS.PENDING n p) = true) :=
⟨⟨rr run (REG_ERR.w 3), BitVec.ofNat 24 (REG_ERR.w 3), (findReg (REG_ERR.w 3)).get (by decide +kernel), by decide +kernel⟩,
⟨run, BitVec.ofNat 26 (2 ^ 26 - 1), 64, by decide +kernel⟩,
⟨run, BitVec.ofNat 26 (2 ^ 20 - 1), 64, by decide +kernel⟩,
⟨run, 3, BitVec.ofNat 26 (4 * SP_CFG.w), 1024, by decide +kernel⟩,
⟨run, 3, BitVec.ofNat 26 (4 * FE_HASH_SEED.w 3), 1024, by decide +kernel⟩,
⟨run, 3, BitVec.ofNat 26 (4 * TBL_HASH_SEED.w 3), 1024, by decide +kernel⟩,
⟨run, 3, 0xffffffff12345678, 0xffffffff87654321, 0x8877665544332211, BitVec.ofNat 26 (4 * REG_REJOIN_STROKE.w 3), BitVec.ofNat 26 (4 *
      REG_REJOIN_STROKE.w 3+4), by decide +kernel⟩,
⟨run.wf (IP_CL_STATUS.PENDING 3 1) 1, 3, 1, BitVec.ofNat 26 (4 * IP_CL_SWITCH_STROKE.w 3 1 + 4), 7, by decide +kernel⟩⟩

open Registers in
/-- Clause by clause, something meets the hypotheses of Obligations.RegisterAccesses. -/
theorem test_witness_RegisterAccesses_2 :
(∃ (s : State) (off : BarOffset) (size : Fin 65) (v : BitVec 64), s.regsCanon = true ∧ s.hostOpen = true ∧ ¬(size.val = 4 ∧ off.toNat % 4 = 0) ∧
      ¬(size.val = 8 ∧ off.toNat % 8 = 0)) ∧
(∃ (s : State) (off : BarOffset) (v : BitVec 64), s.hostOpen = true ∧ off.toNat % 4 = 0 ∧ findReg (off.toNat / 4) = none) ∧
(∃ (s : State) (off : BarOffset) (size : Fin 65) (v : BitVec 64), s.hostOpen = false ∧ writesResetCtrl off.toNat size.val = false) ∧
(∃ (s : State) (off : BarOffset) (v : BitVec 32), off.toNat = 4 * CHIP_RESET_CTRL.w ∧ bit v.toNat 0 = true) :=
⟨⟨run, 0x3fffffe, 4, 7, by decide +kernel⟩,
⟨run, 400, 3, by decide +kernel⟩,
⟨inState 6, 64, 4, 3, by decide +kernel⟩,
⟨inState 6, 16, 0xC301, by decide +kernel⟩⟩

open Rest in
/-- Clause by clause, something meets the hypotheses of Obligations.RegisterAccesses. -/
theorem test_witness_RegisterAccesses_3 :
(∃ (s : State) (w : BitVec 24) (h : RegHit), ∃ m : Word, s.regsCanon = true ∧ s.answers = true ∧ findReg w.toNat = some h ∧ h.desc.id = .plain ∧
      h.joined = false ∧ m.toNat = h.desc.rc / 2 ^ (32 * h.word) % 2 ^ 32) ∧
(∃ (s : State) (w : BitVec 24) (h : RegHit), mapCanon 0 s.latch = true ∧ s.answers = true ∧ findReg w.toNat = some h ∧ h.desc.id = .plain ∧ h.joined
      = true ∧ h.word % 2 = 0) ∧
(∃ (s : State) (w : BitVec 24) (h : RegHit), mapCanon 0 s.latch = true ∧ s.answers = true ∧ findReg w.toNat = some h ∧ h.desc.id = .plain ∧ h.joined
      = true ∧ h.word % 2 = 1) ∧
(∃ (s : State) (w : BitVec 24), s.answers = true ∧ findReg w.toNat = none) ∧
(∃ (s : State) (w : BitVec 24) (bar : Fin 3) (off : BarOffset) (size : Fin 65), s.answers = false) ∧
(∃ (s : State) (off : BarOffset) (size : Fin 65), ∃ w : BitVec 24, s.answers = true ∧ off.toNat % 4 = 0 ∧ size.val = 4 ∧ 4 * w.toNat = off.toNat) ∧
(∃ (s : State) (off : BarOffset) (size : Fin 65), s.answers = true ∧ off.toNat + size.val ≤ 2 ^ 26) ∧
(∃ (s : State) (off : BarOffset) (f : Fld), s.answers = true ∧ s.rb CT_STATUS.FROZEN = true ∧ off.toNat < 2 ^ 20 ∧ off.toNat % 8 = 0 ∧ off.toNat /
      4096 < 138 ∧ s.pageField (off.toNat / 4096) (off.toNat % 4096) = some f ∧ bit (s.rf (CT_USER_ENABLE.EN (off.toNat / 4096 / 32))) (off.toNat /
      4096 % 32) = true) :=
⟨⟨run, BitVec.ofNat 24 (IP_PARSE_STATUS.w 1 1), (findReg (IP_PARSE_STATUS.w 1 1)).get (by decide +kernel), 0xFF000000, by decide +kernel⟩,
⟨run, BitVec.ofNat 24 (HIF_CNT.COUNT 0).w, (findReg (HIF_CNT.COUNT 0).w).get (by decide +kernel), by decide +kernel⟩,
⟨run, BitVec.ofNat 24 ((HIF_CNT.COUNT 0).w + 1), (findReg ((HIF_CNT.COUNT 0).w + 1)).get (by decide +kernel), by decide +kernel⟩,
⟨run, 100, by decide +kernel⟩,
⟨State.reset, 3, 1, 8, 4, by decide +kernel⟩,
⟨run, 0x1004, 4, 0x401, by decide +kernel⟩,
⟨run, 0x1004, 8, by decide +kernel⟩,
⟨pages 1, 430080, ⟨2644544, 0, 64⟩, by decide +kernel⟩⟩

open Rest in
/-- Clause by clause, something meets the hypotheses of Obligations.RegisterAccesses. -/
theorem test_witness_RegisterAccesses_4 :
(∃ (s : State) (off : BarOffset) (f : Fld), s.answers = true ∧ s.rb CT_STATUS.FROZEN = true ∧ off.toNat < 2 ^ 20 ∧ off.toNat % 8 = 0 ∧ off.toNat /
      4096 < 138 ∧ s.pageField (off.toNat / 4096) (off.toNat % 4096) = some f ∧ bit (s.rf (CT_USER_ENABLE.EN (off.toNat / 4096 / 32))) (off.toNat /
      4096 % 32) = false) ∧
(∃ (s : State) (n : Region) (c : Nat), c < 9) ∧
(∃ (s : State) (off : BarOffset) (w : Nat) (h : RegHit) (v : BitVec 64) (rw w1c : Word), s.regsCanon = true ∧ s.hostOpen = true ∧ off.toNat = 4 * w
      ∧ findReg w = some h ∧ h.desc.id = .plain ∧ h.joined = false ∧ h.desc.fixes = [] ∧ rw.toNat = h.desc.rw / 2 ^ (32 * h.word) % 2 ^ 32 ∧
      w1c.toNat = h.desc.w1c / 2 ^ (32 * h.word) % 2 ^ 32 ∧ h.desc.cfg = 0 ∧ h.desc.r43 = 0) ∧
(∃ (s : State) (off : BarOffset) (w : Nat) (h : RegHit) (v : BitVec 64) (rw : Word), s.regsCanon = true ∧ s.hostOpen = true ∧ off.toNat = 4 * w ∧
      findReg w = some h ∧ h.desc.id = .plain ∧ h.desc.nw = 1 ∧ h.desc.fixes = [] ∧ rw.toNat = h.desc.rw % 2 ^ 32 ∧ h.desc.w1c = 0 ∧ h.desc.cfg = 0
      ∧ h.desc.r43 = h.desc.rw ∧ s.configurable = false ∧ s.regionFree (h.ix 0) = false ∧ s.reg w &&& rw ≠ v.setWidth 32 &&& rw) ∧
(∃ (s : State) (n : Region) (a : BitVec 14) (off : BarOffset) (v : BitVec 64), s.regsCanon = true ∧ mapCanon 0 s.pmp2 = true ∧ s.hostOpen = true ∧
      s.configurable = false ∧ s.regionFree n = false ∧ off.toNat = 4 * PMP_STORE.w n a.toNat ∧ v.setWidth 32 ≠ s.reg (PMP_STORE.w n a.toNat)) ∧
(∃ (s : State) (off : BarOffset) (v : BitVec 64), s.hostOpen = false ∧ off.toNat = 4 * CHIP_RESET_CTRL.w ∧ bit v.toNat 0 = true) :=
⟨⟨pages 0, 430080, ⟨2644544, 0, 64⟩, by decide +kernel⟩,
⟨run, 7, 8, by decide +kernel⟩,
⟨run, BitVec.ofNat _ (4 * REG_ERR.w 3), REG_ERR.w 3, (findReg (REG_ERR.w 3)).get (by decide +kernel), 5, 0, 127, by decide +kernel⟩,
⟨run, BitVec.ofNat 26 (4 * 4915200), 4915200, (findReg 4915200).get (by decide +kernel), 1, 2047, by decide +kernel⟩,
⟨run, 3, 70, BitVec.ofNat _ (4 * PMP_STORE.w 3 70), 1, by decide +kernel⟩,
⟨inState 6, BitVec.ofNat _ (4 * CHIP_RESET_CTRL.w), 1, by decide +kernel⟩⟩

open Rest in
/-- Clause by clause, something meets the hypotheses of Obligations.StepRunsTheFrontCommand. -/
theorem test_witness_StepRunsTheFrontCommand :
(∃ s : State, s.pending = [] ∧ (s.chipState = stOff ∨ s.chipState = stStrap)) ∧
(∃ s : State, s.pending = [] ∧ s.regsCanon = true ∧ s.chipState ≠ stOff ∧ s.chipState ≠ stStrap) :=
⟨⟨inState 0, by decide +kernel⟩,
⟨run, by decide +kernel⟩⟩

open Rest in
/-- Clause by clause, something meets the hypotheses of Obligations.StepKeepsCanonical. -/
theorem test_witness_StepKeepsCanonical :
∃ s t : State, s.canon = true ∧ step s = .next t :=
⟨run, nx (step run), by decide +kernel, rfl⟩

open More Rest in
/-- Clause by clause, something meets the hypotheses of Obligations.CommandsKeepTheQueue. -/
theorem test_witness_CommandsKeepTheQueue :
∃ (c : Instr) (s t : State), exec c s = .next t :=
⟨.timeSnap, run, nx (exec .timeSnap run), rfl⟩

open Rest in
/-- Clause by clause, something meets the hypotheses of Obligations.CommandsKeepTheQueue. -/
theorem test_witness_CommandsKeepTheQueue_2 :
∃ (s t : State), step s = .next t :=
⟨run, nx (step run), rfl⟩

open Rest in
/-- Clause by clause, something meets the hypotheses of Obligations.HostWritesDiscarded. -/
theorem test_witness_HostWritesDiscarded :
∃ (c : Instr) (s : State), isHostWrite c = true ∧ s.hostOpen = false :=
⟨.timeSnap, inState 6, by decide +kernel⟩

open Rest in
/-- Clause by clause, something meets the hypotheses of Obligations.HaltedUntilReset. -/
theorem test_witness_HaltedUntilReset :
∃ (c : Instr) (s t : State), s.halted = true ∧ endsHalt c = false ∧ exec c s = .next t :=
⟨.timeSnap, inState 6, nx (exec .timeSnap (inState 6)), by decide +kernel, rfl, rfl⟩

end Sys2Proof.Tests
end

section
/-! PROOFS. The reception of a frame at a front-panel port (R27, R29, R52, R55, R538): what setting a determinism bit and stamping a key
change, what the MAC makes of a frame that it heard, and what it hears. -/

namespace Sys2Proof.Machine

/-! ### The determinism status (R42, R46) -/

section DetSet

variable {s : State} {f g : Fld} {x : Nat}

theorem sameButEvents_detSet (s : State) (f : Fld) (x : Nat) : SameButEvents s (s.detSet f x) := by
  unfold State.detSet
  split
  · exact ((sameButRegs_wf ..).trans (sameButRegs_wf ..)).events.trans (sameButEvents_raise (by decide))
  · exact (sameButRegs_wf ..).events

@[simp] theorem detSet_lastKey (s : State) (f : Fld) (x : Nat) : (s.detSet f x).lastKey = s.lastKey := by
  rw [sameButEvents_detSet s f x]

/-- A bit of `CHIP_DET_STATUS` reads 1 once it was set. -/
theorem rf_detSet_same (hs : s.regsCanon = true) (hf : f.fits = true) (hw : f.width = 1) (hq : f.quiet = true)
    (ha : CHIP_DET_STROKE.STROKE.apart f = true) : (s.detSet f x).rf f = 1 := by
  have hset : (s.wf f 1).rf f = 1 := by rw [rf_wf_same hs hf, hw]; rfl
  unfold State.detSet
  split
  · rw [rf_raise (by decide) hq, rf_wf_apart (regsCanon_wf hs) (by decide) hf ha, hset]
  · exact hset

/-- Setting a bit leaves every field alone but that bit, the recorded stroke and the event words. -/
theorem rf_detSet_apart (hs : s.regsCanon = true) (hf : f.fits = true) (hg : g.fits = true) (hq : g.quiet = true)
    (ha : f.apart g = true) (ha' : CHIP_DET_STROKE.STROKE.apart g = true) : (s.detSet f x).rf g = s.rf g := by
  unfold State.detSet
  split
  · rw [rf_raise (by decide) hq, rf_wf_apart (regsCanon_wf hs) (by decide) hg ha', rf_wf_apart hs hf hg ha]
  · exact rf_wf_apart hs hf hg ha

end DetSet

/-! ### Stamping (R27, R29) -/

section Stamping

variable {s : State} {p t : Nat}

/-- All that stamping can do to the state: the port's last key changes, and ORDER_CLAMP may be set. -/
theorem stampKey_state (s : State) (p t : Nat) :
    ∃ m, (s.stampKey p t).1 = s.withLastKey m ∨ ∃ x, (s.stampKey p t).1 = (s.withLastKey m).detSet CHIP_DET_STATUS.ORDER_CLAMP x := by
  dsimp only [State.stampKey]
  split
  · exact ⟨_, .inr ⟨_, rfl⟩⟩
  · exact ⟨_, .inl rfl⟩

theorem stampKey_frame (s : State) (p t : Nat) :
    (s.stampKey p t).1 = { s with regs := (s.stampKey p t).1.regs, evts := (s.stampKey p t).1.evts,
                                  lastKey := (s.stampKey p t).1.lastKey } := by
  obtain ⟨m, h | ⟨x, h⟩⟩ := stampKey_state s p t
  · rw [h]; rfl
  · have hd := sameButEvents_detSet (s.withLastKey m) CHIP_DET_STATUS.ORDER_CLAMP x
    rw [h, hd]; rfl

/-- Stamping leaves every field alone but ORDER_CLAMP, the recorded stroke and the event words. -/
theorem rf_stampKey_apart {g : Fld} (hs : s.regsCanon = true) (hg : g.fits = true) (hq : g.quiet = true)
    (ha : CHIP_DET_STATUS.ORDER_CLAMP.apart g = true) (ha' : CHIP_DET_STROKE.STROKE.apart g = true) :
    (s.stampKey p t).1.rf g = s.rf g := by
  obtain ⟨m, h | ⟨x, h⟩⟩ := stampKey_state s p t
  · rw [h, rf_withLastKey]
  · rw [h, rf_detSet_apart (by rwa [regsCanon_withLastKey]) (by decide) hg hq ha ha', rf_withLastKey]

/-- A stroke below the port's last is clamped to it, which ORDER_CLAMP shows. -/
theorem stampKey_of_below (hs : s.regsCanon = true) (hlast : (mget (0, 0) s.lastKey p).2 ≠ 0)
    (hlt : strokeLt (raiseTo s.pairx.floor (raiseTo s.time.floor t)) (mget (0, 0) s.lastKey p).1 = true) :
    (s.stampKey p t).2.stroke = (mget (0, 0) s.lastKey p).1 ∧ (s.stampKey p t).1.rf CHIP_DET_STATUS.ORDER_CLAMP = 1 := by
  simp only [State.stampKey, hlast, hlt, ne_eq, not_false_eq_true, decide_true, Bool.and_self, if_true, true_and]
  exact rf_detSet_same (by rwa [regsCanon_withLastKey]) (by decide) (by decide) (by decide) (by decide)

/-- A stroke not below the port's last stands, and no register changes. -/
theorem stampKey_of_not_below
    (hlt : strokeLt (raiseTo s.pairx.floor (raiseTo s.time.floor t)) (mget (0, 0) s.lastKey p).1 = false) :
    (s.stampKey p t).2.stroke = raiseTo s.pairx.floor (raiseTo s.time.floor t) ∧ (s.stampKey p t).1.regs = s.regs := by
  simp only [State.stampKey, hlt, Bool.and_false, Bool.false_eq_true, if_false, true_and]
  exact withLastKey_regs ..

/-- The frames of the key's stroke that the port has stamped before: as many as its last key says, and none in another stroke. -/
def State.stampedIn (s : State) (p stroke : Nat) : Nat :=
  if stroke = (mget (0, 0) s.lastKey p).1 then (mget (0, 0) s.lastKey p).2 else 0

/-- SEQ counts the frames of one stroke. -/
theorem stampKey_seq (s : State) (p t : Nat) : (s.stampKey p t).2.seq = s.stampedIn p (s.stampKey p t).2.stroke % 2 ^ 16 := by
  dsimp only [State.stampKey, State.stampedIn]
  by_cases hlast : (mget (0, 0) s.lastKey p).2 = 0
  · simp [hlast]
  · simp only [hlast, ne_eq, not_false_eq_true, decide_true, Bool.true_and, decide_eq_true_eq]

theorem lastKey_stampKey (hm : mapCanon (0, 0) s.lastKey = true) :
    mget (0, 0) (s.stampKey p t).1.lastKey p =
      ((s.stampKey p t).2.stroke, s.stampedIn p (s.stampKey p t).2.stroke + 1) := by
  have hsame : ∀ v, mget (0, 0) (mset (0, 0) s.lastKey p v) p = v := fun v => mget_mset_same hm
  dsimp only [State.stampKey, State.stampedIn]
  by_cases hlast : (mget (0, 0) s.lastKey p).2 = 0
  · simp [hlast, hsame]
  · split <;> simp [hlast, hsame]

end Stamping

/-! ### What the MAC makes of a frame (R52, R88, R538, R539) -/

section Mac

variable {s : State} {n l : Nat} {r : RxFrame} {k : FKey}

/-- What becomes of a frame with key `k` in a MAC that takes frames: discarded, refused or accepted. -/
def State.macOutcome (s : State) (n l : Nat) (k : FKey) (r : RxFrame) : State :=
  if r.mac then s.macDiscard n l k (r.preamble && r.sfd)
  else if r.down || !r.fcs || (rxCode (s.rf (pbf PB_PORT_CFG.MTU n l)) r).isSome then s.refuse n l k r
  else s.accept n l k r

theorem macOutcome_of_parity (hmac : r.mac = true) : s.macOutcome n l k r = s.macDiscard n l k (r.preamble && r.sfd) := by
  rw [State.macOutcome, if_pos hmac]

theorem macOutcome_of_bad (hmac : r.mac = false)
    (hbad : r.fcs = false ∨ r.down = true ∨ (rxCode (s.rf (pbf PB_PORT_CFG.MTU n l)) r).isSome = true) :
    s.macOutcome n l k r = s.refuse n l k r := by
  rw [State.macOutcome, if_neg (by simp [hmac]), if_pos]
  rcases hbad with h | h | h <;> simp [h]

theorem macOutcome_of_good (hmac : r.mac = false) (hfcs : r.fcs = true) (hdown : r.down = false)
    (hcode : rxCode (s.rf (pbf PB_PORT_CFG.MTU n l)) r = none) : s.macOutcome n l k r = s.accept n l k r := by
  simp [State.macOutcome, hmac, hfcs, hdown, hcode]

/-- A frame without preamble or SFD has a code of R666. -/
theorem rxCode_of_unstamped (mtu : Nat) (h : (r.preamble && r.sfd) = false) : (rxCode mtu r).isSome = true := by
  cases hp : r.preamble with
  | false => simp [rxCode, hp]
  | true =>
    have hd : r.sfd = false := by simpa [hp] using h
    simp [rxCode, hp, hd]

theorem macReceive_of_not_admits (h : s.admitsStroke (s.heldStroke (globalOf n l) (s.sfdCyc r)) = false) :
    s.macReceive n l r = s := by
  simp [State.macReceive, h]

/-- A frame with preamble and SFD takes its key, which the ledger counts. -/
theorem macReceive_stamped {t : Nat} (ht : t = s.heldStroke (globalOf n l) (s.sfdCyc r)) (hadm : s.admitsStroke t = true)
    (hled : s.fromLedger t = false) (hst : (r.preamble && r.sfd) = true) :
    s.macReceive n l r = ((s.stampKey (globalOf n l) t).1.ledCount (s.stampKey (globalOf n l) t).2).macOutcome n l
      (s.stampKey (globalOf n l) t).2 r := by
  subst ht
  simp only [State.macReceive, State.macOutcome, hadm, hled, hst, Bool.not_true, Bool.not_false, Bool.and_self, Bool.false_eq_true,
    if_true, if_false]

/-- Behind the twin's ledger a frame with preamble and SFD is counted and takes no SEQ. -/
theorem macReceive_behind_ledger {t : Nat} (ht : t = s.heldStroke (globalOf n l) (s.sfdCyc r)) (hadm : s.admitsStroke t = true)
    (hled : s.fromLedger t = true) (hst : (r.preamble && r.sfd) = true) :
    s.macReceive n l r = (s.ledCount ⟨t, globalOf n l, 0⟩).macOutcome n l ⟨t, globalOf n l, 0⟩ r := by
  subst ht
  simp only [State.macReceive, State.macOutcome, hadm, hled, hst, Bool.not_true, Bool.and_false, Bool.false_eq_true, if_true, if_false]

/-- A frame without preamble or SFD takes no key. -/
theorem macReceive_unstamped {t : Nat} (ht : t = s.heldStroke (globalOf n l) (s.sfdCyc r)) (hadm : s.admitsStroke t = true)
    (hst : (r.preamble && r.sfd) = false) : s.macReceive n l r = s.macOutcome n l ⟨t, globalOf n l, 0⟩ r := by
  subst ht
  simp only [State.macReceive, State.macOutcome, hadm, hst, Bool.not_true, Bool.false_and, Bool.false_eq_true, if_false]

theorem rf_ledCount (f : Fld) : (s.ledCount k).rf f = s.rf f := by
  unfold State.ledCount State.ledger
  split
  · exact rf_setPairx ..
  · rfl

/-- The MTU that a frame is held against is the same before and after its stamp. -/
theorem mtu_stampKey {p t : Nat} (hs : s.regsCanon = true) :
    ((s.stampKey p t).1.ledCount k).rf (pbf PB_PORT_CFG.MTU n l) = s.rf (pbf PB_PORT_CFG.MTU n l) := by
  rw [rf_ledCount]
  apply rf_stampKey_apart hs <;>
    simp [pbf, PB_PORT_CFG.MTU, PB_PORT_CFG.w, Fld.fits, Fld.quiet, Fld.apart, Fld.abs, evtWord, CHIP_DET_STATUS.ORDER_CLAMP,
      CHIP_DET_STATUS.w, CHIP_DET_STROKE.STROKE, CHIP_DET_STROKE.w] <;> omega

end Mac

/-! ### What the MAC hears (Table SL-10) -/

section Heard

variable {s : State} {n : Region} {l : Fin 64} {r : RxFrame}

theorem exec_frameReceive (n : Region) (l : Fin 64) (r : RxFrame) (s : State) :
    exec (.frameReceive n l r) s = .next (frameReceive n l r s) := rfl

theorem heard_of_wire {n l : Nat} (h : s.nearPort n l = false) : s.heard n l r = some (s, r) := by
  simp [State.heard, h]

theorem heard_of_empty_loop {n l : Nat} (h : s.nearPort n l = true) (hl : (s.pport n l).loop = []) : s.heard n l r = none := by
  simp [State.heard, h, hl]

theorem heard_of_loop {n l : Nat} {d : List Byte} {good : Bool} {rest : List (List Byte × Bool)} (h : s.nearPort n l = true)
    (hl : (s.pport n l).loop = (d, good) :: rest) :
    s.heard n l r = some (s.setPport n l { s.pport n l with loop := rest },
      { r with data := d, preamble := true, sfd := true, early := false, pcs := false, fcs := good }) := by
  simp [State.heard, h, hl]

/-- The port exists, its MAC runs and takes frames: what FRAME_RECEIVE asks before it hears one. -/
structure MacReady (s : State) (n : Region) (l : Fin 64) (r : RxFrame) : Prop where
  width : s.portWidth n l ≠ 0
  running : s.running = true
  region : s.regionRuns n = true
  link : s.rb (pbf PB_PORT_STATUS.LINK_UP n l) = true ∨ r.down = true
  mode : s.pairMode ≠ 2

theorem frameReceive_of_none (hr : MacReady s n l r) (h : s.heard n l r = none) : exec (.frameReceive n l r) s = .next s := by
  obtain ⟨hwidth, hrun, hreg, hlink, hmode⟩ := hr
  simp [exec_frameReceive, frameReceive, hwidth, hrun, hreg, hmode, h]

theorem frameReceive_of_heard {s' : State} {r' : RxFrame} (hr : MacReady s n l r) (h : s.heard n l r = some (s', r')) :
    exec (.frameReceive n l r) s = .next (s'.macReceive n l r') := by
  obtain ⟨hwidth, hrun, hreg, hlink, hmode⟩ := hr
  rw [exec_frameReceive, frameReceive, if_neg, if_neg hmode, h]
  rcases hlink with hup | hdown
  · simp [hwidth, hrun, hreg, hup]
  · simp [hwidth, hrun, hreg, hdown]

end Heard

end Sys2Proof.Machine

open Sys2Proof Sys2Proof.Machine

/-- Settles O6: the MAC hears the frame at its lanes or its own oldest one, stamps it with the clamped key and judges it by R52, whose MTU
the stamp leaves alone. The MAC's parity discard is log entry 169, the port that hears itself log entries 173 and 204, and the cycles that a
frame is stamped with log entry 180. -/
theorem receptionStamps : Obligations.ReceptionStamps := by
  unfold Obligations.ReceptionStamps
  refine ⟨?wire, ?behindLedger, ?loopback, ?key⟩
  case wire =>
    intro s n l r t hs hwidth hrun hreg hlink hmode hnear ht hled
    rw [frameReceive_of_heard ⟨hwidth, hrun, hreg, hlink, hmode⟩ (heard_of_wire hnear)]
    refine ⟨fun hadm => ?_, fun hadm hp hd hmac hfcs hdown hcode => ?_, fun hadm hp hd hmac hbad => ?_, fun hadm hp hd hmac => ?_,
      fun hadm hst hmac => ?_, fun hadm hst hmac => ?_⟩
    · rw [macReceive_of_not_admits (ht ▸ hadm)]
    · rw [macReceive_stamped ht hadm hled (by simp [hp, hd]), macOutcome_of_good hmac hfcs hdown (by rwa [mtu_stampKey hs])]
    · rw [macReceive_stamped ht hadm hled (by simp [hp, hd]), macOutcome_of_bad hmac (by rwa [mtu_stampKey hs])]
    · rw [macReceive_stamped ht hadm hled (by simp [hp, hd]), macOutcome_of_parity hmac, hp, hd]; rfl
    · have hno : (r.preamble && r.sfd) = false := Bool.and_eq_false_iff.2 hst
      rw [macReceive_unstamped ht hadm hno, macOutcome_of_bad hmac (.inr (.inr (rxCode_of_unstamped _ hno)))]
    · have hno : (r.preamble && r.sfd) = false := Bool.and_eq_false_iff.2 hst
      rw [macReceive_unstamped ht hadm hno, macOutcome_of_parity hmac, hno]
  case behindLedger =>
    intro s n l r t hs hwidth hrun hreg hlink hmode hnear ht hled hadm hp hd hmac hfcs hdown hcode
    rw [frameReceive_of_heard ⟨hwidth, hrun, hreg, .inl hlink, hmode⟩ (heard_of_wire hnear),
      macReceive_behind_ledger ht hadm hled (by simp [hp, hd]), macOutcome_of_good hmac hfcs hdown (by rwa [rf_ledCount])]
  case loopback =>
    intro s n l r d good rest hwidth hrun hreg hlink hmode hnear
    have hready : MacReady s n l r := ⟨hwidth, hrun, hreg, .inl hlink, hmode⟩
    exact ⟨fun hl => frameReceive_of_none hready (heard_of_empty_loop hnear hl),
      fun hl => frameReceive_of_heard hready (heard_of_loop hnear hl)⟩
  case key =>
    intro s p t hs hm hlast
    refine ⟨rfl, stampKey_of_below hs hlast, stampKey_of_not_below, fun hsame => ?_, fun hnew => ?_, ?_, stampKey_frame s p t⟩
    · rw [stampKey_seq, State.stampedIn, if_pos hsame]
    · rw [stampKey_seq, State.stampedIn, if_neg hnew, Nat.zero_mod]
    · rw [lastKey_stampKey hm, State.stampedIn]
      split <;> rfl
end

section
/-! PROOFS. What an operation of the wellhead may change: the words that raising, counting and sending may touch (R428, R578, R590 to R595), those
that noting an error touches (R443, R464), the fields of a ring's context (Table HI-9), and fields written one after another. -/

namespace Sys2Proof.Machine

/-! ### The words that an operation may change -/

section Changes

variable {s t u : State} {W V : Set Nat} {f : Fld} {a w v n k src data : Nat}

/-- A field in the first word of its register. -/
def Fld.low (f : Fld) : Bool := decide (f.lo < 32) && decide (f.lo + f.width ≤ 32)

/-- From `s` to `t` no word outside `W` changes, and the register map stays canonical. -/
structure Changes (W : Set Nat) (s t : State) : Prop where
  canon : s.regsCanon = true → t.regsCanon = true
  words : ∀ a, a ∉ W → t.reg a = s.reg a

/-- The same, and nothing but register words and event records changes. -/
structure EvtChanges (W : Set Nat) (s t : State) : Prop extends Changes W s t where
  same : SameButEvents s t

theorem Changes.refl (s : State) : Changes W s s := ⟨id, fun _ _ => rfl⟩

theorem Changes.trans (h1 : Changes W s t) (h2 : Changes W t u) : Changes W s u :=
  ⟨h2.canon ∘ h1.canon, fun a ha => (h2.words a ha).trans (h1.words a ha)⟩

theorem Changes.mono (h : Changes W s t) (hW : W ⊆ V) : Changes V s t := ⟨h.canon, fun a ha => h.words a fun hw => ha (hW hw)⟩

/-- A field within one word outside `W` reads as before. -/
theorem Changes.rf_low (h : Changes W s t) (hf : f.low = true) (hw : f.w ∉ W) : t.rf f = s.rf f := by
  simp only [Fld.low, Bool.and_eq_true, decide_eq_true_eq] at hf
  have hone : f.lo % 32 + f.width ≤ 32 := by omega
  simp only [State.rf, hone, if_true, Nat.div_eq_of_lt hf.1, Nat.add_zero, h.words _ hw]

/-- A field whose two words lie outside `W` reads as before. -/
theorem Changes.rf (h : Changes W s t) (hw : f.w + f.lo / 32 ∉ W) (hw' : f.w + f.lo / 32 + 1 ∉ W) : t.rf f = s.rf f :=
  rf_congr (h.words _ hw) (h.words _ hw')

theorem EvtChanges.refl (s : State) : EvtChanges W s s := ⟨.refl s, .refl s⟩

theorem EvtChanges.trans (h1 : EvtChanges W s t) (h2 : EvtChanges W t u) : EvtChanges W s u :=
  ⟨h1.toChanges.trans h2.toChanges, h1.same.trans h2.same⟩

theorem EvtChanges.mono (h : EvtChanges W s t) (hW : W ⊆ V) : EvtChanges V s t := ⟨h.toChanges.mono hW, h.same⟩

theorem evtChanges_foldl {α : Type} {g : State → α → State} {l : List α} (hg : ∀ s, ∀ x ∈ l, EvtChanges W s (g s x)) :
    EvtChanges W s (l.foldl g s) :=
  List.foldlRecOn (motive := EvtChanges W s) l g (.refl s) fun t ht x hx => ht.trans (hg t x hx)

/-- Only the register map counts. -/
theorem changes_of_regs_eq (h : t.regs = s.regs) : Changes W s t :=
  ⟨fun hs => (congrArg (scanon resetWord 0) h).trans hs, fun a _ => congrArg (sget resetWord · a) h⟩

theorem evtChanges_setReg {x : Word} (hw : w ∈ W) : EvtChanges W s (s.setReg w x) :=
  ⟨⟨regsCanon_setReg, fun _ ha => reg_setReg_ne fun h => ha (h ▸ hw)⟩, (sameButRegs_setReg ..).events⟩

theorem evtChanges_wf (hw : f.w + f.lo / 32 ∈ W) (hw' : 32 < f.lo % 32 + f.width → f.w + f.lo / 32 + 1 ∈ W) : EvtChanges W s (s.wf f v) := by
  unfold State.wf
  dsimp only
  split
  · exact evtChanges_setReg hw
  · exact (evtChanges_setReg hw).trans (evtChanges_setReg (hw' (by omega)))

theorem evtChanges_wf_low (h : f.low = true) (hw : f.w ∈ W) : EvtChanges W s (s.wf f v) := by
  simp only [Fld.low, Bool.and_eq_true, decide_eq_true_eq] at h
  exact evtChanges_wf (by rwa [Nat.div_eq_of_lt h.1]) (by omega)

theorem evtChanges_raise (h : src < 4096) (hW : {a | evtWord a = true} ⊆ W) : EvtChanges W s (s.raise src data) :=
  ⟨⟨(evtStep_raise h).canon, fun a ha => (evtStep_raise h).words a (Bool.eq_false_iff.2 fun he => ha (hW he))⟩, (evtStep_raise h).same⟩

end Changes

/-! ### Counting and messages (R428, R590 to R595) -/

section Side

variable {s : State} {f : Fld} {u code n t item k v src data : Nat} {q it : Option Nat}

/-- The words that raising an event, counting one and sending a message may change: the event words, `HIF_CNT`, the pending bits of the vectors,
and the counters, samples and snapshot banks of the counter units. -/
def sideWords : Set Nat :=
  {a | evtWord a = true ∨ (HIF_CNT.w 0 ≤ a ∧ a < HIF_CNT.w 64) ∨ (MSIX_PBA.w 0 ≤ a ∧ a < MSIX_PBA.w 64) ∨
    (CT_CNT.w 0 0 ≤ a ∧ a < CT_SNAP_BANK.w 256 0)}

theorem evtWord_mem_sideWords : {a | evtWord a = true} ⊆ sideWords := fun _ => .inl

theorem hifCnt_mem_sideWords (h : k < 128) : HIF_CNT.w 0 + k ∈ sideWords := by
  refine .inr (.inl ⟨by omega, ?_⟩)
  simp only [HIF_CNT.w]; omega

theorem pba_mem_sideWords (h : k < 64) : MSIX_PBA.w k ∈ sideWords := by
  refine .inr (.inr (.inl ?_))
  simp only [MSIX_PBA.w]; omega

theorem unitWord_mem_sideWords (h : CT_CNT.w 0 0 ≤ k) (h' : k < CT_SNAP_BANK.w 256 0) : k ∈ sideWords := .inr (.inr (.inr ⟨h, h'⟩))

theorem evtChanges_count (h : k < 64) : EvtChanges sideWords s (s.count (HIF_CNT.COUNT k) t) := by
  unfold State.count State.countBy
  split
  · refine evtChanges_wf ?_ fun _ => ?_
    · convert hifCnt_mem_sideWords (k := k * 2) (by omega) using 1
      simp [HIF_CNT.COUNT, HIF_CNT.w]
    · convert hifCnt_mem_sideWords (k := k * 2 + 1) (by omega) using 1
      simp [HIF_CNT.COUNT, HIF_CNT.w]; omega
  · exact .refl s

theorem unitRegion_lt (h : unitRegion u = some n) : n < 8 := by
  unfold unitRegion at h
  split_ifs at h <;> simp at h <;> omega

theorem unitStatus_mem_sideWords (hu : u < 256) : CT_UNIT_STATUS.w u ∈ sideWords := by
  refine unitWord_mem_sideWords ?_ ?_ <;> simp only [CT_UNIT_STATUS.w, CT_CNT.w, CT_SNAP_BANK.w] <;> omega

theorem evtChanges_sampleWord {x : Word} (hu : u < 256) (hk : k < 4) : EvtChanges sideWords s (s.setReg (CT_SAMPLE.w u + k) x) :=
  evtChanges_setReg (unitWord_mem_sideWords (by simp only [CT_SAMPLE.w, CT_CNT.w]; omega)
    (by simp only [CT_SAMPLE.w, CT_SNAP_BANK.w]; omega))

theorem evtChanges_wrapped (hu : u < 256) : EvtChanges sideWords s (s.wrapped u k code item) := by
  have hovf : EvtChanges sideWords s (s.wf (CT_UNIT_STATUS.OVF u) (s.rf (CT_UNIT_STATUS.OVF u) ||| 2 ^ k)) :=
    evtChanges_wf_low rfl (unitStatus_mem_sideWords hu)
  unfold State.wrapped
  dsimp only
  refine hovf.trans ?_
  generalize s.wf (CT_UNIT_STATUS.OVF u) _ = m
  split
  · exact .refl m
  · split
    · exact evtChanges_wf_low rfl (unitStatus_mem_sideWords hu)
    · refine ((((evtChanges_sampleWord (k := 0) hu (by omega)).trans (evtChanges_sampleWord hu (by omega))).trans
        (evtChanges_sampleWord hu (by omega))).trans (evtChanges_sampleWord hu (by omega))).trans
        (evtChanges_raise ?_ evtWord_mem_sideWords)
      split
      · next n hn =>
        have := unitRegion_lt hn
        unfold regionSrc
        omega
      · decide

theorem evtChanges_evOne (hu : u < 256) (hk : k < 8) : EvtChanges sideWords s (s.evOne u code q n t item k) := by
  have hcnt : ∀ (s : State) (x : Nat), EvtChanges sideWords s (s.wf (CT_CNT.COUNT u k) x) := fun s x => by
    refine evtChanges_wf ?_ fun _ => ?_ <;> refine unitWord_mem_sideWords ?_ ?_ <;>
      simp only [CT_CNT.COUNT, CT_CNT.w, CT_SNAP_BANK.w] <;> omega
  have hsnap : ∀ (s : State) (x : Nat), EvtChanges sideWords s (s.wf (CT_SNAP_BANK.COUNT u (k + 1)) x) := fun s x => by
    refine evtChanges_wf ?_ fun _ => ?_ <;> refine unitWord_mem_sideWords ?_ ?_ <;>
      simp only [CT_SNAP_BANK.COUNT, CT_CNT.w, CT_SNAP_BANK.w] <;> omega
  have hwrap : ∀ (s : State) (c : Nat), EvtChanges sideWords s (if c < 2 ^ 48 then s else s.wrapped u k code item) := fun s c => by
    split
    · exact .refl s
    · exact evtChanges_wrapped hu
  unfold State.evOne
  dsimp only
  split
  · refine ((hcnt s (s.rf (CT_CNT.COUNT u k) + n)).trans ?_).trans (hwrap _ _)
    split
    · exact hsnap _ _
    · exact .refl _
  · exact .refl s

theorem evtChanges_ev (hu : u < 256) : EvtChanges sideWords s (s.ev u code q n t item) := by
  unfold State.ev
  split
  · exact evtChanges_foldl fun s k hk => evtChanges_evOne hu (List.mem_range.1 hk)
  · exact .refl s

theorem changes_sendMsi (hv : v < 2048) : Changes sideWords s (s.sendMsi v it) := by
  unfold State.sendMsi
  split
  · exact (evtChanges_setReg (pba_mem_sideWords (by omega))).toChanges
  · exact (changes_of_regs_eq (emit_regs s _)).trans ((evtChanges_count (by decide)).trans (evtChanges_ev (by decide))).toChanges

theorem sendMsi_hostMem : (s.sendMsi v it).hostMem = s.hostMem := by
  unfold State.sendMsi
  split
  · rfl
  · rw [((evtChanges_count (by decide)).trans (evtChanges_ev (by decide))).same]
    rfl

end Side

/-! ### Noting an error (R443, R464) -/

section HifErr

variable {s t : State} {f g : Fld} {r b k src e : Nat}

/-- The words that noting an error of the wellhead may change. -/
def errWords : Set Nat := {a | evtWord a = true ∨ a = HIF_ERR.w ∨ a = HIF_ERR_LOC.w}

theorem evtWord_mem_errWords : {a | evtWord a = true} ⊆ errWords := fun _ => .inl

/-- A bit of `HIF_ERR`. -/
def Fld.ofHifErr (f : Fld) : Bool := f.low && f.w = HIF_ERR.w && f.width = 1

theorem evtChanges_hifLoc : EvtChanges errWords s (s.hifLoc r b) := by
  unfold State.hifLoc
  split
  · exact (evtChanges_wf_low rfl (.inr (.inr rfl))).trans (evtChanges_wf_low rfl (.inr (.inr rfl)))
  · exact .refl s

theorem evtChanges_hifErr (hf : f.ofHifErr = true) : EvtChanges errWords s (s.hifErr f r) := by
  simp only [Fld.ofHifErr, Bool.and_eq_true, decide_eq_true_eq] at hf
  obtain ⟨⟨hlow, hw⟩, -⟩ := hf
  have hset : EvtChanges errWords s ((s.hifLoc r f.lo).wf f 1) :=
    evtChanges_hifLoc.trans (evtChanges_wf_low hlow (.inr (.inl hw)))
  unfold State.hifErr
  dsimp only
  split
  · exact hset
  · exact hset.trans (evtChanges_raise (by decide) evtWord_mem_errWords)

theorem Fld.ofHifErr_quiet (hf : f.ofHifErr = true) : f.fits = true ∧ f.width = 1 ∧ f.quiet = true ∧ f.w = HIF_ERR.w ∧ f.lo < 32 := by
  simp only [Fld.ofHifErr, Fld.low, Bool.and_eq_true, decide_eq_true_eq] at hf
  obtain ⟨⟨⟨hlo, -⟩, hw⟩, hwidth⟩ := hf
  refine ⟨by simp [Fld.fits, hwidth]; omega, hwidth, ?_, hw, hlo⟩
  have : f.lo / 32 = 0 := by omega
  simp [Fld.quiet, hw, hwidth, this, HIF_ERR.w, evtWord]

/-- After the recorded place, a bit's own update is all that `hifErr` does outside the event words. -/
theorem rf_hifErr (hg : g.quiet = true) : (s.hifErr f r).rf g = ((s.hifLoc r f.lo).wf f 1).rf g := by
  unfold State.hifErr
  dsimp only
  split
  · rfl
  · exact rf_raise (by decide) hg

theorem rb_hifErr_same (hs : s.regsCanon = true) (hf : f.ofHifErr = true) : (s.hifErr f r).rb f = true := by
  obtain ⟨hfits, hwidth, hquiet, -, -⟩ := Fld.ofHifErr_quiet hf
  rw [State.rb, rf_hifErr hquiet, rf_wf_same (evtChanges_hifLoc.canon hs) hfits, hwidth]
  rfl

/-- Another bit of `HIF_ERR` stays as it is. -/
theorem rb_hifErr_other (hs : s.regsCanon = true) (hf : f.ofHifErr = true) (hg : g.ofHifErr = true) (h : f.lo ≠ g.lo) :
    (s.hifErr f r).rb g = s.rb g := by
  obtain ⟨hfits, hwidth, -, hw, -⟩ := Fld.ofHifErr_quiet hf
  obtain ⟨hfits', hwidth', hquiet', hw', hlo'⟩ := Fld.ofHifErr_quiet hg
  have hloc : (s.hifLoc r f.lo).rf g = s.rf g := by
    have hword : (s.hifLoc r f.lo).reg HIF_ERR.w = s.reg HIF_ERR.w := by
      unfold State.hifLoc
      split
      · rw [reg_wf_ne_one (by decide) (by decide), reg_wf_ne_one (by decide) (by decide)]
      · rfl
    have hone : g.lo % 32 + g.width ≤ 32 := by omega
    have hidx : g.w + g.lo / 32 = HIF_ERR.w := by omega
    simp only [State.rf, hone, if_true, hidx, hword]
  rw [State.rb, rf_hifErr hquiet', rf_wf_apart (evtChanges_hifLoc.canon hs) hfits hfits' ?_, hloc, State.rb]
  simp only [Fld.apart, Fld.abs, hw, hw', hwidth, hwidth', Bool.or_eq_true, decide_eq_true_eq]
  omega

theorem evtChanges_hifErrEv (hf : f.ofHifErr = true) (h : src < 4096) : EvtChanges errWords s (s.hifErrEv f r src) :=
  (evtChanges_hifErr hf).trans (evtChanges_raise h evtWord_mem_errWords)

theorem rb_hifErrEv_same (hs : s.regsCanon = true) (hf : f.ofHifErr = true) (h : src < 4096) : (s.hifErrEv f r src).rb f = true := by
  obtain ⟨-, -, hquiet, -, -⟩ := Fld.ofHifErr_quiet hf
  rw [State.hifErrEv, State.rb, rf_raise h hquiet]
  exact rb_hifErr_same hs hf

end HifErr

/-! ### The fields of a ring's context (Table HI-9) -/

section Places

variable (r : Nat)

/-- The place of bit 0 of a ring's context. -/
def ringPlace : Nat := HIF_RING_CTRL.w r * 32

@[simp] theorem place_ringEnable : (HIF_RING_CTRL.ENABLE r).abs = ringPlace r ∧ (HIF_RING_CTRL.ENABLE r).width = 1 ∧
    (HIF_RING_CTRL.ENABLE r).fits = true := ⟨rfl, rfl, rfl⟩

@[simp] theorem place_ringType : (HIF_RING_CTRL.TYPE r).abs = ringPlace r + 1 ∧ (HIF_RING_CTRL.TYPE r).width = 3 ∧
    (HIF_RING_CTRL.TYPE r).fits = true := ⟨rfl, rfl, rfl⟩

@[simp] theorem place_ringLogSize : (HIF_RING_CTRL.LOG_SIZE r).abs = ringPlace r + 4 ∧ (HIF_RING_CTRL.LOG_SIZE r).width = 4 ∧
    (HIF_RING_CTRL.LOG_SIZE r).fits = true := ⟨rfl, rfl, rfl⟩

@[simp] theorem place_ringHwbEn : (HIF_RING_CTRL.HWB_EN r).abs = ringPlace r + 8 ∧ (HIF_RING_CTRL.HWB_EN r).width = 1 ∧
    (HIF_RING_CTRL.HWB_EN r).fits = true := ⟨rfl, rfl, rfl⟩

@[simp] theorem place_ringCq : (HIF_RING_BIND.CQ r).abs = ringPlace r + 32 ∧ (HIF_RING_BIND.CQ r).width = 14 ∧
    (HIF_RING_BIND.CQ r).fits = true :=
  ⟨by simp only [Fld.abs, ringPlace, HIF_RING_BIND.CQ, HIF_RING_BIND.w, HIF_RING_CTRL.w]; omega, rfl, rfl⟩

@[simp] theorem place_ringHwbAddr : (HIF_RING_HWB.ADDR r).abs = ringPlace r + 163 ∧ (HIF_RING_HWB.ADDR r).width = 61 ∧
    (HIF_RING_HWB.ADDR r).fits = true :=
  ⟨by simp only [Fld.abs, ringPlace, HIF_RING_HWB.ADDR, HIF_RING_HWB.w, HIF_RING_CTRL.w]; omega, rfl, rfl⟩

@[simp] theorem place_ringStart : (HIF_RING_START.INDEX r).abs = ringPlace r + 224 ∧ (HIF_RING_START.INDEX r).width = 17 ∧
    (HIF_RING_START.INDEX r).fits = true :=
  ⟨by simp only [Fld.abs, ringPlace, HIF_RING_START.INDEX, HIF_RING_START.w, HIF_RING_CTRL.w]; omega, rfl, rfl⟩

@[simp] theorem place_ringState : (HIF_RING_STATUS.STATE r).abs = ringPlace r + 256 ∧ (HIF_RING_STATUS.STATE r).width = 3 ∧
    (HIF_RING_STATUS.STATE r).fits = true :=
  ⟨by simp only [Fld.abs, ringPlace, HIF_RING_STATUS.STATE, HIF_RING_STATUS.w, HIF_RING_CTRL.w]; omega, rfl, rfl⟩

@[simp] theorem place_ringArmed : (HIF_RING_STATUS.ARMED r).abs = ringPlace r + 259 ∧ (HIF_RING_STATUS.ARMED r).width = 1 ∧
    (HIF_RING_STATUS.ARMED r).fits = true :=
  ⟨by simp only [Fld.abs, ringPlace, HIF_RING_STATUS.ARMED, HIF_RING_STATUS.w, HIF_RING_CTRL.w]; omega, rfl, rfl⟩

@[simp] theorem place_ringCached : (HIF_RING_STATUS.CACHED r).abs = ringPlace r + 268 ∧ (HIF_RING_STATUS.CACHED r).width = 6 ∧
    (HIF_RING_STATUS.CACHED r).fits = true :=
  ⟨by simp only [Fld.abs, ringPlace, HIF_RING_STATUS.CACHED, HIF_RING_STATUS.w, HIF_RING_CTRL.w]; omega, rfl, rfl⟩

@[simp] theorem place_ringSuspended : (HIF_RING_STATUS.SUSPENDED r).abs = ringPlace r + 274 ∧ (HIF_RING_STATUS.SUSPENDED r).width = 1 ∧
    (HIF_RING_STATUS.SUSPENDED r).fits = true :=
  ⟨by simp only [Fld.abs, ringPlace, HIF_RING_STATUS.SUSPENDED, HIF_RING_STATUS.w, HIF_RING_CTRL.w]; omega, rfl, rfl⟩

@[simp] theorem place_ringHead : (HIF_RING_HEAD.HEAD r).abs = ringPlace r + 288 ∧ (HIF_RING_HEAD.HEAD r).width = 17 ∧
    (HIF_RING_HEAD.HEAD r).fits = true :=
  ⟨by simp only [Fld.abs, ringPlace, HIF_RING_HEAD.HEAD, HIF_RING_HEAD.w, HIF_RING_CTRL.w]; omega, rfl, rfl⟩

@[simp] theorem place_ringTail : (HIF_RING_TAIL.TAIL r).abs = ringPlace r + 320 ∧ (HIF_RING_TAIL.TAIL r).width = 17 ∧
    (HIF_RING_TAIL.TAIL r).fits = true :=
  ⟨by simp only [Fld.abs, ringPlace, HIF_RING_TAIL.TAIL, HIF_RING_TAIL.w, HIF_RING_CTRL.w]; omega, rfl, rfl⟩

end Places

section Rings

variable {s t : State} {W : Set Nat} {f : Fld} {r q k v : Nat}

theorem Fld.word_eq (f : Fld) : f.w + f.lo / 32 = f.abs / 32 := by unfold Fld.abs; omega

/-- A field of ring `r`'s context. -/
def Fld.ofRing (f : Fld) (r : Nat) : Prop := ringPlace r ≤ f.abs ∧ f.abs + f.width < ringPlace r + 480

theorem ofRing_head (r : Nat) : (HIF_RING_HEAD.HEAD r).ofRing r := by simp [Fld.ofRing]
theorem ofRing_tail (r : Nat) : (HIF_RING_TAIL.TAIL r).ofRing r := by simp [Fld.ofRing]
theorem ofRing_state (r : Nat) : (HIF_RING_STATUS.STATE r).ofRing r := by simp [Fld.ofRing]
theorem ofRing_suspended (r : Nat) : (HIF_RING_STATUS.SUSPENDED r).ofRing r := by simp [Fld.ofRing]
theorem ofRing_cached (r : Nat) : (HIF_RING_STATUS.CACHED r).ofRing r := by simp [Fld.ofRing]
theorem ofRing_enable (r : Nat) : (HIF_RING_CTRL.ENABLE r).ofRing r := by simp [Fld.ofRing]
theorem ofRing_type (r : Nat) : (HIF_RING_CTRL.TYPE r).ofRing r := by simp [Fld.ofRing]
theorem ofRing_hwbAddr (r : Nat) : (HIF_RING_HWB.ADDR r).ofRing r := by simp [Fld.ofRing]

/-- A field outside the contexts of all rings. -/
def Fld.offRings (f : Fld) : Bool := decide (f.abs + f.width ≤ ringPlace 0) || decide (ringPlace (2 ^ 14) ≤ f.abs)

theorem apart_of_offRings {g : Fld} (hr : r < 2 ^ 14) (hf : f.offRings = true) (hg : g.ofRing r) : f.apart g = true ∧ g.apart f = true := by
  obtain ⟨hlo, hhi⟩ := hg
  simp only [Fld.offRings, Fld.apart, Bool.or_eq_true, decide_eq_true_eq] at hf ⊢
  simp only [ringPlace, HIF_RING_CTRL.w] at hf hlo hhi
  omega

/-- The words `W` leave the context of ring `r` alone. -/
def SparesRing (W : Set Nat) (r : Nat) : Prop := ∀ k < 16, HIF_RING_CTRL.w r + k ∉ W

theorem sparesRing_errWords (h : r < 2 ^ 14) : SparesRing errWords r := by
  intro k hk
  simp only [errWords, Set.mem_ofPred_eq, evtWord, HIF_RING_CTRL.w, HIF_ERR.w, HIF_ERR_LOC.w, Bool.or_eq_true, Bool.and_eq_true,
    decide_eq_true_eq]
  omega

theorem sparesRing_sideWords (h : r < 2 ^ 14) : SparesRing sideWords r := by
  intro k hk
  simp only [sideWords, Set.mem_ofPred_eq, evtWord, HIF_RING_CTRL.w, HIF_CNT.w, MSIX_PBA.w, CT_CNT.w, CT_SNAP_BANK.w, Bool.or_eq_true,
    Bool.and_eq_true, decide_eq_true_eq]
  omega

theorem Changes.rf_ring (h : Changes W s t) (hW : SparesRing W r) (hf : f.ofRing r) : t.rf f = s.rf f := by
  obtain ⟨hlo, hhi⟩ := hf
  unfold ringPlace at hlo hhi
  obtain ⟨k, hk⟩ : ∃ k, f.abs / 32 = HIF_RING_CTRL.w r + k := Nat.exists_eq_add_of_le (by omega)
  refine h.rf ?_ ?_ <;> rw [f.word_eq, hk]
  · exact hW k (by omega)
  · exact hW (k + 1) (by omega)

/-- The fields of a ring's context keep what they read when an error is noted. -/
theorem rf_hifErr_ring {g : Fld} (hf : f.ofHifErr = true) (hr : r < 2 ^ 14) (hg : g.ofRing r) : (s.hifErr f q).rf g = s.rf g :=
  (evtChanges_hifErr hf).toChanges.rf_ring (sparesRing_errWords hr) hg

end Rings

/-! ### Fields written one after another -/

section Puts

variable {s : State} {l : List (Fld × Nat)} {f g : Fld} {v : Nat}

/-- Write fields one after another. -/
def State.puts (s : State) : List (Fld × Nat) → State
  | [] => s
  | (f, v) :: l => (s.wf f v).puts l

/-- Fields that fit their words and share no bit with each other. -/
def Separate (l : List (Fld × Nat)) : Prop :=
  (∀ p ∈ l, p.1.fits = true) ∧ l.Pairwise fun p q => q.1.apart p.1 = true

theorem regsCanon_puts (hs : s.regsCanon = true) : (s.puts l).regsCanon = true := by
  induction l generalizing s with
  | nil => exact hs
  | cons p l ih => exact ih (regsCanon_wf hs)

theorem puts_append {l' : List (Fld × Nat)} : s.puts (l ++ l') = (s.puts l).puts l' := by
  induction l generalizing s with
  | nil => rfl
  | cons p l ih => exact ih

theorem sameButRegs_puts (s : State) (l : List (Fld × Nat)) : SameButRegs s (s.puts l) := by
  induction l generalizing s with
  | nil => exact .refl s
  | cons p l ih => exact (sameButRegs_wf s p.1 p.2).trans (ih _)

theorem fieldsKept_puts (hs : s.regsCanon = true) (hl : ∀ p ∈ l, p.1.fits = true) : FieldsKept s (s.puts l) (l.map Prod.fst) := by
  induction l generalizing s with
  | nil => exact .refl s
  | cons p l ih =>
    exact (fieldsKept_wf hs (hl p List.mem_cons_self)).trans (ih (regsCanon_wf hs) fun q hq => hl q (List.mem_cons_of_mem _ hq))

/-- A field apart from all that are written keeps its value. -/
theorem rf_puts_apart (hs : s.regsCanon = true) (hl : ∀ p ∈ l, p.1.fits = true) (hg : g.fits = true) (ha : ∀ p ∈ l, p.1.apart g = true) :
    (s.puts l).rf g = s.rf g :=
  fieldsKept_puts hs hl g hg fun f hf => by
    obtain ⟨p, hp, rfl⟩ := List.mem_map.1 hf
    exact ha p hp

/-- Of separate fields, each reads what was written to it. -/
theorem rf_puts_mem (hs : s.regsCanon = true) (hl : Separate l) (h : (f, v) ∈ l) : (s.puts l).rf f = v % 2 ^ f.width := by
  induction l generalizing s with
  | nil => exact absurd h List.not_mem_nil
  | cons p l ih =>
    obtain ⟨hfit, hpair⟩ := hl
    obtain ⟨hhead, htail⟩ := List.pairwise_cons.1 hpair
    have hfit' : ∀ q ∈ l, q.1.fits = true := fun q hq => hfit q (List.mem_cons_of_mem _ hq)
    rcases List.mem_cons.1 h with rfl | hmem
    · exact (rf_puts_apart (regsCanon_wf hs) hfit' (hfit _ List.mem_cons_self) hhead).trans
        (rf_wf_same hs (hfit _ List.mem_cons_self))
    · exact ih (regsCanon_wf hs) ⟨hfit', htail⟩ hmem

@[simp] theorem puts_evts : (s.puts l).evts = s.evts := by rw [sameButRegs_puts s l]
@[simp] theorem puts_rings : (s.puts l).rings = s.rings := by rw [sameButRegs_puts s l]
@[simp] theorem puts_hostMem : (s.puts l).hostMem = s.hostMem := by rw [sameButRegs_puts s l]
@[simp] theorem ringX_puts (r : Nat) : (s.puts l).ringX r = s.ringX r := by rw [State.ringX, puts_rings, State.ringX]

end Puts
end Sys2Proof.Machine
end

section
/-! PROOFS. The parts of a ring's life: host memory and the head write-back (R434), the descriptor cache (R417, R418), the end of a disable (R432),
the credit of a completion ring (R424), and the service of a written ring (R423, R424, R429). -/

namespace Sys2Proof.Machine

/-! ### What the wellhead touches: registers, event records, rings and host memory -/

section Frames

variable {s t u : State} {W : Set Nat} {r q : Nat} {x : RingX} {f : Fld} {v : Nat}

/-- `t` is `s` but for register words, event records, what is held of rings, and host memory. -/
def SameButHost (s t : State) : Prop := t = { s with regs := t.regs, evts := t.evts, rings := t.rings, hostMem := t.hostMem }

theorem SameButHost.trans (h1 : SameButHost s t) (h2 : SameButHost t u) : SameButHost s u := by
  unfold SameButHost at *; rw [h2, h1]

theorem SameButEvents.host (h : SameButEvents s t) : SameButHost s t := by
  unfold SameButEvents at h; unfold SameButHost; rw [h]

theorem SameButRegs.host (h : SameButRegs s t) : SameButHost s t := h.events.host

theorem sameButHost_setRingX (s : State) (r : Nat) (x : RingX) : SameButHost s (s.setRingX r x) := rfl

/-- Without a write to host memory. -/
theorem SameButHost.rings (h : SameButHost s t) (hm : t.hostMem = s.hostMem) :
    t = { s with regs := t.regs, evts := t.evts, rings := t.rings } := by
  unfold SameButHost at h; rw [hm] at h; exact h

/-- Without a write to host memory and without an event. -/
theorem SameButHost.regsRings (h : SameButHost s t) (hm : t.hostMem = s.hostMem) (he : t.evts = s.evts) :
    t = { s with regs := t.regs, rings := t.rings } := by
  have h' := h.rings hm; rw [he] at h'; exact h'

theorem SameButEvents.hostMem (h : SameButEvents s t) : t.hostMem = s.hostMem := by
  unfold SameButEvents at h; rw [h]

theorem SameButEvents.rings_eq (h : SameButEvents s t) : t.rings = s.rings := by
  unfold SameButEvents at h; rw [h]

theorem SameButEvents.ringX (h : SameButEvents s t) (r : Nat) : t.ringX r = s.ringX r := by
  rw [State.ringX, h.rings_eq, State.ringX]

/-- What is held of rings, in canonical form. -/
def State.ringsCanon (s : State) : Prop := scanon (fun _ => ({} : RingX)) 0 s.rings = true

theorem ringsCanon_of_mapsCanon (h : s.mapsCanon = true) : s.ringsCanon := by
  simp only [State.mapsCanon, mapCanon, Bool.and_eq_true] at h
  unfold State.ringsCanon
  tauto

theorem ringsCanon_setRingX (h : s.ringsCanon) : (s.setRingX r x).ringsCanon := mset_canon h

/-- What differs from the state at reset is held even in a map that is not canonical. -/
theorem ringX_setRingX_of_ne (hx : x ≠ {}) : (s.setRingX r x).ringX r = x := by
  unfold State.setRingX State.ringX
  simp only [withRings_rings]
  generalize s.rings = m
  induction m with
  | nil => simp [mget, mset, sset, sget, hx]
  | cons p m ih =>
    obtain ⟨k, y⟩ := p
    simp only [mget, mset, sset, hx, if_false] at ih ⊢
    split
    · simp [sget]
    · split
      · simp [sget]
      · next hk => simpa [sget, hk] using ih

theorem rf_congr_regs {a b : State} (h : a.regs = b.regs) (f : Fld) : a.rf f = b.rf f := by
  simp only [State.rf, State.reg, h]

theorem wf_regs_congr {a b : State} (h : a.regs = b.regs) (f : Fld) (x : Nat) : (a.wf f x).regs = (b.wf f x).regs := by
  have hreg : ∀ w, a.reg w = b.reg w := fun w => congrArg (sget resetWord · w) h
  unfold State.wf
  dsimp only
  rw [hreg, hreg]
  split <;> simp [State.setReg, h]

theorem wf_setRingX : (s.setRingX r x).wf f v = (s.wf f v).setRingX r x := by
  unfold State.wf
  dsimp only
  split <;> rfl

end Frames

/-! ### Host memory -/

section HostMem

variable {s t : State} {a b n v : Nat} {l : List Byte}

theorem memCanon_of_canon (h : s.canon = true) : scanon (fun _ => (0 : Byte)) 0 s.hostMem = true := by
  simp only [State.canon, State.wf2, State.memCanon, Bool.and_eq_true] at h
  exact h.1.2

theorem regsCanon_of_canon (h : s.canon = true) : s.regsCanon = true := by
  simp only [State.canon, State.wf2, Bool.and_eq_true] at h
  exact h.1.1

theorem mapsCanon_of_canon (h : s.canon = true) : s.mapsCanon = true := by
  simp only [State.canon, Bool.and_eq_true] at h
  exact h.2

theorem hostWrite_eq (s : State) (a : Nat) (l : List Byte) : s.hostWrite a l = s.withHostMem (s.hostWrite a l).hostMem := by
  induction l generalizing s a with
  | nil => rfl
  | cons b l ih => exact ih (s.withHostMem (mset 0 s.hostMem (a % 2 ^ 64) b)) (a + 1)

theorem hostWrite_regs : (s.hostWrite a l).regs = s.regs := by rw [hostWrite_eq]; rfl

theorem rf_hostWrite {f : Fld} : (s.hostWrite a l).rf f = s.rf f := by rw [hostWrite_eq]; rfl

theorem ringX_hostWrite {r : Nat} : (s.hostWrite a l).ringX r = s.ringX r := by rw [hostWrite_eq]; rfl

theorem sameButHost_hostWrite : SameButHost s (s.hostWrite a l) := by rw [hostWrite_eq]; rfl

/-- A write leaves the bytes outside its range alone. -/
theorem hostByte_hostWrite_out (hfit : a + l.length ≤ 2 ^ 64) (hb : b < a ∨ a + l.length ≤ b) :
    (s.hostWrite a l).hostByte b = s.hostByte b := by
  induction l generalizing s a with
  | nil => rfl
  | cons c l ih =>
    rw [List.length_cons] at hfit hb
    have hne : b ≠ a % 2 ^ 64 := by omega
    refine (ih (s := s.withHostMem (mset 0 s.hostMem (a % 2 ^ 64) c)) (a := a + 1) (by omega) (by omega)).trans ?_
    exact mget_mset_ne hne

/-- A read of what was written. -/
theorem hostRead_hostWrite (hm : scanon (fun _ => (0 : Byte)) 0 s.hostMem = true) (hfit : a + l.length ≤ 2 ^ 64) :
    (s.hostWrite a l).hostRead a l.length = l := by
  induction l generalizing s a with
  | nil => rfl
  | cons c l ih =>
    rw [List.length_cons] at hfit
    have ha : a % 2 ^ 64 = a := Nat.mod_eq_of_lt (by omega)
    rw [List.length_cons, State.hostRead, State.hostWrite, ih (mset_canon hm) (by omega), ha,
      hostByte_hostWrite_out (by omega) (.inl (by omega)), State.hostByte, withHostMem_hostMem, mget_mset_same hm]

theorem hostRead_congr (h : t.hostMem = s.hostMem) : t.hostRead a n = s.hostRead a n := by
  induction n generalizing a with
  | zero => rfl
  | succ n ih => rw [State.hostRead, State.hostRead, ih, State.hostByte, State.hostByte, h]

theorem length_bytesLE : (bytesLE n v).length = n := by
  induction n generalizing v with
  | zero => rfl
  | succ n ih => rw [bytesLE, List.length_cons, ih]

theorem natLE_bytesLE (h : v < 256 ^ n) : natLE (bytesLE n v) = v := by
  induction n generalizing v with
  | zero => simp [bytesLE, natLE]; omega
  | succ n ih =>
    have hdiv : v / 256 < 256 ^ n := Nat.div_lt_of_lt_mul (by rwa [Nat.pow_succ, Nat.mul_comm] at h)
    rw [bytesLE, natLE, ih hdiv, BitVec.toNat_ofNat]
    omega

end HostMem

/-! ### Parts of a ring's life -/

section Parts

variable {s t : State} {f g : Fld} {r q k v cq : Nat}

theorem evtChanges_dmaWrite (b item : Nat) : EvtChanges sideWords s (s.dmaWrite b item) := evtChanges_ev (by decide)

/-! The head write-back (R434). -/

/-- The address of a head write-back and the four bytes behind it do not wrap. -/
theorem hwbAddr_fits (s : State) (r : Nat) : s.rf (HIF_RING_HWB.ADDR r) * 8 + 4 ≤ 2 ^ 64 := by
  have h : s.rf (HIF_RING_HWB.ADDR r) < 2 ^ 61 := rf_lt _
  omega

/-- The state in which the four bytes are written. -/
def State.writeBackFrom (s : State) (r : Nat) : State :=
  (s.setRingX r { s.ringX r with hwbDue := false }).dmaWrite 4 (r + s.ringHead r * 2 ^ 14)

theorem evtChanges_writeBackFrom (s : State) (r : Nat) :
    EvtChanges sideWords (s.setRingX r { s.ringX r with hwbDue := false }) (s.writeBackFrom r) := evtChanges_dmaWrite ..

theorem rf_writeBackFrom (hr : r < 2 ^ 14) (hf : f.ofRing r) : (s.writeBackFrom r).rf f = s.rf f :=
  (evtChanges_writeBackFrom s r).toChanges.rf_ring (sparesRing_sideWords hr) hf

theorem writeBack_eq (hr : r < 2 ^ 14) :
    s.writeBack r = (s.writeBackFrom r).hostWrite (s.rf (HIF_RING_HWB.ADDR r) * 8) (bytesLE 4 (s.ringHead r)) := by
  have haddr : (s.writeBackFrom r).rf (HIF_RING_HWB.ADDR r) = s.rf (HIF_RING_HWB.ADDR r) := rf_writeBackFrom hr (ofRing_hwbAddr r)
  have hhead : (s.writeBackFrom r).ringHead r = s.ringHead r := rf_writeBackFrom hr (ofRing_head r)
  calc s.writeBack r = (s.writeBackFrom r).hostWrite ((s.writeBackFrom r).rf (HIF_RING_HWB.ADDR r) * 8)
        (bytesLE 4 ((s.writeBackFrom r).ringHead r)) := rfl
    _ = _ := by rw [haddr, hhead]

theorem regsCanon_writeBack (hr : r < 2 ^ 14) (hs : s.regsCanon = true) : (s.writeBack r).regsCanon = true := by
  rw [writeBack_eq hr, State.regsCanon, hostWrite_regs]
  exact (evtChanges_writeBackFrom s r).canon hs

theorem sameButHost_writeBack (hr : r < 2 ^ 14) : SameButHost s (s.writeBack r) := by
  rw [writeBack_eq hr]
  exact ((sameButHost_setRingX s r _).trans (evtChanges_writeBackFrom s r).same.host).trans sameButHost_hostWrite

theorem ringX_writeBack (hr : r < 2 ^ 14) :
    (s.writeBack r).ringX q = (s.setRingX r { s.ringX r with hwbDue := false }).ringX q := by
  rw [writeBack_eq hr, ringX_hostWrite, (evtChanges_writeBackFrom s r).same.ringX]

/-- The four bytes spell the head. -/
theorem hostRead_writeBack (hr : r < 2 ^ 14) (hm : scanon (fun _ => (0 : Byte)) 0 s.hostMem = true) :
    natLE ((s.writeBack r).hostRead (s.rf (HIF_RING_HWB.ADDR r) * 8) 4) = s.ringHead r := by
  have hhead : s.ringHead r < 2 ^ 17 := rf_lt _
  have hmem : (s.writeBackFrom r).hostMem = s.hostMem := (evtChanges_writeBackFrom s r).same.hostMem
  have hread := hostRead_hostWrite (s := s.writeBackFrom r) (a := s.rf (HIF_RING_HWB.ADDR r) * 8) (l := bytesLE 4 (s.ringHead r))
    (by rwa [hmem]) (by rw [length_bytesLE]; exact hwbAddr_fits s r)
  rw [length_bytesLE] at hread
  rw [writeBack_eq hr, hread, natLE_bytesLE (by omega)]

theorem hostByte_writeBack_out {a : Nat} (hr : r < 2 ^ 14)
    (ha : a < s.rf (HIF_RING_HWB.ADDR r) * 8 ∨ s.rf (HIF_RING_HWB.ADDR r) * 8 + 4 ≤ a) : (s.writeBack r).hostByte a = s.hostByte a := by
  have hmem : (s.writeBackFrom r).hostMem = s.hostMem := (evtChanges_writeBackFrom s r).same.hostMem
  rw [writeBack_eq hr, hostByte_hostWrite_out (by rw [length_bytesLE]; exact hwbAddr_fits s r) (by rwa [length_bytesLE]),
    State.hostByte, hmem, State.hostByte]

/-! The cache of descriptors (R418, R432). -/

/-- Discarding the cache changes registers only where it shows the cache's size. -/
theorem dropCache_regs (s : State) (r : Nat) : (s.dropCache r).regs = (s.wf (HIF_RING_STATUS.CACHED r) 0).regs := by
  simp [State.dropCache, State.setEntries, wf_setRingX]

theorem rf_dropCache (s : State) (r : Nat) (f : Fld) : (s.dropCache r).rf f = (s.wf (HIF_RING_STATUS.CACHED r) 0).rf f :=
  rf_congr_regs (dropCache_regs s r) f

theorem sameButHost_dropCache (s : State) (r : Nat) : SameButHost s (s.dropCache r) := by
  unfold State.dropCache State.setEntries
  exact ((sameButHost_setRingX ..).trans (sameButRegs_wf ..).host).trans (sameButHost_setRingX ..)

theorem dropCache_hostMem (s : State) (r : Nat) : (s.dropCache r).hostMem = s.hostMem := by
  simp [State.dropCache, State.setEntries]

theorem dropCache_evts (s : State) (r : Nat) : (s.dropCache r).evts = s.evts := by
  simp [State.dropCache, State.setEntries]

theorem ringX_dropCache (h : s.ringsCanon) : (s.dropCache r).ringX r = { s.ringX r with front := [], cache := [], upset := [] } := by
  have hset : ∀ x, ((s.setRingX r x).wf (HIF_RING_STATUS.CACHED r) 0).ringX r = x := fun x => by
    rw [State.ringX, wf_rings, ← State.ringX, ringX_setRingX_same _ _ _ h]
  unfold State.dropCache State.setEntries
  rw [ringX_setRingX_same]
  · simp [hset]
  · rw [wf_rings]; exact ringsCanon_setRingX h

theorem ringsCanon_dropCache (h : s.ringsCanon) : (s.dropCache r).ringsCanon := by
  unfold State.dropCache State.setEntries
  refine ringsCanon_setRingX ?_
  rw [State.ringsCanon, wf_rings]
  exact ringsCanon_setRingX h

theorem ringX_dropCache_ne (h : q ≠ r) : (s.dropCache r).ringX q = s.ringX q := by
  unfold State.dropCache State.setEntries
  rw [ringX_setRingX_ne _ _ _ _ h, State.ringX, wf_rings, ← State.ringX, ringX_setRingX_ne _ _ _ _ h]

/-! The end of a disable (R432). -/

/-- An invalidation of ring `r` runs no longer. -/
def State.endInval (s : State) (r : Nat) : State := s.setRingX r { s.ringX r with inval := false }

theorem regsCanon_endInval (hs : s.regsCanon = true) : (s.endInval r).regsCanon = true := hs

theorem rf_endInval : (s.endInval r).rf f = s.rf f := rfl

theorem ringX_endInval_ne (h : q ≠ r) : (s.endInval r).ringX q = s.ringX q := ringX_setRingX_ne _ _ _ _ h

/-- A ring enters DISABLED by a disable: an invalidation of it ends, and event 0x103 follows. -/
theorem ringDisabled_eq (s : State) (r : Nat) : s.ringDisabled r =
    ((s.endInval r).puts [(HIF_RING_STATUS.STATE r, rsDisabled), (HIF_RING_STATUS.SUSPENDED r, 0)]).raise 0x103 r := rfl

theorem separate_disabled (r : Nat) : Separate [(HIF_RING_STATUS.STATE r, rsDisabled), (HIF_RING_STATUS.SUSPENDED r, 0)] := by
  simp [Separate, Fld.apart]

/-- A field of a ring's context is quiet: events leave it alone. -/
theorem rf_raise_ring {src data : Nat} (h : src < 4096) (hr : r < 2 ^ 14) (hf : f.ofRing r) : (s.raise src data).rf f = s.rf f :=
  (evtChanges_raise h evtWord_mem_sideWords).toChanges.rf_ring (sparesRing_sideWords hr) hf

theorem ringDisabled_state (hr : r < 2 ^ 14) (hs : s.regsCanon = true) : (s.ringDisabled r).ringState r = rsDisabled := by
  rw [ringDisabled_eq, State.ringState, rf_raise_ring (by decide) hr (ofRing_state r),
    rf_puts_mem (regsCanon_endInval hs) (separate_disabled r) List.mem_cons_self]
  rfl

theorem ringDisabled_suspended (hr : r < 2 ^ 14) (hs : s.regsCanon = true) :
    (s.ringDisabled r).rb (HIF_RING_STATUS.SUSPENDED r) = false := by
  rw [ringDisabled_eq, State.rb, rf_raise_ring (by decide) hr (ofRing_suspended r),
    rf_puts_mem (regsCanon_endInval hs) (separate_disabled r) (List.mem_cons_of_mem _ List.mem_cons_self)]
  rfl

theorem rf_ringDisabled (hr : r < 2 ^ 14) (hs : s.regsCanon = true) (hf : f.ofRing r) (hfit : f.fits = true)
    (ha : (HIF_RING_STATUS.STATE r).apart f = true) (ha' : (HIF_RING_STATUS.SUSPENDED r).apart f = true) :
    (s.ringDisabled r).rf f = s.rf f := by
  rw [ringDisabled_eq, rf_raise_ring (by decide) hr hf,
    rf_puts_apart (regsCanon_endInval hs) (separate_disabled r).1 hfit (by simp [ha, ha']), rf_endInval]

theorem ringDisabled_pending (hs : s.regsCanon = true) : (s.ringDisabled r).pendingBit 0x103 = true := by
  rw [ringDisabled_eq]
  exact pending_raise (regsCanon_puts (regsCanon_endInval hs)) (by decide)

theorem sameButHost_ringDisabled (s : State) (r : Nat) : SameButHost s (s.ringDisabled r) := by
  rw [ringDisabled_eq]
  exact ((sameButHost_setRingX s r _).trans (sameButRegs_puts ..).host).trans (sameButEvents_raise (by decide)).host

theorem ringDisabled_hostMem (s : State) (r : Nat) : (s.ringDisabled r).hostMem = s.hostMem := by
  rw [ringDisabled_eq, raise_hostMem _ (by decide), puts_hostMem]
  rfl

theorem ringX_ringDisabled_ne (h : q ≠ r) : (s.ringDisabled r).ringX q = s.ringX q := by
  rw [ringDisabled_eq, (sameButEvents_raise (by decide)).ringX, ringX_puts, ringX_endInval_ne h]

theorem changes_setRingX {W : Set Nat} {x : RingX} : Changes W s (s.setRingX r x) := changes_of_regs_eq (setRingX_regs ..)

/-! Credit of a completion ring (R424). -/

/-- All that `pressure` does is to put the states of rings. -/
theorem pressure_induct {P : State → Prop} (h0 : P s) (hstep : ∀ t q v, P t → P (t.wf (HIF_RING_STATUS.STATE q) v)) : P (s.pressure cq) := by
  unfold State.pressure
  dsimp only
  refine List.foldlRecOn (motive := P) _ _ h0 fun t ht q _ => ?_
  split_ifs
  · exact hstep t q _ ht
  · exact hstep t q _ ht
  · exact ht
  · exact ht

theorem sameButRegs_pressure : SameButRegs s (s.pressure cq) :=
  pressure_induct (.refl s) fun _ _ _ h => h.trans (sameButRegs_wf ..)

theorem rf_pressure (hs : s.regsCanon = true) (hg : g.fits = true) (ha : ∀ q, (HIF_RING_STATUS.STATE q).apart g = true) :
    (s.pressure cq).rf g = s.rf g :=
  (pressure_induct (P := fun t => t.regsCanon = true ∧ t.rf g = s.rf g) ⟨hs, rfl⟩ fun _ q _ ⟨hc, h⟩ =>
    ⟨regsCanon_wf hc, (rf_wf_apart hc (place_ringState q).2.2 hg (ha q)).trans h⟩).2

theorem changes_pressure {W : Set Nat} (hW : ∀ q, HIF_RING_STATUS.w q ∈ W) : Changes W s (s.pressure cq) :=
  pressure_induct (.refl s) fun _ q _ h => h.trans (evtChanges_wf_low rfl (hW q)).toChanges

end Parts

/-! ### The service of a written ring (R423, R424, R429) -/

section Written

variable {s : State} {r k cq : Nat} {b : Bool} {ws : List Nat}

/-- The words that serving a written ring may change: what it notes and sends, the states of rings, and its own tail. -/
def servedWords (r : Nat) : Set Nat := {a | a ∈ sideWords ∨ (∃ q, a = HIF_RING_STATUS.w q) ∨ a = HIF_RING_TAIL.w r}

/-- The words that a message of a written ring may change. -/
def evalWords (r : Nat) : Set Nat := {a | a ∈ sideWords ∨ a = HIF_RING_STATUS.w r}

theorem sideWords_subset_servedWords : sideWords ⊆ servedWords r := fun _ => .inl

theorem evalWords_subset_servedWords : evalWords r ⊆ servedWords r := fun _ h => h.imp_right fun h => .inl ⟨r, h⟩

theorem changes_ringEval : Changes (evalWords r) s (s.ringEval r b) := by
  unfold State.ringEval
  dsimp only
  split
  · refine (changes_setRingX.trans (evtChanges_wf_low rfl (.inr rfl)).toChanges).trans
      ((changes_sendMsi ?_).mono fun _ => .inl)
    exact rf_lt _
  · split
    · exact changes_setRingX
    · exact .refl s

theorem ringEval_hostMem : (s.ringEval r b).hostMem = s.hostMem := by
  unfold State.ringEval
  dsimp only
  split
  · rw [sendMsi_hostMem, wf_hostMem, setRingX_hostMem]
  · split <;> rfl

theorem changes_putEntry {W : Set Nat} : Changes W s (s.putEntry r k ws) := changes_of_regs_eq hostWrite_regs

theorem changes_bumpTail : Changes (servedWords cq) s (s.bumpTail cq k) :=
  (evtChanges_wf_low (f := HIF_RING_TAIL.TAIL cq) rfl (.inr (.inr rfl))).toChanges

theorem changes_writeCpl : Changes (servedWords cq) s (s.writeCpl cq ws) := by
  have hcount : ∀ (s : State) (t : Nat), Changes (servedWords cq) s (s.count (HIF_CNT.COUNT 2) t) := fun _ _ =>
    (evtChanges_count (by decide)).toChanges.mono sideWords_subset_servedWords
  have hev : ∀ (s : State) (code t item : Nat), Changes (servedWords cq) s (s.ev 134 code none 1 t item) := fun _ _ _ _ =>
    (evtChanges_ev (by decide)).toChanges.mono sideWords_subset_servedWords
  unfold State.writeCpl
  dsimp only
  exact (((((changes_putEntry.trans changes_bumpTail).trans changes_setRingX).trans (hcount ..)).trans (hev ..)).trans (hev ..)).trans
    (changes_ringEval.mono evalWords_subset_servedWords)

theorem changes_drainHeld : Changes (servedWords cq) s (s.drainHeld cq k) := by
  induction k generalizing s with
  | zero => exact .refl s
  | succ k ih =>
    have hheld : ∀ (s : State) (n : Nat), Changes (servedWords cq) s (s.wf (HIF_RING_STATUS.HELD cq) n) := fun _ _ =>
      (evtChanges_wf_low rfl (.inr (.inl ⟨cq, rfl⟩))).toChanges
    have hover : ∀ (s : State) (e : Bool), Changes (servedWords cq) s (if e then s.wf (HIF_RING_STATUS.OVERFLOW cq) 0 else s) := fun s e => by
      split
      · exact (evtChanges_wf_low rfl (.inr (.inl ⟨cq, rfl⟩))).toChanges
      · exact .refl s
    unfold State.drainHeld
    split
    · exact .refl s
    · split
      · exact (((changes_setRingX.trans (hheld ..)).trans (hover ..)).trans changes_writeCpl).trans ih
      · exact .refl s

/-! What follows the move of a written ring's head. -/

/-- The ring is armed when the doorbell asks for it, held completions are written where there is room, and the message is evaluated. -/
def State.serveWritten (s : State) (r : Nat) (arm : Bool) : State :=
  let s := if arm then s.wf (HIF_RING_STATUS.ARMED r) 1 else s
  let s := if s.ringType r = 2 then (s.drainHeld r 65).pressure r else s
  s.ringEval r false

theorem changes_armed : Changes (evalWords r) s (if b then s.wf (HIF_RING_STATUS.ARMED r) 1 else s) := by
  split
  · exact (evtChanges_wf_low rfl (.inr rfl)).toChanges
  · exact .refl s

theorem changes_serveWritten : Changes (servedWords r) s (s.serveWritten r b) := by
  have hdrain : ∀ s : State, Changes (servedWords r) s (if s.ringType r = 2 then (s.drainHeld r 65).pressure r else s) := fun s => by
    split
    · exact changes_drainHeld.trans (changes_pressure fun q => .inr (.inl ⟨q, rfl⟩))
    · exact .refl s
  exact ((changes_armed.mono evalWords_subset_servedWords).trans (hdrain _)).trans (changes_ringEval.mono evalWords_subset_servedWords)

/-- A ring that is no completion ring is only armed, and its message evaluated. -/
theorem serveWritten_of_not_cq (hs : s.regsCanon = true) (h : s.ringType r ≠ 2) :
    s.serveWritten r b = (if b then s.wf (HIF_RING_STATUS.ARMED r) 1 else s).ringEval r false := by
  have hty : (if b then s.wf (HIF_RING_STATUS.ARMED r) 1 else s).ringType r ≠ 2 := by
    split
    · rwa [State.ringType, rf_wf_apart hs (place_ringArmed r).2.2 (place_ringType r).2.2 (by simp [Fld.apart])]
    · exact h
  unfold State.serveWritten
  dsimp only
  rw [if_neg hty]

theorem changes_serveWritten_of_not_cq (hs : s.regsCanon = true) (h : s.ringType r ≠ 2) : Changes (evalWords r) s (s.serveWritten r b) := by
  rw [serveWritten_of_not_cq hs h]
  exact changes_armed.trans changes_ringEval

theorem serveWritten_hostMem_of_not_cq (hs : s.regsCanon = true) (h : s.ringType r ≠ 2) : (s.serveWritten r b).hostMem = s.hostMem := by
  rw [serveWritten_of_not_cq hs h, ringEval_hostMem]
  split
  · rw [wf_hostMem]
  · rfl

end Written

end Sys2Proof.Machine
end

section
/-! PROOFS. Doorbells and stray writes (R407, R411 to R415, R443, R469, R472): what a doorbell does by the state of its ring, and how a malformed one
halts the device. -/

namespace Sys2Proof.Machine

/-! ### A doorbell by the state of its ring (R411 to R415) -/

section Doorbell

variable {s : State} {r v : Nat} {full : Bool}

/-- A ring that takes doorbells. -/
def State.takesDoorbells (s : State) (r : Nat) : Prop := s.ringState r = rsActive ∨ s.ringState r = rsBackpressure

theorem takesDoorbells_guard (h : s.takesDoorbells r) :
    (decide (s.ringState r = rsDisabled) || decide (s.ringState r = rsDisabling) || decide (s.ringState r = rsFault)) = false := by
  rcases h with h | h <;> rw [h] <;> decide

/-- A doorbell that is applied is counted. -/
def State.countDoorbell (s : State) (r v : Nat) : State :=
  (s.count (HIF_CNT.COUNT 0) s.strokeNow).ev 134 0x10 none 1 s.strokeNow (r + v % 2 ^ 17 * 2 ^ 14)

theorem evtChanges_countDoorbell (s : State) (r v : Nat) : EvtChanges sideWords s (s.countDoorbell r v) :=
  (evtChanges_count (by decide)).trans (evtChanges_ev (by decide))

theorem ringType_countDoorbell (hr : r < 2 ^ 14) : (s.countDoorbell r v).ringType r = s.ringType r :=
  (evtChanges_countDoorbell s r v).toChanges.rf_ring (sparesRing_sideWords hr) (ofRing_type r)

theorem doorbell_discarded (h : s.ringState r = rsDisabled ∨ s.ringState r = rsDisabling ∨ s.ringState r = rsFault) :
    doorbell r v full s = s.hifErrEv HIF_ERR.DB_DISCARD r 0x104 := by
  unfold doorbell
  dsimp only
  rw [if_pos]
  rcases h with h | h | h <;> simp [h]

theorem doorbell_malformed {c : Nat} (h : s.takesDoorbells r) (hc : s.doorbellFault r v full = some c) :
    doorbell r v full s = s.haltItem c r (v % 2 ^ 17) := by
  simp only [doorbell, takesDoorbells_guard h, hc, Bool.false_eq_true, if_false]

theorem doorbell_fetched (hr : r < 2 ^ 14) (h : s.takesDoorbells r) (hc : s.doorbellFault r v full = none) (ht : fetched (s.ringType r) = true) :
    doorbell r v full s = ((s.countDoorbell r v).puts [(HIF_RING_TAIL.TAIL r, v % 2 ^ 17), (HIF_RING_STATUS.SUSPENDED r, 0)]).pressure
      ((s.countDoorbell r v).rf (HIF_RING_BIND.CQ r)) := by
  rw [← ringType_countDoorbell (v := v) hr] at ht
  unfold State.countDoorbell at ht
  simp only [doorbell, takesDoorbells_guard h, hc, ht, Bool.false_eq_true, if_false, if_true]
  rfl

theorem doorbell_written (hr : r < 2 ^ 14) (h : s.takesDoorbells r) (hc : s.doorbellFault r v full = none) (ht : fetched (s.ringType r) = false) :
    doorbell r v full s = ((s.countDoorbell r v).wf (HIF_RING_HEAD.HEAD r) (v % 2 ^ 17)).serveWritten r (bit v 31) := by
  rw [← ringType_countDoorbell (v := v) hr] at ht
  unfold State.countDoorbell at ht
  simp only [doorbell, takesDoorbells_guard h, hc, ht, Bool.false_eq_true, if_false]
  rfl

end Doorbell

/-! ### What the commands run -/

section Exec

variable {s : State} {r : RingIx} {v : Word} {full bar4 : Bool} {off : BarOffset}

theorem onWrite_open {f : State → State} (h : s.hostOpen = true) : onWrite f s = f s := if_pos h

theorem chipState_of_alive (h : s.alive = true) :
    s.chipState = stConfigurable ∨ s.chipState = stRunning ∨ s.chipState = stQuiesced := by
  simpa [State.alive, or_assoc] using h

/-- A live device takes the host's writes. -/
theorem hostOpen_of_alive (h : s.alive = true) : s.hostOpen = true := by
  have hans : s.answers = true := by simp [State.answers, h]
  rcases chipState_of_alive h with hst | hst | hst <;>
    simp [State.hostOpen, State.halted, hans, hst, stConfigurable, stRunning, stQuiesced, stHalted, stPriming]

/-- A live device can halt. -/
theorem not_halted_of_alive (h : s.alive = true) :
    (s.halted || decide (s.chipState = stOff) || decide (s.chipState = stStrap)) = false := by
  rcases chipState_of_alive h with hst | hst | hst <;>
    simp [State.halted, hst, stConfigurable, stRunning, stQuiesced, stHalted, stOff, stStrap]

theorem exec_doorbell (h : s.hostOpen = true) : exec (.doorbell r v full) s = .next (doorbell r v.toNat full s) :=
  congrArg Host.Outcome.next (onWrite_open h)

theorem exec_strayWrite (h : s.hostOpen = true) : exec (.strayWrite bar4 off) s = .next (strayWrite (if bar4 then 2 else 1) off.toNat s) :=
  congrArg Host.Outcome.next (onWrite_open h)

end Exec

/-! ### Doorbells that move a ring, or are discarded (R411 to R413, R415) -/

section DoorbellClauses

variable {s : State} {r : RingIx} {v : Word} {full : Bool}

theorem doorbell_moves_tail (hs : s.regsCanon = true) (ho : s.hostOpen = true) (hst : s.takesDoorbells r)
    (hc : s.doorbellFault r v.toNat true = none) (ht : fetched (s.ringType r) = true) :
    ∃ t, exec (.doorbell r v true) s = .next t ∧ t.ringTail r = v.toNat % 2 ^ 17 ∧ t.ringHead r = s.ringHead r ∧
      t.rb (HIF_RING_STATUS.SUSPENDED r) = false ∧ t = { s with regs := t.regs, evts := t.evts } := by
  have hr : r.val < 2 ^ 14 := r.isLt
  have hcount := evtChanges_countDoorbell s r v.toNat
  generalize hu : s.countDoorbell r v.toNat = u at hcount
  have hu' : u.regsCanon = true := hcount.canon hs
  generalize hl : [(HIF_RING_TAIL.TAIL r, v.toNat % 2 ^ 17), (HIF_RING_STATUS.SUSPENDED r, 0)] = l
  have hsep : Separate l := by subst hl; simp [Separate, Fld.apart]
  have hcanon : (u.puts l).regsCanon = true := regsCanon_puts hu'
  refine ⟨_, (exec_doorbell ho).trans (congrArg _ (doorbell_fetched hr hst hc ht)), ?_⟩
  rw [hu, hl]
  have hpress : ∀ {g : Fld}, g.fits = true → (∀ q, (HIF_RING_STATUS.STATE q).apart g = true) →
      ((u.puts l).pressure (u.rf (HIF_RING_BIND.CQ r))).rf g = (u.puts l).rf g := rf_pressure hcanon
  refine ⟨?_, ?_, ?_, ?_⟩
  · rw [State.ringTail, hpress (place_ringTail _).2.2 fun q => by simp [Fld.apart, ringPlace, HIF_RING_CTRL.w]; omega,
      rf_puts_mem hu' hsep (v := v.toNat % 2 ^ 17) (by simp [← hl]), (place_ringTail _).2.1, Nat.mod_mod]
  · rw [State.ringHead, hpress (place_ringHead _).2.2 fun q => by simp [Fld.apart, ringPlace, HIF_RING_CTRL.w]; omega,
      rf_puts_apart hu' hsep.1 (place_ringHead _).2.2 (by simp [← hl, Fld.apart]),
      hcount.toChanges.rf_ring (sparesRing_sideWords hr) (ofRing_head r), State.ringHead]
  · rw [State.rb, hpress (place_ringSuspended _).2.2 fun q => by simp [Fld.apart, ringPlace, HIF_RING_CTRL.w]; omega,
      rf_puts_mem hu' hsep (v := 0) (by simp [← hl])]
    rfl
  · exact (hcount.same.trans (sameButRegs_puts u l).events).trans sameButRegs_pressure.events

theorem head_not_mem_servedWords {q : Nat} (hr : r.val < 2 ^ 14) : HIF_RING_HEAD.w r ∉ servedWords q := by
  have hside : HIF_RING_CTRL.w r + 9 ∉ sideWords := sparesRing_sideWords hr 9 (by decide)
  simp only [HIF_RING_CTRL.w] at hside
  rintro (h | ⟨p, h⟩ | h)
  · refine hside ?_
    convert h using 1
    simp only [HIF_RING_HEAD.w]; omega
  · simp only [HIF_RING_HEAD.w, HIF_RING_STATUS.w] at h; omega
  · simp only [HIF_RING_HEAD.w, HIF_RING_TAIL.w] at h; omega

theorem tail_not_mem_evalWords {q : Nat} (hr : r.val < 2 ^ 14) : HIF_RING_TAIL.w r ∉ evalWords q := by
  have hside : HIF_RING_CTRL.w r + 10 ∉ sideWords := sparesRing_sideWords hr 10 (by decide)
  simp only [HIF_RING_CTRL.w] at hside
  rintro (h | h)
  · refine hside ?_
    convert h using 1
    simp only [HIF_RING_TAIL.w]; omega
  · simp only [HIF_RING_TAIL.w, HIF_RING_STATUS.w] at h; omega

theorem doorbell_moves_head (hs : s.regsCanon = true) (ho : s.hostOpen = true) (hst : s.takesDoorbells r)
    (hc : s.doorbellFault r v.toNat true = none) (ht : fetched (s.ringType r) = false) :
    ∃ t, exec (.doorbell r v true) s = .next t ∧ t.ringHead r = v.toNat % 2 ^ 17 ∧
      (s.ringType r ≠ 2 → t.ringTail r = s.ringTail r ∧ t.hostMem = s.hostMem) := by
  have hr : r.val < 2 ^ 14 := r.isLt
  have hcount := evtChanges_countDoorbell s r v.toNat
  have hty := ringType_countDoorbell (s := s) (v := v.toNat) hr
  generalize hu : s.countDoorbell r v.toNat = u at hcount hty
  have hu' : u.regsCanon = true := hcount.canon hs
  have hmoved : ∀ {g : Fld}, g.fits = true → (HIF_RING_HEAD.HEAD r).apart g = true →
      (u.wf (HIF_RING_HEAD.HEAD r) (v.toNat % 2 ^ 17)).rf g = u.rf g := rf_wf_apart hu' (place_ringHead r).2.2
  refine ⟨_, (exec_doorbell ho).trans (congrArg _ (doorbell_written hr hst hc ht)), ?_, fun hcq => ?_⟩
  · rw [hu, State.ringHead, changes_serveWritten.rf_low rfl (head_not_mem_servedWords hr),
      rf_wf_same hu' (place_ringHead r).2.2, (place_ringHead _).2.1, Nat.mod_mod]
  · have hcq' : (u.wf (HIF_RING_HEAD.HEAD r) (v.toNat % 2 ^ 17)).ringType r ≠ 2 := by
      rwa [State.ringType, hmoved (place_ringType r).2.2 (by simp [Fld.apart]), ← State.ringType, hty]
    rw [hu, serveWritten_hostMem_of_not_cq (regsCanon_wf hu') hcq', wf_hostMem, hcount.same.hostMem, State.ringTail,
      (changes_serveWritten_of_not_cq (regsCanon_wf hu') hcq').rf_low rfl (tail_not_mem_evalWords hr),
      hmoved (place_ringTail r).2.2 (by simp [Fld.apart]), hcount.toChanges.rf_ring (sparesRing_sideWords hr) (ofRing_tail r)]
    exact ⟨rfl, rfl⟩

theorem doorbell_discard (hs : s.regsCanon = true) (ho : s.hostOpen = true)
    (hst : s.ringState r = rsDisabled ∨ s.ringState r = rsDisabling ∨ s.ringState r = rsFault) :
    ∃ t, exec (.doorbell r v full) s = .next t ∧ t.rb HIF_ERR.DB_DISCARD = true ∧ t.ringTail r = s.ringTail r ∧ t.ringHead r = s.ringHead r ∧
      t.pendingBit 0x104 = true ∧ SameButEvents s t := by
  have hr : r.val < 2 ^ 14 := r.isLt
  have hev : EvtChanges errWords s (s.hifErrEv HIF_ERR.DB_DISCARD r 0x104) := evtChanges_hifErrEv rfl (by decide)
  refine ⟨_, (exec_doorbell ho).trans (congrArg _ (doorbell_discarded hst)), rb_hifErrEv_same hs rfl (by decide), ?_, ?_, ?_, hev.same⟩
  · exact hev.toChanges.rf_ring (sparesRing_errWords hr) (ofRing_tail r)
  · exact hev.toChanges.rf_ring (sparesRing_errWords hr) (ofRing_head r)
  · exact pending_raise ((evtChanges_hifErr rfl).canon hs) (by decide)

/-! Malformed doorbells (R414, R469). -/

theorem doorbellFault_codes (s : State) (r v : Nat) : s.doorbellFault r v false = some 0x14 ∧
    (fetched (s.ringType r) = true → ixDiff (s.ringHead r) (v % 2 ^ 17) < s.ringUsed r → s.doorbellFault r v true = some 0x10) ∧
    (fetched (s.ringType r) = true → s.ringUsed r ≤ s.ringSize r → s.ringSize r < ixDiff (s.ringHead r) (v % 2 ^ 17) →
      s.doorbellFault r v true = some 0x11) ∧
    (fetched (s.ringType r) = false → s.ringUsed r < ixDiff (s.ringHead r) (v % 2 ^ 17) → s.doorbellFault r v true = some 0x12) := by
  unfold State.doorbellFault
  dsimp only
  generalize ixDiff (s.ringHead r) (v % 2 ^ 17) = d
  refine ⟨rfl, fun ht hlt => ?_, fun ht hle hlt => ?_, fun ht hlt => ?_⟩
  · simp [ht, hlt]
  · have hge : ¬ d < s.ringUsed r := by omega
    simp [ht, hlt, hge]
  · simp [ht, hlt]

theorem doorbellFault_lt {c r v : Nat} (h : s.doorbellFault r v full = some c) : c < 2 ^ 8 := by
  unfold State.doorbellFault at h
  dsimp only at h
  split_ifs at h <;> simp at h <;> omega

end DoorbellClauses

/-! ### Halting for a malformed doorbell (R437, R469, R472) -/

section Halt

variable {s t : State} {f : Fld} {r : RingIx} {v : Word} {full : Bool} {cause c ix k : Nat}

/-- The words that halting may change besides `CHIP_HALT_CAUSE`. -/
def haltWords : Set Nat := {a | a ∈ sideWords ∨ a = CHIP_STATE.w ∨ a = PAIR_STATUS.w ∨ a = HIF_STATUS.w}

/-- The halt as it goes on once its cause is recorded: the pair is let go, the chip enters Halted, and the host hears of it. -/
def State.goHalted (s : State) : State :=
  let s := (s.wf PAIR_STATUS.HOLD_OUT 0).wf PAIR_STATUS.GATE 0
  let s := ((s.enterState stHalted).wf HIF_STATUS.HALTED 1).emit .halt
  if s.rb HIF_CFG.HALT_MSI_EN then s.sendMsi (s.rf HIF_CFG.HALT_VECTOR) none else s

theorem wf_withChip {x : ChipX} {y : Nat} : (s.withChip x).wf f y = (s.wf f y).withChip x := by
  unfold State.wf
  dsimp only
  split <;> rfl

theorem haltDev_of_alive (h : s.alive = true) : ∃ x : ChipX, s.haltDev cause = ((s.wf CHIP_HALT_CAUSE.CAUSE cause).withChip x).goHalted := by
  refine ⟨{ s.chip with ranAtHalt := s.running }, ?_⟩
  unfold State.haltDev
  rw [if_neg (Bool.eq_false_iff.1 (not_halted_of_alive h)), ← wf_withChip]
  rfl

/-- The message of a halt, when one is sent. -/
theorem changes_haltMsi : Changes sideWords s (if s.rb HIF_CFG.HALT_MSI_EN then s.sendMsi (s.rf HIF_CFG.HALT_VECTOR) none else s) := by
  split
  · exact changes_sendMsi (rf_lt _)
  · exact .refl s

theorem changes_enterState : Changes haltWords s (s.enterState k) :=
  (evtChanges_wf_low rfl (.inr (.inl rfl))).toChanges.trans (evtChanges_raise (by decide) fun _ h => .inl (.inl h)).toChanges

theorem rf_enterState (hs : s.regsCanon = true) : (s.enterState k).rf CHIP_STATE.STATE = k % 2 ^ 3 := by
  unfold State.enterState
  dsimp only
  rw [rf_raise (by decide) (by decide), rf_wf_same hs (by decide)]
  rfl

theorem changes_goHalted : Changes haltWords s s.goHalted := by
  have hwf : ∀ (s : State) {f : Fld} (x : Nat), f.low = true → f.w = PAIR_STATUS.w ∨ f.w = HIF_STATUS.w → Changes haltWords s (s.wf f x) :=
    fun s f x hlow hw => (evtChanges_wf_low hlow (.inr (.inr hw))).toChanges
  have hemit : ∀ (s : State) (o : Output), Changes haltWords s (s.emit o) := fun s o => changes_of_regs_eq (emit_regs s o)
  exact (((((hwf s 0 rfl (.inl rfl)).trans (hwf _ 0 rfl (.inl rfl))).trans changes_enterState).trans (hwf _ 1 rfl (.inr rfl))).trans
    (hemit _ .halt)).trans (changes_haltMsi.mono fun _ => .inl)

theorem halted_goHalted (hs : s.regsCanon = true) : s.goHalted.halted = true := by
  have hpair := regsCanon_wf (f := PAIR_STATUS.GATE) (v := 0) (regsCanon_wf (f := PAIR_STATUS.HOLD_OUT) (v := 0) hs)
  have hent := changes_enterState (k := stHalted).canon hpair
  have hstate : s.goHalted.rf CHIP_STATE.STATE = stHalted := by
    unfold State.goHalted
    dsimp only
    rw [changes_haltMsi.rf_low rfl, rf_emit, rf_wf_apart hent (by decide) (by decide) (by decide), rf_enterState hpair]
    · rfl
    · simp [sideWords, evtWord, CHIP_STATE.STATE, CHIP_STATE.w, HIF_CNT.w, MSIX_PBA.w, CT_CNT.w, CT_SNAP_BANK.w]
  simp [State.halted, State.chipState, hstate]

theorem sparesRing_haltWords (hr : r.val < 2 ^ 14) : SparesRing haltWords r := by
  rintro k hk (h | h | h | h)
  · exact sparesRing_sideWords hr k hk h
  all_goals simp only [HIF_RING_CTRL.w, CHIP_STATE.w, PAIR_STATUS.w, HIF_STATUS.w] at h; omega

theorem haltInfo_not_mem_haltWords : HIF_HALT_INFO.w ∉ haltWords := by
  simp [haltWords, sideWords, evtWord, HIF_HALT_INFO.w, CHIP_STATE.w, PAIR_STATUS.w, HIF_STATUS.w, HIF_CNT.w, MSIX_PBA.w, CT_CNT.w, CT_SNAP_BANK.w]

theorem haltCause_not_mem_haltWords : CHIP_HALT_CAUSE.w ∉ haltWords := by
  simp [haltWords, sideWords, evtWord, CHIP_HALT_CAUSE.w, CHIP_STATE.w, PAIR_STATUS.w, HIF_STATUS.w, HIF_CNT.w, MSIX_PBA.w, CT_CNT.w]

/-- The item that a halt records. -/
def itemPuts (r ix : Nat) : List (Fld × Nat) := [(HIF_HALT_INFO.RING, r), (HIF_HALT_INFO.INDEX, ix), (HIF_HALT_INFO.VALID, 1)]

/-- What a halt for a malformed item has recorded when it goes on. -/
def haltPuts (cause r ix : Nat) : List (Fld × Nat) := itemPuts r ix ++ [(CHIP_HALT_CAUSE.CAUSE, cause)]

theorem separate_haltPuts : Separate (haltPuts cause k ix) := ⟨by simp [haltPuts, itemPuts]; decide, by simp [haltPuts, itemPuts]; decide⟩

theorem alive_itemPuts (hs : s.regsCanon = true) (h : s.alive = true) : (s.puts (itemPuts k ix)).alive = true := by
  have hst : (s.puts (itemPuts k ix)).chipState = s.chipState := by
    rw [State.chipState, State.chipState]
    exact rf_puts_apart hs (by simp [itemPuts]; decide) (by decide) (by simp [itemPuts]; decide)
  rwa [State.alive, hst, ← State.alive]

theorem haltItem_eq_haltDev (h : s.alive = true) : s.haltItem cause k ix = (s.puts (itemPuts k ix)).haltDev cause := by
  rw [State.haltItem, if_neg (Bool.eq_false_iff.1 (not_halted_of_alive h)), itemPuts, State.puts, State.puts, State.puts, State.puts]

/-- A halt records its item and its cause, and goes on. -/
theorem haltItem_of_alive (hs : s.regsCanon = true) (h : s.alive = true) :
    ∃ x : ChipX, s.haltItem cause k ix = ((s.puts (haltPuts cause k ix)).withChip x).goHalted := by
  rw [haltItem_eq_haltDev h, haltPuts, puts_append]
  exact haltDev_of_alive (alive_itemPuts hs h)

theorem doorbell_halts (hs : s.regsCanon = true) (ha : s.alive = true) (hst : s.takesDoorbells r)
    (hc : s.doorbellFault r v.toNat full = some c) :
    ∃ t, exec (.doorbell r v full) s = .next t ∧ t.halted = true ∧ t.rf CHIP_HALT_CAUSE.CAUSE = c ∧ t.rf HIF_HALT_INFO.RING = r ∧
      t.rf HIF_HALT_INFO.INDEX = v.toNat % 2 ^ 17 ∧ t.rb HIF_HALT_INFO.VALID = true ∧ t.ringTail r = s.ringTail r ∧ t.ringHead r = s.ringHead r := by
  have hr : r.val < 2 ^ 14 := r.isLt
  have hcause : c < 2 ^ 8 := doorbellFault_lt hc
  obtain ⟨x, hx⟩ := haltItem_of_alive (cause := c) (k := r) (ix := v.toNat % 2 ^ 17) hs ha
  generalize hu : (s.puts (haltPuts c r (v.toNat % 2 ^ 17))).withChip x = u at hx
  have hread : ∀ {f y}, (f, y) ∈ haltPuts c r (v.toNat % 2 ^ 17) → u.rf f = y % 2 ^ f.width := fun h => by
    rw [← hu, rf_withChip, rf_puts_mem hs separate_haltPuts h]
  have hinfo : ∀ {f y}, f.low = true → f.w = HIF_HALT_INFO.w → (f, y) ∈ haltPuts c r (v.toNat % 2 ^ 17) → u.goHalted.rf f = y % 2 ^ f.width :=
    fun hlow hw h => (changes_goHalted.rf_low hlow (hw ▸ haltInfo_not_mem_haltWords)).trans (hread h)
  have hoff : ∀ p ∈ haltPuts c r (v.toNat % 2 ^ 17), p.1.offRings = true := by simp [haltPuts, itemPuts]; decide
  have hring : ∀ {f : Fld}, f.fits = true → f.ofRing r → u.goHalted.rf f = s.rf f := fun hfit hf => by
    rw [changes_goHalted.rf_ring (sparesRing_haltWords hr) hf, ← hu, rf_withChip,
      rf_puts_apart hs separate_haltPuts.1 hfit fun p hp => (apart_of_offRings hr (hoff p hp) hf).1]
  refine ⟨_, (exec_doorbell (hostOpen_of_alive ha)).trans (congrArg _ ((doorbell_malformed hst hc).trans hx)), ?_, ?_, ?_, ?_, ?_, ?_, ?_⟩
  · refine halted_goHalted ?_
    rw [← hu, regsCanon_withChip, regsCanon_puts hs]
  · rw [changes_goHalted.rf_low rfl haltCause_not_mem_haltWords, hread (y := c) (by simp [haltPuts, itemPuts])]
    exact Nat.mod_eq_of_lt hcause
  · rw [hinfo (y := r) rfl rfl (by simp [haltPuts, itemPuts])]
    exact Nat.mod_eq_of_lt hr
  · rw [hinfo (y := v.toNat % 2 ^ 17) rfl rfl (by simp [haltPuts, itemPuts])]
    exact Nat.mod_mod ..
  · rw [State.rb, hinfo (y := 1) rfl rfl (by simp [haltPuts, itemPuts])]
    rfl
  · exact hring (place_ringTail r).2.2 (ofRing_tail r)
  · exact hring (place_ringHead r).2.2 (ofRing_head r)

end Halt

/-! ### Stray writes (R407, R443) -/

section Stray

variable {s : State} {f : Fld} {bar4 : Bool} {off : BarOffset} {bar o : Nat}

theorem evtChanges_accessErr : EvtChanges {HIF_ACCESS_ERR.w} s (s.accessErr bar o) := by
  have hput : ∀ {s : State} (f : Fld) (v : Nat), f.low = true → f.w = HIF_ACCESS_ERR.w → EvtChanges {HIF_ACCESS_ERR.w} s (s.wf f v) :=
    fun _ _ hlow hw => evtChanges_wf_low hlow hw
  unfold State.accessErr
  split
  · exact .refl s
  · exact ((hput HIF_ACCESS_ERR.OFFSET _ rfl rfl).trans (hput HIF_ACCESS_ERR.BAR _ rfl rfl)).trans (hput HIF_ACCESS_ERR.VALID _ rfl rfl)

theorem separate_accessErr : Separate [(HIF_ACCESS_ERR.OFFSET, o), (HIF_ACCESS_ERR.BAR, bar), (HIF_ACCESS_ERR.VALID, 1)] :=
  ⟨by simp; decide, by simp; decide⟩

/-- The first discarded write is recorded. -/
theorem accessErr_first (hs : s.regsCanon = true) (hv : s.rb HIF_ACCESS_ERR.VALID = false) :
    (s.accessErr bar o).rf HIF_ACCESS_ERR.OFFSET = o % 2 ^ 26 ∧ (s.accessErr bar o).rf HIF_ACCESS_ERR.BAR = bar % 2 ^ 2 ∧
      (s.accessErr bar o).rb HIF_ACCESS_ERR.VALID = true := by
  have heq : s.accessErr bar o = s.puts [(HIF_ACCESS_ERR.OFFSET, o), (HIF_ACCESS_ERR.BAR, bar), (HIF_ACCESS_ERR.VALID, 1)] := by
    unfold State.accessErr
    rw [if_neg (by simp [hv])]
    rfl
  rw [heq]
  refine ⟨rf_puts_mem hs separate_accessErr (by simp), rf_puts_mem hs separate_accessErr (by simp), ?_⟩
  rw [State.rb, rf_puts_mem hs separate_accessErr (v := 1) (by simp)]
  rfl

/-- A later one is not. -/
theorem accessErr_later (hv : s.rb HIF_ACCESS_ERR.VALID = true) : s.accessErr bar o = s := if_pos hv

/-- A word that reads 0 reads 0 whatever the words not listed read. -/
theorem sget_zero_of_reg {w : Nat} (h : s.reg w = 0) : sget (fun _ => (0 : Word)) s.regs w = 0 := by
  unfold State.reg at h
  generalize s.regs = m at h
  induction m with
  | nil => rfl
  | cons p m ih =>
    simp only [sget] at h ⊢
    split
    · next hk => simpa [hk] using h
    · next hk => exact ih (by simpa [hk] using h)

theorem counts_of_status_zero (h : s.reg CT_STATUS.w = 0) (t : Nat) : s.counts t = true := by
  unfold State.counts
  rw [sget_zero_of_reg h]
  rfl

theorem rf_count_same (hs : s.regsCanon = true) (hf : f.fits = true) (hw : f.width = 48) (h : s.reg CT_STATUS.w = 0) (t : Nat) :
    (s.count f t).rf f = satAdd 48 (s.rf f) 1 := by
  rw [State.count, State.countBy, if_pos (counts_of_status_zero h t), State.addSat, rf_wf_same hs hf, hw]
  exact Nat.mod_eq_of_lt (by unfold satAdd; omega)

/-- The count and the error bit of a stray write. -/
def State.countStray (s : State) : State := (s.count (HIF_CNT.COUNT 10) s.strokeNow).hifErr HIF_ERR.STRAY_WRITE 0

theorem strayWrite_eq : strayWrite bar o s =
    (s.countStray.accessErr bar o).raise 0x1F1 ((s.countStray.accessErr bar o).reg HIF_ACCESS_ERR.w).toNat := rfl

theorem evtChanges_countStray (s : State) : EvtChanges (sideWords ∪ errWords) s s.countStray :=
  ((evtChanges_count (by decide)).mono Set.subset_union_left).trans ((evtChanges_hifErr rfl).mono Set.subset_union_right)

theorem rf_countStray_accessErr (hf : f.low = true) (hw : f.w = HIF_ACCESS_ERR.w) : s.countStray.rf f = s.rf f := by
  refine (evtChanges_countStray s).toChanges.rf_low hf ?_
  simp [hw, sideWords, errWords, evtWord, HIF_ACCESS_ERR.w, HIF_ERR.w, HIF_ERR_LOC.w, HIF_CNT.w, MSIX_PBA.w, CT_CNT.w]

theorem rb_countStray_bit (hs : s.regsCanon = true) : s.countStray.rb HIF_ERR.STRAY_WRITE = true :=
  rb_hifErr_same ((evtChanges_count (by decide)).canon hs) rfl

theorem rf_countStray_cnt (hs : s.regsCanon = true) (h : s.reg CT_STATUS.w = 0) :
    s.countStray.rf (HIF_CNT.COUNT 10) = satAdd 48 (s.rf (HIF_CNT.COUNT 10)) 1 := by
  unfold State.countStray
  rw [(evtChanges_hifErr rfl).toChanges.rf, rf_count_same hs (by decide) rfl h] <;>
    simp [errWords, evtWord, HIF_CNT.COUNT, HIF_CNT.w, HIF_ERR.w, HIF_ERR_LOC.w]

theorem strayWrite_recorded (hs : s.regsCanon = true) (ho : s.hostOpen = true) :
    ∃ t, exec (.strayWrite bar4 off) s = .next t ∧ t.rb HIF_ERR.STRAY_WRITE = true ∧ t.pendingBit 0x1F1 = true ∧ t.rb HIF_ACCESS_ERR.VALID = true ∧
      (s.rb HIF_ACCESS_ERR.VALID = false → t.rf HIF_ACCESS_ERR.BAR = (if bar4 then 2 else 1) ∧
        t.rf HIF_ACCESS_ERR.OFFSET = off.toNat % 2 ^ HIF_ACCESS_ERR.OFFSET.width) ∧
      (s.rb HIF_ACCESS_ERR.VALID = true → t.rf HIF_ACCESS_ERR.OFFSET = s.rf HIF_ACCESS_ERR.OFFSET) ∧
      (s.reg CT_STATUS.w = 0 → t.rf (HIF_CNT.COUNT 10) = satAdd 48 (s.rf (HIF_CNT.COUNT 10)) 1) ∧ SameButEvents s t := by
  have hstray := evtChanges_countStray s
  have hcanon : s.countStray.regsCanon = true := hstray.canon hs
  have hvalid : s.countStray.rb HIF_ACCESS_ERR.VALID = s.rb HIF_ACCESS_ERR.VALID := by
    rw [State.rb, rf_countStray_accessErr rfl rfl, State.rb]
  have hexec := exec_strayWrite (bar4 := bar4) (off := off) ho
  generalize hbar : (if bar4 then 2 else 1) = bar at hexec ⊢
  have hbar2 : bar % 2 ^ 2 = bar := by subst hbar; split <;> rfl
  have hacc : EvtChanges {HIF_ACCESS_ERR.w} s.countStray (s.countStray.accessErr bar off.toNat) := evtChanges_accessErr
  have hraise : ∀ {f : Fld} (d : Nat), f.quiet = true →
      ((s.countStray.accessErr bar off.toNat).raise 0x1F1 d).rf f = (s.countStray.accessErr bar off.toNat).rf f := fun _ => rf_raise (by decide)
  refine ⟨_, hexec.trans (congrArg _ strayWrite_eq), ?_, pending_raise (hacc.canon hcanon) (by decide), ?_, fun hv => ?_,
    fun hv => ?_, fun h => ?_, (hstray.same.trans hacc.same).trans (sameButEvents_raise (by decide))⟩
  · rw [State.rb, hraise _ (by decide), hacc.toChanges.rf_low rfl (by simp [HIF_ERR.STRAY_WRITE, HIF_ERR.w, HIF_ACCESS_ERR.w]), ← State.rb,
      rb_countStray_bit hs]
  · rw [State.rb, hraise _ (by decide), ← State.rb]
    cases hv : s.countStray.rb HIF_ACCESS_ERR.VALID with
    | false => exact (accessErr_first hcanon hv).2.2
    | true => rw [accessErr_later hv, hv]
  · obtain ⟨hoff, hb, -⟩ := accessErr_first (bar := bar) (o := off.toNat) hcanon (hvalid.trans hv)
    exact ⟨(hraise _ (by decide)).trans (hb.trans hbar2), (hraise _ (by decide)).trans hoff⟩
  · rw [hraise _ (by decide), accessErr_later (hvalid.trans hv), rf_countStray_accessErr rfl rfl]
  · rw [hraise _ (by decide), hacc.toChanges.rf, rf_countStray_cnt hs h] <;> simp [HIF_CNT.COUNT, HIF_CNT.w, HIF_ACCESS_ERR.w]

end Stray
end Sys2Proof.Machine
end

section
/-! PROOFS. Writes of a ring's context (R430 to R432), head write-backs (R434) and invalidations (R418), and the obligation on doorbells and rings. -/

namespace Sys2Proof.Machine

/-! ### Writes of a ring's context (R430, R431) -/

section Ctrl

variable {s u : State} {f : Fld} {r : RingIx} {w : Word} {k q v i ty : Nat} {en : Bool}

/-- What a write of `HIF_RING_CTRL` stores besides ENABLE. -/
def ctrlPuts (r v : Nat) : List (Fld × Nat) :=
  [(HIF_RING_CTRL.TYPE r, bits v 1 3), (HIF_RING_CTRL.LOG_SIZE r, bits v 4 4), (HIF_RING_CTRL.HWB_EN r, bits v 8 1)]

theorem separate_ctrlPuts : Separate (ctrlPuts k v) := by simp [Separate, ctrlPuts, Fld.apart]

theorem ctrlPuts_reads (hs : s.regsCanon = true) : (s.puts (ctrlPuts k v)).rf (HIF_RING_CTRL.TYPE k) = bits v 1 3 ∧
    (s.puts (ctrlPuts k v)).rf (HIF_RING_CTRL.LOG_SIZE k) = bits v 4 4 ∧ (s.puts (ctrlPuts k v)).rf (HIF_RING_CTRL.HWB_EN k) = bits v 8 1 := by
  have hread : ∀ {f y}, (f, y) ∈ ctrlPuts k v → (s.puts (ctrlPuts k v)).rf f = y % 2 ^ f.width := rf_puts_mem hs separate_ctrlPuts
  exact ⟨(hread (y := bits v 1 3) (by simp [ctrlPuts])).trans (Nat.mod_mod ..),
    (hread (y := bits v 4 4) (by simp [ctrlPuts])).trans (Nat.mod_mod ..), (hread (y := bits v 8 1) (by simp [ctrlPuts])).trans (Nat.mod_mod ..)⟩

/-- A write of `HIF_RING_CTRL` before its ENABLE bit acts: the other fields are stored while the ring is DISABLED, and a change of them is ignored and
marked otherwise. -/
def State.ctrlFields (s : State) (r v : Nat) : State :=
  if s.ringState r = rsDisabled then s.puts (ctrlPuts r v)
  else if bits v 1 8 != bits (s.reg (HIF_RING_CTRL.w r)).toNat 1 8 then s.hifErr HIF_ERR.CTX_IGNORED r
  else s

theorem ctrlFields_of_disabled (h : s.ringState k = rsDisabled) : s.ctrlFields k v = s.puts (ctrlPuts k v) := if_pos h

theorem ctrlFields_of_changed (h : s.ringState k ≠ rsDisabled) (hv : bits v 1 8 ≠ bits (s.reg (HIF_RING_CTRL.w k)).toNat 1 8) :
    s.ctrlFields k v = s.hifErr HIF_ERR.CTX_IGNORED k := by
  rw [State.ctrlFields, if_neg h, if_pos (by simpa using hv)]

theorem ctrlFields_of_same (h : s.ringState k ≠ rsDisabled) (hv : bits v 1 8 = bits (s.reg (HIF_RING_CTRL.w k)).toNat 1 8) :
    s.ctrlFields k v = s := by
  rw [State.ctrlFields, if_neg h, if_neg (by simp [hv])]

theorem evtChanges_ctrlFields (h : s.ringState k ≠ rsDisabled) : EvtChanges errWords s (s.ctrlFields k v) := by
  by_cases hv : bits v 1 8 = bits (s.reg (HIF_RING_CTRL.w k)).toNat 1 8
  · rw [ctrlFields_of_same h hv]
    exact .refl s
  · rw [ctrlFields_of_changed h hv]
    exact evtChanges_hifErr rfl

/-- The command's word with its ENABLE bit put: the bits above are its own. -/
theorem bits_enableWord (w : Word) (e lo n : Nat) (h : 1 ≤ lo) : bits (BitVec.ofNat 32 (putBits w.toNat 0 1 e)).toNat lo n = bits w.toNat lo n := by
  rw [BitVec.toNat_ofNat, Nat.mod_eq_of_lt (putBits_lt w.isLt (by decide)), bits_putBits_above _ _ _ _ _ _ (by omega)]

theorem bit_enableWord (w : Word) (e : Nat) : bit (BitVec.ofNat 32 (putBits w.toNat 0 1 e)).toNat 0 = decide (e % 2 = 1) := by
  have h := bits_putBits_same w.toNat 0 1 e
  rw [BitVec.toNat_ofNat, Nat.mod_eq_of_lt (putBits_lt w.isLt (by decide))]
  simp only [bits, Nat.pow_one] at h
  rw [bit, h]

theorem ringCtrlWrite_eq (e : Nat) : ringCtrlWrite k (BitVec.ofNat 32 (putBits w.toNat 0 1 e)) s =
    (s.ctrlFields k w.toNat).ringEnable k (decide (e % 2 = 1)) := by
  unfold ringCtrlWrite
  dsimp only
  rw [bit_enableWord, bits_enableWord _ _ _ _ (by decide), bits_enableWord _ _ _ _ (by decide), bits_enableWord _ _ _ _ (by decide),
    bits_enableWord _ _ _ _ (by decide)]
  rfl

theorem exec_ringEnable (h : s.hostOpen = true) : exec (.ringEnable r w) s = .next ((s.ctrlFields r w.toNat).ringEnable r true) :=
  congrArg Host.Outcome.next ((onWrite_open h).trans (ringCtrlWrite_eq 1))

theorem exec_ringDisable (h : s.hostOpen = true) : exec (.ringDisable r w) s = .next ((s.ctrlFields r w.toNat).ringEnable r false) :=
  congrArg Host.Outcome.next ((onWrite_open h).trans (ringCtrlWrite_eq 0))

/-! Enabling (R430). -/

/-- The store of a context write decides no other ring's kind or state. -/
theorem ringIs_ctrlPuts (hs : s.regsCanon = true) (hst : s.ringState k = rsDisabled) : (s.puts (ctrlPuts k v)).ringIs q ty = s.ringIs q ty := by
  have hstate : (s.puts (ctrlPuts k v)).ringState q = s.ringState q := by
    refine rf_puts_apart hs separate_ctrlPuts.1 (place_ringState q).2.2 ?_
    simp [ctrlPuts, Fld.apart, ringPlace, HIF_RING_CTRL.w]
    omega
  by_cases hq : q = k
  · subst hq
    simp [State.ringIs, hstate, hst, rsDisabled, rsActive]
  · have htype : (s.puts (ctrlPuts k v)).ringType q = s.ringType q := by
      refine rf_puts_apart hs separate_ctrlPuts.1 (place_ringType q).2.2 ?_
      simp [ctrlPuts, Fld.apart, ringPlace, HIF_RING_CTRL.w]
      omega
    rw [State.ringIs, hstate, htype, State.ringIs]

theorem enableOk_ctrlPuts (hs : s.regsCanon = true) (hst : s.ringState k = rsDisabled) : (s.puts (ctrlPuts k v)).enableOk k =
    (decide (bits v 1 3 ≤ 4) && decide (bits v 4 4 ≤ 10) && (!fetched (bits v 1 3) || s.ringIs (s.rf (HIF_RING_BIND.CQ k)) 2)) := by
  obtain ⟨htype, hsize, -⟩ := ctrlPuts_reads (k := k) (v := v) hs
  have hcq : (s.puts (ctrlPuts k v)).rf (HIF_RING_BIND.CQ k) = s.rf (HIF_RING_BIND.CQ k) :=
    rf_puts_apart hs separate_ctrlPuts.1 (place_ringCq k).2.2 (by simp [ctrlPuts, Fld.apart])
  rw [State.enableOk, State.ringType, htype, hsize, hcq, ringIs_ctrlPuts hs hst]

/-- What an enable that is accepted writes. -/
def enablePuts (r i : Nat) : List (Fld × Nat) :=
  [(HIF_RING_CTRL.ENABLE r, 1), (HIF_RING_HEAD.HEAD r, i), (HIF_RING_TAIL.TAIL r, i), (HIF_RING_STATUS.STATE r, rsActive),
    (HIF_RING_STATUS.ARMED r, 0)]

theorem separate_enablePuts : Separate (ctrlPuts k v ++ enablePuts k i) := by simp [Separate, ctrlPuts, enablePuts, Fld.apart]

theorem ringEnable_accepted (hst : s.ringState k = rsDisabled) (hok : s.enableOk k = true) :
    ∃ x, s.ringEnable k true = (s.puts (enablePuts k (s.rf (HIF_RING_START.INDEX k)))).setRingX k x := by
  simp only [State.ringEnable, hst, hok, if_true]
  exact ⟨_, rfl⟩

theorem ringEnable_rejected (hst : s.ringState k = rsDisabled) (hok : s.enableOk k = false) :
    s.ringEnable k true = s.hifErr HIF_ERR.CTX_REJECT k := by
  simp only [State.ringEnable, hst, hok, if_true, Bool.false_eq_true, if_false]

theorem ringEnable_of_disabling (hst : s.ringState k = rsDisabling) : s.ringEnable k true = s.hifErr HIF_ERR.CTX_REJECT k := by
  simp only [State.ringEnable, hst, if_true, if_neg (show ¬ rsDisabling = rsDisabled by decide)]

theorem ringEnable_of_enabled (hst : s.ringState k ≠ rsDisabled) (hst' : s.ringState k ≠ rsDisabling) : s.ringEnable k true = s := by
  simp only [State.ringEnable, hst, hst', if_true, if_false]

theorem ringEnable_accepts (hs : s.regsCanon = true) (ho : s.hostOpen = true) (hst : s.ringState r = rsDisabled)
    (hty : bits w.toNat 1 3 ≤ 4) (hsize : bits w.toNat 4 4 ≤ 10)
    (hcq : fetched (bits w.toNat 1 3) = true → s.ringIs (s.rf (HIF_RING_BIND.CQ r)) 2 = true) :
    ∃ t, exec (.ringEnable r w) s = .next t ∧ t.ringState r = rsActive ∧ t.ringHead r = s.rf (HIF_RING_START.INDEX r) ∧
      t.ringTail r = s.rf (HIF_RING_START.INDEX r) ∧ t.ringType r = bits w.toNat 1 3 ∧ t.rf (HIF_RING_CTRL.LOG_SIZE r) = bits w.toNat 4 4 ∧
      t.rf (HIF_RING_CTRL.HWB_EN r) = bits w.toNat 8 1 ∧ t.rb (HIF_RING_CTRL.ENABLE r) = true ∧ t.rb (HIF_RING_STATUS.ARMED r) = false ∧
      (∀ q, q ≠ r.val → t.ringX q = s.ringX q) ∧
      FieldsKept s t [HIF_RING_CTRL.ENABLE r, HIF_RING_CTRL.TYPE r, HIF_RING_CTRL.LOG_SIZE r, HIF_RING_CTRL.HWB_EN r, HIF_RING_HEAD.HEAD r,
        HIF_RING_TAIL.TAIL r, HIF_RING_STATUS.STATE r, HIF_RING_STATUS.ARMED r] ∧ t = { s with regs := t.regs, rings := t.rings } := by
  have hput : ∀ {g : Fld}, g.fits = true → (∀ p ∈ ctrlPuts r w.toNat, p.1.apart g = true) → (s.puts (ctrlPuts r w.toNat)).rf g = s.rf g :=
    rf_puts_apart hs separate_ctrlPuts.1
  have hst' : (s.puts (ctrlPuts r w.toNat)).ringState r = rsDisabled :=
    (hput (place_ringState r).2.2 (by simp [ctrlPuts, Fld.apart])).trans hst
  have hok : (s.puts (ctrlPuts r w.toNat)).enableOk r = true := by
    rw [enableOk_ctrlPuts hs hst]
    cases hf : fetched (bits w.toNat 1 3) with
    | false => simp [hty, hsize]
    | true => simp [hty, hsize, hcq hf]
  obtain ⟨x, hx⟩ := ringEnable_accepted hst' hok
  rw [← puts_append, hput (place_ringStart r).2.2 (by simp [ctrlPuts, Fld.apart])] at hx
  have hi : s.rf (HIF_RING_START.INDEX r) < 2 ^ 17 := rf_lt _
  generalize s.rf (HIF_RING_START.INDEX r) = i at hx hi
  have hread : ∀ {f y}, (f, y) ∈ ctrlPuts r w.toNat ++ enablePuts r i →
      ((s.puts (ctrlPuts r w.toNat ++ enablePuts r i)).setRingX r x).rf f = y % 2 ^ f.width := fun h =>
    (rf_setRingX ..).trans (rf_puts_mem hs separate_enablePuts h)
  have hframe : SameButHost s ((s.puts (ctrlPuts r w.toNat ++ enablePuts r i)).setRingX r x) :=
    (sameButRegs_puts s (ctrlPuts r w.toNat ++ enablePuts r i)).host.trans (sameButHost_setRingX _ r x)
  refine ⟨_, by rw [exec_ringEnable ho, ctrlFields_of_disabled hst, hx],
    ?_, ?_, ?_, ?_, ?_, ?_, ?_, ?_, fun q hq => ?_, ?_, ?_⟩
  · exact hread (y := rsActive) (by simp [enablePuts])
  · exact (hread (y := i) (by simp [enablePuts])).trans (Nat.mod_eq_of_lt hi)
  · exact (hread (y := i) (by simp [enablePuts])).trans (Nat.mod_eq_of_lt hi)
  · exact (hread (y := bits w.toNat 1 3) (by simp [ctrlPuts])).trans (Nat.mod_mod ..)
  · exact (hread (y := bits w.toNat 4 4) (by simp [ctrlPuts])).trans (Nat.mod_mod ..)
  · exact (hread (y := bits w.toNat 8 1) (by simp [ctrlPuts])).trans (Nat.mod_mod ..)
  · rw [State.rb, hread (y := 1) (by simp [enablePuts])]
    rfl
  · rw [State.rb, hread (y := 0) (by simp [enablePuts])]
    rfl
  · rw [ringX_setRingX_ne _ _ _ _ hq, ringX_puts]
  · have hkept := fieldsKept_puts hs (separate_enablePuts (k := r) (v := w.toNat) (i := i)).1
    refine FieldsKept.mono (fun g hg ha => (rf_setRingX ..).trans (hkept g hg ha)) ?_
    simp [ctrlPuts, enablePuts]
  · exact hframe.regsRings (by rw [setRingX_hostMem, puts_hostMem]) (by rw [setRingX_evts, puts_evts])

end Ctrl

section CtrlMore

variable {s u : State} {f : Fld} {r : RingIx} {w : Word} {k q v i ty : Nat}

theorem ringEnable_rejects (hs : s.regsCanon = true) (ho : s.hostOpen = true) (hst : s.ringState r = rsDisabled)
    (hbad : 4 < bits w.toNat 1 3 ∨ 10 < bits w.toNat 4 4 ∨
      (fetched (bits w.toNat 1 3) = true ∧ s.ringIs (s.rf (HIF_RING_BIND.CQ r)) 2 = false)) :
    ∃ t, exec (.ringEnable r w) s = .next t ∧ t.ringState r = rsDisabled ∧ t.rb HIF_ERR.CTX_REJECT = true ∧ SameButEvents s t := by
  have hstate : (s.puts (ctrlPuts r w.toNat)).ringState r = s.ringState r :=
    rf_puts_apart hs separate_ctrlPuts.1 (place_ringState r).2.2 (by simp [ctrlPuts, Fld.apart])
  have hok : (s.puts (ctrlPuts r w.toNat)).enableOk r = false := by
    rw [enableOk_ctrlPuts hs hst]
    rcases hbad with h | h | ⟨h, h'⟩
    · simp [Nat.not_le.2 h]
    · simp [Nat.not_le.2 h]
    · simp [h, h']
  have herr : EvtChanges errWords (s.puts (ctrlPuts r w.toNat)) ((s.puts (ctrlPuts r w.toNat)).hifErr HIF_ERR.CTX_REJECT r) := evtChanges_hifErr rfl
  refine ⟨_, by rw [exec_ringEnable ho, ctrlFields_of_disabled hst, ringEnable_rejected (hstate.trans hst) hok], ?_,
    rb_hifErr_same (regsCanon_puts hs) rfl, (sameButRegs_puts ..).events.trans herr.same⟩
  rw [State.ringState, herr.toChanges.rf_ring (sparesRing_errWords r.isLt) (ofRing_state r), ← State.ringState, hstate, hst]

/-- A change of the fields of a ring that is not DISABLED is ignored and marked. -/
theorem ringEnable_ignores (hs : s.regsCanon = true) (ho : s.hostOpen = true) (hst : s.ringState r ≠ rsDisabled)
    (hv : bits w.toNat 1 8 ≠ bits (s.reg (HIF_RING_CTRL.w r)).toNat 1 8) :
    ∃ t, exec (.ringEnable r w) s = .next t ∧ t.ringState r = s.ringState r ∧ t.rb HIF_ERR.CTX_IGNORED = true ∧ SameButEvents s t := by
  have herr : EvtChanges errWords s (s.hifErr HIF_ERR.CTX_IGNORED r) := evtChanges_hifErr rfl
  have hstate : (s.hifErr HIF_ERR.CTX_IGNORED r).ringState r = s.ringState r := rf_hifErr_ring rfl r.isLt (ofRing_state r)
  have hmark : (s.hifErr HIF_ERR.CTX_IGNORED r).rb HIF_ERR.CTX_IGNORED = true := rb_hifErr_same hs rfl
  refine ⟨_, (exec_ringEnable ho).trans (by rw [ctrlFields_of_changed hst hv]), ?_⟩
  by_cases hd : s.ringState r = rsDisabling
  · rw [ringEnable_of_disabling (hstate.trans hd)]
    refine ⟨?_, ?_, herr.same.trans (evtChanges_hifErr rfl).same⟩
    · exact (rf_hifErr_ring rfl r.isLt (ofRing_state r)).trans hstate
    · rw [rb_hifErr_other (herr.canon hs) rfl rfl (by decide), hmark]
  · rw [ringEnable_of_enabled (hstate ▸ hst) (hstate ▸ hd)]
    exact ⟨hstate, hmark, herr.same⟩

theorem ringEnable_again (ho : s.hostOpen = true) (hst : s.ringState r ≠ rsDisabled) (hst' : s.ringState r ≠ rsDisabling)
    (hv : bits w.toNat 1 8 = bits (s.reg (HIF_RING_CTRL.w r)).toNat 1 8) : exec (.ringEnable r w) s = .next s := by
  rw [exec_ringEnable ho, ctrlFields_of_same hst hv, ringEnable_of_enabled hst hst']

/-! Disabling (R432). -/

theorem ringDisable_of_idle (h : s.ringState k = rsDisabled ∨ s.ringState k = rsDisabling) : s.ringEnable k false = s := by
  unfold State.ringEnable
  dsimp only
  rw [if_neg Bool.false_ne_true, if_pos]
  rcases h with h | h <;> simp [h]

/-- A ring whose disable has something to do. -/
theorem disable_guard (h : s.ringState k = rsActive ∨ s.ringState k = rsBackpressure ∨ s.ringState k = rsFault) :
    (decide (s.ringState k = rsDisabled) || decide (s.ringState k = rsDisabling)) = false := by
  rcases h with h | h | h <;> rw [h] <;> decide

theorem ringDisable_fetched (h : s.ringState k = rsActive ∨ s.ringState k = rsBackpressure ∨ s.ringState k = rsFault)
    (ht : fetched (s.ringType k) = true) :
    s.ringEnable k false = (s.puts [(HIF_RING_CTRL.ENABLE k, 0), (HIF_RING_STATUS.STATE k, rsDisabling)]).dropCache k := by
  simp only [State.ringEnable, disable_guard h, ht, Bool.false_eq_true, if_false, if_true]
  rfl

theorem ringDisable_needed (h : s.ringState k = rsActive) (ht : fetched (s.ringType k) = false) (hn : s.ringNeeded k = true) :
    s.ringEnable k false = s.hifErr HIF_ERR.CTX_REJECT k := by
  simp only [State.ringEnable, disable_guard (.inl h), ht, hn, Bool.false_eq_true, if_false, if_true]

theorem ringDisable_unneeded (h : s.ringState k = rsActive) (ht : fetched (s.ringType k) = false) (hn : s.ringNeeded k = false) :
    s.ringEnable k false = (s.wf (HIF_RING_CTRL.ENABLE k) 0).ringDisabled k := by
  simp only [State.ringEnable, disable_guard (.inl h), ht, hn, Bool.false_eq_true, if_false]

/-! A note of an error needs no ring and frees none. -/

/-- The words listed in a canonical map are those that differ from their reset value. -/
theorem mem_regs_iff (hs : s.regsCanon = true) (a : Nat) : (∃ x, (a, x) ∈ s.regs) ↔ s.reg a ≠ resetWord a := by
  unfold State.regsCanon at hs
  unfold State.reg
  generalize s.regs = m at hs
  generalize 0 = lo at hs
  induction m generalizing lo with
  | nil => simp [sget]
  | cons p m ih =>
    obtain ⟨b, y⟩ := p
    simp only [scanon, Bool.and_eq_true, decide_eq_true_eq] at hs
    obtain ⟨⟨-, hy⟩, hm⟩ := hs
    by_cases hab : a = b
    · subst hab
      simp only [sget, if_true]
      exact ⟨fun _ => hy, fun _ => ⟨y, List.mem_cons_self⟩⟩
    · simp [sget, hab, ih _ hm]

/-- The words that put a ring among those used. -/
def State.usedBy (s : State) (q a : Nat) : Prop :=
  s.reg a ≠ resetWord a ∧ (HIF_RING_CTRL.w 0 ≤ a ∧ a < HIF_RING_CTRL.w 0 + 16 * 16384 ∧
    ((a - HIF_RING_CTRL.w 0) % 16 = 0 ∨ ((a - HIF_RING_CTRL.w 0) % 16 = 8 ∧ s.reg (a - 8) = 0))) ∧ (a - HIF_RING_CTRL.w 0) / 16 = q

theorem mem_ringsUsed (hs : s.regsCanon = true) : q ∈ s.ringsUsed ↔ ∃ a, s.usedBy q a := by
  simp only [State.ringsUsed, List.mem_filterMap, State.usedBy, Prod.exists, ← mem_regs_iff hs, Option.ite_none_right_eq_some, Option.some.injEq]
  constructor
  · rintro ⟨a, x, hx, hcond, hq⟩
    exact ⟨a, ⟨x, hx⟩, hcond, hq⟩
  · rintro ⟨a, ⟨x, hx⟩, hcond, hq⟩
    exact ⟨a, x, hx, hcond, hq⟩

theorem usedBy_lt {a : Nat} (h : s.usedBy q a) : q < 2 ^ 14 := by
  obtain ⟨-, ⟨hlo, hhi, -⟩, hq⟩ := h
  omega

/-- Noting an error changes no word of a ring's context. -/
theorem reg_ring_of_changes {a : Nat} (h : Changes errWords s u) (hlo : HIF_RING_CTRL.w 0 ≤ a) (hhi : a < HIF_RING_CTRL.w 0 + 16 * 16384) :
    u.reg a = s.reg a := by
  refine h.words a ?_
  simp only [errWords, Set.mem_ofPred_eq, evtWord, HIF_RING_CTRL.w, HIF_ERR.w, HIF_ERR_LOC.w, Bool.or_eq_true, Bool.and_eq_true,
    decide_eq_true_eq] at *
  omega

theorem usedBy_of_changes {a : Nat} (h : Changes errWords s u) : u.usedBy q a ↔ s.usedBy q a := by
  unfold State.usedBy
  by_cases hin : HIF_RING_CTRL.w 0 ≤ a ∧ a < HIF_RING_CTRL.w 0 + 16 * 16384
  · rw [reg_ring_of_changes h hin.1 hin.2]
    by_cases hk : (a - HIF_RING_CTRL.w 0) % 16 = 8
    · rw [reg_ring_of_changes h (by omega) (by omega)]
    · simp [hk]
  · constructor <;> rintro ⟨-, ⟨hlo, hhi, -⟩, -⟩ <;> exact absurd ⟨hlo, hhi⟩ hin

theorem mem_ringsUsed_of_changes (hs : s.regsCanon = true) (h : Changes errWords s u) : q ∈ u.ringsUsed ↔ q ∈ s.ringsUsed := by
  rw [mem_ringsUsed hs, mem_ringsUsed (h.canon hs)]
  exact exists_congr fun a => usedBy_of_changes h

end CtrlMore

/-! ### Where the records of the event sources go -/

section Routes

variable {s t u : State} {f : Fld} {e : EvtRec} {W : Set Nat} {r src data : Nat}

/-- A field that says whether and where the records of an event source go: EN or RING of `CHIP_EVT_SRC`. -/
def Fld.routes (f : Fld) : Bool := decide (16384 ≤ f.w) && decide (f.w < 20480) && decide (f.lo + f.width ≤ 16) && f.low

/-- From `s` to `t` no record is routed otherwise. -/
structure KeepsRoutes (s t : State) : Prop where
  canon : s.regsCanon = true → t.regsCanon = true
  routes : s.regsCanon = true → ∀ f : Fld, f.routes = true → t.rf f = s.rf f

theorem KeepsRoutes.refl (s : State) : KeepsRoutes s s := ⟨id, fun _ _ _ => rfl⟩

theorem KeepsRoutes.trans (h1 : KeepsRoutes s t) (h2 : KeepsRoutes t u) : KeepsRoutes s u :=
  ⟨h2.canon ∘ h1.canon, fun hs f hf => (h2.routes (h1.canon hs) f hf).trans (h1.routes hs f hf)⟩

theorem Changes.keepsRoutes (h : Changes W s t) (hW : ∀ a ∈ W, a < 16384 ∨ 20480 ≤ a) : KeepsRoutes s t := by
  refine ⟨h.canon, fun _ f hf => ?_⟩
  simp only [Fld.routes, Bool.and_eq_true, decide_eq_true_eq] at hf
  obtain ⟨⟨⟨hlo, hhi⟩, -⟩, hlow⟩ := hf
  refine h.rf_low hlow fun hmem => ?_
  have := hW _ hmem
  omega

theorem keepsRoutes_wf_status (hf : f.low = true) (hw : f.w = CHIP_EVT_STATUS.w) (x : Nat) : KeepsRoutes s (s.wf f x) :=
  (evtChanges_wf_low (W := {CHIP_EVT_STATUS.w}) hf hw).toChanges.keepsRoutes fun a ha => by
    rw [Set.mem_singleton_iff.1 ha]
    exact .inl (by decide)

theorem keepsRoutes_merged (k x : Nat) : KeepsRoutes s (s.wf (CHIP_EVT_SRC.MERGED k) x) := by
  refine ⟨regsCanon_wf, fun hs f hf => rf_wf_apart hs rfl ?_ ?_⟩
  all_goals
    simp only [Fld.routes, Fld.low, Bool.and_eq_true, decide_eq_true_eq] at hf
    obtain ⟨⟨⟨hlo, hhi⟩, hsum⟩, hlt, -⟩ := hf
  · simp only [Fld.fits, decide_eq_true_eq]
    omega
  · simp only [Fld.apart, Bool.or_eq_true, decide_eq_true_eq]
    simp only [Fld.abs, CHIP_EVT_SRC.MERGED, CHIP_EVT_SRC.w]
    omega

theorem keepsRoutes_pend (h : src < 4096) : KeepsRoutes s (s.pend src) := by
  have hset : ∀ {s : State} {w : Nat} (x : Word), w < 16384 → KeepsRoutes s (s.setReg w x) := fun {_ w} x hw =>
    (evtChanges_setReg (W := {w}) rfl).toChanges.keepsRoutes fun a ha => .inl (Set.mem_singleton_iff.1 ha ▸ hw)
  unfold State.pend
  refine (hset _ ?_).trans (hset _ ?_)
  · simp only [CHIP_EVT_PEND.w]; omega
  · simp only [CHIP_EVT_SUMMARY.w]; omega

theorem keepsRoutes_withEvts (l : List EvtRec) : KeepsRoutes s (s.withEvts l) := ⟨id, fun _ _ _ => rfl⟩

theorem keepsRoutes_queueRec : KeepsRoutes s (s.queueRec r e).1 := by
  unfold State.queueRec
  split_ifs
  · exact (keepsRoutes_withEvts _).trans (keepsRoutes_merged ..)
  · exact keepsRoutes_withEvts _
  · exact keepsRoutes_wf_status (f := CHIP_EVT_STATUS.LOST) rfl rfl _
  · exact keepsRoutes_withEvts _
  · exact keepsRoutes_withEvts _

theorem keepsRoutes_raiseOnce (h : e.src < 4096) : KeepsRoutes s (s.raiseOnce e).1 := by
  unfold State.raiseOnce
  dsimp only
  refine (keepsRoutes_pend h).trans ?_
  split
  · exact .refl _
  · split
    · exact .refl _
    · split
      · exact keepsRoutes_queueRec
      · exact keepsRoutes_wf_status (f := CHIP_EVT_STATUS.UNROUTED) rfl rfl _

theorem keepsRoutes_raise (h : src < 4096) : KeepsRoutes s (s.raise src data) := by
  have hone := keepsRoutes_raiseOnce (s := s) (e := s.statusRec src data) h
  unfold State.raise State.raiseRec
  split
  · next heq => rw [heq] at hone; exact hone
  · next heq => rw [heq] at hone; exact hone.trans (keepsRoutes_raiseOnce (by decide : 0x041 < 4096))

theorem keepsRoutes_hifErr (hf : f.ofHifErr = true) : KeepsRoutes s (s.hifErr f r) := by
  have hout : ∀ a ∈ ({HIF_ERR.w, HIF_ERR_LOC.w} : Set Nat), a < 16384 ∨ 20480 ≤ a := by simp [HIF_ERR.w, HIF_ERR_LOC.w]
  have hloc : Changes {HIF_ERR.w, HIF_ERR_LOC.w} s (s.hifLoc r f.lo) := by
    unfold State.hifLoc
    split
    · exact ((evtChanges_wf_low rfl (.inr rfl)).trans (evtChanges_wf_low rfl (.inr rfl))).toChanges
    · exact .refl s
  simp only [Fld.ofHifErr, Bool.and_eq_true, decide_eq_true_eq] at hf
  obtain ⟨⟨hlow, hw⟩, -⟩ := hf
  have hset := (hloc.trans (evtChanges_wf_low (v := 1) hlow (.inl hw)).toChanges).keepsRoutes hout
  unfold State.hifErr
  dsimp only
  split
  · exact hset
  · exact hset.trans (keepsRoutes_raise (by decide))

/-- Whether a written ring is still needed does not change when an error is noted. -/
theorem ringNeeded_hifErr (hs : s.regsCanon = true) (hf : f.ofHifErr = true) (hr : r < 2 ^ 14) :
    (s.hifErr f r).ringNeeded r = s.ringNeeded r := by
  have herr : EvtChanges errWords s (s.hifErr f r) := evtChanges_hifErr hf
  have hroute := (keepsRoutes_hifErr (s := s) (r := r) hf).routes hs
  generalize s.hifErr f r = t at herr hroute
  have hring : ∀ {q g}, q < 2 ^ 14 → Fld.ofRing g q → t.rf g = s.rf g := fun hq hg => herr.toChanges.rf_ring (sparesRing_errWords hq) hg
  have hused : t.ringsUsed.any (fun q => t.boundTo q r && t.ringState q != rsDisabled) =
      s.ringsUsed.any (fun q => s.boundTo q r && s.ringState q != rsDisabled) := by
    rw [Bool.eq_iff_iff, List.any_eq_true, List.any_eq_true]
    refine exists_congr fun q => ?_
    rw [mem_ringsUsed_of_changes hs herr.toChanges]
    refine and_congr_right fun hq => ?_
    obtain ⟨a, ha⟩ := (mem_ringsUsed hs).1 hq
    have hq' := usedBy_lt ha
    rw [State.boundTo, State.ringType, State.ringState, hring hq' (ofRing_type q), hring hq' (ofRing_state q), hring hq' (by simp [Fld.ofRing])]
    rfl
  have hsources : (List.range 4096).any (fun e => (exportOf e).isNone && t.rb (CHIP_EVT_SRC.EN e) && t.rf (CHIP_EVT_SRC.RING e) = r) =
      (List.range 4096).any (fun e => (exportOf e).isNone && s.rb (CHIP_EVT_SRC.EN e) && s.rf (CHIP_EVT_SRC.RING e) = r) := by
    rw [Bool.eq_iff_iff, List.any_eq_true, List.any_eq_true]
    refine exists_congr fun e => and_congr_right fun he => ?_
    have he' : e < 4096 := List.mem_range.1 he
    have hw : 16384 ≤ CHIP_EVT_SRC.w e ∧ CHIP_EVT_SRC.w e < 20480 := by simp only [CHIP_EVT_SRC.w]; omega
    rw [State.rb, hroute (CHIP_EVT_SRC.EN e) (by simp [Fld.routes, Fld.low, CHIP_EVT_SRC.EN, hw]),
      hroute (CHIP_EVT_SRC.RING e) (by simp [Fld.routes, Fld.low, CHIP_EVT_SRC.RING, hw])]
    rfl
  have hexports : ∀ n e, t.rf (PMP_EXPORT_CFG.EN n e) = s.rf (PMP_EXPORT_CFG.EN n e) ∧ t.rf (PMP_EXPORT_CFG.RING n e) = s.rf (PMP_EXPORT_CFG.RING n e) :=
    fun n e => by
      have hout : PMP_EXPORT_CFG.w n e ∉ errWords := by
        simp only [errWords, Set.mem_ofPred_eq, evtWord, PMP_EXPORT_CFG.w, HIF_ERR.w, HIF_ERR_LOC.w, Bool.or_eq_true, Bool.and_eq_true,
          decide_eq_true_eq]
        omega
      exact ⟨herr.toChanges.rf_low rfl hout, herr.toChanges.rf_low rfl hout⟩
  rw [State.ringNeeded, State.ringType, hring hr (ofRing_type r), herr.same.ringX, hused, hsources]
  simp only [State.rb, hexports]
  rfl

end Routes

/-! ### Disabling a ring (R431, R432) -/

section Disable

variable {s : State} {f : Fld} {r : RingIx} {w : Word} {k q : Nat}

/-- A change of the fields that a write brings to a ring that is not DISABLED is marked. -/
theorem rb_ctrlFields_ignored (hs : s.regsCanon = true) (hst : s.ringState k ≠ rsDisabled)
    (hv : bits w.toNat 1 8 ≠ bits (s.reg (HIF_RING_CTRL.w k)).toNat 1 8) : (s.ctrlFields k w.toNat).rb HIF_ERR.CTX_IGNORED = true := by
  rw [ctrlFields_of_changed hst hv, rb_hifErr_same hs rfl]

theorem separate_disabling : Separate [(HIF_RING_CTRL.ENABLE k, 0), (HIF_RING_STATUS.STATE k, rsDisabling), (HIF_RING_STATUS.CACHED k, 0)] := by
  simp [Separate, Fld.apart]

/-- The registers of a fetched ring whose disable has begun. -/
theorem rf_disabling : ((s.puts [(HIF_RING_CTRL.ENABLE k, 0), (HIF_RING_STATUS.STATE k, rsDisabling)]).dropCache k).rf f =
    (s.puts [(HIF_RING_CTRL.ENABLE k, 0), (HIF_RING_STATUS.STATE k, rsDisabling), (HIF_RING_STATUS.CACHED k, 0)]).rf f := by
  rw [rf_dropCache]
  rfl

theorem ringDisable_begins (hs : s.regsCanon = true) (ho : s.hostOpen = true)
    (hst : s.ringState r = rsActive ∨ s.ringState r = rsBackpressure ∨ s.ringState r = rsFault) (ht : fetched (s.ringType r) = true)
    (hm : s.mapsCanon = true) :
    ∃ t, exec (.ringDisable r w) s = .next t ∧ t.ringState r = rsDisabling ∧ t.rb (HIF_RING_CTRL.ENABLE r) = false ∧
      (t.ringX r).entries = [] ∧ t.ringHead r = s.ringHead r ∧ t.ringTail r = s.ringTail r ∧ (∀ q, q ≠ r.val → t.ringX q = s.ringX q) ∧
      (bits w.toNat 1 8 ≠ bits (s.reg (HIF_RING_CTRL.w r)).toNat 1 8 → t.rb HIF_ERR.CTX_IGNORED = true) ∧
      t = { s with regs := t.regs, evts := t.evts, rings := t.rings } := by
  have hr : r.val < 2 ^ 14 := r.isLt
  have hne : s.ringState r ≠ rsDisabled := by rcases hst with h | h | h <;> rw [h] <;> decide
  have hfields := evtChanges_ctrlFields (v := w.toNat) hne
  have hmark := rb_ctrlFields_ignored (w := w) hs hne
  have hring : ∀ {g}, Fld.ofRing g r → (s.ctrlFields r w.toNat).rf g = s.rf g := hfields.toChanges.rf_ring (sparesRing_errWords hr)
  have hexec := exec_ringDisable (r := r) (w := w) ho
  rw [ringDisable_fetched (by rwa [State.ringState, hring (ofRing_state r)]) (by rwa [State.ringType, hring (ofRing_type r)])] at hexec
  generalize s.ctrlFields r w.toNat = u at hfields hmark hring hexec
  have hu : u.regsCanon = true := hfields.canon hs
  have hrings : (u.puts [(HIF_RING_CTRL.ENABLE r, 0), (HIF_RING_STATUS.STATE r, rsDisabling)]).ringsCanon := by
    rw [State.ringsCanon, puts_rings, hfields.same.rings_eq]
    exact ringsCanon_of_mapsCanon hm
  have hframe : SameButHost s ((u.puts [(HIF_RING_CTRL.ENABLE r, 0), (HIF_RING_STATUS.STATE r, rsDisabling)]).dropCache r) :=
    (hfields.same.host.trans (sameButRegs_puts u _).host).trans (sameButHost_dropCache ..)
  refine ⟨_, hexec, ?_, ?_, ?_, ?_, ?_, fun q hq => ?_, fun hv => ?_, hframe.rings ?_⟩
  · rw [State.ringState, rf_disabling, rf_puts_mem hu separate_disabling (v := rsDisabling) (by simp)]
    rfl
  · rw [State.rb, rf_disabling, rf_puts_mem hu separate_disabling (v := 0) (by simp)]
    rfl
  · rw [ringX_dropCache hrings]
    rfl
  · rw [State.ringHead, rf_disabling, rf_puts_apart hu separate_disabling.1 (place_ringHead r).2.2 (by simp [Fld.apart]), hring (ofRing_head r)]
    rfl
  · rw [State.ringTail, rf_disabling, rf_puts_apart hu separate_disabling.1 (place_ringTail r).2.2 (by simp [Fld.apart]), hring (ofRing_tail r)]
    rfl
  · rw [ringX_dropCache_ne hq, ringX_puts, hfields.same.ringX]
  · rw [State.rb, rf_disabling, rf_puts_apart hu separate_disabling.1 (by decide) ?_, ← State.rb, hmark hv]
    have hapart : ∀ {g : Fld}, g.ofRing r → g.apart HIF_ERR.CTX_IGNORED = true := fun hg =>
      (apart_of_offRings hr (by decide : HIF_ERR.CTX_IGNORED.offRings = true) hg).2
    simp [hapart (ofRing_enable r), hapart (ofRing_state r), hapart (ofRing_cached r)]
  · rw [dropCache_hostMem, puts_hostMem, hfields.same.hostMem]

/-- A note that other fields are kept leaves a written ring as needed as it was. -/
theorem ringNeeded_ctrlFields (hs : s.regsCanon = true) (hk : k < 2 ^ 14) (hst : s.ringState k ≠ rsDisabled) :
    (s.ctrlFields k w.toNat).ringNeeded k = s.ringNeeded k := by
  by_cases hv : bits w.toNat 1 8 = bits (s.reg (HIF_RING_CTRL.w k)).toNat 1 8
  · rw [ctrlFields_of_same hst hv]
  · rw [ctrlFields_of_changed hst hv, ringNeeded_hifErr hs rfl hk]

theorem ringDisable_written (hs : s.regsCanon = true) (ho : s.hostOpen = true) (hst : s.ringState r = rsActive)
    (ht : fetched (s.ringType r) = false) :
    (s.ringNeeded r = false → ∃ t, exec (.ringDisable r w) s = .next t ∧ t.ringState r = rsDisabled ∧
      t.rb (HIF_RING_CTRL.ENABLE r) = false ∧ t.pendingBit 0x103 = true ∧ (∀ q, q ≠ r.val → t.ringX q = s.ringX q) ∧
      t = { s with regs := t.regs, evts := t.evts, rings := t.rings }) ∧
    (s.ringNeeded r = true → ∃ t, exec (.ringDisable r w) s = .next t ∧ t.ringState r = rsActive ∧ t.rb HIF_ERR.CTX_REJECT = true ∧
      SameButEvents s t) := by
  have hr : r.val < 2 ^ 14 := r.isLt
  have hne : s.ringState r ≠ rsDisabled := by rw [hst]; decide
  have hfields := evtChanges_ctrlFields (v := w.toNat) hne
  have hneeded := ringNeeded_ctrlFields (w := w) hs hr hne
  have hring : ∀ {g}, Fld.ofRing g r → (s.ctrlFields r w.toNat).rf g = s.rf g := hfields.toChanges.rf_ring (sparesRing_errWords hr)
  have hexec := exec_ringDisable (r := r) (w := w) ho
  generalize s.ctrlFields r w.toNat = u at hfields hneeded hring hexec
  have hu : u.regsCanon = true := hfields.canon hs
  have hst' : u.ringState r = rsActive := (hring (ofRing_state r)).trans hst
  have ht' : fetched (u.ringType r) = false := by rwa [State.ringType, hring (ofRing_type r)]
  refine ⟨fun hn => ?_, fun hn => ?_⟩
  · have hframe : SameButHost s ((u.wf (HIF_RING_CTRL.ENABLE r) 0).ringDisabled r) :=
      (hfields.same.host.trans (sameButRegs_wf ..).host).trans (sameButHost_ringDisabled ..)
    rw [ringDisable_unneeded hst' ht' (hneeded.trans hn)] at hexec
    refine ⟨_, hexec, ringDisabled_state hr (regsCanon_wf hu), ?_, ringDisabled_pending (regsCanon_wf hu), fun q hq => ?_, hframe.rings ?_⟩
    · rw [State.rb, rf_ringDisabled hr (regsCanon_wf hu) (ofRing_enable r) rfl (by simp [Fld.apart]) (by simp [Fld.apart]),
        rf_wf_same hu rfl, (place_ringEnable r).2.1]
      rfl
    · rw [ringX_ringDisabled_ne hq, State.ringX, wf_rings, hfields.same.rings_eq, State.ringX]
    · rw [ringDisabled_hostMem, wf_hostMem, hfields.same.hostMem]
  · rw [ringDisable_needed hst' ht' (hneeded.trans hn)] at hexec
    exact ⟨_, hexec, (rf_hifErr_ring rfl hr (ofRing_state r)).trans hst', rb_hifErr_same hu rfl, hfields.same.trans (evtChanges_hifErr rfl).same⟩

theorem ringDisable_goes_on (hs : s.regsCanon = true) (ho : s.hostOpen = true) (hst : s.ringState r = rsDisabling) :
    (bits w.toNat 1 8 = bits (s.reg (HIF_RING_CTRL.w r)).toNat 1 8 → exec (.ringDisable r w) s = .next s) ∧
    (bits w.toNat 1 8 ≠ bits (s.reg (HIF_RING_CTRL.w r)).toNat 1 8 → ∃ t, exec (.ringDisable r w) s = .next t ∧ t.ringState r = rsDisabling ∧
      t.rb HIF_ERR.CTX_IGNORED = true ∧ SameButEvents s t) := by
  have hne : s.ringState r ≠ rsDisabled := by rw [hst]; decide
  refine ⟨fun hv => ?_, fun hv => ?_⟩
  · rw [exec_ringDisable ho, ctrlFields_of_same hne hv, ringDisable_of_idle (.inr hst)]
  · have hstate : (s.hifErr HIF_ERR.CTX_IGNORED r).ringState r = rsDisabling := (rf_hifErr_ring rfl r.isLt (ofRing_state r)).trans hst
    exact ⟨_, by rw [exec_ringDisable ho, ctrlFields_of_changed hne hv, ringDisable_of_idle (.inr hstate)], hstate, rb_hifErr_same hs rfl,
      (evtChanges_hifErr rfl).same⟩

theorem ringDisable_stores (hs : s.regsCanon = true) (ho : s.hostOpen = true) (hst : s.ringState r = rsDisabled) :
    ∃ t, exec (.ringDisable r w) s = .next t ∧ t.rf (HIF_RING_CTRL.TYPE r) = bits w.toNat 1 3 ∧
      t.rf (HIF_RING_CTRL.LOG_SIZE r) = bits w.toNat 4 4 ∧ t.rf (HIF_RING_CTRL.HWB_EN r) = bits w.toNat 8 1 ∧
      FieldsKept s t [HIF_RING_CTRL.TYPE r, HIF_RING_CTRL.LOG_SIZE r, HIF_RING_CTRL.HWB_EN r] ∧ SameButRegs s t := by
  have hstate : (s.puts (ctrlPuts r w.toNat)).ringState r = rsDisabled :=
    (rf_puts_apart hs separate_ctrlPuts.1 (place_ringState r).2.2 (by simp [ctrlPuts, Fld.apart])).trans hst
  obtain ⟨htype, hsize, hhwb⟩ := ctrlPuts_reads (k := r) (v := w.toNat) hs
  exact ⟨_, by rw [exec_ringDisable ho, ctrlFields_of_disabled hst, ringDisable_of_idle (.inl hstate)], htype, hsize, hhwb,
    fieldsKept_puts hs separate_ctrlPuts.1, sameButRegs_puts ..⟩

/-! The end of a disable. -/

theorem exec_ringDisableComplete (h : s.alive = true) : exec (.ringDisableComplete r) s = .next (ringDisableComplete r s) :=
  congrArg Host.Outcome.next (if_pos h)

/-- The head is written back for the last time when HWB_EN = 1. -/
def State.lastWriteBack (s : State) (r : Nat) : State := if s.rb (HIF_RING_CTRL.HWB_EN r) then s.writeBack r else s

theorem ringDisableComplete_of_done (hst : s.ringState k = rsDisabling) (hb : (s.ringX k).begun = 0) :
    ringDisableComplete k s = (s.lastWriteBack k).ringDisabled k := by
  unfold ringDisableComplete
  rw [if_pos (by simp [hst, hb])]
  rfl

theorem ringDisableComplete_of_begun (hb : (s.ringX k).begun ≠ 0) : ringDisableComplete k s = s := by
  unfold ringDisableComplete
  rw [if_neg (by simp [hb])]

theorem ringDisableComplete_done (hc : s.canon = true) (ha : s.alive = true) (hst : s.ringState r = rsDisabling) (hb : (s.ringX r).begun = 0) :
    ∃ t, exec (.ringDisableComplete r) s = .next t ∧ t.ringState r = rsDisabled ∧
      t.rb (HIF_RING_STATUS.SUSPENDED r) = false ∧ t.pendingBit 0x103 = true ∧
      (s.rb (HIF_RING_CTRL.HWB_EN r) = true → natLE (t.hostRead (s.rf (HIF_RING_HWB.ADDR r) * 8) 4) = s.ringHead r) ∧
      (s.rb (HIF_RING_CTRL.HWB_EN r) = false → t.hostMem = s.hostMem) ∧ (∀ q, q ≠ r.val → t.ringX q = s.ringX q) ∧
      t = { s with regs := t.regs, evts := t.evts, rings := t.rings, hostMem := t.hostMem } := by
  have hr : r.val < 2 ^ 14 := r.isLt
  have hs : s.regsCanon = true := regsCanon_of_canon hc
  have hlast : (s.lastWriteBack r).regsCanon = true ∧ SameButHost s (s.lastWriteBack r) ∧ ∀ q, q ≠ r.val → (s.lastWriteBack r).ringX q = s.ringX q := by
    unfold State.lastWriteBack
    split
    · exact ⟨regsCanon_writeBack hr hs, sameButHost_writeBack hr, fun q hq => (ringX_writeBack hr).trans (ringX_setRingX_ne _ _ _ _ hq)⟩
    · exact ⟨hs, (SameButRegs.refl s).host, fun _ _ => rfl⟩
  obtain ⟨hcanon, hframe, hothers⟩ := hlast
  refine ⟨_, by rw [exec_ringDisableComplete ha, ringDisableComplete_of_done hst hb], ringDisabled_state hr hcanon, ringDisabled_suspended hr hcanon,
    ringDisabled_pending hcanon, fun hw => ?_, fun hw => ?_, fun q hq => ?_, hframe.trans (sameButHost_ringDisabled ..)⟩
  · rw [hostRead_congr (ringDisabled_hostMem ..), State.lastWriteBack, if_pos hw, hostRead_writeBack hr (memCanon_of_canon hc)]
  · rw [ringDisabled_hostMem, State.lastWriteBack, if_neg (by simp [hw])]
  · rw [ringX_ringDisabled_ne hq, hothers q hq]

/-! The head write-back (R434). -/

theorem exec_headWriteback (h : s.alive = true) : exec (.headWriteback r) s = .next (headWriteback r s) := congrArg Host.Outcome.next (if_pos h)

theorem headWriteback_due (ha : s.alive = true) (hc : s.canon = true) (hd : (s.ringX r).hwbDue = true) (hw : s.rb (HIF_RING_CTRL.HWB_EN r) = true) :
    ∃ t, exec (.headWriteback r) s = .next t ∧ natLE (t.hostRead (s.rf (HIF_RING_HWB.ADDR r) * 8) 4) = s.ringHead r ∧
      (t.ringX r).hwbDue = false ∧ (∀ a, a < s.rf (HIF_RING_HWB.ADDR r) * 8 ∨ s.rf (HIF_RING_HWB.ADDR r) * 8 + 4 ≤ a → t.hostByte a = s.hostByte a) ∧
      (∀ q, q ≠ r.val → t.ringX q = s.ringX q) ∧ t = { s with regs := t.regs, evts := t.evts, hostMem := t.hostMem, rings := t.rings } := by
  have hr : r.val < 2 ^ 14 := r.isLt
  have hrun : headWriteback r s = s.writeBack r := if_pos (by simp [hd, hw])
  refine ⟨_, by rw [exec_headWriteback ha, hrun], hostRead_writeBack hr (memCanon_of_canon hc), ?_, fun a h => hostByte_writeBack_out hr h,
    fun q hq => (ringX_writeBack hr).trans (ringX_setRingX_ne _ _ _ _ hq), sameButHost_writeBack hr⟩
  rw [ringX_writeBack hr, ringX_setRingX_same _ _ _ (ringsCanon_of_mapsCanon (mapsCanon_of_canon hc))]

theorem headWriteback_not_due (ha : s.alive = true) (h : (s.ringX r).hwbDue = false ∨ s.rb (HIF_RING_CTRL.HWB_EN r) = false) :
    exec (.headWriteback r) s = .next s := by
  have hrun : headWriteback r s = s := if_neg (by rcases h with h | h <;> simp [h])
  rw [exec_headWriteback ha, hrun]

end Disable

/-! ### Invalidation (R418) -/

section Invalidate

variable {s : State} {f : Fld} {v : Word} {k q : Nat}

/-- The command's word with GO put: the bits below are its own, and GO is 1. -/
theorem bits_goWord (v : Word) : bits (BitVec.ofNat 32 (putBits v.toNat 14 1 1)).toNat 0 14 = bits v.toNat 0 14 ∧
    bit (BitVec.ofNat 32 (putBits v.toNat 14 1 1)).toNat 14 = true := by
  have h := bits_putBits_same v.toNat 14 1 1
  rw [BitVec.toNat_ofNat, Nat.mod_eq_of_lt (putBits_lt v.isLt (by decide))]
  refine ⟨bits_putBits_below _ _ _ _ _ _ (by decide), ?_⟩
  simp only [bits, Nat.pow_one] at h
  rw [bit, h]
  rfl

theorem exec_ringInvalidate (h : s.hostOpen = true) :
    exec (.ringInvalidate v) s = .next (invalWrite (BitVec.ofNat 32 (putBits v.toNat 14 1 1)) s) :=
  congrArg Host.Outcome.next (onWrite_open h)

/-- What an invalidation that starts writes. -/
def invalPuts (r : Nat) : List (Fld × Nat) := [(HIF_RING_INVAL.RING, r), (HIF_RING_INVAL.BUSY, 1), (HIF_RING_INVAL.REFUSED, 0)]

theorem separate_invalPuts : Separate (invalPuts k) := ⟨by simp [invalPuts]; decide, by simp [invalPuts]; decide⟩

theorem invalOk_iff : s.invalOk k = true ↔ fetched (s.ringType k) = true ∧ (s.ringState k = rsActive ∨ s.ringState k = rsBackpressure) := by
  simp [State.invalOk]

theorem invalWrite_starts (hb : s.rb HIF_RING_INVAL.BUSY = false) (hok : s.invalOk (bits v.toNat 0 14) = true) :
    invalWrite (BitVec.ofNat 32 (putBits v.toNat 14 1 1)) s =
      (s.puts (invalPuts (bits v.toNat 0 14))).setRingX (bits v.toNat 0 14) { s.ringX (bits v.toNat 0 14) with inval := true } := by
  obtain ⟨hring, hgo⟩ := bits_goWord v
  unfold invalWrite
  simp only [hring, hgo, hb, hok, Bool.not_true, Bool.or_false, Bool.false_eq_true, if_false]
  rw [show (((s.wf HIF_RING_INVAL.RING (bits v.toNat 0 14)).wf HIF_RING_INVAL.BUSY 1).wf HIF_RING_INVAL.REFUSED 0) =
    s.puts (invalPuts (bits v.toNat 0 14)) by rw [invalPuts, State.puts, State.puts, State.puts, State.puts], ringX_puts]

theorem invalWrite_refused (h : s.rb HIF_RING_INVAL.BUSY = true ∨ s.invalOk (bits v.toNat 0 14) = false) :
    invalWrite (BitVec.ofNat 32 (putBits v.toNat 14 1 1)) s =
      (s.wf HIF_RING_INVAL.REFUSED 1).hifErr HIF_ERR.INVAL_REFUSED (bits v.toNat 0 14) := by
  obtain ⟨hring, hgo⟩ := bits_goWord v
  unfold invalWrite
  dsimp only
  rw [hring, hgo, if_neg (by simp), if_pos (by rcases h with h | h <;> simp [h])]

theorem ringInvalidate_starts (hs : s.regsCanon = true) (ho : s.hostOpen = true) (hk : k = bits v.toNat 0 14)
    (hb : s.rb HIF_RING_INVAL.BUSY = false) (ht : fetched (s.ringType k) = true) (hst : s.ringState k = rsActive ∨ s.ringState k = rsBackpressure) :
    ∃ t, exec (.ringInvalidate v) s = .next t ∧ t.rb HIF_RING_INVAL.BUSY = true ∧ t.rb HIF_RING_INVAL.REFUSED = false ∧
      t.rf HIF_RING_INVAL.RING = k ∧ (t.ringX k).inval = true ∧ (∀ q, q ≠ k → t.ringX q = s.ringX q) ∧
      FieldsKept s t [HIF_RING_INVAL.BUSY, HIF_RING_INVAL.REFUSED, HIF_RING_INVAL.RING] ∧ t = { s with regs := t.regs, rings := t.rings } := by
  have hlt : k < 2 ^ 14 := hk ▸ bits_lt ..
  have hexec := (exec_ringInvalidate ho).trans (congrArg _ (invalWrite_starts (v := v) hb (hk ▸ invalOk_iff.2 ⟨ht, hst⟩)))
  rw [← hk] at hexec
  generalize hx : { s.ringX k with inval := true } = x at hexec
  have hinval : x.inval = true := by rw [← hx]
  have hread : ∀ {f y}, (f, y) ∈ invalPuts k → ((s.puts (invalPuts k)).setRingX k x).rf f = y % 2 ^ f.width := fun h =>
    (rf_setRingX ..).trans (rf_puts_mem hs separate_invalPuts h)
  have hframe : SameButHost s ((s.puts (invalPuts k)).setRingX k x) := (sameButRegs_puts s _).host.trans (sameButHost_setRingX ..)
  refine ⟨_, hexec, ?_, ?_, ?_, ?_, fun q hq => ?_, ?_, hframe.regsRings (by rw [setRingX_hostMem, puts_hostMem]) (by rw [setRingX_evts, puts_evts])⟩
  · rw [State.rb, hread (y := 1) (by simp [invalPuts])]
    rfl
  · rw [State.rb, hread (y := 0) (by simp [invalPuts])]
    rfl
  · exact (hread (y := k) (by simp [invalPuts])).trans (Nat.mod_eq_of_lt hlt)
  · rw [ringX_setRingX_of_ne (by rintro rfl; exact absurd hinval (by decide)), hinval]
  · rw [ringX_setRingX_ne _ _ _ _ hq, ringX_puts]
  · have hkept := fieldsKept_puts hs (separate_invalPuts (k := k)).1
    refine FieldsKept.mono (fun g hg ha => (rf_setRingX ..).trans (hkept g hg ha)) ?_
    simp [invalPuts]

theorem ringInvalidate_refused (hs : s.regsCanon = true) (ho : s.hostOpen = true) (hk : k = bits v.toNat 0 14)
    (h : s.rb HIF_RING_INVAL.BUSY = true ∨ fetched (s.ringType k) = false ∨ (s.ringState k ≠ rsActive ∧ s.ringState k ≠ rsBackpressure)) :
    ∃ t, exec (.ringInvalidate v) s = .next t ∧ t.rb HIF_RING_INVAL.REFUSED = true ∧ t.rb HIF_ERR.INVAL_REFUSED = true ∧
      t.rb HIF_RING_INVAL.BUSY = s.rb HIF_RING_INVAL.BUSY ∧ t.rf HIF_RING_INVAL.RING = s.rf HIF_RING_INVAL.RING ∧
      t.rf (HIF_RING_STATUS.SUSPENDED k) = s.rf (HIF_RING_STATUS.SUSPENDED k) ∧ SameButEvents s t := by
  have hlt : k < 2 ^ 14 := hk ▸ bits_lt ..
  have hbad : s.rb HIF_RING_INVAL.BUSY = true ∨ s.invalOk k = false :=
    h.imp_right fun h => by
      rw [Bool.eq_false_iff, ne_eq, invalOk_iff]
      rintro ⟨ht, hst⟩
      rcases h with h | ⟨h, h'⟩
      · exact absurd ht (by simp [h])
      · exact hst.elim h h'
  have hexec := (exec_ringInvalidate ho).trans (congrArg _ (invalWrite_refused (v := v) (hk ▸ hbad)))
  rw [← hk] at hexec
  have hput : (s.wf HIF_RING_INVAL.REFUSED 1).regsCanon = true := regsCanon_wf hs
  have herr : EvtChanges errWords (s.wf HIF_RING_INVAL.REFUSED 1) ((s.wf HIF_RING_INVAL.REFUSED 1).hifErr HIF_ERR.INVAL_REFUSED k) := evtChanges_hifErr rfl
  have hout : HIF_RING_INVAL.w ∉ errWords := by simp [errWords, evtWord, HIF_RING_INVAL.w, HIF_ERR.w, HIF_ERR_LOC.w]
  refine ⟨_, hexec, ?_, rb_hifErr_same hput rfl, ?_, ?_, ?_, (sameButRegs_wf ..).events.trans herr.same⟩
  · rw [State.rb, herr.toChanges.rf_low rfl hout, rf_wf_same hs (by decide)]
    rfl
  · rw [State.rb, herr.toChanges.rf_low rfl hout, rf_wf_apart hs (by decide) (by decide) (by decide), State.rb]
  · rw [herr.toChanges.rf_low rfl hout, rf_wf_apart hs (by decide) (by decide) (by decide)]
  · rw [rf_hifErr_ring rfl hlt (ofRing_suspended k), rf_wf_apart hs (by decide) (place_ringSuspended k).2.2
      (apart_of_offRings hlt (by decide) (ofRing_suspended k)).1]

/-! Its completion. -/

theorem exec_invalidationComplete (h : s.alive = true) : exec .invalidationComplete s = .next (invalComplete s) :=
  congrArg Host.Outcome.next (if_pos h)

theorem invalComplete_of_idle (h : s.rb HIF_RING_INVAL.BUSY = false) : invalComplete s = s := if_neg (by simp [h])

theorem invalidationComplete_of_idle (h : s.rb HIF_RING_INVAL.BUSY = false) : exec .invalidationComplete s = .next s := by
  have hrun : exec .invalidationComplete s = .next (if s.dmaOn then invalComplete s else s) := rfl
  rw [hrun, invalComplete_of_idle h, ite_self]

/-- A ring whose invalidation completes has lost its cache, is suspended, and is invalidated no longer. -/
def State.invalidated (s : State) (r : Nat) : State := ((s.dropCache r).wf (HIF_RING_STATUS.SUSPENDED r) 1).endInval r

theorem invalComplete_of_busy (hb : s.rb HIF_RING_INVAL.BUSY = true) (hk : k = s.invalRing) (hi : (s.ringX k).inval = true)
    (hok : s.invalOk k = true) : invalComplete s =
      ((s.invalidated k).wf HIF_INVAL_FROM.INDEX ((s.invalidated k).ringHead k)).wf HIF_RING_INVAL.BUSY 0 := by
  unfold invalComplete
  dsimp only
  rw [if_pos hb, ← hk, if_pos (by simp [hi, hok])]
  rfl

/-- The fields that the end of an invalidation writes. -/
def invalidatedPuts (r : Nat) : List (Fld × Nat) := [(HIF_RING_STATUS.CACHED r, 0), (HIF_RING_STATUS.SUSPENDED r, 1)]

def reportPuts (r h : Nat) : List (Fld × Nat) := invalidatedPuts r ++ [(HIF_INVAL_FROM.INDEX, h), (HIF_RING_INVAL.BUSY, 0)]

theorem invalidated_regs : (s.invalidated k).regs = (s.puts (invalidatedPuts k)).regs := wf_regs_congr (dropCache_regs s k) _ _

theorem separate_reportPuts {h : Nat} (hk : k < 2 ^ 14) : Separate (reportPuts k h) := by
  have hapart : ∀ {f g : Fld}, f.offRings = true → g.ofRing k → f.apart g = true := fun hf hg => (apart_of_offRings hk hf hg).1
  have hfrom : HIF_INVAL_FROM.INDEX.offRings = true := by decide
  have hbusy : HIF_RING_INVAL.BUSY.offRings = true := by decide
  refine ⟨by simp [reportPuts, invalidatedPuts]; decide, ?_⟩
  simp only [reportPuts, invalidatedPuts, List.cons_append, List.nil_append, List.pairwise_cons, List.mem_cons, List.not_mem_nil, or_false,
    forall_eq_or_imp, forall_eq, List.Pairwise.nil, hapart hfrom (ofRing_cached k), hapart hfrom (ofRing_suspended k),
    hapart hbusy (ofRing_cached k), hapart hbusy (ofRing_suspended k)]
  exact ⟨⟨by simp [Fld.apart], trivial, trivial⟩, ⟨trivial, trivial⟩, by decide, by simp⟩

theorem ringX_invalidated (h : s.ringsCanon) :
    (s.invalidated k).ringX k = { s.ringX k with front := [], cache := [], upset := [], inval := false } := by
  have hx : ((s.dropCache k).wf (HIF_RING_STATUS.SUSPENDED k) 1).ringX k = { s.ringX k with front := [], cache := [], upset := [] } := by
    rw [State.ringX, wf_rings, ← State.ringX, ringX_dropCache h]
  unfold State.invalidated State.endInval
  rw [ringX_setRingX_same, hx]
  rw [wf_rings]
  exact ringsCanon_dropCache h

theorem ringX_invalidated_ne (h : q ≠ k) : (s.invalidated k).ringX q = s.ringX q := by
  rw [State.invalidated, ringX_endInval_ne h, State.ringX, wf_rings, ← State.ringX, ringX_dropCache_ne h]

theorem sameButHost_invalidated (s : State) (k : Nat) : SameButHost s (s.invalidated k) :=
  ((sameButHost_dropCache s k).trans (sameButRegs_wf ..).host).trans (sameButHost_setRingX ..)

theorem invalidationComplete_reports (hs : s.regsCanon = true) (ha : s.alive = true) (hb : s.rb HIF_RING_INVAL.BUSY = true)
    (hk : k = s.invalRing) (hlt : k < 2 ^ 14) (hi : (s.ringX k).inval = true) (ht : fetched (s.ringType k) = true)
    (hst : s.ringState k = rsActive ∨ s.ringState k = rsBackpressure) (hm : s.mapsCanon = true) :
    ∃ t, exec .invalidationComplete s = .next t ∧ (t.ringX k).entries = [] ∧ (t.ringX k).inval = false ∧ (∀ q, q ≠ k → t.ringX q = s.ringX q) ∧
      t.rf (HIF_RING_STATUS.CACHED k) = 0 ∧
      t.rf HIF_INVAL_FROM.INDEX = s.ringHead k ∧ t.rb HIF_RING_INVAL.BUSY = false ∧ t.rb (HIF_RING_STATUS.SUSPENDED k) = true ∧
      FieldsKept s t [HIF_RING_STATUS.CACHED k, HIF_RING_STATUS.SUSPENDED k, HIF_INVAL_FROM.INDEX, HIF_RING_INVAL.BUSY] ∧
      t = { s with regs := t.regs, rings := t.rings } := by
  have hhead : (s.invalidated k).ringHead k = s.ringHead k := by
    rw [State.ringHead, rf_congr_regs invalidated_regs, rf_puts_apart hs (by simp [invalidatedPuts]) (place_ringHead k).2.2
      (by simp [invalidatedPuts, Fld.apart]), State.ringHead]
  have hrun := invalComplete_of_busy hb hk hi (invalOk_iff.2 ⟨ht, hst⟩)
  have hhlt : s.ringHead k < 2 ^ 17 := rf_lt _
  rw [hhead] at hrun
  generalize s.ringHead k = h at hrun hhlt
  have hregs : (((s.invalidated k).wf HIF_INVAL_FROM.INDEX h).wf HIF_RING_INVAL.BUSY 0).regs = (s.puts (reportPuts k h)).regs := by
    rw [reportPuts, puts_append]
    exact wf_regs_congr (wf_regs_congr invalidated_regs _ _) _ _
  have hrings : ∀ q, (((s.invalidated k).wf HIF_INVAL_FROM.INDEX h).wf HIF_RING_INVAL.BUSY 0).ringX q = (s.invalidated k).ringX q := fun q => by
    rw [State.ringX, wf_rings, wf_rings, State.ringX]
  have hframe : SameButHost s (((s.invalidated k).wf HIF_INVAL_FROM.INDEX h).wf HIF_RING_INVAL.BUSY 0) :=
    ((sameButHost_invalidated s k).trans (sameButRegs_wf ..).host).trans (sameButRegs_wf ..).host
  have hmem : (s.invalidated k).hostMem = s.hostMem := by
    rw [State.invalidated, State.endInval, setRingX_hostMem, wf_hostMem, dropCache_hostMem]
  have hevts : (s.invalidated k).evts = s.evts := by
    rw [State.invalidated, State.endInval, setRingX_evts, wf_evts, dropCache_evts]
  have hread : ∀ {f y}, (f, y) ∈ reportPuts k h → (s.puts (reportPuts k h)).rf f = y % 2 ^ f.width := rf_puts_mem hs (separate_reportPuts hlt)
  refine ⟨_, (exec_invalidationComplete ha).trans (congrArg _ hrun), ?_, ?_, fun q hq => ?_, ?_, ?_, ?_, ?_, ?_,
    hframe.regsRings (by rw [wf_hostMem, wf_hostMem, hmem]) (by rw [wf_evts, wf_evts, hevts])⟩
  · rw [hrings, ringX_invalidated (ringsCanon_of_mapsCanon hm)]
    rfl
  · rw [hrings, ringX_invalidated (ringsCanon_of_mapsCanon hm)]
  · rw [hrings, ringX_invalidated_ne hq]
  · rw [rf_congr_regs hregs, hread (y := 0) (by simp [reportPuts, invalidatedPuts])]
    exact Nat.zero_mod _
  · rw [rf_congr_regs hregs, hread (y := h) (by simp [reportPuts])]
    exact Nat.mod_eq_of_lt hhlt
  · rw [State.rb, rf_congr_regs hregs, hread (y := 0) (by simp [reportPuts])]
    rfl
  · rw [State.rb, rf_congr_regs hregs, hread (y := 1) (by simp [reportPuts, invalidatedPuts])]
    rfl
  · intro g hg hap
    rw [rf_congr_regs hregs]
    exact fieldsKept_puts hs (separate_reportPuts hlt).1 g hg hap

end Invalidate
end Sys2Proof.Machine
open Sys2Proof Sys2Proof.Machine

/-- Settles O37, clause by clause: each is the rule of its command above. That the ring of an invalidation is kept by the ring itself is log entry 190;
that an invalidation of a written ring is refused, and that a change of a context is marked before its ENABLE acts, are the model's choices. -/
theorem doorbellsAndRings : Obligations.DoorbellsAndRings := by
  unfold Obligations.DoorbellsAndRings
  refine ⟨?moves, ?discards, ?halts, ?codes, ?stray, ?enables, ?keeps, ?disables, ?completes, ?invalidates, ?reports, ?idle, ?writesBack⟩
  case moves =>
    intro s r v hs ho hst hc
    exact ⟨doorbell_moves_tail hs ho hst hc, fun ht _ => doorbell_moves_head hs ho hst hc ht⟩
  case discards => exact fun s r v full hs ho hst => doorbell_discard hs ho hst
  case halts => exact fun s r v full c hs ha hst hc => doorbell_halts hs ha hst hc
  case codes => exact doorbellFault_codes
  case stray => exact fun s bar4 off hs ho => strayWrite_recorded hs ho
  case enables =>
    intro s r v hs ho hst
    exact ⟨fun hty hsize hcq _ => ringEnable_accepts hs ho hst hty hsize hcq, ringEnable_rejects hs ho hst⟩
  case keeps =>
    intro s r v hs ho hst
    exact ⟨ringEnable_ignores hs ho hst, fun hv hst' => ringEnable_again ho hst hst' hv⟩
  case disables =>
    intro s r v hs ho
    exact ⟨ringDisable_begins hs ho, ringDisable_written hs ho, ringDisable_goes_on hs ho, ringDisable_stores hs ho⟩
  case completes =>
    intro s r hc ha hst
    exact ⟨ringDisableComplete_done hc ha hst, fun hb => (exec_ringDisableComplete ha).trans (congrArg _ (ringDisableComplete_of_begun hb))⟩
  case invalidates =>
    intro s v k hs ho hk
    exact ⟨ringInvalidate_starts hs ho hk, ringInvalidate_refused hs ho hk⟩
  case reports => exact fun s k hs ha hb hk hlt hi ht hst hm => invalidationComplete_reports hs ha hb hk hlt hi ht hst hm
  case idle => exact fun s => invalidationComplete_of_idle
  case writesBack =>
    intro s r ha hc
    exact ⟨headWriteback_due ha hc, headWriteback_not_due ha⟩
end

section
/-! PROOFS. Adaptive voltage (R623 to R625): what the power block touches, a transaction on the PMBus, and the steps of the voltage. -/

namespace Sys2Proof.Machine

/-! ### What the power block touches -/

section Frames

variable {s t u : State}

/-- `t` is `s` but for register words, event records, the power block's own state, what was sent, and free values used. -/
def SameButPower (s t : State) : Prop :=
  t = { s with regs := t.regs, pwr := t.pwr, outputs := t.outputs, free := t.free, evts := t.evts }

theorem SameButPower.trans (h1 : SameButPower s t) (h2 : SameButPower t u) : SameButPower s u := by
  unfold SameButPower at *; rw [h2, h1]

theorem SameButEvents.power (h : SameButEvents s t) : SameButPower s t := by
  unfold SameButEvents at h; unfold SameButPower; rw [h]

theorem SameButRegs.power (h : SameButRegs s t) : SameButPower s t := h.events.power

theorem sameButPower_withPwr (s : State) (x : PwrX) : SameButPower s (s.withPwr x) := rfl

theorem SameButPower.tick (h : SameButPower s t) : t.time.tick = s.time.tick := by unfold SameButPower at h; rw [h]

/-- Without an event. -/
theorem SameButPower.noEvents (h : SameButPower s t) (he : t.evts = s.evts) :
    t = { s with regs := t.regs, pwr := t.pwr, outputs := t.outputs, free := t.free } := by
  unfold SameButPower at h; rw [he] at h; exact h

/-- With the power block's own state as it was. -/
theorem SameButPower.keepsPwr (h : SameButPower s t) (hp : t.pwr = s.pwr) :
    t = { s with regs := t.regs, outputs := t.outputs, free := t.free, evts := t.evts } := by
  unfold SameButPower at h; rw [hp] at h; exact h

/-- With no free value used either. -/
theorem SameButPower.regsOutputs (h : SameButPower s t) (hp : t.pwr = s.pwr) (hf : t.free = s.free) :
    t = { s with regs := t.regs, outputs := t.outputs, evts := t.evts } := by
  have h' := h.keepsPwr hp; rw [hf] at h'; exact h'

/-- Without a transaction on the PMBus. -/
theorem SameButPower.noOutputs (h : SameButPower s t) (ho : t.outputs = s.outputs) :
    t = { s with regs := t.regs, pwr := t.pwr, evts := t.evts, free := t.free } := by
  unfold SameButPower at h; rw [ho] at h; exact h

end Frames

/-! ### PMBus transactions (R623, R625) -/

section Pmbus

variable {s : State} {f : Fld} {code value fails h : Nat}

/-- What a transaction of `fails` unacknowledged attempts sends: itself at each attempt, three times at most (R625). -/
def State.pmbSent (s : State) (code value fails : Nat) : List Output := List.replicate (min (fails + 1) 3) (.pmbus s.pmbAddr code value)

theorem pmbus_eq (s : State) (code value fails : Nat) : s.pmbus code value fails = s.withOutputs (s.pmbSent code value fails ++ s.outputs) := by
  unfold State.pmbus State.pmbSent
  induction min (fails + 1) 3 with
  | zero => rfl
  | succ n ih => rw [List.range_succ, List.foldl_append, ih]; rfl

theorem pmbSent_of_acked (hf : fails < 3) : s.pmbSent code value fails = List.replicate (fails + 1) (.pmbus s.pmbAddr code value) := by
  rw [State.pmbSent, Nat.min_eq_left hf]

@[simp] theorem rf_pmbus (f : Fld) : (s.pmbus code value fails).rf f = s.rf f := by rw [pmbus_eq]; rfl
@[simp] theorem regsCanon_pmbus : (s.pmbus code value fails).regsCanon = s.regsCanon := by rw [pmbus_eq]; rfl
@[simp] theorem pmbus_outputs : (s.pmbus code value fails).outputs = s.pmbSent code value fails ++ s.outputs := by rw [pmbus_eq]; rfl
@[simp] theorem pmbus_pwr : (s.pmbus code value fails).pwr = s.pwr := by rw [pmbus_eq]; rfl
@[simp] theorem pmbus_free : (s.pmbus code value fails).free = s.free := by rw [pmbus_eq]; rfl
@[simp] theorem pmbus_evts : (s.pmbus code value fails).evts = s.evts := by rw [pmbus_eq]; rfl

theorem sameButPower_pmbus (s : State) (code value fails : Nat) : SameButPower s (s.pmbus code value fails) := by rw [pmbus_eq]; rfl

/-- A transaction leaves every register as it is. -/
theorem fieldsKept_pmbus : FieldsKept s (s.pmbus code value fails) [] := fun g _ _ => rf_pmbus g

theorem pmbusNack_of_failed (hf : fails = 3) : s.pmbusNack fails = s.setErr PWR_ERR.PMBUS_NACK 0xF20 := if_neg (by omega)

theorem nack_set (hs : s.regsCanon = true) : (s.setErr PWR_ERR.PMBUS_NACK 0xF20).rb PWR_ERR.PMBUS_NACK = true := by
  rw [State.rb, rf_setErr_same hs (by decide) (by decide) rfl (by decide)]; rfl

/-- The nearest values of the linear format on either side (log entry 219): a word is less than one unit away from the voltage. -/
theorem voutWord_near {n : Nat} (hx : s.pwr.voutExp = some (-(n : Int))) :
    s.voutWord h * 2000 < h * 2 ^ n + 2000 ∧ h * 2 ^ n < s.voutWord h * 2000 + 2000 := by
  have hneg : (-(n : Int)).toNat = 0 := by omega
  have hfree : s.freeBits 1 < 2 := Nat.mod_lt _ (by decide)
  simp only [State.voutWord, hx, neg_neg, Int.toNat_natCast, hneg, pow_zero, mul_one]
  generalize h * 2 ^ n = x
  split <;> omega

end Pmbus

/-! ### Voltage steps (R623, R624) -/

section Voltage

variable {s : State} {target fails h cur : Nat}

theorem avsNext_bounds (cur target : Nat) : 1440 ≤ avsNext cur target ∧ avsNext cur target ≤ 1600 := by unfold avsNext; omega

/-- Within the limits a step is not clamped (R624). -/
theorem avsNext_of_inside (hlo : 1440 ≤ cur) (hhi : cur ≤ 1600) (tlo : 720 ≤ target) (thi : target ≤ 800) :
    avsNext cur (2 * target) = if cur < 2 * target then min (2 * target) (cur + 5) else max (2 * target) (cur - 5) := by
  unfold avsNext; split <;> omega

/-- Nothing but the exponent read and the free values used tells what stands for a voltage. -/
theorem voutWord_congr {t : State} (hx : t.pwr.voutExp = s.pwr.voutExp) (hf : t.free = s.free) (h : Nat) : t.voutWord h = s.voutWord h := by
  simp only [State.voutWord, State.freeBits, hx, hf]

theorem b2n_odd (h : Nat) : b2n (decide (h % 2 = 1)) = h % 2 := by
  rcases Nat.mod_two_eq_zero_or_one h with hm | hm <;> simp [b2n, hm]

/-- A command of a voltage as it was sent, before what its acknowledgement does. -/
def State.voutSent (s : State) (h fails : Nat) : State := (s.pmbus pmbVoutCommand (s.voutWord h) fails).nextFree

@[simp] theorem rf_voutSent (f : Fld) : (s.voutSent h fails).rf f = s.rf f := (rf_nextFree ..).trans (rf_pmbus f)
@[simp] theorem regsCanon_voutSent : (s.voutSent h fails).regsCanon = s.regsCanon := (regsCanon_nextFree _).trans regsCanon_pmbus
@[simp] theorem voutSent_outputs : (s.voutSent h fails).outputs = s.pmbSent pmbVoutCommand (s.voutWord h) fails ++ s.outputs :=
  (nextFree_outputs _).trans pmbus_outputs
@[simp] theorem voutSent_pwr : (s.voutSent h fails).pwr = s.pwr := (nextFree_pwr _).trans pmbus_pwr
@[simp] theorem voutSent_evts : (s.voutSent h fails).evts = s.evts := (nextFree_evts _).trans pmbus_evts

theorem sameButPower_voutSent (s : State) (h fails : Nat) : SameButPower s (s.voutSent h fails) := by
  rw [State.voutSent, pmbus_eq]; rfl

theorem vout_of_acked (hf : fails < 3) :
    s.vout h fails = ((s.voutSent h fails).withPwr { s.pwr with half := decide (h % 2 = 1) }).wf PWR_AVS.SET_MV (h / 2) := by
  rw [← voutSent_pwr (s := s) (h := h) (fails := fails)]
  exact if_pos hf

theorem vout_of_failed (hf : fails = 3) : s.vout h fails = (s.voutSent h fails).setErr PWR_ERR.PMBUS_NACK 0xF20 :=
  (if_neg (show ¬ fails < 3 by omega)).trans (pmbusNack_of_failed hf)

section Acked
variable (hf : fails < 3)
include hf

theorem vout_setHalf (hs : s.regsCanon = true) (hh : h < 2048) : (s.vout h fails).setHalf = h := by
  have hset : (s.vout h fails).rf PWR_AVS.SET_MV = h / 2 := by
    rw [vout_of_acked hf, rf_wf_same (by simpa using hs) (by decide)]
    exact Nat.mod_eq_of_lt (show h / 2 < 1024 by omega)
  have hhalf : (s.vout h fails).pwr.half = decide (h % 2 = 1) := by rw [vout_of_acked hf, wf_pwr]; rfl
  rw [State.setHalf, hset, hhalf, b2n_odd]
  exact Nat.div_add_mod' h 2

theorem vout_pwr : (s.vout h fails).pwr = { s.pwr with half := decide (h % 2 = 1) } := by
  rw [vout_of_acked hf, wf_pwr]; rfl

theorem vout_outputs : (s.vout h fails).outputs =
    List.replicate (fails + 1) (.pmbus s.pmbAddr pmbVoutCommand (s.voutWord h)) ++ s.outputs := by
  rw [vout_of_acked hf, ← pmbSent_of_acked hf]; simp

theorem vout_evts : (s.vout h fails).evts = s.evts := by
  rw [vout_of_acked hf]; simp

theorem fieldsKept_vout (hs : s.regsCanon = true) : FieldsKept s (s.vout h fails) [PWR_AVS.SET_MV] := by
  rw [vout_of_acked hf]
  have hsent : FieldsKept s ((s.voutSent h fails).withPwr { s.pwr with half := decide (h % 2 = 1) }) [] := fun g _ _ => rf_voutSent g
  exact hsent.trans (fieldsKept_wf (by simpa using hs) (by decide))

end Acked

section Failed
variable (hf : fails = 3)
include hf

theorem vout_failed_nack (hs : s.regsCanon = true) : (s.vout h fails).rb PWR_ERR.PMBUS_NACK = true := by
  rw [vout_of_failed hf]; exact nack_set (by simpa using hs)

theorem vout_failed_pwr : (s.vout h fails).pwr = s.pwr := by
  rw [vout_of_failed hf]; simp

theorem vout_failed_outputs : (s.vout h fails).outputs =
    List.replicate 3 (.pmbus s.pmbAddr pmbVoutCommand (s.voutWord h)) ++ s.outputs := by
  rw [vout_of_failed hf]; simp [State.pmbSent, hf]

theorem fieldsKeptEv_vout_failed (hs : s.regsCanon = true) : FieldsKeptEv s (s.vout h fails) [PWR_ERR.PMBUS_NACK] := by
  rw [vout_of_failed hf]
  have hsent : FieldsKeptEv s (s.voutSent h fails) [] := fun g _ _ _ => rf_voutSent g
  exact hsent.trans (fieldsKeptEv_setErr (by simpa using hs) (by decide) (by decide))

end Failed

theorem sameButPower_vout (hf : fails ≤ 3) : SameButPower s (s.vout h fails) := by
  rcases Nat.lt_or_eq_of_le hf with hf | hf
  · rw [vout_of_acked hf]
    exact ((sameButPower_voutSent s h fails).trans (sameButPower_withPwr ..)).trans (sameButRegs_wf ..).power
  · rw [vout_of_failed hf]
    exact (sameButPower_voutSent s h fails).trans (evtStep_rest_setErr (by decide)).power

/-- The tick with EN = 1 as it commands a voltage or none: the target is recorded and the command of EN = 0 is due again (R624). -/
def State.aimed (s : State) (target : Nat) : State := (s.wf PWR_AVS.TARGET_MV target).withPwr { s.pwr with fixed := false }

theorem setHalf_aimed (hs : s.regsCanon = true) : (s.aimed target).setHalf = s.setHalf := by
  have hset : (s.aimed target).rf PWR_AVS.SET_MV = s.rf PWR_AVS.SET_MV := rf_wf_apart hs (by decide) (by decide) (by decide)
  rw [State.setHalf, hset]; rfl

theorem regsCanon_aimed (hs : s.regsCanon = true) : (s.aimed target).regsCanon = true := regsCanon_wf hs

theorem voutWord_aimed : (s.aimed target).voutWord h = s.voutWord h := voutWord_congr rfl (wf_free ..) h

theorem pmbAddr_aimed (hs : s.regsCanon = true) : (s.aimed target).pmbAddr = s.pmbAddr :=
  congrArg (0x40 + ·) (rf_wf_apart hs (by decide) (by decide) (by decide))

theorem aimed_outputs : (s.aimed target).outputs = s.outputs := wf_outputs ..

theorem fieldsKept_aimed (hs : s.regsCanon = true) : FieldsKept s (s.aimed target) [PWR_AVS.TARGET_MV] := fieldsKept_wf hs (by decide)

theorem rf_aimed (hs : s.regsCanon = true) (t : BitVec 10) : (s.aimed t.toNat).rf PWR_AVS.TARGET_MV = t.toNat :=
  (rf_wf_same hs (by decide)).trans (Nat.mod_eq_of_lt t.isLt)

theorem sameButPower_aimed : SameButPower s (s.aimed target) := (sameButRegs_wf ..).power.trans (sameButPower_withPwr ..)

theorem exec_avsTick (t : BitVec 10) (n : Fin 4) (s : State) : exec (.avsTick t n) s = .next (avsTick t.toNat n s) := rfl

theorem avsTick_enabled (hs : s.regsCanon = true) (hp : s.powered = true) (hen : s.rb PWR_AVS.EN = true) :
    avsTick target fails s = if avsNext s.setHalf (2 * target) = s.setHalf then s.aimed target
      else (s.aimed target).vout (avsNext s.setHalf (2 * target)) fails := by
  rw [← setHalf_aimed hs (target := target)]
  simp only [avsTick, hp, hen, Bool.not_true, Bool.false_eq_true, if_false, if_true]
  rfl

theorem avsTick_disabled (hp : s.powered = true) (hen : s.rb PWR_AVS.EN = false) (hfix : s.pwr.fixed = false) :
    avsTick target fails s = (s.vout 1500 fails).withPwr { (s.vout 1500 fails).pwr with fixed := decide (fails < 3) } := by
  simp [avsTick, hp, hen, hfix]

end Voltage

section VoltageClauses

variable {s : State} {target : BitVec 10} {fails : Fin 4}

theorem avsTick_acked (hs : s.regsCanon = true) (hp : s.powered = true) (hen : s.rb PWR_AVS.EN = true) (hf : fails.val < 3) :
    ∃ t, exec (.avsTick target fails) s = .next t ∧ t.rf PWR_AVS.TARGET_MV = target.toNat ∧
      (1440 ≤ s.setHalf → s.setHalf ≤ 1600 → 720 ≤ target.toNat → target.toNat ≤ 800 →
        t.setHalf = (if s.setHalf < 2 * target.toNat then min (2 * target.toNat) (s.setHalf + 5) else max (2 * target.toNat) (s.setHalf - 5))) ∧
      1440 ≤ t.setHalf ∧ t.setHalf ≤ 1600 ∧
      (t.setHalf ≠ s.setHalf → t.outputs = List.replicate (fails + 1) (.pmbus (0x40 + s.rf CHIP_STRAP.PMBUS_ADDR) pmbVoutCommand (s.voutWord t.setHalf)) ++
        s.outputs) ∧
      (t.setHalf = s.setHalf → t.outputs = s.outputs) ∧ t.pwr = { s.pwr with fixed := false, half := t.pwr.half } ∧
      FieldsKept s t [PWR_AVS.TARGET_MV, PWR_AVS.SET_MV] ∧ t = { s with regs := t.regs, pwr := t.pwr, outputs := t.outputs, free := t.free } := by
  obtain ⟨hlo, hhi⟩ := avsNext_bounds s.setHalf (2 * target.toNat)
  have hc := regsCanon_aimed hs (target := target.toNat)
  have hkept := fieldsKept_aimed hs (target := target.toNat)
  refine ⟨_, (exec_avsTick ..).trans (congrArg _ (avsTick_enabled hs hp hen)), ?_⟩
  generalize hh : avsNext s.setHalf (2 * target.toNat) = h at *
  have hstep : 1440 ≤ s.setHalf → s.setHalf ≤ 1600 → 720 ≤ target.toNat → target.toNat ≤ 800 → h = _ :=
    fun h1 h2 h3 h4 => hh.symm.trans (avsNext_of_inside h1 h2 h3 h4)
  split
  · next heq =>
    have hset : (s.aimed target.toNat).setHalf = h := (setHalf_aimed hs).trans heq.symm
    rw [hset]
    exact ⟨rf_aimed hs target, hstep, hlo, hhi, fun hne => absurd heq hne, fun _ => aimed_outputs, rfl,
      hkept.mono (by simp), sameButPower_aimed.noEvents (wf_evts ..)⟩
  · next hne =>
    have hframe := (sameButPower_aimed.trans (sameButPower_vout (s := s.aimed target.toNat) (h := h) (fails := fails) (by omega))).noEvents
      ((vout_evts hf).trans (wf_evts ..))
    have hout := vout_outputs hf (s := s.aimed target.toNat) (h := h)
    rw [voutWord_aimed, pmbAddr_aimed hs, aimed_outputs] at hout
    have hset := vout_setHalf hf hc (h := h) (by omega)
    refine ⟨?_, ?_, ?_, ?_, ?_, ?_, ?_, hkept.trans (fieldsKept_vout hf hc), hframe⟩
    · rw [fieldsKept_vout hf hc _ (by decide) (by decide), rf_aimed hs]
    · rwa [hset]
    · rwa [hset]
    · rwa [hset]
    · rw [hset]; exact fun _ => hout
    · rw [hset]; exact fun heq => absurd heq hne
    · rw [vout_pwr hf]; rfl

theorem avsTick_failed (hs : s.regsCanon = true) (hp : s.powered = true) (hen : s.rb PWR_AVS.EN = true) (hf : fails.val = 3) :
    ∃ t, exec (.avsTick target fails) s = .next t ∧ t.rf PWR_AVS.TARGET_MV = target.toNat ∧
      t.pwr = { s.pwr with fixed := false } ∧ FieldsKeptEv s t [PWR_AVS.TARGET_MV, PWR_ERR.PMBUS_NACK] ∧
      (avsNext s.setHalf (2 * target.toNat) ≠ s.setHalf → t.rb PWR_ERR.PMBUS_NACK = true ∧
        t.outputs = List.replicate 3 (.pmbus s.pmbAddr pmbVoutCommand (s.voutWord (avsNext s.setHalf (2 * target.toNat)))) ++ s.outputs) ∧
      (avsNext s.setHalf (2 * target.toNat) = s.setHalf → t.rb PWR_ERR.PMBUS_NACK = s.rb PWR_ERR.PMBUS_NACK ∧ t.outputs = s.outputs) ∧
      t = { s with regs := t.regs, pwr := t.pwr, outputs := t.outputs, free := t.free, evts := t.evts } := by
  have hc := regsCanon_aimed hs (target := target.toNat)
  have hkept := fieldsKept_aimed hs (target := target.toNat)
  refine ⟨_, (exec_avsTick ..).trans (congrArg _ (avsTick_enabled hs hp hen)), ?_⟩
  generalize avsNext s.setHalf (2 * target.toNat) = h
  split
  · next heq =>
    exact ⟨rf_aimed hs target, rfl, hkept.ev.mono (by simp), fun hne => absurd heq hne,
      fun _ => ⟨congrArg (· != 0) (hkept _ (by decide) (by decide)), aimed_outputs⟩, sameButPower_aimed⟩
  · next hne =>
    refine ⟨?_, vout_failed_pwr hf, hkept.ev.trans (fieldsKeptEv_vout_failed hf hc), fun _ => ⟨vout_failed_nack hf hc, ?_⟩,
      fun heq => absurd heq hne, sameButPower_aimed.trans (sameButPower_vout (by omega))⟩
    · rw [fieldsKeptEv_vout_failed hf hc _ (by decide) (by decide) (by decide), rf_aimed hs]
    · rw [vout_failed_outputs hf, voutWord_aimed, pmbAddr_aimed hs, aimed_outputs]

theorem avsTick_fixes (hs : s.regsCanon = true) (hp : s.powered = true) (hen : s.rb PWR_AVS.EN = false) (hfix : s.pwr.fixed = false)
    (hf : fails.val < 3) : ∃ t, exec (.avsTick target fails) s = .next t ∧ t.setHalf = 1500 ∧ t.pwr = { s.pwr with fixed := true, half := false } ∧
      t.outputs = List.replicate (fails + 1) (.pmbus s.pmbAddr pmbVoutCommand (s.voutWord 1500)) ++ s.outputs ∧
      FieldsKept s t [PWR_AVS.SET_MV] ∧ t = { s with regs := t.regs, pwr := t.pwr, outputs := t.outputs, free := t.free } := by
  have hpwr : { (s.vout 1500 fails).pwr with fixed := decide (fails.val < 3) } = { s.pwr with fixed := true, half := false } := by
    rw [vout_pwr hf, decide_eq_true hf]; rfl
  refine ⟨_, (exec_avsTick ..).trans (congrArg _ (avsTick_disabled hp hen hfix)), ?_, hpwr, vout_outputs hf, fieldsKept_vout hf hs,
    ((sameButPower_vout hf.le).trans (sameButPower_withPwr ..)).noEvents (vout_evts hf)⟩
  exact vout_setHalf hf hs (h := 1500) (by decide)

theorem avsTick_fix_failed (hs : s.regsCanon = true) (hp : s.powered = true) (hen : s.rb PWR_AVS.EN = false) (hfix : s.pwr.fixed = false)
    (hf : fails.val = 3) : ∃ t, exec (.avsTick target fails) s = .next t ∧ t.rb PWR_ERR.PMBUS_NACK = true ∧
      FieldsKeptEv s t [PWR_ERR.PMBUS_NACK] ∧
      t.outputs = List.replicate 3 (.pmbus s.pmbAddr pmbVoutCommand (s.voutWord 1500)) ++ s.outputs ∧
      t = { s with regs := t.regs, outputs := t.outputs, free := t.free, evts := t.evts } := by
  have hpwr : { (s.vout 1500 fails).pwr with fixed := decide (fails.val < 3) } = s.pwr := by
    rw [vout_failed_pwr hf, decide_eq_false (by omega), ← hfix]
  exact ⟨_, (exec_avsTick ..).trans (congrArg _ (avsTick_disabled hp hen hfix)), vout_failed_nack hf hs, fieldsKeptEv_vout_failed hf hs,
    vout_failed_outputs hf, ((sameButPower_vout hf.le).trans (sameButPower_withPwr ..)).keepsPwr hpwr⟩

theorem avsTick_once (hp : s.powered = true) (hen : s.rb PWR_AVS.EN = false) (hfix : s.pwr.fixed = true) :
    exec (.avsTick target fails) s = .next s := by
  simp [exec_avsTick, avsTick, hp, hen, hfix]

theorem avsTick_unpowered (hp : s.powered = false) : exec (.avsTick target fails) s = .next s := by
  simp [exec_avsTick, avsTick, hp]

end VoltageClauses
end Sys2Proof.Machine
end

section
/-! PROOFS. What watches the supplies and the temperature (file 20): the halt of a device with supplies (R437, R472), the PMBus poll (R625), the
thermal sensor and the rail monitors (R634, R635, R650). -/

namespace Sys2Proof.Machine

/-! ### Halting from any state with supplies (R437, R472) -/

section PoweredHalt

variable {s t : State} {f : Fld} {cause : Nat}

theorem powered_iff : s.powered = true ↔ s.chipState ≠ stOff ∧ s.chipState ≠ stStrap := by
  simp [State.powered]

theorem haltDev_of_powered (hp : s.powered = true) (hh : s.halted = false) :
    ∃ x : ChipX, s.haltDev cause = ((s.wf CHIP_HALT_CAUSE.CAUSE cause).withChip x).goHalted := by
  obtain ⟨hoff, hstrap⟩ := powered_iff.1 hp
  refine ⟨{ s.chip with ranAtHalt := s.running }, ?_⟩
  unfold State.haltDev
  rw [if_neg (by simp [hh, hoff, hstrap]), ← wf_withChip]
  rfl

theorem haltDev_halts (hs : s.regsCanon = true) (hp : s.powered = true) (hh : s.halted = false) (hc : cause < 2 ^ 8) :
    (s.haltDev cause).halted = true ∧ (s.haltDev cause).rf CHIP_HALT_CAUSE.CAUSE = cause := by
  obtain ⟨x, hx⟩ := haltDev_of_powered hp hh (cause := cause)
  rw [hx, changes_goHalted.rf_low rfl haltCause_not_mem_haltWords, rf_withChip, rf_wf_same hs (by decide)]
  exact ⟨halted_goHalted (regsCanon_wf hs), Nat.mod_eq_of_lt hc⟩

/-- A halt leaves the fields of other words as they are. -/
theorem rf_haltDev (hp : s.powered = true) (hh : s.halted = false) (hf : f.low = true) (hw : f.w ∉ haltWords) (hne : f.w ≠ CHIP_HALT_CAUSE.w) :
    (s.haltDev cause).rf f = s.rf f := by
  have hcause : EvtChanges {CHIP_HALT_CAUSE.w} s (s.wf CHIP_HALT_CAUSE.CAUSE cause) := evtChanges_wf_low rfl rfl
  obtain ⟨x, hx⟩ := haltDev_of_powered hp hh (cause := cause)
  rw [hx, changes_goHalted.rf_low hf hw, rf_withChip, hcause.rf_low hf hne]

theorem therm_not_mem_haltWords : PWR_THERM.w ∉ haltWords := by
  simp [haltWords, sideWords, evtWord, PWR_THERM.w, CHIP_STATE.w, PAIR_STATUS.w, HIF_STATUS.w, HIF_CNT.w, MSIX_PBA.w, CT_CNT.w, CT_SNAP_BANK.w]

theorem haltDev_of_unpowered (h : s.powered = false) : s.haltDev cause = s := by
  have : s.chipState = stOff ∨ s.chipState = stStrap := by
    by_contra hn; rw [not_or] at hn; simp [powered_iff.2 hn] at h
  exact if_pos (by rcases this with h | h <;> simp [h])

theorem haltDev_of_halted (h : s.halted = true) : s.haltDev cause = s := if_pos (by simp [h])

/-- Whether the chip has supplies, or is halted, is told by its state register alone. -/
theorem powered_congr (h : t.chipState = s.chipState) : t.powered = s.powered := by rw [State.powered, h, State.powered]

theorem halted_congr (h : t.chipState = s.chipState) : t.halted = s.halted := by rw [State.halted, h, State.halted]

end PoweredHalt

/-! ### The PMBus poll (R625) -/

section Poll

variable {s : State} {fails1 fails2 iout : Nat}

/-- The first transaction of the poll, and what its answer does. -/
def State.readIout (s : State) (iout fails : Nat) : State :=
  if fails < 3 then (s.pmbus pmbReadIout 0 fails).wf PWR_IOUT.IOUT_A iout else (s.pmbus pmbReadIout 0 fails).pmbusNack fails

theorem readIout_of_acked (hf : fails1 < 3) : s.readIout iout fails1 = (s.pmbus pmbReadIout 0 fails1).wf PWR_IOUT.IOUT_A iout := if_pos hf

theorem readIout_of_failed (hf : fails1 = 3) : s.readIout iout fails1 = (s.pmbus pmbReadIout 0 fails1).setErr PWR_ERR.PMBUS_NACK 0xF20 :=
  (if_neg (by omega)).trans (pmbusNack_of_failed hf)

theorem fieldsKept_readIout (hs : s.regsCanon = true) (hf : fails1 < 3) : FieldsKept s (s.readIout iout fails1) [PWR_IOUT.IOUT_A] := by
  rw [readIout_of_acked hf]
  exact fieldsKept_pmbus.trans (fieldsKept_wf (by simpa using hs) (by decide))

theorem fieldsKeptEv_readIout (hs : s.regsCanon = true) (hf : fails1 ≤ 3) :
    FieldsKeptEv s (s.readIout iout fails1) [PWR_IOUT.IOUT_A, PWR_ERR.PMBUS_NACK] := by
  rcases Nat.lt_or_eq_of_le hf with hf | hf
  · exact (fieldsKept_readIout hs hf).ev.mono (by simp)
  · rw [readIout_of_failed hf]
    exact (fieldsKept_pmbus.ev.trans (fieldsKeptEv_setErr (by simpa using hs) (by decide) (by decide))).mono (by simp)

theorem regsCanon_readIout (hs : s.regsCanon = true) (hf : fails1 ≤ 3) : (s.readIout iout fails1).regsCanon = true := by
  rcases Nat.lt_or_eq_of_le hf with hf | hf
  · rw [readIout_of_acked hf]; exact regsCanon_wf (by simpa using hs)
  · rw [readIout_of_failed hf]; exact regsCanon_setErr (by simpa using hs) (by decide)

theorem sameButPower_readIout (hf : fails1 ≤ 3) : SameButPower s (s.readIout iout fails1) := by
  rcases Nat.lt_or_eq_of_le hf with hf | hf
  · rw [readIout_of_acked hf]; exact (sameButPower_pmbus ..).trans (sameButRegs_wf ..).power
  · rw [readIout_of_failed hf]; exact (sameButPower_pmbus ..).trans (evtStep_rest_setErr (by decide)).power

/-- Neither the voltage's state nor a free value has a part in the poll. -/
theorem readIout_pwr_free (hf : fails1 ≤ 3) : (s.readIout iout fails1).pwr = s.pwr ∧ (s.readIout iout fails1).free = s.free := by
  rcases Nat.lt_or_eq_of_le hf with hf | hf
  · rw [readIout_of_acked hf]; simp
  · rw [readIout_of_failed hf]; simp

theorem rf_readIout (hs : s.regsCanon = true) (hi : iout < 2 ^ 11) (hf : fails1 ≤ 3) :
    (s.readIout iout fails1).rf PWR_IOUT.IOUT_A = if fails1 = 3 then s.rf PWR_IOUT.IOUT_A else iout := by
  rcases Nat.lt_or_eq_of_le hf with hf | hf
  · rw [readIout_of_acked hf, if_neg (by omega), rf_wf_same (by simpa using hs) (by decide)]
    exact Nat.mod_eq_of_lt hi
  · rw [readIout_of_failed hf, if_pos hf, rf_setErr_apart (by simpa using hs) (by decide) (by decide) (by decide) (by decide) (by decide),
      rf_pmbus]

/-- Both transactions of the poll as they were sent, the first with what its answer does. -/
def State.polled (s : State) (iout fails1 fails2 : Nat) : State := (s.readIout iout fails1).pmbus pmbStatusWord 0 fails2

theorem exec_pmbusPoll (iout : BitVec 11) (uv oc pgood : Bool) (f1 f2 : Fin 4) (s : State) :
    exec (.pmbusPoll iout uv oc pgood f1 f2) s = .next (pmbusPoll iout.toNat (uv || oc || pgood) f1 f2 s) := rfl

theorem pmbusPoll_of_powered (hp : s.powered = true) (fault : Bool) : pmbusPoll iout fault fails1 fails2 s =
    if fails2 < 3 then (if fault then (s.polled iout fails1 fails2).haltDev 0x31 else s.polled iout fails1 fails2)
    else (s.polled iout fails1 fails2).pmbusNack fails2 := by
  simp only [pmbusPoll, hp, Bool.not_true, Bool.false_eq_true, if_false]
  rfl

theorem pmbAddr_readIout (hs : s.regsCanon = true) (hf : fails1 ≤ 3) : (s.readIout iout fails1).pmbAddr = s.pmbAddr :=
  congrArg (0x40 + ·) (fieldsKeptEv_readIout hs hf _ (by decide) (by decide) (by decide))

theorem chipState_polled (hs : s.regsCanon = true) (hf : fails1 ≤ 3) : (s.polled iout fails1 fails2).chipState = s.chipState :=
  (rf_pmbus _).trans (fieldsKeptEv_readIout hs hf _ (by decide) (by decide) (by decide))

theorem regsCanon_polled (hs : s.regsCanon = true) (hf : fails1 ≤ 3) : (s.polled iout fails1 fails2).regsCanon = true :=
  regsCanon_pmbus.trans (regsCanon_readIout hs hf)

theorem sameButPower_polled (hf : fails1 ≤ 3) : SameButPower s (s.polled iout fails1 fails2) :=
  (sameButPower_readIout hf).trans (sameButPower_pmbus ..)

theorem polled_pwr_free (hf : fails1 ≤ 3) : (s.polled iout fails1 fails2).pwr = s.pwr ∧ (s.polled iout fails1 fails2).free = s.free := by
  rw [State.polled, pmbus_pwr, pmbus_free]; exact readIout_pwr_free hf

end Poll

section PollClauses

variable {s : State} {iout : BitVec 11} {uv oc pgood : Bool} {f1 f2 : Fin 4}

theorem pmbusPoll_acked (hs : s.regsCanon = true) (hp : s.powered = true) (hf1 : f1.val < 3) (hf2 : f2.val < 3) (hok : (uv || oc || pgood) = false) :
    ∃ t, exec (.pmbusPoll iout uv oc pgood f1 f2) s = .next t ∧ t.rf PWR_IOUT.IOUT_A = iout.toNat ∧ FieldsKept s t [PWR_IOUT.IOUT_A] ∧
      t.outputs = List.replicate (f2 + 1) (.pmbus s.pmbAddr pmbStatusWord 0) ++ List.replicate (f1 + 1) (.pmbus s.pmbAddr pmbReadIout 0) ++ s.outputs ∧
      t = { s with regs := t.regs, outputs := t.outputs } := by
  have hrun : pmbusPoll iout.toNat (uv || oc || pgood) f1 f2 s = s.polled iout.toNat f1 f2 := by
    rw [pmbusPoll_of_powered hp, hok, if_pos hf2]; rfl
  refine ⟨_, (exec_pmbusPoll ..).trans (congrArg _ hrun), ?_, (fieldsKept_readIout hs hf1).trans fieldsKept_pmbus, ?_, ?_⟩
  · rw [State.polled, rf_pmbus, rf_readIout hs iout.isLt hf1.le, if_neg hf1.ne]
  · rw [State.polled, pmbus_outputs, pmbSent_of_acked hf2, pmbAddr_readIout hs hf1.le, readIout_of_acked hf1, wf_outputs, pmbus_outputs,
      pmbSent_of_acked hf1, List.append_assoc]
  · have hevts : (s.polled iout.toNat f1 f2).evts = s.evts := by
      rw [State.polled, pmbus_evts, readIout_of_acked hf1, wf_evts, pmbus_evts]
    have hframe := (sameButPower_polled (s := s) (iout := iout.toNat) (fails2 := f2) hf1.le).noEvents hevts
    rwa [(polled_pwr_free hf1.le).1, (polled_pwr_free hf1.le).2] at hframe

theorem pmbusPoll_fault (hs : s.regsCanon = true) (hp : s.powered = true) (hf2 : f2.val < 3) (hh : s.halted = false) (hbad : (uv || oc || pgood) = true) :
    ∃ t, exec (.pmbusPoll iout uv oc pgood f1 f2) s = .next t ∧ t.halted = true ∧ t.rf CHIP_HALT_CAUSE.CAUSE = 0x31 := by
  have hrun : pmbusPoll iout.toNat (uv || oc || pgood) f1 f2 s = (s.polled iout.toNat f1 f2).haltDev 0x31 := by
    rw [pmbusPoll_of_powered hp, hbad, if_pos hf2]; rfl
  have hst := chipState_polled hs (show f1.val ≤ 3 by omega) (iout := iout.toNat) (fails2 := f2)
  exact ⟨_, (exec_pmbusPoll ..).trans (congrArg _ hrun), haltDev_halts (regsCanon_polled hs (by omega)) ((powered_congr hst).trans hp)
    ((halted_congr hst).trans hh) (by decide)⟩

theorem pmbusPoll_nack (hs : s.regsCanon = true) (hp : s.powered = true) (hf : f1.val = 3 ∨ f2.val = 3) (hok : f2.val = 3 ∨ (uv || oc || pgood) = false) :
    ∃ t, exec (.pmbusPoll iout uv oc pgood f1 f2) s = .next t ∧ t.rb PWR_ERR.PMBUS_NACK = true ∧
      t.rf PWR_IOUT.IOUT_A = (if f1.val = 3 then s.rf PWR_IOUT.IOUT_A else iout.toNat) ∧ FieldsKeptEv s t [PWR_IOUT.IOUT_A, PWR_ERR.PMBUS_NACK] ∧
      t = { s with regs := t.regs, outputs := t.outputs, evts := t.evts } := by
  have hf1 : f1.val ≤ 3 := by omega
  have hc := regsCanon_polled hs hf1 (iout := iout.toNat) (fails2 := f2)
  have hiout : (s.polled iout.toNat f1 f2).rf PWR_IOUT.IOUT_A = if f1.val = 3 then s.rf PWR_IOUT.IOUT_A else iout.toNat :=
    (rf_pmbus _).trans (rf_readIout hs iout.isLt hf1)
  have hkept : FieldsKeptEv s (s.polled iout.toNat f1 f2) [PWR_IOUT.IOUT_A, PWR_ERR.PMBUS_NACK] :=
    (fieldsKeptEv_readIout hs hf1).trans fieldsKept_pmbus.ev
  obtain ⟨hpwr, hfree⟩ := polled_pwr_free (s := s) (iout := iout.toNat) (fails2 := f2) hf1
  have hframe := sameButPower_polled (s := s) (iout := iout.toNat) (fails2 := f2) hf1
  by_cases hf2 : f2.val = 3
  · have hrun : pmbusPoll iout.toNat (uv || oc || pgood) f1 f2 s = (s.polled iout.toNat f1 f2).setErr PWR_ERR.PMBUS_NACK 0xF20 := by
      rw [pmbusPoll_of_powered hp, if_neg (by omega), pmbusNack_of_failed hf2]
    refine ⟨_, (exec_pmbusPoll ..).trans (congrArg _ hrun), nack_set hc, ?_, ?_, ?_⟩
    · rw [rf_setErr_apart hc (by decide) (by decide) (by decide) (by decide) (by decide), hiout]
    · exact (hkept.trans (fieldsKeptEv_setErr hc (by decide) (by decide))).mono (by simp)
    · exact (hframe.trans (evtStep_rest_setErr (by decide)).power).regsOutputs ((setErr_pwr _ (by decide) _).trans hpwr)
        ((setErr_free _ (by decide) _).trans hfree)
  · have hf1' : f1.val = 3 := hf.resolve_right hf2
    have hrun : pmbusPoll iout.toNat (uv || oc || pgood) f1 f2 s = s.polled iout.toNat f1 f2 := by
      rw [pmbusPoll_of_powered hp, hok.resolve_left hf2, if_pos (by omega)]; rfl
    refine ⟨_, (exec_pmbusPoll ..).trans (congrArg _ hrun), ?_, hiout, hkept, hframe.regsOutputs hpwr hfree⟩
    rw [State.polled, State.rb, rf_pmbus, readIout_of_failed hf1']
    exact nack_set (by simpa using hs)

theorem pmbusPoll_unpowered (hp : s.powered = false) : exec (.pmbusPoll iout uv oc pgood f1 f2) s = .next s := by
  simp [exec_pmbusPoll, pmbusPoll, hp]

end PollClauses

/-! ### The sensors and the rails (R634, R635, R650) -/

section Thermal

variable {s : State} {c : Byte}

theorem exec_thermalRead (c : Byte) (s : State) : exec (.thermalRead c) s = .next (thermalRead c.toNat s) := rfl

theorem thermalRead_unpowered (hp : s.powered = false) : exec (.thermalRead c) s = .next s := by
  simp [exec_thermalRead, thermalRead, hp]

/-- A temperature as it is recorded, with the warning where it crosses WARN_C (R635). -/
def State.tempRead (s : State) (t : Nat) : State :=
  if s.rf PWR_THERM.TEMP_C < s.rf PWR_THERM.WARN_C ∧ s.rf PWR_THERM.WARN_C ≤ t then
    ((s.wf PWR_THERM.TEMP_C t).wf PWR_ERR.THERM_WARN 1).raise 0xF21 ((s.wf PWR_THERM.TEMP_C t).reg PWR_THERM.w).toNat
  else s.wf PWR_THERM.TEMP_C t

theorem tempRead_of_calm {t : Nat} (h : ¬(s.rf PWR_THERM.TEMP_C < s.rf PWR_THERM.WARN_C ∧ s.rf PWR_THERM.WARN_C ≤ t)) :
    s.tempRead t = s.wf PWR_THERM.TEMP_C t := if_neg h

theorem fieldsKeptEv_tempRead (hs : s.regsCanon = true) (t : Nat) : FieldsKeptEv s (s.tempRead t) [PWR_THERM.TEMP_C, PWR_ERR.THERM_WARN] := by
  have htemp := fieldsKept_wf hs (f := PWR_THERM.TEMP_C) (v := t) (by decide)
  unfold State.tempRead
  split
  · have hwarn := fieldsKept_wf (regsCanon_wf hs (f := PWR_THERM.TEMP_C) (v := t)) (f := PWR_ERR.THERM_WARN) (v := 1) (by decide)
    exact (htemp.trans hwarn).ev.trans (fieldsKeptEv_raise (by decide))
  · exact htemp.ev.mono (by simp)

theorem regsCanon_tempRead (hs : s.regsCanon = true) (t : Nat) : (s.tempRead t).regsCanon = true := by
  unfold State.tempRead
  split
  · exact regsCanon_raise (regsCanon_wf (regsCanon_wf hs)) (by decide)
  · exact regsCanon_wf hs

theorem sameButEvents_tempRead (s : State) (t : Nat) : SameButEvents s (s.tempRead t) := by
  unfold State.tempRead
  split
  · exact ((sameButRegs_wf ..).trans (sameButRegs_wf ..)).events.trans (sameButEvents_raise (by decide))
  · exact (sameButRegs_wf ..).events

theorem rf_tempRead (hs : s.regsCanon = true) (c : Byte) : (s.tempRead c.toNat).rf PWR_THERM.TEMP_C = c.toNat := by
  have hput : (s.wf PWR_THERM.TEMP_C c.toNat).rf PWR_THERM.TEMP_C = c.toNat :=
    (rf_wf_same hs (by decide)).trans (Nat.mod_eq_of_lt c.isLt)
  unfold State.tempRead
  split
  · rw [rf_raise (by decide) (by decide), rf_wf_apart (regsCanon_wf hs) (by decide) (by decide) (by decide), hput]
  · exact hput

/-- The crossing of WARN_C sets the warning and raises its event. -/
theorem tempRead_warns {t : Nat} (hs : s.regsCanon = true) (h : s.rf PWR_THERM.TEMP_C < s.rf PWR_THERM.WARN_C ∧ s.rf PWR_THERM.WARN_C ≤ t) :
    (s.tempRead t).rb PWR_ERR.THERM_WARN = true ∧ (s.tempRead t).pendingBit 0xF21 = true := by
  rw [State.tempRead, if_pos h, State.rb, rf_raise (by decide) (by decide), rf_wf_same (regsCanon_wf hs) (by decide)]
  exact ⟨rfl, pending_raise (regsCanon_wf (regsCanon_wf hs)) (by decide)⟩

theorem thermalRead_of_powered {t : Nat} (hs : s.regsCanon = true) (hp : s.powered = true) :
    thermalRead t s = if s.rf PWR_THERM.TRIP_C ≤ t then (s.tempRead t).haltDev 0x30 else s.tempRead t := by
  rw [← fieldsKeptEv_tempRead hs t PWR_THERM.TRIP_C (by decide) (by decide) (by decide)]
  simp only [thermalRead, hp, Bool.not_true, Bool.false_eq_true, if_false]
  rfl

theorem thermalRead_of_cool {t : Nat} (hs : s.regsCanon = true) (hp : s.powered = true) (h : t < s.rf PWR_THERM.TRIP_C) :
    thermalRead t s = s.tempRead t := (thermalRead_of_powered hs hp).trans (if_neg (by omega))

theorem thermalRead_below_warning (hs : s.regsCanon = true) (hp : s.powered = true) (hw : c.toNat < s.rf PWR_THERM.WARN_C)
    (ht : c.toNat < s.rf PWR_THERM.TRIP_C) : ∃ t, exec (.thermalRead c) s = .next t ∧ t.rf PWR_THERM.TEMP_C = c.toNat ∧
      FieldsKept s t [PWR_THERM.TEMP_C] ∧ SameButRegs s t := by
  refine ⟨_, (exec_thermalRead ..).trans (congrArg _ (thermalRead_of_cool hs hp ht)), rf_tempRead hs c, ?_⟩
  rw [tempRead_of_calm (by omega)]
  exact ⟨fieldsKept_wf hs (by decide), sameButRegs_wf ..⟩

theorem thermalRead_crosses_warning (hs : s.regsCanon = true) (hp : s.powered = true) (hwas : s.rf PWR_THERM.TEMP_C < s.rf PWR_THERM.WARN_C)
    (hw : s.rf PWR_THERM.WARN_C ≤ c.toNat) (ht : c.toNat < s.rf PWR_THERM.TRIP_C) :
    ∃ t, exec (.thermalRead c) s = .next t ∧ t.rf PWR_THERM.TEMP_C = c.toNat ∧ t.rb PWR_ERR.THERM_WARN = true ∧ t.pendingBit 0xF21 = true ∧
      FieldsKeptEv s t [PWR_THERM.TEMP_C, PWR_ERR.THERM_WARN] ∧ SameButEvents s t := by
  obtain ⟨hwarn, hpend⟩ := tempRead_warns hs ⟨hwas, hw⟩
  exact ⟨_, (exec_thermalRead ..).trans (congrArg _ (thermalRead_of_cool hs hp ht)), rf_tempRead hs c, hwarn, hpend,
    fieldsKeptEv_tempRead hs _, sameButEvents_tempRead s _⟩

theorem thermalRead_past_warning (hs : s.regsCanon = true) (hp : s.powered = true) (hwas : s.rf PWR_THERM.WARN_C ≤ s.rf PWR_THERM.TEMP_C)
    (ht : c.toNat < s.rf PWR_THERM.TRIP_C) : exec (.thermalRead c) s = .next (s.wf PWR_THERM.TEMP_C c.toNat) := by
  rw [exec_thermalRead, thermalRead_of_cool hs hp ht, tempRead_of_calm (by omega)]

theorem thermalRead_trips (hs : s.regsCanon = true) (hp : s.powered = true) (ht : s.rf PWR_THERM.TRIP_C ≤ c.toNat) (hh : s.halted = false) :
    ∃ t, exec (.thermalRead c) s = .next t ∧ t.halted = true ∧ t.rf CHIP_HALT_CAUSE.CAUSE = 0x30 ∧ t.rf PWR_THERM.TEMP_C = c.toNat := by
  have hst : (s.tempRead c.toNat).chipState = s.chipState := fieldsKeptEv_tempRead hs _ _ (by decide) (by decide) (by decide)
  have hp' := (powered_congr hst).trans hp
  have hh' := (halted_congr hst).trans hh
  obtain ⟨hhalt, hcause⟩ := haltDev_halts (regsCanon_tempRead hs c.toNat) hp' hh' (cause := 0x30) (by decide)
  refine ⟨_, (exec_thermalRead ..).trans (congrArg _ ((thermalRead_of_powered hs hp).trans (if_pos ht))), hhalt, hcause, ?_⟩
  rw [rf_haltDev hp' hh' rfl therm_not_mem_haltWords (by decide), rf_tempRead hs]

end Thermal

section Rail

variable {s : State}

theorem exec_railLow (s : State) : exec .railLow s = .next (railLow s) := rfl

theorem railLow_of_early (h : s.chipState = stPriming ∧ s.rf CHIP_PRIME_STATUS.STEP < 3) : railLow s = s := if_pos (by simp [h])

theorem railLow_of_watched (h : ¬(s.chipState = stPriming ∧ s.rf CHIP_PRIME_STATUS.STEP < 3)) : railLow s = s.haltDev 0x32 :=
  if_neg (by simpa using h)

theorem railLow_ignored (h : s.chipState = stOff ∨ s.chipState = stStrap ∨ s.halted = true ∨
    (s.chipState = stPriming ∧ s.rf CHIP_PRIME_STATUS.STEP < 3)) : exec .railLow s = .next s := by
  rw [exec_railLow]
  by_cases hearly : s.chipState = stPriming ∧ s.rf CHIP_PRIME_STATUS.STEP < 3
  · rw [railLow_of_early hearly]
  · rw [railLow_of_watched hearly]
    rcases h with h | h | h | h
    · rw [haltDev_of_unpowered (by simp [State.powered, h])]
    · rw [haltDev_of_unpowered (by simp [State.powered, h])]
    · rw [haltDev_of_halted h]
    · exact absurd h hearly

theorem railLow_halts (hs : s.regsCanon = true) (hp : s.powered = true) (hh : s.halted = false)
    (hw : ¬(s.chipState = stPriming ∧ s.rf CHIP_PRIME_STATUS.STEP < 3)) :
    ∃ t, exec .railLow s = .next t ∧ t.halted = true ∧ t.rf CHIP_HALT_CAUSE.CAUSE = 0x32 :=
  ⟨_, (exec_railLow s).trans (congrArg _ (railLow_of_watched hw)), haltDev_halts hs hp hh (by decide)⟩

end Rail
end Sys2Proof.Machine
end

section
/-! PROOFS. The load-step governor (R627 to R629): what the regions ask for, what stopping a region's clocks shows, and the grant of a level step. -/

namespace Sys2Proof.Machine

/-! ### What the regions ask for (R627, R628) -/

section Asking

variable {s t : State} {x : PwrX} {k m n v : Nat}

/-- A value that is not the default is read back even in a map that is not canonical. -/
theorem mget_mset_of_ne_default {α : Type} [DecidableEq α] {d v : α} {l : List (Nat × α)} (hv : v ≠ d) : mget d (mset d l k v) k = v := by
  induction l with
  | nil => simp [mget, mset, sset, sget, hv]
  | cons p l ih =>
    obtain ⟨j, y⟩ := p
    simp only [mget, mset, sset, hv, if_false] at ih ⊢
    split
    · simp [sget]
    · split
      · simp [sget]
      · next hk => simpa [sget, hk] using ih

theorem wants_of_running (hh : s.halted = false) (hf : s.heldFull n = false) : s.wants n = mget 0 s.pwr.want n := by
  simp [State.wants, hh, hf]

theorem not_halted_of_wants_up (h : s.wants n = 2) : s.halted = false := by
  by_contra hn
  simp only [Bool.not_eq_false] at hn
  rw [State.wants, if_pos hn] at h
  split at h <;> simp at h

/-- A region at level 8 that asks for nothing itself waits for no step. -/
theorem wants_of_full (hh : s.halted = false) (hl : s.level n = 8) (hw : mget 0 s.pwr.want n = 0) : s.wants n = 0 := by
  simp [State.wants, hh, hl, hw]

/-- A region's request. -/
def State.ask (s : State) (n v : Nat) : State := s.setPwr { s.pwr with want := mset 0 s.pwr.want n v }

/-- The other regions wait for what they waited for. -/
theorem wants_ask_ne (h : m ≠ n) : (s.ask n v).wants m = s.wants m := by
  have hget : mget 0 (s.ask n v).pwr.want m = mget 0 s.pwr.want m := mget_mset_ne h
  unfold State.wants
  rw [hget]
  rfl

theorem wants_ask_same (hh : s.halted = false) (hf : s.heldFull n = false) : (s.ask n v).wants n = mget 0 (mset 0 s.pwr.want n v) n :=
  wants_of_running (s := s.ask n v) hh hf

theorem halted_eq_false_of_alive (h : s.alive = true) : s.halted = false := by
  have := not_halted_of_alive h
  simp only [Bool.or_eq_false_iff] at this
  exact this.1.1

theorem exec_idleStepDown (n : Region) (s : State) : exec (.idleStepDown n) s = .next (idleStepDown n s) := rfl

theorem idleStepDown_asks {n : Region} (ha : s.alive = true) (hl : s.level n = 8) (hg : bit (s.rf PWR_CFG.GATE_EN) n = true)
    (hf : s.heldFull n = false) (hi : s.idle n = true) : ∃ t, exec (.idleStepDown n) s = .next t ∧ t.wants n = 1 ∧
      (∀ m, m ≠ n.val → t.wants m = s.wants m) ∧ t = { s with pwr := t.pwr } := by
  have hrun : idleStepDown n s = s.ask n 1 := if_pos (by simp [ha, hl, hg, hf, hi])
  exact ⟨_, (exec_idleStepDown ..).trans (congrArg _ hrun),
    (wants_ask_same (halted_eq_false_of_alive ha) hf).trans (mget_mset_of_ne_default (by decide)), fun m => wants_ask_ne, rfl⟩

theorem idleStepDown_ignored {n : Region} (h : s.alive = false ∨ s.level n ≠ 8 ∨ bit (s.rf PWR_CFG.GATE_EN) n = false ∨ s.heldFull n = true ∨
    s.idle n = false) : exec (.idleStepDown n) s = .next s :=
  congrArg Host.Outcome.next (if_neg (by simp only [Bool.and_eq_true, decide_eq_true_eq]; rcases h with h | h | h | h | h <;> simp [h]))

theorem exec_wakeStepUp {n : Region} (ha : s.alive = true) : exec (.wakeStepUp n) s = .next (s.ask n (if s.level n = 8 then 0 else 2)) :=
  congrArg Host.Outcome.next (if_pos ha)

theorem wakeStepUp_asks {n : Region} (ha : s.alive = true) : ∃ t, exec (.wakeStepUp n) s = .next t ∧
      t = { s with pwr := { s.pwr with want := mset 0 s.pwr.want n (if s.level n = 8 then 0 else 2) } } ∧
      (mapCanon 0 s.pwr.want = true → s.heldFull n = false → t.wants n = (if s.level n = 8 then 0 else 2)) ∧ (∀ m, m ≠ n.val → t.wants m = s.wants m) :=
  ⟨_, exec_wakeStepUp ha, rfl, fun hm hf => (wants_ask_same (halted_eq_false_of_alive ha) hf).trans (mget_mset_same hm), fun _ => wants_ask_ne⟩

theorem wakeStepUp_ignored {n : Region} (h : s.alive = false) : exec (.wakeStepUp n) s = .next s :=
  congrArg Host.Outcome.next (if_neg (by simp [h]))

end Asking

/-! ### What stopping the clocks of a region shows (R589 to R591, R627) -/

section Shown

variable {s t u : State} {W : Set Nat} {k n i : Nat}

/-- No word outside `W` changes, and nothing but register words, event records and the count of free values. -/
structure FreeChanges (W : Set Nat) (s t : State) : Prop extends Changes W s t where
  same : t = { s with regs := t.regs, evts := t.evts, free := t.free }

theorem FreeChanges.refl (s : State) : FreeChanges W s s := ⟨.refl s, rfl⟩

theorem FreeChanges.trans (h1 : FreeChanges W s t) (h2 : FreeChanges W t u) : FreeChanges W s u :=
  ⟨h1.toChanges.trans h2.toChanges, by rw [h2.same, h1.same]⟩

theorem FreeChanges.power (h : FreeChanges W s t) : SameButPower s t := by unfold SameButPower; rw [h.same]

theorem EvtChanges.free (h : EvtChanges W s t) : FreeChanges W s t :=
  ⟨h.toChanges, by have hsame := h.same; unfold SameButEvents at hsame; rw [hsame]⟩

theorem freeChanges_nextFree : FreeChanges W s s.nextFree := ⟨changes_of_regs_eq rfl, rfl⟩

theorem freeChanges_foldl {α : Type} {g : State → α → State} {l : List α} (hg : ∀ s, ∀ x ∈ l, FreeChanges W s (g s x)) :
    FreeChanges W s (l.foldl g s) :=
  List.foldlRecOn (motive := FreeChanges W s) l g (.refl s) fun t ht x hx => ht.trans (hg t x hx)

theorem freeChanges_showCycle (hlo : 0 < i) (hhi : i < 256) : FreeChanges sideWords s (s.showCycle i) := by
  have hword : ∀ (s : State) (k : Nat) (x : Word), k < 2 → FreeChanges sideWords s (s.setReg (CT_CYCLE.w i + k) x) := fun s k x hk => by
    refine (evtChanges_setReg (unitWord_mem_sideWords ?_ ?_)).free <;> simp only [CT_CYCLE.w, CT_CNT.w, CT_SNAP_BANK.w] <;> omega
  unfold State.showCycle State.freePair
  split
  · exact ((hword s 0 _ (by omega)).trans (hword _ 1 _ (by omega))).trans freeChanges_nextFree
  · exact .refl s

theorem freeChanges_showCount (hi : i < 256) (hk : k < 8) : FreeChanges sideWords s (s.showCount i k) := by
  have hcnt : ∀ x, FreeChanges sideWords s (s.wf (CT_CNT.COUNT i k) x) := fun x => by
    refine (evtChanges_wf ?_ fun _ => ?_).free <;> refine unitWord_mem_sideWords ?_ ?_ <;>
      simp only [CT_CNT.COUNT, CT_CNT.w, CT_SNAP_BANK.w] <;> omega
  unfold State.showCount
  dsimp only
  split
  · refine (((hcnt (s.freeBits 48)).trans freeChanges_nextFree).trans freeChanges_nextFree).trans ?_
    split
    · exact (evtChanges_wrapped hi).free
    · exact .refl _
  · exact .refl s

theorem freeChanges_showUnit (hlo : 0 < i) (hhi : i < 256) : FreeChanges sideWords s (s.showUnit i) :=
  (freeChanges_showCycle hlo hhi).trans (freeChanges_foldl fun _ _ hk => freeChanges_showCount hhi (List.mem_range.1 hk))

theorem gatedUnits_bounds (hn : n < 8) (hi : i ∈ gatedUnits n) : 0 < i ∧ i < 256 := by
  simp only [gatedUnits, List.mem_cons, List.not_mem_nil, or_false] at hi
  omega

/-- At level 0 the gated islands of a region show what they counted. -/
def State.clocksStop (s : State) (n : Nat) : State := (gatedUnits n).foldl (fun s u => s.showUnit u) s

theorem freeChanges_clocksStop (hn : n < 8) : FreeChanges sideWords s (s.clocksStop n) :=
  freeChanges_foldl fun _ _ hi => freeChanges_showUnit (gatedUnits_bounds hn hi).1 (gatedUnits_bounds hn hi).2

end Shown

/-! ### The grant of a level step (R629) -/

section Grant

variable {s t : State} {k l m n b : Nat}

theorem low_level (hn : n < 8) : (PWR_STATUS.LEVEL n).low = true := by simp [Fld.low, PWR_STATUS.LEVEL]; omega

theorem fits_level (n : Nat) : (PWR_STATUS.LEVEL n).fits = true := by simp [Fld.fits, PWR_STATUS.LEVEL]; omega

theorem apart_level (h : m ≠ n) : (PWR_STATUS.LEVEL n).apart (PWR_STATUS.LEVEL m) = true := by
  simp only [Fld.apart, Bool.or_eq_true, decide_eq_true_eq]
  simp only [Fld.abs, PWR_STATUS.LEVEL]
  omega

theorem pwrStatus_not_mem_sideWords : PWR_STATUS.w ∉ sideWords := by
  simp [sideWords, evtWord, PWR_STATUS.w, HIF_CNT.w, MSIX_PBA.w, CT_CNT.w, CT_SNAP_BANK.w]

theorem chipState_not_mem_sideWords : CHIP_STATE.w ∉ sideWords := by
  simp [sideWords, evtWord, CHIP_STATE.w, HIF_CNT.w, MSIX_PBA.w, CT_CNT.w, CT_SNAP_BANK.w]

/-- Counting and raising events leave the levels as they are. -/
theorem level_of_changes (h : Changes sideWords s t) (hn : n < 8) : t.level n = s.level n :=
  h.rf_low (low_level hn) pwrStatus_not_mem_sideWords

/-- The first ready region from the pointer on is the one served. -/
theorem find_rotated {p : Nat → Bool} (hk : k < 8) (hn : (b + k) % 8 = n) (hp : p n = true) (hfirst : ∀ j, j < k → p ((b + j) % 8) = false) :
    ((List.range 8).map (fun k => (b + k) % 8)).find? p = some n := by
  have hfind : (List.range 8).find? (p ∘ fun k => (b + k) % 8) = some k :=
    List.find?_range_eq_some.2 ⟨by simpa [hn] using hp, List.mem_range.2 hk, fun j hj => by simpa using hfirst j hj⟩
  rw [List.find?_map, hfind, Option.map_some, hn]

theorem exec_levelStepGrant (s : State) : exec .levelStepGrant s = .next (levelStepGrant s) := rfl

theorem levelStepGrant_of_ready (hp : s.powered = true) (hk : k < 8) (hn : (s.pwr.ptr + k) % 8 = n)
    (hfirst : ∀ j, j < k → s.stepReady ((s.pwr.ptr + j) % 8) = false) (hr : s.stepReady n = true) (hb : stepMa ≤ s.refill.pwr.budget) :
    levelStepGrant s = s.refill.takeStep n := by
  have hfind : ((List.range 8).map (fun k => (s.refill.pwr.ptr + k) % 8)).find? s.refill.stepReady = some n := find_rotated hk hn hr hfirst
  simp only [levelStepGrant, hp, Bool.not_true, Bool.false_eq_true, if_false, hfind]
  exact if_neg (by omega)

theorem levelStepGrant_of_none (hp : s.powered = true) (h : (∀ n, n < 8 → s.stepReady n = false) ∨ s.refill.pwr.budget < stepMa) :
    levelStepGrant s = s.refill := by
  simp only [levelStepGrant, hp, Bool.not_true, Bool.false_eq_true, if_false]
  split
  · rfl
  · next n hfind =>
    obtain ⟨j, -, hj⟩ := List.mem_map.1 (List.mem_of_find?_eq_some hfind)
    have hn : n < 8 := hj ▸ Nat.mod_lt _ (by decide)
    have hready : s.stepReady n = true := List.find?_some hfind
    exact if_pos (h.resolve_left fun hnone => by simp [hnone n hn] at hready)

/-- The governor's record of a step of region `n` to level `l`, and the level itself. -/
def State.stepTo (s : State) (n l : Nat) : State :=
  (s.setPwr { s.pwr with
    budget := s.pwr.budget - stepMa, ptr := (n + 1) % 8, stepAt := mset 0 s.pwr.stepAt n (s.time.tick + 1),
    want := if l = 8 ∨ l = 0 then mset 0 s.pwr.want n 0 else s.pwr.want,
    fullAt := if l = 8 then mset 0 s.pwr.fullAt n s.time.tick else s.pwr.fullAt }).wf (PWR_STATUS.LEVEL n) l

theorem takeStep_down (hw : s.wants n = 1) (hl : s.level n ≠ 1) (h0 : s.level n ≠ 0) : s.takeStep n = s.stepTo n (s.level n - 1) := by
  have hl' : s.level n - 1 ≠ 0 := by omega
  simp [State.takeStep, hw, hl', State.stepTo]

theorem takeStep_to_zero (hn : n < 8) (hw : s.wants n = 1) (hl : s.level n = 1) : s.takeStep n = (s.clocksStop n).stepTo n 0 := by
  have hpwr : (s.clocksStop n).pwr = s.pwr := by rw [(freeChanges_clocksStop hn).same]
  simp only [State.takeStep, hw, hl, State.stepTo, hpwr]
  rfl

/-- The count of a step up (event 0x11 of unit 137). -/
def State.countStepUp (s : State) : State := s.ev 137 0x11 none 1 s.strokeNow (s.strokeNow * 2 ^ 32)

theorem evtChanges_countStepUp (s : State) : EvtChanges sideWords s s.countStepUp := evtChanges_ev (by decide)

theorem takeStep_up (hw : s.wants n = 2) : s.takeStep n = (s.stepTo n (s.level n + 1)).countStepUp := by
  simp [State.takeStep, hw, State.stepTo, State.countStepUp]

theorem chipState_stepTo (hs : s.regsCanon = true) : (s.stepTo n l).chipState = s.chipState :=
  rf_wf_apart hs (fits_level n) (by decide) (by simp [Fld.apart, Fld.abs, PWR_STATUS.LEVEL, PWR_STATUS.w, CHIP_STATE.STATE, CHIP_STATE.w]; omega)

theorem level_stepTo_same (hs : s.regsCanon = true) (hl : l < 2 ^ 4) : (s.stepTo n l).level n = l := by
  rw [State.level, State.stepTo, rf_wf_same (by simpa using hs) (fits_level n)]
  exact Nat.mod_eq_of_lt hl

theorem level_stepTo_ne (hs : s.regsCanon = true) (h : m ≠ n) : (s.stepTo n l).level m = s.level m :=
  rf_wf_apart hs (fits_level n) (fits_level m) (apart_level h)

theorem fieldsKept_stepTo (hs : s.regsCanon = true) : FieldsKept s (s.stepTo n l) [PWR_STATUS.LEVEL n] := fieldsKept_wf hs (fits_level n)

theorem sameButPower_stepTo : SameButPower s (s.stepTo n l) := (sameButPower_withPwr ..).trans (sameButRegs_wf ..).power

theorem stepTo_outputs (s : State) (n l : Nat) : (s.stepTo n l).outputs = s.outputs := wf_outputs ..

theorem stepTo_evts (s : State) (n l : Nat) : (s.stepTo n l).evts = s.evts := wf_evts ..

theorem stepTo_free (s : State) (n l : Nat) : (s.stepTo n l).free = s.free := wf_free ..

theorem stepTo_budget (s : State) (n l : Nat) : (s.stepTo n l).pwr.budget = s.pwr.budget - stepMa := by
  rw [State.stepTo, wf_pwr, State.setPwr, withPwr_pwr]

theorem stepTo_ptr (s : State) (n l : Nat) : (s.stepTo n l).pwr.ptr = (n + 1) % 8 := congrArg PwrX.ptr (wf_pwr ..)

theorem tick_stepTo (s : State) (n l : Nat) : (s.stepTo n l).time.tick = s.time.tick := congrArg TimeX.tick (wf_time ..)

theorem stepTo_stepAt (s : State) (n l : Nat) : mget 0 (s.stepTo n l).pwr.stepAt n = s.time.tick + 1 := by
  rw [State.stepTo, wf_pwr]
  exact mget_mset_of_ne_default (Nat.succ_ne_zero _)

/-- At level 8 the region asks for nothing more, and the time of it is kept. -/
theorem stepTo_full (hw : mapCanon 0 s.pwr.want = true) (hf : mapCanon 0 s.pwr.fullAt = true) :
    mget 0 (s.stepTo n 8).pwr.want n = 0 ∧ mget 0 (s.stepTo n 8).pwr.fullAt n = s.time.tick := by
  rw [State.stepTo, wf_pwr]
  exact ⟨mget_mset_same hw, mget_mset_same hf⟩

/-- A region that has just taken a step waits for the gap (R629). -/
theorem not_stepReady_of_stepped (hpwr : t.pwr = (s.stepTo n l).pwr) (htick : t.time.tick = s.time.tick) : t.stepReady n = false := by
  simp only [State.stepReady, hpwr, stepTo_stepAt, htick, stepGap, Bool.and_eq_false_iff]
  exact .inr (by simp)

theorem sameButPower_refill (s : State) : SameButPower s s.refill := sameButPower_withPwr ..

end Grant

section GrantClauses

variable {s : State} {n : Region} {k : Nat}

theorem levelStepGrant_down (hs : s.regsCanon = true) (hp : s.powered = true) (hk : k < 8) (hn : (s.pwr.ptr + k) % 8 = n)
    (hfirst : ∀ j, j < k → s.stepReady ((s.pwr.ptr + j) % 8) = false) (hw : s.wants n = 1) (hr : s.stepReady n = true)
    (hb : stepMa ≤ s.refill.pwr.budget) (hl : s.level n ≠ 0) :
    ∃ t, exec .levelStepGrant s = .next t ∧ t.level n = s.level n - 1 ∧ t.pwr.budget = s.refill.pwr.budget - stepMa ∧ t.pwr.ptr = (n + 1) % 8 ∧
      t.stepReady n = false ∧ (∀ m, m < 8 → m ≠ n.val → t.level m = s.level m) ∧
      (s.level n ≠ 1 → FieldsKept s t [PWR_STATUS.LEVEL n] ∧ t = { s with regs := t.regs, pwr := t.pwr }) ∧
      (s.level n = 1 → t = { s with regs := t.regs, pwr := t.pwr, evts := t.evts, free := t.free }) := by
  have hmax : s.level n < 2 ^ 4 := rf_lt _
  have hrun := levelStepGrant_of_ready hp hk hn hfirst hr hb
  by_cases h1 : s.level n = 1
  · have hstop := freeChanges_clocksStop (s := s.refill) n.isLt
    have hrun' := hrun.trans (takeStep_to_zero n.isLt hw h1)
    generalize s.refill.clocksStop n = u at hstop hrun'
    have hus : u.regsCanon = true := hstop.canon hs
    have hframe : SameButPower s (u.stepTo n 0) := ((sameButPower_refill s).trans hstop.power).trans sameButPower_stepTo
    refine ⟨_, (exec_levelStepGrant s).trans (congrArg _ hrun'), ?_, ?_, stepTo_ptr .., not_stepReady_of_stepped rfl (tick_stepTo ..),
      fun m hm hne => ?_, fun hne => absurd h1 hne, fun _ => hframe.noOutputs ?_⟩
    · rw [level_stepTo_same hus (by decide), h1]
    · rw [stepTo_budget, hstop.same]
    · rw [level_stepTo_ne hus hne, level_of_changes hstop.toChanges hm]; rfl
    · rw [stepTo_outputs, hstop.same]; rfl
  · have hrun' : levelStepGrant s = s.refill.stepTo n (s.level n - 1) := hrun.trans (takeStep_down hw h1 hl)
    have hframe : SameButPower s (s.refill.stepTo n (s.level n - 1)) := (sameButPower_refill s).trans sameButPower_stepTo
    have hquiet := hframe.noEvents (stepTo_evts s.refill n (s.level n - 1))
    rw [stepTo_free, stepTo_outputs] at hquiet
    exact ⟨_, (exec_levelStepGrant s).trans (congrArg _ hrun'), level_stepTo_same (s := s.refill) hs (by omega),
      stepTo_budget .., stepTo_ptr .., not_stepReady_of_stepped rfl (tick_stepTo ..), fun m _ hne => level_stepTo_ne (s := s.refill) hs hne,
      fun _ => ⟨fieldsKept_stepTo (s := s.refill) hs, hquiet⟩, fun h => absurd h h1⟩

theorem levelStepGrant_up (hs : s.regsCanon = true) (hwant : mapCanon 0 s.pwr.want = true) (hfull : mapCanon 0 s.pwr.fullAt = true)
    (hp : s.powered = true) (hk : k < 8) (hn : (s.pwr.ptr + k) % 8 = n)
    (hfirst : ∀ j, j < k → s.stepReady ((s.pwr.ptr + j) % 8) = false) (hw : s.wants n = 2) (hr : s.stepReady n = true)
    (hb : stepMa ≤ s.refill.pwr.budget) (hl : s.level n < 8) :
    ∃ t, exec .levelStepGrant s = .next t ∧ t.level n = s.level n + 1 ∧ t.pwr.budget = s.refill.pwr.budget - stepMa ∧ t.pwr.ptr = (n + 1) % 8 ∧
      t.stepReady n = false ∧ (s.level n = 7 → t.wants n = 0 ∧ mget 0 t.pwr.fullAt n = s.time.tick) ∧
      (∀ m, m < 8 → m ≠ n.val → t.level m = s.level m) ∧ t = { s with regs := t.regs, pwr := t.pwr, evts := t.evts } := by
  have hrun : levelStepGrant s = (s.refill.stepTo n (s.level n + 1)).countStepUp :=
    (levelStepGrant_of_ready hp hk hn hfirst hr hb).trans (takeStep_up hw)
  have hcount := evtChanges_countStepUp (s.refill.stepTo n (s.level n + 1))
  refine ⟨_, (exec_levelStepGrant s).trans (congrArg _ hrun), ?_⟩
  generalize (s.refill.stepTo n (s.level n + 1)).countStepUp = t at hcount
  have hpwr : t.pwr = (s.refill.stepTo n (s.level n + 1)).pwr := by rw [hcount.same]
  have hlevel : t.level n = s.level n + 1 := (level_of_changes hcount.toChanges n.isLt).trans (level_stepTo_same (s := s.refill) hs (by omega))
  have hframe : SameButPower s t := ((sameButPower_refill s).trans sameButPower_stepTo).trans hcount.same.power
  refine ⟨hlevel, ?_, ?_, not_stepReady_of_stepped hpwr hframe.tick, fun h7 => ?_, fun m hm hne => ?_, ?_⟩
  · rw [hpwr, stepTo_budget]
  · rw [hpwr, stepTo_ptr]
  · obtain ⟨hask, hat⟩ := stepTo_full (s := s.refill) (n := n) hwant hfull
    rw [h7] at hpwr hlevel
    have hhalt : t.halted = false := (halted_congr ((hcount.rf_low rfl chipState_not_mem_sideWords).trans
      (chipState_stepTo (s := s.refill) hs))).trans (not_halted_of_wants_up hw)
    exact ⟨wants_of_full hhalt hlevel (hpwr ▸ hask), hpwr ▸ hat⟩
  · exact (level_of_changes hcount.toChanges hm).trans (level_stepTo_ne (s := s.refill) hs hne)
  · have hfree : t.free = s.free := by rw [hcount.same]; exact stepTo_free ..
    have hsilent := hframe.noOutputs (by rw [hcount.same]; exact stepTo_outputs ..)
    rwa [hfree] at hsilent

theorem levelStepGrant_waits (hp : s.powered = true) (h : (∀ n, n < 8 → s.stepReady n = false) ∨ s.refill.pwr.budget < stepMa) :
    ∃ t, exec .levelStepGrant s = .next t ∧ t.pwr.budget = min stepMa (s.pwr.budget + (s.time.tick - s.pwr.budgetAt) * s.rf PWR_CFG.SLEW) ∧
      t = { s with pwr := { s.pwr with budget := t.pwr.budget, budgetAt := s.time.tick } } :=
  ⟨_, (exec_levelStepGrant s).trans (congrArg _ (levelStepGrant_of_none hp h)), rfl, rfl⟩

theorem levelStepGrant_unpowered (hp : s.powered = false) : exec .levelStepGrant s = .next s := by
  simp [exec_levelStepGrant, levelStepGrant, hp]

end GrantClauses

end Sys2Proof.Machine
open Sys2Proof Sys2Proof.Machine

/-- Settles O49, clause by clause: each is the rule of its command above. That the PMBus codes are those of PMBus 1.3 is log entry 132, the warning at
the upward crossing of WARN_C log entry 134, what makes a region idle log entry 135, and the word for a voltage between two values of the linear format
log entry 219: the model's choices. -/
theorem powerAndGovernor : Obligations.PowerAndGovernor := by
  unfold Obligations.PowerAndGovernor
  refine ⟨?voltage, ?linear, ?voltageOff, ?poll, ?pollOff, ?thermal, ?rail, ?idle, ?wake, ?down, ?up, ?waits, ?grantOff⟩
  case voltage =>
    exact fun s target fails hs hp => ⟨avsTick_acked hs hp, avsTick_failed hs hp, avsTick_fixes hs hp, avsTick_once hp, avsTick_fix_failed hs hp⟩
  case linear => exact fun s h n => voutWord_near
  case voltageOff => exact fun s target fails => avsTick_unpowered
  case poll => exact fun s iout uv oc pgood f1 f2 hs hp => ⟨pmbusPoll_acked hs hp, pmbusPoll_fault hs hp, pmbusPoll_nack hs hp⟩
  case pollOff => exact fun s iout uv oc pgood f1 f2 c hp => ⟨pmbusPoll_unpowered hp, thermalRead_unpowered hp⟩
  case thermal =>
    exact fun s c hs hp => ⟨thermalRead_below_warning hs hp, thermalRead_crosses_warning hs hp, thermalRead_past_warning hs hp, thermalRead_trips hs hp⟩
  case rail => exact fun s hs => ⟨railLow_ignored, railLow_halts hs⟩
  case idle => exact fun s n => ⟨idleStepDown_asks, idleStepDown_ignored⟩
  case wake => exact fun s n => ⟨wakeStepUp_asks, wakeStepUp_ignored⟩
  case down => exact fun s n k => levelStepGrant_down
  case up => exact fun s n k => levelStepGrant_up
  case waits => exact fun s => levelStepGrant_waits
  case grantOff => exact fun s => levelStepGrant_unpowered
end
